-- ==== Sys2Proof/Word.lean ====
section
/-! DEFINITION. The words of the machine and the sparse tables its memories are held in (spec/00_scope.md R6, spec/02_stream_cores.md R32). -/

namespace Sys2Proof

/-- A byte of memory. -/
abbrev Byte := BitVec 8
/-- A register of register space (R7). -/
abbrev Word32 := BitVec 32
/-- A general or predicate register of a programmable engine (R32). -/
abbrev Word64 := BitVec 64
/-- A vector register of 64 byte lanes (R32, R34). -/
abbrev Vec := BitVec 512
/-- A table from Nat keys to values, held as pairs with strictly rising keys and no default value listed;
`Sparse.wf` in Machine/Sparse.lean is that form. -/
abbrev Sparse (α : Type) := List (Nat × α)

end Sys2Proof
end

