-- ==== Sys2Proof/Machine/Sparse.lean ====
section
/-! DEFINITION. Reading and writing the canonical tables of `Sys2Proof.Sparse`. -/

namespace Sys2Proof

/-- Keep the entries whose key and value satisfy `p`. -/
def Sparse.filter {α : Type} (p : Nat → α → Bool) : Sparse α → Sparse α
  | [] => []
  | (j, w) :: t => if p j w then (j, w) :: Sparse.filter p t else Sparse.filter p t

/-- The value at key `k`, `d` where none is listed. -/
def Sparse.get {α : Type} (d : α) (k : Nat) : Sparse α → α
  | [] => d
  | (j, w) :: t => if j = k then w else Sparse.get d k t

/-- Drop what is listed at key `k`. -/
def Sparse.erase {α : Type} (k : Nat) (m : Sparse α) : Sparse α := Sparse.filter (fun j _ => j != k) m

/-- Enter `v` at key `k`, before the first higher key. -/
def Sparse.insert {α : Type} (k : Nat) (v : α) : Sparse α → Sparse α
  | [] => [(k, v)]
  | (j, w) :: t => if k < j then (k, v) :: (j, w) :: t else (j, w) :: Sparse.insert k v t

/-- Put `v` at key `k`; the default value leaves no entry. -/
def Sparse.set {α : Type} [DecidableEq α] (d : α) (k : Nat) (v : α) (m : Sparse α) : Sparse α :=
  if v = d then Sparse.erase k m else Sparse.insert k v (Sparse.erase k m)

/-- Change the value at key `k` by `f`. -/
def Sparse.modify {α : Type} [DecidableEq α] (d : α) (k : Nat) (f : α → α) (m : Sparse α) : Sparse α :=
  Sparse.set d k (f (Sparse.get d k m)) m

/-- The canonical form: keys strictly rising from `lo` on, and no default value listed. -/
def Sparse.wfFrom {α : Type} [DecidableEq α] (d : α) (lo : Nat) : Sparse α → Bool
  | [] => true
  | (j, w) :: t => decide (lo ≤ j) && decide (w ≠ d) && Sparse.wfFrom d (j + 1) t

/-- The canonical form of a table. -/
def Sparse.wf {α : Type} [DecidableEq α] (d : α) (m : Sparse α) : Bool := Sparse.wfFrom d 0 m

/-- The least key at or above `k` that is not listed. -/
def Sparse.freshFrom {α : Type} (k : Nat) : Sparse α → Nat
  | [] => k
  | (j, _) :: t => if j < k then Sparse.freshFrom k t else if j = k then Sparse.freshFrom (k + 1) t else k

end Sys2Proof
end

