-- ==== Sys2Proof/Machine/Stored.lean ====
section
/-! DEFINITION. What the carriers keep of the array's metadata: quire records (R302), content records (R266), the trees (R268, R269),
namespaces, views (R466) and checkpoints (R338 to R340). -/

namespace Sys2Proof.Machine

/-- A TARGET entry: the position under rebuild and its new erase group (R302). -/
structure Target where
  position : Nat
  carrier : Nat
  egroup : Nat
  deriving DecidableEq, Repr

/-- A quire record (R302), and the quire's read pins (R286). -/
structure Quire where
  state : Nat
  slc : Bool
  purpose : Nat
  d : Nat
  w : Nat
  rows : Nat
  rowsDone : Nat
  openCycle : Word64
  closeCycle : Word64
  validBytes : Nat
  /-- Bit p: position p is failed. -/
  failed : Nat
  /-- CARRIER and EGROUP of each position. -/
  pos : List (Nat × Nat)
  targets : List Target
  pins : Nat
  deriving DecidableEq, Repr

/-- No record. -/
def Quire.none : Quire :=
  { state := 0, slc := false, purpose := 0, d := 0, w := 0, rows := 0, rowsDone := 0, openCycle := 0, closeCycle := 0,
    validBytes := 0, failed := 0, pos := [], targets := [], pins := 0 }

/-- What a block is mapped to (R270). -/
inductive Mapped where
  | unmapped
  | zero
  | unreadable
  | cid (n : Nat)
  deriving DecidableEq, Repr

/-- A shelfmark (R264). -/
structure Shelf where
  quire : Nat
  row : Nat
  member : Nat
  offset : Nat
  length : Nat
  deriving DecidableEq, Repr

/-- The shelfmark that names no location. -/
def Shelf.none : Shelf := { quire := 0, row := 0, member := 0, offset := 0, length := 0 }

/-- A content record (R266), without its key FIRST_CID and its CHECK. -/
structure Content where
  blocks : Nat
  position : Nat
  lost : Bool
  nextPresent : Bool
  released : Nat
  profile : Nat
  domain : Nat
  revision : Nat
  keyGen : Nat
  chainPrev : Nat
  shelf : Shelf
  created : Nat
  digests : List (List Byte)
  counts : List Nat
  deriving DecidableEq, Repr

/-- No record: BLOCKS 0. -/
def Content.none : Content :=
  { blocks := 0, position := 0, lost := false, nextPresent := false, released := 0, profile := 0, domain := 0, revision := 0,
    keyGen := 0, chainPrev := 0, shelf := Shelf.none, created := 0, digests := [], counts := [] }

/-- A group of 8 blocks in a catalogue leaf, in folio or leaf form (R269). -/
structure Group where
  lba : Nat
  folio : Bool
  heat : Nat
  blocks : List Mapped
  /-- TOUCHED of each leaf entry. -/
  touched : List Bool
  deriving DecidableEq, Repr

/-- A node of either tree (R268): a catalogue leaf holds groups, a content leaf the FIRST_CIDs of its records, an interior node its children
with their lowest keys. -/
structure CatNode where
  /-- A node of the content tree. -/
  content : Bool
  level : Nat
  nsid : Nat
  view : Nat
  epoch : Nat
  groups : List Group
  recs : List Nat
  kids : List (Nat × Nat)
  deriving DecidableEq, Repr

/-- No node. -/
def CatNode.none : CatNode := { content := false, level := 0, nsid := 0, view := 0, epoch := 0, groups := [], recs := [], kids := [] }

/-- A namespace of the pair (R272, R339, R371). -/
structure Namespace where
  profile : Nat
  domain : Nat
  size : Nat
  /-- In the ANA group of custody set B (R371, R446). -/
  groupB : Bool
  deriving DecidableEq, Repr

/-- No namespace: size 0. -/
def Namespace.none : Namespace := { profile := 0, domain := 0, size := 0, groupB := false }

/-- A view (R465, R466). -/
structure View where
  view : Nat
  nsid : Nat
  kind : Nat
  deleting : Bool
  isSealed : Bool
  successor : Nat
  cycle : Nat
  root : Nat
  /-- SEAL of R466, packed. -/
  manifestAt : Nat
  label : List Byte
  deriving DecidableEq, Repr

/-- What journal items build: the trees, views, namespaces, keys and the reshape state. -/
structure Catalogue where
  nodes : Sparse CatNode
  nextNode : Nat
  namespaces : Sparse Namespace
  views : List View
  nextView : Nat
  content : Sparse Content
  /-- The content tree's root, 0 before its first record. -/
  contentRoot : Nat
  /-- The cycle whose items are applied. -/
  now : Nat
  /-- Content IDs in quarantine: one above the cycle after which their count was 0 (R231). -/
  quarantine : Sparse Nat
  /-- Highest key generation of head 0 and of head 1 of a domain, one above it, 0 for none (R257). -/
  gens0 : Sparse Nat
  gens1 : Sparse Nat
  /-- The last RESHAPE item applied (R303). -/
  reshape : List Byte
  /-- POSITION items held for the OPENED that follows: quire, position, carrier, erase group (R303). -/
  positions : List (Nat × Nat × Nat × Nat)
  deriving DecidableEq, Repr

/-- An empty catalogue. -/
def Catalogue.empty : Catalogue :=
  { nodes := [], nextNode := 1, namespaces := [], views := [], nextView := 1, content := [], contentRoot := 0, now := 0, quarantine := [], gens0 := [],
    gens1 := [], reshape := [], positions := [] }

/-- A checkpoint as the carriers hold it: the header of R340 and what its pages store (R338, R339). -/
structure Checkpoint where
  head : Nat
  solo : Bool
  seq : Nat
  cycle : Nat
  arrayId : List Byte
  keyCheck : List Byte
  cat : Catalogue
  quires : Sparse Quire
  batch : Nat
  quireHigh : Nat
  entryHigh : Nat
  conserveQuire : Nat
  conserveRow : Nat
  dumpRes : List Nat
  level : Nat
  /-- Carriers the header is written on. -/
  copies : Nat
  /-- Checkpoint quires that take its pages, and in SOLO the one that takes table copy B. -/
  own : List Nat
  second : Option Nat
  /-- Where each node's stored copy lies (SHELF of R268). -/
  shelves : Sparse Shelf
  /-- Quire, first row and rows of quire-table copies A and B and of the state block; zeros where not written. -/
  qtA : Nat × Nat × Nat
  qtB : Nat × Nat × Nat
  stateAt : Nat × Nat × Nat
  deriving DecidableEq, Repr

/-- A dump as its rows hold it (R331 to R336): the head and sequence, whether its key came from the array's master key, and the encrypted
4,096-byte units of REGION 0 and REGION 1 by REGION_OFF / 4,096. -/
structure DumpImage where
  head : Nat
  seq : Nat
  byMaster : Bool
  region0 : List (Nat × List Byte)
  region1 : List (Nat × List Byte)
  deriving DecidableEq, Repr

end Sys2Proof.Machine
end

