-- ==== Sys2Proof/Syntax.lean ====
section
/-! DEFINITION. The commands of the block: one constructor per row of spec/opcode_table.json, with the row's operands. -/

namespace Sys2Proof

open Sys2Proof.Machine (Checkpoint DumpImage)

/-- What a carrier reports of itself in IDENTIFY and never changes (R396). -/
structure CarrierIdent where
  level : Nat
  serial : List Byte
  egroups : Nat
  qlcPages : Nat
  slcPages : Nat
  qlcEndurance : Nat
  slcEndurance : Nat
  vstep : Nat
  retrySets : Nat
  times : List Nat
  retryTable : List Byte
  deriving DecidableEq, Repr

/-- No carrier. -/
def CarrierIdent.blank : CarrierIdent :=
  { level := 0, serial := [], egroups := 0, qlcPages := 0, slcPages := 0, qlcEndurance := 0, slcEndurance := 0,
    vstep := 0, retrySets := 0, times := [], retryTable := [] }

/-- What the world outside shows the programs in the course of one command: bytes that a carrier cannot correct, as quire, row, member, offset
and length (R311); index entries whose CHECK fails, as tier and content ID (R223); FIRST_CIDs whose engine commands failed on every unit tried
(R358); blocks read from the partner's mirror, by logical block (R136, R350); and for each row programmed in turn the positions whose program
fails (R288). -/
structure Seen where
  unread : List (Nat × Nat × Nat × Nat × Nat)
  badEntries : List (Nat × Nat)
  exhausted : List Nat
  remote : List (Nat × List Byte)
  fails : List (List Nat)
  deriving DecidableEq, Repr

/-- What a head that runs RESTORE finds on the carriers besides its own writings: the partner's checkpoint of highest SEQ that can be
read; the partner's dump; and whether its own dump's LAST row is
accepted and a copy of the quire table can be read (R342, R344). -/
structure Shows where
  checkpoint : Option Checkpoint
  dump : Option DumpImage
  ownDump : Bool
  table : Bool
  deriving DecidableEq, Repr

/-- A carrier whose link comes up when RESTORE brings up the root ports: its slot, the code of its width, what IDENTIFY reports of it, its
label, and whether the partner reports the same SERIAL under the same number (R388, R505). -/
structure Found where
  slot : Nat
  width : Nat
  ident : CarrierIdent
  array : List Byte
  number : Nat
  agreed : Bool
  deriving DecidableEq, Repr

/-- The clocks whose loss R578 describes. -/
inductive Refclk where
  | pcieHost
  | pcieMedia
  | pcieCxl
  | ethernet
  | crystal
  deriving DecidableEq, Repr

/-- What QUIRE_OPEN opens: a PURPOSE of R302, and free erase groups, by carrier, whose erase fails meanwhile (R288). -/
structure QuireOpening where
  purpose : Nat
  failed : List (Nat × Nat)
  deriving DecidableEq, Repr

/-- What fails while a checkpoint is written: the carriers on which the header's program fails, and the positions whose program fails for
each row in turn (R288, R340). -/
structure CheckpointFails where
  header : List Nat
  rows : List (List Nat)
  deriving DecidableEq, Repr

/-- A command of the block. An instruction's `k` names the engine that executes it (0-95 stream core, 96-99 keeper
core, 100-115 packet engine, 116-123 carrier sequencer); `src` is a requester in the coding of R61. -/
inductive Instr where
  /-- COLD_START (R4): The always-on island powers up after both VIN and VHOLD were absent, restarts SYS_ELAPSED at zero and runs the staged start to SAFE. -/
  | coldStart (head : Bool) (fuses : Option (List Word32)) (vin vhold : Nat)
  /-- POWER_RETURN (R496): VIN comes good while VHOLD kept the island powered, and the device restarts to SAFE keeping elapsed time, fences and trims. -/
  | powerReturn
  /-- WARM_RESET (R513): A keyed write of SYS_RESET releases custody, runs the drain and dump where needed, resets every unit except the always-on island and restarts to SAFE. -/
  | warmReset (src : Nat) (v : Word32)
  /-- WARM_RESET_N (R566): A falling edge held low for 10 us on WARM_RESET_N starts a warm reset. -/
  | warmResetN (low : Bool)
  /-- VIN_GOOD (R572): VIN has stayed in range for 1 ms, which sets VIN_GOOD and starts the measured start. -/
  | vinGood (mv : Nat)
  /-- POWER_LOSS_REPORT (R330): VIN stays below 5.6 V for 20 us with VHOLD good, so custody is released, intake stops and the drain phase of the dump begins. -/
  | powerLossReport (vin : Nat)
  /-- DUMP_PHASE (R331): At 50 ms the dump phase encrypts both buffer regions and writes them to the dump reserve as full stripes. -/
  | dumpPhase
  /-- DUMP_CLOSE (R331): The LAST row of the dump is written and the device powers down to keeper-only standby. -/
  | dumpClose
  /-- VIN_OVERVOLTAGE (R573): VIN above 42 V for 20 us disconnects VIN, which then fails as under R330. -/
  | vinOvervoltage (mv : Nat)
  /-- ISLAND_SUPPLY_FAIL (R572): VIN and VHOLD both fall below 5.2 V, the island stops and the next start is cold. -/
  | islandSupplyFail (vin vhold : Nat)
  /-- HOLDUP_READY_CHANGE (R575): VHOLD crosses 10.0 V rising or 9.5 V falling, and HOLDUP_READY follows. -/
  | holdupReadyChange (mv : Nat)
  /-- REFCLK_LOSS (R578): A reference clock or the crystal stops, and the links or functions it serves go down. -/
  | refclkLoss (clock : Refclk)
  /-- REFCLK_RETURN (R578): A lost reference clock returns, and each link it serves retrains by itself. -/
  | refclkReturn (clock : Refclk)
  /-- THERMAL_SAMPLE (R584): Every 10 us the governor samples the die sensors and throttles, ends throttling, releases custody or alarms by threshold. -/
  | thermalSample (raw : List Int)
  /-- REGISTER_WRITE (R7): A write to a register that has no row of its own stores, sets or clears fields by their access codes, or is discarded. -/
  | registerWrite (src a : Nat) (v : Word32)
  /-- UNALIGNED_REGISTER_ACCESS (R586): A register access that is not one aligned 32-bit access is split into words, reading partial words and discarding partial writes. -/
  | unalignedRegisterAccess (src a n : Nat) (data : Option (List Byte))
  /-- READ_LOW_HALF (R8): A read of a 64-bit register's low half copies its high half into the requester's tagged read shadow. -/
  | readLowHalf (src a : Nat)
  /-- READ_HIGH_HALF (R8): A read of a 64-bit register's high half returns the shadow when the tag matches, and the live half otherwise. -/
  | readHighHalf (src a : Nat)
  /-- WRITE_LOW_HALF (R8): A write of a 64-bit register's low half is held in the requester's tagged write holding register. -/
  | writeLowHalf (src a : Nat) (v : Word32)
  /-- WRITE_HIGH_HALF (R8): A write of a 64-bit register's high half makes the whole 64-bit value take effect in one clock. -/
  | writeHighHalf (src a : Nat) (v : Word32)
  /-- TRIM_BANK_WRITE (R503): A write of a TRIM_BANK word replaces the trim in use and sets TRIM_STATUS.WRITTEN. -/
  | trimBankWrite (src i : Nat) (v : Word32)
  /-- ILLEGAL_INSTRUCTION (R66): A word with an unassigned opcode or func, a nonzero zero field or an instruction outside the subset raises ILLEGAL_INSTRUCTION. -/
  | illegalInstruction (k : Nat) (w : Word32)
  /-- ADD (R68): gd = ga + gb. -/
  | add (k : Nat) (d a b : BitVec 5)
  /-- SUB (R68): gd = ga - gb. -/
  | sub (k : Nat) (d a b : BitVec 5)
  /-- AND (R68): gd = ga & gb. -/
  | and (k : Nat) (d a b : BitVec 5)
  /-- OR (R68): gd = ga | gb. -/
  | or (k : Nat) (d a b : BitVec 5)
  /-- XOR (R68): gd = ga ^ gb. -/
  | xor (k : Nat) (d a b : BitVec 5)
  /-- ANDN (R68): gd = ga & ~gb. -/
  | andn (k : Nat) (d a b : BitVec 5)
  /-- SLL (R68): Shifts ga left by gb[5:0]. -/
  | sll (k : Nat) (d a b : BitVec 5)
  /-- SRL (R68): Shifts ga right by gb[5:0] with zero fill. -/
  | srl (k : Nat) (d a b : BitVec 5)
  /-- SRA (R68): Shifts ga right by gb[5:0] with sign fill. -/
  | sra (k : Nat) (d a b : BitVec 5)
  /-- ROL (R68): Rotates ga left by gb[5:0]. -/
  | rol (k : Nat) (d a b : BitVec 5)
  /-- SLT (R68): Sets gd to 1 when ga < gb signed, else 0. -/
  | slt (k : Nat) (d a b : BitVec 5)
  /-- SLTU (R68): Sets gd to 1 when ga < gb unsigned, else 0. -/
  | sltu (k : Nat) (d a b : BitVec 5)
  /-- MUL (R68): gd = low 64 bits of ga x gb. -/
  | mul (k : Nat) (d a b : BitVec 5)
  /-- MULHU (R68): gd = high 64 bits of the unsigned product. -/
  | mulhu (k : Nat) (d a b : BitVec 5)
  /-- MULH (R68): gd = high 64 bits of the signed product. -/
  | mulh (k : Nat) (d a b : BitVec 5)
  /-- DIVU (R68): Unsigned division, with all ones for a zero divisor. -/
  | divu (k : Nat) (d a b : BitVec 5)
  /-- REMU (R68): Unsigned remainder, giving ga for a zero divisor. -/
  | remu (k : Nat) (d a b : BitVec 5)
  /-- MINU (R68): gd = smaller of ga and gb unsigned. -/
  | minu (k : Nat) (d a b : BitVec 5)
  /-- MAXU (R68): gd = larger of ga and gb unsigned. -/
  | maxu (k : Nat) (d a b : BitVec 5)
  /-- CLZ (R68): gd = leading zero bits of ga. -/
  | clz (k : Nat) (d a : BitVec 5)
  /-- CTZ (R68): gd = trailing zero bits of ga. -/
  | ctz (k : Nat) (d a : BitVec 5)
  /-- POPC (R68): gd = number of 1 bits in ga. -/
  | popc (k : Nat) (d a : BitVec 5)
  /-- BSWAP (R68): gd = ga with its bytes reversed. -/
  | bswap (k : Nat) (d a : BitVec 5)
  /-- ADDK (R69): gd = ga + sign-extended immediate. -/
  | addk (k : Nat) (d a : BitVec 5) (imm : BitVec 16)
  /-- ANDK (R69): gd = ga & zero-extended immediate. -/
  | andk (k : Nat) (d a : BitVec 5) (imm : BitVec 16)
  /-- ORK (R69): gd = ga | zero-extended immediate. -/
  | ork (k : Nat) (d a : BitVec 5) (imm : BitVec 16)
  /-- XORK (R69): gd = ga ^ zero-extended immediate. -/
  | xork (k : Nat) (d a : BitVec 5) (imm : BitVec 16)
  /-- LTK (R69): Sets gd to 1 when ga < immediate signed. -/
  | ltk (k : Nat) (d a : BitVec 5) (imm : BitVec 16)
  /-- CSHL (R69): gd = (ga << 16) | immediate. -/
  | cshl (k : Nat) (d a : BitVec 5) (imm : BitVec 16)
  /-- CSET (R69): gd = zero-extended immediate. -/
  | cset (k : Nat) (d : BitVec 5) (imm : BitVec 16)
  /-- SHLK (R69): Shifts left by an immediate amount. -/
  | shlk (k : Nat) (d a : BitVec 5) (n : BitVec 6)
  /-- SHRK (R69): Shifts right with zero fill by an immediate amount. -/
  | shrk (k : Nat) (d a : BitVec 5) (n : BitVec 6)
  /-- SARK (R69): Shifts right with sign fill by an immediate amount. -/
  | sark (k : Nat) (d a : BitVec 5) (n : BitVec 6)
  /-- ROLK (R69): Rotates left by an immediate amount. -/
  | rolk (k : Nat) (d a : BitVec 5) (n : BitVec 6)
  /-- LD_B (R70): Loads a byte, zero-extended. -/
  | ldB (k : Nat) (d a : BitVec 5) (imm : BitVec 16)
  /-- LD_BS (R70): Loads a byte, sign-extended. -/
  | ldBs (k : Nat) (d a : BitVec 5) (imm : BitVec 16)
  /-- LD_H (R70): Loads 2 bytes, zero-extended. -/
  | ldH (k : Nat) (d a : BitVec 5) (imm : BitVec 16)
  /-- LD_HS (R70): Loads 2 bytes, sign-extended. -/
  | ldHs (k : Nat) (d a : BitVec 5) (imm : BitVec 16)
  /-- LD_W (R70): Loads 4 bytes, zero-extended. -/
  | ldW (k : Nat) (d a : BitVec 5) (imm : BitVec 16)
  /-- LD_WS (R70): Loads 4 bytes, sign-extended. -/
  | ldWs (k : Nat) (d a : BitVec 5) (imm : BitVec 16)
  /-- LD_D (R70): Loads an 8-byte word. -/
  | ldD (k : Nat) (d a : BitVec 5) (imm : BitVec 16)
  /-- ST_B (R70): Stores the low byte of gd. -/
  | stB (k : Nat) (d a : BitVec 5) (imm : BitVec 16)
  /-- ST_H (R70): Stores the low 2 bytes of gd. -/
  | stH (k : Nat) (d a : BitVec 5) (imm : BitVec 16)
  /-- ST_W (R70): Stores the low 4 bytes of gd. -/
  | stW (k : Nat) (d a : BitVec 5) (imm : BitVec 16)
  /-- ST_D (R70): Stores 8 bytes of gd. -/
  | stD (k : Nat) (d a : BitVec 5) (imm : BitVec 16)
  /-- VLD (R70): Loads 64 aligned bytes into a vector register. -/
  | vld (k : Nat) (d a : BitVec 5) (imm : BitVec 16)
  /-- VST (R70): Stores 64 bytes of a vector register. -/
  | vst (k : Nat) (d a : BitVec 5) (imm : BitVec 16)
  /-- VST_M (R71): Stores the byte lanes that a predicate selects, as one write with byte enables. -/
  | vstM (k : Nat) (d a : BitVec 5) (p : BitVec 3)
  /-- ATOM_ADD (R73): Atomically adds gb to memory and returns the old value. -/
  | atomAdd (k : Nat) (d a b : BitVec 5)
  /-- ATOM_SWAP (R73): Atomically swaps gb into memory and returns the old value. -/
  | atomSwap (k : Nat) (d a b : BitVec 5)
  /-- ATOM_CAS (R73): Atomically stores gb when memory equals gd, and returns the old value. -/
  | atomCas (k : Nat) (d a b : BitVec 5)
  /-- BEQ (R74): Branches when ga = gb. -/
  | beq (k : Nat) (a b : BitVec 5) (off : BitVec 16)
  /-- BNE (R74): Branches when ga != gb. -/
  | bne (k : Nat) (a b : BitVec 5) (off : BitVec 16)
  /-- BLT (R74): Branches when ga < gb signed. -/
  | blt (k : Nat) (a b : BitVec 5) (off : BitVec 16)
  /-- BGE (R74): Branches when ga >= gb signed. -/
  | bge (k : Nat) (a b : BitVec 5) (off : BitVec 16)
  /-- BLTU (R74): Branches when ga < gb unsigned. -/
  | bltu (k : Nat) (a b : BitVec 5) (off : BitVec 16)
  /-- BGEU (R74): Branches when ga >= gb unsigned. -/
  | bgeu (k : Nat) (a b : BitVec 5) (off : BitVec 16)
  /-- BPANY (R74): Branches when any bit of a predicate register is 1. -/
  | bpany (k : Nat) (p : BitVec 3) (off : BitVec 16)
  /-- BPNONE (R74): Branches when every bit of a predicate register is 0. -/
  | bpnone (k : Nat) (p : BitVec 3) (off : BitVec 16)
  /-- CALL (R75): Writes the link into gd and jumps to 4 x index16. -/
  | call (k : Nat) (d : BitVec 5) (index : BitVec 16)
  /-- CALLR (R75): Writes the link into gd and jumps to ga + imm, taking FETCH_FAULT for a bad target. -/
  | callr (k : Nat) (d a : BitVec 5) (imm : BitVec 16)
  /-- VADD (R76): Adds active vector elements. -/
  | vadd (k : Nat) (d a b : BitVec 5) (p : BitVec 3) (esz : BitVec 2)
  /-- VSUB (R76): Subtracts active vector elements. -/
  | vsub (k : Nat) (d a b : BitVec 5) (p : BitVec 3) (esz : BitVec 2)
  /-- VAND (R76): ANDs active vector elements. -/
  | vand (k : Nat) (d a b : BitVec 5) (p : BitVec 3) (esz : BitVec 2)
  /-- VOR (R76): ORs active vector elements. -/
  | vor (k : Nat) (d a b : BitVec 5) (p : BitVec 3) (esz : BitVec 2)
  /-- VXOR (R76): XORs active vector elements. -/
  | vxor (k : Nat) (d a b : BitVec 5) (p : BitVec 3) (esz : BitVec 2)
  /-- VANDN (R76): ANDs active elements with the complement of vb. -/
  | vandn (k : Nat) (d a b : BitVec 5) (p : BitVec 3) (esz : BitVec 2)
  /-- VMINU (R76): Takes the unsigned minimum of active elements. -/
  | vminu (k : Nat) (d a b : BitVec 5) (p : BitVec 3) (esz : BitVec 2)
  /-- VMAXU (R76): Takes the unsigned maximum of active elements. -/
  | vmaxu (k : Nat) (d a b : BitVec 5) (p : BitVec 3) (esz : BitVec 2)
  /-- VSLL (R76): Shifts active elements left. -/
  | vsll (k : Nat) (d a b : BitVec 5) (p : BitVec 3) (esz : BitVec 2)
  /-- VSRL (R76): Shifts active elements right with zero fill. -/
  | vsrl (k : Nat) (d a b : BitVec 5) (p : BitVec 3) (esz : BitVec 2)
  /-- VSRA (R76): Shifts active elements right with sign fill. -/
  | vsra (k : Nat) (d a b : BitVec 5) (p : BitVec 3) (esz : BitVec 2)
  /-- VMUL (R76): Multiplies active elements and keeps the low bits. -/
  | vmul (k : Nat) (d a b : BitVec 5) (p : BitVec 3) (esz : BitVec 2)
  /-- VBCAST (R76): Broadcasts a general register into active elements. -/
  | vbcast (k : Nat) (d a : BitVec 5) (p : BitVec 3) (esz : BitVec 2)
  /-- VEXT (R76): Extracts one element into a general register. -/
  | vext (k : Nat) (d a b : BitVec 5) (p : BitVec 3) (esz : BitVec 2)
  /-- VINS (R76): Inserts a general register into one element. -/
  | vins (k : Nat) (d a b : BitVec 5) (p : BitVec 3) (esz : BitVec 2)
  /-- VREDADD (R76): Sums the active elements into a general register. -/
  | vredadd (k : Nat) (d a : BitVec 5) (p : BitVec 3) (esz : BitVec 2)
  /-- VREDXOR (R76): XORs the active elements into a general register. -/
  | vredxor (k : Nat) (d a : BitVec 5) (p : BitVec 3) (esz : BitVec 2)
  /-- VMOV (R76): Copies active elements. -/
  | vmov (k : Nat) (d a : BitVec 5) (p : BitVec 3) (esz : BitVec 2)
  /-- VCMP_EQ (R77): Writes predicate bits for equal elements. -/
  | vcmpEq (k : Nat) (d : BitVec 3) (a b : BitVec 5) (p : BitVec 3) (esz : BitVec 2)
  /-- VCMP_NE (R77): Writes predicate bits for unequal elements. -/
  | vcmpNe (k : Nat) (d : BitVec 3) (a b : BitVec 5) (p : BitVec 3) (esz : BitVec 2)
  /-- VCMP_LTU (R77): Writes predicate bits for unsigned less-than. -/
  | vcmpLtu (k : Nat) (d : BitVec 3) (a b : BitVec 5) (p : BitVec 3) (esz : BitVec 2)
  /-- VCMP_LT (R77): Writes predicate bits for signed less-than. -/
  | vcmpLt (k : Nat) (d : BitVec 3) (a b : BitVec 5) (p : BitVec 3) (esz : BitVec 2)
  /-- VPERM (R78): Permutes bytes by index, zeroing lanes with bit 7 set. -/
  | vperm (k : Nat) (d a b : BitVec 5) (p : BitVec 3)
  /-- VSEL (R78): Selects each byte from va or vb by predicate. -/
  | vsel (k : Nat) (d a b : BitVec 5) (p : BitVec 3)
  /-- PAND (R79): ANDs predicate registers. -/
  | pand (k : Nat) (d a b : BitVec 3)
  /-- POR (R79): ORs predicate registers. -/
  | por (k : Nat) (d a b : BitVec 3)
  /-- PXOR (R79): XORs predicate registers. -/
  | pxor (k : Nat) (d a b : BitVec 3)
  /-- PANDN (R79): ANDs a predicate with the complement of another. -/
  | pandn (k : Nat) (d a b : BitVec 3)
  /-- PFROMG (R79): Moves a general register into a predicate. -/
  | pfromg (k : Nat) (d : BitVec 3) (a : BitVec 5)
  /-- PTOG (R79): Moves a predicate into a general register. -/
  | ptog (k : Nat) (d : BitVec 5) (a : BitVec 3)
  /-- PCNT (R79): Counts the 1 bits of a predicate. -/
  | pcnt (k : Nat) (d : BitVec 5) (a : BitVec 3)
  /-- VGF8MUL (R80): Multiplies bytes in GF(2^8) modulo 0x11D. -/
  | vgf8mul (k : Nat) (d a b : BitVec 5) (p : BitVec 3)
  /-- VGF128MUL_X (R80): Multiplies 16-byte lanes in GF(2^128) with the IEEE 1619 bit order. -/
  | vgf128mulX (k : Nat) (d a b : BitVec 5) (p : BitVec 3)
  /-- VGF128MUL_G (R80): Multiplies 16-byte lanes in GF(2^128) with the SP 800-38D bit order. -/
  | vgf128mulG (k : Nat) (d a b : BitVec 5) (p : BitVec 3)
  /-- ENQ (R81): Fences stores and sends a 64-byte command block to an engine queue, or writes NO_UNIT or NOT_PERMITTED at once. -/
  | enq (k : Nat) (gd vs gq : BitVec 5)
  /-- COMMAND_QUEUE_ARRIVAL (R82): A command block reaches its unit's queue and is accepted, or refused as QUEUE_FULL or FENCED. -/
  | commandQueueArrival (k i : Nat)
  /-- ENQ_STATUS_RETURN (R82): The enqueue status returns to the issuing engine and is written to gd. -/
  | enqStatusReturn (k i : Nat)
  /-- WNE (R83): Compares a local-store word with gb, and completes or stops issue until the word changes or an interrupt is due. -/
  | wne (k : Nat) (gd ga gb : BitVec 5)
  /-- WNE_WAKE (R83): A write changes the watched word, or an interrupt becomes due, and the waiting wne completes. -/
  | wneWake (k : Nat)
  /-- FENCE_W (R42): Holds later accesses until earlier stores have their write responses. -/
  | fenceW (k : Nat)
  /-- FENCE_RW (R42): Holds later accesses until earlier loads and stores complete. -/
  | fenceRw (k : Nat)
  /-- CBAR (R42): Fences, then waits until every core in the mask reaches a cbar with the same mask. -/
  | cbar (k : Nat) (mask : BitVec 8)
  /-- BARRIER_TIMEOUT (R45): A barrier has not completed within STC_BAR_TIMEOUT, and the core takes BARRIER_TIMEOUT. -/
  | barrierTimeout (k : Nat)
  /-- WAIT (R52): Stops issue until a pending interrupt source is unmasked. -/
  | wait (k : Nat)
  /-- WAIT_WAKE (R52): An unmasked pending bit appears, and wait resumes or takes the interrupt. -/
  | waitWake (k : Nat)
  /-- RESUME (R51): Clears IN_EXC, sets IE and continues at EPC. -/
  | resume (k : Nat)
  /-- TRAP (R84): Takes TRAP with the immediate in FAULT_ADDR. -/
  | trap (k : Nat) (imm : BitVec 12)
  /-- SYSRD (R84): Reads a core control register, clearing STC_CAUSE on the first read after resume. -/
  | sysrd (k : Nat) (d : BitVec 5) (num : BitVec 12)
  /-- SYSWR (R85): Writes a core control register, with W1C, kick and mask effects. -/
  | syswr (k : Nat) (a : BitVec 5) (num : BitVec 12)
  /-- INTERRUPT_ENTRY (R52): At an instruction boundary, an unmasked pending interrupt is taken while IE = 1 and IN_EXC = 0. -/
  | interruptEntry (k : Nat)
  /-- LOAD_DATA_RETURN (R590): A load beyond the local store returns its data, or its error, and writes the destination register. -/
  | loadDataReturn (k i : Nat)
  /-- STORE_ERROR_RESPONSE (R50): A store's bus error response returns, and the core takes STORE_BUS_ERROR at the next boundary or ends its wait. -/
  | storeErrorResponse (k i : Nat)
  /-- WATCHDOG_WARN (R54): The watchdog count reaches half its limit and sets WDOG_WARN. -/
  | watchdogWarn (k : Nat)
  /-- WATCHDOG_EXPIRY (R54): The watchdog count reaches its limit, so the core takes WATCHDOG, WDOG_EXPIRED is set and the count restarts. -/
  | watchdogExpiry (k : Nat)
  /-- TIMER_MATCH (R47): SYS_ELAPSED reaches STC_TIMER_CMP and sets STC_IRQ_PEND.TIMER. -/
  | timerMatch (k : Nat)
  /-- RUN_CORE (R57): A write of 1 to a RUN bit that reads 0 starts the core from offset 0 with its control registers reset. -/
  | runCore (k : Nat)
  /-- STOP_CORE (R57): Clearing a RUN bit stops issue at the next boundary while outstanding accesses complete. -/
  | stopCore (k : Nat)
  /-- CORE_STOP_COMPLETE (R57): A stopping core's outstanding loads and stores complete, it shows stopped, and a pending run starts. -/
  | coreStopComplete (k : Nat)
  /-- RING_DOORBELL (R56): A write of STC_DOORBELL sets the DOORBELL pending bit of each core named. -/
  | ringDoorbell (cl : Nat) (ring : BitVec 8)
  /-- CORE_FENCE (R58): A core is fenced, stops issue and takes its RUN bit to 0, and its outstanding work completes. -/
  | coreFence (src k : Nat)
  /-- CLUSTER_FENCE (R59): A cluster is fenced, its cores are fenced, its clock stops and its memories end in bus errors. -/
  | clusterFence (src cl : Nat)
  /-- ENGINE_BUS_ERROR (R107): An engine access meets a bus error, and the command stops issuing, waits for responses and ends with BUS_ERROR. -/
  | engineBusError (cls u kind addr : Nat)
  /-- ENGINE_COMMAND_COMPLETE (R94): An engine command's last write response returns, and the unit writes its completion record and sets the CQ bit. -/
  | engineCommandComplete (cls u q : Nat)
  /-- COPY (R104): A DMA channel copies data over three nested loops after its length and overlap checks. -/
  | dmaCopy (u : Nat)
  /-- FILL (R104): A DMA channel fills its destination with an 8-byte pattern. -/
  | dmaFill (u : Nat)
  /-- CHAIN (R108): A DMA channel executes a chain of memory descriptors as COPY or FILL. -/
  | dmaChain (u : Nat)
  /-- DESCRIPTOR_COMPLETE (R109): A descriptor's data writes return, its header is written DONE or BAD, and the next descriptor proceeds. -/
  | descriptorComplete (u : Nat)
  /-- DMA_CH_ABORT (R111): A write of ABORT ends the channel's command in service and its queued commands with ABORTED. -/
  | dmaChAbort (u : Nat)
  /-- DMA_ENG_FENCE (R113): Fences a DMA engine and its 64 channels. -/
  | dmaEngFence (src e : Nat)
  /-- DMA_CH_FENCE (R111): Fences a DMA channel, stopping a chain's descriptor as ABORTED with DSTATUS FENCED. -/
  | dmaChFence (src u : Nat)
  /-- BUFFER_SPACE_RETURN (R118): Write-buffer space returns, and the landing program takes up a held write command. -/
  | bufferSpaceReturn
  /-- LEDGER_CYCLE_CLOSE (R125): L has passed, or a cycle limit is hit, with the partner's previous record held, so the cycle closes, its record is sent and a new cycle opens. -/
  | ledgerCycleClose
  /-- LEDGER_RECORD (R128): The partner checks an arriving ledger record and applies it whole or refuses it. -/
  | ledgerRecord (slot : Nat)
  /-- LEDGER_CONFIRM (R129): A CONFIRM arrives, the cycle is marked confirmed, and acknowledgements and entry frees are released in order. -/
  | ledgerConfirm (slot : Nat)
  /-- LEDGER_REFUSE (R129): A REFUSE arrives, and the head repeats copies, resends records or reports LEVEL. -/
  | ledgerRefuse (slot : Nat)
  /-- CONFIRM_TIMEOUT (R131): No answer arrives within the confirm timeout, and the record is resent once per L and reported. -/
  | confirmTimeout
  /-- PLACE_ENTRY (R135): Placement takes a CONFIRMED entry and runs fingerprinting, dedup, folio forming, coding, encryption and row assembly. -/
  | placeEntry (seen : Seen) (fails : List (List Nat))
  /-- TIER2_DEADLINE (R224): A tier-2 index read passes its deadline and is abandoned, and the block becomes a survivor. -/
  | tier2Deadline (seen : Seen) (fails : List (List Nat))
  /-- HELD_FOLIOS_RESEND (R141): A domain's key slot is rekeyed, and placement resends the folios held for KEY_SPENT. -/
  | heldFoliosResend (domain : Nat) (fails : List (List Nat))
  /-- ROW_PAD_AGE_EXPIRY (R142): An open row reaches the row pad age, is padded with filler and is written. -/
  | rowPadAgeExpiry (q : Nat) (failed : List Nat)
  /-- ENCODE (R157): A coder lane takes an ENCODE into analysis, loading context when asked. -/
  | cmpEncode (u : Nat)
  /-- DECODE (R158): A lane decodes a coded folio after its checks, writing output progressively. -/
  | cmpDecode (cls u : Nat)
  /-- CODER_STAGE_COMPLETE (R153): A coder lane stage finishes a command's time, and the command passes to the next stage. -/
  | coderStageComplete (u stage : Nat) (agree : Bool)
  /-- CMP_LANE_FENCE (R176): Fences a coder lane, ending its commands with FENCED and resetting its contexts. -/
  | cmpLaneFence (src u : Nat)
  /-- CMP_DEC_FENCE (R176): Fences a decoder lane. -/
  | cmpDecFence (src u : Nat)
  /-- KNOWN_ANSWER_TEST (R457): Each ledger cycle the governor tests each idle engine unit and fences a unit that fails. -/
  | knownAnswerTest (cls u : Nat) (pass : Bool)
  /-- SHAKE256 (R209): A digest unit computes SHAKE256 over a source. -/
  | dgtShake256 (u : Nat)
  /-- KMAC256 (R209): A digest unit computes KMAC256 with a key slot and a customisation string. -/
  | dgtKmac256 (u : Nat)
  /-- FINGERPRINT (R211): A digest unit computes the TKFP fingerprint of each 4 KiB block. -/
  | dgtFingerprint (u : Nat)
  /-- VERIFY (R215): A digest unit compares each block's fingerprint with its expected digest through two comparators. -/
  | dgtVerify (u fm fn : Nat)
  /-- DGT_UNIT_FENCE (R221): Fences a digest unit and clears its state. -/
  | dgtUnitFence (src u : Nat)
  /-- DIGEST_SLOT_LOAD (R206): The keeper writes or clears a digest key slot in one clock. -/
  | digestSlotLoad (slot : Nat) (key : Option (List Byte))
  /-- APPLY_CYCLE (R230): With its own CONFIRM and the partner's record of a cycle held, a head applies both heads' items, increments before decrements. -/
  | applyCycle (seen : Seen)
  /-- CHECKPOINT_HEADER_WRITE (R340): With its checkpoint otherwise complete, a head writes its header into anchor slots on every carrier. -/
  | checkpointHeaderWrite (fails : CheckpointFails) (partnerHas : Bool)
  /-- ENCRYPT (R239): A cipher unit encrypts blocks with optional input and output whitening, claiming uses. -/
  | cphEncrypt (u n : Nat)
  /-- DECRYPT (R239): A cipher unit decrypts blocks with optional whitening. -/
  | cphDecrypt (u n : Nat)
  /-- CTR (R239): A cipher unit runs counter mode and checks a GCM tag when asked. -/
  | cphCtr (u n : Nat)
  /-- CIPHER_SUSPEND (R249): At the next block boundary after a queue-0 command arrives, the command in service is suspended. -/
  | cipherSuspend (u : Nat)
  /-- CIPHER_RESUME (R249): Queue 0 empties or reaches its limit, and the suspended command resumes. -/
  | cipherResume (u : Nat)
  /-- KEY_SLOT_LOAD (R248): The keeper loads a cipher slot with new halves and a limit, count 0. -/
  | keySlotLoad (slot : Nat) (halfA halfB : List Byte) (limit : Nat) (readOnly : Bool)
  /-- KEY_SLOT_RETIRE (R248): The keeper makes a cipher slot READ_ONLY. -/
  | keySlotRetire (slot : Nat)
  /-- KEY_SLOT_CLEAR (R248): The keeper clears a cipher slot to EMPTY. -/
  | keySlotClear (slot : Nat)
  /-- NEW_KEY_GENERATION (R257): A write slot's count reaches 15/16 of its limit, and the head journals and loads a new key generation. -/
  | newKeyGeneration (domain : Nat)
  /-- CPH_UNIT_FENCE (R262): Fences a cipher unit and clears both contexts. -/
  | cphUnitFence (src u : Nat)
  /-- WALK (R277): A catalogue assist resolves a range of logical blocks through the catalogue tree. -/
  | catWalk (u : Nat)
  /-- FIND (R278): A catalogue assist copies the content record that holds a content ID. -/
  | catFind (u : Nat)
  /-- PROBE (R278): A catalogue assist probes one dedup index bucket for a fingerprint. -/
  | catProbe (u : Nat)
  /-- SCORE (R280): A catalogue assist scores weeding summaries and writes the top results. -/
  | catScore (u : Nat)
  /-- CAT_ASSIST_FENCE (R293): Fences a catalogue assist. -/
  | catAssistFence (src u : Nat)
  /-- FOLD_START (R283): Landing-zone occupancy reaches the fold start, and folding relocates closed SLC quires. -/
  | foldStart (seen : Seen) (fails : List (List Nat))
  /-- WEEDING_START (R284): Free QLC erase groups fall below the weeding start, and weeding relocates the highest-scored quires. -/
  | weedingStart (seen : Seen) (fails : List (List Nat))
  /-- WEAR_LEVEL_START (R290): The wear spread exceeds its limit, and the wear leveler relocates a cold quire. -/
  | wearLevelStart (seen : Seen) (fails : List (List Nat))
  /-- ERASE_AFTER_FREE (R345): A freed quire's FREED and MOVEs are durable and its pins are 0, and its erase groups are erased. -/
  | eraseAfterFree (q : Nat) (failed : List Nat)
  /-- CXL_PORT_FENCE (R294): Fences a CXL port after its nodes leave the directory. -/
  | cxlPortFence (src p : Nat)
  /-- QUIRE_OPEN (R301): A head chooses carriers and erase groups, and queues POSITION and OPENED items for a new quire. -/
  | quireOpen (opening : QuireOpening)
  /-- GENERATE (R307): A parity engine computes P and Q over the data members. -/
  | parGenerate (e : Nat)
  /-- RECONSTRUCT (R313): A parity engine rebuilds one or two missing members. -/
  | parReconstruct (e : Nat)
  /-- CHECK (R309): A parity engine computes syndromes over all members and reports their location. -/
  | parCheck (e : Nat)
  /-- PAR_ENG_FENCE (R310): Fences a parity engine. -/
  | parEngFence (src e : Nat)
  /-- REBUILD_BEGIN (R315): The owning head rebuilds a quire with a FAILED position in place, or relocates it. -/
  | rebuildBegin (seen : Seen) (fails : List (List Nat))
  /-- LOST_REPAIR (R319): The head repairs a LOST chain suffix from a replication peer at the next revision. -/
  | lostRepair (f : Nat) (seen : Seen) (fails : List (List Nat))
  /-- CONSERVATION_ROW (R321): The conservation pass checks one row's parity, decodes and verifies its folios, and acts on what it finds. -/
  | conservationRow (seen : Seen) (fails : List (List Nat))
  /-- RESHAPE_STEP (R324): The reshape boundary advances past a conforming or freed quire. -/
  | reshapeStep (seen : Seen) (fails : List (List Nat))
  /-- NVME_READ (R351): A Read is resolved from the buffer or the catalogue, then read, decrypted, decoded and verified per block. -/
  | nvmeRead (c cid nsid slba nblk : Nat) (seen : Seen)
  /-- ICREQ (R366): An ICReq is answered with ICResp, or an unsupported parameter closes the connection. -/
  | icreq (c port maxR2t : Nat) (hdgst ddgst unsupported : Bool)
  /-- H2C_TERM_REQ (R366): A host's H2CTermReq terminates the connection. -/
  | h2cTermReq (c : Nat)
  /-- CONNECT (R367): A Connect creates a controller or an I/O queue, within the limits. -/
  | nvmeConnect (c cid qid sqsize cntlid kato : Nat) (hostNqn subNqn : List Byte)
  /-- PROPERTY_GET (R368): Returns a controller property. -/
  | propertyGet (c cid off : Nat)
  /-- PROPERTY_SET (R377): Sets a controller property; clearing CC.EN or a shutdown ends the controller's queues. -/
  | propertySet (c cid off v : Nat)
  /-- DISCONNECT (R376): Ends the queue of a connection. -/
  | nvmeDisconnect (c cid : Nat)
  /-- NVME_IDENTIFY (R369): Returns Identify data for the supported CNS values. -/
  | nvmeIdentify (c cid cns nsid : Nat)
  /-- GET_LOG_PAGE (R381): Returns a log page, including C4h deferred errors. -/
  | getLogPage (c cid lid off len : Nat) (rae : Bool)
  /-- SET_FEATURES (R368): Sets a supported feature. -/
  | setFeatures (c cid fid v : Nat)
  /-- GET_FEATURES (R368): Returns a supported feature. -/
  | getFeatures (c cid fid : Nat)
  /-- ASYNCHRONOUS_EVENT_REQUEST (R368): Holds an event request outstanding for later events. -/
  | asynchronousEventRequest (c cid : Nat)
  /-- KEEP_ALIVE (R368): Resets the keep-alive timer. -/
  | keepAlive (c cid : Nat)
  /-- KEEP_ALIVE_EXPIRY (R377): The keep-alive timer expires, and the controller is treated as reset. -/
  | keepAliveExpiry (id : Nat)
  /-- ABORT (R375): Abort completes with command not aborted and touches nothing. -/
  | nvmeAbort (c cid : Nat)
  /-- NAMESPACE_CREATE (R371): Namespace Management create journals a NAMESPACE item and returns the new NSID once it is durable. -/
  | namespaceCreate (c cid nsze ncap flbas group profile domain : Nat)
  /-- NAMESPACE_DELETE (R372): Namespace Management delete journals a DELETE and completes once it is durable. -/
  | namespaceDelete (c cid nsid : Nat)
  /-- NVME_WRITE (R119): A Write is split into entries, which are allocated, landed and mirrored after R2T data. -/
  | nvmeWrite (c cid nsid slba nblk : Nat) (data : Option (List Byte)) (sgl : Nat) (dataOk : Bool) (fails : Nat)
  /-- WRITE_ZEROES (R368): Write Zeroes is held as NO_DATA entries. -/
  | writeZeroes (c cid nsid slba nblk : Nat) (deac : Bool)
  /-- DATASET_MANAGEMENT (R368): Deallocate ranges are held as unmapping NO_DATA entries. -/
  | datasetManagement (c cid nsid : Nat) (ad : Bool) (ranges : List (Nat × Nat))
  /-- FLUSH (R378): Flush completes once the queue's earlier writes are decided. -/
  | nvmeFlush (c cid nsid : Nat)
  /-- H2C_DATA (R380): An H2CData PDU is checked against its R2T and lengths and its data taken in. -/
  | h2cData (c tag off : Nat) (data : List Byte) (last plenOk headerOk dataOk : Bool) (fails : Nat)
  /-- CONNECTION_END (R376): A connection closes or resets, and each command of its queue is decided at the teardown point. -/
  | connectionEnd (c : Nat)
  /-- ETH_PORT_FENCE (R385): Fences a front-end port and ends its connections. -/
  | ethPortFence (src p : Nat)
  /-- SEQ_IDENTIFY (R406): A carrier sequencer issues IDENTIFY to a carrier. -/
  | seqIdentify (u : Nat)
  /-- SEQ_PROGRAM (R406): A carrier sequencer issues PROGRAM to a carrier. -/
  | seqProgram (u : Nat)
  /-- SEQ_READ (R408): A carrier sequencer issues READ and retries with the carrier's retry sets. -/
  | seqRead (u : Nat)
  /-- SEQ_ERASE (R406): A carrier sequencer issues ERASE. -/
  | seqErase (u : Nat)
  /-- SEQ_SET_MODE (R406): A carrier sequencer issues SET_MODE. -/
  | seqSetMode (u : Nat)
  /-- SEQ_READ_RETRY (R406): A carrier sequencer issues READ_RETRY with given offsets. -/
  | seqReadRetry (u : Nat)
  /-- SEQ_HEALTH (R406): A carrier sequencer issues HEALTH. -/
  | seqHealth (u : Nat)
  /-- SEQ_OWNERSHIP_TAKE (R403): A carrier sequencer issues OWNERSHIP TAKE with an epoch. -/
  | seqOwnershipTake (u : Nat)
  /-- SEQ_OWNERSHIP_RETURN (R403): A carrier sequencer issues OWNERSHIP RETURN with an epoch. -/
  | seqOwnershipReturn (u : Nat)
  /-- SEQ_LABEL (R406): A carrier sequencer issues LABEL. -/
  | seqLabel (u : Nat)
  /-- SEQ_RETIRE (R406): A carrier sequencer issues RETIRE. -/
  | seqRetire (u : Nat)
  /-- CARRIER_MSI (R392): A carrier MSI wakes the sequencer, which turns completion entries into completion records. -/
  | carrierMsi (slot : Nat)
  /-- CARRIER_IDENTIFY (R396): The carrier writes its identify page. -/
  | carrierIdentify (slot : Nat)
  /-- CARRIER_PROGRAM (R395): The carrier programs a 64 KiB page group at the write pointer. -/
  | carrierProgram (slot : Nat) (ok : Bool) (data : List Byte)
  /-- CARRIER_READ (R395): The carrier reads a range of programmed page groups. -/
  | carrierRead (slot : Nat) (bad : Option Nat)
  /-- CARRIER_ERASE (R395): The carrier erases an erase group and sets QLC mode. -/
  | carrierErase (slot : Nat) (ok : Bool)
  /-- CARRIER_SET_MODE (R395): The carrier sets an erased group's mode. -/
  | carrierSetMode (slot : Nat)
  /-- CARRIER_READ_RETRY (R394): The carrier reads with read-level offsets. -/
  | carrierReadRetry (slot : Nat) (bad : Option Nat)
  /-- CARRIER_HEALTH (R397): The carrier returns a health page. -/
  | carrierHealth (slot temp : Nat)
  /-- CARRIER_OWNERSHIP_TAKE (R402): The carrier gives its port every erase group when the epoch is newer. -/
  | carrierOwnershipTake (slot : Nat)
  /-- CARRIER_OWNERSHIP_RETURN (R402): The carrier returns to SPLIT ownership when the epoch is newer. -/
  | carrierOwnershipReturn (slot : Nat)
  /-- CARRIER_LABEL (R395): The carrier writes its label, erasing everything with FORCE. -/
  | carrierLabel (slot : Nat)
  /-- CARRIER_RETIRE (R395): The carrier retires an erase group for good. -/
  | carrierRetire (slot : Nat)
  /-- CARRIER_COMMAND_COMPLETE (R392): A carrier command finishes, and the carrier writes a completion entry and signals MSI. -/
  | carrierCommandComplete (slot i : Nat) (forged : Option (List Byte))
  /-- CARRIER_ENABLE (R391): A write setting CONTROL.ENABLE starts the carrier's rings and READY follows. -/
  | carrierEnable (slot port cplBase cplSize : Nat) (subBase subSize : List Nat)
  /-- CARRIER_RESET (R391): A write of CONTROL.RESET drops fetched commands and resets the port's rings. -/
  | carrierReset (slot port : Nat)
  /-- CARRIER_SUB_TAIL (R392): A submission doorbell lets the carrier fetch new ring entries. -/
  | carrierSubTail (slot port ring : Nat) (entry : List Byte)
  /-- CARRIER_CPL_HEAD (R392): A completion doorbell releases completion slots to the carrier. -/
  | carrierCplHead (slot port head : Nat)
  /-- CARRIER_PORT_LOSS (R400): A port reset, link loss or power loss drops the port's uncompleted commands. -/
  | carrierPortLoss (slot port : Nat) (power : Bool)
  /-- CARRIER_LINK_UP (R388): A root port's link comes up, and IDENTIFY decides whether the carrier enters service. -/
  | carrierLinkUp (slot width : Nat) (ident : CarrierIdent) (array : List Byte) (number : Nat) (partnerAgrees : Bool)
  /-- CARRIER_OUT_OF_SERVICE (R409): A carrier's link drops, it is FATAL, faults twice or times out, so its commands end CARRIER_ABSENT and POSITION_FAILED is queued. -/
  | carrierOutOfService (slot : Nat) (fatal : Bool)
  /-- CARRIER_COMMAND_TIMEOUT (R409): A carrier command passes the command timeout, and the carrier leaves service. -/
  | carrierCommandTimeout (slot : Nat)
  /-- MED_SEQ_FENCE (R411): Fences a carrier sequencer, resets its carriers and reassigns them. -/
  | medSeqFence (src u : Nat)
  /-- MED_BLK_FENCE (R413): Fences a root-port block, and its carriers leave service. -/
  | medBlkFence (src b : Nat)
  /-- ERASE_REQUEST_REPEAT (R404): An unanswered erase request is sent again every 100 ms. -/
  | eraseRequestRepeat
  /-- WRITE (R420): A received Avenfy WRITE packet is region-checked and placed, or a write-last is held until earlier PSNs are placed. -/
  | atpWrite (path qp psn key offset conn : Nat) (data : List Byte) (last fin marked : Bool)
  /-- READ_REQ (R422): A received READ_REQ is checked and answered with READ_RESP packets. -/
  | atpReadReq (path qp psn key offset conn n : Nat) (relaxed marked : Bool)
  /-- READ_RESP (R422): A received READ_RESP is placed at the requester's local address. -/
  | atpReadResp (path qp psn conn : Nat) (data : List Byte) (marked : Bool)
  /-- ACK (R433): A received ACK marks PSNs answered or SACKED and may trigger resends. -/
  | atpAck (path qp psn base conn : Nat) (bitmap : List Byte)
  /-- NAK (R426): A received NAK marks a PSN answered with a refusal reason. -/
  | atpNak (path qp psn conn reason : Nat)
  /-- CNP (R434): A received CNP halves the queue pair's send rate. -/
  | atpCnp (path qp conn : Nat)
  /-- REPEAT (R424): A received REPEAT is acknowledged and delivered to the program as a completion record. -/
  | atpRepeat (path qp psn key offset conn n : Nat) (fin marked : Bool)
  /-- WR_WRITE (R437): A posted WRITE work request is sent as WRITE packets. -/
  | wrWrite (qp : Nat)
  /-- WR_WRITE_LAST (R437): A posted WRITE_LAST work request is sent as one write-last packet. -/
  | wrWriteLast (qp : Nat)
  /-- WR_READ (R437): A posted READ work request is sent as a READ_REQ. -/
  | wrRead (qp : Nat)
  /-- WR_REPEAT (R437): A posted REPEAT work request is sent. -/
  | wrRepeat (qp : Nat)
  /-- WORK_REQUEST_COMPLETE (R438): Every PSN of a work request is answered, and its completion record is written in ring order. -/
  | workRequestComplete (qp : Nat)
  /-- REPEAT_TIMER_EXPIRY (R433): The repeat timer expires, the oldest SENT PSN is resent, RTO doubles and retries may reach ERROR. -/
  | repeatTimerExpiry (qp : Nat)
  /-- ACK_DELAY_EXPIRY (R432): 4 us after an unacknowledged placement the receiver sends an ACK. -/
  | ackDelayExpiry (qp : Nat)
  /-- RATE_INCREASE_EXPIRY (R434): 55 us without a CNP raises the queue pair's rate by 5% of line rate. -/
  | rateIncreaseExpiry (qp : Nat)
  /-- ATP_REGION_SYNC (R425): Makes a region table entry current. -/
  | atpRegionSync (index : Nat)
  /-- ATP_REVOKE (R428): Sets a region REVOKING, refusing later checks. -/
  | atpRevoke (key : Nat)
  /-- REVOCATION_COMPLETE (R428): The last access a revoked region owes returns, and the transport sets its entry FREE. -/
  | revocationComplete (index : Nat)
  /-- QP_READY (R430): Reads the setup and puts an IDLE queue pair into READY. -/
  | qpReady (qp : Nat) (setup : Option (List Byte))
  /-- QP_DRAIN (R430): Drains a READY queue pair to IDLE after its posted requests. -/
  | qpDrain (qp : Nat)
  /-- QP_RESET (R430): Resets a queue pair to IDLE and aborts incomplete requests. -/
  | qpReset (qp : Nat)
  /-- CONTEXT_LOAD_COMPLETE (R436): A queue-pair context finishes loading, and its waiting packets are processed in order. -/
  | contextLoadComplete (qp : Nat) (image : Option (List Byte))
  /-- HEARTBEAT (R442): A partner heartbeat frame arrives and is checked. -/
  | heartbeat (b : List Byte)
  /-- HEALTH_REPORT (R457): A partner health report frame arrives. -/
  | healthReport (b : List Byte)
  /-- SUPERVISOR_MESSAGE (R442): A channel 0x02 message carries deferred errors, damage reports, erase requests or settings. -/
  | supervisorMessage (b : List Byte)
  /-- HEARTBEAT_SEND (R442): Every 100 us the head sends a heartbeat. -/
  | heartbeatSend
  /-- HEALTH_REPORT_BUILD (R457): Every 100 ms the supervisor builds, sends and hands on a health report. -/
  | healthReportBuild
  /-- HEARTBEAT_MISSED (R443): A 100 us interval passes without a partner heartbeat. -/
  | heartbeatMissed
  /-- TWIN_LINK_LOSS (R443): No good frame arrives for the link-loss timeout, and head 1 surrenders if both hold. -/
  | twinLinkLoss
  /-- TWIN_LANE_FAILURE (R441): A twin lane fails, and the link retrains at fewer lanes. -/
  | twinLaneFailure
  /-- CUSTODY_PEER_CHANGE (R445): CUSTODY_PEER_N changes level, starting the surrender filter or counting a glitch. -/
  | custodyPeerChange (low : Bool)
  /-- SURRENDER_RECOGNISED (R451): CUSTODY_PEER_N stays high for the surrender filter, and the head takes over the partner's set. -/
  | surrenderRecognised (seen : Seen) (shows : Shows)
  /-- SUPERVISOR_SILENT (R447): No write to TWN_GOV_ALIVE for 500 us makes the governor release custody. -/
  | supervisorSilent
  /-- CONFIRM_STALL (R450): A record unanswered for the confirm stall timeout makes head 1 surrender. -/
  | confirmStall (partnerWaits : Bool)
  /-- TWN_RELEASE (R447): A host write releases custody with cause HOST_ORDER. -/
  | twnRelease (src v : Nat)
  /-- TWN_GOV_ALIVE (R464): A write restarts the supervisor-silent count. -/
  | twnGovAlive (src : Nat)
  /-- PARTNER_WAIT_EXPIRY (R455): At power-up the partner wait passes without a heartbeat, and the head may enter SOLO. -/
  | partnerWaitExpiry (seen : Seen) (absent : Nat)
  /-- SERVICE_START (R456): With neither head holding custody and its conditions met, head 0 starts service in SOLO. -/
  | serviceStart (seen : Seen)
  /-- JOIN (R459): The SOLO head answers a rejoining head's JOIN with accept or refuse and seeds it. -/
  | twinJoin (head level : Nat)
  /-- JOIN_ACCEPT (R459): The rejoining head discards its buffers and loads the SOLO head's state. -/
  | twinJoinAccept (head level : Nat)
  /-- JOIN_REFUSE (R459): A rejoin is refused for level. -/
  | twinJoinRefuse (head level reason : Nat)
  /-- SEEDING_COMPLETE (R459): The copy of old entries completes, and the SOLO head sends JOINED with cycle J. -/
  | seedingComplete
  /-- JOINED (R459): The rejoining head applies the mirrored journal to J and becomes a joined standby. -/
  | twinJoined (head level cycle : Nat) (shown : Checkpoint)
  /-- READY (R460): A joined head's READY makes the SOLO head start failback at cycle F. -/
  | twinReady (head level : Nat)
  /-- FAILBACK (R460): The returning head takes its home set at the opening of F, and both become PAIRED. -/
  | twinFailback (head level cycle : Nat)
  /-- HANDOVER (R461): A HANDOVER message asks the partner to take the sender's set at cycle H. -/
  | twinHandover (head level cycle : Nat)
  /-- HANDOVER_ACCEPT (R461): The partner accepts a handover. -/
  | twinHandoverAccept (head level : Nat)
  /-- HANDOVER_REFUSE (R461): The partner refuses a handover. -/
  | twinHandoverRefuse (head level reason : Nat)
  /-- CUSTODY_MESSAGE_REPEAT (R462): An unanswered custody message is sent again every 1 ms. -/
  | custodyMessageRepeat
  /-- SNAPSHOT_ITEM_QUEUE (R469): Once every entry at or below N has queued its deltas, the SNAPSHOT item is queued. -/
  | snapshotItemQueue (nsid : Nat)
  /-- BEGIN (R474): A stream BEGIN message starts a shipment at the receiver. -/
  | streamBegin (peer : Nat) (msg : List Byte)
  /-- GROUP (R475): A GROUP message is written into the replica through accession. -/
  | streamGroup (peer : Nat) (msg : List Byte)
  /-- END (R475): At END the receiver snapshots the replica and sends ACK. -/
  | streamEnd (peer : Nat) (msg : List Byte)
  /-- STREAM_SEAL (R474): A SEAL message carries part of the seal manifest. -/
  | streamSeal (peer : Nat) (msg : List Byte)
  /-- STREAM_ACK (R475): An ACK records the peer view for the shipped view. -/
  | streamAck (peer : Nat) (msg : List Byte)
  /-- REPAIR_REQ (R475): A peer answers a repair request from the named view with a verified block. -/
  | repairReq (peer : Nat) (msg : List Byte) (seen : Seen)
  /-- REPAIR_RESP (R474): A repair response delivers a block for verification. -/
  | repairResp (peer : Nat) (msg : List Byte)
  /-- SHIP_INTERVAL (R473): The ship interval passes, and journal shipping takes and ships a replication view. -/
  | shipInterval (nsid peer : Nat)
  /-- STACK_SYNC_PULSE (R478): Every 1 ms the registrar drives a 10 us low pulse on STACK_SYNC. -/
  | stackSyncPulse
  /-- STACK_SYNC_EDGE (R565): A falling edge on STACK_SYNC is counted, and a stack snapshot falls due at edge k. -/
  | stackSyncEdge (high : Nat)
  /-- STACK_SYNC_SILENCE (R478): 10 ms without an edge, while head 0 is unclean, makes the successor take the registrar role. -/
  | stackSyncSilence
  /-- PERST_N (R481): PERST_N resets the host endpoint alone. -/
  | perstN (low : Bool)
  /-- HOST_LINK_DOWN (R481): A hot reset or link-down resets the endpoint and fails its head-host requests. -/
  | hostLinkDown (again : Bool)
  /-- BAR4_READ (R484): A BAR4 read returns LPDDR data, or UR beyond range or on ECC error. -/
  | bar4Read (o n : Nat)
  /-- BAR4_WRITE (R484): A BAR4 write stores to LPDDR, or is discarded beyond range. -/
  | bar4Write (o : Nat) (bs : List (Bool × Byte))
  /-- MSIX_ENTRY_WRITE (R486): A write that unmasks a vector with its pending bit set sends one message. -/
  | msixEntryWrite (o : Nat) (v : Word32)
  /-- EP_MSIX_SEND (R485): Fires a vector of 16 or above. -/
  | epMsixSend (v : Word32)
  /-- ATS_INVALIDATE_REQUEST (R488): The endpoint drops overlapping translations, drains, completes revocations and sends the completion. -/
  | atsInvalidateRequest (page pages : Nat)
  /-- TRANSLATION_COMPLETION (R487): A Translation Completion fills the cache, or fails the waiting access. -/
  | translationCompletion (page : Nat) (ok read write : Bool)
  /-- HOST_READ_COMPLETION (R489): A head-host read completes or times out, giving data or a bus error. -/
  | hostReadCompletion (k i : Nat) (data : Option (List Byte)) (timeout : Bool)
  /-- EP_CR_TAIL (R491): A control ring doorbell makes the supervisor fetch commands. -/
  | epCrTail (r tail : Nat) (commands : List (List Byte))
  /-- EP_CR_DISABLE (R494): A write of 0 to ENABLE stops the ring once its fetched commands complete. -/
  | epCrDisable (r : Nat)
  /-- SETTINGS (R493): Sets one setting by ID, index and value, or refuses it. -/
  | crSettings (r : Nat) (data : Option (List Byte))
  /-- STATISTICS (R492): Returns a set of counters. -/
  | crStatistics (r : Nat)
  /-- CR_SNAPSHOT (R469): Orders a snapshot of a namespace. -/
  | crSnapshot (r : Nat) (data : Option (List Byte))
  /-- VIEW_DELETE (R470): Orders a view deleted and walks its tree. -/
  | crViewDelete (r : Nat)
  /-- SEAL (R471): Seals a view by hashing its blocks into a signed manifest. -/
  | crSeal (r : Nat)
  /-- SHIP (R473): Ships a view difference to a peer. -/
  | crShip (r : Nat) (seen : Seen)
  /-- CR_RESHAPE (R323): Starts a reshape with a plan, or refuses it. -/
  | crReshape (r : Nat) (data : Option (List Byte))
  /-- RESHAPE_CANCEL (R323): Cancels an active reshape. -/
  | crReshapeCancel (r : Nat)
  /-- SOLO (R455): Orders the head into SOLO, with FORCE. -/
  | crSolo (r : Nat) (seen : Seen)
  /-- CR_HANDOVER (R461): Orders a planned handover. -/
  | crHandover (r : Nat)
  /-- LABEL (R388): Orders a carrier labelled. -/
  | crLabel (r slot : Nat) (agreed : Bool)
  /-- STACK_SNAPSHOT (R478): Orders a stack-wide snapshot at edge k. -/
  | crStackSnapshot (r : Nat) (data : Option (List Byte))
  /-- HEALTH_RING (R492): Sets or stops the health report ring. -/
  | crHealthRing (r : Nat)
  /-- HLT_RESTORE (R504): Checks RESTORE's conditions, then restores or rejoins. -/
  | hltRestore (src : Nat) (found : List Sys2Proof.Found) (seen : Seen) (shows : Shows)
  /-- CREATE_ARRAY (R506): Head 0 creates a new array. -/
  | hltCreateArray (src : Nat) (anchors : Bool) (seen : Seen)
  /-- QUIESCE (R509): Moves the head to QUIESCE. -/
  | hltQuiesce (src : Nat)
  /-- HLT_RESUME (R511): Returns a drained-form head to SOLO. -/
  | hltResume (src : Nat)
  /-- REJOIN (R509): Returns a handover-form head to RESTORE to rejoin. -/
  | hltRejoin (src : Nat) (seen : Seen) (shows : Shows)
  /-- LPDDR_TRAIN_START (R502): Starts training of the named LPDDR channels. -/
  | lpddrTrainStart (mask : Nat)
  /-- LPDDR_TRAIN_COMPLETE (R502): Training ends, failed channels are fenced and the interleave is set. -/
  | lpddrTrainComplete (failed : BitVec 8)
  /-- LPD_FENCE (R519): Fences an LPDDR channel. -/
  | lpdFence (src mask : Nat)
  /-- IDENTITY (R523): Returns the identity certificate. -/
  | secIdentity (src len : Nat)
  /-- ATTEST (R524): Returns a signed attestation report for a nonce. -/
  | secAttest (src len : Nat)
  /-- OWNER_SHARE (R525): Takes one owner-secret share and, at the last, accepts or refuses the secret. -/
  | secOwnerShare (src len : Nat)
  /-- KEY_INPUT (R526): Loads a key into a service slot. -/
  | secKeyInput (src len : Nat)
  /-- ARRAY_INFO (R525): Returns ARRAY_ID and KEY_CHECK. -/
  | secArrayInfo (src len : Nat)
  /-- ZEROISE (R528): Raises the ZEROISE alarm. -/
  | secZeroise (src len : Nat)
  /-- KEEPER_ALARM (R529): An alarm condition clears every unit key and secret and releases custody. -/
  | keeperAlarm (code : Nat)
  /-- ALARM_END (R529): A non-permanent alarm ends after 1 s without its condition. -/
  | alarmEnd (code : Nat) (passes : Bool)
  /-- SECTION_LOAD (R532): The keeper loads an image section where the supervisor names and checks its digest. -/
  | sectionLoad (i dest : Nat)
  /-- ERASE (R538): Erases an image slot. -/
  | updErase (src slot : Nat)
  /-- UPD_WRITE (R538): Writes one 256-byte page into a slot. -/
  | updWrite (src slot : Nat)
  /-- UPD_VERIFY (R533): Verifies the image in a slot. -/
  | updVerify (src slot : Nat)
  /-- SCHEDULE (R539): Schedules an image activation at cycle A. -/
  | updSchedule (src slot : Nat)
  /-- CANCEL (R541): Cancels a scheduled activation. -/
  | updCancel (src : Nat)
  /-- UPD_COMMAND_COMPLETE (R538): A slot command that took time ends and sets its result. -/
  | updCommandComplete (misread : List (Nat × Byte))
  /-- HEALTH_CONFIRM (R542): The confirm key confirms a trial image, raises the SVN floor and revokes keys. -/
  | healthConfirm (src : Nat) (v : Word32)
  /-- CONFIRM_WINDOW_EXPIRY (R543): The confirm window passes without HEALTH_CONFIRM, and the keeper falls back. -/
  | confirmWindowExpiry
  /-- GUARD_INPUT_CHANGE (R544): A guard input is asserted or released after 100 us low. -/
  | guardInputChange (i : Nat) (asserted : Bool)
  /-- BYPASS (R568): Selects the bypass register. -/
  | jtagBypass
  /-- IDCODE (R568): Shifts out the IDCODE. -/
  | jtagIdcode
  /-- SAMPLE_PRELOAD (R568): Samples or preloads the boundary scan cells. -/
  | jtagSamplePreload (cells : List Bool)
  /-- EXTEST (R568): Drives the boundary scan cells in SAFE without custody, else bypass. -/
  | jtagExtest
  /-- HIGHZ (R568): Floats the outputs in SAFE without custody, else bypass. -/
  | jtagHighz
  /-- WRITE_RESPONSE_RETURN (R42): A good write response to an earlier store returns, and a fence.w, fence.rw, enq, cbar or full store queue waiting on it may proceed. -/
  | writeResponseReturn (k i : Nat)
  /-- ANA_TRANSITION_TIME_EXPIRY (R373): ANATT after a custody release passes, the group of the head's own set moves from Change to Inaccessible, and an ANA change event is raised. -/
  | anaTransitionTimeExpiry
  /-- INVALID_COMMAND_OPCODE (R368): A command capsule with an opcode that the device does not execute, Firmware Download and Commit included, completes with Invalid Command Opcode. -/
  | invalidCommandOpcode (c cid : Nat)
  /-- INVALID_PDU_TYPE (R380): A PDU whose type is not valid at this point of the connection draws C2HTermReq FES 02h, and the connection closes. -/
  | invalidPduType (c : Nat)
  /-- BAD_AVENFY_PACKET (R417): A received Avenfy packet with a bad CHECK, a wrong VERSION, a nonzero zero field, an unassigned OPCODE or a length that disagrees with its header is discarded and counted in ATP_RX_BAD. -/
  | badAvenfyPacket (path qp st : Nat)
  /-- TWIN_FRAME_BAD (R442): A twin frame with an unassigned CHANNEL, or whose channel payload fails its CHECK, is discarded and counted. -/
  | twinFrameBad
  /-- MAILBOX_COMMAND_COMPLETE (R551): A SEC mailbox command finishes within its stated time, writes its response, clears BUSY and sets DONE. -/
  | mailboxCommandComplete
  /-- FALLBACK_ACTIVATION (R543): 1 s after a fallback began, the keeper performs the image activation of R513, whether or not the handover it asked for has completed. -/
  | fallbackActivation
  /-- TWIN_LINK_RETRAINED (R441): A twin link retrain at fewer lanes completes within 500 us, and the frames held meanwhile are sent. -/
  | twinLinkRetrained
  /-- CXL_LINK_CHANGE (R292): A CXL port's link comes up with its HDM decoder committed, or goes down when its device is removed, losing the port's share of dedup tier 1 and of the catalogue cache. -/
  | cxlLinkChange (p : Nat) (up : Bool) (gib : Nat) (err : Bool)
  /-- ETH_LINK_CHANGE (R385): A front-end Ethernet port's link comes up, applying the MTU at the link start, or goes down, with LINK_UP following. -/
  | ethLinkChange (p : Nat) (up : Bool)
  /-- EVICTION_WRITE_BACK_COMPLETE (R435): The write-back of an evicted queue-pair context returns its response, the waiting load begins, or on a bus error the waiting packets are dropped. -/
  | evictionWriteBackComplete (qp : Nat) (ok : Bool)
  deriving DecidableEq, Repr

end Sys2Proof
end

