-- ==== Sys2Proof/Decode.lean ====
section
/-! DEFINITION. Instruction words (R65 to R69, R74 to R84): the instruction that an engine reads from a word, and the word of an instruction,
each written from the spec's tables of formats and codes. No row of spec/opcode_table.json gives its command any bits, so the table's own
words spell no command. -/

namespace Sys2Proof

/-- The command that a word of `nbits` bits spells by the table's bits: none, since no row has bits. -/
def decodeTableWord (_nbits _w : Nat) : Option Instr := none

/-! ### Fields (R65) -/

/-- The major opcode, bits [31:26]. -/
def fieldOp (w : Word32) : BitVec 6 := w.extractLsb' 26 6
/-- Fields d, a and b. -/
def fieldD (w : Word32) : BitVec 5 := w.extractLsb' 21 5
def fieldA (w : Word32) : BitVec 5 := w.extractLsb' 16 5
def fieldB (w : Word32) : BitVec 5 := w.extractLsb' 11 5
/-- func of format R, bits [10:0]. -/
def fieldFunc (w : Word32) : BitVec 11 := w.extractLsb' 0 11
/-- imm16, offset16 and index16. -/
def fieldImm (w : Word32) : BitVec 16 := w.extractLsb' 0 16
/-- kind, zero and amount of format H. -/
def fieldKind (w : Word32) : BitVec 2 := w.extractLsb' 14 2
def fieldZero (w : Word32) : BitVec 8 := w.extractLsb' 6 8
def fieldAmount (w : Word32) : BitVec 6 := w.extractLsb' 0 6
/-- p, esz and func of format V. -/
def fieldP (w : Word32) : BitVec 3 := w.extractLsb' 8 3
def fieldEsz (w : Word32) : BitVec 2 := w.extractLsb' 6 2
def fieldVfunc (w : Word32) : BitVec 6 := w.extractLsb' 0 6
/-- func and imm12 of format S. -/
def fieldSfunc (w : Word32) : BitVec 4 := w.extractLsb' 12 4
def fieldImm12 (w : Word32) : BitVec 12 := w.extractLsb' 0 12

/-- The predicate register a 5-bit field names: its upper bits are zero. -/
def predField (x : BitVec 5) : Option (BitVec 3) := if x.toNat < 8 then some (x.setWidth 3) else none

/-! ### Decoding -/

/-- Op 0x01 (R68). -/
def decodeInteger (k : Nat) (w : Word32) : Option Instr :=
  let d := fieldD w
  let a := fieldA w
  let b := fieldB w
  let one (i : Instr) : Option Instr := if b = 0 then some i else none
  match (fieldFunc w).toNat with
  | 0x00 => some (.add k d a b)
  | 0x01 => some (.sub k d a b)
  | 0x02 => some (.and k d a b)
  | 0x03 => some (.or k d a b)
  | 0x04 => some (.xor k d a b)
  | 0x05 => some (.andn k d a b)
  | 0x06 => some (.sll k d a b)
  | 0x07 => some (.srl k d a b)
  | 0x08 => some (.sra k d a b)
  | 0x09 => some (.rol k d a b)
  | 0x0A => some (.slt k d a b)
  | 0x0B => some (.sltu k d a b)
  | 0x0C => some (.mul k d a b)
  | 0x0D => some (.mulhu k d a b)
  | 0x0E => some (.mulh k d a b)
  | 0x0F => some (.divu k d a b)
  | 0x10 => some (.remu k d a b)
  | 0x11 => some (.minu k d a b)
  | 0x12 => some (.maxu k d a b)
  | 0x13 => one (.clz k d a)
  | 0x14 => one (.ctz k d a)
  | 0x15 => one (.popc k d a)
  | 0x16 => one (.bswap k d a)
  | _ => none

/-- Op 0x09 (R69). -/
def decodeShift (k : Nat) (w : Word32) : Option Instr :=
  let d := fieldD w
  let a := fieldA w
  let n := fieldAmount w
  if fieldZero w ≠ 0 then none
  else match (fieldKind w).toNat with
  | 0 => some (.shlk k d a n)
  | 1 => some (.shrk k d a n)
  | 2 => some (.sark k d a n)
  | _ => some (.rolk k d a n)

/-- Op 0x1E (R73). -/
def decodeAtomic (k : Nat) (w : Word32) : Option Instr :=
  match (fieldFunc w).toNat with
  | 0 => some (.atomAdd k (fieldD w) (fieldA w) (fieldB w))
  | 1 => some (.atomSwap k (fieldD w) (fieldA w) (fieldB w))
  | 2 => some (.atomCas k (fieldD w) (fieldA w) (fieldB w))
  | _ => none

/-- Op 0x30 (R76). -/
def decodeVector (k : Nat) (w : Word32) : Option Instr :=
  let d := fieldD w
  let a := fieldA w
  let b := fieldB w
  let p := fieldP w
  let e := fieldEsz w
  let one (i : Instr) : Option Instr := if b = 0 then some i else none
  match (fieldVfunc w).toNat with
  | 0x00 => some (.vadd k d a b p e)
  | 0x01 => some (.vsub k d a b p e)
  | 0x02 => some (.vand k d a b p e)
  | 0x03 => some (.vor k d a b p e)
  | 0x04 => some (.vxor k d a b p e)
  | 0x05 => some (.vandn k d a b p e)
  | 0x06 => some (.vminu k d a b p e)
  | 0x07 => some (.vmaxu k d a b p e)
  | 0x08 => some (.vsll k d a b p e)
  | 0x09 => some (.vsrl k d a b p e)
  | 0x0A => some (.vsra k d a b p e)
  | 0x0B => some (.vmul k d a b p e)
  | 0x0C => one (.vbcast k d a p e)
  | 0x0D => some (.vext k d a b p e)
  | 0x0E => some (.vins k d a b p e)
  | 0x0F => one (.vredadd k d a p e)
  | 0x10 => one (.vredxor k d a p e)
  | 0x11 => one (.vmov k d a p e)
  | _ => none

/-- Op 0x31 (R77). -/
def decodeCompare (k : Nat) (w : Word32) : Option Instr :=
  let a := fieldA w
  let b := fieldB w
  let p := fieldP w
  let e := fieldEsz w
  match predField (fieldD w), (fieldVfunc w).toNat with
  | some d, 0 => some (.vcmpEq k d a b p e)
  | some d, 1 => some (.vcmpNe k d a b p e)
  | some d, 2 => some (.vcmpLtu k d a b p e)
  | some d, 3 => some (.vcmpLt k d a b p e)
  | _, _ => none

/-- Op 0x32 (R78). -/
def decodePermute (k : Nat) (w : Word32) : Option Instr :=
  if fieldEsz w ≠ 0 then none
  else match (fieldVfunc w).toNat with
  | 0 => some (.vperm k (fieldD w) (fieldA w) (fieldB w) (fieldP w))
  | 1 => some (.vsel k (fieldD w) (fieldA w) (fieldB w) (fieldP w))
  | _ => none

/-- Op 0x33 (R80). -/
def decodeGf (k : Nat) (w : Word32) : Option Instr :=
  if fieldEsz w ≠ 0 then none
  else match (fieldVfunc w).toNat with
  | 0 => some (.vgf8mul k (fieldD w) (fieldA w) (fieldB w) (fieldP w))
  | 1 => some (.vgf128mulX k (fieldD w) (fieldA w) (fieldB w) (fieldP w))
  | 2 => some (.vgf128mulG k (fieldD w) (fieldA w) (fieldB w) (fieldP w))
  | _ => none

/-- Op 0x35 (R79). -/
def decodePredicate (k : Nat) (w : Word32) : Option Instr :=
  let d := predField (fieldD w)
  let a := predField (fieldA w)
  let b := predField (fieldB w)
  if fieldP w ≠ 0 ∨ fieldEsz w ≠ 0 then none
  else match (fieldVfunc w).toNat, d, a, b with
  | 0, some d, some a, some b => some (.pand k d a b)
  | 1, some d, some a, some b => some (.por k d a b)
  | 2, some d, some a, some b => some (.pxor k d a b)
  | 3, some d, some a, some b => some (.pandn k d a b)
  | 4, some d, _, _ => if fieldB w = 0 then some (.pfromg k d (fieldA w)) else none
  | 5, _, some a, _ => if fieldB w = 0 then some (.ptog k (fieldD w) a) else none
  | 6, _, some a, _ => if fieldB w = 0 then some (.pcnt k (fieldD w) a) else none
  | _, _, _, _ => none

/-- Op 0x3A (R84): every field that an entry does not name is zero. -/
def decodeSystem (k : Nat) (w : Word32) : Option Instr :=
  let imm := fieldImm12 w
  let d := fieldD w
  let a := fieldA w
  let bare (i : Instr) : Option Instr := if d = 0 ∧ a = 0 ∧ imm = 0 then some i else none
  match (fieldSfunc w).toNat with
  | 0 => bare (.fenceW k)
  | 1 => bare (.fenceRw k)
  | 2 => if d = 0 ∧ a = 0 ∧ imm.toNat < 0x100 then some (.cbar k (imm.setWidth 8)) else none
  | 3 => bare (.wait k)
  | 4 => bare (.resume k)
  | 5 => if d = 0 ∧ a = 0 then some (.trap k imm) else none
  | 6 => if a = 0 then some (.sysrd k d imm) else none
  | 7 => if d = 0 then some (.syswr k a imm) else none
  | _ => none

/-- The instruction of engine `k` that a word spells, by its major opcode (R67); none where the word is not assigned or a field that its
entry marks zero is not (R66). -/
def decodeWord (k : Nat) (w : Word32) : Option Instr :=
  let d := fieldD w
  let a := fieldA w
  let imm := fieldImm w
  match (fieldOp w).toNat with
  | 0x01 => decodeInteger k w
  | 0x02 => some (.addk k d a imm)
  | 0x03 => some (.andk k d a imm)
  | 0x04 => some (.ork k d a imm)
  | 0x05 => some (.xork k d a imm)
  | 0x06 => some (.ltk k d a imm)
  | 0x07 => some (.cshl k d a imm)
  | 0x08 => if a = 0 then some (.cset k d imm) else none
  | 0x09 => decodeShift k w
  | 0x10 => some (.ldB k d a imm)
  | 0x11 => some (.ldBs k d a imm)
  | 0x12 => some (.ldH k d a imm)
  | 0x13 => some (.ldHs k d a imm)
  | 0x14 => some (.ldW k d a imm)
  | 0x15 => some (.ldWs k d a imm)
  | 0x16 => some (.ldD k d a imm)
  | 0x18 => some (.stB k d a imm)
  | 0x19 => some (.stH k d a imm)
  | 0x1A => some (.stW k d a imm)
  | 0x1B => some (.stD k d a imm)
  | 0x1C => some (.vld k d a imm)
  | 0x1D => some (.vst k d a imm)
  | 0x1E => decodeAtomic k w
  | 0x1F => if fieldB w = 0 ∧ fieldEsz w = 0 ∧ fieldVfunc w = 0 then some (.vstM k d a (fieldP w)) else none
  | 0x20 => some (.beq k d a imm)
  | 0x21 => some (.bne k d a imm)
  | 0x22 => some (.blt k d a imm)
  | 0x23 => some (.bge k d a imm)
  | 0x24 => some (.bltu k d a imm)
  | 0x25 => some (.bgeu k d a imm)
  | 0x26 => if a = 0 then (predField d).map fun p => .bpany k p imm else none
  | 0x27 => if a = 0 then (predField d).map fun p => .bpnone k p imm else none
  | 0x28 => if a = 0 then some (.call k d imm) else none
  | 0x29 => some (.callr k d a imm)
  | 0x30 => decodeVector k w
  | 0x31 => decodeCompare k w
  | 0x32 => decodePermute k w
  | 0x33 => decodeGf k w
  | 0x35 => decodePredicate k w
  | 0x38 => if fieldFunc w = 0 then some (.enq k d a (fieldB w)) else none
  | 0x39 => if fieldFunc w = 0 then some (.wne k d a (fieldB w)) else none
  | 0x3A => decodeSystem k w
  | _ => none

/-! ### Encoding -/

/-- The formats (R65). -/
def wordR (op : BitVec 6) (d a b : BitVec 5) (func : BitVec 11) : Word32 := op ++ d ++ a ++ b ++ func
def wordI (op : BitVec 6) (d a : BitVec 5) (imm : BitVec 16) : Word32 := op ++ d ++ a ++ imm
def wordH (d a : BitVec 5) (kind : BitVec 2) (amount : BitVec 6) : Word32 := 0x09#6 ++ d ++ a ++ kind ++ 0#8 ++ amount
def wordV (op : BitVec 6) (d a b : BitVec 5) (p : BitVec 3) (esz : BitVec 2) (func : BitVec 6) : Word32 := op ++ d ++ a ++ b ++ p ++ esz ++ func
def wordS (d a : BitVec 5) (func : BitVec 4) (imm : BitVec 12) : Word32 := 0x3A#6 ++ d ++ a ++ func ++ imm
/-- A predicate register in a 5-bit field. -/
def predBits (p : BitVec 3) : BitVec 5 := 0#2 ++ p

/-- The engine and the word of an instruction; none for the commands that no engine fetches. -/
def encodeWord (i : Instr) : Option (Nat × Word32) :=
  match i with
  | .add k d a b => some (k, wordR 0x01#6 d a b 0#11)
  | .sub k d a b => some (k, wordR 0x01#6 d a b 1#11)
  | .and k d a b => some (k, wordR 0x01#6 d a b 2#11)
  | .or k d a b => some (k, wordR 0x01#6 d a b 3#11)
  | .xor k d a b => some (k, wordR 0x01#6 d a b 4#11)
  | .andn k d a b => some (k, wordR 0x01#6 d a b 5#11)
  | .sll k d a b => some (k, wordR 0x01#6 d a b 6#11)
  | .srl k d a b => some (k, wordR 0x01#6 d a b 7#11)
  | .sra k d a b => some (k, wordR 0x01#6 d a b 8#11)
  | .rol k d a b => some (k, wordR 0x01#6 d a b 9#11)
  | .slt k d a b => some (k, wordR 0x01#6 d a b 10#11)
  | .sltu k d a b => some (k, wordR 0x01#6 d a b 11#11)
  | .mul k d a b => some (k, wordR 0x01#6 d a b 12#11)
  | .mulhu k d a b => some (k, wordR 0x01#6 d a b 13#11)
  | .mulh k d a b => some (k, wordR 0x01#6 d a b 14#11)
  | .divu k d a b => some (k, wordR 0x01#6 d a b 15#11)
  | .remu k d a b => some (k, wordR 0x01#6 d a b 16#11)
  | .minu k d a b => some (k, wordR 0x01#6 d a b 17#11)
  | .maxu k d a b => some (k, wordR 0x01#6 d a b 18#11)
  | .clz k d a => some (k, wordR 0x01#6 d a 0 19#11)
  | .ctz k d a => some (k, wordR 0x01#6 d a 0 20#11)
  | .popc k d a => some (k, wordR 0x01#6 d a 0 21#11)
  | .bswap k d a => some (k, wordR 0x01#6 d a 0 22#11)
  | .addk k d a imm => some (k, wordI 0x02#6 d a imm)
  | .andk k d a imm => some (k, wordI 0x03#6 d a imm)
  | .ork k d a imm => some (k, wordI 0x04#6 d a imm)
  | .xork k d a imm => some (k, wordI 0x05#6 d a imm)
  | .ltk k d a imm => some (k, wordI 0x06#6 d a imm)
  | .cshl k d a imm => some (k, wordI 0x07#6 d a imm)
  | .ldB k d a imm => some (k, wordI 0x10#6 d a imm)
  | .ldBs k d a imm => some (k, wordI 0x11#6 d a imm)
  | .ldH k d a imm => some (k, wordI 0x12#6 d a imm)
  | .ldHs k d a imm => some (k, wordI 0x13#6 d a imm)
  | .ldW k d a imm => some (k, wordI 0x14#6 d a imm)
  | .ldWs k d a imm => some (k, wordI 0x15#6 d a imm)
  | .ldD k d a imm => some (k, wordI 0x16#6 d a imm)
  | .stB k d a imm => some (k, wordI 0x18#6 d a imm)
  | .stH k d a imm => some (k, wordI 0x19#6 d a imm)
  | .stW k d a imm => some (k, wordI 0x1A#6 d a imm)
  | .stD k d a imm => some (k, wordI 0x1B#6 d a imm)
  | .vld k d a imm => some (k, wordI 0x1C#6 d a imm)
  | .vst k d a imm => some (k, wordI 0x1D#6 d a imm)
  | .callr k d a imm => some (k, wordI 0x29#6 d a imm)
  | .cset k d imm => some (k, wordI 0x08#6 d 0 imm)
  | .shlk k d a n => some (k, wordH d a 0#2 n)
  | .shrk k d a n => some (k, wordH d a 1#2 n)
  | .sark k d a n => some (k, wordH d a 2#2 n)
  | .rolk k d a n => some (k, wordH d a 3#2 n)
  | .atomAdd k d a b => some (k, wordR 0x1E#6 d a b 0#11)
  | .atomSwap k d a b => some (k, wordR 0x1E#6 d a b 1#11)
  | .atomCas k d a b => some (k, wordR 0x1E#6 d a b 2#11)
  | .vstM k d a p => some (k, wordV 0x1F#6 d a 0 p 0 0)
  | .beq k a b off => some (k, wordI 0x20#6 a b off)
  | .bne k a b off => some (k, wordI 0x21#6 a b off)
  | .blt k a b off => some (k, wordI 0x22#6 a b off)
  | .bge k a b off => some (k, wordI 0x23#6 a b off)
  | .bltu k a b off => some (k, wordI 0x24#6 a b off)
  | .bgeu k a b off => some (k, wordI 0x25#6 a b off)
  | .bpany k p off => some (k, wordI 0x26#6 (predBits p) 0 off)
  | .bpnone k p off => some (k, wordI 0x27#6 (predBits p) 0 off)
  | .call k d index => some (k, wordI 0x28#6 d 0 index)
  | .vadd k d a b p e => some (k, wordV 0x30#6 d a b p e 0#6)
  | .vsub k d a b p e => some (k, wordV 0x30#6 d a b p e 1#6)
  | .vand k d a b p e => some (k, wordV 0x30#6 d a b p e 2#6)
  | .vor k d a b p e => some (k, wordV 0x30#6 d a b p e 3#6)
  | .vxor k d a b p e => some (k, wordV 0x30#6 d a b p e 4#6)
  | .vandn k d a b p e => some (k, wordV 0x30#6 d a b p e 5#6)
  | .vminu k d a b p e => some (k, wordV 0x30#6 d a b p e 6#6)
  | .vmaxu k d a b p e => some (k, wordV 0x30#6 d a b p e 7#6)
  | .vsll k d a b p e => some (k, wordV 0x30#6 d a b p e 8#6)
  | .vsrl k d a b p e => some (k, wordV 0x30#6 d a b p e 9#6)
  | .vsra k d a b p e => some (k, wordV 0x30#6 d a b p e 10#6)
  | .vmul k d a b p e => some (k, wordV 0x30#6 d a b p e 11#6)
  | .vbcast k d a p e => some (k, wordV 0x30#6 d a 0 p e 12#6)
  | .vext k d a b p e => some (k, wordV 0x30#6 d a b p e 13#6)
  | .vins k d a b p e => some (k, wordV 0x30#6 d a b p e 14#6)
  | .vredadd k d a p e => some (k, wordV 0x30#6 d a 0 p e 15#6)
  | .vredxor k d a p e => some (k, wordV 0x30#6 d a 0 p e 16#6)
  | .vmov k d a p e => some (k, wordV 0x30#6 d a 0 p e 17#6)
  | .vcmpEq k d a b p e => some (k, wordV 0x31#6 (predBits d) a b p e 0#6)
  | .vcmpNe k d a b p e => some (k, wordV 0x31#6 (predBits d) a b p e 1#6)
  | .vcmpLtu k d a b p e => some (k, wordV 0x31#6 (predBits d) a b p e 2#6)
  | .vcmpLt k d a b p e => some (k, wordV 0x31#6 (predBits d) a b p e 3#6)
  | .vperm k d a b p => some (k, wordV 0x32#6 d a b p 0 0)
  | .vsel k d a b p => some (k, wordV 0x32#6 d a b p 0 1)
  | .vgf8mul k d a b p => some (k, wordV 0x33#6 d a b p 0 0#6)
  | .vgf128mulX k d a b p => some (k, wordV 0x33#6 d a b p 0 1#6)
  | .vgf128mulG k d a b p => some (k, wordV 0x33#6 d a b p 0 2#6)
  | .pand k d a b => some (k, wordV 0x35#6 (predBits d) (predBits a) (predBits b) 0 0 0#6)
  | .por k d a b => some (k, wordV 0x35#6 (predBits d) (predBits a) (predBits b) 0 0 1#6)
  | .pxor k d a b => some (k, wordV 0x35#6 (predBits d) (predBits a) (predBits b) 0 0 2#6)
  | .pandn k d a b => some (k, wordV 0x35#6 (predBits d) (predBits a) (predBits b) 0 0 3#6)
  | .pfromg k d a => some (k, wordV 0x35#6 (predBits d) a 0 0 0 4#6)
  | .ptog k d a => some (k, wordV 0x35#6 d (predBits a) 0 0 0 5#6)
  | .pcnt k d a => some (k, wordV 0x35#6 d (predBits a) 0 0 0 6#6)
  | .enq k d v q => some (k, wordR 0x38#6 d v q 0)
  | .wne k d a b => some (k, wordR 0x39#6 d a b 0)
  | .fenceW k => some (k, wordS 0 0 0#4 0)
  | .fenceRw k => some (k, wordS 0 0 1#4 0)
  | .wait k => some (k, wordS 0 0 3#4 0)
  | .resume k => some (k, wordS 0 0 4#4 0)
  | .cbar k mask => some (k, wordS 0 0 2#4 (0#4 ++ mask))
  | .trap k imm => some (k, wordS 0 0 5#4 imm)
  | .sysrd k d num => some (k, wordS d 0 6#4 num)
  | .syswr k a num => some (k, wordS 0 a 7#4 num)
  | _ => none

end Sys2Proof
end

