-- ==== Sys2Proof/Machine/Bits.lean ====
section
/-! DEFINITION. Bit-field, byte-order and checksum helpers (R6 little-endian; CRC-32C of R184, R414 and the on-media layouts). -/

namespace Sys2Proof

/-- Bits [hi:lo] of a number. -/
def bitsOf (x hi lo : Nat) : Nat := (x >>> lo) % 2 ^ (hi + 1 - lo)

/-- `x` with bits [hi:lo] replaced by the low bits of `v`. -/
def putBits (x hi lo v : Nat) : Nat :=
  x - (bitsOf x hi lo <<< lo) + ((v % 2 ^ (hi + 1 - lo)) <<< lo)

/-- The low `n` bytes of `v`, least significant first (R6). -/
def leBytes : Nat → Nat → List Byte
  | 0, _ => []
  | n + 1, v => BitVec.ofNat 8 v :: leBytes n (v / 256)

/-- The number whose bytes are `bs`, least significant first (R6). -/
def ofLe : List Byte → Nat
  | [] => 0
  | b :: t => b.toNat + 256 * ofLe t

/-- The number whose bytes are `bs`, most significant first (Avenfy headers, R414). -/
def ofBe (bs : List Byte) : Nat := ofLe bs.reverse

/-- The low `n` bytes of `v`, most significant first. -/
def beBytes (n v : Nat) : List Byte := (leBytes n v).reverse

/-- `n` bytes of `bs` from offset `o`, zero where `bs` is too short. -/
def slice (bs : List Byte) (o n : Nat) : List Byte :=
  let t := (bs.drop o).take n
  t ++ List.replicate (n - t.length) 0

/-- The little-endian number in `n` bytes of `bs` from offset `o`. -/
def leAt (bs : List Byte) (o n : Nat) : Nat := ofLe (slice bs o n)

/-- `bs` with the bytes `v` at offset `o`. -/
def patch (bs : List Byte) (o : Nat) (v : List Byte) : List Byte :=
  slice bs 0 o ++ v ++ bs.drop (o + v.length)

/-- `n` zero bytes. -/
def zeros (n : Nat) : List Byte := List.replicate n 0

/-- `bs` cut or zero-extended to `n` bytes. -/
def padTo (n : Nat) (bs : List Byte) : List Byte := slice bs 0 n

/-- The pieces of `n` elements that make up a list; the last may be shorter. -/
def piecesFuel {α : Type} (n : Nat) : Nat → List α → List (List α)
  | 0, _ => []
  | _ + 1, [] => []
  | f + 1, l => l.take n :: piecesFuel n f (l.drop n)

/-- The pieces of `n` elements that make up a list. -/
def pieces {α : Type} (n : Nat) (l : List α) : List (List α) := piecesFuel n l.length l

/-- One bit of the reflected CRC-32C register. -/
def crcBit (c : Nat) : Nat := if c % 2 = 1 then (c / 2) ^^^ 0x82F63B78 else c / 2

/-- One byte through the CRC-32C register. -/
def crcByte (c : Nat) (b : Byte) : Nat :=
  crcBit (crcBit (crcBit (crcBit (crcBit (crcBit (crcBit (crcBit (c ^^^ b.toNat))))))))

/-- CRC-32C (Castagnoli polynomial, reflected, all ones in and out) of a byte string. -/
def crc32c (bs : List Byte) : Nat := (bs.foldl crcByte 0xFFFFFFFF) ^^^ 0xFFFFFFFF

/-- `v` saturated at `m` (counters that saturate). -/
def satAt (m v : Nat) : Nat := if v ≤ m then v else m

/-- The sign-extended value of the low `w` bits of `x`, as an integer. -/
def signedOf (w x : Nat) : Int :=
  let y := x % 2 ^ w
  if y < 2 ^ (w - 1) then (y : Int) else (y : Int) - (2 ^ w : Nat)

/-- An integer as a `w`-bit unsigned number, modulo 2^w. -/
def wrapTo (w : Nat) (x : Int) : Nat := (x % ((2 ^ w : Nat) : Int)).toNat

/-- Exclusive-or of two byte strings, byte by byte. -/
def xorBytes : List Byte → List Byte → List Byte
  | a :: s, b :: t => (a ^^^ b) :: xorBytes s t
  | _, _ => []

/-- The number of 1 bits among the low `n` bits of `x`. -/
def countOnes : Nat → Nat → Nat
  | 0, _ => 0
  | n + 1, x => x % 2 + countOnes n (x / 2)

/-- Trailing zero bits of the low `n` bits of `x`; `n` when they are all zero. -/
def trailingZeros : Nat → Nat → Nat
  | 0, _ => 0
  | n + 1, x => if x % 2 = 1 then 0 else 1 + trailingZeros n (x / 2)

/-- Leading zero bits of `x` read as `n` bits. -/
def leadingZeros : Nat → Nat → Nat
  | 0, _ => 0
  | n + 1, x => if x / 2 ^ n % 2 = 1 then 0 else 1 + leadingZeros n x

/-- Multiply by x in GF(2)[x] modulo the polynomial whose low part is `poly`, for `w`-bit elements. -/
def gfDouble (w poly a : Nat) : Nat :=
  if a / 2 ^ (w - 1) % 2 = 1 then ((a * 2) % 2 ^ w) ^^^ poly else (a * 2) % 2 ^ w

/-- The product in GF(2^w), by the shift and add of R80; `n` bits of `b` remain. -/
def gfMulSteps (w poly : Nat) : Nat → Nat → Nat → Nat → Nat
  | 0, _, _, r => r
  | n + 1, a, b, r =>
    gfMulSteps w poly n (gfDouble w poly a) (b / 2) (if b % 2 = 1 then r ^^^ a else r)

/-- GF(2^8) product modulo 0x11D (R80, R306). -/
def gf8Mul (a b : Nat) : Nat := gfMulSteps 8 0x1D 8 a b 0

/-- GF(2^128) product modulo x^128 + x^7 + x^2 + x + 1, bit i the coefficient of x^i (R80). -/
def gf128Mul (a b : Nat) : Nat := gfMulSteps 128 0x87 128 a b 0

/-- The bits of a byte in reverse order. -/
def revByte (x : Nat) : Nat :=
  (x % 2) * 128 + (x / 2 % 2) * 64 + (x / 4 % 2) * 32 + (x / 8 % 2) * 16 + (x / 16 % 2) * 8
    + (x / 32 % 2) * 4 + (x / 64 % 2) * 2 + x / 128 % 2

/-- Each of the `n` bytes of a number with its bits reversed, the bytes kept in place. -/
def revBytesBits : Nat → Nat → Nat
  | 0, _ => 0
  | n + 1, x => revByte (x % 256) + 256 * revBytesBits n (x / 256)

/-- GF(2^128) product in the bit order of SP 800-38D: bit m of byte k is the coefficient of x^(8k+7-m) (R80). -/
def gf128MulG (a b : Nat) : Nat :=
  revBytesBits 16 (gf128Mul (revBytesBits 16 a) (revBytesBits 16 b))

/-- Replace the element at an index of a list. -/
def setNth {α : Type} : Nat → α → List α → List α
  | _, _, [] => []
  | 0, v, _ :: t => v :: t
  | n + 1, v, x :: t => x :: setNth n v t

/-- Change the elements of a list that satisfy `p`. -/
def mapWhere {α : Type} (p : α → Bool) (f : α → α) (l : List α) : List α :=
  l.map fun x => if p x then f x else x

/-- Remove the first element that satisfies `p`. -/
def removeFirst {α : Type} (p : α → Bool) : List α → List α
  | [] => []
  | x :: t => if p x then t else x :: removeFirst p t

end Sys2Proof
end

