-- ==== Sys2Proof/Machine/Keccak.lean ====
section
/-! DEFINITION. Keccak-f[1600], SHAKE256 (FIPS 202) and KMAC256 (NIST SP 800-185), which the digest units (R204), the key
hierarchy (R256) and the keeper use. -/

namespace Sys2Proof

/-- Rotate a 64-bit lane left. -/
def rotl64 (x n : Nat) : Nat := ((x <<< n) % 2 ^ 64) ||| (x >>> (64 - n))

/-- The state is five planes of five 64-bit lanes. A plane turned left by one lane. -/
def planeTurn (p : List Nat) : List Nat := p.drop 1 ++ p.take 1

/-- The exclusive-or of two planes. -/
def planeXor (p q : List Nat) : List Nat := p.zipWith (· ^^^ ·) q

/-- θ: every plane takes the exclusive-or of the column parities left and right of each lane. -/
def keccakMix (a : List (List Nat)) : List (List Nat) :=
  let parity := a.foldl planeXor (List.replicate 5 0)
  let right := planeTurn parity
  let left := planeTurn (planeTurn (planeTurn right))
  a.map (planeXor (planeXor left (right.map (rotl64 · 1))))

/-- The walk of ρ over the 24 lanes beside the first: column, plane and the lane's rotation, in the walk's order. -/
def turnWalk : Nat → Nat → Nat → Nat → List (Nat × Nat × Nat)
  | 0, _, _, _ => []
  | n + 1, t, x, y => (x, y, (t + 1) * (t + 2) / 2 % 64) :: turnWalk n (t + 1) y ((2 * x + 3 * y) % 5)

/-- How far ρ rotates the lane in column `x` of plane `y`; the walk starts at column 1 of plane 0. -/
def laneTurn (x y : Nat) : Nat :=
  match (turnWalk 24 0 1 0).find? (fun w => w.1 = x ∧ w.2.1 = y) with
  | some w => w.2.2
  | none => 0

/-- ρ and π: column `x` of plane `y` is, rotated, the lane in column `x + 3y` of plane `x`. -/
def keccakScatter (a : List (List Nat)) : List (List Nat) :=
  [0, 1, 2, 3, 4].map fun y => [0, 1, 2, 3, 4].map fun x =>
    let col := (x + 3 * y) % 5
    rotl64 ((a.getD x []).getD col 0) (laneTurn col x)

/-- χ on one plane: a lane takes the bits of the lane two further where the next lane has zeros. -/
def keccakBend (p : List Nat) : List Nat :=
  let next := planeTurn p
  planeXor p ((planeTurn next).zipWith (fun far near => far ^^^ (far &&& near)) next)

/-- The bits of the round constants come from a shift register of 8 bits with feedback 0x71: its state `n` shifts on. -/
def rcShift : Nat → Nat → Nat
  | 0, r => r
  | n + 1, r => rcShift n (if r < 128 then 2 * r else (2 * r) % 256 ^^^ 0x71)

/-- ι's constant from the register's state at the round's begin: its successive low bits stand at bits 2^j − 1. -/
def roundConstant : Nat → Nat → Nat → Nat
  | 0, _, _ => 0
  | n + 1, j, r => r % 2 * 2 ^ (2 ^ j - 1) + roundConstant n (j + 1) (rcShift 1 r)

/-- `n` rounds from the register's state `r`; each round uses seven of its bits. -/
def keccakRounds : Nat → Nat → List (List Nat) → List (List Nat)
  | 0, _, a => a
  | n + 1, r, a =>
    let b := (keccakScatter (keccakMix a)).map keccakBend
    keccakRounds n (rcShift 7 r) (planeXor (b.headD []) (roundConstant 7 0 r :: List.replicate 4 0) :: b.drop 1)

/-- The permutation of 24 rounds. -/
def keccakF (a : List (List Nat)) : List (List Nat) := keccakRounds 24 1 a

/-- The rate, in bytes (R204). -/
def keccakRate : Nat := 136

/-- Exclusive-or a block of 136 bytes, 17 lanes, into the state. -/
def keccakXor (a : List (List Nat)) (block : List Byte) : List (List Nat) :=
  a.zipWith planeXor ([0, 40, 80, 120, 160].map fun p =>
    [p, p + 8, p + 16, p + 24, p + 32].map fun i => if i < keccakRate then leAt block i 8 else 0)

/-- Absorb the blocks of a padded message. -/
def keccakAbsorb (padded : List Byte) : List (List Nat) :=
  (pieces keccakRate padded).foldl (fun a b => keccakF (keccakXor a b)) (List.replicate 5 (List.replicate 5 0))

/-- The first 136 bytes of the state. -/
def keccakOut (a : List (List Nat)) : List Byte := (a.flatten.flatMap fun x => leBytes 8 x).take keccakRate

/-- Squeeze `n` bytes in at most `fuel` blocks. -/
def keccakSqueeze : Nat → Nat → List (List Nat) → List Byte
  | 0, _, _ => []
  | fuel + 1, n, a =>
    if n ≤ keccakRate then (keccakOut a).take n
    else keccakOut a ++ keccakSqueeze fuel (n - keccakRate) (keccakF a)

/-- Pad a message: the domain suffix byte, zeros, and the last bit of the block. -/
def keccakPad (suffix : Nat) (m : List Byte) : List Byte :=
  let z := keccakRate - 1 - m.length % keccakRate
  if z = 0 then m ++ [BitVec.ofNat 8 (suffix ||| 0x80)]
  else m ++ [BitVec.ofNat 8 suffix] ++ zeros (z - 1) ++ [0x80]

/-- The sponge with a domain suffix, `n` bytes out. -/
def sponge (suffix n : Nat) (m : List Byte) : List Byte :=
  keccakSqueeze (n / keccakRate + 1) n (keccakAbsorb (keccakPad suffix m))

/-- SHAKE256. -/
def shake256 (n : Nat) (m : List Byte) : List Byte := sponge 0x1F n m

/-- The least number of bytes that hold `x`, at least 1. -/
def byteLen (x : Nat) : Nat := if x < 256 then 1 else if x < 65536 then 2 else if x < 16777216 then 3 else if x < 4294967296 then 4 else 8

/-- left_encode. -/
def leftEncode (x : Nat) : List Byte := BitVec.ofNat 8 (byteLen x) :: beBytes (byteLen x) x
/-- right_encode. -/
def rightEncode (x : Nat) : List Byte := beBytes (byteLen x) x ++ [BitVec.ofNat 8 (byteLen x)]
/-- encode_string. -/
def encodeString (s : List Byte) : List Byte := leftEncode (8 * s.length) ++ s
/-- bytepad to the rate. -/
def bytepad (s : List Byte) : List Byte :=
  let t := leftEncode keccakRate ++ s
  t ++ zeros ((keccakRate - t.length % keccakRate) % keccakRate)

/-- The bytes of an ASCII string. -/
def ascii (s : String) : List Byte := s.toList.map fun c => BitVec.ofNat 8 c.toNat

/-- KMAC256(K, X, 8n, S), `n` bytes out. -/
def kmac256 (key x : List Byte) (n : Nat) (s : List Byte) : List Byte :=
  sponge 0x04 n (bytepad (encodeString (ascii "KMAC") ++ encodeString s) ++ bytepad (encodeString key) ++ x ++ rightEncode (8 * n))

/-- The fingerprint of a block under a domain key (R211, R213). -/
def fingerprint (key block : List Byte) : List Byte := kmac256 key block 32 (ascii "TKFP")

/-- Little-endian bytes in a derivation (R256). -/
def deriveMaster (os arrayId : List Byte) : List Byte := kmac256 os arrayId 32 (ascii "TKMK")
/-- KEY_CHECK of a master key (R256). -/
def deriveCheck (km : List Byte) : List Byte := kmac256 km [] 8 (ascii "TKCV")
/-- K_dedup of a domain (R256). -/
def deriveDedup (km : List Byte) (d : Nat) : List Byte := kmac256 km (leBytes 2 d) 32 (ascii "TKDD")
/-- The data key of a domain and generation: half A then half B (R256). -/
def deriveData (km : List Byte) (d g : Nat) : List Byte := kmac256 km (leBytes 2 d ++ leBytes 4 g) 64 (ascii "TKDK")
/-- The key of the dump of a sequence from the array's master key: half A then half B (R334). -/
def deriveDump (km : List Byte) (seq : Nat) : List Byte := kmac256 km (leBytes 8 seq) 64 (ascii "TKDP")
/-- The key of the dump of a sequence from the unit's identity seed, where no owner secret has been accepted (R334, R527). -/
def deriveUnitDump (seed : List Byte) (seq : Nat) : List Byte := kmac256 seed (leBytes 8 seq) 64 (ascii "TKUD")

end Sys2Proof
end

