-- ==== Sys2Proof/Config.lean ====
section
/-! DEFINITION. What the spec leaves to an implementation and the values it does not fix: constants without a body,
so that nothing can be proved of them but what holds whatever they are. -/

namespace Sys2Proof

/-- A fresh value the spec leaves open, for the n-th one a run meets (log entry 1). -/
opaque Config.freeWord : Nat → Word64
/-- A fresh byte the spec leaves open (log entry 1). -/
opaque Config.freeByte : Nat → Byte
/-- A fresh choice the spec leaves open (log entry 1). -/
opaque Config.freeBit : Nat → Bool
/-- The distances most often seen between equal 4-byte groups of a folio and its window, most frequent first: the design of the
coder lane fixes them and does not publish them (R161, R163; log entry 11). -/
opaque Config.strideCandidates : List Byte → List Byte → List Nat
/-- The global address at which a packet engine or carrier sequencer sees its own 64 KiB local store; R18 gives none
(log entry 2). -/
opaque Config.unitLocalStore : Nat → Nat

/-- The bit of the Asynchronous Event Configuration that enables vendor events; R382 names none (log entry 27). -/
opaque Config.vendorEventBit : Nat

/-- CAP.TO of a controller; R369 does not list it (log entry 28). -/
opaque Config.capTimeout : Nat
/-- Serial and model number bytes of Identify Controller, by offset; R369 lists none (log entry 28). -/
opaque Config.identByte : Nat → Byte
/-- NGUID of a namespace, by NSID and byte; R369 lists none (log entry 28). -/
opaque Config.nguidByte : Nat → Nat → Byte

/-- Whether a NO_DATA entry, adopted or restored, deallocates, by its number (log entries 24 and 162). -/
opaque Config.unmapBit : Nat → Bool

/-- The public keys of release keys 0 to 3 that the ROM holds (R534). -/
opaque Config.releaseKey : Nat → List Byte
/-- The ROM's nominal trim words (R498). -/
opaque Config.romTrim : Nat → Word32
/-- The queue pairs that the shipped programs use for stack messages; the spec names none (R477, R479). -/
opaque Config.stackQp : Nat → Bool
/-- The Hyleras vendor ID (R480). -/
opaque Config.vendorId : BitVec 16
/-- Configuration space words, by offset, for whose content the spec names the PCIe standard (R480). -/
opaque Config.configWord : Nat → Word32
/-- The die's stepping, `SYS_ID.STEPPING` (R517). -/
opaque Config.stepping : Nat
/-- Hyleras's JEDEC manufacturer code, bits [11:1] of the IDCODE (R568). -/
opaque Config.jedecCode : BitVec 11
/-- The correction, in °C, that a sensor's trim word stands for; R503 gives the word no coding. -/
opaque Config.sensorOffset : Word32 → Int

end Sys2Proof
end

