-- ==== Sys2Proof/Machine/Regs.lean ====
section
/-! DEFINITION. The register image: where each register lies (R19 and the window tables of every chapter), its
access codes and reset value (R10), who may write it, and what a warm reset keeps. -/

namespace Sys2Proof

/-- Who may write a register; the device discards the writes of others. -/
inductive Writer where
  /-- Every requester. -/
  | any
  /-- The health governor and the head-host endpoint (the fence registers, R57, R113 and their like). -/
  | governorHost
  /-- The head-host endpoint alone (R551, R552). -/
  | host
  /-- The stream cores alone (`TWN_GOV_ALIVE`, `UPD_CONFIRM`). -/
  | stream
  /-- The head-host endpoint and the supervisor (`HLT_CMD`, R520). -/
  | hostSupervisor
  deriving DecidableEq, Repr

/-- One row of the register map: `n` instances at `step`, each holding `m` registers at `step2`. Masks are over the
whole register, 64 bits when `wide`. `keep` names the bits that a power return and a warm reset keep (R10). -/
structure RegRow where
  base : Nat
  n : Nat := 1
  step : Nat := 0
  m : Nat := 1
  step2 : Nat := 0
  wide : Bool := false
  rw : Nat := 0
  w1c : Nat := 0
  w1s : Nat := 0
  reset : Nat := 0
  keep : Nat := 0
  writer : Writer := .any
  deriving DecidableEq, Repr

/-- All 32 bits of a register. -/
def m32 : Nat := 0xFFFFFFFF
/-- All 64 bits of a register pair. -/
def m64 : Nat := 0xFFFFFFFFFFFFFFFF

/-! ### Unit windows (R19) -/

def sysBase : Nat := 0x0000000
def clkBase : Nat := 0x0100000
def secBase : Nat := 0x0200000
def nocBase : Nat := 0x0300000
def dmaBase : Nat := 0x0400000
def cmpBase : Nat := 0x0500000
def dgtBase : Nat := 0x0600000
def cphBase : Nat := 0x0700000
def parBase : Nat := 0x0800000
def catBase : Nat := 0x0900000
def medBase : Nat := 0x0A00000
def nvtBase : Nat := 0x0B00000
def ethBase : Nat := 0x0C00000
def atpBase : Nat := 0x0D00000
def twnBase : Nat := 0x0E00000
def epBase : Nat := 0x0F00000
def cxlBase : Nat := 0x1000000
def lpdBase : Nat := 0x1100000
def stcBase : Nat := 0x1200000
def updBase : Nat := 0x1300000
def hltBase : Nat := 0x1400000
def stkBase : Nat := 0x1500000

/-! ### Register addresses -/

def rSysId : Nat := sysBase
def rSysElapsed : Nat := sysBase + 0x8
def rSysStraps : Nat := sysBase + 0x10
def rSysBoot : Nat := sysBase + 0x14
def rSysReset : Nat := sysBase + 0x18

def rPwrStatus : Nat := clkBase
def rPwrVolts : Nat := clkBase + 0x4
def rPwrInput : Nat := clkBase + 0x8
def rClkStatus : Nat := clkBase + 0x10
def rTrimStatus : Nat := clkBase + 0x20
def rTrimBank (i : Nat) : Nat := clkBase + 0x1000 + 4 * i

def rSecMbCmd : Nat := secBase
def rSecMbStatus : Nat := secBase + 0x4
def rSecState : Nat := secBase + 0x8
def rSecAlarm : Nat := secBase + 0xC
def rSecKeysRevoked : Nat := secBase + 0x10
def rSecMbBuf (i : Nat) : Nat := secBase + 0x1000 + 4 * i

def rNocErrCount : Nat := nocBase
def rNocErrStatus : Nat := nocBase + 0x4
def rNocErrAddr : Nat := nocBase + 0x8

def rStcClCtl (c : Nat) : Nat := stcBase + c * 0x10000
def rStcClFence (c : Nat) : Nat := stcBase + c * 0x10000 + 0x4
def rStcClState (c : Nat) : Nat := stcBase + c * 0x10000 + 0x8
def rStcClFault (c : Nat) : Nat := stcBase + c * 0x10000 + 0xC
def rStcClEcc (c : Nat) : Nat := stcBase + c * 0x10000 + 0x10
def rStcDoorbell (c : Nat) : Nat := stcBase + c * 0x10000 + 0x40

/-- The engine classes of `enq` (R81). -/
def clsDma : Nat := 1
def clsCoder : Nat := 2
def clsDecoder : Nat := 3
def clsDigest : Nat := 4
def clsCipher : Nat := 5
def clsParity : Nat := 6
def clsCatalogue : Nat := 7
def clsSequencer : Nat := 8

def rDmaEng (e : Nat) : Nat := dmaBase + 0x10000 + e * 0x8000
def rDmaEngStatus (e : Nat) : Nat := rDmaEng e
def rDmaEngFence (e : Nat) : Nat := rDmaEng e + 0x4
/-- Channel block of DMA channel `u = 64 × engine + channel` (R113). -/
def rDmaCh (u : Nat) : Nat := rDmaEng (u / 64) + 0x100 + (u % 64) * 0x40
def rDmaChState (u : Nat) : Nat := rDmaCh u
def rDmaChAbort (u : Nat) : Nat := rDmaCh u + 0x4
def rDmaChAbortResult (u : Nat) : Nat := rDmaCh u + 0x8
def rDmaChFence (u : Nat) : Nat := rDmaCh u + 0xC
def rDmaChBytes (u : Nat) : Nat := rDmaCh u + 0x10
def rDmaChBad (u : Nat) : Nat := rDmaCh u + 0x18

def rCmpLane (l : Nat) : Nat := cmpBase + 0x10000 + l * 0x100
def rCmpDec (l : Nat) : Nat := cmpBase + 0x20000 + l * 0x100
def rDgtUnit (u : Nat) : Nat := dgtBase + 0x10000 + u * 0x100
def rCphUnit (u : Nat) : Nat := cphBase + 0x10000 + u * 0x100
def rCphSlot (i : Nat) : Nat := cphBase + 0x40000 + i * 0x20
def rParEng (e : Nat) : Nat := parBase + 0x10000 + e * 0x100
def rCatAssist (a : Nat) : Nat := catBase + 0x10000 + a * 0x100
def rMedSeq (q : Nat) : Nat := medBase + 0x10000 + q * 0x100
def rMedCar (n : Nat) : Nat := medBase + 0x20000 + n * 0x40
def rMedBlk (b : Nat) : Nat := medBase + 0x30000 + b * 0x100
def rCatDirBase : Nat := catBase + 0x8
def rCatDirBuckets : Nat := catBase + 0x10

/-- The `_ARB` register of a class. -/
def rArb (cls : Nat) : Nat :=
  match cls with
  | 1 => dmaBase | 2 => cmpBase | 3 => cmpBase + 0x4 | 4 => dgtBase
  | 5 => cphBase | 6 => parBase | 7 => catBase | _ => medBase

/-- The `_ORPHAN_COUNT` register of a class (R98). -/
def rOrphanCount (cls : Nat) : Nat :=
  match cls with
  | 1 => dmaBase + 0x4 | 2 => cmpBase + 0x8 | 3 => cmpBase + 0xC | 4 => dgtBase + 0x4
  | 5 => cphBase + 0x4 | 6 => parBase + 0x4 | 7 => catBase + 0x4 | _ => medBase + 0x4

/-- Word `i` of the `_ORPHAN_REC` registers of a class (R98). -/
def rOrphanRec (cls i : Nat) : Nat :=
  (match cls with
  | 1 => dmaBase + 0x20 | 2 => cmpBase + 0x20 | 3 => cmpBase + 0x40 | 4 => dgtBase + 0x20
  | 5 => cphBase + 0x20 | 6 => parBase + 0x20 | 7 => catBase + 0x20 | _ => medBase + 0x20) + 4 * i

/-- The register block of a unit of a class. -/
def rUnit (cls u : Nat) : Nat :=
  match cls with
  | 1 => rDmaCh u | 2 => rCmpLane u | 3 => rCmpDec u | 4 => rDgtUnit u
  | 5 => rCphUnit u | 6 => rParEng u | 7 => rCatAssist u | _ => rMedSeq u

/-- The fence register of a unit of a class. -/
def rUnitFence (cls u : Nat) : Nat := if cls = clsDma then rDmaChFence u else rUnit cls u + 0x4

/-- The `_SEQ` register of queue `q` of a unit. -/
def rSeq (cls u q : Nat) : Nat := rUnit cls u + 0x20 + 8 * q

def rDgtAlarmCount : Nat := dgtBase + 0x8
def rDgtKeyLoaded (i : Nat) : Nat := dgtBase + 0x1000 + 4 * i
def rCphAlarmCount : Nat := cphBase + 0x8
def rCphKeyState (i : Nat) : Nat := cphBase + 0x1000 + 4 * i

def rNvtConnCount : Nat := nvtBase
def rNvtCmdInflight : Nat := nvtBase + 0x4
def rNvtErrStatus : Nat := nvtBase + 0x8
def rNvtErrConn : Nat := nvtBase + 0xC
def rNvtCmds : Nat := nvtBase + 0x10
def rNvtLenMismatch : Nat := nvtBase + 0x18
def rNvtDigestErr : Nat := nvtBase + 0x1C
def rEthMode : Nat := ethBase
def rEthPort (p : Nat) : Nat := ethBase + 0x1000 + p * 0x100
def rEthPortFence (p : Nat) : Nat := rEthPort p + 0x4

def rAtpRegionBase : Nat := atpBase
def rAtpRegionSync : Nat := atpBase + 0x8
def rAtpRevoke : Nat := atpBase + 0xC
def rAtpQpTableBase : Nat := atpBase + 0x10
def rAtpQpMax : Nat := atpBase + 0x18
def rAtpQpCmd : Nat := atpBase + 0x20
def rAtpDoorbell : Nat := atpBase + 0x28
def rAtpCacheStatus : Nat := atpBase + 0x30
def rAtpMissBytes : Nat := atpBase + 0x34
def rAtpDropMiss : Nat := atpBase + 0x38
def rAtpDropWindow : Nat := atpBase + 0x3C
def rAtpDropQp : Nat := atpBase + 0x40
def rAtpRxBad : Nat := atpBase + 0x44
def rAtpRepeats : Nat := atpBase + 0x48
def rAtpErrStatus : Nat := atpBase + 0x50
def rAtpErrQp : Nat := atpBase + 0x54
def rAtpOrphanCount : Nat := atpBase + 0x58
def rAtpOrphanRec (i : Nat) : Nat := atpBase + 0x60 + 4 * i

def rTwnLinkStatus : Nat := twnBase
def rTwnCustody : Nat := twnBase + 0x4
def rTwnRelease : Nat := twnBase + 0x8
def rTwnGovAlive : Nat := twnBase + 0xC
def rTwnGovCause : Nat := twnBase + 0x10
def rTwnGovTime : Nat := twnBase + 0x18
def rTwnTakeoverCycle : Nat := twnBase + 0x20
def rTwnCleanRun : Nat := twnBase + 0x28
def rTwnPeerGlitch : Nat := twnBase + 0x2C
def rTwnHbMissed : Nat := twnBase + 0x30
def rTwnFrameBad : Nat := twnBase + 0x34
def rTwnRetrains : Nat := twnBase + 0x38

def rStkConfig : Nat := stkBase
def rStkStatus : Nat := stkBase + 0x4
def rStkGen : Nat := stkBase + 0x8
def rStkSyncCount : Nat := stkBase + 0x10
def rStkSyncMissed : Nat := stkBase + 0x18

def rEpStatus : Nat := epBase
def rEpBar4Window : Nat := epBase + 0x4
def rEpBar4Ur : Nat := epBase + 0x8
def rEpMsixSend : Nat := epBase + 0xC
def rEpAtsMisses : Nat := epBase + 0x10
def rEpAtsFailed : Nat := epBase + 0x14
def rEpAtsInvals : Nat := epBase + 0x18
def rEpCplTimeouts : Nat := epBase + 0x1C
def rEpCr (r : Nat) : Nat := epBase + 0x1000 + r * 0x40
def rEpCrBase (r : Nat) : Nat := rEpCr r
def rEpCrCplBase (r : Nat) : Nat := rEpCr r + 0x8
def rEpCrCtl (r : Nat) : Nat := rEpCr r + 0x10
def rEpCrStatus (r : Nat) : Nat := rEpCr r + 0x14
def rEpCrTail (r : Nat) : Nat := rEpCr r + 0x18
def rEpCrCplHead (r : Nat) : Nat := rEpCr r + 0x1C

def rCxlMode : Nat := cxlBase
def rCxlPort (p : Nat) : Nat := cxlBase + 0x1000 + p * 0x100
def rCxlPortFence (p : Nat) : Nat := rCxlPort p + 0x4
def rCxlPortCapacity (p : Nat) : Nat := rCxlPort p + 0x8

def rLpdCtl : Nat := lpdBase
def rLpdStatus : Nat := lpdBase + 0x4
def rLpdFence : Nat := lpdBase + 0x8
def rLpdChCorrected (c : Nat) : Nat := lpdBase + 0x100 + c * 0x10
def rLpdChUncorrectable (c : Nat) : Nat := lpdBase + 0x104 + c * 0x10

def rUpdState : Nat := updBase
def rUpdLevel : Nat := updBase + 0x4
def rUpdSlotA : Nat := updBase + 0x8
def rUpdSlotB : Nat := updBase + 0xC
def rUpdCmd : Nat := updBase + 0x10
def rUpdCmdStatus : Nat := updBase + 0x14
def rUpdActCycle : Nat := updBase + 0x18
def rUpdAddr : Nat := updBase + 0x20
def rUpdConfirm : Nat := updBase + 0x24
def rUpdTrialStart : Nat := updBase + 0x28
def rUpdRebuilds : Nat := updBase + 0x30
def rUpdGuardRefused : Nat := updBase + 0x34
def rUpdPage (i : Nat) : Nat := updBase + 0x100 + 4 * i

def rHltMode : Nat := hltBase
def rHltCmd : Nat := hltBase + 0x4
def rHltCmdStatus : Nat := hltBase + 0x8
def rHltStage : Nat := hltBase + 0xC
def rHltSafeCause : Nat := hltBase + 0x10

/-! ### The rows -/

/-- SYS, CLK, PWR, TRIM and SEC (R517, R518, R551). -/
def rowsSys : List RegRow := [
  { base := rSysId, reset := 0x8640 },
  { base := rSysElapsed, wide := true, keep := m64 },
  { base := rSysStraps, keep := m32 },
  { base := rSysBoot, reset := 1, keep := 0xFF00 },
  { base := rSysReset },
  { base := rPwrStatus, keep := 0x8 },
  { base := rPwrVolts }, { base := rPwrInput }, { base := rClkStatus },
  { base := rTrimStatus, keep := 0x3 },
  { base := rTrimBank 0, n := 512, step := 4, rw := m32, keep := m32 },
  { base := rSecMbCmd, writer := .host },
  { base := rSecMbStatus, w1c := 0x2, writer := .host },
  { base := rSecState, writer := .host },
  { base := rSecAlarm, keep := 0xFFFF, writer := .host },
  { base := rSecKeysRevoked, writer := .host },
  { base := rSecMbBuf 0, n := 256, step := 4, rw := m32, writer := .host }]

/-- NOC and STC (R56, R61). -/
def rowsNoc : List RegRow := [
  { base := rNocErrCount, keep := m32 },
  { base := rNocErrStatus, w1c := 0x3 },
  { base := rNocErrAddr, wide := true },
  { base := rStcClCtl 0, n := 12, step := 0x10000, rw := 0xFF },
  { base := rStcClFence 0, n := 12, step := 0x10000, w1s := 0x1FF, keep := 0x1FF, writer := .governorHost },
  { base := rStcClState 0, n := 12, step := 0x10000 },
  { base := rStcClFault 0, n := 12, step := 0x10000, w1c := 0xFFFF },
  { base := rStcClEcc 0, n := 12, step := 0x10000 },
  { base := rStcDoorbell 0, n := 12, step := 0x10000 }]

/-- The arbitration and orphan registers that every engine class has (R93, R98). -/
def rowsClass (cls : Nat) : List RegRow := [
  { base := rArb cls, rw := 0xFFFF, reset := 0x8124 },
  { base := rOrphanCount cls, keep := m32 },
  { base := rOrphanRec cls 0, n := 8, step := 4 }]

/-- DMA (R113). -/
def rowsDma : List RegRow := [
  { base := rDmaEngStatus 0, n := 16, step := 0x8000 },
  { base := rDmaEngFence 0, n := 16, step := 0x8000, w1s := 1, keep := 1, writer := .governorHost },
  { base := rDmaChState 0, n := 16, step := 0x8000, m := 64, step2 := 0x40 },
  { base := rDmaChAbort 0, n := 16, step := 0x8000, m := 64, step2 := 0x40 },
  { base := rDmaChAbortResult 0, n := 16, step := 0x8000, m := 64, step2 := 0x40 },
  { base := rDmaChFence 0, n := 16, step := 0x8000, m := 64, step2 := 0x40, w1s := 1, keep := 1, writer := .governorHost },
  { base := rDmaChBytes 0, n := 16, step := 0x8000, m := 64, step2 := 0x40, wide := true, keep := m64 },
  { base := rDmaChBad 0, n := 16, step := 0x8000, m := 64, step2 := 0x40, keep := m32 },
  { base := rSeq clsDma 0 0, n := 16, step := 0x8000, m := 64, step2 := 0x40, wide := true, keep := m64 },
  { base := rSeq clsDma 0 1, n := 16, step := 0x8000, m := 64, step2 := 0x40, wide := true, keep := m64 },
  { base := rSeq clsDma 0 2, n := 16, step := 0x8000, m := 64, step2 := 0x40, wide := true, keep := m64 },
  { base := rSeq clsDma 0 3, n := 16, step := 0x8000, m := 64, step2 := 0x40, wide := true, keep := m64 }]

/-- CMP, DGT and CPH (R183, R236, R263). -/
def rowsData : List RegRow := [
  { base := rCmpLane 0, n := 32, step := 0x100 },
  { base := rCmpLane 0 + 0x4, n := 32, step := 0x100, w1s := 1, keep := 1, writer := .governorHost },
  { base := rCmpLane 0 + 0x8, n := 32, step := 0x100, m := 2, step2 := 8, wide := true, keep := m64 },
  { base := rCmpLane 0 + 0x18, n := 32, step := 0x100, m := 2, step2 := 4, keep := m32 },
  { base := rCmpLane 0 + 0x20, n := 32, step := 0x100, m := 4, step2 := 8, wide := true },
  { base := rCmpDec 0, n := 48, step := 0x100 },
  { base := rCmpDec 0 + 0x4, n := 48, step := 0x100, w1s := 1, keep := 1, writer := .governorHost },
  { base := rCmpDec 0 + 0x8, n := 48, step := 0x100, wide := true, keep := m64 },
  { base := rCmpDec 0 + 0x18, n := 48, step := 0x100, keep := m32 },
  { base := rCmpDec 0 + 0x20, n := 48, step := 0x100, m := 4, step2 := 8, wide := true },
  { base := rDgtAlarmCount }, { base := rDgtKeyLoaded 0, n := 130, step := 4 },
  { base := rDgtUnit 0, n := 32, step := 0x100 },
  { base := rDgtUnit 0 + 0x4, n := 32, step := 0x100, w1s := 1, keep := 1, writer := .governorHost },
  { base := rDgtUnit 0 + 0x8, n := 32, step := 0x100, m := 2, step2 := 8, wide := true, keep := m64 },
  { base := rDgtUnit 0 + 0x18, n := 32, step := 0x100, m := 2, step2 := 4 },
  { base := rDgtUnit 0 + 0x20, n := 32, step := 0x100, m := 4, step2 := 8, wide := true },
  { base := rCphAlarmCount }, { base := rCphKeyState 0, n := 256, step := 4 },
  { base := rCphUnit 0, n := 128, step := 0x100 },
  { base := rCphUnit 0 + 0x4, n := 128, step := 0x100, w1s := 1, keep := 1, writer := .governorHost },
  { base := rCphUnit 0 + 0x8, n := 128, step := 0x100, wide := true, keep := m64 },
  { base := rCphUnit 0 + 0x10, n := 128, step := 0x100, m := 2, step2 := 4, keep := m32 },
  { base := rCphUnit 0 + 0x20, n := 128, step := 0x100, m := 4, step2 := 8, wide := true },
  { base := rCphSlot 0, n := 4096, step := 0x20 },
  { base := rCphSlot 0 + 0x8, n := 4096, step := 0x20, m := 2, step2 := 8, wide := true },
  { base := rCphSlot 0 + 0x18, n := 4096, step := 0x20, keep := m32 }]

/-- PAR, CAT and MED (R327, R293, R413). -/
def rowsMedia : List RegRow := [
  { base := rParEng 0, n := 8, step := 0x100 },
  { base := rParEng 0 + 0x4, n := 8, step := 0x100, w1s := 1, keep := 1, writer := .governorHost },
  { base := rParEng 0 + 0x8, n := 8, step := 0x100, wide := true, keep := m64 },
  { base := rParEng 0 + 0x10, n := 8, step := 0x100, m := 2, step2 := 4, keep := m32 },
  { base := rParEng 0 + 0x20, n := 8, step := 0x100, m := 4, step2 := 8, wide := true },
  { base := rCatDirBase, wide := true, rw := 0xFFFFFFFFFFC0 },
  { base := rCatDirBuckets, rw := m32 },
  { base := rCatAssist 0, n := 4, step := 0x100 },
  { base := rCatAssist 0 + 0x4, n := 4, step := 0x100, w1s := 1, keep := 1, writer := .governorHost },
  { base := rCatAssist 0 + 0x8, n := 4, step := 0x100, wide := true, keep := m64 },
  { base := rCatAssist 0 + 0x10, n := 4, step := 0x100, m := 2, step2 := 4, keep := m32 },
  { base := rCatAssist 0 + 0x20, n := 4, step := 0x100, m := 4, step2 := 8, wide := true },
  { base := rMedSeq 0, n := 8, step := 0x100 },
  { base := rMedSeq 0 + 0x4, n := 8, step := 0x100, w1s := 1, keep := 1, writer := .governorHost },
  { base := rMedSeq 0 + 0x8, n := 8, step := 0x100, wide := true, keep := m64 },
  { base := rMedSeq 0 + 0x10, n := 8, step := 0x100, keep := m32 },
  { base := rMedSeq 0 + 0x20, n := 8, step := 0x100, m := 4, step2 := 8, wide := true },
  { base := rMedCar 0, n := 96, step := 0x40 },
  { base := rMedCar 0 + 0x4, n := 96, step := 0x40, m := 4, step2 := 4, keep := m32 },
  { base := rMedBlk 0, n := 12, step := 0x100, rw := 0x7 },
  { base := rMedBlk 0 + 0x4, n := 12, step := 0x100, w1s := 1, keep := 1, writer := .governorHost },
  { base := rMedBlk 0 + 0x8, n := 12, step := 0x100 }]

/-- NVT, ETH and ATP (R384, R385, R440). -/
def rowsNet : List RegRow := [
  { base := rNvtConnCount }, { base := rNvtCmdInflight },
  { base := rNvtErrStatus, w1c := 0x3 }, { base := rNvtErrConn },
  { base := rNvtCmds, wide := true, keep := m64 },
  { base := rNvtLenMismatch, m := 2, step2 := 4, keep := m32 },
  { base := rEthMode, rw := 0x3 },
  { base := rEthPort 0, n := 16, step := 0x100 },
  { base := rEthPort 0 + 0x4, n := 16, step := 0x100, w1s := 1, keep := 1, writer := .governorHost },
  { base := rEthPort 0 + 0x8, n := 16, step := 0x100, m := 2, step2 := 4, keep := m32 },
  { base := rEthPort 0 + 0x10, n := 16, step := 0x100, m := 2, step2 := 8, wide := true, keep := m64 },
  { base := rAtpRegionBase, wide := true, rw := 0xFFFFFFFFFFC0 },
  { base := rAtpRegionSync }, { base := rAtpRevoke },
  { base := rAtpQpTableBase, wide := true, rw := m64 },
  { base := rAtpQpMax, rw := 0x1FFFFF },
  { base := rAtpQpCmd, wide := true }, { base := rAtpDoorbell, wide := true },
  { base := rAtpCacheStatus }, { base := rAtpMissBytes },
  { base := rAtpDropMiss, m := 4, step2 := 4, keep := m32 },
  { base := rAtpRepeats, wide := true, keep := m64 },
  { base := rAtpErrStatus, w1c := 0x3 }, { base := rAtpErrQp },
  { base := rAtpOrphanCount, keep := m32 },
  { base := rAtpOrphanRec 0, n := 8, step := 4 }]

/-- TWN, STK and EP (R464, R479, R495). -/
def rowsTwin : List RegRow := [
  { base := rTwnLinkStatus }, { base := rTwnCustody },
  { base := rTwnRelease, writer := .governorHost },
  { base := rTwnGovAlive, writer := .stream },
  { base := rTwnGovCause, keep := 0xFFFF },
  { base := rTwnGovTime, wide := true, keep := m64 },
  { base := rTwnTakeoverCycle, wide := true },
  { base := rTwnCleanRun },
  { base := rTwnPeerGlitch, m := 4, step2 := 4, keep := m32 },
  { base := rStkConfig, rw := 0x7 }, { base := rStkStatus },
  { base := rStkGen, wide := true },
  { base := rStkSyncCount, wide := true, keep := m64 },
  { base := rStkSyncMissed, keep := m32 },
  { base := rEpStatus }, { base := rEpBar4Window, rw := 0x3F }, { base := rEpBar4Ur, keep := m32 },
  { base := rEpMsixSend },
  { base := rEpAtsMisses, m := 4, step2 := 4, keep := m32 },
  { base := rEpCrBase 0, n := 4, step := 0x40, m := 2, step2 := 8, wide := true, rw := 0xFFFFFFFFFFFFF000 },
  { base := rEpCrCtl 0, n := 4, step := 0x40, rw := 0xF01 },
  { base := rEpCrStatus 0, n := 4, step := 0x40, reset := 1 },
  { base := rEpCrTail 0, n := 4, step := 0x40 }, { base := rEpCrCplHead 0, n := 4, step := 0x40 }]

/-- CXL, LPD, UPD and HLT (R294, R562, R519, R552, R520). -/
def rowsStart : List RegRow := [
  { base := rCxlMode, rw := 0x3 },
  { base := rCxlPort 0, n := 4, step := 0x100 },
  { base := rCxlPort 0 + 0x4, n := 4, step := 0x100, w1s := 1, keep := 1, writer := .governorHost },
  { base := rCxlPort 0 + 0x8, n := 4, step := 0x100 },
  { base := rCxlPort 0 + 0xC, n := 4, step := 0x100, m := 2, step2 := 4, keep := m32 },
  { base := rLpdCtl, rw := 0xFF }, { base := rLpdStatus },
  { base := rLpdFence, w1s := 0xFF, keep := 0xFF, writer := .governorHost },
  { base := rLpdChCorrected 0, n := 8, step := 0x10, m := 2, step2 := 4, keep := m32 },
  { base := rUpdState, writer := .host }, { base := rUpdLevel, writer := .host },
  { base := rUpdSlotA, writer := .host }, { base := rUpdSlotB, writer := .host },
  { base := rUpdCmd, writer := .host }, { base := rUpdCmdStatus, writer := .host },
  { base := rUpdActCycle, wide := true, rw := m64, writer := .host },
  { base := rUpdAddr, rw := 0x3FFFF00, writer := .host },
  { base := rUpdConfirm, writer := .stream },
  { base := rUpdTrialStart, wide := true, writer := .host },
  { base := rUpdRebuilds, writer := .host },
  { base := rUpdGuardRefused, keep := m32, writer := .host },
  { base := rUpdPage 0, n := 64, step := 4, rw := m32, writer := .host },
  { base := rHltMode }, { base := rHltCmd, writer := .hostSupervisor },
  { base := rHltCmdStatus }, { base := rHltStage },
  { base := rHltSafeCause, keep := 0xF }]

/-- Every register of the register image. -/
def regRows : List RegRow :=
  rowsSys ++ rowsNoc ++ rowsClass 1 ++ rowsClass 2 ++ rowsClass 3 ++ rowsClass 4 ++ rowsClass 5
    ++ rowsClass 6 ++ rowsClass 7 ++ rowsClass 8 ++ rowsDma ++ rowsData ++ rowsMedia ++ rowsNet
    ++ rowsTwin ++ rowsStart

/-- The offset of word address `a` inside one of the row's registers, if the row holds it. -/
def RegRow.offset? (r : RegRow) (a : Nat) : Option Nat :=
  if a < r.base then none else
  let d := a - r.base
  let i := if r.step = 0 then 0 else d / r.step
  let e := if r.step = 0 then d else d % r.step
  let j := if r.step2 = 0 then 0 else e / r.step2
  let o := if r.step2 = 0 then e else e % r.step2
  if i < r.n ∧ j < r.m ∧ (o = 0 ∨ (r.wide ∧ o = 4)) then some o else none

/-- The row that holds word address `a`, and whether the word is the high half of a 64-bit register. -/
def findRow (rows : List RegRow) (a : Nat) : Option (RegRow × Bool) :=
  match rows with
  | [] => none
  | r :: t =>
    match r.offset? a with
    | some o => some (r, o == 4)
    | none => findRow t a

/-- The register that occupies word address `a` of the register image, if any (R7). -/
def regAt (a : Nat) : Option (RegRow × Bool) := findRow regRows a

/-- The mask or reset value of one word of a row. -/
def halfOf (hi : Bool) (m : Nat) : Nat := if hi then m >>> 32 else m % 2 ^ 32

/-- The bits of word `a` that a power return or a warm reset keeps (R10). -/
def keepMask (a : Nat) : Nat :=
  match regAt a with
  | some (r, hi) => halfOf hi r.keep
  | none => 0

/-- What a word of the image holds after a write of `v` over `old`, by its access codes (R9, R10). -/
def writeBits (r : RegRow) (hi : Bool) (old v : Nat) : Nat :=
  let rw := halfOf hi r.rw
  let c := halfOf hi r.w1c
  let s := halfOf hi r.w1s
  let afterRw := (old &&& (m32 ^^^ rw)) ||| (v &&& rw)
  (afterRw &&& (m32 ^^^ (v &&& c))) ||| (v &&& s)

/-- The words of the image that do not read 0 at a cold start: the reset column of every register table. -/
def regsCold : Sparse Word32 :=
  let put (l : Sparse Word32) (a v : Nat) := Sparse.set 0 a (BitVec.ofNat 32 v) l
  let arbs := [1, 2, 3, 4, 5, 6, 7, 8].foldl (fun l c => put l (rArb c) 0x8124) []
  let rings := [0, 1, 2, 3].foldl (fun l r => put l (rEpCrStatus r) 1) arbs
  put (put rings rSysId 0x8640) rSysBoot 1

end Sys2Proof
end

