-- ==== Sys2Proof/Machine/State.lean ====
section
/-! DEFINITION. The state of the block: every register, queue, counter, mode and pin the spec gives it, as plain data,
and its value after a cold start. -/

namespace Sys2Proof.Machine

/-! ### Programmable engines (chapters 02, 03) -/

/-- The kinds of bus error of `NOC_ERR_STATUS.KIND` (R61), in code order. -/
inductive BusKind where
  | unoccupied
  | ats
  | uncorrectable
  | atomic
  deriving DecidableEq, Repr

/-- Whether an engine executes (R57, R58). -/
inductive RunState where
  /-- Not running: `STC_CL_STATE` 0. -/
  | stopped
  | running
  /-- `RUN` was cleared and accesses are still outstanding; `restart` when a start waits for the stop to complete. -/
  | stopping (restart : Bool)
  /-- Stopped by double fault or fence: `STC_CL_STATE` 3. -/
  | dead
  deriving DecidableEq, Repr

/-- What a running engine waits for before it issues again (R42, R50, R52, R83, R591). -/
inductive Waiting where
  | issuing
  /-- `fence.w` owed write responses. -/
  | fenceW
  /-- `fence.rw` owed loads or write responses. -/
  | fenceRw
  /-- The fence of a `cbar` (R42). -/
  | cbarFence (mask : BitVec 8)
  /-- At the barrier since this value of `SYS_ELAPSED` (R45). -/
  | cbar (mask : BitVec 8) (since : Word64)
  /-- An `enq` whose `fence.w` is owed write responses (R43, R591). -/
  | enq (gd vs gq : BitVec 5)
  | wait
  /-- `wne` on the word at the address (as the program gave it), for another value than the one given (R83). -/
  | wne (gd : BitVec 5) (addr : Word64) (cmp : Word64)
  /-- A load or atomic whose data may turn out to be an error holds issue until it returns (R49, R72). -/
  | loadHeld
  deriving DecidableEq, Repr

/-- What an outstanding load will return. -/
inductive LoadResult where
  | data (v : Vec)
  | error (kind : BusKind)
  /-- Head-host memory: the data comes with HOST_READ_COMPLETION (R489). -/
  | host
  deriving DecidableEq, Repr

/-- A load or atomic outstanding beyond the local store (R40, R590). -/
structure Load where
  vector : Bool
  reg : BitVec 5
  size : Nat
  signed : Bool
  atomic : Bool
  addr : Word64
  result : LoadResult
  deriving DecidableEq, Repr

/-- A store outstanding beyond the local store, owed a good response or an error (R40, R50). -/
structure Owed where
  addr : Word64
  error : Option BusKind
  /-- The addresses of its writes that failed, lowest first: one, or several of the eight that a 64-byte store is on CXL memory (R71). -/
  failed : List Nat
  /-- Bytes that wait for a translation before they are written to head-host memory (R487): offset and byte. -/
  held : List (Nat × Byte)
  deriving DecidableEq, Repr

/-- A command block on its way to its queue, or its status on its way back (R82). -/
structure EnqOwed where
  gd : BitVec 5
  cls : Nat
  inst : Nat
  queue : Nat
  block : Vec
  status : Option Word64
  deriving DecidableEq, Repr

/-- One programmable engine: the state of R32 and the core control registers of R46. -/
structure Core where
  g : Sparse Word64
  v : Sparse Vec
  p : Sparse Word64
  pc : BitVec 18
  run : RunState
  waiting : Waiting
  loads : List Load
  stores : List Owed
  enqs : List EnqOwed
  ie : Bool
  inExc : Bool
  epc : Word32
  cause : BitVec 4
  /-- Set by `resume`: the next `sysrd` of `STC_CAUSE` clears it (R48). -/
  causeArmed : Bool
  faultAddr : BitVec 48
  vbase : Word32
  irqPend : Word32
  irqMask : Word32
  wdogLimit : BitVec 16
  /-- `SYS_ELAPSED` at the watchdog's last restart (R54). -/
  wdogStart : Word64
  wdogWarned : Bool
  timerCmp : Word64
  barTimeout : BitVec 16
  /-- `SYS_ELAPSED` when the core last started running, from which `STC_CYCLES` counts (R46), and the ns of throttling there had been. -/
  startedAt : Word64
  startedSlow : Nat
  /-- `STC_CYCLES` as it stood when the cluster's clock stopped (R59); none while the clock runs. -/
  clockHeld : Option Nat
  deriving DecidableEq, Repr

/-- The roles of the shipped programs on the stream cores (R62); `shared` is the last core's of R63 when one cluster remains. -/
inductive Role where
  | supervisor
  | ledger
  | intake
  | placement
  | retrieval
  | catalogue
  | media
  | replication
  | rebuild
  | shared
  deriving DecidableEq, Repr

/-- An engine as a cold start leaves it (R46, R57). -/
def Core.cold : Core :=
  { g := [], v := [], p := [], pc := 0, run := .stopped, waiting := .issuing, loads := [], stores := [],
    enqs := [], ie := false, inExc := false, epc := 0, cause := 0, causeArmed := false, faultAddr := 0,
    vbase := 0, irqPend := 0, irqMask := 0, wdogLimit := 0, wdogStart := 0, wdogWarned := false,
    timerCmp := 0xFFFFFFFFFFFFFFFF, barTimeout := 0x3E8, startedAt := 0, startedSlow := 0, clockHeld := none }

/-- A requester's read shadow or write holding register: the register pair it is tagged with and its word (R8). -/
structure Shadow where
  tag : Nat
  value : Word32
  deriving DecidableEq, Repr

/-- The last data returned to a requester outside the programmable engines: a register or BAR4 read's bytes, or
Unsupported Request (R484). -/
structure Reply where
  addr : Nat
  data : List Byte
  unsupported : Bool
  deriving DecidableEq, Repr

/-! ### Engine units (chapter 04) -/

/-- A command block in a queue, with its sequence number (R93). -/
structure QEntry where
  seq : Word64
  block : Vec
  deriving DecidableEq, Repr

/-- A coding context of a lane's queue (R155, R200). -/
structure CoderCtx where
  /-- Chain position of the last folio taken in; none when no chain is open. -/
  chain : Option Nat
  /-- Chain-linkage value of the last folio. -/
  link : Nat
  /-- GEOM of the last folio, as bytes 2-4 of a header hold it (R170, R184). -/
  geom : Nat
  /-- p of each context of the model, 32,768 where unlisted (R196). -/
  model : Sparse (BitVec 16)
  /-- The history window, oldest byte first, at most 65,536 bytes. -/
  window : List Byte
  deriving DecidableEq, Repr

/-- A reset context (R155, R200). -/
def CoderCtx.reset : CoderCtx := { chain := none, link := 0, geom := 0, model := [], window := [] }

/-- What a coder or decoder lane holds for a command in its stages (R153, R160, R588). -/
structure LaneJob where
  /-- 0 analysis, 1 coding, 2 verification, 3 release writes that occupy no stage (R153, R589). -/
  stage : Nat
  /-- The command's first reads, of its context image and an ENCODE's input, are done (R160, R171). -/
  ready : Bool
  /-- A status that a failed context load or input read gave the command, 0 for none (R171, R175). -/
  failed : Nat
  /-- The input an ENCODE read in analysis (R160). -/
  input : List Byte
  /-- The context image a LOAD_CTX command loaded (R171). -/
  loaded : Option CoderCtx
  /-- The geometry analysis chose (R161). -/
  geom : Nat
  /-- What verification found of an ENCODE; none before (R164). -/
  verdict : Option Bool
  /-- ENCODE: the form coding made, its outcome, its position and whether R167 or R168 restarted the chain. -/
  coded : List Byte
  outcome : Nat
  position : Nat
  restarted : Bool
  /-- The context an ENCODE is coded from, against which verification decodes it (R164). -/
  base : CoderCtx
  /-- The context the command leaves (R588). -/
  after : CoderCtx
  deriving DecidableEq, Repr

/-- A job that has just entered its first stage. -/
def LaneJob.start : LaneJob :=
  { stage := 0, ready := false, failed := 0, input := [], loaded := none, geom := 0, verdict := none, coded := [], outcome := 0, position := 0,
    restarted := false, base := CoderCtx.reset, after := CoderCtx.reset }

/-- A command a unit has taken: its queue, its outcome so far, and whether only its record is still owed. -/
structure Cmd where
  queue : Nat
  seq : Word64
  block : Vec
  /-- Every access of the command has completed; its completion record may be written (R94). -/
  done : Bool
  status : Nat
  bytes : Nat
  detail : Nat
  /-- CHAIN: the descriptor in service (R108). CIPHER: the next block (R249). -/
  index : Nat
  /-- CHAIN: descriptors marked BAD so far (R110). -/
  bad : Nat
  /-- CHAIN: index of the first BAD descriptor, 0xFFFF for none (R110). -/
  firstBad : Nat
  /-- CHAIN: the descriptor in service once it is read (R108). -/
  desc : Option Vec
  /-- CHAIN: status and BYTES of the descriptor in service, whose header is still to be written (R109). -/
  descEnd : Option (Nat × Nat)
  /-- A digest command's key, as its slot held it when the unit took the command (R207). -/
  key : List Byte
  /-- The status with which a fence, an abort or an alarm ended the command before its completion was recorded; 0 for none (R97). -/
  stop : Nat
  /-- The command is one an abort ended, counted in DMA_CH_ABORT_RESULT.DONE (R112). -/
  aborted : Bool
  /-- `SYS_ELAPSED` when the unit took the command, last sent it to a carrier (R409), or was made to end it (R97). -/
  since : Word64
  /-- Coder and decoder lanes: the command in its stages. -/
  job : Option LaneJob
  deriving DecidableEq, Repr

/-- One addressable unit of an engine class: its queues, its arbitration and the commands it has taken. -/
structure EngUnit where
  q0 : List QEntry
  q1 : List QEntry
  q2 : List QEntry
  q3 : List QEntry
  /-- Commands of queue 0 started in a row (R100). -/
  q0run : Nat
  /-- The lower queue whose turn it is, 1 to 3, and how many it has been served (R100). -/
  turn : Nat
  served : Nat
  /-- Commands taken and not yet reported, oldest first. -/
  service : List Cmd
  /-- Commands that a fence, an abort or an alarm ended in the queues, whose records are still owed. -/
  ended : List Cmd
  /-- A cipher unit's suspended command (R249). -/
  suspended : List Cmd
  /-- A known-answer test is running (R457). -/
  testing : Bool
  deriving DecidableEq, Repr

/-- A unit with nothing queued. -/
def EngUnit.idle : EngUnit :=
  { q0 := [], q1 := [], q2 := [], q3 := [], q0run := 0, turn := 1, served := 0, service := [], ended := [], suspended := [], testing := false }

/-! ### Modes, start-up, power and clocks (chapters 12, 20, 23) -/

/-- The operating modes, in the code order of R457 and R508. -/
inductive Mode where
  | safe
  | restore
  | paired
  | solo
  | salvage
  | quiesce
  deriving DecidableEq, Repr

/-- The two forms of QUIESCE (R511). -/
inductive QForm where
  | none
  | handover
  | drained
  deriving DecidableEq, Repr

/-- Where a dump stands (R330, R331). -/
inductive DumpPhase where
  | none
  | drain
  | dump
  | close
  /-- Keeper-only standby after the dump. -/
  | standby
  deriving DecidableEq, Repr

/-- Mode and start-up state (R496 to R520). -/
structure Hlt where
  mode : Mode
  form : QForm
  restored : Bool
  joined : Bool
  drained : Bool
  /-- `HLT_STAGE.STEP` and `HLT_STAGE.ERROR` (R505, R520). -/
  step : Nat
  error : Nat
  cmdBusy : Bool
  cmdOp : Nat
  cmdResult : Nat
  safeCause : Nat
  imageOk : Bool
  /-- Slot running: 0 none, 1 A, 2 B (`SYS_BOOT.SLOT`). -/
  slot : Nat
  coldStart : Bool
  warmResets : Nat
  fuseOk : Bool
  trimWritten : Bool
  /-- The HEAD_ID strap as sampled at the last cold start (R563). -/
  head : Bool
  /-- `SYS_ELAPSED` at this start's entry to SAFE. -/
  safeAt : Word64
  /-- The buffer regions still hold what service left there: no start has come between (log entry 44). -/
  kept : Bool
  /-- LPDDR channels trained (bit n), channels that failed their last training, and channels now training (R502). -/
  trained : BitVec 8
  trainFailed : BitVec 8
  training : BitVec 8
  deriving DecidableEq, Repr

/-- Supplies, clocks and temperature (R330, R572 to R584). -/
structure Power where
  vinMv : Nat
  vholdMv : Nat
  vinGood : Bool
  /-- The power stage has disconnected VIN for overvoltage (R573). -/
  vinCut : Bool
  holdupReady : Bool
  island : Bool
  loss : Bool
  inputPower : Nat
  phase : DumpPhase
  /-- `SYS_ELAPSED` at the power-loss report or at the start of a warm reset's dump. -/
  lossAt : Word64
  /-- Sequence of the dump in progress (R335). -/
  dumpSeq : Word64
  clkHost : Bool
  clkMed : Bool
  clkCxl : Bool
  clkEth : Bool
  crystal : Bool
  /-- `SYS_ELAPSED` since which REFCLK_PCIE_MED has been present (R578). -/
  clkMedSince : Word64
  /-- The same of REFCLK_PCIE_CXL. -/
  clkCxlSince : Word64
  throttled : Bool
  /-- ns of throttling that have ended, and `SYS_ELAPSED` at which the present one began (R584). -/
  slow : Nat
  throttledAt : Word64
  /-- `SYS_ELAPSED` since which the die has stayed at or below 100 °C (R584). -/
  coolSince : Word64
  /-- Die temperature of the last sample, °C. -/
  temp : Int
  deriving DecidableEq, Repr

/-! ### The twin link and custody (chapter 17) -/

/-- What the partner last reported in a heartbeat or health report (R457). -/
structure Peer where
  seen : Bool
  head : Bool
  mode : Nat
  setA : Bool
  setB : Bool
  restored : Bool
  joined : Bool
  level : Nat
  cleanRun : Nat
  openCycle : Word64
  applied : Word64
  /-- Consecutive unclean health reports of the partner (R478), and those of them at which this head met the conditions of R456. -/
  uncleanRun : Nat
  fitRun : Nat
  deriving DecidableEq, Repr

/-- Where a rejoin, failback or handover stands (R459 to R461). -/
inductive JoinPhase where
  | idle
  /-- This head sent JOIN. -/
  | asking
  /-- This head was accepted and is loading the SOLO head's state. -/
  | loading
  /-- This (SOLO) head is seeding the partner. -/
  | seeding
  /-- Both follow the ledger from cycle J; the partner is a joined standby. -/
  | joined
  /-- FAILBACK has been sent or received for cycle F. -/
  | failback
  /-- HANDOVER has been sent for cycle H. -/
  | handingOver
  /-- HANDOVER for cycle H was accepted. -/
  | handAccepted
  deriving DecidableEq, Repr

/-- Twin link, custody line and governor (R441 to R464). -/
structure Twin where
  linkUp : Bool
  /-- `TWN_LINK_STATUS.LANES`: 0 none, 1 two, 2 four, 3 eight. -/
  lanes : Nat
  retraining : Bool
  /-- Frames held while the link retrains: channel and payload (R441). -/
  held : List (Nat × List Byte)
  lastGood : Word64
  lastHeartbeat : Word64
  /-- End of the last 100 µs interval judged for a missed heartbeat (R443). -/
  missedAt : Word64
  sentAt : Word64
  setA : Bool
  setB : Bool
  /-- The device drives CUSTODY_HOLD_N low (R444). -/
  drive : Bool
  /-- CUSTODY_PEER_N is low, unfiltered. -/
  peerLow : Bool
  peerSince : Word64
  /-- A surrender has been recognised and no later holding counts (R445). -/
  surrendered : Bool
  /-- The partner counts as holding custody (R445). -/
  peerHolds : Bool
  /-- Last write of TWN_GOV_ALIVE (R447). -/
  aliveAt : Word64
  /-- `SYS_ELAPSED` when the governor last deasserted the line, if it has. -/
  releasedAt : Option Word64
  govCause : Nat
  govCount : Nat
  govTime : Word64
  takeoverCycle : Word64
  cleanRun : Nat
  peer : Peer
  /-- Both heads read the same HEAD_ID strap (R563). -/
  strapConflict : Bool
  phase : JoinPhase
  /-- Seeding mark: the SOLO head's ENTRY_NO (R459). -/
  seedMark : Word64
  /-- J, F and H of the custody message in force (R459 to R461). -/
  cycleJ : Word64
  cycleF : Word64
  cycleH : Word64
  /-- The custody message awaiting an answer, and when it was last sent (R462). -/
  awaiting : Option (List Byte)
  awaitingAt : Word64
  /-- The last custody message received and the answer given to it (R462). -/
  answered : Option (List Byte × List Byte)
  /-- UNCLEAN causes since the last report (R458), the KAT counts, and the reports built. -/
  unclean : Nat
  katRun : Nat
  katFailed : Nat
  reportSeq : Nat
  reportAt : Word64
  /-- The fence bits of the last report, bytes 48 to 111 (R458). -/
  lastFences : List Byte
  /-- The checkpoint a rejoining head loads is still to begin (R459). -/
  seedCheckpoint : Bool
  /-- The last report's health ring slot and the reports not delivered (R481, R492). -/
  reportsHeld : List (List Byte)
  deriving DecidableEq, Repr

/-! ### Keeper island and update (chapter 21) -/

/-- One share of the owner secret (R525). -/
structure Share where
  index : Nat
  count : Nat
  secret : List Byte
  arrayId : List Byte
  keyCheck : List Byte
  deriving DecidableEq, Repr

/-- The owner secret's state, `SEC_STATE.OWNER` (R525, R551). -/
inductive Owner where
  | none
  | accepted
  | arrayPending
  deriving DecidableEq, Repr

/-- An update record of the update log (R536). -/
structure UpdRecord where
  seq : Nat
  /-- 1 A, 2 B. -/
  slot : Nat
  /-- 0 CONFIRMED, 1 TRIAL, 2 FELL_BACK. -/
  state : Nat
  boots : Nat
  digest16 : List Byte
  committed : Nat
  deriving DecidableEq, Repr

/-- An image slot: its bytes, in an area that reads 0xFF where erased, and the last result (R536, R538). -/
structure Slot where
  image : Sparse Byte
  result : Nat
  deriving DecidableEq, Repr

/-- Keeper island and firmware update (R522 to R552). -/
structure Keeper where
  /-- OTP: the identity seed and certificate (R523). -/
  seed : List Byte
  certificate : List Byte
  tampered : Bool
  svnFloor : Nat
  revoked : BitVec 4
  os : List Byte
  km : List Byte
  arrayId : Option (List Byte)
  keyCheck : List Byte
  owner : Owner
  shares : List Share
  /-- Mailbox: BUSY, DONE, RESULT, RESP_LEN, and the command in service (OP, LEN). -/
  mbBusy : Bool
  mbDone : Bool
  mbResult : Nat
  mbRespLen : Nat
  mbOp : Nat
  mbLen : Nat
  /-- The response of a command decided and not yet complete (R551). -/
  mbPending : Option (Nat × List Byte)
  /-- Alarm codes whose condition persists, and when each absent condition went away (R529). -/
  alarms : List Nat
  lastAlarm : Nat
  alarmCount : Nat
  alarmClearAt : Word64
  /-- Alarms held until the LAST row of a dump (R529). -/
  heldAlarms : List Nat
  slotA : Slot
  slotB : Slot
  /-- The update log of each slot's device, oldest record first (R536). -/
  logA : List UpdRecord
  logB : List UpdRecord
  trial : Bool
  confirmed : Bool
  fellBack : Bool
  trialStart : Word64
  /-- A scheduled activation: slot and cycle A (R539); whether its HANDOVER was sent (R541). -/
  scheduled : Option (Nat × Word64)
  handoverSent : Bool
  /-- `SYS_ELAPSED` when a fallback began (R543). -/
  fallbackAt : Option Word64
  updBusy : Bool
  updOp : Nat
  updSlot : Nat
  updResult : Nat
  /-- The result a slot command in service will report. -/
  updPending : Option Nat
  /-- Image-area offset of the last WRITE. -/
  updAt : Nat
  /-- Guard inputs counted as asserted: TRANSIT, HOLDUP_LOW, OWNER_LOCK (R544). -/
  guards : BitVec 3
  /-- Twin protocol level of the running image, and the committed level of the pair (R545, R546). -/
  level : Nat
  committed : Nat
  /-- The level the partner has confirmed, 0 while it is not known (R547). -/
  peerConfirmed : Nat
  /-- What the keeper reported of the last section load the supervisor asked for: the section and whether it is OK (R532). -/
  sectionReport : Option (Nat × Bool)
  deriving DecidableEq, Repr

/-! ### Package pins (chapter 22) -/

/-- JTAG instructions (R568). -/
inductive Jtag where
  | bypass
  | idcode
  | samplePreload
  | extest
  | highz
  deriving DecidableEq, Repr

/-- Pins and the test access port (R563 to R568). -/
structure Pins where
  perstLow : Bool
  warmLow : Bool
  /-- MED_PERST_N[b] driven low, bit b; CXL_PERST_N[p] driven low, bit p (R567). -/
  medPerst : BitVec 12
  cxlPerst : BitVec 4
  /-- MED_BLK_MODE of block b has been written since the start, bit b, and CXL_MODE has (R567). -/
  medModeSet : BitVec 12
  cxlModeSet : Bool
  jtag : Jtag
  /-- What TDO last shifted out. -/
  tdo : Nat
  /-- The preloaded boundary cells. -/
  cells : List Bool
  deriving DecidableEq, Repr

/-! ### The head-host endpoint (chapter 19) -/

/-- A cached translation: the untranslated 4 KiB page and its permissions (R487). -/
structure Translation where
  page : Nat
  read : Bool
  write : Bool
  deriving DecidableEq, Repr

/-- An MSI-X table entry (R485). -/
structure MsixEntry where
  addr : Word64
  data : Word32
  masked : Bool
  deriving DecidableEq, Repr

/-- An MSI-X entry after reset: masked, as PCIe gives it (log entry 6). -/
def MsixEntry.reset : MsixEntry := { addr := 0, data := 0, masked := true }

/-- One control ring: commands fetched and not completed, indexes and phase (R491, R494). -/
structure Ring where
  fetched : List (List Byte)
  /-- The first fetched command is in execution and completes later. -/
  busy : Bool
  subHead : Nat
  tail : Nat
  cplTail : Nat
  cplHead : Nat
  phase : Bool
  /-- ENABLE was written 0 and fetched commands are still to complete. -/
  stopping : Bool
  /-- A doorbell held while no supervisor runs (R494). -/
  heldTail : Option Nat
  deriving DecidableEq, Repr

/-- A ring out of service. -/
def Ring.reset : Ring :=
  { fetched := [], busy := false, subHead := 0, tail := 0, cplTail := 0, cplHead := 0, phase := true, stopping := false,
    heldTail := none }

/-- The endpoint (R480 to R495). -/
structure Endpoint where
  linkUp : Bool
  speed : Nat
  width : Nat
  memEnable : Bool
  busMaster : Bool
  atsEnable : Bool
  /-- The function is in D3hot and answers configuration only (R480). -/
  d3hot : Bool
  bars : Sparse Word32
  msix : Sparse MsixEntry
  msixMask : Bool
  msixPending : Sparse Bool
  atc : List Translation
  /-- Pages whose Translation Request is out (R487). -/
  atsWaiting : List Nat
  /-- Pages whose translation failed for the access that waits (R487). -/
  atsFailed : List Nat
  /-- Ranges of Invalidate Requests not yet completed: first page and pages (R488). -/
  invals : List (Nat × Nat)
  rings : Sparse Ring
  /-- Health ring bus address (0 none) and next slot (R492). -/
  healthRing : Nat
  healthSlot : Nat
  deriving DecidableEq, Repr

/-! ### Key slots and cipher contexts (chapters 08, 09) -/

/-- The states of a cipher key slot, in code order (R245). -/
inductive SlotState where
  | empty
  | loaded
  | exhausted
  | readOnly
  deriving DecidableEq, Repr

/-- A cipher key slot (R245). -/
structure CSlot where
  /-- Half A and half B, 16 or 32 bytes each; half B is empty when the slot has none. -/
  halfA : List Byte
  halfB : List Byte
  state : SlotState
  use : Nat
  limit : Nat
  deriving DecidableEq, Repr

/-- An EMPTY slot. -/
def CSlot.empty : CSlot := { halfA := [], halfB := [], state := .empty, use := 0, limit := 0 }

/-- A context of a cipher unit: the key copy, the counter block and GHASH of the command in it (R247, R249). The next
block is the command's `index`. -/
structure CipherCtx where
  halfA : List Byte
  halfB : List Byte
  counter : List Byte
  /-- Blocks completed since the command last resumed (R249). -/
  sinceResume : Nat
  resumed : Bool
  deriving DecidableEq, Repr

/-- A free context. -/
def CipherCtx.free : CipherCtx := { halfA := [], halfB := [], counter := [], sinceResume := 0, resumed := false }

/-- A block that one digest unit found to differ from its digest: where the block and the digest lie, and the key (R216). -/
structure Mismatch where
  unit : Nat
  src : Nat
  expect : Nat
  slot : Nat
  deriving DecidableEq, Repr

/-! ### Quires (chapter 11) -/

/-! ### Accession (chapter 05) -/

/-- What the programs keep of an entry of this head beside its header in memory: its part of the ring (R115, R116). -/
structure RingEntry where
  no : Nat
  /-- First data slot, slots of data, and slots skipped before it at the end of the data area. -/
  slot : Nat
  slots : Nat
  skipped : Nat
  /-- Connection and command ID of the write it belongs to. -/
  cmd : Option (Nat × Nat)
  /-- A NO_DATA entry deallocates its range (R368). -/
  unmap : Bool
  /-- Bytes of data received so far (R119). -/
  received : Nat
  /-- Flash bytes reserved for it (R117). -/
  reserved : Nat
  /-- The cycle whose record carries its freed notice, once that notice is queued (R144). -/
  freedIn : Option Nat
  /-- Freed: its slots return when every earlier entry has been freed (R116). -/
  freed : Bool
  deriving DecidableEq, Repr

/-- A closed ledger cycle of this head, or a cycle of the partner's that this head has applied (R126, R128). -/
structure CycleRec where
  cycle : Nat
  /-- ENTRY_NO, HCHK and NBLK of each entry. -/
  entries : List (Nat × Nat × Nat)
  freed : List Nat
  items : List (List Byte)
  check : Nat
  batch : Nat
  sentAt : Word64
  resentAt : Word64
  confirmed : Bool
  deriving DecidableEq, Repr

/-- The open journal segment, or the mirror of the partner's: its entry, the bytes in use and its highest cycle (R329). -/
structure Segment where
  no : Nat
  used : Nat
  top : Nat
  deriving DecidableEq, Repr

/-- A folio on its way to a row: encrypted, or still plain while its domain's key is spent (R140, R141). -/
structure Folio where
  firstCid : Nat
  blocks : Nat
  position : Nat
  profile : Nat
  domain : Nat
  keyGen : Nat
  chainPrev : Nat
  revision : Nat
  /-- The coded folio, encrypted unless it is held for KEY_SPENT. -/
  bytes : List Byte
  digests : List (List Byte)
  /-- The quire it is relocated or repaired from; none for a new folio. -/
  moveFrom : Option Nat
  /-- It repairs a LOST folio (R319). -/
  repair : Bool
  /-- PURPOSE of the quires it may go to. -/
  purpose : Nat
  deriving DecidableEq, Repr

/-- The open row of a quire: when it opened, and its folios in order (R142). -/
structure OpenRow where
  quire : Nat
  since : Word64
  folios : List Folio
  deriving DecidableEq, Repr

/-- An entry whose placement waits for rows to become durable (R144). -/
structure Staged where
  no : Nat
  nsid : Nat
  domain : Nat
  /-- `openCycle` when the dedup decisions were made (R227). -/
  decided : Nat
  /-- What each of its blocks is to be mapped to, by logical block. -/
  blocks : List (Nat × Mapped)
  /-- CONTENT items and their digest items of folios already durable. -/
  contents : List (List Byte)
  /-- Content IDs it allocated. -/
  allocated : List Nat
  /-- FIRST_CIDs of its own folios not yet durable. -/
  waits : List Nat
  /-- PENDING content IDs of other entries it depends on (R226). -/
  depends : List Nat
  deriving DecidableEq, Repr

/-- A deferred error (R149, R381). -/
structure Deferred where
  seq : Nat
  nsid : Nat
  first : Nat
  last : Nat
  no : Nat
  cycle : Nat
  head : Nat
  deriving DecidableEq, Repr

/-- An answer owed once a cycle is durable: a capsule with dword 0, or a control-ring completion with its result (R328). -/
inductive Answer where
  | capsule (conn cid dword0 : Nat)
  | ring (r result : Nat)
  /-- Control-ring completion that carries the view number of the snapshot of the namespace. -/
  | snapshot (r nsid : Nat)
  deriving DecidableEq, Repr

/-- The landing, ledger and placement programs (chapter 05). -/
structure Accession where
  /-- The head is in service: cycles open and close. -/
  running : Bool
  nextEntry : Nat
  /-- Entries of this head in order of allocation whose slots have not returned to the ring. -/
  ring : List RingEntry
  /-- The data slot after the last allocated one. -/
  ringAt : Nat
  reserved : Nat
  /-- Write commands held for space (R118). -/
  held : List (Nat × Nat)
  openCycle : Nat
  openedAt : Word64
  openEntries : List (Nat × Nat × Nat)
  openFreed : List Nat
  /-- Closed cycles of this head not yet applied, and the partner's, oldest first. -/
  own : List CycleRec
  partner : List CycleRec
  /-- Highest cycle of the partner's applied, and the CHECK of every one (R128). -/
  last : Nat
  checks : Sparse Nat
  /-- Highest cycle of a record of the partner that has been received, applied or refused (R125). -/
  received : Nat
  /-- CONFIRMED_THROUGH of the partner's latest record: the highest of this head's cycles that it has applied (R126, R129). -/
  heldBy : Nat
  /-- Repeated records whose CHECK differs from the one applied, as reported to the health governor (R128). -/
  differing : Nat
  /-- Highest ENTRY_NO in the entry and freed lists of applied records (R115). -/
  entrySeen : Nat
  /-- Entries freed while older ones remain: number, namespace, first block and blocks (R122). -/
  left : List (Nat × Nat × Nat × Nat)
  /-- Acknowledgements are released through this cycle (R132). -/
  released : Nat
  /-- Catalogue items are applied through this cycle (R230). -/
  applied : Nat
  /-- Journal bytes applied since the last checkpoint cycle (R337). -/
  journalBytes : Nat
  /-- Highest content ID batch this head has claimed, the one it allocates from, and the next ID in it (R139). -/
  batchClaimed : Nat
  nextCid : Nat
  /-- A core of the placement role has been fenced: placement starts over with every entry not yet freed (R64). -/
  restart : Bool
  /-- Highest batch in a confirmed record of either head, and of this head (R139). -/
  batchConfirmed : Nat
  ownBatch : Nat
  segment : Option Segment
  segments : List Segment
  mirrorSegment : Option Segment
  /-- Open rows, one for each open quire. -/
  rows : List OpenRow
  staged : List Staged
  /-- Folios held for KEY_SPENT (R141). -/
  spent : List Folio
  /-- Encrypted folios that wait for an open quire. -/
  waiting : List Folio
  /-- The entry whose placement waits for tier-2 reads, and since when (R224). -/
  tier2Wait : Option (Nat × Word64)
  /-- Deferred errors of the pair, oldest first, and how many there have been (R381). -/
  deferred : List Deferred
  deferredTotal : Nat
  answers : List (Nat × Answer)
  /-- Blocks whose dedup statistics of R234 count, by counter. -/
  stats : List Nat
  /-- LOOKUPS at this start (R235). -/
  lookupsBefore : Nat
  deriving DecidableEq, Repr

/-- No service. -/
def Accession.idle : Accession :=
  { running := false, nextEntry := 0, ring := [], ringAt := 0, reserved := 0, held := [], openCycle := 0, openedAt := 0,
    openEntries := [], openFreed := [], own := [], partner := [], last := 0, checks := [], received := 0, heldBy := 0, differing := 0, entrySeen := 0,
    left := [], released := 0, applied := 0,
    journalBytes := 0, batchClaimed := 0, nextCid := 0, restart := false, batchConfirmed := 0, ownBatch := 0, segment := Option.none, segments := [],
    mirrorSegment := Option.none, rows := [], staged := [], spent := [], waiting := [], tier2Wait := Option.none, deferred := [],
    deferredTotal := 0, answers := [], stats := [0, 0, 0, 0, 0, 0, 0, 0, 0, 0, 0, 0, 0, 0], lookupsBefore := 0 }

/-- No service, with the counts since cold start kept. -/
def Accession.fresh (a : Accession) : Accession := { Accession.idle with stats := a.stats, lookupsBefore := a.lookupsBefore }

/-! ### Catalogue, content and views (chapters 08, 10, 18) -/

/-- An entry of the dedup index, in tier 0, 1 or 2 or, 3, on the tier-2 merge list (R222, R223). -/
structure DedupEntry where
  fp : List Byte
  cid : Nat
  domain : Nat
  tier : Nat
  pending : Bool
  dirty : Bool
  tomb : Bool
  lost : Bool
  cycle : Nat
  deriving DecidableEq, Repr

/-- The rebuild of one position in place (R315): its quire, the erase group that takes the strips, and the next row. -/
structure Rebuild where
  quire : Nat
  position : Nat
  carrier : Nat
  egroup : Nat
  row : Nat
  deriving DecidableEq, Repr

/-- Media management, checkpoints and retrieval (chapters 10 to 13). -/
structure Media where
  /-- Which domain and generation each data slot of the cipher units holds, and whether it is the domain's write slot: slot,
  domain, generation (R257, R258). -/
  slots : List (Nat × Nat × Nat × Bool)
  /-- Key generations recorded and not loaded yet: domain and generation (R257). -/
  gens : List (Nat × Nat)
  index : List DedupEntry
  /-- The image knows the version of tier 2, or has rebuilt it; and the level of the image that wrote tier 2 (R222). -/
  tier2Known : Bool
  tier2Level : Nat
  /-- Highest ENTRY_NO that has left the buffer index for a group, by namespace × 2^48 + group (R348). -/
  departed : Sparse Nat
  /-- Contexts saved for chains, by FIRST_CID of the folio they follow (R182, R356). -/
  contexts : Sparse CoderCtx
  /-- Quires under relocation, and why: PURPOSE of the target (R285). -/
  relocating : List (Nat × Nat)
  /-- Folding, weeding and wear leveling have started and not reached their stop (R283, R284, R290). -/
  folding : Bool
  weeding : Bool
  leveling : Bool
  /-- Highest quire number in a confirmed record (R300). -/
  quireHigh : Nat
  /-- Erase groups the media programs have marked grown-bad: carrier and erase group (R288). -/
  grownBad : List (Nat × Nat)
  conserveQuire : Nat
  conserveRow : Nat
  /-- Rows checked, rows with each finding of R322, and quires relocated by the pass. -/
  conserveStats : List Nat
  /-- Drain set and target of a plan (R323) are in the reshape state; a cancel is ordered. -/
  reshapeCancel : Bool
  /-- Checkpoints on the carriers that this head can read, newest first. -/
  checkpoints : List Checkpoint
  /-- A checkpoint of this service names an open dump reserve (R333). -/
  reserveReady : Bool
  /-- The checkpoint this head is writing: sequence and state at C (R338). -/
  writing : Option Checkpoint
  /-- Dumps on the carriers (R332). -/
  dumps : List DumpImage
  /-- MOVE items that did not apply (R273), and metadata faults counted (R232). -/
  movesIdle : Nat
  faults : Nat
  /-- Damage reports for the owner of a quire: quire and row (R359). -/
  reports : List (Nat × Nat)
  /-- A change of the hot threshold on its way: the cycle from which it applies, and the value (R291). -/
  hotNext : Option (Nat × Nat)
  /-- Rows that were abandoned in this service: quire and row (R299). -/
  abandoned : List (Nat × Nat)
  /-- Positions under rebuild: quire, position, carrier and erase group that take the strips, and the next row (R315, R317). -/
  rebuilds : List Rebuild
  /-- Erase groups given up before their rebuild was done, to be erased and returned: carrier and erase group (R317). -/
  givenUp : List (Nat × Nat)
  /-- Erase groups of which the conservation pass has found one strip unreadable: carrier and erase group (R322). -/
  readFails : List (Nat × Nat)
  deriving DecidableEq, Repr

/-- Nothing held. -/
def Media.empty : Media :=
  { slots := [], gens := [], index := [], tier2Known := true, tier2Level := 0, departed := [], contexts := [], relocating := [], folding := false, weeding := false, leveling := false, quireHigh := 0, grownBad := [],
    conserveQuire := 0, conserveRow := 0, conserveStats := [0, 0, 0, 0, 0, 0, 0, 0], reshapeCancel := false, checkpoints := [], reserveReady := false,
    writing := Option.none, dumps := [], movesIdle := 0, faults := 0, reports := [], hotNext := Option.none,
    abandoned := [], rebuilds := [], givenUp := [], readFails := [] }

/-- What flash holds of the media programs' state, and the counts since cold start. -/
def Media.fresh (m : Media) : Media :=
  { Media.empty with index := m.index.filter (fun e => e.tier == 2), tier2Level := m.tier2Level, grownBad := m.grownBad, conserveStats := m.conserveStats,
                     checkpoints := m.checkpoints, dumps := m.dumps, movesIdle := m.movesIdle, faults := m.faults }

/-! ### Namespace service (chapter 14) -/

/-- A command in service on a connection. -/
structure NCmd where
  cid : Nat
  /-- The capsule's OPCODE, with the Fabrics type for opcode 7Fh. -/
  opcode : Nat
  nsid : Nat
  slba : Nat
  nblk : Nat
  /-- Ranges of a Dataset Management still to come: first block and blocks; a deallocation. -/
  ranges : List (Nat × Nat)
  unmap : Bool
  /-- Data that came in the capsule, and how many copies of it fail in a row (R121). -/
  capsule : List Byte
  fails : Nat
  /-- A write's next block to allocate, entries allocated and not decided, and the entry whose data is arriving. -/
  next : Nat
  entries : Nat
  landing : Option Nat
  /-- The cycle of its last entry to land, once every entry has landed. -/
  cycle : Option Nat
  /-- A failure already decided (R121): status. -/
  failed : Option Nat
  deriving DecidableEq, Repr

/-- A TCP connection and its queue (R367). -/
structure Conn where
  port : Nat
  /-- ICReq has been answered. -/
  ready : Bool
  hdgst : Bool
  ddgst : Bool
  maxR2t : Nat
  /-- Controller, queue ID and depth after Connect. -/
  ctrl : Option Nat
  qid : Nat
  depth : Nat
  /-- Ended, with writes still to be decided (R376). -/
  ended : Bool
  cmds : List NCmd
  deriving DecidableEq, Repr

/-- No connection. -/
def Conn.none : Conn :=
  { port := 0, ready := false, hdgst := false, ddgst := false, maxR2t := 0, ctrl := Option.none, qid := 0, depth := 0, ended := false,
    cmds := [] }

/-- A controller (R367). -/
structure Ctrl where
  nqn : List Byte
  /-- CC, and CSTS as the device last set it. -/
  cc : Nat
  ready : Bool
  shst : Nat
  /-- Command IDs of outstanding Asynchronous Event Requests, and the events waiting for one. -/
  aers : List Nat
  events : List Nat
  /-- Features 07h, 0Bh and 0Fh. -/
  queues : Nat
  aerConfig : Nat
  kato : Nat
  aliveAt : Word64
  /-- Namespaces with a deferred error pending (R382), the read position, and drops before it (R381). -/
  flagged : List Nat
  readPos : Nat
  dropped : Nat
  /-- A C4h event was posted and the page not read since. -/
  announced : Bool
  deriving DecidableEq, Repr

/-- Error information and the rest of the service (R361, R374). -/
structure Service where
  conns : Sparse Conn
  ctrls : List (Nat × Ctrl)
  /-- ANA change count (R374). -/
  anaChanges : Nat
  /-- The group of the head's own set is in Change until ANATT has passed since this time (R373). -/
  changeSince : Option Word64
  /-- A taken set whose RESTORE is not complete (R373). -/
  taking : Bool
  /-- Namespaces ordered and not yet created that belong to custody set B (log entry 23). -/
  groups : List Nat
  /-- Error log: newest first, controller, connection, command ID, status, LBA, NSID (R361). -/
  errors : List (Nat × Nat × Nat × Nat × Nat × Nat)
  /-- MTU in effect on a port since its link started, 0 for none (R383). -/
  mtus : Sparse Nat
  deriving DecidableEq, Repr

/-- No connections. -/
def Service.none : Service :=
  { conns := [], ctrls := [], anaChanges := 0, changeSince := Option.none, taking := false, groups := [], errors := [], mtus := [] }

/-! ### Carriers and their sequencers (chapter 15) -/

/-- An erase group of a carrier (R395, R397, R400). -/
structure EGroup where
  qlcErases : Nat
  slcErases : Nat
  /-- Write pointer: page groups programmed so far. -/
  wp : Nat
  slc : Bool
  retired : Bool
  erasePending : Bool
  /-- Page groups that cannot be corrected. -/
  failed : List Nat
  deriving DecidableEq, Repr

/-- An erase group never erased, in QLC mode. -/
def EGroup.fresh : EGroup :=
  { qlcErases := 0, slcErases := 0, wp := 0, slc := false, retired := false, erasePending := false, failed := [] }

/-- A command a carrier has fetched and not completed (R394, R399). -/
structure CCmd where
  port : Nat
  ring : Nat
  /-- The 64 bytes of the entry. -/
  bytes : List Byte
  /-- The ring's head index after the fetch (SUB_HEAD). -/
  subHead : Nat
  /-- The erase group's write pointer when the command was fetched (R399). -/
  wpAtFetch : Nat
  /-- Status, BYTES and INFO once the command has had its effect. -/
  outcome : Option (Nat × Nat × Nat)
  deriving DecidableEq, Repr

/-- One port of a carrier: its register block and rings (R391, R392). -/
structure CPort where
  enable : Bool
  ready : Bool
  fatal : Bool
  linkUp : Bool
  cplBase : Nat
  cplSize : Nat
  subBase : List Nat
  subSize : List Nat
  subTail : List Nat
  /-- Index of the next entry the carrier fetches from each ring. -/
  subHead : List Nat
  /-- Head of each ring as the sequencer last learned it from SUB_HEAD. -/
  headSeen : List Nat
  /-- The first slot of the completion ring not yet released by CPL_HEAD. -/
  cplHead : Nat
  cplTail : Nat
  phase : Bool
  /-- The ring of 1 to 3 fetched from last (R399). -/
  turn : Nat
  /-- Completion slots written and not yet released. -/
  cplHeld : Nat
  /-- An MSI is owed, and when the last was sent (R392). -/
  msiOwed : Bool
  lastMsi : Word64
  /-- The sequencer's own place in the completion ring, and the phase it expects there. -/
  readAt : Nat
  readPhase : Bool
  deriving DecidableEq, Repr

/-- A port after reset. -/
def CPort.reset : CPort :=
  { enable := false, ready := false, fatal := false, linkUp := false, cplBase := 0, cplSize := 0,
    subBase := [0, 0, 0, 0], subSize := [0, 0, 0, 0], subTail := [0, 0, 0, 0], subHead := [0, 0, 0, 0],
    headSeen := [0, 0, 0, 0], cplHead := 0, cplTail := 0, phase := true, turn := 3, cplHeld := 0,
    msiOwed := false, lastMsi := 0, readAt := 0, readPhase := true }

/-- A carrier in a slot: what it stores, its two ports, and its standing on this head. -/
structure Carrier where
  ident : CarrierIdent
  /-- Label: ARRAY_ID (zeros when blank) and CARRIER_NO (0xFFFF when blank). -/
  arrayId : List Byte
  number : Nat
  /-- 0 SPLIT, 1 PORT0, 2 PORT1 (R401). -/
  owner : Nat
  epoch : Nat
  groups : Sparse EGroup
  /-- Contents, by erase group × 2^32 + byte offset. -/
  data : Sparse Byte
  spare : Nat
  uncorrReads : Nat
  progFails : Nat
  eraseFails : Nat
  powerLosses : Nat
  port0 : CPort
  port1 : CPort
  /-- Commands fetched and not completed, in the order the carrier fetched them, of both ports. -/
  fetched : List CCmd
  /-- In service on this head (R388). -/
  inService : Bool
  /-- `MED_CAR_STATUS.WIDTH` and the sequencer that serves the slot (R411). -/
  width : Nat
  sequencer : Nat
  /-- When the last CARRIER_FAULT finding occurred (R409). -/
  faultAt : Option Word64
  deriving DecidableEq, Repr

/-- An empty slot. -/
def Carrier.none : Carrier :=
  { ident := CarrierIdent.blank, arrayId := [], number := 0xFFFF, owner := 0, epoch := 0, groups := [], data := [],
    spare := 0, uncorrReads := 0, progFails := 0, eraseFails := 0, powerLosses := 0, port0 := CPort.reset,
    port1 := CPort.reset, fetched := [], inService := false, width := 0, sequencer := 0, faultAt := Option.none }

/-- An erase or retire request to the other head, or one received and waiting (R404). -/
structure EraseReq where
  quire : Nat
  carrier : Nat
  egroup : Nat
  retire : Bool
  sentAt : Word64
  deriving DecidableEq, Repr

/-! ### The Avenfy transport (chapter 16) -/

/-- A packet received: its header fields and payload, the path it came by, and its Congestion Experienced mark (R414, R434). -/
structure RxPkt where
  op : Nat
  last : Bool
  relaxed : Bool
  fin : Bool
  psn : Nat
  key : Nat
  offset : Nat
  conn : Nat
  aux : Nat
  data : List Byte
  path : Nat
  marked : Bool
  deriving DecidableEq, Repr

/-- A work request that a queue pair has taken from its ring (R437, R438). -/
structure WorkReq where
  seq : Nat
  block : Vec
  /-- First PSN and how many it occupies. -/
  first : Nat
  count : Nat
  /-- The payload fetched. -/
  data : List Byte
  /-- Status so far, 0 OK, and bytes placed. -/
  status : Nat
  moved : Nat
  /-- Ended without its PSNs: its record may be written. -/
  ended : Bool
  deriving DecidableEq, Repr

/-- The states of a PSN at its sender (R433). -/
inductive PsnState where
  | unsent
  | sent
  | sacked
  | answered
  deriving DecidableEq, Repr

/-- A PSN of the send sequence: its state and when it was last sent again. -/
structure SendPsn where
  psn : Nat
  state : PsnState
  again : Option Word64
  deriving DecidableEq, Repr

/-- A queue pair (R429 to R434). -/
structure QPair where
  /-- 0 IDLE, 1 READY, 2 DRAINING, 3 ERROR. -/
  state : Nat
  /-- The 128 bytes of setup as READY read them. -/
  setup : List Byte
  /-- Requests taken so far since READY, ring index of the last doorbell, and requests not completed. -/
  taken : Nat
  tail : Nat
  reqs : List WorkReq
  /-- PSNs not answered, oldest first, and the next PSN of the send sequence. -/
  psns : List SendPsn
  nextPsn : Nat
  /-- Repeat timer: when it started, RTO, retries and the retry limit. -/
  timer : Option Word64
  rto : Nat
  retries : Nat
  limit : Nat
  /-- Rate in Mb/s, and when it was last cut or raised. -/
  rate : Nat
  rateAt : Word64
  /-- Receive sequence: next expected PSN; PSNs above it answered, true where placed; packets held (R421). -/
  expect : Nat
  got : List (Nat × Bool)
  heldPkts : List RxPkt
  /-- A PSN since the last write-last was refused. -/
  refusedSince : Bool
  /-- Placements since the last ACK, when the first of them was made, and when the last ACK and CNP went out. -/
  unacked : Nat
  ackDue : Option Word64
  ackAt : Option Word64
  cnpAt : Option Word64
  /-- Context loads that failed in a row (R436). -/
  loadFails : Nat
  deriving DecidableEq, Repr

/-- A queue pair never made READY. -/
def QPair.idle : QPair :=
  { state := 0, setup := [], taken := 0, tail := 0, reqs := [], psns := [], nextPsn := 0, timer := Option.none, rto := 0, retries := 0,
    limit := 16, rate := 0, rateAt := 0, expect := 0, got := [], heldPkts := [], refusedSince := false, unacked := 0, ackDue := Option.none,
    ackAt := Option.none, cnpAt := Option.none, loadFails := 0 }

/-- A context on its way to the chip: the packets that wait for it, and the context whose write-back it waits for (R435, R436). -/
structure CtxLoad where
  qp : Nat
  victim : Option Nat
  packets : List RxPkt
  /-- The load is for a READY command. -/
  ready : Bool
  deriving DecidableEq, Repr

/-- The transport: region entries made current, queue pairs, and the context cache. -/
structure Atp where
  /-- The 64 bytes of each current region table entry, by index (R425). -/
  regions : Sparse (List Byte)
  /-- The supervisor has zeroed the table since the last start. -/
  zeroed : Bool
  qps : Sparse QPair
  /-- Queue pairs on chip, least recently used first. -/
  cached : List Nat
  loads : List CtxLoad
  deriving DecidableEq, Repr

/-- The transport after a start. -/
def Atp.cold : Atp := { regions := [], zeroed := false, qps := [], cached := [], loads := [] }

/-! ### Snapshots, streams and the stack (chapter 18) -/

/-- An order for a snapshot that waits until it may be queued (R469): namespace, N, label, and who is told. -/
structure SnapOrder where
  nsid : Nat
  n : Nat
  label : List Byte
  kind : Nat
  /-- The control ring that waits for the view number. -/
  reply : Option Nat
  /-- The peer to ship the view to once it exists (R473). -/
  peer : Option Nat
  /-- The stream whose END ordered it: peer, STREAM and SEQ (R475). -/
  ack : Option (Nat × Nat × Nat)
  /-- Its item is queued. -/
  queued : Bool
  deriving DecidableEq, Repr

/-- A shipment this head sends (R473, R474). -/
structure Shipment where
  stream : Nat
  nsid : Nat
  base : Nat
  view : Nat
  peer : Nat
  /-- SEQ of the END message. -/
  endSeq : Nat
  /-- The control ring that waits for the peer's view number. -/
  reply : Option Nat
  /-- Delete the base once acknowledged (journal shipping). -/
  dropBase : Bool
  deriving DecidableEq, Repr

/-- A seal in progress (R471, R472): the view, its manifest, the checkpoint quire that takes the manifest's pages once one is opened, and the
control ring that waits. `gone`: custody has moved, and only the quire is left to close. -/
structure SealJob where
  view : Nat
  manifest : List Byte
  quire : Option Nat
  ring : Option Nat
  gone : Bool
  deriving DecidableEq, Repr

/-- A stream this head receives (R475). -/
structure Inbound where
  peer : Nat
  stream : Nat
  nsid : Nat
  /-- SEQ of the last message taken, groups taken, and the coder context of its chain. -/
  seq : Nat
  groups : Nat
  chain : CoderCtx
  profile : Nat
  domain : Nat
  size : Nat
  label : List Byte
  /-- Bytes of the seal manifest received. -/
  manifest : List Byte
  /-- END has been taken; the snapshot follows when its entries are confirmed. -/
  ended : Bool
  deriving DecidableEq, Repr

/-- Views, streams and stack (chapter 18). -/
structure Snap where
  orders : List SnapOrder
  shipments : List Shipment
  /-- Shipments to be started again at BEGIN under new STREAM numbers, and those the partner runs, as its supervisor tells (R476). -/
  restarts : List Shipment
  partnerShips : List Shipment
  nextStream : Nat
  inbound : List Inbound
  /-- Pairs of own view and peer view, by peer (R475). -/
  peerViews : List (Nat × Nat × Nat)
  /-- Seals in progress, and the views that the partner seals, as its supervisor tells (R472). -/
  seals : List SealJob
  partnerSeals : List Nat
  /-- Seal manifests held: view and bytes (R472, R475). -/
  manifests : List (Nat × List Byte)
  /-- When journal shipping last ran for a namespace (R473). -/
  shippedAt : Sparse Word64
  /-- Stack snapshot orders: edge and namespace (R478). -/
  stackOrders : List (Nat × Nat)
  registrar : Bool
  lastEdge : Word64
  lastPulse : Word64
  members : Nat
  /-- Namespaces that streams write (R475). -/
  replicas : List Nat
  /-- Repair requests out: STREAM, content ID and peer; blocks that verified, by content ID; and peers that failed for a content ID
  (R319, R320). -/
  repairs : List (Nat × Nat × Nat)
  repairBlocks : Sparse (List Byte)
  repairFailed : List (Nat × Nat)
  /-- FIRST_CIDs of LOST folios that no peer could repair (R319). -/
  unrepaired : List Nat
  deriving DecidableEq, Repr

/-- No views in motion. -/
def Snap.none : Snap :=
  { orders := [], shipments := [], restarts := [], partnerShips := [], nextStream := 1, inbound := [], peerViews := [], seals := [], partnerSeals := [], manifests := [], shippedAt := [],
    stackOrders := [], registrar := false, lastEdge := 0, lastPulse := 0, members := 0, replicas := [], repairs := [],
    repairBlocks := [], repairFailed := [], unrepaired := [] }

/-- The UDP datagram that carries an Avenfy packet over Ethernet: its IP version, VLAN, addresses and ports, its DSCP, whether it is marked
ECN-capable, and its UDP checksum (R415). -/
structure Datagram where
  ipv6 : Bool
  vlan : Nat
  source : List Byte
  dest : List Byte
  sourcePort : Nat
  destPort : Nat
  dscp : Nat
  ect : Bool
  checksum : Nat
  deriving DecidableEq, Repr

/-- What the block sends on its links, in the order sent (the model's record of its outputs). -/
inductive Msg where
  /-- A twin frame: its CHANNEL and payload (R442). -/
  | twin (channel : Nat) (payload : List Byte)
  /-- An MSI-X message (R486). -/
  | msix (addr : Word64) (data : Word32)
  /-- A Translation Request for a 4 KiB page (R487). -/
  | atsRequest (page : Nat)
  /-- An Invalidate Completion (R488). -/
  | atsInvalidateDone (page pages : Nat)
  /-- An Avenfy transfer of the programs to the partner's mirror region at an offset; `last` for a write-last (R119, R126). -/
  | mirror (offset : Nat) (bytes : List Byte) (last : Bool)
  /-- An answer written to the partner's own ledger area, at an offset of its write-buffer region (R127). -/
  | ledgerAnswer (offset : Nat) (bytes : List Byte)
  /-- An Avenfy packet on a front-end path of a queue pair (R414, R415): PATH, its datagram and its bytes. -/
  | packet (path : Nat) (datagram : Datagram) (bytes : List Byte)
  /-- A PDU on an NVMe/TCP connection: PDU type and its bytes (R366). -/
  | pdu (conn type : Nat) (bytes : List Byte)
  /-- The device closes a TCP connection. -/
  | tcpClose (conn : Nat)
  /-- A stream message to a replication peer (R474). -/
  | stream (peer : Nat) (bytes : List Byte)
  /-- A REPEAT for a message of a peer's stream: STREAM and SEQ (R475). -/
  | streamRepeat (peer stream seq : Nat)
  deriving DecidableEq, Repr

/-- Why the block would stop. Every command of the spec has an effect here, so nothing raises this fault: it is there because an outcome
needs a type of faults (log entry 3). Safe. -/
inductive Fault where
  | illFormed
  deriving DecidableEq, Repr

/-- Why a command is turned away. -/
inductive Refusal where
  /-- The command has no meaning. Every arm of `exec` has one, so nothing answers this. Safe. -/
  | notModelled (mnemonic : String)
  deriving DecidableEq, Repr


/-- The state of the block. -/
structure State where
  /-- The model's own count of open values taken so far; `Config.freeWord` and its like are applied to it (log entry 1). -/
  free : Nat
  /-- `SYS_ELAPSED` (R3, R515). -/
  elapsed : Word64
  /-- The register image: words that are plain storage, by BAR0 address, 0 where unlisted (R10). -/
  regs : Sparse Word32
  /-- Read shadow of each requester, by its source code (R8). -/
  shadows : Sparse Shadow
  /-- Write holding register of each requester (R8). -/
  holds : Sparse Shadow
  /-- What the last register or BAR4 read of each requester outside the engines returned. -/
  replies : Sparse Reply
  /-- Every byte of memory, by global address; 0 where unlisted (log entry 4). -/
  mem : Sparse Byte
  /-- 8-byte words that hold an uncorrectable ECC error, by address / 8 (R39). -/
  damaged : Sparse Bool
  /-- 8-byte words that hold a single-bit error, which every access corrects, by address / 8 (R39). -/
  weak : Sparse Bool
  /-- The programmable engines, by number 0-123 (R12); an unlisted one is as `Core.cold`. -/
  cores : Sparse Core
  /-- The role table the supervisor keeps in the stream pool: core and role (R62 to R64; log entry 148). -/
  roles : List (Nat × Role)
  /-- The engine units, by 4096 × class + instance (R81); an unlisted one is idle. -/
  units : Sparse EngUnit
  /-- The coding contexts, by 4 x unit key + queue; reset where unlisted (R155). -/
  coderCtx : Sparse CoderCtx
  /-- When each coder lane's last RAW_FORCED records were written, newest first (R178). -/
  rawForced : Sparse (List Word64)
  /-- The digest key table, slots 0-4159; an unlisted slot is empty (R206). -/
  digestKeys : Sparse (List Byte)
  /-- VERIFY comparisons that reported 0, 1 and no second unit has repeated yet (R216). -/
  mismatches : List Mismatch
  /-- When each digest unit's last contradicted mismatches were counted, newest first (R216). -/
  mismatchTimes : Sparse (List Word64)
  /-- The cipher key slots 0-4095; an unlisted slot is EMPTY (R245). -/
  cipherSlots : Sparse CSlot
  /-- Cipher contexts: 2 x unit for the command in service, + 1 for the suspended one (R249). -/
  cipherCtx : Sparse CipherCtx
  /-- The carriers, by slot (R387); none in an unlisted slot. -/
  carriers : Sparse Carrier
  /-- Erase requests sent to the other head and not answered (R404). -/
  eraseOut : List EraseReq
  /-- Erase requests of the other head that wait (R404). -/
  eraseIn : List EraseReq
  /-- The quire table, by quire number (R302). -/
  quires : Sparse Quire
  /-- Catalogue deltas queued for the open cycle, 32 bytes each, in order (R126, R272). -/
  deltas : List (List Byte)
  /-- Landing, ledger and placement (chapter 05). -/
  acc : Accession
  /-- Catalogue, content and views (chapters 10, 18). -/
  cat : Catalogue
  /-- Media management, checkpoints and retrieval (chapters 08, 10 to 13). -/
  med : Media
  /-- The Avenfy transport (chapter 16). -/
  atp : Atp
  /-- Snapshot orders, streams and stack (chapter 18). -/
  snp : Snap
  /-- Connections and controllers (chapter 14). -/
  svc : Service
  /-- Modes and start-up. -/
  hlt : Hlt
  /-- Supplies, clocks and temperature. -/
  pwr : Power
  /-- Twin link and custody. -/
  twn : Twin
  /-- Keeper island and update. -/
  kpr : Keeper
  /-- Package pins. -/
  pin : Pins
  /-- Head-host endpoint. -/
  ep : Endpoint
  /-- Settings given since the last start, by ID and index, as value + 1; unlisted: the default (R493). -/
  settings : Sparse Nat
  /-- Changes of settings since the last start, oldest first: the key, what it held before, and when it changed (the settings that apply to what begins after the change). -/
  settingLog : List (Nat × Nat × Word64)
  /-- What the block has sent on its links, oldest first. -/
  sent : List Msg
  /-- The commands that are waiting, first in, first out. -/
  pending : List Instr
  deriving DecidableEq, Repr

/-- The engines after a cold start: the keeper cores run from ROM; the others run nothing until an image is verified (R497, R499;
log entry 10). -/
def coresCold : Sparse Core := (List.range 4).map fun i => (96 + i, { Core.cold with run := .running })

/-- No unit fenced: bytes 48 to 111 of a report. -/
def zeros64 : List Byte := List.replicate 64 0

/-- Modes and start-up as the Reset columns give them: no image verified and no fuse check passed yet (R517, R518, R520). -/
def Hlt.cold : Hlt :=
  { mode := .safe, form := .none, restored := false, joined := false, drained := false, step := 0, error := 0,
    cmdBusy := false, cmdOp := 0, cmdResult := 0, safeCause := 0, imageOk := false, slot := 0, coldStart := true,
    warmResets := 0, fuseOk := false, trimWritten := false, head := false, safeAt := 0, kept := false, trained := 0,
    trainFailed := 0, training := 0 }

/-- Supplies and clocks as the Reset columns of R518 give them: no supply judged good yet, no PLL locked; the crystal runs (log
entry 7). -/
def Power.cold : Power :=
  { vinMv := 0, vholdMv := 0, vinGood := false, vinCut := false, holdupReady := false, island := true,
    loss := false, inputPower := 0, phase := .none, lossAt := 0, dumpSeq := 0, clkHost := false, clkMed := false,
    clkCxl := false, clkEth := false, crystal := true, clkMedSince := 0, clkCxlSince := 0, throttled := false, slow := 0, throttledAt := 0, coolSince := 0, temp := 25 }

/-- No partner seen. -/
def Peer.none : Peer :=
  { seen := false, head := true, mode := 0, setA := false, setB := false, restored := false, joined := false,
    level := 0, cleanRun := 0, openCycle := 0, applied := 0, uncleanRun := 0, fitRun := 0 }

/-- The twin link down, no custody (R444, R464). -/
def Twin.cold : Twin :=
  { linkUp := false, lanes := 0, retraining := false, held := [], lastGood := 0, lastHeartbeat := 0, missedAt := 0,
    sentAt := 0, setA := false, setB := false, drive := false, peerLow := false, peerSince := 0,
    surrendered := false, peerHolds := false, aliveAt := 0, releasedAt := none, govCause := 0,
    govCount := 0, govTime := 0, takeoverCycle := 0, cleanRun := 0, peer := Peer.none, strapConflict := false,
    phase := .idle, seedMark := 0, cycleJ := 0, cycleF := 0, cycleH := 0, awaiting := none, awaitingAt := 0,
    answered := none, unclean := 0, katRun := 0, katFailed := 0, reportSeq := 0, reportAt := 0, lastFences := zeros64, seedCheckpoint := false, reportsHeld := [] }

/-- An erased slot. -/
def Slot.blank : Slot := { image := [], result := 0 }

/-- No owner, no alarm, no image running; the fuses read as zeros (log entry 8). -/
def Keeper.cold : Keeper :=
  { seed := [], certificate := [], tampered := false, svnFloor := 0, revoked := 0, os := [], km := [],
    arrayId := none, keyCheck := [], owner := .none, shares := [], mbBusy := false, mbDone := false, mbResult := 0,
    mbRespLen := 0, mbOp := 0, mbLen := 0, mbPending := none, alarms := [], lastAlarm := 0, alarmCount := 0,
    alarmClearAt := 0, heldAlarms := [], slotA := Slot.blank, slotB := Slot.blank, logA := [], logB := [],
    trial := false, confirmed := false, fellBack := false, trialStart := 0, scheduled := none, handoverSent := false,
    fallbackAt := none, updBusy := false, updOp := 0, updSlot := 0, updResult := 0, updPending := none, updAt := 0, guards := 0, level := 0, committed := 0, peerConfirmed := 0, sectionReport := none }

/-- Inputs inactive, the media and CXL resets driven low (R567), IDCODE selected (log entry 9). -/
def Pins.cold : Pins :=
  { perstLow := false, warmLow := false, medPerst := 0xFFF, cxlPerst := 0xF, medModeSet := 0, cxlModeSet := false,
    jtag := .idcode, tdo := 0, cells := [] }

/-- The endpoint after reset (R481, R495). -/
def Endpoint.cold : Endpoint :=
  { linkUp := false, speed := 0, width := 0, memEnable := false, busMaster := false, atsEnable := false, d3hot := false, bars := [],
    msix := [], msixMask := false, msixPending := [], atc := [], atsWaiting := [], atsFailed := [], invals := [],
    rings := [], healthRing := 0, healthSlot := 0 }


/-- The block right after a cold start (R10, R496, R497): every field at the value the spec gives for reset, and where
it gives none at the value the assumption log names. -/
def State.reset : State :=
  { free := 0,
    elapsed := 0,
    regs := regsCold,
    shadows := [],
    holds := [],
    replies := [],
    mem := [],
    damaged := [],
    weak := [],
    cores := coresCold,
    roles := [],
    units := [],
    coderCtx := [],
    rawForced := [],
    digestKeys := [],
    mismatches := [],
    mismatchTimes := [],
    cipherSlots := [],
    cipherCtx := [],
    carriers := [],
    eraseOut := [],
    eraseIn := [],
    quires := [],
    deltas := [],
    acc := Accession.idle,
    cat := Catalogue.empty,
    med := Media.empty,
    atp := Atp.cold,
    snp := Snap.none,
    svc := Service.none,
    hlt := Hlt.cold,
    pwr := Power.cold,
    twn := Twin.cold,
    kpr := Keeper.cold,
    pin := Pins.cold,
    ep := Endpoint.cold,
    settings := [],
    settingLog := [],
    sent := [],
    pending := [] }

end Sys2Proof.Machine
end

