-- ==== Sys2Proof/Machine/Ops.lean ====
section
/-! DEFINITION. The named operations every meaning is built from: registers of the image, memory and the global address
map, bus-error capture, MSI-X, open values and the programmable engines' state. -/

namespace Sys2Proof.Machine

/-! ### Open values -/

/-- The next open word; each use takes a fresh one. -/
def State.freeWord (s : State) : Word64 := Config.freeWord s.free
/-- Count one open value as taken. -/
def State.takeFree (s : State) : State := { s with free := s.free + 1 }
/-- Count `n` open values as taken. -/
def State.takeFrees (n : Nat) (s : State) : State := { s with free := s.free + n }

/-- A span of `SYS_ELAPSED` in ns has passed. -/
def State.passed (s : State) (since : Word64) (ns : Nat) : Bool := decide (since.toNat + ns ≤ s.elapsed.toNat)

/-! ### The register image -/

/-- The word at BAR0 address `a`. -/
def State.reg (s : State) (a : Nat) : Nat := (Sparse.get 0 a s.regs).toNat
/-- Set the word at BAR0 address `a`. -/
def State.setReg (a v : Nat) (s : State) : State :=
  { s with regs := Sparse.set 0 a (BitVec.ofNat 32 v) s.regs }
/-- The 64-bit register at BAR0 address `a`, low half first (R8). -/
def State.reg64 (s : State) (a : Nat) : Nat := s.reg a + 2 ^ 32 * s.reg (a + 4)
/-- Set the 64-bit register at BAR0 address `a`. -/
def State.setReg64 (a v : Nat) (s : State) : State := (s.setReg a (v % 2 ^ 32)).setReg (a + 4) (v / 2 ^ 32)
/-- Add `n` to a 32-bit counter that saturates. -/
def State.bump (a n : Nat) (s : State) : State := s.setReg a (satAt m32 (s.reg a + n))
/-- Add `n` to a 64-bit counter. -/
def State.bump64 (a n : Nat) (s : State) : State := s.setReg64 a (s.reg64 a + n)
/-- Bit `i` of the word at `a`. -/
def State.regBit (s : State) (a i : Nat) : Bool := s.reg a / 2 ^ i % 2 == 1
/-- Set bit `i` of the word at `a`. -/
def State.setRegBit (a i : Nat) (s : State) : State := s.setReg a (s.reg a ||| 2 ^ i)
/-- Clear bit `i` of the word at `a`. -/
def State.clearRegBit (a i : Nat) (s : State) : State := s.setReg a (s.reg a &&& (m32 ^^^ 2 ^ i))

/-! ### Messages and MSI-X -/

/-- Send a message. -/
def State.emit (m : Msg) (s : State) : State := { s with sent := s.sent ++ [m] }

/-- A vector's entry of the MSI-X table. -/
def State.msixEntry (s : State) (v : Nat) : MsixEntry := Sparse.get MsixEntry.reset v s.ep.msix

/-- A vector is masked by its own bit or by the function mask (R486). -/
def State.vectorMasked (s : State) (v : Nat) : Bool := s.ep.msixMask || (s.msixEntry v).masked

/-- The source of a vector fires: the message is sent, or the pending bit is set while the vector is masked (R486). -/
def State.raiseVector (v : Nat) (s : State) : State :=
  if s.vectorMasked v then { s with ep := { s.ep with msixPending := Sparse.set false v true s.ep.msixPending } }
  else s.emit (.msix (s.msixEntry v).addr (s.msixEntry v).data)

/-! ### The programmable engines -/

/-- Engine `k`. -/
def State.core (s : State) (k : Nat) : Core := Sparse.get Core.cold k s.cores
/-- Replace engine `k`. -/
def State.setCore (k : Nat) (c : Core) (s : State) : State := { s with cores := Sparse.set Core.cold k c s.cores }
/-- Change engine `k`. -/
def State.modCore (k : Nat) (f : Core → Core) (s : State) : State := s.setCore k (f (s.core k))

/-- The kinds of programmable engine (R12, R87). -/
inductive EngineKind where
  | stream
  | keeper
  | packet
  | sequencer
  deriving DecidableEq, Repr

/-- The kind of engine `k`, in the coding of `NOC_ERR_STATUS.SOURCE` (R61). -/
def engineKind (k : Nat) : EngineKind :=
  if k < 0x60 then .stream else if k < 0x64 then .keeper else if k < 0x74 then .packet else .sequencer

/-- There are 124 programmable engines (R12). -/
def isEngine (k : Nat) : Bool := k < 124

/-- General register `d`; `g0` reads as zero (R33). -/
def Core.getG (c : Core) (d : BitVec 5) : Word64 := if d = 0 then 0 else Sparse.get 0 d.toNat c.g
/-- Write general register `d`; a write of `g0` is discarded (R33). -/
def Core.setG (d : BitVec 5) (v : Word64) (c : Core) : Core :=
  if d = 0 then c else { c with g := Sparse.set 0 d.toNat v c.g }
/-- Predicate register `d`; `p0` reads as all ones (R33). -/
def Core.getP (c : Core) (d : BitVec 3) : Word64 := if d = 0 then 0xFFFFFFFFFFFFFFFF else Sparse.get 0 d.toNat c.p
/-- Write predicate register `d`; a write of `p0` is discarded (R33). -/
def Core.setP (d : BitVec 3) (v : Word64) (c : Core) : Core :=
  if d = 0 then c else { c with p := Sparse.set 0 d.toNat v c.p }
/-- Vector register `d` (R32). -/
def Core.getV (c : Core) (d : BitVec 5) : Vec := Sparse.get 0 d.toNat c.v
/-- Write vector register `d`. -/
def Core.setV (d : BitVec 5) (v : Vec) (c : Core) : Core := { c with v := Sparse.set 0 d.toNat v c.v }

/-! ### Modes and custody levels that everything reads -/

/-- LPDDR channels in service: trained and not fenced (`LPD_STATUS.IN_SERVICE`, R519). -/
def State.lpdInService (s : State) : Nat := s.hlt.trained.toNat &&& (0xFF ^^^ s.reg rLpdFence % 256)
/-- The number of LPDDR channels in service. -/
def State.lpdChannels (s : State) : Nat := countOnes 8 s.lpdInService

/-- The `i`-th set bit of a mask of `n` bits, counted in increasing order. -/
def nthSetBit : Nat → Nat → Nat → Nat → Nat
  | 0, _, _, j => j
  | n + 1, m, i, j =>
    if m % 2 = 1 then (if i = 0 then j else nthSetBit n (m / 2) (i - 1) (j + 1)) else nthSetBit n (m / 2) i (j + 1)

/-- The channel that holds an LPDDR address: granule g of 4 KiB goes to the (g mod n)-th channel in service (R14, R502). -/
def State.lpdChannelOf (s : State) (a : Nat) : Nat :=
  nthSetBit 8 s.lpdInService (a / 4096 % s.lpdChannels) 0

/-- Cluster `c` is fenced (R59). -/
def State.clusterFenced (s : State) (c : Nat) : Bool := s.regBit (rStcClFence c) 8
/-- Stream core `k` is fenced, alone or with its cluster (R58, R59). -/
def State.coreFenced (s : State) (k : Nat) : Bool :=
  s.regBit (rStcClFence (k / 8)) (k % 8) || s.clusterFenced (k / 8)

/-! ### The global address map (R17, R18) -/

/-- What an access reaches. -/
inductive Route where
  | mem
  | regs (bar0 : Nat)
  | host
  | bad (kind : BusKind)
  deriving DecidableEq, Repr

/-- First address of the on-chip SRAM (R18). -/
def sramBase : Nat := 0x080000000000
/-- First address of the register image (R17). -/
def regImageBase : Nat := 0x0C0000000000
/-- First address of head-host memory (R17). -/
def hostBase : Nat := 0x100000000000
/-- The local store of stream core `k` (R18). -/
def localStore (k : Nat) : Nat := sramBase + 0xA000000 + k * 0x40000

/-- The cluster whose memory holds offset `o` of the SRAM, if one does (R18). -/
def sramCluster (o : Nat) : Option Nat :=
  if o < 0x4000000 then none
  else if o < 0xA000000 then some ((o - 0x4000000) / 0x800000)
  else some ((o - 0xA000000) / 0x40000 / 8)

/-- Where an access of `n` bytes at `a` goes (R17, R18, R59). -/
def State.route (s : State) (a n : Nat) : Route :=
  if a + n ≤ 2 ^ 35 * s.lpdChannels then .mem
  else if sramBase ≤ a ∧ a + n ≤ sramBase + 0xB800000 then
    match sramCluster (a - sramBase) with
    | some c => if s.clusterFenced c then .bad .unoccupied else .mem
    | none => .mem
  else if 0x010000000000 ≤ a ∧ a < 0x050000000000 then
    let p := a / 0x010000000000 - 1
    if s.regBit (rCxlPort p) 0 ∧ ¬ s.regBit (rCxlPortFence p) 0
        ∧ a % 0x010000000000 + n ≤ s.reg (rCxlPortCapacity p) * 2 ^ 30 then .mem
    else .bad .unoccupied
  else if regImageBase ≤ a ∧ a + n ≤ regImageBase + 0x10000000 then .regs (a - regImageBase)
  else if hostBase ≤ a ∧ a + n ≤ 2 ^ 48 then .host
  else .bad .unoccupied

/-- The byte of memory at a global address. -/
def State.byte (s : State) (a : Nat) : Byte := Sparse.get 0 a s.mem
/-- Set the byte of memory at a global address. -/
def State.setByte (a : Nat) (b : Byte) (s : State) : State := { s with mem := Sparse.set 0 a b s.mem }
/-- `n` bytes of memory from `a`. -/
def State.bytes (s : State) (a : Nat) : Nat → List Byte
  | 0 => []
  | n + 1 => s.byte a :: s.bytes (a + 1) n
/-- Write bytes to memory from `a` up. -/
def State.putBytes (a : Nat) : List Byte → State → State
  | [], s => s
  | b :: t, s => (s.setByte a b).putBytes (a + 1) t
/-- Write those bytes whose flag is set (byte enables, R71). -/
def State.putMasked (a : Nat) : List (Bool × Byte) → State → State
  | [], s => s
  | (e, b) :: t, s => (if e then s.setByte a b else s).putMasked (a + 1) t

/-- The 8-byte words an access touches. -/
def wordsOf (a n : Nat) : List Nat := (List.range ((a + n + 7) / 8 - a / 8)).map (· + a / 8)

/-- The access touches a damaged word (R39). -/
def State.touchesDamage (s : State) (a n : Nat) : Bool := (wordsOf a n).any fun w => Sparse.get false w s.damaged

/-- A store with these byte enables leaves part of some damaged word unwritten while it writes another part (R39). -/
def State.mergesDamage (s : State) (a : Nat) (en : List Bool) : Bool :=
  (wordsOf a en.length).any fun w => Sparse.get false w s.damaged &&
    (let cover := (List.range 8).map fun i => let x := 8 * w + i
                                                if x < a then false else (en.drop (x - a)).headD false
     cover.any (· == true) && cover.any (· == false))

/-- The bytes of 8-byte word `w` that a store with these byte enables at `a` writes. -/
def wordCover (a : Nat) (en : List Bool) (w : Nat) : List Bool :=
  (List.range 8).map fun i => decide (a ≤ 8 * w + i) && (en.drop (8 * w + i - a)).headD false

/-- A store that writes all 8 bytes of a damaged word repairs it; one that writes any byte of a word with a single-bit error gives the
word new check bits (R39). -/
def State.repair (a : Nat) (en : List Bool) (s : State) : State :=
  { s with
    damaged := (wordsOf a en.length).foldl (fun m w => if (wordCover a en w).all id then Sparse.set false w false m else m) s.damaged,
    weak := (wordsOf a en.length).foldl (fun m w => if (wordCover a en w).any id then Sparse.set false w false m else m) s.weak }

/-- The access touches a word with a single-bit error (R39). -/
def State.touchesWeak (s : State) (a n : Nat) : Bool := (wordsOf a n).any fun w => Sparse.get false w s.weak

/-- A store with these byte enables merges into a word with a single-bit error (R39). -/
def State.mergesWeak (s : State) (a : Nat) (en : List Bool) : Bool :=
  (wordsOf a en.length).any fun w => Sparse.get false w s.weak && (wordCover a en w).any id && ! (wordCover a en w).all id

/-! ### Head-host memory (R487) -/

/-- Whether an access to head-host memory is translated, fails, or waits for a translation. -/
inductive HostAccess where
  | ok
  | fail
  | miss
  deriving DecidableEq, Repr

/-- The translation of one page for a read or a write (R481, R487). -/
def State.hostPage (s : State) (page : Nat) (write : Bool) : HostAccess :=
  if ¬ s.ep.linkUp then .fail
  else if ¬ s.ep.atsEnable then .ok
  else match s.ep.atc.find? (fun t => t.page == page) with
    | some t => if (if write then t.write else t.read) then .ok else .fail
    | none => if s.ep.atsFailed.contains page then .fail else .miss

/-- The 4 KiB pages of head-host memory an access touches. -/
def hostPages (a n : Nat) : List Nat :=
  (List.range ((a + n + 4095) / 4096 - a / 4096)).map fun i => a / 4096 + i - hostBase / 4096

/-- The pages whose translation an access must wait for (R487). -/
def State.hostMisses (s : State) (a n : Nat) (write : Bool) : List Nat :=
  match s.route a n with
  | .host => (hostPages a n).filter fun p => s.hostPage p write == .miss
  | _ => []

/-- Send Translation Requests for pages not yet asked for (R487, EP_ATS_MISSES). -/
def State.askTranslations (ps : List Nat) (s : State) : State :=
  ps.foldl (fun t p => if t.ep.atsWaiting.contains p then t else
    ({ t with ep := { t.ep with atsWaiting := t.ep.atsWaiting ++ [p] } }.emit (.atsRequest p)).bump rEpAtsMisses 1) s

/-- A failed translation is used up by the access that waited for it (R487). -/
def State.dropFailed (ps : List Nat) (s : State) : State :=
  { s with ep := { s.ep with atsFailed := s.ep.atsFailed.filter fun p => ¬ ps.contains p } }

/-! ### Bus errors (R61) -/

/-- The code of `NOC_ERR_STATUS.KIND`. -/
def BusKind.code : BusKind → Nat
  | .unoccupied => 0
  | .ats => 1
  | .uncorrectable => 2
  | .atomic => 3

/-- Capture a bus error, or set OVERFLOW while one is held (R61); VALID raises vector 6 (R485). -/
def State.captureError (kind : BusKind) (src addr : Nat) (s : State) : State :=
  let s := s.bump rNocErrCount 1
  if s.regBit rNocErrStatus 0 then s.setRegBit rNocErrStatus 1
  else (((s.setReg rNocErrStatus (1 + (s.reg rNocErrStatus / 2 % 2) * 2 + kind.code * 4 + (src % 4096) * 256)).setReg64
    rNocErrAddr (addr % 2 ^ 48))).raiseVector 6

/-- Count an access that failed on a damaged word: in the cluster's `STC_CL_ECC.UNCORRECTABLE` (R39), in the LPDDR
channel's counter (R519), or as poison of the CXL port (R294). -/
def State.countDamage (a : Nat) (s : State) : State :=
  if a < 2 ^ 35 * s.lpdChannels then
    ({ s with twn := { s.twn with unclean := s.twn.unclean ||| 0x100 } }).bump (rLpdChUncorrectable (s.lpdChannelOf a)) 1
  else if sramBase ≤ a ∧ a < sramBase + 0xB800000 then
    match sramCluster (a - sramBase) with
    | some c => s.setReg (rStcClEcc c) (putBits (s.reg (rStcClEcc c)) 31 16 (satAt 0xFFFF (bitsOf (s.reg (rStcClEcc c)) 31 16 + 1)))
    | none => s
  else if 0x010000000000 ≤ a ∧ a < 0x050000000000 then s.bump (rCxlPort (a / 0x010000000000 - 1) + 0xC) 1
  else s

/-- Count an access at `a` whose data the device corrected: in the cluster's `STC_CL_ECC.CORRECTED` (R39) or the LPDDR channel's counter
(R519). -/
def State.countCorrected (a : Nat) (s : State) : State :=
  if a < 2 ^ 35 * s.lpdChannels then s.bump (rLpdChCorrected (s.lpdChannelOf a)) 1
  else if sramBase ≤ a ∧ a < sramBase + 0xB800000 then
    match sramCluster (a - sramBase) with
    | some c => s.setReg (rStcClEcc c) (putBits (s.reg (rStcClEcc c)) 15 0 (satAt 0xFFFF (bitsOf (s.reg (rStcClEcc c)) 15 0 + 1)))
    | none => s
  else s

/-- What a read of `n` bytes at `a` that does not fail counts (R39). -/
def State.correct (a n : Nat) (s : State) : State := if s.touchesWeak a n then s.countCorrected a else s

/-- A bus error reported to a requester on the mesh: captured, and counted where a damaged word caused it. -/
def State.busError (kind : BusKind) (src addr : Nat) (s : State) : State :=
  (if kind = .uncorrectable then s.countDamage addr else s).captureError kind src addr

/-- Why a read of `n` bytes at `a` fails, if it does. Register reads never fail (R7). -/
def State.readFault (s : State) (a n : Nat) : Option BusKind :=
  match s.route a n with
  | .mem => if s.touchesDamage a n then some .uncorrectable else none
  | .regs _ => none
  | .host => if (hostPages a n).any (fun p => s.hostPage p false == .fail) then some .ats else none
  | .bad k => some k

/-- Why a write with these byte enables at `a` fails, if it does. -/
def State.writeFault (s : State) (a : Nat) (en : List Bool) : Option BusKind :=
  match s.route a en.length with
  | .mem => if s.mergesDamage a en then some .uncorrectable else none
  | .regs _ => none
  | .host => if (hostPages a en.length).any (fun p => s.hostPage p true == .fail) then some .ats else none
  | .bad k => some k

/-- What a write that does not fail counts: one that merges into a word with a single-bit error has it corrected (R39). -/
def State.correctMerge (a : Nat) (en : List Bool) (s : State) : State := if s.mergesWeak a en then s.countCorrected a else s

/-- Perform a write of memory that does not fail: the enabled bytes change, whole damaged words are repaired. -/
def State.performWrite (a : Nat) (bs : List (Bool × Byte)) (s : State) : State :=
  ((s.correctMerge a (bs.map (·.1))).repair a (bs.map (·.1))).putMasked a bs

end Sys2Proof.Machine
end

