-- ==== Sys2Proof/Machine/Queues.lean ====
section
/-! DEFINITION. Engine units: their queues and arbitration (R99, R100), command blocks and their checks (R90 to R92), and
completion and orphan records (R93 to R98). -/

namespace Sys2Proof.Machine

/-! ### Units -/

/-- The key of unit `u` of class `cls` in `State.units`. -/
def unitKey (cls u : Nat) : Nat := 4096 * cls + u
/-- Unit `u` of class `cls`. -/
def State.unit (s : State) (cls u : Nat) : EngUnit := Sparse.get EngUnit.idle (unitKey cls u) s.units
/-- Replace a unit. -/
def State.setUnit (cls u : Nat) (e : EngUnit) (s : State) : State :=
  { s with units := Sparse.set EngUnit.idle (unitKey cls u) e s.units }
/-- Change a unit. -/
def State.modUnit (cls u : Nat) (f : EngUnit → EngUnit) (s : State) : State := s.setUnit cls u (f (s.unit cls u))

/-- The number of units of a class; 0 for a class that `enq` does not know (R81). -/
def classUnits (cls : Nat) : Nat :=
  match cls with
  | 1 => 1024 | 2 => 32 | 3 => 48 | 4 => 32 | 5 => 128 | 6 => 8 | 7 => 4 | 8 => 8 | _ => 0

/-- Command blocks each queue of a unit holds (R99 and the class chapters). -/
def queueDepth (cls : Nat) : Nat := if cls = clsDma then 8 else if cls = clsSequencer then 256 else 16

/-- Commands a unit keeps in service (R100; R153 for the coder's three stages, R405 for the sequencers). -/
def serviceMax (cls : Nat) : Nat :=
  match cls with
  | 2 => 3 | 7 => 32 | 8 => 1024 | _ => 1

/-- A unit is fenced, by its own fence bit or that of its DMA engine (R30, R113). -/
def State.unitFenced (s : State) (cls u : Nat) : Bool :=
  s.regBit (rUnitFence cls u) 0 || (decide (cls = clsDma) && s.regBit (rDmaEngFence (u / 64)) 0)

/-- One of a unit's queues. -/
def EngUnit.queue (e : EngUnit) (q : Nat) : List QEntry :=
  match q with
  | 0 => e.q0 | 1 => e.q1 | 2 => e.q2 | _ => e.q3
/-- Replace one of a unit's queues. -/
def EngUnit.setQueue (q : Nat) (l : List QEntry) (e : EngUnit) : EngUnit :=
  match q with
  | 0 => { e with q0 := l } | 1 => { e with q1 := l } | 2 => { e with q2 := l } | _ => { e with q3 := l }
/-- Commands waiting in the four queues. -/
def EngUnit.queued (e : EngUnit) : Nat := e.q0.length + e.q1.length + e.q2.length + e.q3.length

/-! ### Arrival (R82) and choice (R100) -/

/-- A command block reaches a queue: the enqueue status, 0 OK, 1 QUEUE_FULL or 2 FENCED, and the queue after it (R81, R82). -/
def State.accept (cls u q : Nat) (block : Vec) (s : State) : Nat × State :=
  if s.unitFenced cls u then (2, s)
  else if queueDepth cls ≤ ((s.unit cls u).queue q).length then (1, s)
  else
    let n := s.reg64 (rSeq cls u q) + 1
    (0, (s.setReg64 (rSeq cls u q) n).modUnit cls u fun e =>
      e.setQueue q (e.queue q ++ [{ seq := BitVec.ofNat 64 n, block := block }]))

/-- The weight of a lower queue in an arbitration register; 0 counts as 1. -/
def arbWeight (arb q : Nat) : Nat := max 1 (bitsOf arb (4 * q - 1) (4 * q - 4))
/-- The queue-0 limit of an arbitration register; 0 means none. -/
def arbLimit (arb : Nat) : Nat := bitsOf arb 15 12

/-- The next non-empty queue of 1, 2, 3, 1, … after `t`. -/
def EngUnit.nextLower (e : EngUnit) (t : Nat) : Option Nat :=
  [t % 3 + 1, (t + 1) % 3 + 1, (t + 2) % 3 + 1].find? fun q => ¬ (e.queue q).isEmpty

/-- Queue 0 is served next. -/
def EngUnit.queue0Next (arb : Nat) (e : EngUnit) : Bool :=
  ! e.q0.isEmpty && (arbLimit arb == 0 || (e.q1.isEmpty && e.q2.isEmpty && e.q3.isEmpty) || decide (e.q0run < arbLimit arb))

/-- The queue that R100 serves next, and the unit with its turn counted. Neither a queue-0 command in between nor the current lower queue
running empty ends its run: the count of commands served in a row stays until the turn passes (log entry 158). -/
def EngUnit.pick (arb : Nat) (e : EngUnit) : Option (Nat × EngUnit) :=
  if e.queue0Next arb then some (0, { e with q0run := e.q0run + 1 })
  else if ¬ (e.queue e.turn).isEmpty ∧ e.turn ≠ 0 ∧ e.served < arbWeight arb e.turn then
    some (e.turn, { e with served := e.served + 1, q0run := 0 })
  else match e.nextLower e.turn with
    | some q => some (q, { e with turn := q, served := 1, q0run := 0 })
    | none => none

/-- A command as a unit takes it from its queue. -/
def Cmd.start (q : Nat) (e : QEntry) (now : Word64) : Cmd :=
  { queue := q, seq := e.seq, block := e.block, done := false, status := 0, bytes := 0, detail := 0, index := 0, bad := 0,
    firstBad := 0xFFFF, desc := none, descEnd := none, key := [], stop := 0, aborted := false, since := now, job := none }

/-- A command still executes: its accesses are not all done, and nothing has ended it. -/
def Cmd.live (c : Cmd) : Bool := ! c.done && c.stop == 0

/-- A command is in stage `n` of a coder lane. -/
def Cmd.inStage (n : Nat) (c : Cmd) : Bool :=
  c.live && (match c.job with | some j => j.stage == n | none => false)

/-- The commands that occupy a unit: on a coder lane those in its three stages (R153), elsewhere every one not yet reported. -/
def EngUnit.inService (cls : Nat) (e : EngUnit) : List Cmd :=
  if cls = clsCoder then e.service.filter fun c => c.inStage 0 || c.inStage 1 || c.inStage 2 else e.service

/-- A unit may take a command: it is not fenced, runs no known-answer test (R457) and has room; a coder lane takes one only into
a free analysis stage (R153). -/
def State.mayServe (s : State) (cls u : Nat) : Bool :=
  let e := s.unit cls u
  ! s.unitFenced cls u && ! e.testing && decide ((e.inService cls).length < serviceMax cls)
    && (cls != clsCoder || ! e.service.any (Cmd.inStage 0))

/-- The command a free unit would take now, without taking it. While a cipher command is suspended only queue 0 is served, up to
`Q0_LIMIT` in a row (R249). -/
def State.nextCommand (s : State) (cls u : Nat) : Option (Cmd × EngUnit) :=
  let e := s.unit cls u
  if ¬ s.mayServe cls u then none
  else if ¬ e.suspended.isEmpty ∧ (e.q0.isEmpty ∨ ¬ e.queue0Next (s.reg (rArb cls))
      ∨ (arbLimit (s.reg (rArb cls)) ≠ 0 ∧ arbLimit (s.reg (rArb cls)) ≤ e.q0run)) then none
  else match e.pick (s.reg (rArb cls)) with
    | none => none
    | some (q, e') => match e'.queue q with
      | [] => none
      | x :: t => some (Cmd.start q x s.elapsed, e'.setQueue q t)

/-! ### Command blocks (R90 to R92) -/

/-- `n` bytes of a command block from byte `o`, little-endian. -/
def le (b : Vec) (o n : Nat) : Nat := b.toNat / 2 ^ (8 * o) % 2 ^ (8 * n)
/-- OPCODE. -/
def opcodeOf (b : Vec) : Nat := le b 0 1
/-- IRQ. -/
def irqOf (b : Vec) : Bool := le b 1 1 % 2 == 1
/-- NOTIFY: a requester in the coding of R61, which is also its engine number. -/
def notifyOf (b : Vec) : Nat := le b 2 2 % 4096
/-- SOURCE. -/
def sourceOf (b : Vec) : Nat := le b 2 2 / 4096
/-- TAG. -/
def tagOf (b : Vec) : Nat := le b 4 4
/-- COMPLETION_ADDR. -/
def completionAddr (b : Vec) : Nat := le b 8 8 % 2 ^ 48

/-- The common header breaks R91. -/
def badHeader (b : Vec) : Bool :=
  decide (le b 1 1 / 2 ≠ 0) || decide (le b 8 8 / 2 ^ 48 ≠ 0)
    || (if irqOf b then ! (decide (notifyOf b < 0x60) || (decide (0x64 ≤ notifyOf b) && decide (notifyOf b < 0x7C)))
        else decide (le b 2 2 ≠ 0))

/-- COMPLETION_ADDR is one a record can be addressed to (R92). -/
def goodCompletionAddr (a : Nat) : Bool :=
  a % 32 == 0 && (decide (a + 32 ≤ 0x4000000000) || (decide (sramBase ≤ a) && decide (a + 32 ≤ sramBase + 0xB800000)))

/-- The command is ended with BAD_COMMAND whatever its operands hold (R91, R92). -/
def badCommon (b : Vec) : Bool := badHeader b || ! goodCompletionAddr (completionAddr b)

/-! ### Statuses common to every class (R96) -/

def stOk : Nat := 0
def stBusError : Nat := 1
def stLengthMismatch : Nat := 2
def stFenced : Nat := 3
def stBadCommand : Nat := 4
def stAborted : Nat := 5

/-- End a command: its record may be written. -/
def Cmd.finish (st : Nat) (c : Cmd) : Cmd := { c with done := true, status := st }

/-! ### Completion records (R93, R94, R98) -/

/-- The requester code of an engine's own mesh accesses (R61). -/
def engineSource (cls u : Nat) : Nat :=
  if cls = clsDma then 0x80 + u / 64 else if cls = clsSequencer then 0x74 + u else 0xFF

/-- The 32 bytes of a completion record (R93). -/
def recordBytes (cls u : Nat) (c : Cmd) (status : Nat) : List Byte :=
  leBytes 8 c.seq.toNat ++ leBytes 4 (tagOf c.block) ++ leBytes 2 status ++ leBytes 2 (c.queue + 4 * u + 4096 * cls)
    ++ leBytes 8 c.bytes ++ leBytes 8 c.detail

/-- The orphan registers after an orphan record (R98). -/
def State.orphan (cls : Nat) (rec : List Byte) (s : State) : State :=
  (List.range 8).foldl (fun t i => t.setReg (rOrphanRec cls i) (leAt rec (4 * i) 4)) (s.bump (rOrphanCount cls) 1)

/-- Set `STC_IRQ_PEND.CQ` bit `n` of a requester (R47). -/
def State.notifyCq (k n : Nat) (s : State) : State :=
  if isEngine k then s.modCore k fun c => { c with irqPend := c.irqPend ||| BitVec.ofNat 32 (2 ^ n) } else s

/-- Write a command's completion record, or deliver it as an orphan (R93, R94, R98). -/
def State.writeRecord (cls u : Nat) (c : Cmd) (s : State) : State :=
  let a := completionAddr c.block
  if ¬ goodCompletionAddr a then s.orphan cls (recordBytes cls u c stBadCommand)
  else match s.writeFault a (List.replicate 32 true) with
    | some k => (s.busError k (engineSource cls u) a).orphan cls (recordBytes cls u c stBusError)
    | none =>
      let t := s.performWrite a ((recordBytes cls u c c.status).map fun b => (true, b))
      if irqOf c.block then t.notifyCq (notifyOf c.block) (sourceOf c.block) else t

/-! ### Ending work (R30, R97, R111) -/

/-- Which of the endings of one clock wins: an alarm over a fence over an abort (R97). -/
def endRank (st : Nat) : Nat := if st = 0x0101 then 3 else if st = stFenced then 2 else if st = stAborted then 1 else 0

/-- End a command whose completion is not recorded: the first ending stands, of two in one clock the one that wins (R27, R97). -/
def Cmd.endWith (st : Nat) (ab : Bool) (now : Word64) (c : Cmd) : Cmd :=
  if c.stop = 0 then { c with stop := st, aborted := ab, since := now }
  else if c.since = now ∧ endRank c.stop < endRank st then { c with stop := st }
  else c

/-- Move every queued command to the ended list with a status. -/
def EngUnit.endQueued (st : Nat) (ab : Bool) (now : Word64) (e : EngUnit) : EngUnit :=
  let f (q : Nat) := (e.queue q).map fun x => ((Cmd.start q x now).finish st).endWith st ab now
  { e with q0 := [], q1 := [], q2 := [], q3 := [], ended := e.ended.map (Cmd.endWith st false now) ++ f 0 ++ f 1 ++ f 2 ++ f 3 }

/-- End every command in service or suspended whose completion is not recorded yet (R27). -/
def EngUnit.endService (st : Nat) (ab : Bool) (now : Word64) (e : EngUnit) : EngUnit :=
  { e with service := (e.service ++ e.suspended).map (Cmd.endWith st ab now), suspended := [] }

/-- Commands whose records are owed: in service, suspended or ended. -/
def EngUnit.owed (e : EngUnit) : List Cmd := e.service ++ e.suspended ++ e.ended

/-- The command of queue `q` with the lowest SEQ among those whose records are owed: records of a queue follow its order (R95). -/
def EngUnit.oldest (q : Nat) (e : EngUnit) : Option Cmd :=
  e.owed.foldl (fun best c =>
    if c.queue ≠ q then best
    else match best with
      | some b => if c.seq.toNat < b.seq.toNat then some c else best
      | none => some c) none

/-- The same command, by queue and sequence number. -/
def Cmd.same (c x : Cmd) : Bool := x.queue == c.queue && x.seq == c.seq

/-- The command of queue `q` whose record may be written next: all its accesses have completed. -/
def EngUnit.nextRecord (q : Nat) (e : EngUnit) : Option Cmd :=
  match e.oldest q with
  | some c => if c.done then some c else none
  | none => none

/-- The unit with a command taken off. -/
def EngUnit.drop (c : Cmd) (e : EngUnit) : EngUnit :=
  let f (l : List Cmd) := l.filter fun x => ! c.same x
  { e with service := f e.service, suspended := f e.suspended, ended := f e.ended }

/-- Replace a command in service by what it has become; an ending that met it meanwhile stays (R27). -/
def State.putCommand (cls u : Nat) (c : Cmd) (s : State) : State :=
  s.modUnit cls u fun e =>
    { e with service := mapWhere c.same (fun x => { c with stop := x.stop, aborted := x.aborted, since := x.since }) e.service }

end Sys2Proof.Machine
end

