-- ==== Sys2Proof/Machine/Regions.lean ====
section
/-! DEFINITION. Settings (R493), and the write-buffer and mirror regions (R114 to R116): entry headers in memory and the ring of
data slots. -/

namespace Sys2Proof.Machine

/-! ### Settings -/

/-- The value of a setting, `d` when none has been given since the last start. -/
def State.setting (s : State) (id index d : Nat) : Nat :=
  match Sparse.get 0 (id * 2 ^ 32 + index) s.settings with
  | 0 => d
  | v + 1 => v

/-- The bytes of a setting that DATA carries: its value holds them with a 1 above the last (R493). -/
def State.settingData (s : State) (id index : Nat) : List Byte :=
  let v := s.setting id index 0
  leBytes ((v.log2) / 8) v
/-- The value that holds the bytes of DATA. -/
def dataValue (bs : List Byte) : Nat := ofLe bs + 2 ^ (8 * bs.length)
/-- Give a setting; what it held before still applies to what began before. -/
def State.giveSetting (id index v : Nat) (s : State) : State :=
  let k := id * 2 ^ 32 + index
  { s with settings := Sparse.set 0 k (v + 1) s.settings, settingLog := s.settingLog ++ [(k, Sparse.get 0 k s.settings, s.elapsed)] }
/-- The setting in force at a time, which governs what began then. -/
def State.settingAt (s : State) (id index d : Nat) (t : Word64) : Nat :=
  match s.settingLog.find? fun e => e.1 == id * 2 ^ 32 + index && t.toNat < e.2.2.toNat with
  | some (_, 0, _) => d
  | some (_, v + 1, _) => v
  | none => s.setting id index d

/-- The number of this head. -/
def State.headNo (s : State) : Nat := if s.hlt.head then 1 else 0
/-- This head holds both sets: SOLO, or the form of QUIESCE that is entered from SOLO (R446, R511). -/
def State.soloMode (s : State) : Bool := s.hlt.mode == .solo || (s.hlt.mode == .quiesce && s.hlt.form == .drained)
/-- Placement and flash writes run: in PAIRED, in SOLO and in the drained form of QUIESCE (R508, R511). -/
def State.managesMedia (s : State) : Bool := s.acc.running && (s.hlt.mode == .paired || s.soloMode)
/-- Entries of a number are mirrored: in PAIRED, and in SOLO from the seeding mark on (R454, R459). -/
def State.mirrors (s : State) (no : Nat) : Bool :=
  s.hlt.mode == .paired || s.twn.phase == .joined || s.twn.phase == .failback || (s.twn.phase == .seeding && decide (s.twn.seedMark.toNat ≤ no))
/-- Send a copy for an entry to the partner's mirror. -/
def State.sendMirror (no off : Nat) (bytes : List Byte) (last : Bool) (s : State) : State :=
  if s.mirrors no then s.emit (.mirror off bytes last) else s

/-! ### Regions (R114, R151) -/

/-- A region base, once it is set; `id` is 0x0100 for the write buffer and 0x0101 for the mirror. -/
def State.regionBase (s : State) (id : Nat) : Option Nat :=
  match Sparse.get 0 (id * 2 ^ 32) s.settings with
  | 0 => none
  | v + 1 => some v
/-- Base of the write-buffer region; 0 stands for none, which callers exclude by `basesSet`. -/
def State.ownBase (s : State) : Nat := (s.regionBase 0x0100).getD 0
/-- Base of the mirror region. -/
def State.mirrorBase (s : State) : Nat := (s.regionBase 0x0101).getD 0
/-- Both region bases are set. -/
def State.basesSet (s : State) : Bool := (s.regionBase 0x0100).isSome && (s.regionBase 0x0101).isSome

/-- Offset of the ledger area, of a record slot in it, and of a data slot (R114). -/
def ledgerOff (slot : Nat) : Nat := 0x4000000 + 0x200000 * (slot % 8)
def dataOff (slot : Nat) : Nat := 0x5000000 + 4096 * slot
/-- Data slots of a region. -/
def dataSlots : Nat := 3125248
/-- Offset of an entry's header (R115). -/
def headerOff (no : Nat) : Nat := 64 * (no / 2 % 1048576)

/-! ### Entry headers (R115) -/

/-- An entry header. STATE: 0 FREE, 1 ALLOCATED, 2 LANDED, 3 CONFIRMED, 4 PLACED. -/
structure Header where
  no : Nat
  cycle : Nat
  slba : Nat
  nsid : Nat
  nblk : Nat
  state : Nat
  noData : Bool
  profile : Nat
  off : Nat
  domain : Nat
  deriving DecidableEq, Repr

/-- Bytes 0-59 of a header. -/
def headerBody (h : Header) : List Byte :=
  leBytes 8 h.no ++ leBytes 8 h.cycle ++ leBytes 8 h.slba ++ leBytes 4 h.nsid ++ leBytes 2 h.nblk ++ leBytes 1 h.state
    ++ leBytes 1 ((if h.noData then 1 else 0) + 2 * (h.profile % 4)) ++ leBytes 8 h.off ++ leBytes 2 (h.domain % 4096) ++ zeros 18

/-- HCHK of a header. -/
def headerCheck (h : Header) : Nat := crc32c (headerBody h)
/-- The 64 bytes of a header. -/
def headerBytes (h : Header) : List Byte := headerBody h ++ leBytes 4 (headerCheck h)

/-- The header in 64 bytes. -/
def headerOf (b : List Byte) : Header :=
  { no := leAt b 0 8, cycle := leAt b 8 8, slba := leAt b 16 8, nsid := leAt b 24 4, nblk := leAt b 28 2, state := leAt b 30 1,
    noData := leAt b 31 1 % 2 == 1, profile := leAt b 31 1 / 2 % 4, off := leAt b 32 8, domain := leAt b 40 2 % 4096 }

/-- HCHK of 64 header bytes holds. -/
def goodHeader (b : List Byte) : Bool := leAt b 60 4 == crc32c (b.take 60)

/-- The 64 bytes at the place of an entry's header in a region. -/
def State.headerAt (s : State) (base no : Nat) : List Byte := s.bytes (base + headerOff no) 64
/-- An entry's header in a region, when the place holds it whole. -/
def State.header (s : State) (base no : Nat) : Option Header :=
  let b := s.headerAt base no
  if goodHeader b ∧ leAt b 0 8 = no ∧ no ≠ 0 then some (headerOf b) else none
/-- Write a header in one store (R115). -/
def State.putHeader (base : Nat) (h : Header) (s : State) : State :=
  s.performWrite (base + headerOff h.no) ((headerBytes h).map fun b => (true, b))
/-- Change an entry's header, HCHK recomputed (R115). -/
def State.modHeader (base no : Nat) (f : Header → Header) (s : State) : State :=
  match s.header base no with
  | some h => s.putHeader base (f h)
  | none => s

/-- Every entry of a region that is not FREE: the headers whose STATE byte is listed in memory. -/
def State.headers (s : State) (base : Nat) : List Header :=
  (s.mem.filterMap fun p =>
    if base ≤ p.1 ∧ p.1 < base + 0x4000000 ∧ (p.1 - base) % 64 = 30 then
      (let b := s.bytes (p.1 - 30) 64; if goodHeader b then some (headerOf b) else none)
    else none)

/-- The numbers of the headers in a region, FREE ones included (R115). -/
def State.headerNumbers (s : State) (base : Nat) : List Nat :=
  s.mem.filterMap fun p =>
    if base ≤ p.1 ∧ p.1 < base + 0x4000000 ∧ (p.1 - base) % 64 < 8 then
      (let b := s.bytes (p.1 - (p.1 - base) % 64) 64; if goodHeader b then some (leAt b 0 8) else none)
    else none

/-- The namespace that journal segments carry (R329). -/
def segmentNsid : Nat := 0xFFFFFFFF

/-- A header covers a block of a namespace. -/
def Header.covers (h : Header) (nsid lba : Nat) : Bool :=
  h.nsid == nsid && h.nsid != segmentNsid && decide (h.slba ≤ lba) && decide (lba < h.slba + h.nblk)

/-! ### Entries of this head -/

/-- The ring entry of a number. -/
def State.ringEntry (s : State) (no : Nat) : Option RingEntry := s.acc.ring.find? fun e => e.no == no
/-- Change a ring entry. -/
def State.modRing (no : Nat) (f : RingEntry → RingEntry) (s : State) : State :=
  { s with acc := { s.acc with ring := mapWhere (fun e => e.no == no) f s.acc.ring } }
/-- An entry's header in this head's own region. -/
def State.ownHeader (s : State) (no : Nat) : Option Header := s.header s.ownBase no

/-- Data slots in use, skipped ones included (R116). -/
def State.slotsUsed (s : State) : Nat := (s.acc.ring.map fun e => e.slots + e.skipped).foldl (· + ·) 0

/-- Slots skipped when `n` slots are allocated now: they would pass the end of the data area (R116). -/
def State.slotSkip (s : State) (n : Nat) : Nat := if dataSlots < s.acc.ringAt + n then dataSlots - s.acc.ringAt else 0

/-- Usable bytes of a quire under R295, a page of each row for its summary left out (log entry 17). -/
def Quire.space (q : Quire) : Nat := q.rows * (q.d * 65536 - 4096)

/-- Bytes the dump reserve of this head's latest checkpoint can take (R333). -/
def State.reserveSpace (s : State) : Nat :=
  match s.med.checkpoints.find? fun c => c.head == s.headNo with
  | some c =>
    if s.med.reserveReady then
      ((c.dumpRes.filter fun q => (Sparse.get Quire.none q s.quires).state == 1).map fun q => (Sparse.get Quire.none q s.quires).space).foldl (· + ·) 0
    else 0
  | none => 0

/-- Bytes the dump would write of one region: entry table, ledger area, and the slots of entries that are not FREE (R332). -/
def State.regionOccupied (s : State) (base : Nat) : Nat :=
  0x5000000 + 4096 * ((s.headers base).map fun h => if h.noData then 0 else h.nblk).foldl (· + ·) 0

/-- The buffer has room for an entry of `n` slots (R116, R118, R333). -/
def State.roomFor (s : State) (n : Nat) : Bool :=
  decide (s.acc.ring.length < 1048576) && decide (s.slotsUsed + s.slotSkip n + n ≤ dataSlots)
    && decide (s.regionOccupied s.ownBase + s.regionOccupied s.mirrorBase + 4096 * n ≤ s.reserveSpace)

/-- Allocate an entry: its number, its slots and its header (R115, R116). -/
def State.allocate (h : Header) (slots : Nat) (cmd : Option (Nat × Nat)) (unmap : Bool) (reserved : Nat) (s : State) : Nat × State :=
  let no := s.acc.nextEntry
  let skip := s.slotSkip slots
  let at_ := if dataSlots < s.acc.ringAt + slots then 0 else s.acc.ringAt
  let e : RingEntry := { no := no, slot := at_, slots := slots, skipped := skip, cmd := cmd, unmap := unmap, received := 0,
                         reserved := reserved, freedIn := none, freed := false }
  let s := { s with acc := { s.acc with nextEntry := no + 2, ring := s.acc.ring ++ [e], ringAt := at_ + slots,
                                        reserved := s.acc.reserved + reserved } }
  (no, s.putHeader s.ownBase { h with no := no, off := if slots = 0 then 0 else dataOff at_ })

/-- Free an entry: its header, its reservation, and, in order of allocation, its slots (R116). -/
def State.freeEntry (no : Nat) (s : State) : State :=
  match s.ringEntry no with
  | none => s
  | some e =>
    let s := s.modHeader s.ownBase no fun h => { h with state := 0 }
    let s := s.modRing no fun e => { e with freed := true }
    { s with acc := { s.acc with ring := s.acc.ring.dropWhile RingEntry.freed, reserved := s.acc.reserved - e.reserved } }

end Sys2Proof.Machine
end

