-- ==== Sys2Proof/Machine/Aes.lean ====
section
/-! DEFINITION. AES with 128-bit and 256-bit keys, as FIPS 197 gives it (R237), and the counter of SP 800-38D (R242). -/

namespace Sys2Proof

/-- The S-box of FIPS 197, byte x at bits [8x+7:8x]. -/
def aesSbox : Nat :=
  0xC072A49CAFA2D4ADF04759FA7DC982CA76ABD7FE2B670130C56F6BF27B777C63
  + 0x75B227EBE28012079A059618C323C7041531D871F1E5A534CCF73F362693FDB7 * 2 ^ 256
  + 0xCF584C4A39BECB6A5BB1FC20ED00D153842FE329B3D63B52A05A6E1B1A2C8309 * 2 ^ 512
  + 0xD2F3FF1021DAB6BCF5389D928F40A351A89F3C507F02F94585334D43FBAAEFD0 * 2 ^ 768
  + 0xDB0B5EDE14B8EE4688902A22DC4F816073195D643D7EA7C41744975FEC130CCD * 2 ^ 1024
  + 0x08AE7A65EAF4566CA94ED58D6D37C8E779E4959162ACD3C25C2406490A3A32E0 * 2 ^ 1280
  + 0x9E1DC186B95735610EF6034866B53E708A8BBD4B1F74DDE8C6B4A61C2E2578BA * 2 ^ 1536
  + 0x16BB54B00F2D99416842E6BF0D89A18CDF2855CEE9871E9B948ED9691198F8E1 * 2 ^ 1792

/-- The inverse S-box, byte x at bits [8x+7:8x]. -/
def aesInvSbox : Nat :=
  0xCBE9DEC444438E3487FF2F9B8239E37CFBD7F3819EA340BF38A53630D56A0952
  + 0x25D18B6D49A25B76B224D92866A12E084EC3FA420B954CEE3D23C2A632947B54 * 2 ^ 256
  + 0x849D8DA75746155EDAB9EDFD5048706C92B6655DCC5CA4D41698688664F6F872 * 2 ^ 512
  + 0x6B8A130103BDAFC1020F3FCA8F1E2CD00645B3B80558E4F70AD3BC8C00ABD890 * 2 ^ 768
  + 0x6EDF751CE837F9E28535ADE72274AC9673E6B4F0CECFF297EADC674F4111913A * 2 ^ 1024
  + 0xF45ACD78FEC0DB9A2079D2C64B3E56FC1BBE18AA0E62B76F89C5291D711AF147 * 2 ^ 1280
  + 0xEF9CC9939F7AE52D0D4AB519A97F51605FEC8027591012B131C7078833A8DD1F * 2 ^ 1536
  + 0x7D0C2155631469E126D677BA7E042B17619953833CBBEBC8B0F52AAE4D3BE0A0 * 2 ^ 1792

/-- SubBytes of one byte. -/
def aesSub (x : Nat) : Nat := aesSbox / 2 ^ (8 * x) % 256
/-- InvSubBytes of one byte. -/
def aesInvSub (x : Nat) : Nat := aesInvSbox / 2 ^ (8 * x) % 256

/-- Multiply by x modulo 0x11B. -/
def xtime (a : Nat) : Nat := gfDouble 8 0x1B a

/-- Byte `i` of a state or key. -/
def byteOf (a : List Nat) (i : Nat) : Nat := a.getD i 0

/-- Exclusive-or of two lists of bytes. -/
def xorNats : List Nat → List Nat → List Nat
  | a :: s, b :: t => (a ^^^ b) :: xorNats s t
  | _, _ => []

/-- ShiftRows: row r of column c comes from column c + r. -/
def shiftRows (a : List Nat) : List Nat := (List.range 16).map fun i => byteOf a (i % 4 + 4 * ((i / 4 + i % 4) % 4))
/-- InvShiftRows. -/
def invShiftRows (a : List Nat) : List Nat := (List.range 16).map fun i => byteOf a (i % 4 + 4 * ((i / 4 + 4 - i % 4) % 4))

/-- MixColumns on one column. -/
def mixColumn : List Nat → List Nat
  | [a, b, c, d] => [xtime a ^^^ xtime b ^^^ b ^^^ c ^^^ d, a ^^^ xtime b ^^^ xtime c ^^^ c ^^^ d,
                     a ^^^ b ^^^ xtime c ^^^ xtime d ^^^ d, xtime a ^^^ a ^^^ b ^^^ c ^^^ xtime d]
  | l => l

/-- InvMixColumns on one column: a multiplication by 4x² + 5 before MixColumns. -/
def invMixColumn : List Nat → List Nat
  | [a, b, c, d] =>
    let u := xtime (xtime (a ^^^ c))
    let v := xtime (xtime (b ^^^ d))
    mixColumn [a ^^^ u, b ^^^ v, c ^^^ u, d ^^^ v]
  | l => l

/-- The words of the key schedule, each four bytes, from the words already made; `n` are still to make. -/
def expandKey (nk : Nat) : Nat → Nat → Nat → List (List Nat) → List (List Nat)
  | 0, _, _, w => w
  | n + 1, i, rcon, w =>
    let prev := w.getD (i - 1) []
    let t :=
      if i % nk = 0 then
        match prev with
        | [a, b, c, d] => [aesSub b ^^^ rcon, aesSub c, aesSub d, aesSub a]
        | l => l
      else if 6 < nk ∧ i % nk = 4 then prev.map aesSub
      else prev
    expandKey nk n (i + 1) (if i % nk = 0 then xtime rcon else rcon) (w ++ [xorNats (w.getD (i - nk) []) t])

/-- The round keys of a 16-byte or 32-byte key, 16 bytes each. -/
def aesRoundKeys (key : List Byte) : List (List Nat) :=
  let nk := if key.length = 32 then 8 else 4
  let words := expandKey nk (4 * (nk + 7) - nk) nk 1 (pieces 4 (key.map (·.toNat)))
  (pieces 4 words).map fun l => l.flatMap id

/-- The inner rounds and the last of the cipher, over the remaining round keys. -/
def aesRounds : List (List Nat) → List Nat → List Nat
  | [], a => a
  | [k], a => xorNats (shiftRows (a.map aesSub)) k
  | k :: t, a => aesRounds t (xorNats ((pieces 4 (shiftRows (a.map aesSub))).flatMap mixColumn) k)

/-- The inverse rounds, over the remaining round keys in reverse order. -/
def aesInvRounds : List (List Nat) → List Nat → List Nat
  | [], a => a
  | [k], a => xorNats ((invShiftRows a).map aesInvSub) k
  | k :: t, a => aesInvRounds t ((pieces 4 (xorNats ((invShiftRows a).map aesInvSub) k)).flatMap invMixColumn)

/-- Bytes from numbers. -/
def toBytes (l : List Nat) : List Byte := l.map (BitVec.ofNat 8)

/-- Encrypt one block of 16 bytes. -/
def aesEnc (key block : List Byte) : List Byte :=
  match aesRoundKeys key with
  | [] => block
  | k :: t => toBytes (aesRounds t (xorNats (block.map (·.toNat)) k))

/-- Decrypt one block of 16 bytes. -/
def aesDec (key block : List Byte) : List Byte :=
  match (aesRoundKeys key).reverse with
  | [] => block
  | k :: t => toBytes (aesInvRounds t (xorNats (block.map (·.toNat)) k))

/-- Add `n` to bytes 12-15 of a counter block, read big-endian, modulo 2^32 (R242). -/
def addCounter (n : Nat) (cb : List Byte) : List Byte := cb.take 12 ++ beBytes 4 ((ofBe (slice cb 12 4) + n) % 2 ^ 32)

/-- GHASH over a string of 16-byte blocks under H, in the bit order of SP 800-38D (R254). -/
def ghash (h : List Byte) (m : List Byte) : List Byte :=
  leBytes 16 ((pieces 16 m).foldl (fun y b => gf128MulG (y ^^^ ofLe (padTo 16 b)) (ofLe h)) 0)

end Sys2Proof
end

