-- ==== Sys2Proof/Machine/Xts.lean ====
section
/-! DEFINITION. XTS-AES of one data unit (R251, R252, R334). -/

namespace Sys2Proof.Machine

/-- Multiply a tweak by α. -/
def tweakNext (t : List Byte) : List Byte := leBytes 16 (gfDouble 128 0x87 (ofLe t))

/-- One block under a tweak. -/
def xtsBlock (dec : Bool) (key t b : List Byte) : List Byte :=
  xorBytes t (if dec then aesDec key (xorBytes t b) else aesEnc key (xorBytes t b))

/-- Whole blocks under successive tweaks; the next tweak comes back. -/
def xtsBlocks (dec : Bool) (key : List Byte) : List Byte → List (List Byte) → List Byte × List Byte
  | t, [] => ([], t)
  | t, b :: r => let (o, t') := xtsBlocks dec key (tweakNext t) r; (xtsBlock dec key t b ++ o, t')

/-- XTS-AES of one data unit of at least 16 bytes with ciphertext stealing; `seq` is the data unit sequence number. -/
def xts (dec : Bool) (keyA keyB : List Byte) (seq : Nat) (data : List Byte) : List Byte :=
  let m := data.length / 16
  let r := data.length % 16
  let t0 := aesEnc keyB (leBytes 16 seq)
  if r = 0 then (xtsBlocks dec keyA t0 (pieces 16 data)).1
  else
    let (head, tl) := xtsBlocks dec keyA t0 (pieces 16 (data.take (16 * (m - 1))))
    let last := slice data (16 * (m - 1)) 16
    let part := data.drop (16 * m)
    let (t1, t2) := if dec then (tweakNext tl, tl) else (tl, tweakNext tl)
    let cc := xtsBlock dec keyA t1 last
    head ++ xtsBlock dec keyA t2 (part ++ cc.drop r) ++ cc.take r

end Sys2Proof.Machine
end

