-- ==== Sys2Proof/Machine/Dump.lean ====
section
/-! DEFINITION. The dump of both buffer regions (R331 to R333, R507, R512). -/

namespace Sys2Proof.Machine

/-! ### The key and the units (R332, R334) -/

/-- The dump key of a sequence, from the master key or from the unit's identity key; half A then half B. -/
def State.dumpKey (s : State) (byMaster : Bool) (seq : Nat) : List Byte :=
  if byMaster then deriveDump s.kpr.km seq else deriveUnitDump s.kpr.seed seq

/-- Encrypt or decrypt a 4,096-byte unit of a region under the dump key: its sequence number is REGION * 2^40 + REGION_OFF / 4,096. -/
def State.dumpCrypt (s : State) (dec byMaster : Bool) (seq region unit : Nat) (bytes : List Byte) : List Byte :=
  let key := s.dumpKey byMaster seq
  xts dec (key.take 32) (key.drop 32) (region * 2 ^ 40 + unit) bytes

/-- Units of a region that the dump writes: the entry table, the ledger area and the data slots of every entry that is not FREE, journal
segments included (R332). -/
def State.dumpUnits (s : State) (base : Nat) : List Nat :=
  List.range (0x5000000 / 4096) ++ ((s.headers base).filter fun h => h.state != 0 && ! h.noData).flatMap fun h =>
    (List.range h.nblk).map fun i => h.off / 4096 + i

/-- The encrypted units of the region at a base. -/
def State.dumpRegion (s : State) (byMaster : Bool) (seq region base : Nat) : List (Nat × List Byte) :=
  (s.dumpUnits base).map fun u => (u, s.dumpCrypt false byMaster seq region u (s.bytes (base + 4096 * u) 4096))

/-- The bytes of a region that a dump's units hold, by offset. -/
def State.undumpRegion (s : State) (d : DumpImage) (region : Nat) (units : List (Nat × List Byte)) : List (Nat × Byte) :=
  units.flatMap fun u => (s.dumpCrypt true d.byMaster d.seq region u.1 u.2).zipIdx.map fun b => (4096 * u.1 + b.2, b.1)

/-- The dump key can be derived: from the master key, or on the unit that wrote the dump (R334). -/
def State.dumpReadable (s : State) (d : DumpImage) : Bool := if d.byMaster then s.kpr.owner == .accepted else d.head == s.headNo

/-! ### Writing it -/

/-- The SEQ of this head's latest durable checkpoint. -/
def State.ownCheckpointSeq (s : State) : Nat := ((s.med.checkpoints.filter fun c => c.head == s.headNo).map (·.seq)).foldl max 0

/-- A dump may be written: the head has a reserve that its checkpoint names (R333, R507), and it is not in SALVAGE (R512). -/
def State.mayDump (s : State) : Bool := s.med.reserveReady && s.basesSet && s.hlt.mode != .salvage

/-- This head's dump of both regions now; its sequence is one above the checkpoint's (R335). -/
def State.dumpNow (s : State) : DumpImage :=
  let seq := s.ownCheckpointSeq + 1
  let m := s.kpr.owner == .accepted
  { head := s.headNo, seq := seq, byMaster := m, region0 := s.dumpRegion m seq 0 s.ownBase, region1 := s.dumpRegion m seq 1 s.mirrorBase }

/-- Write the dump into the reserve. -/
def State.writeDump (s : State) : State :=
  let d := s.dumpNow
  { s with med := { s.med with dumps := (s.med.dumps.filter fun x => x.head != s.headNo) ++ [d] },
           pwr := { s.pwr with dumpSeq := BitVec.ofNat 64 d.seq } }

/-- Write the dump where one may be written. -/
def State.dumpIfDue (s : State) : State := if s.mayDump then s.writeDump else s

/-- The regions hold an entry that is not FREE (R513). -/
def State.regionsHold (s : State) : Bool := (s.headers s.ownBase ++ s.headers s.mirrorBase).any fun h => h.state != 0

end Sys2Proof.Machine
end

