-- ==== Sys2Proof/Machine/Hosts.lean ====
section
/-! DEFINITION. What the device sends to NVMe/TCP hosts: PDUs, completions and events (R366, R374, R376, R381, R382), and the
end of a queue at its teardown point. -/

namespace Sys2Proof.Machine

/-! ### Statuses (R370) -/

/-- Status type, code and DNR as a completion's status field without its phase bit. -/
def nvmeStatus (type code dnr : Nat) : Nat := code + 256 * type + 2 ^ 14 * dnr

def nsSuccess : Nat := 0
def nsCapacity : Nat := nvmeStatus 0 0x81 0
def nsTransient : Nat := nvmeStatus 0 0x21 0
def nsInvalidNs : Nat := nvmeStatus 0 0x0B 1
def nsNotReady : Nat := nvmeStatus 0 0x82 0
def nsTransition : Nat := nvmeStatus 3 0x03 0
def nsInaccessible : Nat := nvmeStatus 3 0x02 0
def nsDeferred : Nat := nvmeStatus 7 0x80 0
def nsUnrecovered : Nat := nvmeStatus 2 0x81 1
def nsInternal : Nat := nvmeStatus 0 0x06 1
def nsDataDigest : Nat := nvmeStatus 0 0x22 0
def nsRange : Nat := nvmeStatus 0 0x80 1
def nsInvalidOpcode : Nat := nvmeStatus 0 0x01 0
def nsInvalidField : Nat := nvmeStatus 0 0x02 0
def nsSglLength : Nat := nvmeStatus 0 0x0F 0
def nsDenied : Nat := nvmeStatus 0 0x15 0
def nsNoNsid : Nat := nvmeStatus 1 0x16 0
def nsConnectInvalid : Nat := nvmeStatus 1 0x82 0
/-- Command Sequence Error, as the standard gives it for a controller that is not enabled (PRESUMED, log entry 26). -/
def nsSequence : Nat := nvmeStatus 0 0x0C 0

/-! ### Connections and controllers -/

/-- A connection. -/
def State.conn (s : State) (c : Nat) : Conn := Sparse.get Conn.none c s.svc.conns
/-- Replace a connection. -/
def State.setConn (c : Nat) (x : Conn) (s : State) : State := { s with svc := { s.svc with conns := Sparse.set Conn.none c x s.svc.conns } }
/-- Change a connection. -/
def State.modConn (c : Nat) (f : Conn → Conn) (s : State) : State := s.setConn c (f (s.conn c))
/-- A controller by its ID. -/
def State.ctrl (s : State) (id : Nat) : Option Ctrl := (s.svc.ctrls.find? fun p => p.1 == id).map (·.2)
/-- Change a controller. -/
def State.modCtrl (id : Nat) (f : Ctrl → Ctrl) (s : State) : State :=
  { s with svc := { s.svc with ctrls := s.svc.ctrls.map fun p => if p.1 = id then (p.1, f p.2) else p } }

/-- The connection of a controller's admin queue. -/
def State.adminConn (s : State) (id : Nat) : Option Nat :=
  (s.svc.conns.find? fun p => p.2.ctrl == some id && p.2.qid == 0 && ! p.2.ended).map (·.1)

/-! ### Frames and PDUs (R366, R385) -/

/-- A front-end port sends `n` bytes of payload; how many bytes its frames add to them is open (log entry 166). -/
def State.countTx (p n : Nat) (s : State) : State := s.takeFree.bump64 (rEthPort p + 0x18) (n + s.freeWord.toNat)

/-- A front-end port receives frames; how many bytes is open. -/
def State.countRx (p : Nat) (s : State) : State := s.takeFree.bump64 (rEthPort p + 0x10) s.freeWord.toNat

/-- A PDU comes in on a connection. -/
def State.heardPdu (c : Nat) (s : State) : State := s.countRx (s.conn c).port

/-- The common header of a PDU and what follows it: header, header digest, data and data digest, each digest where the connection uses it
(R366; the layout is the standard's, log entry 166). -/
def pduBytes (x : Conn) (type : Nat) (psh data : List Byte) : List Byte :=
  let digests := type != 1 && type != 3
  let h := digests && x.hdgst
  let d := digests && x.ddgst && ! data.isEmpty
  let hlen := 8 + psh.length
  let pdo := hlen + if h then 4 else 0
  let flags := (if h then 1 else 0) + (if d then 2 else 0) + if type = 7 then 4 else 0
  let head := leBytes 1 type ++ leBytes 1 flags ++ leBytes 1 hlen ++ leBytes 1 (if data.isEmpty then 0 else pdo)
    ++ leBytes 4 (pdo + data.length + if d then 4 else 0) ++ psh
  head ++ (if h then leBytes 4 (crc32c head) else []) ++ data ++ if d then leBytes 4 (crc32c data) else []

/-- Send a PDU on a connection. -/
def State.sendPdu (c type : Nat) (psh data : List Byte) (s : State) : State :=
  let b := pduBytes (s.conn c) type psh data
  (s.countTx (s.conn c).port b.length).emit (.pdu c type b)

/-! ### Completions -/

/-- The 16 bytes of a completion: dword 0, SQHD, CID and status; the SQHD of the device's flow control is open (log entry 19). -/
def completionBytes (dw0 sqhd sqid cid status : Nat) : List Byte :=
  leBytes 8 dw0 ++ leBytes 2 sqhd ++ leBytes 2 sqid ++ leBytes 2 cid ++ leBytes 2 (2 * status)

/-- Send a response capsule, if its queue has not ended, and take the command off the queue. -/
def State.capsule (c cid dw0 status : Nat) (s : State) : State :=
  let x := s.conn c
  if x.ended then s
  else (((s.modConn c fun x => { x with cmds := x.cmds.filter fun n => n.cid != cid }).bump64 (nvtBase + 0x10) 1).takeFree).sendPdu c 5
    (completionBytes dw0 (s.freeWord.toNat % 65536) x.qid cid status) []

/-- A write command: Write, Write Zeroes or Dataset Management. -/
def NCmd.writes (n : NCmd) : Bool := n.opcode == 1 || n.opcode == 8 || n.opcode == 9

/-- Flush commands of a queue with no write command submitted before them (R378). -/
def flushesDue : List NCmd → List Nat
  | [] => []
  | n :: t => if n.writes then [] else (if n.opcode = 0 then [n.cid] else []) ++ flushesDue t

/-- Complete a command, and then every Flush that waited for it alone (R378). -/
def State.respond (c cid dw0 status : Nat) (s : State) : State :=
  let t := s.capsule c cid dw0 status
  (flushesDue (t.conn c).cmds).foldl (fun u f => u.capsule c f 0 nsSuccess) t

/-! ### Events (R374, R382) -/

/-- Post an event to a controller: at once while a request is outstanding, else when one comes. -/
def State.postEvent (id event : Nat) (s : State) : State :=
  match s.ctrl id with
  | none => s
  | some k =>
    match k.aers, s.adminConn id with
    | cid :: t, some c => (s.modCtrl id fun k => { k with aers := t }).respond c cid event nsSuccess
    | _, _ => s.modCtrl id fun k => { k with events := k.events ++ [event] }

/-- Asynchronous event dwords: an ANA change, a Namespace Attribute Changed, the vendor event of R382. -/
def eventAna : Nat := 0x2 + 0x03 * 2 ^ 8 + 0x0C * 2 ^ 16
def eventNamespace : Nat := 0x2 + 0x00 * 2 ^ 8 + 0x04 * 2 ^ 16
def eventDeferred : Nat := 0x7 + 0x80 * 2 ^ 8 + 0xC4 * 2 ^ 16

/-- An ANA state change: counted, and announced on every controller that has the event enabled, bit 11 of its
configuration (R374). -/
def State.anaChange (s : State) : State :=
  let s := { s with svc := { s.svc with anaChanges := s.svc.anaChanges + 1 } }
  s.svc.ctrls.foldl (fun t p => if p.2.aerConfig / 2 ^ 11 % 2 = 1 then t.postEvent p.1 eventAna else t) s

/-! ### The end of a queue (R376) -/

/-- An entry has been appended to a cycle: its header carries one (R120). -/
def State.appended (s : State) (no : Nat) : Bool := match s.ownHeader no with
  | some h => decide (2 ≤ h.state)
  | none => false

/-- Decide the commands of a queue at its teardown point: entries not appended are freed, everything but writes with appended
entries stops (R376). -/
def State.endQueue (c : Nat) (s : State) : State :=
  let loose := (s.acc.ring.filter fun e => (match e.cmd with | some p => p.1 == c | none => false) && ! s.appended e.no).map (·.no)
  let s := loose.foldl (fun t no => t.freeEntry no) s
  let s := { s with acc := { s.acc with held := s.acc.held.filter fun p => p.1 != c } }
  let owing := (s.conn c).cmds.filterMap fun n =>
    let left := s.acc.ring.filter fun e => e.cmd == some (c, n.cid) && ! e.freed && e.freedIn.isNone
    if left.isEmpty then none
    else
      let cycle := left.foldl (fun m e => max m (((s.ownHeader e.no).map Header.cycle).getD 0)) 0
      some { n with landing := none, next := n.nblk, ranges := [], cycle := some cycle }
  if owing.isEmpty || ! s.twn.drive then s.setConn c Conn.none else s.modConn c fun x => { x with ended := true, cmds := owing }

/-- A queue ends: from now on nothing is sent on it. The end of an admin queue removes its controller (log entry 20). -/
def State.endConn (c : Nat) (s : State) : State :=
  let x := s.conn c
  let s := s.endQueue c
  match x.ctrl with
  | some id => if x.qid = 0 then { s with svc := { s.svc with ctrls := s.svc.ctrls.filter fun p => p.1 != id } } else s
  | none => s

/-- The device closes a connection. -/
def State.closeConn (c : Nat) (s : State) : State := (s.emit (.tcpClose c)).endConn c

/-- With custody released every teardown is complete (R376). -/
def State.endTeardowns (s : State) : State := { s with svc := { s.svc with conns := Sparse.filter (fun _ x => ! x.ended) s.svc.conns } }

/-- Reads whose blocks are not all decided end with the transition status (R362, R379). -/
def State.endReads (s : State) : State :=
  let due := s.svc.conns.flatMap fun x => (x.2.cmds.filter fun n => n.opcode == 2).map fun n => (x.1, n.cid)
  due.foldl (fun t r => t.respond r.1 r.2 0 nsTransition) s

/-- Every queue ends, on the ports that `p` picks. -/
def State.endConns (p : Nat → Bool) (s : State) : State :=
  (s.svc.conns.filterMap fun q => if p q.2.port then some q.1 else none).foldl (fun t c => t.endConn c) s

end Sys2Proof.Machine
end

