-- ==== Sys2Proof/Machine/Rings.lean ====
section
/-! DEFINITION. The control rings as the supervisor serves them: commands fetched, completion entries, interruption (R491, R492,
R494). -/

namespace Sys2Proof.Machine

/-- Control ring `r`. -/
def State.cring (s : State) (r : Nat) : Ring := Sparse.get Ring.reset r s.ep.rings
/-- Change control ring `r`. -/
def State.modCring (r : Nat) (f : Ring → Ring) (s : State) : State :=
  { s with ep := { s.ep with rings := Sparse.modify Ring.reset r f s.ep.rings } }

/-- ENABLE of a ring. -/
def State.cringEnabled (s : State) (r : Nat) : Bool := s.regBit (rEpCr r + 0x10) 0
/-- Entries of a ring (R495). -/
def State.cringSize (s : State) (r : Nat) : Nat := 2 ^ (s.reg (rEpCr r + 0x10) / 256 % 16 + 4)

def crOk : Nat := 0
def crUnknown : Nat := 1
def crOutOfRange : Nat := 2
def crOnceOnly : Nat := 3
def crRefused : Nat := 4
def crInterrupted : Nat := 5
def crDataFault : Nat := 6

/-- Write bytes to head-host memory as a core of the device does; a write that fails is a bus error. -/
def State.hostWrite (src bus : Nat) (bs : List Byte) (s : State) : Bool × State :=
  let a := hostBase + bus
  match s.writeFault a (List.replicate bs.length true) with
  | some k => (false, s.busError k src a)
  | none => (true, s.performWrite a (bs.map fun b => (true, b)))

/-- A ring whose stop is ordered and whose commands are done goes out of service with its indexes reset (R494). -/
def State.settleRing (r : Nat) (s : State) : State :=
  let x := s.cring r
  if x.stopping ∧ x.fetched.isEmpty then s.modCring r fun _ => Ring.reset else s

/-- A write of 0 to ENABLE. -/
def State.disableRing (r : Nat) (s : State) : State :=
  if ¬ s.cringEnabled r then s else ((s.clearRegBit (rEpCr r + 0x10) 0).modCring r fun x => { x with stopping := true }).settleRing r

/-- Complete the first fetched command of a ring: its entry is written and the ring's vector raised (R491). -/
def State.crEnd (r status res0 res1 : Nat) (s : State) : State :=
  let x := s.cring r
  match x.fetched with
  | [] => s
  | c :: t =>
    let entry := leBytes 2 status ++ leBytes 2 (if x.phase then 1 else 0) ++ slice c 4 4 ++ leBytes 8 res0 ++ leBytes 8 res1
      ++ leBytes 4 x.subHead ++ zeros 4
    let next := (x.cplTail + 1) % s.cringSize r
    let (_, s) := s.hostWrite 0 (s.reg64 (rEpCr r + 8) + 32 * x.cplTail) entry
    let s := s.modCring r fun x =>
      { x with fetched := t, busy := false, cplTail := next, phase := if next = 0 then ! x.phase else x.phase }
    (s.raiseVector r).settleRing r

/-- A command that ends with UNKNOWN: its OPCODE is unassigned, or a zero field is not zero (R491, R492). -/
def badRingCommand (c : List Byte) : Bool :=
  leAt c 0 2 == 0 || decide (13 < leAt c 0 2) || leAt c 2 2 != 0 || leAt c 44 8 != 0 || leAt c 52 8 != 0 || leAt c 60 4 != 0

/-- Complete the unknown commands at the front of a ring, at most `fuel`. -/
def State.sweepRing (r : Nat) : Nat → State → State
  | 0, s => s
  | fuel + 1, s =>
    match (s.cring r).fetched with
    | c :: _ => if ! (s.cring r).busy && badRingCommand c then (s.crEnd r crUnknown 0 0).sweepRing r fuel else s
    | [] => s

/-- Complete the first fetched command, and the unknown ones behind it. -/
def State.crComplete (r status res0 res1 : Nat) (s : State) : State :=
  (s.crEnd r status res0 res1).sweepRing r (s.cring r).fetched.length

/-- Complete a command that was left in execution, if it is still the one. -/
def State.crFinish (r status res0 : Nat) (s : State) : State := if (s.cring r).busy then s.crComplete r status res0 0 else s

/-- Complete up to `n` fetched commands of a ring with INTERRUPTED. -/
def State.interruptRing (r : Nat) : Nat → State → State
  | 0, s => s
  | n + 1, s => State.interruptRing r n (s.crComplete r crInterrupted 0 0)

/-- No answer is owed to a control ring any more. -/
def State.forgetRings (s : State) : State :=
  let keep (a : Nat × Answer) : Bool := match a.2 with
    | .capsule _ _ _ => true
    | _ => false
  { s with
    acc := { s.acc with answers := s.acc.answers.filter keep },
    snp := { s.snp with orders := s.snp.orders.map (fun o => { o with reply := none }),
                        shipments := s.snp.shipments.map (fun o => { o with reply := none }),
                        restarts := s.snp.restarts.map (fun o => { o with reply := none }),
                        seals := s.snp.seals.map fun j => { j with ring := none } } }

/-- The supervisor's core is fenced: every fetched command is completed with INTERRUPTED, and orders given for them are dropped
(R494). -/
def State.interruptRings (s : State) : State :=
  [0, 1, 2, 3].foldl (fun t r => t.interruptRing r (t.cring r).fetched.length) s.forgetRings

/-- The namespace of a view, 0 where the view is gone. -/
def Catalogue.nsidOf (c : Catalogue) (v : Nat) : Nat := ((c.views.find? fun x => x.view == v).map View.nsid).getD 0

/-- Custody of some namespaces goes: their snapshot orders not yet queued are refused, and their streams and seals end (R469, R472, R476). -/
def State.dropOrdersOf (gone : Nat → Bool) (s : State) : State :=
  let lost (o : SnapOrder) : Bool := gone o.nsid && ! o.queued
  let rings := s.snp.orders.filterMap (fun o => if lost o then o.reply else none)
    ++ (s.snp.shipments ++ s.snp.restarts).filterMap (fun x => if gone x.nsid then x.reply else none)
    ++ s.snp.seals.filterMap fun j => if gone (s.cat.nsidOf j.view) then j.ring else none
  let keep := fun (x : Shipment) => ! gone x.nsid
  let s := { s with snp := { s.snp with orders := s.snp.orders.filter (fun o => ! lost o), shipments := s.snp.shipments.filter keep,
                                        restarts := s.snp.restarts.filter keep,
                                        seals := s.snp.seals.map fun j => if gone (s.cat.nsidOf j.view) then { j with gone := true, ring := none } else j,
                                        inbound := s.snp.inbound.filter fun x => ! gone x.nsid } }
  rings.foldl (fun t r => t.crFinish r crRefused 0) s

/-- Custody goes: orders not yet queued and answers not yet due are refused, and the streams of this head end (R469, R476). -/
def State.dropOrders (s : State) : State :=
  let answers := s.acc.answers
  let s := ({ s with acc := { s.acc with answers := [] } } : State).dropOrdersOf fun _ => true
  answers.foldl (fun t a => match a.2 with
    | .capsule c cid _ => t.respond c cid 0 nsTransition
    | .ring r _ => t.crFinish r crRefused 0
    | .snapshot r _ => t.crFinish r crRefused 0) s

/-- This head holds a set. -/
def State.holdsSet (s : State) (b : Bool) : Bool := if b then s.twn.setB else s.twn.setA

/-- The custody set of a namespace is held. -/
def State.holdsNamespace (s : State) (nsid : Nat) : Bool := s.holdsSet (Sparse.get Namespace.none nsid s.cat.namespaces).groupB

/-- A head that has come to hold a namespace starts the streams that the other head ran for it again (R476). -/
def State.takeShipments (s : State) : State :=
  let mine (x : Shipment) : Bool := s.holdsSet (Sparse.get Namespace.none x.nsid s.cat.namespaces).groupB
  let due := (s.snp.partnerShips.filter mine).map fun x => { x with reply := none }
  { s with snp := { s.snp with restarts := s.snp.restarts ++ due, partnerShips := s.snp.partnerShips.filter fun x => ! mine x } }

end Sys2Proof.Machine
end

