-- ==== Sys2Proof/Machine/Roles.lean ====
section
/-! DEFINITION. The roles of the stream cores (R62, R63) and what follows when a core that holds one is fenced (R64). -/

namespace Sys2Proof.Machine

/-! ### Who runs what -/

/-- Some stream core of cluster `c` is in service (R57, R59). -/
def State.clusterInService (s : State) (c : Nat) : Bool :=
  ! s.clusterFenced c && (List.range 8).any fun n => ! s.coreFenced (8 * c + n)

/-- Stream cores in service, in increasing order (R63). -/
def State.coresInService (s : State) : List Nat := (List.range 96).filter fun k => ! s.coreFenced k
/-- The core the supervisor runs on: the lowest-numbered core in service of the lowest-numbered cluster (R63). -/
def State.supervisorCore (s : State) : Option Nat := s.coresInService.head?
/-- The ledger role's core: the next core in service (R63). -/
def State.ledgerCore (s : State) : Option Nat := (s.coresInService.drop 1).head?
/-- A supervisor runs: an image verified and a core is in service (R499, R514). -/
def State.supervisorRuns (s : State) : Bool := s.hlt.imageOk && s.supervisorCore.isSome

/-- The role of core `k` with all clusters in service (R62). -/
def tableRole (k : Nat) : Role :=
  if k = 0 then .supervisor
  else if k = 1 then .ledger
  else if k < 16 then .intake
  else if k < 40 then .placement
  else if k < 64 then .retrieval
  else if k < 72 then .catalogue
  else if k < 80 then .media
  else if k < 88 then .replication
  else .rebuild

/-- The order of roles on the cores of the one cluster left (R63). -/
def lastRole (i : Nat) : Role := [Role.supervisor, .ledger, .intake, .intake, .placement, .placement, .retrieval].getD i .shared

/-- The role of the `i`-th of `n` cores in service: the first two hold supervisor and ledger, and the others stand in the table's order, each
role with its share (R63). How fractions of a share fall is open: the `i`-th of the `n` cores holds what the core at the same fraction of the
table does (DESIGN CHOICE, log entry 148). -/
def spreadRole (one : Bool) (i n : Nat) : Role :=
  if one then lastRole i else if i < 2 then tableRole i else tableRole (2 + (i - 2) * 94 / (n - 2))

/-- The roles among the cores in service (R62, R63). -/
def State.assignment (s : State) : List (Nat × Role) :=
  let l := s.coresInService
  let one := ((List.range 12).filter s.clusterInService).length == 1
  l.zipIdx.map fun p => (p.1, spreadRole one p.2 l.length)

/-- The supervisor writes the role table (R63, R64). -/
def State.assignRoles (s : State) : State := { s with roles := s.assignment }

/-! ### Work that a fenced core held (R64) -/

/-- The cores that hold a role, by the table in the stream pool. -/
def State.coresOf (s : State) (r : Role) : List Nat := (s.roles.filter fun p => p.2 == r).map (·.1)

/-- The core that holds the commands of a connection, Reads on a retrieval core and the others on an intake core; which core of the role it
is, is open, and the model goes by the connection's number (DESIGN CHOICE, log entry 149). -/
def State.holderOf (s : State) (c : Nat) (n : NCmd) : Option Nat :=
  let l := s.coresOf (if n.opcode = 2 then .retrieval else .intake)
  l[c % max 1 l.length]?

/-- The command is a write whose entries are in a confirmed record: the ledger role acknowledges it. -/
def State.inConfirmed (s : State) (n : NCmd) : Bool :=
  match n.cycle with
  | some c => s.acc.own.any fun r => r.cycle == c && r.confirmed
  | none => false

/-- End a write command with a status; entries of its own that are not appended are freed (R121). -/
def State.failWrite (c cid st : Nat) (s : State) : State :=
  let loose := (s.acc.ring.filter fun e => e.cmd == some (c, cid) && ! s.appended e.no).map (·.no)
  let s := loose.foldl (fun t no => t.freeEntry no) s
  { s with acc := { s.acc with held := s.acc.held.filter fun p => p != (c, cid) } }.respond c cid 0 st

/-- The host commands that some cores hold end with the transient status, but for those the ledger role acknowledges; with a core of the
placement role, placement starts over with every entry not yet freed (R64). -/
def State.loseCores (ks : List Nat) (s : State) : State :=
  let due := s.svc.conns.flatMap fun x => (x.2.cmds.filter fun n =>
    (match s.holderOf x.1 n with
     | some k => ks.contains k
     | none => false) && ! s.inConfirmed n).map fun n => (x.1, n.cid)
  let t := due.foldl (fun t w => t.failWrite w.1 w.2 nsTransient) s
  if s.roles.any fun p => ks.contains p.1 && p.2 == .placement then { t with acc := { t.acc with restart := true } } else t

end Sys2Proof.Machine
end

