-- ==== Sys2Proof/Machine/Governor.lean ====
section
/-! DEFINITION. Mode changes (R509), custody release by the health governor (R447, R448), fencing (R30, R31) and the keeper's
alarms (R529). -/

namespace Sys2Proof.Machine

/-! ### Requesters of register space that are no engine of R61's coding -/

/-- The head-host endpoint (R61). -/
def srcHost : Nat := 0x7C
/-- The health governor, for a register write of its own; the model's own code, outside the coding of R61. -/
def srcGovernor : Nat := 0xF00

/-! ### Modes -/

/-- The code of a mode (R508). -/
def Mode.code : Mode → Nat
  | .safe => 0 | .restore => 1 | .paired => 2 | .solo => 3 | .salvage => 4 | .quiesce => 5

/-- The head holds custody of some set (R444). -/
def State.holdsCustody (s : State) : Bool := s.twn.drive

/-- Change the mode without raising a vector. -/
def State.putMode (m : Mode) (f : QForm) (s : State) : State :=
  { s with hlt := { s.hlt with mode := m, form := f, drained := s.hlt.drained && decide (m = .quiesce) } }

/-- A change of the mode raises MSI-X vector 5 (R509). -/
def State.setMode (m : Mode) (f : QForm) (s : State) : State :=
  if s.hlt.mode = m then s.putMode m f else (s.putMode m f).raiseVector 5

/-! ### Links that SAFE holds down (R500) -/

/-- This head's port of every carrier: 0 on head 0, 1 on head 1 (R386). -/
def State.ownPort (s : State) : Nat := if s.hlt.head then 1 else 0

/-- A port of a carrier. -/
def Carrier.port (c : Carrier) (p : Nat) : CPort := if p = 0 then c.port0 else c.port1
/-- Replace a port of a carrier. -/
def Carrier.setPort (p : Nat) (x : CPort) (c : Carrier) : Carrier :=
  if p = 0 then { c with port0 := x } else { c with port1 := x }

/-- The media, CXL and front-end Ethernet links go down (R500). -/
def State.linksDown (s : State) : State :=
  let p := s.ownPort
  let cars := s.carriers.map fun (slot, c) =>
    (slot, { (c.setPort p { c.port p with linkUp := false, ready := false }) with inService := false })
  let s := { s with carriers := cars }
  let s := [0, 1, 2, 3].foldl (fun t i => t.clearRegBit (rCxlPort i) 0) s
  ((List.range 16).foldl (fun t i => t.clearRegBit (rEthPort i) 0) s).endConns fun _ => true

/-- Root ports of block `b` are divided as this block's MODE says, the odd one of a joined pair as the even one's (R561). -/
def State.modeBlock (s : State) (b : Nat) : Nat := if b % 2 = 1 ∧ s.reg (rMedBlk (b - 1)) = 4 then b - 1 else b

/-- The block's MED_PERST_N may be high: MED_BLK_MODE is written, the clock has been stable for 100 ms, and no fence holds it (R567). -/
def State.perstReleased (s : State) (b : Nat) : Bool :=
  s.pin.medModeSet.getLsbD (s.modeBlock b) && ! s.regBit (rMedBlk b + 4) 0 && s.pwr.clkMed && s.passed s.pwr.clkMedSince 100000000

/-- The same for CXL port `p`. -/
def State.cxlPerstReleased (s : State) (p : Nat) : Bool :=
  s.pin.cxlModeSet && decide (p < 2 ^ (s.reg rCxlMode % 4)) && ! s.regBit (rCxlPortFence p) 0 && s.pwr.clkCxl && s.passed s.pwr.clkCxlSince 100000000

/-- Outside SAFE the device releases the resets that may be released (R567). -/
def State.releasePerst (s : State) : State :=
  if s.hlt.mode = .safe then s
  else
    let bits (n : Nat) (free : Nat → Bool) : Nat := ((List.range n).map fun i => if free i then 0 else 2 ^ i).foldl (· + ·) 0
    { s with pin := { s.pin with medPerst := BitVec.ofNat 12 (bits 12 s.perstReleased), cxlPerst := BitVec.ofNat 4 (bits 4 s.cxlPerstReleased) } }

/-! ### Custody release -/

def causeWorkingSet : Nat := 0x01
def causeBufferChannel : Nat := 0x02
def causePowerLoss : Nat := 0x03
def causeKeeperAlarm : Nat := 0x04
def causeThermal : Nat := 0x05
def causeSupervisorSilent : Nat := 0x06
def causeMetadataFault : Nat := 0x07
def causeTwinLost : Nat := 0x08
def causeConfirmStall : Nat := 0x09
def causeLevelRefused : Nat := 0x0A
def causeHostOrder : Nat := 0x0B
def causeHandover : Nat := 0x0C
def causeImageActivation : Nat := 0x0D

/-- A scheduled activation is cancelled with NOT_PAIRED (R541). -/
def State.cancelActivation (s : State) : State :=
  match s.kpr.scheduled with
  | some _ => { s with kpr := { s.kpr with scheduled := none, handoverSent := false, updResult := 0x0B } }
  | none => s

/-- The mode a head enters on a custody release or a cause that meets it without custody (R509). -/
def State.modeAfter (cause : Nat) (s : State) : State :=
  if cause = causeHandover then s.setMode .quiesce .handover
  else if cause = causeMetadataFault then
    (if s.hlt.mode = .paired ∨ s.hlt.mode = .solo ∨ s.hlt.mode = .restore ∨ s.hlt.mode = .quiesce
     then s.setMode .salvage .none else s)
  else if s.hlt.mode = .paired ∨ s.hlt.mode = .solo ∨ s.hlt.mode = .quiesce then
    (({ s with hlt := { s.hlt with safeCause := 5, safeAt := s.elapsed, restored := false, joined := false } }.linksDown).setMode
      .safe .none)
  else s

/-- What the governor records when it deasserts `CUSTODY_HOLD_N`; the ledger stops, and the group of the head's own set goes to
Change (R373, R447, R448, R464). -/
def State.dropCustody (cause : Nat) (s : State) : State :=
  let s := { s with acc := { s.acc with running := false }, snp := { s.snp with registrar := false }, svc := { s.svc with changeSince := some s.elapsed, taking := false } }.dropOrders.endReads.endTeardowns.anaChange
  { s with twn := { s.twn with drive := false, setA := false, setB := false, govCause := cause,
                               govCount := satAt 255 (s.twn.govCount + 1), govTime := s.elapsed,
                               releasedAt := some s.elapsed, cleanRun := 0, phase := .idle, awaiting := none } }

/-- A head that held both sets dumps its regions on a metadata fault, before it serves any read in SALVAGE (R512). -/
def State.salvageDump (cause : Nat) (s : State) : State :=
  if cause = causeMetadataFault ∧ s.twn.setA ∧ s.twn.setB then s.dumpIfDue else s

/-- A second cause in the clock of a release is recorded where its code is lower (R447). -/
def State.alsoCause (cause : Nat) (s : State) : State :=
  if s.twn.releasedAt = some s.elapsed ∧ cause < s.twn.govCause then { s with twn := { s.twn with govCause := cause } } else s

/-- The health governor releases custody, or moves a head that holds none as R509 says (R447, R448). -/
def State.releaseCustody (cause : Nat) (s : State) : State :=
  let t := if cause = causeHandover ∨ cause = causeImageActivation then s else s.cancelActivation
  if s.holdsCustody then
    let d := (t.salvageDump cause).dropCustody cause
    let u := d.modeAfter cause
    if u.hlt.mode = s.hlt.mode then u.raiseVector 5 else u
  else (t.alsoCause cause).modeAfter cause

/-! ### Fencing -/

/-- Some unit of a class is in service. -/
def State.anyUnit (s : State) (cls : Nat) : Bool := (List.range (classUnits cls)).any fun u => ! s.unitFenced cls u

/-- The carriers in service on this head, by slot. -/
def State.carriersInService (s : State) : List Nat := (Sparse.filter (fun _ c => c.inService) s.carriers).map (·.1)

/-- The units of the smallest working set for data service that a start does not bring up last: clusters, LPDDR channels 0 and 1, and one
unit of each class (R514). -/
def State.workingUnits (s : State) : Bool :=
  ((List.range 12).any s.clusterInService) && s.lpdInService % 4 == 3
    && s.anyUnit clsCoder && s.anyUnit clsDigest && s.anyUnit clsCipher && s.anyUnit clsParity && s.anyUnit clsDma
    && s.anyUnit clsCatalogue && s.anyUnit clsSequencer
    && ((List.range 16).any fun i => (s.core (100 + i)).run != .dead)
    && ((List.range 16).any fun p => ! s.regBit (rEthPortFence p) 0)

/-- The smallest working set for data service is covered (R514). -/
def State.workingSet (s : State) : Bool := s.workingUnits && decide (6 ≤ s.carriersInService.length)

/-- After a fence by the health governor, custody goes when the working set is no longer covered (R31). -/
def State.afterFence (src : Nat) (s : State) : State :=
  if src = srcGovernor ∧ s.holdsCustody ∧ ¬ s.workingSet then s.releaseCustody causeWorkingSet else s

/-- Fence stream core `k`: issue stops, RUN goes to 0, outstanding accesses stay owed (R58). -/
def State.stopForFence (k : Nat) (s : State) : State :=
  (s.clearRegBit (rStcClCtl (k / 8)) (k % 8)).modCore k fun c => { c with run := .dead, waiting := .issuing }

/-- The watchdog's count of engine `k` has reached `us` µs since its last restart (R54). -/
def State.wdogReached (s : State) (k us : Nat) : Bool := s.passed (s.core k).wdogStart (us * 1000)

/-- The watchdog of engine `k` expires in this clock: it runs, and its count has reached the limit (R54). -/
def State.wdogDue (s : State) (k : Nat) : Bool :=
  (s.core k).run == .running && (s.core k).wdogLimit != 0 && s.wdogReached k (s.core k).wdogLimit.toNat

/-- A fence in the clock in which the core's watchdog expires records the expiry too, and the double fault that it is in a handler (R54, R60). -/
def State.recordExpiry (k : Nat) (s : State) : State :=
  if s.wdogDue k then
    (let t := s.setRegBit (rStcClFault (k / 8)) (8 + k % 8)
     if (s.core k).inExc then t.setRegBit (rStcClFault (k / 8)) (k % 8) else t)
  else s

/-- Record the fence of a stream core and stop it (R57, R58, R60). -/
def State.markFenced (k : Nat) (s : State) : State := ((s.recordExpiry k).setRegBit (rStcClFence (k / 8)) (k % 8)).stopForFence k

/-- After fences: with the supervisor's core its commands are interrupted (R494), and the supervisor assigns the roles anew (R63). `old` is
the supervisor's core before. -/
def State.afterCores (old : Option Nat) (s : State) : State :=
  (if old ≠ s.supervisorCore then s.interruptRings else s).assignRoles

/-- Fence a stream core: what it holds is lost or taken over, and roles move (R58, R60, R63, R64). -/
def State.fenceCore (k : Nat) (s : State) : State := ((s.loseCores [k]).markFenced k).afterCores s.supervisorCore

/-- ns of throttling since the cold start (R584). -/
def State.slowTotal (s : State) : Nat := s.pwr.slow + if s.pwr.throttled then s.elapsed.toNat - s.pwr.throttledAt.toNat else 0

/-- Clocks of engine `k` in `ns`, of which a stream core was throttled to 1.0 GHz for `slow` (R20, R46, R584). -/
def clockCount (k ns slow : Nat) : Nat :=
  match engineKind k with
  | .stream => 2 * ns - slow
  | .keeper => 2 * ns / 5
  | .packet => 5 * ns / 4
  | .sequencer => ns

/-- `STC_CYCLES` of engine `k` (R46); it stands still once the cluster's clock has stopped (R59). -/
def State.coreClocks (s : State) (k : Nat) : Nat :=
  match (s.core k).clockHeld with
  | some n => n
  | none => clockCount k (s.elapsed.toNat - (s.core k).startedAt.toNat) (s.slowTotal - (s.core k).startedSlow)

/-- The clock of core `k` stops with its cluster's (R59). -/
def State.holdClock (k : Nat) (s : State) : State := s.modCore k fun c => { c with clockHeld := some (s.coreClocks k) }

/-- Fence a cluster: its eight cores are fenced and its clock stops (R59). -/
def State.fenceCluster (c : Nat) (s : State) : State :=
  let ks := (List.range 8).map (8 * c + ·)
  (ks.foldl (fun t k => (t.markFenced k).holdClock k) ((s.loseCores ks).setRegBit (rStcClFence c) 8)).afterCores s.supervisorCore

/-- A unit's commands in service end with a status; those queued stay (R220, R259). -/
def State.endUnitService (cls st : Nat) (s : State) : State :=
  (List.range (classUnits cls)).foldl (fun t u => t.modUnit cls u fun e => e.endService st false s.elapsed) s

/-! ### Keeper alarms (R528, R529) -/

def alarmLid : Nat := 1
def alarmVoltage : Nat := 2
def alarmClock : Nat := 3
def alarmTemperature : Nat := 4
def alarmKeeperFault : Nat := 5
def alarmSelfTest : Nat := 6
def alarmZeroise : Nat := 7

/-- The digest and cipher units and their key tables are cleared (R220, R259). -/
def State.clearKeyUnits (s : State) : State :=
  let s := (s.endUnitService clsDigest 0x0101).endUnitService clsCipher 0x0101
  { (s.bump rDgtAlarmCount 1).bump rCphAlarmCount 1 with digestKeys := [], cipherSlots := [], cipherCtx := [] }

/-- The mailbox buffer is zeroed. -/
def State.zeroMailbox (s : State) : State := (List.range 256).foldl (fun t i => t.setReg (rSecMbBuf i) 0) s

/-- What the keeper does in the clock in which it raises an alarm (R529, R530). -/
def State.alarmNow (code : Nat) (s : State) : State :=
  let s := s.clearKeyUnits.zeroMailbox
  let s := { s with twn := { s.twn with unclean := s.twn.unclean ||| 0x80 } }
  let s := { s with kpr := { s.kpr with
      os := [], km := [], shares := [], owner := .none,
      tampered := s.kpr.tampered || code == alarmLid,
      alarms := if s.kpr.alarms.contains code then s.kpr.alarms else s.kpr.alarms ++ [code],
      lastAlarm := code, alarmCount := satAt 255 (s.kpr.alarmCount + 1), alarmClearAt := s.elapsed } }
  s.releaseCustody causeKeeperAlarm

/-- Raise an alarm; during the dump phase all but LID wait for the LAST row (R529). -/
def State.keeperAlarm (code : Nat) (s : State) : State :=
  if (s.pwr.phase = .dump ∨ s.pwr.phase = .close) ∧ code ≠ alarmLid then
    { s with kpr := { s.kpr with heldAlarms := s.kpr.heldAlarms ++ [code] } }
  else s.alarmNow code

end Sys2Proof.Machine
end

