-- ==== Sys2Proof/Machine/AtpQueues.lean ====
section
/-! DEFINITION. The Avenfy transport's regions and queue pairs as its registers move them: regions made current and revoked (R425 to
R428), setup and state of queue pairs (R429, R430), their rings (R437, R438) and the context cache (R435). -/

namespace Sys2Proof.Machine

/-! ### Regions (R425, R428) -/

/-- Bytes of the region table. -/
def regionTableBytes : Nat := 0x4000000

/-- Address of a region table entry. -/
def State.regionEntryAddr (s : State) (index : Nat) : Nat := s.reg64 rAtpRegionBase + 64 * index

/-- The region table entry in force, all zero where none is current or no table is set. -/
def State.region (s : State) (index : Nat) : List Byte :=
  if s.reg64 rAtpRegionBase = 0 ∨ index = 0 then zeros 64 else padTo 64 (Sparse.get [] index s.atp.regions)

def regBase (e : List Byte) : Nat := leAt e 0 8 % 2 ^ 48
def regLen (e : List Byte) : Nat := leAt e 8 8 % 2 ^ 41
def regGen (e : List Byte) : Nat := leAt e 16 2 % 4096
def regState (e : List Byte) : Nat := leAt e 18 1
/-- CHECK of a region entry holds. -/
def regCheckOk (e : List Byte) : Bool := leAt e 60 4 == crc32c (patch e 60 (zeros 4))

/-- An entry with another STATE, its CHECK computed anew. -/
def regWithState (st : Nat) (e : List Byte) : List Byte :=
  let e := patch (patch e 18 (leBytes 1 st)) 60 (zeros 4)
  patch e 60 (leBytes 4 (crc32c e))

/-- Write an entry to the table and make it current. -/
def State.putRegion (index : Nat) (e : List Byte) (s : State) : State :=
  let s := { s with atp := { s.atp with regions := Sparse.set [] index e s.atp.regions } }
  s.performWrite (s.regionEntryAddr index) (e.map fun b => (true, b))

/-- The supervisor zeroes the region table once the base is set after a start (R425). -/
def State.zeroRegions (s : State) : State :=
  let a := s.reg64 rAtpRegionBase
  if a = 0 ∨ s.atp.zeroed ∨ ¬ s.supervisorRuns then s
  else { s with atp := { s.atp with zeroed := true },
                mem := Sparse.filter (fun k _ => ! (decide (a ≤ k) && decide (k < a + regionTableBytes))) s.mem }

/-- Make a table entry current; translations for a region in head-host memory are asked for (R425, R427). -/
def State.syncRegion (index : Nat) (s : State) : State :=
  if s.reg64 rAtpRegionBase = 0 ∨ ¬ s.atp.zeroed ∨ index = 0 then s
  else
    let e := s.bytes (s.regionEntryAddr index) 64
    let s := { s with atp := { s.atp with regions := Sparse.set [] index e s.atp.regions } }
    if regState e = 1 ∧ hostBase ≤ regBase e then s.askTranslations (s.hostMisses (regBase e) (regLen e) (leAt e 19 1 % 2 == 1)) else s

/-- Revoke the region of a key (R428). -/
def State.revokeKey (key : Nat) (s : State) : State :=
  let e := s.region (key / 4096)
  if regState e = 1 ∧ regGen e = key % 4096 then s.putRegion (key / 4096) (regWithState 2 e) else s

/-- Revoke every VALID region that meets a range of memory. -/
def State.revokeRange (a n : Nat) (s : State) : State :=
  (Sparse.filter (fun _ e => regState e == 1 && decide (regBase e < a + n) && decide (a < regBase e + regLen e)) s.atp.regions).foldl
    (fun t p => t.putRegion p.1 (regWithState 2 p.2)) s

/-- Every access a REVOKING region owes has returned: its STATE becomes FREE. -/
def State.freeRegion (index : Nat) (s : State) : State :=
  let e := s.region index
  if regState e = 2 then s.putRegion index (regWithState 0 e) else s

/-! ### Queue pairs (R429) -/

/-- A queue pair. -/
def State.qp (s : State) (q : Nat) : QPair := Sparse.get QPair.idle q s.atp.qps
/-- Change a queue pair. -/
def State.modQp (q : Nat) (f : QPair → QPair) (s : State) : State :=
  { s with atp := { s.atp with qps := Sparse.modify QPair.idle q f s.atp.qps } }

def QPair.path (q : QPair) : Nat := leAt q.setup 5 1
def QPair.pin (q : QPair) : Bool := leAt q.setup 6 1 / 2 % 2 == 1
def QPair.cc (q : QPair) : Bool := leAt q.setup 6 1 / 4 % 2 == 1
/-- P (R418). -/
def QPair.payload (q : QPair) : Nat := 1024 * 2 ^ (leAt q.setup 7 1 % 4)
def QPair.conn (q : QPair) : Nat := leAt q.setup 20 2
def QPair.window (q : QPair) : Nat := leAt q.setup 22 2
/-- RTO_MIN in ns (R429). -/
def QPair.rtoMin (q : QPair) : Nat := leAt q.setup 76 4
def QPair.ringBase (q : QPair) : Nat := leAt q.setup 64 8 % 2 ^ 48
def QPair.ringSize (q : QPair) : Nat := leAt q.setup 72 4
/-- It sends and receives. -/
def QPair.active (q : QPair) : Bool := q.state == 1 || q.state == 2

/-- Write STATE through to the context image (R430). -/
def State.putQpState (q st : Nat) (s : State) : State :=
  let s := s.modQp q fun x => { x with state := st }
  let a := s.reg64 rAtpQpTableBase + 2048 * q + 4
  match s.writeFault a [true] with
  | some k => s.busError k 0xFF a
  | none => s.performWrite a [(true, BitVec.ofNat 8 st)]

/-- Requests posted and not yet taken from the ring. -/
def QPair.posted (x : QPair) : Nat := (x.tail + x.ringSize - x.taken % max 1 x.ringSize) % max 1 x.ringSize

/-- The block of the next request of a queue pair's ring. -/
def State.nextBlock (s : State) (q : Nat) : Vec :=
  let x := s.qp q
  BitVec.ofNat 512 (ofLe (s.bytes (x.ringBase + 64 * (x.taken % max 1 x.ringSize)) 64))

/-- Take the next request with a status that ends it at once. -/
def State.takeEnded (q st : Nat) (s : State) : State :=
  let b := s.nextBlock q
  let r (x : QPair) : WorkReq := { seq := x.taken + 1, block := b, first := x.nextPsn, count := 0, data := [], status := st, moved := 0, ended := true }
  s.modQp q fun x => { x with taken := x.taken + 1, reqs := x.reqs ++ [r x] }

/-- Take up to `n` posted requests, each ended with a status. -/
def State.takeAllEnded (q st : Nat) : Nat → State → State
  | 0, s => s
  | n + 1, s => State.takeAllEnded q st n (s.takeEnded q st)

/-- A request is complete: ended, or every PSN of it answered. -/
def QPair.complete (x : QPair) (r : WorkReq) : Bool :=
  r.ended || ! x.psns.any fun p => decide ((p.psn + 2 ^ 32 - r.first) % 2 ^ 32 < r.count)

/-- Every request not complete ends with a status, the posted ones too; nothing is sent any more (R430, R433). -/
def State.endRequests (q st : Nat) (s : State) : State :=
  let x := s.qp q
  let s := s.modQp q fun x =>
    { x with reqs := x.reqs.map fun r => if x.complete r then { r with ended := true } else { r with status := st, ended := true } }
  (s.takeAllEnded q st x.posted).modQp q fun x => { x with psns := [], timer := none }

/-- RESET: to IDLE from any state; received state is dropped. -/
def State.resetQp (q : Nat) (s : State) : State :=
  if (s.qp q).state = 0 then s
  else ((s.endRequests q stAborted).modQp q fun x =>
    { x with heldPkts := [], got := [], refusedSince := false, unacked := 0, ackDue := none }).putQpState q 0

/-- A draining queue pair whose last request is complete goes to IDLE. -/
def State.settleDrain (q : Nat) (s : State) : State :=
  let x := s.qp q
  if x.state = 2 ∧ x.posted = 0 ∧ x.reqs.isEmpty then s.putQpState q 0 else s

/-- DRAIN: a READY queue pair completes what is posted. -/
def State.drainQp (q : Nat) (s : State) : State := if (s.qp q).state = 1 then (s.putQpState q 2).settleDrain q else s

/-- The streams of a queue pair end; a shipment on it is to be repeated (R476). -/
def State.endStreams (q : Nat) (s : State) : State :=
  let lost := s.snp.shipments.filter fun x => x.peer == q
  { s with snp := { s.snp with shipments := s.snp.shipments.filter (fun x => x.peer != q), restarts := s.snp.restarts ++ lost,
                               inbound := s.snp.inbound.filter fun x => x.peer != q } }

/-- The queue pair enters ERROR; what is not complete ends with PEER_LOST (R433), and the streams on it end. -/
def State.errorQp (q : Nat) (s : State) : State := ((s.endRequests q 0x0104).putQpState q 3).endStreams q

/-! ### The context cache (R435) -/

/-- Contexts on chip, and pinned ones. -/
def maxContexts : Nat := 16384
/-- Pinned contexts on chip. -/
def State.pinned (s : State) : Nat := (s.atp.cached.filter fun q => (s.qp q).pin).length

/-- Bytes a packet takes in the miss buffer. -/
def RxPkt.size (p : RxPkt) : Nat := 36 + p.data.length
/-- Bytes held in the miss buffer. -/
def State.missBytes (s : State) : Nat := ((s.atp.loads.flatMap fun l => l.packets).map RxPkt.size).foldl (· + ·) 0

/-- Use a context on chip: it becomes the most recently used. -/
def State.touchQp (q : Nat) (s : State) : State :=
  if s.atp.cached.contains q then { s with atp := { s.atp with cached := s.atp.cached.filter (fun x => x != q) ++ [q] } } else s

/-- The context to evict: least recently used, not pinned, with no load and no packet waiting. -/
def State.victim (s : State) : Option Nat :=
  s.atp.cached.find? fun q => ! (s.qp q).pin && ! s.atp.loads.any fun l => l.qp == q

/-- Start the load of a context that is not on chip, after an eviction where the cache is full; `ready` for a READY command. -/
def State.startLoad (q : Nat) (ready : Bool) (s : State) : State :=
  if s.atp.cached.contains q ∨ s.atp.loads.any (fun l => l.qp == q) then s
  else
    let full := decide (maxContexts ≤ s.atp.cached.length + s.atp.loads.length)
    let v := if full then s.victim else none
    let cached := match v with
      | some x => s.atp.cached.filter fun y => y != x
      | none => s.atp.cached
    { s with atp := { s.atp with cached := cached, loads := s.atp.loads ++ [{ qp := q, victim := v, packets := [], ready := ready }] } }

/-- READY: an IDLE queue pair of the table with the setup read from its image (R430); discarded for a 1,025th pinned one (R435). -/
def State.readyQp (q : Nat) (setup : List Byte) (s : State) : State :=
  let pins := leAt setup 6 1 / 2 % 2 == 1
  let others := { s with atp := { s.atp with cached := s.atp.cached.filter fun x => x != q } }
  if s.reg rAtpQpMax ≤ q ∨ (s.qp q).state ≠ 0 ∨ (pins ∧ 1024 ≤ others.pinned) then s
  else
    let s := s.modQp q fun x =>
      { QPair.idle with setup := padTo 128 setup, reqs := x.reqs, nextPsn := leAt setup 12 4, expect := leAt setup 16 4,
                        rto := leAt setup 76 4, limit := s.setting 0x0802 0 16, rateAt := s.elapsed }
    let s := if s.atp.cached.contains q then s.touchQp q
      else
        let s := if maxContexts ≤ s.atp.cached.length then
            (match s.victim with
            | some v => { s with atp := { s.atp with cached := s.atp.cached.filter fun y => y != v } }
            | none => s)
          else s
        { s with atp := { s.atp with cached := s.atp.cached ++ [q] } }
    s.putQpState q 1

/-- A doorbell: the tail of a queue pair in service (R437); none is taken while it drains (R430). -/
def State.atpDoorbell (q tail : Nat) (s : State) : State :=
  let x := s.qp q
  if x.state = 1 then (s.modQp q fun x => { x with tail := tail % max 1 x.ringSize }).startLoad q false
  else if x.state = 3 then
    let s := s.modQp q fun x => { x with tail := tail % max 1 x.ringSize }
    s.takeAllEnded q 0x0104 (s.qp q).posted
  else s

/-- A write of ATP_QP_CMD whose OP is DRAIN or RESET; READY waits for the setup (R430). -/
def State.atpQpCmd (q op : Nat) (s : State) : State :=
  if op = 2 then s.drainQp q else if op = 3 then s.resetQp q else if op = 1 then s.startLoad q true else s

end Sys2Proof.Machine
end

