-- ==== Sys2Proof/Machine/Fence.lean ====
section
/-! DEFINITION. Fencing an engine unit (R30, R111, R113, R176, R221, R262, R281, R411) and dropping the commands of a
carrier's port (R391, R400). -/

namespace Sys2Proof.Machine

/-! ### Open choices -/

/-- The next open choice; each use takes a fresh one. -/
def State.freeBit (s : State) : Bool := Config.freeBit s.free

/-! ### Carriers -/

/-- The carrier in a slot. -/
def State.car (s : State) (slot : Nat) : Carrier := Sparse.get Carrier.none slot s.carriers
/-- Replace the carrier in a slot. -/
def State.setCar (slot : Nat) (c : Carrier) (s : State) : State :=
  { s with carriers := Sparse.set Carrier.none slot c s.carriers }
/-- Change the carrier in a slot. -/
def State.modCar (slot : Nat) (f : Carrier → Carrier) (s : State) : State := s.setCar slot (f (s.car slot))

/-- An erase group of a carrier. -/
def Carrier.group (c : Carrier) (g : Nat) : EGroup := Sparse.get EGroup.fresh g c.groups
/-- Change an erase group. -/
def Carrier.modGroup (g : Nat) (f : EGroup → EGroup) (c : Carrier) : Carrier :=
  { c with groups := Sparse.modify EGroup.fresh g f c.groups }

/-- OPCODE, EGROUP and PAGE or OFFSET of a carrier command (R394). -/
def CCmd.opcode (c : CCmd) : Nat := leAt c.bytes 0 1
def CCmd.egroup (c : CCmd) : Nat := leAt c.bytes 8 4
def CCmd.page (c : CCmd) : Nat := leAt c.bytes 24 4

/-- A page group fails: the write pointer advances past it (R395, R400). -/
def EGroup.failPage (g : EGroup) : EGroup := { g with wp := g.wp + 1, failed := g.failed ++ [g.wp] }

/-- What dropping a fetched command leaves of a PROGRAM or ERASE; `started` says whether it was in progress (R400). -/
def Carrier.dropCommand (started : Bool) (x : CCmd) (c : Carrier) : Carrier :=
  if x.outcome.isSome ∨ ¬ started then c
  else if x.opcode = 2 ∧ x.page = (c.group x.egroup).wp then c.modGroup x.egroup EGroup.failPage
  else if x.opcode = 4 then c.modGroup x.egroup fun g => { g with erasePending := true }
  else c

/-- Drop every command a port has fetched and not completed; which of them were in progress is open (R400). -/
def State.dropPort (slot port : Nat) (s : State) : State :=
  let mine := (s.car slot).fetched.filter fun x => x.port == port
  let s := mine.foldl (fun t x => (t.modCar slot fun c => c.dropCommand t.freeBit x).takeFree) s
  s.modCar slot fun c => { c with fetched := c.fetched.filter fun x => x.port != port }

/-- A write of 1 to CONTROL.RESET: fetched commands are dropped, ENABLE and READY cleared, the rings' indexes reset (R391). -/
def State.resetCarrierPort (slot port : Nat) (s : State) : State :=
  (s.dropPort slot port).modCar slot fun c =>
    let p := c.port port
    c.setPort port { p with enable := false, ready := false, subTail := [0, 0, 0, 0], subHead := [0, 0, 0, 0],
                            headSeen := [0, 0, 0, 0], cplHead := 0, cplTail := 0, phase := true, turn := 3, cplHeld := 0,
                            msiOwed := false, readAt := 0, readPhase := true }

/-- The sequencers in service. -/
def State.sequencersInService (s : State) : List Nat := (List.range 8).filter fun q => ! s.unitFenced clsSequencer q

/-- The carriers of a fenced sequencer are reset and given to the sequencers in service in turn (R411). -/
def State.reassignCarriers (seq : Nat) (s : State) : State :=
  let mine := (Sparse.filter (fun _ c => c.sequencer == seq) s.carriers).map (·.1)
  let left := s.sequencersInService
  mine.zipIdx.foldl (fun t p => (t.resetCarrierPort p.1 t.ownPort).modCar p.1 fun c =>
    { c with sequencer := left.getD (p.2 % max 1 left.length) seq }) s

/-! ### Ending a unit's commands (R30, R97, R111) -/

/-- End a unit's commands in service, suspended and queued with a status. What a command in service had written by then is settled
when its record is written. -/
def State.endCommands (cls u st : Nat) (ab : Bool) (s : State) : State :=
  s.modUnit cls u fun e => (e.endService st ab s.elapsed).endQueued st ab s.elapsed

/-! ### Abort (R111, R112) -/

/-- The commands an abort ends: those queued, and the one in service whose completion is not recorded. -/
def EngUnit.abortable (e : EngUnit) : Nat := e.queued + (e.service.filter fun c => c.stop == 0).length

/-- A write of 1 to `DMA_CH_ABORT.ABORT` (R111, R112). -/
def State.abortChannel (u : Nat) (s : State) : State :=
  let n := (s.unit clsDma u).abortable
  let a := rDmaChAbortResult u
  let old := s.reg a
  let open_ := old % 2 = 1 ∧ old / 2 % 2 = 0
  let ended := satAt 0xFFFF ((if open_ then old / 2 ^ 16 else 0) + n)
  let s := if n = 0 then s else s.endCommands clsDma u stAborted true
  if n = 0 ∧ ¬ open_ then s.setReg a 2 else s.setReg a (1 + ended * 2 ^ 16)

/-! ### Fencing a unit -/

/-- Commands of a fenced unit end with FENCED, what it holds is cleared (R30 and the class chapters). -/
def State.endFenced (cls u : Nat) (s : State) : State :=
  let s := (s.endCommands cls u stFenced false).modUnit cls u fun e => { e with testing := false }
  if cls = clsCoder ∨ cls = clsDecoder then
    { s with coderCtx := [0, 1, 2, 3].foldl (fun m q => Sparse.set CoderCtx.reset (4 * unitKey cls u + q) CoderCtx.reset m)
                           s.coderCtx }
  else if cls = clsCipher then
    { s with cipherCtx := [2 * u, 2 * u + 1].foldl (fun m k => Sparse.set CipherCtx.free k CipherCtx.free m) s.cipherCtx }
  else if cls = clsSequencer then
    (s.reassignCarriers u).modCore (116 + u) fun c => { c with run := .dead, waiting := .issuing }
  else s

/-- Fence a unit (R30). -/
def State.fenceUnit (cls u : Nat) (s : State) : State := (s.setRegBit (rUnitFence cls u) 0).endFenced cls u

/-- Fence a DMA engine and its 64 channels (R113). -/
def State.fenceDmaEngine (e : Nat) (s : State) : State :=
  (List.range 64).foldl (fun t ch => t.endFenced clsDma (64 * e + ch)) (s.setRegBit (rDmaEngFence e) 0)

end Sys2Proof.Machine
end

