-- ==== Sys2Proof/Machine/Cores.lean ====
section
/-! DEFINITION. The programmable engines: fetching, exceptions and their entry (R48 to R53), waiting and fences (R42, R50, R591),
barriers (R45), starting and stopping (R57), control registers (R46) and the frame every instruction runs in. -/

namespace Sys2Proof.Machine

/-! ### Exception causes (R48) -/

def causeIllegal : Nat := 1
def causeFetch : Nat := 2
def causeMisaligned : Nat := 3
def causeLoadBus : Nat := 4
def causeStoreBus : Nat := 5
def causeEcc : Nat := 6
def causeWatchdog : Nat := 7
def causeTrap : Nat := 8
def causeBarrier : Nat := 9
def causeInterrupt : Nat := 15

/-! ### Where an engine fetches and what is its own (R36, R87) -/

/-- The first offset past an engine's fetch range (R87). -/
def fetchLimit (k : Nat) : Nat :=
  match engineKind k with
  | .stream => 0x40000 | .keeper => 0x40000 | .packet => 0x10000 | .sequencer => 0x10000

/-- Where the model keeps the bytes of a memory that has no place in the global address map: the local stores of packet
engines and sequencers and the keepers' memory (log entry 2). -/
def privateBase (k : Nat) : Nat := 0x2000000000000 + k * 0x100000

/-- The byte key of local-store offset `o` of engine `k`. -/
def ownKey (k o : Nat) : Nat :=
  match engineKind k with
  | .stream => localStore k + o | .keeper => privateBase 96 + o | .packet => privateBase k + o | .sequencer => privateBase k + o

/-- What an access of an engine reaches: its own memory at a byte key, the rest of the machine, or nothing. -/
inductive Reach where
  | own (key : Nat)
  | far
  | nothing
  deriving DecidableEq, Repr

/-- What `n` bytes at `a` are to engine `k` (R36, R87, R88; the keepers reach only the island, 0x0_0000 ROM and 0x1_0000
on the 512 KiB SRAM). -/
def reachOf (k a n : Nat) : Reach :=
  match engineKind k with
  | .stream => if localStore k ≤ a ∧ a + n ≤ localStore k + 0x40000 then .own a else .far
  | .keeper => if a + n ≤ 0x90000 then .own (ownKey k a) else .nothing
  | .packet => if Config.unitLocalStore k ≤ a ∧ a + n ≤ Config.unitLocalStore k + 0x10000
               then .own (ownKey k (a - Config.unitLocalStore k)) else .far
  | .sequencer => if Config.unitLocalStore k ≤ a ∧ a + n ≤ Config.unitLocalStore k + 0x10000
                  then .own (ownKey k (a - Config.unitLocalStore k)) else .far

/-! ### Exceptions -/

/-- A second exception in a handler stops the engine (R53); the governor fences it, or the keeper raises its alarm (R89). -/
def State.doubleFault (k : Nat) (s : State) : State :=
  let s := s.modCore k fun c => { c with run := .dead, waiting := .issuing }
  match engineKind k with
  | .stream => ((s.setRegBit (rStcClFault (k / 8)) (k % 8)).fenceCore k).afterFence srcGovernor
  | .keeper => s.keeperAlarm alarmKeeperFault
  | .packet => s.afterFence srcGovernor
  | .sequencer => (s.fenceUnit clsSequencer (k - 116)).afterFence srcGovernor

/-- The engine's registers on entry to a handler (R51). -/
def Core.enter (cause epc fault handler : Nat) (c : Core) : Core :=
  { c with epc := BitVec.ofNat 32 (epc % 0x40000 / 4 * 4), cause := BitVec.ofNat 4 cause, causeArmed := false,
           faultAddr := BitVec.ofNat 48 fault, inExc := true, ie := false, waiting := .issuing, run := c.run,
           pc := BitVec.ofNat 18 handler }

/-- Entry to an exception or interrupt (R51) at `STC_VBASE` + 16 × cause (R48), or the double fault of R53; barriers the
engine may leave are settled by `State.takeException`. -/
def State.enterException (k cause epc fault : Nat) (s : State) : State :=
  let c := s.core k
  let h := c.vbase.toNat + 16 * cause
  if c.inExc then s.doubleFault k
  else if h < fetchLimit k then s.modCore k (Core.enter cause epc fault h)
  else (s.modCore k (Core.enter cause epc fault h)).doubleFault k

/-- An offset an engine can fetch from (R36, R75). -/
def fetchable (k target : Nat) : Bool := target % 4 == 0 && decide (target < fetchLimit k)

/-- Set the pc of an engine and end its wait. -/
def State.setPc (k target : Nat) (s : State) : State :=
  s.modCore k fun c => { c with pc := BitVec.ofNat 18 target, waiting := .issuing }

/-! ### Interrupts (R52) -/

/-- An unmasked source is pending. -/
def Core.irqCommon (c : Core) : Bool := c.irqPend &&& c.irqMask != 0
/-- INTERRUPT is due at this boundary. -/
def Core.interruptDue (c : Core) : Bool := c.irqCommon && c.ie && ! c.inExc

/-! ### Barriers (R42, R45) -/

/-- Core `k` waits at a barrier with this mask. -/
def State.atBarrier (s : State) (k : Nat) (mask : BitVec 8) : Bool :=
  match (s.core k).waiting with
  | .cbar m _ => m == mask
  | _ => false

/-- Every core of cluster `cl` that the mask names and that is not fenced has reached the barrier. -/
def State.barrierFull (s : State) (cl : Nat) (mask : BitVec 8) : Bool :=
  (List.range 8).all fun n => ! mask.getLsbD n || s.coreFenced (8 * cl + n) || s.atBarrier (8 * cl + n) mask

/-- A core whose barrier completed goes on at the next instruction. -/
def State.leaveBarrier (k : Nat) (s : State) : State :=
  let n := (s.core k).pc.toNat + 4
  if fetchable k n then s.setPc k n else s.enterException k causeFetch (n % 0x40000) n

/-- Complete the barrier when it is full: each core waiting there goes on. -/
def State.settleBarrier (cl : Nat) (mask : BitVec 8) (s : State) : State :=
  if s.barrierFull cl mask then
    (List.range 8).foldl (fun t n => if s.atBarrier (8 * cl + n) mask then t.leaveBarrier (8 * cl + n) else t) s
  else s

/-- The masks that cores of a cluster wait with. -/
def State.barrierMasks (s : State) (cl : Nat) : List (BitVec 8) :=
  (List.range 8).filterMap fun n => match (s.core (8 * cl + n)).waiting with
    | .cbar m _ => some m
    | _ => none

/-- A fenced core leaves every barrier of its cluster (R45). -/
def State.settleBarriers (cl : Nat) (s : State) : State :=
  (s.barrierMasks cl).foldl (fun t m => t.settleBarrier cl m) s

/-- After an engine may have been fenced: the barriers of its cluster are settled. -/
def State.settleCluster (k : Nat) (s : State) : State := if k < 96 then s.settleBarriers (k / 8) else s

/-- Take an exception or an interrupt (R51, R53). -/
def State.takeException (k cause epc fault : Nat) (s : State) : State :=
  (s.enterException k cause epc fault).settleCluster k

/-- Continue at an offset, or take FETCH_FAULT there (R36, R75). -/
def State.jump (k target : Nat) (s : State) : State :=
  if fetchable k target then s.setPc k target
  else s.takeException k causeFetch (target % 0x40000) (target % 2 ^ 48)

/-- Continue at the next instruction. -/
def State.advance (k : Nat) (s : State) : State := s.jump k ((s.core k).pc.toNat + 4)

/-- A precise exception of the instruction at the pc (R49). -/
def State.raise (k cause fault : Nat) (s : State) : State := s.takeException k cause (s.core k).pc.toNat fault

/-- Core `k` reaches the barrier. -/
def State.reachBarrier (k : Nat) (mask : BitVec 8) (s : State) : State :=
  (s.modCore k fun c => { c with waiting := .cbar mask s.elapsed }).settleBarrier (k / 8) mask

/-- Fence stream core `k` for a requester, with what follows for barriers and the working set (R31, R45, R58). -/
def State.coreFence (src k : Nat) (s : State) : State := ((s.fenceCore k).settleBarriers (k / 8)).afterFence src
/-- Fence cluster `c` for a requester (R31, R59). -/
def State.clusterFence (src c : Nat) (s : State) : State := (s.fenceCluster c).afterFence src

/-! ### Registers that wait (R82, R590) -/

/-- A write of general register `d` comes after every load and enqueue under way that names it: what they return is dropped, as a write of
`g0` is (DESIGN CHOICE, log entry 143). -/
def Core.claimG (d : BitVec 5) (c : Core) : Core :=
  { c with loads := c.loads.map fun l => if ! l.vector && l.reg == d then { l with reg := 0 } else l,
           enqs := c.enqs.map fun e => if e.gd == d then { e with gd := 0 } else e }
/-- The same for a vector register. -/
def Core.claimV (d : BitVec 5) (c : Core) : Core :=
  { c with loads := c.loads.map fun l => if l.vector && l.reg == d then { l with vector := false, reg := 0 } else l }
/-- A load comes after every load and enqueue under way that names its register. -/
def Core.claim (l : Load) (c : Core) : Core := if l.vector then c.claimV l.reg else c.claimG l.reg
/-- An instruction writes general register `d`. -/
def Core.putG (d : BitVec 5) (v : Word64) (c : Core) : Core := (c.claimG d).setG d v
/-- An instruction writes vector register `d`. -/
def Core.putV (d : BitVec 5) (v : Vec) (c : Core) : Core := (c.claimV d).setV d v

/-! ### Enqueue (R81, R82, R88) -/

/-- An engine may command a class (R88). -/
def mayCommand (k cls : Nat) : Bool :=
  match engineKind k with
  | .stream => true
  | .keeper => false
  | .packet => cls == clsDma || cls == clsDigest
  | .sequencer => cls == clsDma

/-- Send the command block of an `enq`, or write the status that the engine decides itself (R81, R82). Where NO_UNIT and NOT_PERMITTED both
apply the status is NO_UNIT (DESIGN CHOICE, log entry 144). -/
def State.sendEnq (k : Nat) (gd vs gq : BitVec 5) (s : State) : State :=
  let c := s.core k
  let q := (c.getG gq).toNat
  let cls := bitsOf q 15 12
  let inst := bitsOf q 11 2
  let s := s.advance k
  if q / 2 ^ 16 ≠ 0 ∨ classUnits cls ≤ inst then s.modCore k (Core.putG gd 3)
  else if ¬ mayCommand k cls then s.modCore k (Core.putG gd 4)
  else s.modCore k fun d => { d.claimG gd with enqs := (d.claimG gd).enqs ++
    [{ gd := gd, cls := cls, inst := inst, queue := q % 4, block := c.getV vs, status := none }] }

/-! ### Waiting for responses (R42, R50) -/

/-- No store is owed a response, and no atomic operation, which is ordered as a store too (R73). -/
def Core.storesDone (c : Core) : Bool := c.stores.isEmpty && ! c.loads.any fun l => l.atomic

/-- Go on from a wait for responses once nothing it waits for is outstanding. -/
def State.settleFence (k : Nat) (s : State) : State :=
  let c := s.core k
  match c.waiting with
  | .fenceW => if c.storesDone then s.advance k else s
  | .fenceRw => if c.stores.isEmpty ∧ c.loads.isEmpty then s.advance k else s
  | .cbarFence m => if c.stores.isEmpty ∧ c.loads.isEmpty then s.reachBarrier k m else s
  | .enq gd vs gq => if c.storesDone then s.sendEnq k gd vs gq else s
  | _ => s

/-- Begin a wait for responses, going on at once when there is none to wait for. -/
def State.beginWait (k : Nat) (w : Waiting) (s : State) : State :=
  (s.modCore k fun c => { c with waiting := w }).settleFence k

/-! ### Starting and stopping (R57) -/

/-- An engine started at offset 0 with its control registers at reset values; g, v and p keep theirs (R57). -/
def Core.started (now : Word64) (slow : Nat) (c : Core) : Core :=
  { Core.cold with g := c.g, v := c.v, p := c.p, enqs := c.enqs, run := .running, startedAt := now, startedSlow := slow, wdogStart := now }

/-- A write of 1 to a RUN bit (R57, R58). -/
def State.runCore (k : Nat) (s : State) : State :=
  if s.coreFenced k ∨ s.regBit (rStcClCtl (k / 8)) (k % 8) then s
  else
    let t := s.setRegBit (rStcClCtl (k / 8)) (k % 8)
    match (s.core k).run with
    | .stopping _ => t.modCore k fun c => { c with run := .stopping true }
    | .dead => s
    | _ => t.modCore k (Core.started s.elapsed s.slowTotal)

/-- A stop completes once no load and no store is outstanding; a start that waited for it follows (R57). -/
def State.completeStop (k : Nat) (s : State) : State :=
  let c := s.core k
  match c.run with
  | .stopping restart =>
    if c.loads.isEmpty ∧ c.stores.isEmpty then
      (if restart then s.modCore k (Core.started s.elapsed s.slowTotal) else s.modCore k fun c => { c with run := .stopped })
    else s
  | _ => s

/-- A write of 0 to a RUN bit that reads 1 (R57). An instruction that still waits, an `enq` for its fence among them, is not completed: the
boundary at which issue stops is the one before it (DESIGN CHOICE, log entry 145). -/
def State.stopCore (k : Nat) (s : State) : State :=
  if ¬ s.regBit (rStcClCtl (k / 8)) (k % 8) then s
  else
    let t := s.clearRegBit (rStcClCtl (k / 8)) (k % 8)
    match (s.core k).run with
    | .running => ((t.modCore k fun c => { c with run := .stopping false, waiting := .issuing }).completeStop k)
    | .stopping _ => t.modCore k fun c => { c with run := .stopping false }
    | _ => t

/-- Ring the doorbell of each core named (R56, R58). -/
def State.ringDoorbell (cl : Nat) (ring : Nat) (s : State) : State :=
  (List.range 8).foldl (fun t n =>
    if ring / 2 ^ n % 2 = 1 ∧ ¬ s.coreFenced (8 * cl + n) then
      t.modCore (8 * cl + n) fun c => { c with irqPend := c.irqPend ||| 0x20000 }
    else t) s

/-! ### Control registers (R46) -/

/-- The live value of control register `num` of engine `k`, 64 bits where the register is a pair. On the engines that are no stream cores,
CORE and CLUSTER of `STC_CORE_ID` are bits of the engine's number (DESIGN CHOICE, log entry 146). -/
def State.coreReg (s : State) (k num : Nat) : Nat :=
  let c := s.core k
  match num with
  | 0x0 => k % 8 + k / 8 % 16 * 8 + (if s.hlt.head then 128 else 0)
  | 0x1 => (if c.ie then 1 else 0) + (if c.inExc then 2 else 0)
  | 0x2 => c.epc.toNat
  | 0x3 => c.cause.toNat
  | 0x4 => c.faultAddr.toNat
  | 0x6 => c.vbase.toNat
  | 0x7 => c.irqPend.toNat
  | 0x8 => c.irqMask.toNat
  | 0x9 => c.wdogLimit.toNat
  | 0xB => c.timerCmp.toNat
  | 0xD => s.coreClocks k
  | 0xF => c.barTimeout.toNat
  | _ => 0

/-- The number is the low half of a pair. -/
def coreRegWide (num : Nat) : Bool := num == 0x4 || num == 0xB || num == 0xD
/-- The number is the high half of a pair. -/
def coreRegHigh (num : Nat) : Bool := num == 0x5 || num == 0xC || num == 0xE

/-- The tag of a control register pair in read shadows and write holding registers; no BAR0 address is as large. -/
def coreRegTag (k num : Nat) : Nat := 0x100000000 + k * 16 + num

/-- A requester's read shadow. -/
def State.shadow (s : State) (src : Nat) : Shadow := Sparse.get { tag := 0, value := 0 } src s.shadows
/-- A requester's write holding register. -/
def State.hold (s : State) (src : Nat) : Shadow := Sparse.get { tag := 0, value := 0 } src s.holds
/-- The shadow after a low-half read; tags are kept as address + 1 so that 0 is no tag. -/
def State.setShadow (src tag v : Nat) (s : State) : State :=
  { s with shadows := Sparse.set { tag := 0, value := 0 } src { tag := tag + 1, value := BitVec.ofNat 32 v } s.shadows }
/-- The holding register after a low-half write. -/
def State.setHold (src tag v : Nat) (s : State) : State :=
  { s with holds := Sparse.set { tag := 0, value := 0 } src { tag := tag + 1, value := BitVec.ofNat 32 v } s.holds }

/-- Read the low half of a 64-bit register whose live value is `v` (R8). -/
def State.readLow (src tag v : Nat) (s : State) : Nat × State := (v % 2 ^ 32, s.setShadow src tag (v / 2 ^ 32 % 2 ^ 32))
/-- Read the high half of a 64-bit register whose live value is `v` (R8). -/
def State.readHigh (src tag v : Nat) (s : State) : Nat :=
  if (s.shadow src).tag = tag + 1 then (s.shadow src).value.toNat else v / 2 ^ 32 % 2 ^ 32
/-- The 64-bit value that a high-half write of `v` puts into effect (R8). -/
def State.joinHigh (src tag v old : Nat) (s : State) : Nat :=
  (if (s.hold src).tag = tag + 1 then (s.hold src).value.toNat else old % 2 ^ 32) + 2 ^ 32 * v

/-- Read control register `num` of engine `k` for requester `src` (R46, R56). -/
def State.readCoreReg (src k num : Nat) (s : State) : Nat × State :=
  if coreRegWide num then s.readLow src (coreRegTag k num) (s.coreReg k num)
  else if coreRegHigh num then (s.readHigh src (coreRegTag k (num - 1)) (s.coreReg k (num - 1)), s)
  else (s.coreReg k num, s)

/-- A kick of the watchdog: the count restarts, but where it has reached the limit in this clock the expiry stands (R54, R55). -/
def State.kickWdog (k : Nat) (s : State) : State :=
  if s.wdogDue k then s else s.modCore k fun c => { c with wdogStart := s.elapsed, wdogWarned := false }

/-- Write control register `num` of engine `k` by its own `syswr` (R46, R54, R85). A write of the limit in the clock in which the count
reaches the old one restarts the count under the new limit, so that no expiry comes: R55 lets an expiry stand against a kick alone (DESIGN
CHOICE, log entry 142). -/
def State.writeCoreReg (k num v : Nat) (s : State) : State :=
  match num with
  | 0x1 => s.modCore k fun c => { c with ie := v % 2 == 1 }
  | 0x2 => s.modCore k fun c => { c with epc := BitVec.ofNat 32 v &&& 0x3FFFC }
  | 0x6 => s.modCore k fun c => { c with vbase := BitVec.ofNat 32 v &&& 0x3FF00 }
  | 0x7 => s.modCore k fun c => { c with irqPend := c.irqPend &&& ~~~ (BitVec.ofNat 32 v) }
  | 0x8 => s.modCore k fun c => { c with irqMask := BitVec.ofNat 32 v &&& 0x7FFFF }
  | 0x9 => s.modCore k fun c => { c with wdogLimit := BitVec.ofNat 16 v, wdogStart := s.elapsed, wdogWarned := false }
  | 0xA => s.kickWdog k
  | 0xB => s.setHold k (coreRegTag k 0xB) v
  | 0xC => s.modCore k fun c =>
      { c with timerCmp := BitVec.ofNat 64 (s.joinHigh k (coreRegTag k 0xB) v c.timerCmp.toNat) }
  | 0xF => s.modCore k fun c => { c with barTimeout := BitVec.ofNat 16 v }
  | _ => s

/-! ### The frame of an instruction -/

/-- The groups of instructions that some engines lack (R87). -/
inductive InstrGroup where
  | base
  | vector
  | gf
  | enq
  | cbar
  deriving DecidableEq, Repr

/-- An engine lacks a group (R87). -/
def lacks (k : Nat) (g : InstrGroup) : Bool :=
  match engineKind k, g with
  | _, .base => false
  | .stream, _ => false
  | .keeper, _ => true
  | .packet, .gf => true
  | .packet, .cbar => true
  | .packet, _ => false
  | .sequencer, .cbar => true
  | .sequencer, _ => false

/-- A general register waits for a load or an enqueue status (R82, R590). -/
def Core.pendingG (c : Core) (d : BitVec 5) : Bool :=
  d != 0 && ((c.loads.any fun l => ! l.vector && l.reg == d) || c.enqs.any fun e => e.gd == d)
/-- A vector register waits for a load. -/
def Core.pendingV (c : Core) (d : BitVec 5) : Bool := c.loads.any fun l => l.vector && l.reg == d

/-- Engine `k` issues an instruction that reads these registers now: it runs, waits for nothing, takes no interrupt at this
boundary, and no register read is awaited (R82, R590). -/
def State.issues (s : State) (k : Nat) (gs vs : List (BitVec 5)) : Bool :=
  let c := s.core k
  isEngine k && c.run == .running && c.waiting == .issuing && ! c.interruptDue
    && ! gs.any c.pendingG && ! vs.any c.pendingV

/-- The word at the pc has an uncorrectable error (R36). -/
def State.fetchDamaged (s : State) (k : Nat) : Bool := s.touchesDamage (ownKey k (s.core k).pc.toNat) 4

/-- Run an instruction of engine `k`: nothing happens while it does not issue; FETCH_FAULT (R36) and ILLEGAL_INSTRUCTION for
an instruction outside the subset (R66, R87) come first. -/
def State.instr (k : Nat) (g : InstrGroup) (gs vs : List (BitVec 5)) (body : State → State) (s : State) : State :=
  if ¬ s.issues k gs vs then s
  else if s.fetchDamaged k then (s.countDamage (ownKey k (s.core k).pc.toNat)).raise k causeFetch (s.core k).pc.toNat
  else
    let t := s.correct (ownKey k (s.core k).pc.toNat) 4
    if lacks k g then t.raise k causeIllegal 0 else body t

/-- Write a general register and go on. -/
def State.retireG (k : Nat) (d : BitVec 5) (v : Word64) (s : State) : State := (s.modCore k (Core.putG d v)).advance k
/-- Write a vector register and go on. -/
def State.retireV (k : Nat) (d : BitVec 5) (v : Vec) (s : State) : State := (s.modCore k (Core.putV d v)).advance k
/-- Write a predicate register and go on. -/
def State.retireP (k : Nat) (d : BitVec 3) (v : Word64) (s : State) : State := (s.modCore k (Core.setP d v)).advance k

end Sys2Proof.Machine
end

