-- ==== Sys2Proof/Machine/Slots.lean ====
section
/-! DEFINITION. What the keeper reads of an image slot and of the update logs (R531, R536, R537, R552). -/

namespace Sys2Proof.Machine

/-- A byte of the image area; erased flash reads 0xFF. -/
def Slot.byte (x : Slot) (o : Nat) : Byte := Sparse.get 0xFF o x.image
/-- `n` bytes of the image area. -/
def Slot.bytes (x : Slot) (o n : Nat) : List Byte := (List.range n).map fun i => x.byte (o + i)
/-- A little-endian field of an image. -/
def Slot.num (x : Slot) (o n : Nat) : Nat := ofLe (x.bytes o n)
/-- LEVEL of an image. -/
def Slot.level (x : Slot) : Nat := x.num 16 2

/-- A slot: 2 is B. -/
def Keeper.slotOf (k : Keeper) (n : Nat) : Slot := if n = 2 then k.slotB else k.slotA

/-- The record of highest SEQ in a log. -/
def newestOf (l : List UpdRecord) : Option UpdRecord :=
  l.foldl (fun b r => match b with
    | some x => if x.seq < r.seq then some r else b
    | none => some r) none
/-- The record of highest SEQ in either log (R537). -/
def Keeper.newest (k : Keeper) : Option UpdRecord := newestOf (k.logA ++ k.logB)

/-- BOOTS of the newest record, while it is a trial's. -/
def Keeper.bootCount (k : Keeper) : Nat := match k.newest with
  | some r => if r.state = 1 then r.boots else 0
  | none => 0

end Sys2Proof.Machine
end

