-- ==== Sys2Proof/Machine/RegRead.lean ====
section
/-! DEFINITION. Reading registers (R7, R8): the live value of every word of the register image, computed where a register shows what other
state holds, and read with the requester's shadow. -/

namespace Sys2Proof.Machine

/-! ### What registers show -/

/-- This head is the owner of a quire: its number has the head's parity, or the head holds both sets (R300, R454); a joined standby
owns none (R508). -/
def State.ownsQuire (s : State) (q : Nat) : Bool := s.soloMode || (q % 2 == s.headNo && ! (s.hlt.mode == .restore && s.acc.running))

/-- Ports of the current mode (R365). -/
def State.ethPorts (s : State) : Nat := 16 / 2 ^ (s.reg rEthMode % 4)

/-- Ports of the bifurcation (R562). -/
def State.cxlPorts (s : State) : Nat := 2 ^ (s.reg rCxlMode % 4)

/-- WIDTH of a port of the bifurcation. -/
def State.cxlWidth (s : State) : Nat := 3 - s.reg rCxlMode % 4

/-- A flag as bit `i`. -/
def bitAt (i : Nat) (b : Bool) : Nat := if b then 2 ^ i else 0

/-- Bit masks of a list of flags, lowest first. -/
def maskOf : List Bool → Nat
  | [] => 0
  | b :: t => (if b then 1 else 0) + 2 * maskOf t

/-- SYS (R517). -/
def State.viewSys (s : State) (a : Nat) : Nat :=
  if a = rSysId then 0x8640 + Config.stepping % 256 * 2 ^ 16
  else if a = rSysElapsed then s.elapsed.toNat % 2 ^ 32
  else if a = rSysElapsed + 4 then s.elapsed.toNat / 2 ^ 32
  else if a = rSysStraps then bitAt 0 s.hlt.head
  else if a = rSysBoot then bitAt 0 s.hlt.coldStart + s.hlt.slot * 2 + bitAt 3 s.hlt.imageOk + s.hlt.warmResets * 2 ^ 8
  else s.reg a

/-- Every PLL is locked: each has its reference clock. -/
def Power.allLocked (p : Power) : Bool := p.clkHost && p.clkMed && p.clkCxl && p.clkEth && p.crystal

/-- CLK, PWR and TRIM (R518). -/
def State.viewClk (s : State) (a : Nat) : Nat :=
  let p := s.pwr
  if a = rPwrStatus then bitAt 0 p.vinGood + bitAt 1 (decide (6000 ≤ p.vholdMv)) + bitAt 2 p.holdupReady + bitAt 3 p.loss
  else if a = rPwrVolts then p.vinMv % 2 ^ 16 + p.vholdMv % 2 ^ 16 * 2 ^ 16
  else if a = rPwrInput then p.inputPower % 2 ^ 16
  else if a = rClkStatus then bitAt 0 p.allLocked
  else if a = rTrimStatus then bitAt 0 s.hlt.fuseOk + bitAt 1 s.hlt.trimWritten
  else s.reg a

/-- `SEC_STATE.OWNER`. -/
def Keeper.ownerCode (k : Keeper) : Nat :=
  match k.owner with
  | .none => if k.shares.isEmpty then 0 else 1
  | .accepted => 2
  | .arrayPending => 3

/-- SEC (R551). -/
def State.viewSec (s : State) (a : Nat) : Nat :=
  let k := s.kpr
  if a = rSecMbStatus then bitAt 0 k.mbBusy + bitAt 1 k.mbDone + k.mbResult % 256 * 2 ^ 8 + k.mbRespLen % 2048 * 2 ^ 16
  else if a = rSecState then k.ownerCode + bitAt 2 k.tampered + bitAt 3 (! k.alarms.isEmpty) + k.shares.length % 8 * 2 ^ 4
  else if a = rSecAlarm then k.lastAlarm % 256 + k.alarmCount % 256 * 2 ^ 8
  else if a = rSecKeysRevoked then k.revoked.toNat
  else s.reg a

/-- `STC_CL_STATE` of one core (R56). -/
def Core.stateCode (c : Core) : Nat :=
  match c.run with
  | .stopped => 0
  | .dead => 3
  | .stopping _ => 1
  | .running => match c.waiting with
    | .wait => 2
    | .wne _ _ _ => 2
    | .cbar _ _ => 2
    | .cbarFence _ => 2
    | _ => 1

/-- A word of a core's control registers: the low or the high half of a pair (R46, R56). -/
def State.coreWord (s : State) (k num : Nat) : Nat :=
  if coreRegHigh num then s.coreReg k (num - 1) / 2 ^ 32 % 2 ^ 32 else s.coreReg k num % 2 ^ 32

/-- STC, with the copies of the cores' control registers (R56). Both halves of a copied 64-bit register are read live and leave the reader's
shadow alone: R8 would have them go through it, R56 says that reads of a copy have no side effect (DESIGN CHOICE, log entry 150). -/
def State.viewStc (s : State) (a : Nat) : Nat :=
  let o := a - stcBase
  let c := o / 0x10000
  let r := o % 0x10000
  if 12 ≤ c then 0
  else if r = 0x8 then ((List.range 8).map fun n => (s.core (8 * c + n)).stateCode * 4 ^ n).foldl (· + ·) 0
  else if 0x1000 ≤ r ∧ r < 0x1800 then (if r % 0x100 < 0x40 then s.coreWord (8 * c + (r - 0x1000) / 0x100) (r % 0x100 / 4) else 0)
  else s.reg a

/-- `STATE` and `QUEUED` of a DMA channel (R113). -/
def State.dmaState (s : State) (u : Nat) : Nat :=
  let e := s.unit clsDma u
  (if s.unitFenced clsDma u then 3 else if e.owed.any (fun c => c.aborted) then 2 else if e.service.isEmpty then 0 else 1) + e.queued % 64 * 2 ^ 8

/-- DMA (R113). -/
def State.viewDma (s : State) (a : Nat) : Nat :=
  let o := a - dmaBase
  let e := o / 0x8000 - 2
  let r := o % 0x8000
  if o < 0x10000 then s.reg a
  else if r = 0 then bitAt 0 (s.regBit (rDmaEngFence e) 0)
    + ((List.range 64).filter fun ch => ! (s.unit clsDma (64 * e + ch)).service.isEmpty).length * 2 ^ 8
  else if 0x100 ≤ r ∧ r < 0x1100 ∧ r % 0x40 = 0 then s.dmaState (64 * e + (r - 0x100) / 0x40)
  else s.reg a

/-- FENCED, SELFTEST, BUSY in bit 2 and QUEUED of a unit with one command in service. -/
def State.unitStatus (s : State) (cls u : Nat) : Nat :=
  let e := s.unit cls u
  bitAt 0 (s.unitFenced cls u) + bitAt 1 e.testing + bitAt 2 (! e.service.isEmpty) + e.queued % 128 * 2 ^ 8

/-- CMP (R183). -/
def State.viewCmp (s : State) (a : Nat) : Nat :=
  let o := a - cmpBase
  let u := o % 0x10000 / 0x100
  if o % 0x100 ≠ 0 ∨ o < 0x10000 then s.reg a
  else if o < 0x20000 then (if 32 ≤ u then 0 else
    let e := s.unit clsCoder u
    bitAt 0 (s.unitFenced clsCoder u) + bitAt 1 e.testing + bitAt 2 (e.service.any (Cmd.inStage 0)) + bitAt 3 (e.service.any (Cmd.inStage 1))
      + bitAt 4 (e.service.any (Cmd.inStage 2)) + e.queued % 128 * 2 ^ 8)
  else if 48 ≤ u ∨ 0x30000 ≤ o then 0 else s.unitStatus clsDecoder u

/-- DGT (R236). -/
def State.viewDgt (s : State) (a : Nat) : Nat :=
  let o := a - dgtBase
  if 0x1000 ≤ o ∧ o < 0x1208 then maskOf ((List.range 32).map fun j => ! (Sparse.get [] (32 * ((o - 0x1000) / 4) + j) s.digestKeys).isEmpty)
  else if 0x10000 ≤ o ∧ o < 0x12000 ∧ o % 0x100 = 0 then s.unitStatus clsDigest ((o - 0x10000) / 0x100)
  else s.reg a

/-- The code of a key slot's state (R245). -/
def SlotState.code : SlotState → Nat
  | .empty => 0
  | .loaded => 1
  | .exhausted => 2
  | .readOnly => 3

/-- A key slot. -/
def State.cslot (s : State) (i : Nat) : CSlot := Sparse.get CSlot.empty i s.cipherSlots
/-- The state of a slot as it stands: LOADED with its count at its limit is EXHAUSTED (R246). -/
def CSlot.now (c : CSlot) : SlotState := if c.state = .loaded ∧ c.limit ≤ c.use then .exhausted else c.state

/-- CPH (R263). -/
def State.viewCph (s : State) (a : Nat) : Nat :=
  let o := a - cphBase
  if 0x1000 ≤ o ∧ o < 0x1400 then
    ((List.range 16).map fun j => (s.cslot (16 * ((o - 0x1000) / 4) + j)).now.code * 4 ^ j).foldl (· + ·) 0
  else if 0x10000 ≤ o ∧ o < 0x18000 ∧ o % 0x100 = 0 then
    let u := (o - 0x10000) / 0x100
    s.unitStatus clsCipher u + bitAt 3 (! (s.unit clsCipher u).suspended.isEmpty)
  else if 0x40000 ≤ o ∧ o < 0x60000 then
    let x := s.cslot ((o - 0x40000) / 0x20)
    match o % 0x20 with
    | 0x0 => x.now.code + bitAt 2 (x.halfA.length == 32) + bitAt 3 (! x.halfB.isEmpty)
    | 0x8 => x.use % 2 ^ 32
    | 0xC => x.use / 2 ^ 32 % 2 ^ 16
    | 0x10 => x.limit % 2 ^ 32
    | 0x14 => x.limit / 2 ^ 32 % 2 ^ 16
    | _ => s.reg a
  else s.reg a

/-- PAR (R327). -/
def State.viewPar (s : State) (a : Nat) : Nat :=
  let o := a - parBase
  if 0x10000 ≤ o ∧ o < 0x10800 ∧ o % 0x100 = 0 then s.unitStatus clsParity ((o - 0x10000) / 0x100) else s.reg a

/-- CAT (R293). -/
def State.viewCat (s : State) (a : Nat) : Nat :=
  let o := a - catBase
  if 0x10000 ≤ o ∧ o < 0x10400 ∧ o % 0x100 = 0 then
    let u := (o - 0x10000) / 0x100
    let e := s.unit clsCatalogue u
    bitAt 0 (s.unitFenced clsCatalogue u) + bitAt 1 e.testing + e.service.length % 64 * 2 ^ 8 + e.queued % 128 * 2 ^ 16
  else s.reg a

/-- `MED_CAR_STATUS` of carrier number `n` (R413); 0 while this head knows no carrier of the number. -/
def State.carrierStatus (s : State) (n : Nat) : Nat :=
  match s.carriers.find? fun p => p.2.number == n with
  | none => 0
  | some (slot, c) =>
    bitAt 0 c.inService + bitAt 1 (c.port s.ownPort).linkUp + slot % 128 * 2 ^ 3 + c.sequencer % 8 * 2 ^ 10 + c.width % 8 * 2 ^ 13
      + c.owner % 4 * 2 ^ 16

/-- MED (R413). -/
def State.viewMed (s : State) (a : Nat) : Nat :=
  let o := a - medBase
  if 0x10000 ≤ o ∧ o < 0x10800 ∧ o % 0x100 = 0 then
    let u := (o - 0x10000) / 0x100
    bitAt 0 (s.unitFenced clsSequencer u) + (s.unit clsSequencer u).service.length % 2048 * 2 ^ 8
  else if 0x20000 ≤ o ∧ o < 0x21800 ∧ o % 0x40 = 0 then s.carrierStatus ((o - 0x20000) / 0x40)
  else if 0x30000 ≤ o ∧ o < 0x30C00 then
    let b := (o - 0x30000) / 0x100
    match o % 0x100 with
    | 0x0 => s.reg (rMedBlk (s.modeBlock b))
    | 0x8 => maskOf ((List.range 8).map fun i => ((s.car (8 * b + i)).port s.ownPort).linkUp)
    | _ => s.reg a
  else s.reg a

/-- NVT (R384): open connections and commands in service. -/
def State.viewNvt (s : State) (a : Nat) : Nat :=
  let opened := Sparse.filter (fun _ x => ! x.ended) s.svc.conns
  if a = rNvtConnCount then opened.length
  else if a = rNvtCmdInflight then (opened.map fun p => p.2.cmds.length).foldl (· + ·) 0
  else s.reg a

/-- ETH (R385): a port beyond the count of the mode reads 0. -/
def State.viewEth (s : State) (a : Nat) : Nat :=
  let o := a - ethBase
  let p := (o - 0x1000) / 0x100
  if o < 0x1000 then s.reg a
  else if s.ethPorts ≤ p then 0
  else if o % 0x100 = 0 then s.reg a + bitAt 1 (s.regBit (rEthPortFence p) 0)
  else s.reg a

/-- ATP (R440). -/
def State.viewAtp (s : State) (a : Nat) : Nat :=
  if a = rAtpCacheStatus then s.atp.cached.length % 2 ^ 15 + s.pinned % 2 ^ 11 * 2 ^ 16
  else if a = rAtpMissBytes then s.missBytes
  else s.reg a

/-- TWN (R464). -/
def State.viewTwn (s : State) (a : Nat) : Nat :=
  let w := s.twn
  if a = rTwnLinkStatus then bitAt 0 w.linkUp + w.lanes % 4 * 2
  else if a = rTwnCustody then bitAt 0 w.drive + bitAt 1 w.peerLow + bitAt 2 w.peerHolds + bitAt 3 w.setA + bitAt 4 w.setB
  else if a = rTwnGovCause then w.govCause % 256 + w.govCount % 256 * 2 ^ 8
  else if a = rTwnGovTime then w.govTime.toNat % 2 ^ 32
  else if a = rTwnGovTime + 4 then w.govTime.toNat / 2 ^ 32
  else if a = rTwnTakeoverCycle then w.takeoverCycle.toNat % 2 ^ 32
  else if a = rTwnTakeoverCycle + 4 then w.takeoverCycle.toNat / 2 ^ 32
  else if a = rTwnCleanRun then w.cleanRun % 2 ^ 16
  else s.reg a

/-- An edge of `STACK_SYNC` was seen within the last 10 ms. -/
def State.syncOk (s : State) : Bool := s.reg64 rStkSyncCount != 0 && decide (s.elapsed.toNat ≤ s.snp.lastEdge.toNat + 10000000)

/-- STK (R479). -/
def State.viewStk (s : State) (a : Nat) : Nat :=
  if a = rStkStatus then bitAt 0 s.snp.registrar + bitAt 1 (s.hlt.head && s.reg rStkConfig % 8 == 0) + bitAt 2 s.snp.registrar
    + bitAt 3 s.syncOk + s.snp.members % 256 * 2 ^ 4
  else s.reg a

/-- `EP_CR_STATUS`: STOPPED once the ring is out of service with its indexes reset, and SUB_HEAD (R494, R495). -/
def State.ringStatus (s : State) (r : Nat) : Nat :=
  let x := s.cring r
  bitAt 0 (! s.cringEnabled r && ! x.stopping) + x.subHead % 2 ^ 10 * 2 ^ 16

/-- EP (R495). -/
def State.viewEp (s : State) (a : Nat) : Nat :=
  let o := a - epBase
  if a = rEpStatus then bitAt 0 s.ep.linkUp + s.ep.speed % 8 * 2 + s.ep.width % 32 * 2 ^ 4 + bitAt 9 s.ep.atsEnable + bitAt 10 s.ep.busMaster
  else if 0x1000 ≤ o ∧ o < 0x1100 ∧ o % 0x40 = 0x14 then s.ringStatus ((o - 0x1000) / 0x40)
  else s.reg a

/-- CXL (R294, R562): WIDTH is that of the bifurcation, 0 beyond its count. -/
def State.viewCxl (s : State) (a : Nat) : Nat :=
  let o := a - cxlBase
  let p := (o - 0x1000) / 0x100
  if 0x1000 ≤ o ∧ o < 0x1400 ∧ o % 0x100 = 0 then
    bitAt 0 (s.regBit (rCxlPort p) 0) + bitAt 1 (s.regBit (rCxlPortFence p) 0) + (if p < s.cxlPorts then s.cxlWidth % 4 * 4 else 0)
  else s.reg a

/-- LPD (R519). -/
def State.viewLpd (s : State) (a : Nat) : Nat :=
  if a = rLpdStatus then s.lpdInService + bitAt 8 (s.hlt.training != 0) + s.hlt.trainFailed.toNat * 2 ^ 16 else s.reg a

/-- `UPD_SLOT_A` or `UPD_SLOT_B`: the last result, and the image's LEVEL where it is OK. -/
def Slot.word (x : Slot) : Nat := x.result % 256 + (if x.result = 0 then x.level * 2 ^ 16 else 0)

/-- This head's quires with a FAILED position. -/
def State.rebuildsLeft (s : State) : Nat := (Sparse.filter (fun q x => s.ownsQuire q && x.failed != 0 && x.state != 0 && x.state != 5) s.quires).length

/-- UPD (R552). -/
def State.viewUpd (s : State) (a : Nat) : Nat :=
  let k := s.kpr
  if a = rUpdState then s.hlt.slot + bitAt 2 k.trial + bitAt 3 k.confirmed + bitAt 4 k.fellBack + k.guards.toNat * 2 ^ 5
    + bitAt 8 k.scheduled.isSome + k.svnFloor % 128 * 2 ^ 9 + k.bootCount % 8 * 2 ^ 16
  else if a = rUpdLevel then k.level % 2 ^ 16 + k.committed % 2 ^ 16 * 2 ^ 16
  else if a = rUpdSlotA then k.slotA.word
  else if a = rUpdSlotB then k.slotB.word
  else if a = rUpdCmdStatus then bitAt 0 k.updBusy + k.updOp % 16 * 2 ^ 4 + k.updResult % 256 * 2 ^ 8
  else if a = rUpdTrialStart then k.trialStart.toNat % 2 ^ 32
  else if a = rUpdTrialStart + 4 then k.trialStart.toNat / 2 ^ 32
  else if a = rUpdRebuilds then s.rebuildsLeft % 2 ^ 32
  else s.reg a

/-- HLT (R520). -/
def State.viewHlt (s : State) (a : Nat) : Nat :=
  let h := s.hlt
  if a = rHltMode then h.mode.code + bitAt 3 h.restored + bitAt 4 h.joined + bitAt 5 h.drained
  else if a = rHltCmdStatus then bitAt 0 h.cmdBusy + h.cmdOp % 16 * 2 ^ 4 + h.cmdResult % 256 * 2 ^ 8
  else if a = rHltStage then h.step % 16 + h.error % 256 * 2 ^ 8
  else if a = rHltSafeCause then h.safeCause % 16
  else s.reg a

/-- The live value of the word at BAR0 address `a`; 0 where no register lies (R7). -/
def State.live (s : State) (a : Nat) : Nat :=
  match a / 0x100000 with
  | 0x00 => s.viewSys a
  | 0x01 => s.viewClk a
  | 0x02 => s.viewSec a
  | 0x04 => s.viewDma a
  | 0x05 => s.viewCmp a
  | 0x06 => s.viewDgt a
  | 0x07 => s.viewCph a
  | 0x08 => s.viewPar a
  | 0x09 => s.viewCat a
  | 0x0A => s.viewMed a
  | 0x0B => s.viewNvt a
  | 0x0C => s.viewEth a
  | 0x0D => s.viewAtp a
  | 0x0E => s.viewTwn a
  | 0x0F => s.viewEp a
  | 0x10 => s.viewCxl a
  | 0x11 => s.viewLpd a
  | 0x12 => s.viewStc a
  | 0x13 => s.viewUpd a
  | 0x14 => s.viewHlt a
  | 0x15 => s.viewStk a
  | _ => s.reg a

/-- The live value of the 64-bit register whose low half lies at `a`. -/
def State.live64 (s : State) (a : Nat) : Nat := s.live a + 2 ^ 32 * s.live (a + 4)

/-! ### Reads (R7, R8) -/

/-- Read the word at `a` for a requester: the halves of a 64-bit register go through its read shadow. -/
def State.readReg (src a : Nat) (s : State) : Nat × State :=
  match regAt a with
  | some (r, hi) =>
    if ¬ r.wide then (s.live a, s)
    else if hi then (s.readHigh src (a - 4) (s.live64 (a - 4)), s)
    else s.readLow src a (s.live64 a)
  | none => (s.live a, s)

end Sys2Proof.Machine
end

