-- ==== Sys2Proof/Machine/RegWrite.lean ====
section
/-! DEFINITION. Writing registers (R7 to R10): who may write, the access codes, the halves of 64-bit registers, and what the registers that
every requester may write do beyond storing. Those that only the head host, the governor or a stream core may write and that act on more
than the register stand in RegFile.lean. -/

namespace Sys2Proof.Machine

/-! ### Who may write -/

/-- The device takes a write of a requester. -/
def State.mayWrite (s : State) (w : Writer) (src : Nat) : Bool :=
  match w with
  | .any => true
  | .governorHost => src == srcGovernor || src == srcHost
  | .host => src == srcHost
  | .stream => decide (src < 96)
  | .hostSupervisor => src == srcHost || s.supervisorCore == some src

/-! ### Effects -/

/-- A write of LPD_CTL with START. Training is discarded without channels 0 and 1, while it runs, and outside SAFE. -/
def State.trainLpddr (mask : Nat) (s : State) : State :=
  if mask % 4 ≠ 3 ∨ s.hlt.training ≠ 0 ∨ s.hlt.mode ≠ .safe then s
  else { s.setReg rLpdCtl (mask % 256) with hlt := { s.hlt with training := BitVec.ofNat 8 mask } }

/-- EP_MSIX_SEND: vectors 16 and above fire, other values are discarded. -/
def State.sendVector (v : Nat) (s : State) : State := if 16 ≤ v % 2048 then s.raiseVector (v % 2048) else s

/-- A write of a word of the trim bank (R503, R518). -/
def State.writeTrim (a v : Nat) (s : State) : State := { s.setReg a v with hlt := { s.hlt with trimWritten := true } }

/-- A write of `STC_CL_CTL`: each RUN bit runs or stops its core (R56, R57). -/
def State.writeRun (c v : Nat) (s : State) : State :=
  (List.range 8).foldl (fun t n => if v / 2 ^ n % 2 = 1 then (if t.regBit (rStcClCtl c) n then t else t.runCore (8 * c + n)) else t.stopCore (8 * c + n)) s

/-- A link of a root-port block is up; the link of a joined pair is a link of both blocks (R413). -/
def State.blockUp (s : State) (b : Nat) : Bool :=
  (List.range 8).any fun i => ((s.car (8 * b + i)).port s.ownPort).linkUp || ((s.car (8 * s.modeBlock b + i)).port s.ownPort).linkUp

/-- A write of `MED_BLK_MODE` (R413); once it is written the block's reset may be released (R567). -/
def State.writeBlockMode (b v : Nat) (s : State) : State :=
  let m := v % 8
  if 5 ≤ m ∨ (m = 4 ∧ b % 2 = 1) ∨ s.blockUp b then s
  else ({ s.setReg (rMedBlk b) m with pin := { s.pin with medModeSet := s.pin.medModeSet ||| BitVec.ofNat 12 (2 ^ b) } } : State).releasePerst

/-- A write of `CXL_MODE` (R562, R567). -/
def State.writeCxlMode (v : Nat) (s : State) : State :=
  if v % 4 = 3 ∨ ([0, 1, 2, 3].any fun p => s.regBit (rCxlPort p) 0) then s
  else ({ s.setReg rCxlMode (v % 4) with pin := { s.pin with cxlModeSet := true } } : State).releasePerst

/-- A write of `ETH_MODE` (R385). -/
def State.writeEthMode (v : Nat) (s : State) : State :=
  if v % 4 = 3 ∨ ((List.range 16).any fun p => s.regBit (rEthPort p) 0) then s else s.setReg rEthMode (v % 4)

/-- A write of `STK_CONFIG` (R479). -/
def State.writeStkConfig (v : Nat) (s : State) : State :=
  if s.atp.qps.any (fun p => Config.stackQp p.1 && p.2.state == 1) then s else s.setReg rStkConfig (v % 8)

/-- A write of `EP_CR_CTL`: SIZE changes while ENABLE is 0 and is at most 6; ENABLE puts the ring in service or stops it (R494, R495). -/
def State.writeRingCtl (r v : Nat) (s : State) : State :=
  let a := rEpCrCtl r
  if s.cringEnabled r then (if v % 2 = 0 then s.disableRing r else s)
  else
    let size := if v / 256 % 16 < 7 then v / 256 % 16 else s.reg a / 256 % 16
    let t := s.setReg a (size * 256 + v % 2)
    if v % 2 = 1 then t.modCring r fun x => { x with stopping := false } else t

/-- A doorbell of a control ring: its commands are fetched later (R491, R494). -/
def State.ringDoorbellWrite (r v : Nat) (s : State) : State :=
  if s.cringEnabled r then s.modCring r fun x => { x with heldTail := some (v % 1024 % s.cringSize r) } else s

/-- A write of a word of the EP window that does more than store; none for the others. -/
def State.writeEp (a v : Nat) (s : State) : Option State :=
  let o := a - epBase
  let r := (o - 0x1000) / 0x40
  if a = rEpMsixSend then some (s.sendVector v)
  else if o < 0x1000 then none
  else match o % 0x40 with
    | 0x10 => some (s.writeRingCtl r v)
    | 0x18 => some (s.ringDoorbellWrite r v)
    | 0x1C => some (s.modCring r fun x => { x with cplHead := v % 1024 % s.cringSize r })
    | _ => none

/-- A write of a word of the STC windows that does more than store. -/
def State.writeStc (a v : Nat) (s : State) : Option State :=
  let c := (a - stcBase) / 0x10000
  match (a - stcBase) % 0x10000 with
  | 0x0 => some (s.writeRun c v)
  | 0x40 => some (s.ringDoorbell c (v % 256))
  | _ => none

/-- A write of a 32-bit register that does more than its access codes say; none for the others. -/
def State.writeSpecial (src a v : Nat) (s : State) : Option State :=
  match a / 0x100000 with
  | 0x01 => if rTrimBank 0 ≤ a ∧ a < rTrimBank 512 then some (s.writeTrim a v) else none
  | 0x04 =>
    let u := (a - dmaBase - 0x10000) / 0x8000 * 64 + ((a - dmaBase) % 0x8000 - 0x100) / 0x40
    if 0x10000 ≤ a - dmaBase ∧ a = rDmaChAbort u then some (if v % 2 = 1 then s.abortChannel u else s) else none
  | 0x0A => if 0x30000 ≤ a - medBase ∧ a % 0x100 = 0 then some (s.writeBlockMode ((a - medBase - 0x30000) / 0x100) v) else none
  | 0x0C => if a = rEthMode then some (s.writeEthMode v) else none
  | 0x0D => if a = rAtpRegionSync then some (s.syncRegion (v % 2 ^ 20)) else if a = rAtpRevoke then some (s.revokeKey v) else none
  | 0x0E => if a = rTwnGovAlive ∧ src < 96 then some { s with twn := { s.twn with aliveAt := s.elapsed } } else none
  | 0x0F => s.writeEp a v
  | 0x10 => if a = rCxlMode then some (s.writeCxlMode v) else none
  | 0x11 => if a = rLpdCtl ∧ v / 256 % 2 = 1 then some (s.trainLpddr (v % 256)) else none
  | 0x12 => s.writeStc a v
  | 0x15 => if a = rStkConfig then some (s.writeStkConfig v) else none
  | _ => none

/-- A 64-bit value takes effect in the register at `a` (R8): the bits that may be written change, and the command registers of the
transport act (R425, R430, R437, R440). -/
def State.write64 (r : RegRow) (a v : Nat) (s : State) : State :=
  let t := s.setReg64 a ((s.reg64 a &&& (m64 ^^^ r.rw)) ||| (v &&& r.rw))
  if a = rAtpRegionBase then t.zeroRegions
  else if a = rAtpQpCmd then s.atpQpCmd (v % 2 ^ 20) (v / 2 ^ 32 % 16)
  else if a = rAtpDoorbell then s.atpDoorbell (v % 2 ^ 20) (v / 2 ^ 32)
  else if epBase + 0x1000 ≤ a ∧ a < epBase + 0x1100 ∧ s.cringEnabled ((a - epBase - 0x1000) / 0x40) then s
  else t

/-! ### Writes -/

/-- Write the word at `a` for a requester (R7 to R9). -/
def State.writeReg (src a v : Nat) (s : State) : State :=
  match regAt a with
  | none => s
  | some (r, hi) =>
    if r.wide ∧ ¬ hi then s.setHold src a v
    else if ¬ s.mayWrite r.writer src then s
    else if r.wide then s.write64 r (a - 4) (s.joinHigh src (a - 4) v (s.live64 (a - 4)))
    else match s.writeSpecial src a v with
      | some t => t
      | none => s.setReg a (writeBits r hi (s.reg a) v)

end Sys2Proof.Machine
end

