-- ==== Sys2Proof/Machine/Bus.lean ====
section
/-! DEFINITION. Accesses of any size by any requester: register space word by word (R586), memory, head-host memory and bus
errors (R17, R39, R61). -/

namespace Sys2Proof.Machine

/-! ### Register space (R7, R586) -/

/-- The bytes of one register word that lie in an access of `n` bytes at `a`. -/
def wordSlice (a n w v : Nat) : List Byte :=
  let lo := max a w
  let hi := min (a + n) (w + 4)
  slice (leBytes 4 v) (lo - w) (hi - lo)

/-- The aligned words that an access touches. -/
def regWords (a n : Nat) : List Nat := (List.range ((a + n + 3) / 4 - a / 4)).map fun i => 4 * (a / 4 + i)

/-- Read bytes of register space, word by word in increasing order (R586). -/
def State.readRegBytes (src a n : Nat) (s : State) : List Byte × State :=
  (regWords a n).foldl (fun (acc : List Byte × State) w =>
    let (v, t) := acc.2.readReg src w
    (acc.1 ++ wordSlice a n w v, t)) ([], s)

/-- Write bytes to register space: words covered whole are written, the others discarded (R7, R586). -/
def State.writeRegBytes (src a : Nat) (bs : List Byte) (s : State) : State :=
  (regWords a bs.length).foldl (fun t w =>
    if a ≤ w ∧ w + 4 ≤ a + bs.length then t.writeReg src w (leAt bs (w - a) 4) else t) s

/-! ### Any memory -/

/-- Read `n` bytes at `a`: the bytes, or why the read fails. -/
def State.busRead (src a n : Nat) (s : State) : Option BusKind × List Byte × State :=
  match s.readFault a n with
  | some k => (some k, [], s)
  | none =>
    match s.route a n with
    | .regs r => let (bs, t) := s.readRegBytes src r n; (none, bs, t)
    | _ => (none, s.bytes a n, s.correct a n)

/-- Write bytes with byte enables at `a`, or why the write fails. -/
def State.busWrite (src a : Nat) (bs : List (Bool × Byte)) (s : State) : Option BusKind × State :=
  match s.writeFault a (bs.map (·.1)) with
  | some k => (some k, s)
  | none =>
    match s.route a bs.length with
    | .regs r => (none, s.writeRegBytes src r (bs.map (·.2)))
    | _ => (none, s.performWrite a bs)

/-- All bytes enabled. -/
def enableAll (bs : List Byte) : List (Bool × Byte) := bs.map fun b => (true, b)

/-! ### Transfers of an engine in accesses of up to 64 bytes (R104, R589) -/

/-- The lengths of the accesses that cover `n` bytes from `a`, none crossing a 64-byte boundary. -/
def lineCuts : Nat → Nat → Nat → List (Nat × Nat)
  | 0, _, _ => []
  | fuel + 1, a, n =>
    if n = 0 then [] else
    let m := min n (64 - a % 64)
    (a, m) :: lineCuts fuel (a + m) (n - m)

/-- The accesses of a transfer of `n` bytes at `a`. -/
def accessesOf (a n : Nat) : List (Nat × Nat) := lineCuts n a n

/-- Read `n` bytes in accesses of up to 64 bytes; the first that fails gives its address and kind. -/
def State.readSpan (src a n : Nat) (s : State) : Option (BusKind × Nat) × List Byte × State :=
  (accessesOf a n).foldl (fun (acc : Option (BusKind × Nat) × List Byte × State) p =>
    match acc.1 with
    | some _ => acc
    | none =>
      let (e, bs, t) := acc.2.2.busRead src p.1 p.2
      match e with
      | some k => (some (k, p.1), acc.2.1, t)
      | none => (none, acc.2.1 ++ bs, t)) (none, [], s)

/-- Write bytes in accesses of up to 64 bytes in increasing order; the first that fails ends it. The count is of the bytes
written with a good response. -/
def State.writeSpan (src a : Nat) (bs : List Byte) (s : State) : Option (BusKind × Nat) × Nat × State :=
  (accessesOf a bs.length).foldl (fun (acc : Option (BusKind × Nat) × Nat × State) p =>
    match acc.1 with
    | some _ => acc
    | none =>
      let (e, t) := acc.2.2.busWrite src p.1 (enableAll (slice bs (p.1 - a) p.2))
      match e with
      | some k => (some (k, p.1), acc.2.1, t)
      | none => (none, acc.2.1 + p.2, t)) (none, 0, s)

/-- The pages of head-host memory whose translation a span must wait for. -/
def State.spanMisses (s : State) (a n : Nat) (write : Bool) : List Nat :=
  (accessesOf a n).flatMap fun p => s.hostMisses p.1 p.2 write

end Sys2Proof.Machine
end

