-- ==== Sys2Proof/Machine/Engines.lean ====
section
/-! DEFINITION. What every engine class shares: taking a command (R91, R92, R100), reporting it (R94, R95, R98, R112) and what
follows a record (R112, R178, R215, R216). -/

namespace Sys2Proof.Machine

/-- The opcode is assigned in the class (R91, R102, R157, R158, R209, R239, R275, R308, R406). -/
def opcodeAssigned (cls op : Nat) : Bool :=
  match cls with
  | 1 => decide (1 ≤ op) && decide (op ≤ 3)
  | 2 => op == 1 || op == 2
  | 3 => op == 2
  | 4 => decide (1 ≤ op) && decide (op ≤ 4)
  | 5 => decide (1 ≤ op) && decide (op ≤ 3)
  | 6 => decide (1 ≤ op) && decide (op ≤ 3)
  | 7 => decide (1 ≤ op) && decide (op ≤ 4)
  | 8 => decide (1 ≤ op) && decide (op ≤ 10)
  | _ => false

/-- Put a command that a unit has taken into service. -/
def State.serve (cls u : Nat) (c : Cmd) (s : State) : State :=
  s.modUnit cls u fun e => { e with service := e.service ++ [c] }

/-- The unit takes the command R100 chooses, if `mine` says its block is for this row: it ends with BAD_COMMAND when its header is
bad, and else becomes what `check` makes of it: ended without any access, or in service. -/
def State.takeCommandIf (cls u : Nat) (mine : Vec → Bool) (check : Cmd → State → Cmd × State) (s : State) : State :=
  match s.nextCommand cls u with
  | none => s
  | some (c, e) =>
    if ¬ mine c.block then s
    else if badCommon c.block then (s.setUnit cls u e).serve cls u (c.finish stBadCommand)
    else let (c, s) := check c (s.setUnit cls u e); s.serve cls u c

/-- The command of opcode `op` that a unit executes. -/
def State.executing (s : State) (cls u op : Nat) : Option Cmd :=
  (s.unit cls u).service.find? fun c => c.live && opcodeOf c.block == op

/-- The command that the unit takes next is of opcode `op`. -/
def State.takesNext (s : State) (cls u op : Nat) : Bool :=
  match s.nextCommand cls u with
  | some (c, _) => opcodeOf c.block == op
  | none => false

/-- One event of opcode `op` on a unit: it takes its next command, if that is one, and checks it (R91, R92); else the accesses of
the oldest such command that it executes are made by `run`, once the translations they need are there (R487). Between the two a
fence, an abort, an alarm or a bus error may end the command (log entry 154). -/
def State.engineEvent (cls u op : Nat) (check : Cmd → State → Cmd × State) (misses : Cmd → State → List Nat)
    (run : Cmd → State → Cmd × State) (s : State) : State :=
  if s.takesNext cls u op then s.takeCommandIf cls u (fun b => opcodeOf b == op) check
  else match s.executing cls u op with
    | none => s
    | some c =>
      if ¬ (misses c s).isEmpty then s.askTranslations (misses c s)
      else let (c, s) := run c s; s.putCommand cls u c

/-- A check of the operands alone. -/
def checkBlock (bad : Vec → Bool) (c : Cmd) (s : State) : Cmd × State := (if bad c.block then c.finish stBadCommand else c, s)

/-- Capture a bus error that an engine's access met (R29, R61). -/
def State.engineError (cls u : Nat) (e : BusKind × Nat) (s : State) : State :=
  s.busError e.1 (engineSource cls u) e.2

/-- The first access of a write of `n` bytes that would fail. -/
def State.spanWriteFault (s : State) (a n : Nat) : Option (BusKind × Nat) :=
  (accessesOf a n).findSome? fun p => (s.writeFault p.1 (List.replicate p.2 true)).map fun k => (k, p.1)

/-- `n` open bytes. -/
def State.freeBytes (n : Nat) (s : State) : List Byte × State :=
  ((List.range n).map fun i => Config.freeByte (s.free + i), { s with free := s.free + n })

/-! ### Reading without side effects -/

/-- What a read that an engine would make gives. -/
inductive Peek where
  | bytes (bs : List Byte)
  /-- Pages of head-host memory to translate first (R487). -/
  | miss (pages : List Nat)
  | error (kind : BusKind) (addr : Nat)
  deriving DecidableEq, Repr

/-- Read `n` bytes in accesses of up to 64 bytes. -/
def State.peekSpan (s : State) (a n : Nat) : Peek :=
  let m := s.spanMisses a n false
  if ¬ m.isEmpty then .miss m
  else match s.readSpan 0xFF a n with
    | (some (k, x), _, _) => .error k x
    | (none, bs, _) => .bytes bs

/-! ### After a record -/

/-- The key of a queue's context. -/
def ctxKey (cls u q : Nat) : Nat := 4 * unitKey cls u + q
/-- A queue's context as the last command whose record is written left it (R155, R588). -/
def State.laneCtx (s : State) (cls u q : Nat) : CoderCtx := Sparse.get CoderCtx.reset (ctxKey cls u q) s.coderCtx
/-- Set a queue's context. -/
def State.setLaneCtx (cls u q : Nat) (c : CoderCtx) (s : State) : State :=
  { s with coderCtx := Sparse.set CoderCtx.reset (ctxKey cls u q) c s.coderCtx }

/-- A lane's command passes its context on once it is recorded; one that performed nothing, or that a fence ended, does not (R168,
R176, R588). -/
def State.passContext (cls u : Nat) (c : Cmd) (s : State) : State :=
  match c.job with
  | some j => if c.stop = 0 then s.setLaneCtx cls u c.queue j.after else s
  | none => s

/-- What follows the record of a coder lane's RAW_FORCED (R178): the third within 1 s fences the lane. -/
def State.afterRawForced (u : Nat) (s : State) : State :=
  let new := (s.elapsed :: Sparse.get [] u s.rawForced).take 3
  let s := { s with rawForced := Sparse.set [] u new s.rawForced }
  match new with
  | [_, _, t] => if s.elapsed.toNat ≤ t.toNat + 1000000000 then (s.fenceUnit clsCoder u).afterFence srcGovernor else s
  | _ => s

/-- What follows a coder lane's record: the input of an ENCODE that ended OK is counted (R183), RAW_FORCED is judged. -/
def State.afterCoderRecord (u : Nat) (c : Cmd) (s : State) : State :=
  let s := s.passContext clsCoder u c
  let s := if opcodeOf c.block = 1 ∧ c.status = stOk then s.bump64 (rCmpLane u + 0x8) (le c.block 32 4) else s
  if opcodeOf c.block = 1 ∧ c.detail % 8 = 2 then s.afterRawForced u else s

/-- What follows a decoder lane's record: one that ended with CODED_CORRUPT is counted (R183). -/
def State.afterDecoderRecord (u : Nat) (c : Cmd) (s : State) : State :=
  let s := s.passContext clsDecoder u c
  if c.status = 0x0100 then s.bump (rCmpDec u + 0x18) 1 else s

/-- `DMA_CH_ABORT_RESULT.DONE` once the last record of an aborted command is written (R112). -/
def State.afterDmaRecord (u : Nat) (c : Cmd) (s : State) : State :=
  if c.aborted ∧ ¬ (s.unit clsDma u).owed.any (·.aborted) then s.setRegBit (rDmaChAbortResult u) 1 else s

/-- The comparison of one block of a VERIFY: the unit, and where the block, its expected digest and its key slot lie (R216). -/
def mismatchOf (u i : Nat) (b : Vec) : Mismatch :=
  { unit := u, src := le b 16 8 + 4096 * i, expect := le b 48 8 + 32 * i, slot := le b 40 2 }

/-- A second unit has contradicted a first unit's mismatch: it is counted, and the third within 1 s fences the unit (R216). -/
def State.countMismatch (u : Nat) (s : State) : State :=
  let new := (s.elapsed :: Sparse.get [] u s.mismatchTimes).take 3
  let s := { (s.bump (rDgtUnit u + 0x18) 1) with mismatchTimes := Sparse.set [] u new s.mismatchTimes }
  match new with
  | [_, _, t] => if s.elapsed.toNat ≤ t.toNat + 1000000000 then (s.fenceUnit clsDigest u).afterFence srcGovernor else s
  | _ => s

/-- The governor's action on block `i` of a VERIFY record (R215, R216). -/
def State.afterVerifyBlock (u : Nat) (c : Cmd) (s : State) (i : Nat) : State :=
  let m := c.detail / 2 ^ i % 2
  let n := c.detail / 2 ^ (8 + i) % 2
  let here := mismatchOf u i c.block
  let same (x : Mismatch) := x.src == here.src && x.expect == here.expect && x.slot == here.slot && x.unit != u
  if m = n then (s.fenceUnit clsDigest u).afterFence srcGovernor
  else match s.mismatches.find? same with
    | some x =>
      let s := { s with mismatches := s.mismatches.filter fun y => ! same y }
      if m = 1 then s.countMismatch x.unit else s
    | none => if m = 1 ∨ s.mismatches.contains here then s else { s with mismatches := s.mismatches ++ [here] }

/-- What follows the record of a VERIFY (R215, R216). -/
def State.afterDigestRecord (u : Nat) (c : Cmd) (s : State) : State :=
  if opcodeOf c.block = 4 ∧ c.status = stOk then
    (List.range (le c.block 32 4 / 4096)).foldl (fun t i => t.afterVerifyBlock u c i) s
  else s

/-- What a class does after a record is written. -/
def State.afterRecord (cls u : Nat) (c : Cmd) (s : State) : State :=
  if cls = clsCoder then s.afterCoderRecord u c
  else if cls = clsDecoder then s.afterDecoderRecord u c
  else if cls = clsDma then s.afterDmaRecord u c
  else if cls = clsDigest then s.afterDigestRecord u c
  else if cls = clsSequencer then s.bump64 (rMedSeq u + 8) 1
  else s

/-- Write the record of a command, which leaves the unit (R94, R95). -/
def State.reportCommand (cls u : Nat) (c : Cmd) (s : State) : State :=
  ((s.modUnit cls u (EngUnit.drop c)).writeRecord cls u c).afterRecord cls u c

/-- A free unit takes a command whose opcode its class does not assign and ends it with BAD_COMMAND (R91). -/
def State.takeUnassigned (cls u : Nat) (s : State) : State :=
  match s.nextCommand cls u with
  | none => s
  | some (c, e) =>
    if opcodeAssigned cls (opcodeOf c.block) then s
    else (s.setUnit cls u e).serve cls u (c.finish stBadCommand)

/-! ### An open part of a command's accesses -/

/-- How many of `n` accesses in order an ended command made before it stopped: open. -/
def State.openCount (n : Nat) (s : State) : Nat × State := (s.freeWord.toNat % (n + 1), s.takeFree)

/-- The bytes of a span of `n` bytes at `a` that its first `k` accesses cover. -/
def firstAccesses (k a n : Nat) : Nat := (((accessesOf a n).take k).map (·.2)).sum

/-- Write an open number of the accesses of `bs`; how many bytes were written. -/
def State.writeSome (src a : Nat) (bs : List Byte) (s : State) : Nat × State :=
  let (k, s) := s.openCount (accessesOf a bs.length).length
  let (_, n, s) := s.writeSpan src a (bs.take (firstAccesses k a bs.length))
  (n, s)

end Sys2Proof.Machine
end

