-- ==== Sys2Proof/Machine/Items.lean ====
section
/-! DEFINITION. The journal items the device queues (R126, R272, R303). -/

namespace Sys2Proof.Machine

/-! ### Items -/

/-- Queue items for the open cycle. -/
def State.queueItems (items : List (List Byte)) (s : State) : State := { s with deltas := s.deltas ++ items }

/-- The 32 bytes of an item from TYPE, byte 1 and the bytes from 2 on. -/
def itemBytes (type b1 : Nat) (rest : List Byte) : List Byte := leBytes 1 type ++ leBytes 1 b1 ++ padTo 30 rest

/-- A QUIRE item: EVENT, QUIRE and the bytes from 8 on (R303). -/
def quireItem (event quire : Nat) (rest : List Byte) : List Byte := itemBytes 4 event (zeros 2 ++ leBytes 4 quire ++ rest)

def itemPosition (quire pos carrier egroup : Nat) : List Byte :=
  quireItem 1 quire (leBytes 1 pos ++ zeros 1 ++ leBytes 2 carrier ++ leBytes 4 egroup)
def itemOpened (quire w d mode purpose rows : Nat) : List Byte :=
  quireItem 2 quire (leBytes 1 w ++ leBytes 1 d ++ leBytes 1 mode ++ leBytes 1 purpose ++ leBytes 4 rows)
def itemFreed (quire : Nat) : List Byte := quireItem 3 quire []
def itemClosed (quire rowsDone : Nat) : List Byte := quireItem 4 quire (leBytes 4 rowsDone)
def itemPositionFailed (quire pos cause : Nat) : List Byte := quireItem 5 quire (leBytes 1 pos ++ leBytes 1 cause)
def itemRebuildStart (quire pos carrier egroup : Nat) : List Byte :=
  quireItem 6 quire (leBytes 1 pos ++ zeros 1 ++ leBytes 2 carrier ++ leBytes 4 egroup)
def itemRebuildDone (quire pos : Nat) : List Byte := quireItem 7 quire (leBytes 1 pos)
def itemReshape (boundary targetD active end_ drain : Nat) : List Byte :=
  quireItem 8 boundary (leBytes 1 targetD ++ leBytes 1 active ++ zeros 2 ++ leBytes 4 end_ ++ leBytes 12 drain)
def itemRows (quire rowsDone : Nat) : List Byte := quireItem 9 quire (leBytes 4 rowsDone)

/-- Items queued or in records of this head that are not applied. -/
def State.unappliedItems (s : State) : List (List Byte) := s.acc.own.flatMap CycleRec.items ++ s.deltas

/-- ROWS_DONE after a quire's last durable row: each durable row queues a ROWS item (R143, R303). -/
def State.durableRows (s : State) (q : Nat) : Nat :=
  (s.unappliedItems.filterMap fun i => if leAt i 0 2 = 0x0904 ∧ leAt i 4 4 = q then some (leAt i 8 4) else none).foldl max
    (Sparse.get Quire.none q s.quires).rowsDone

/-- Positions of a quire that lie on a carrier and are not failed. -/
def Quire.positionsOn (q : Quire) (carrier : Nat) : List Nat :=
  (List.range q.pos.length).filter fun p => (q.pos.getD p (0, 0)).1 == carrier && q.failed / 2 ^ p % 2 == 0

/-- POSITION_FAILED for positions of a quire; an open quire is closed at its last durable row (R314). -/
def State.failPositions (q : Nat) (ps : List Nat) (cause : Nat) (s : State) : State :=
  if ps.isEmpty then s
  else s.queueItems (ps.map (fun p => itemPositionFailed q p cause)
    ++ if (Sparse.get Quire.none q s.quires).state = 1 then [itemClosed q (s.durableRows q)] else [])

/-- POSITION_FAILED for every position on a carrier of this head's quires. -/
def State.positionsFailed (carrier cause : Nat) (s : State) : State :=
  s.quires.foldl (fun t e =>
    let ps := e.2.positionsOn carrier
    if e.2.state = 5 ∨ ¬ t.ownsQuire e.1 then t else t.failPositions e.1 ps cause) s

end Sys2Proof.Machine
end

