-- ==== Sys2Proof/Machine/Trees.lean ====
section
/-! DEFINITION. Catalogue trees: groups and their forms (R269 to R271), descent (R268, R270), copies on write (R468), splits and
merges of leaves (R271), as journal items change them. -/

namespace Sys2Proof.Machine

/-! ### Groups (R269, R271) -/

/-- Content IDs of a group's blocks, in block order. -/
def mappedCids (l : List Mapped) : List Nat := l.filterMap fun m => match m with
  | .cid n => some n
  | _ => none

/-- A list of IDs that rise by one. -/
def rising : List Nat → Bool
  | a :: b :: t => b == a + 1 && rising (b :: t)
  | _ => true

/-- The mapping fits folio form: one rising run and at most one other content ID. -/
def fitsFolio (l : List Mapped) : Bool :=
  let c := mappedCids l
  rising c || (List.range c.length).any fun i => rising (c.take i ++ c.drop (i + 1))

/-- An unmapped group. -/
def Group.empty (lba : Nat) : Group :=
  { lba := lba, folio := true, heat := 0, blocks := List.replicate 8 .unmapped, touched := List.replicate 8 false }

/-- The slots a group takes in a leaf. -/
def Group.slots (g : Group) : Nat := if g.folio then 2 else (g.blocks.filter fun m => m != .unmapped).length

/-- Block `i` has an entry in leaf form. -/
def hasEntry (l : List Mapped) (i : Nat) : Bool := l.getD i .unmapped != .unmapped

/-- A group after a change of its blocks: HEAT rises at most once a cycle, the form follows R271. Only entries that stand are TOUCHED. -/
def Group.change (hot : Nat) (first : Bool) (f : List Mapped → List Mapped) (g : Group) : Group :=
  let b := f g.blocks
  let heat := if first then min 255 (g.heat + 1) else g.heat
  let folio := fitsFolio b && decide (heat < hot)
  { g with
    blocks := b, heat := heat, folio := folio,
    touched := if folio then List.replicate 8 false
      else (List.range 8).map fun i => hasEntry b i && (g.touched.getD i false || b.getD i .unmapped != g.blocks.getD i .unmapped) }

/-- A group at the turn of an epoch, `k` epochs on (R271). -/
def Group.sweep (k : Nat) (g : Group) : Group :=
  if ! g.folio && ! g.touched.any (fun t => t) && fitsFolio g.blocks then { g with folio := true, heat := 0 }
  else { g with heat := g.heat / 2 ^ min 8 k, touched := List.replicate 8 false }

/-! ### Nodes -/

/-- A node by its number. -/
def Catalogue.node (c : Catalogue) (n : Nat) : CatNode := Sparse.get CatNode.none n c.nodes
/-- Replace a node. -/
def Catalogue.setNode (n : Nat) (x : CatNode) (c : Catalogue) : Catalogue := { c with nodes := Sparse.set CatNode.none n x c.nodes }
/-- A new node under the next node number (R268). -/
def Catalogue.newNode (x : CatNode) (c : Catalogue) : Nat × Catalogue :=
  (c.nextNode, { c.setNode c.nextNode x with nextNode := c.nextNode + 1 })

/-- The entry of an interior node that a key descends to (R268). -/
def kidFor (key : Nat) (kids : List (Nat × Nat)) : Option Nat :=
  match (kids.filter fun k => decide (k.1 ≤ key)).getLast? with
  | some k => some k.2
  | none => (kids.head?).map (·.2)

/-- The nodes from `n` down to the leaf of a key. -/
def Catalogue.path (c : Catalogue) (key : Nat) : Nat → Nat → List Nat
  | 0, n => [n]
  | f + 1, n =>
    if (c.node n).level = 0 then [n]
    else match kidFor key (c.node n).kids with
      | some k => n :: c.path key f k
      | none => [n]

/-- The leaf of a key under a root. -/
def Catalogue.leafOf (c : Catalogue) (root key : Nat) : Nat := (c.path key 8 root).getLastD root

/-- The first block of a block's group. -/
def groupOf (lba : Nat) : Nat := lba / 8 * 8

/-- What a block resolves to under a root (R270). -/
def Catalogue.resolve (c : Catalogue) (root lba : Nat) : Mapped :=
  match (c.node (c.leafOf root lba)).groups.find? fun g => g.lba == groupOf lba with
  | some g => g.blocks.getD (lba % 8) .unmapped
  | none => .unmapped

/-- The group of a block under a root. -/
def Catalogue.groupAt (c : Catalogue) (root lba : Nat) : Group :=
  ((c.node (c.leafOf root lba)).groups.find? fun g => g.lba == groupOf lba).getD (Group.empty (groupOf lba))

/-- Every node under a root, parents before children. -/
def Catalogue.nodesUnder (c : Catalogue) : Nat → Nat → List Nat
  | 0, n => [n]
  | f + 1, n => n :: (c.node n).kids.flatMap fun k => c.nodesUnder f k.2

/-- The content IDs a node maps, each as often as it maps it; 0 and 1 are never counted (R229). -/
def CatNode.cids (n : CatNode) : List Nat := n.groups.flatMap fun g => mappedCids g.blocks

/-- The lowest key under a node; none of an empty leaf. -/
def CatNode.lowKey? (n : CatNode) : Option Nat :=
  if n.level ≠ 0 then (n.kids.head?).map (·.1) else if n.content then n.recs.head? else (n.groups.head?).map (·.lba)
/-- The lowest key under a node, 0 for an empty leaf. -/
def CatNode.lowKey (n : CatNode) : Nat := n.lowKey?.getD 0

/-- A node about to be changed by an item of a cycle: its groups are swept and EPOCH set (R268, R271). -/
def CatNode.toEpoch (cycle : Nat) (n : CatNode) : CatNode :=
  let e := cycle / 2 ^ 20
  if n.epoch < e then { n with groups := n.groups.map (Group.sweep (e - n.epoch)), epoch := e } else n

/-- Replace the children of an interior node. -/
def Catalogue.setKids (n : Nat) (kids : List (Nat × Nat)) (c : Catalogue) : Catalogue :=
  if (c.node n).kids = kids then c else c.setNode n { (c.node n).toEpoch c.now with kids := kids }

/-! ### Views -/

/-- A view by its number. -/
def Catalogue.viewNo (c : Catalogue) (v : Nat) : Option View := c.views.find? fun x => x.view == v
/-- The live view of a namespace. -/
def Catalogue.live (c : Catalogue) (nsid : Nat) : Option View := c.views.find? fun x => x.nsid == nsid && x.kind == 0
/-- Change a view. -/
def Catalogue.modView (v : Nat) (f : View → View) (c : Catalogue) : Catalogue :=
  { c with views := c.views.map fun x => if x.view = v then f x else x }

/-! ### Changing a group (R271, R468) -/

/-- Copy every node of a path that is not private to the live view, root first; the content IDs of copied leaves come back. -/
def Catalogue.copyPath (live : Nat) : List Nat → Catalogue → List Nat × Catalogue × List Nat
  | [], c => ([], c, [])
  | n :: t, c =>
    let x := c.node n
    let (m, c, inc) := if x.view = live then (n, c, [])
      else
        let (m, c) := c.newNode { x with view := live }
        (m, c, x.cids)
    let (t', c, inc') := Catalogue.copyPath live t c
    let c := match t.head?, t'.head? with
      | some a, some b => c.setKids m ((c.node m).kids.map fun k => if k.2 = a then (k.1, b) else k)
      | _, _ => c
    (m :: t', c, inc ++ inc')

/-- A leaf's groups with one group changed; a group without mappings has no entries. -/
def putGroup (g : Group) (l : List Group) : List Group :=
  let rest := l.filter fun x => x.lba != g.lba
  if g.blocks.all (fun m => m == .unmapped) then rest
  else (rest.filter fun x => decide (x.lba < g.lba)) ++ g :: rest.filter fun x => decide (g.lba < x.lba)

/-- Slots in use in a leaf. -/
def leafSlots (l : List Group) : Nat := (l.map Group.slots).foldl (· + ·) 0

/-- The groups before the first boundary at or after slot 126, and the rest. -/
def splitLeaf : Nat → List Group → List Group × List Group
  | _, [] => ([], [])
  | n, g :: t => if 126 ≤ n then ([], g :: t) else let (a, b) := splitLeaf (n + g.slots) t; (g :: a, b)

/-- Cut the groups of a leaf that has run out of slots until every part fits a node (R271). -/
def leafParts : Nat → List Group → List (List Group)
  | 0, l => [l]
  | fuel + 1, l => if leafSlots l ≤ 252 then [l] else let (a, b) := splitLeaf 0 l; a :: leafParts fuel b

/-- Which tree: its root in a catalogue, and how another root is set. -/
structure TreeOf where
  root : Catalogue → Nat
  setRoot : Nat → Catalogue → Catalogue

/-- The tree of the live view of a number. -/
def treeOfView (v : Nat) : TreeOf :=
  { root := fun c => ((c.viewNo v).map (·.root)).getD 0, setRoot := fun r c => c.modView v fun x => { x with root := r } }
/-- The content tree. -/
def contentTree : TreeOf := { root := fun c => c.contentRoot, setRoot := fun r c => { c with contentRoot := r } }

/-- Enter a new right sibling into the parents, nearest first; an interior node with more than 126 children is split in half
(log entry 16). -/
def Catalogue.raise (tree : TreeOf) : List Nat → Nat → Nat → Nat → Catalogue → Catalogue
  | [], left, right, key, c =>
    let x := c.node left
    let (r, c) := c.newNode { CatNode.none with content := x.content, nsid := x.nsid, view := x.view, level := x.level + 1, epoch := c.now / 2 ^ 20,
                                                kids := [(x.lowKey, left), (key, right)] }
    tree.setRoot r c
  | p :: t, left, right, key, c =>
    let kids := (c.node p).kids.flatMap fun k => if k.2 = left then [k, (key, right)] else [k]
    if kids.length ≤ 126 then c.setKids p kids
    else
      let high := kids.drop 63
      let c := c.setKids p (kids.take 63)
      let (m, c) := c.newNode { c.node p with kids := high }
      c.raise tree t p m (((high.head?).map (·.1)).getD 0)

/-- The interior nodes above a node, nearest first. -/
def Catalogue.parentsOf (tree : TreeOf) (n : Nat) (c : Catalogue) : List Nat :=
  (((c.path (c.node n).lowKey 8 (tree.root c)).takeWhile fun p => p != n)).reverse

/-- New right siblings of a leaf, each with its content, take new node numbers and are entered into the parents (R271). -/
def Catalogue.enterRight (tree : TreeOf) : Nat → List CatNode → Catalogue → Catalogue
  | _, [], c => c
  | left, x :: t, c =>
    let ps := c.parentsOf tree left
    let (m, c) := c.newNode x
    (c.raise tree ps left m x.lowKey).enterRight tree m t

/-- Set the KEY of each node of a path in its parent to its lowest key, from the leaf up (R268). -/
def Catalogue.refreshKeys : List Nat → Catalogue → Catalogue
  | n :: p :: t, c =>
    let c := match (c.node n).lowKey? with
      | some key => c.setKids p ((c.node p).kids.map fun (k : Nat × Nat) => if k.2 = n then (key, n) else k)
      | none => c
    c.refreshKeys (p :: t)
  | _, c => c

/-- Merge a leaf with fewer than 32 slots into its right sibling when the two fit in one node (R271); a sibling that is not
private is copied first (R468). -/
def Catalogue.mergeLeaf (live : Nat) (parents : List Nat) (leaf : Nat) (c : Catalogue) : Catalogue × List Nat :=
  let parent := parents.headD 0
  let p := c.node parent
  match (p.kids.dropWhile fun k => k.2 != leaf) with
  | a :: b :: _ =>
    let l := c.node leaf
    let swept := (c.node b.2).toEpoch c.now
    if 32 ≤ leafSlots l.groups ∨ 252 < leafSlots (l.groups ++ swept.groups) then (c, [])
    else
      let (ps, c, inc) := c.copyPath live [b.2]
      let m := ps.headD b.2
      let r := (c.node m).toEpoch c.now
      let c := c.setNode m { r with groups := l.groups ++ r.groups }
      let kids := (p.kids.filter fun k => k.2 != leaf).map fun k => if k.2 = b.2 then (a.1, m) else k
      (((c.setKids parent kids).setNode leaf CatNode.none).refreshKeys (m :: parents), inc)
  | _ => (c, [])

/-- Change one group of a namespace's live view as an item of a cycle does: the content IDs of nodes copied on the way come
back, to be counted (R229, R468). -/
def Catalogue.changeGroup (nsid lba hot : Nat) (first : Bool) (f : List Mapped → List Mapped) (c : Catalogue) : Catalogue × List Nat :=
  match c.live nsid with
  | none => (c, [])
  | some v =>
    let (ps, c, inc) := c.copyPath v.view (c.path (groupOf lba) 8 v.root)
    let c := c.modView v.view fun v => { v with root := ps.headD v.root }
    let leaf := ps.getLastD v.root
    let n := (c.node leaf).toEpoch c.now
    let g := (n.groups.find? fun g => g.lba == groupOf lba).getD (Group.empty (groupOf lba))
    let parts := leafParts 8 (putGroup (g.change hot first f) n.groups)
    let c := (c.setNode leaf { n with groups := parts.headD [] }).refreshKeys ps.reverse
    let c := c.enterRight (treeOfView v.view) leaf ((parts.drop 1).map fun l => { n with groups := l })
    if parts.length ≠ 1 ∨ ps.length ≤ 1 then (c, inc)
    else let (c, inc') := c.mergeLeaf v.view (ps.reverse.drop 1) leaf; (c, inc ++ inc')

/-! ### The content tree (R266, R268) -/

/-- An item changes the record of a FIRST_CID: its leaf takes the record, or lists it already. A leaf of more than 10 records is split in half;
where, the spec leaves open (log entry 16). -/
def Catalogue.enterRecord (f : Nat) (c : Catalogue) : Catalogue :=
  let c := if c.contentRoot ≠ 0 then c
    else let (r, c) := c.newNode { CatNode.none with content := true, epoch := c.now / 2 ^ 20 }; { c with contentRoot := r }
  let ps := c.path f 8 c.contentRoot
  let leaf := ps.getLastD c.contentRoot
  let n := (c.node leaf).toEpoch c.now
  if n.recs.contains f then c.setNode leaf n
  else
    let recs := (n.recs.filter fun x => decide (x < f)) ++ f :: n.recs.filter fun x => decide (f < x)
    if recs.length ≤ 10 then (c.setNode leaf { n with recs := recs }).refreshKeys ps.reverse
    else ((c.setNode leaf { n with recs := recs.take 5 }).refreshKeys ps.reverse).enterRight contentTree leaf [{ n with recs := recs.drop 5 }]

/-- A record is removed from its leaf. -/
def Catalogue.leaveRecord (f : Nat) (c : Catalogue) : Catalogue :=
  let ps := c.path f 8 c.contentRoot
  let leaf := ps.getLastD c.contentRoot
  let n := c.node leaf
  if n.recs.contains f then (c.setNode leaf { n.toEpoch c.now with recs := n.recs.filter fun x => x != f }).refreshKeys ps.reverse else c

/-! ### Copies and freed nodes -/

/-- Copy the path to a node's lowest key for the live view that owns it (R468, NODE_COPY): no effect where it is private. -/
def Catalogue.copyNode (view node : Nat) (c : Catalogue) : Catalogue × List Nat :=
  match c.viewNo view with
  | none => (c, [])
  | some v =>
    let p := c.path ((c.node node).lowKey) 8 v.root
    if ¬ p.contains node then (c, [])
    else
      let (ps, c, inc) := c.copyPath v.view (p.takeWhile (fun n => n != node) ++ [node])
      (c.modView v.view fun v => { v with root := ps.headD v.root }, inc)

/-- Free a node (R229): the content IDs it mapped come back. -/
def Catalogue.freeNode (node : Nat) (c : Catalogue) : Catalogue × List Nat :=
  (c.setNode node CatNode.none, (c.node node).cids)

/-- A view's path to a node's lowest key ends at that node (R470). -/
def Catalogue.reaches (c : Catalogue) (view node : Nat) : Bool :=
  match c.viewNo view with
  | some v => (c.path ((c.node node).lowKey) 8 v.root).contains node
  | none => false

end Sys2Proof.Machine
end

