-- ==== Sys2Proof/Machine/Content.lean ====
section
/-! DEFINITION. Content records, reference counts, quarantine and release (R229 to R233, R266, R267), and the dedup index
(R222 to R225). -/

namespace Sys2Proof.Machine

/-! ### Shelfmarks (R264) -/

/-- The 12 bytes of a shelfmark. -/
def Shelf.bytes (s : Shelf) : List Byte :=
  leBytes 4 s.quire ++ leBytes 2 s.row ++ leBytes 1 (s.member % 64) ++ zeros 1 ++ leBytes 2 s.offset ++ leBytes 2 s.length

/-- The shelfmark in 12 bytes. -/
def Shelf.ofBytes (b : List Byte) : Shelf :=
  { quire := leAt b 0 4, row := leAt b 4 2, member := leAt b 6 1 % 64, offset := leAt b 8 2, length := leAt b 10 2 }

/-- A length rounded up to 16 bytes (R273). -/
def up16 (n : Nat) : Nat := (n + 15) / 16 * 16

/-! ### Records (R266, R267) -/

/-- The content record of a FIRST_CID. -/
def Catalogue.record (c : Catalogue) (f : Nat) : Content := Sparse.get Content.none f c.content
/-- Replace a content record; its leaf of the content tree changes with it. -/
def Catalogue.setRecord (f : Nat) (x : Content) (c : Catalogue) : Catalogue :=
  let c := { c with content := Sparse.set Content.none f x c.content }
  if x.blocks = 0 then c.leaveRecord f else c.enterRecord f
/-- Change a content record. -/
def Catalogue.modRecord (f : Nat) (g : Content → Content) (c : Catalogue) : Catalogue := c.setRecord f (g (c.record f))

/-- The record a content ID belongs to: its FIRST_CID (R267). -/
def Catalogue.firstOf (c : Catalogue) (cid : Nat) : Option Nat :=
  match (Sparse.filter (fun k _ => decide (k ≤ cid)) c.content).getLast? with
  | some (f, x) => if cid < f + x.blocks then some f else none
  | none => none

/-- The digest of a content ID. -/
def Catalogue.digestOf (c : Catalogue) (cid : Nat) : List Byte :=
  match c.firstOf cid with
  | some f => (c.record f).digests.getD (cid - f) []
  | none => []

/-- The reference count of a content ID. -/
def Catalogue.countOf (c : Catalogue) (cid : Nat) : Nat :=
  match c.firstOf cid with
  | some f => (c.record f).counts.getD (cid - f) 0
  | none => 0

/-- Bit `i` of RELEASED. -/
def Content.isReleased (x : Content) (i : Nat) : Bool := x.released / 2 ^ i % 2 == 1

/-- FIRST_CID of the folio at position 0 of a folio's chain (R267). -/
def Catalogue.chainHead (c : Catalogue) : Nat → Nat → Nat
  | 0, f => f
  | n + 1, f => if (c.record f).position = 0 then f else c.chainHead n (f - (c.record f).chainPrev)

/-! ### Counts (R229, R230, R232) -/

/-- Add one to the count of block `i`; a count at its highest stays there (R232). -/
def Content.countUp (i : Nat) (x : Content) : Content :=
  { x with counts := setNth i (satAt m32 (x.counts.getD i 0 + 1)) x.counts }

/-- Take one from the count of block `i`; it stays at its highest, and at 0 (R232). -/
def Content.countDown (i : Nat) (x : Content) : Content :=
  let n := x.counts.getD i 0
  { x with counts := setNth i (if n = m32 then n else n - 1) x.counts }

/-- Count one mapping more of a content ID. -/
def Catalogue.countUp (cid : Nat) (c : Catalogue) : Catalogue :=
  match c.firstOf cid with
  | some f => c.modRecord f (Content.countUp (cid - f))
  | none => c

/-- Count one mapping less of a content ID; whether the count would have fallen below 0 comes back. -/
def Catalogue.countDown (cid : Nat) (c : Catalogue) : Catalogue × Bool :=
  match c.firstOf cid with
  | some f => (c.modRecord f (Content.countDown (cid - f)), (c.record f).counts.getD (cid - f) 0 == 0)
  | none => (c, false)

/-! ### Metadata faults (R232) -/

/-- A metadata fault is counted and reported to the health governor, which moves the head to SALVAGE (R232, R447). -/
def State.metadataFault (s : State) : State :=
  ({ s with med := { s.med with faults := s.med.faults + 1 }, twn := { s.twn with unclean := s.twn.unclean ||| 4 } }).releaseCustody causeMetadataFault

/-! ### The dedup index (R222 to R225) -/

/-- The setting of the tier-0 size gives its bucket count (R223, R235). -/
def State.tier0Buckets (s : State) : Nat := s.setting 0x0200 0 (2 ^ 35) / 4096
/-- The bucket of a fingerprint (R223). -/
def bucketOf (fp : List Byte) (buckets : Nat) : Nat := leAt fp 0 8 % max 1 buckets

/-- The entry of a tier for a domain and fingerprint. -/
def State.probeTier (s : State) (tier domain : Nat) (fp : List Byte) : Option DedupEntry :=
  s.med.index.find? fun e => e.tier == tier && e.domain == domain && e.fp == fp

/-- Change the entries of a content ID. -/
def State.modEntries (cid : Nat) (f : DedupEntry → DedupEntry) (s : State) : State :=
  { s with med := { s.med with index := s.med.index.map fun e => if e.cid = cid then f e else e } }

/-- The clean entry of lowest CYCLE in a list. -/
def oldestClean (l : List DedupEntry) : Option DedupEntry :=
  l.foldl (fun best e => if e.dirty || e.pending then best else match best with
    | some b => if e.cycle < b.cycle then some e else best
    | none => some e) none

/-- Tier 1 is in use (R235). -/
def State.tierOne (s : State) : Bool :=
  s.setting 0x0201 0 (if [0, 1, 2, 3].any fun p => s.regBit (rCxlPort p) 0 && ! s.regBit (rCxlPortFence p) 0 then 1 else 0) == 1

/-- Buckets of tier 1: what the mapped CXL memory holds, which the spec does not divide further (log entry 165). -/
def State.tier1Buckets (s : State) : Nat := (([0, 1, 2, 3].map fun p => s.reg (rCxlPortCapacity p)).foldl (· + ·) 0) * 2 ^ 18

/-- Put an entry into tier 1, where it is clean: in a full bucket it replaces the entry of lowest CYCLE (R222, R223). -/
def State.demote (e : DedupEntry) (s : State) : State :=
  if ¬ s.tierOne then s
  else
    let n := s.tier1Buckets
    let rest := s.med.index.filter fun x => ! (x.cid == e.cid && x.tier == 1)
    let mates := rest.filter fun x => x.tier == 1 && bucketOf x.fp n == bucketOf e.fp n
    let rest := if mates.length < 64 then rest else match oldestClean mates with
      | some x => removeFirst (fun y => y == x) rest
      | none => rest
    { s with med := { s.med with index := rest ++ [{ e with tier := 1 }] } }

/-- Put an entry into tier 0: in a full bucket it replaces the clean entry of lowest CYCLE, which goes to tier 1, or goes to the merge
list (R222, R223). -/
def State.insertEntry (e : DedupEntry) (s : State) : State :=
  let n := s.tier0Buckets
  let rest := s.med.index.filter fun x => ! (x.cid == e.cid && (x.tier == 0 || x.tier == 3))
  let mates := rest.filter fun x => x.tier == 0 && bucketOf x.fp n == bucketOf e.fp n
  let put (l : List DedupEntry) : State := { s with med := { s.med with index := l } }
  if mates.length < 64 then put (rest ++ [{ e with tier := 0 }])
  else match oldestClean mates with
    | some x => (put (removeFirst (fun y => y == x) rest ++ [{ e with tier := 0 }])).demote x
    | none => put (rest ++ [{ e with tier := 3 }])

/-- The index entry of a content ID as both heads hold it once a mapping item has named it (R225). -/
def State.indexContent (cid cycle : Nat) (s : State) : State :=
  match s.cat.firstOf cid with
  | none => s
  | some f =>
    if s.med.index.any (fun e => e.cid == cid && ! e.pending) then s
    else s.insertEntry { fp := s.cat.digestOf cid, cid := cid, domain := (s.cat.record f).domain, tier := 0, pending := false,
                         dirty := true, tomb := false, lost := (s.cat.record f).lost, cycle := cycle }

/-- Tombstone a content ID in tier 0; no other tier's copy of its entry matches any longer (R231). -/
def State.entomb (cid cycle : Nat) (s : State) : State :=
  match s.cat.firstOf cid with
  | none => s
  | some f =>
    (s.modEntries cid fun e => { e with tomb := true, cycle := cycle }).insertEntry
                  { fp := s.cat.digestOf cid, cid := cid, domain := (s.cat.record f).domain, tier := 0, pending := false,
                    dirty := true, tomb := true, lost := (s.cat.record f).lost, cycle := cycle }

/-! ### Valid bytes -/

/-- Add or take a folio's bytes at a quire (R273). -/
def State.addValid (quire n : Nat) (s : State) : State :=
  { s with quires := Sparse.modify Quire.none quire (fun q => if q.state = 0 then q else { q with validBytes := q.validBytes + n }) s.quires }
def State.takeValid (quire n : Nat) (s : State) : State :=
  { s with quires := Sparse.modify Quire.none quire (fun q => { q with validBytes := q.validBytes - n }) s.quires }

/-! ### Release and removal (R231, R267) -/

/-- Remove a record all of whose blocks are released and that no later folio of its chain needs, and test the one before it;
at most `fuel` records. -/
def State.removeRecord : Nat → Nat → State → State
  | 0, _, s => s
  | fuel + 1, f, s =>
    let x := s.cat.record f
    if x.blocks = 0 ∨ x.nextPresent ∨ x.released % 2 ^ x.blocks ≠ 2 ^ x.blocks - 1 then s
    else
      let s := { s with cat := s.cat.setRecord f Content.none }
      let s := s.takeValid x.shelf.quire (up16 x.shelf.length)
      let s := { s with med := { s.med with contexts := Sparse.set CoderCtx.reset f CoderCtx.reset s.med.contexts } }
      if x.position = 0 then s
      else
        let p := f - x.chainPrev
        ({ s with cat := s.cat.modRecord p fun y => if y.blocks = 0 then y else { y with nextPresent := false } }).removeRecord fuel p

/-- Release a content ID (R231). -/
def State.releaseCid (cid : Nat) (s : State) : State :=
  match s.cat.firstOf cid with
  | none => s
  | some f =>
    let c := s.cat.modRecord f fun x => { x with released := x.released ||| 2 ^ (cid - f) }
    let stats := setNth 13 (s.acc.stats.getD 13 0 + 1) s.acc.stats
    ({ s with cat := { c with quarantine := Sparse.set 0 cid 0 c.quarantine }, acc := { s.acc with stats := stats } }).removeRecord 8 f

/-- A content ID enters quarantine after cycle `n` (R231). -/
def State.enterQuarantine (cid n : Nat) (s : State) : State :=
  let stats := setNth 12 (s.acc.stats.getD 12 0 + 1) s.acc.stats
  ({ s with cat := { s.cat with quarantine := Sparse.set 0 cid (n + 1) s.cat.quarantine }, acc := { s.acc with stats := stats } }).entomb cid n

/-- An increment ended a content ID's quarantine (R231). -/
def State.leaveQuarantine (cid n : Nat) (s : State) : State :=
  ({ s with cat := { s.cat with quarantine := Sparse.set 0 cid 0 s.cat.quarantine } }).modEntries cid fun e =>
    { e with tomb := false, cycle := n }

/-- What R231 does with one content ID once cycle `n` has been applied; an increment in the cycle ends a quarantine, and a count that is 0
again begins another. -/
def State.judgeContent (raised : List Nat) (n cid : Nat) (s : State) : State :=
  let since := Sparse.get 0 cid s.cat.quarantine
  let count := s.cat.countOf cid
  if count ≠ 0 then (if since = 0 then s else s.leaveQuarantine cid n)
  else if since = 0 ∨ raised.contains cid then s.enterQuarantine cid n
  else if since + 65535 ≤ n then s.releaseCid cid
  else s

/-- Every content ID that has a record and is not released. -/
def Catalogue.liveCids (c : Catalogue) : List Nat :=
  c.content.flatMap fun p => ((List.range p.2.blocks).filter fun i => ! p.2.isReleased i).map (· + p.1)

/-- Quarantine and release after cycle `n`, which raised the counts of some content IDs (R231). -/
def State.judgeAll (raised : List Nat) (n : Nat) (s : State) : State := s.cat.liveCids.foldl (fun t cid => t.judgeContent raised n cid) s

/-! ### LOST (R233, R318) -/

/-- Set or clear LOST on a folio: its record, its index entries, and the cached contexts of its chain (R233, R356). -/
def State.setLost (f : Nat) (lost : Bool) (s : State) : State :=
  let x := s.cat.record f
  if x.blocks = 0 then s
  else
    let s := { s with cat := s.cat.modRecord f fun x => { x with lost := lost } }
    let s := (List.range x.blocks).foldl (fun t i => t.modEntries (f + i) fun e => { e with lost := lost, dirty := true, cycle := s.cat.now }) s
    if lost then
      { s with med := { s.med with contexts := Sparse.filter (fun k _ => s.cat.chainHead 8 k != s.cat.chainHead 8 f) s.med.contexts } }
    else s

end Sys2Proof.Machine
end

