-- ==== Sys2Proof/Machine/Buffer.lean ====
section
/-! DEFINITION. Journal segments (R329). -/

namespace Sys2Proof.Machine

/-! ### Journal segments (R329) -/

/-- Bytes of a segment of 512 slots. -/
def segmentBytes : Nat := 2097152

/-- The global address of an entry's data in a region. -/
def State.entryData (s : State) (base no : Nat) : Nat := base + ((s.header base no).map (·.off)).getD 0

/-- The open segment can take `n` bytes, or a new one can be allocated. -/
def State.journalRoom (s : State) (n : Nat) : Bool :=
  (match s.acc.segment with | some g => decide (g.used + n ≤ segmentBytes) | none => false)
    || decide (s.acc.ring.length < 1048576 ∧ s.slotsUsed + s.slotSkip 512 + 512 ≤ dataSlots)

/-- Open a new journal segment; its header is mirrored (R119, R329). -/
def State.openSegment (s : State) : State :=
  let h : Header := { no := 0, cycle := s.acc.openCycle, slba := 0, nsid := segmentNsid, nblk := 512, state := 3, noData := false,
                      profile := 0, off := 0, domain := 0 }
  let (no, t) := s.allocate h 512 none false 0
  let t := t.sendMirror no (headerOff no) (t.headerAt t.ownBase no) true
  { t with acc := { t.acc with segments := t.acc.segments ++ t.acc.segment.toList, segment := some { no := no, used := 0, top := 0 } } }

/-- Append a cycle header and its delta list to this head's journal segment (R329). -/
def State.appendJournal (cycle : Nat) (bs : List Byte) (s : State) : State :=
  let s := match s.acc.segment with
    | some g => if g.used + bs.length ≤ segmentBytes then s else s.openSegment
    | none => s.openSegment
  match s.acc.segment with
  | none => s
  | some g =>
    let s := s.performWrite (s.entryData s.ownBase g.no + g.used) (bs.map fun b => (true, b))
    { s with acc := { s.acc with segment := some { g with used := g.used + bs.length, top := cycle } } }

/-- Append a partner's cycle to the mirror of its open segment: the journal entry of highest number in the mirror (R128, R329;
log entry 18). -/
def State.appendMirror (cycle : Nat) (bs : List Byte) (s : State) : State :=
  let no := ((s.headers s.mirrorBase).filter fun h => h.nsid == segmentNsid).foldl (fun m h => max m h.no) 0
  if no = 0 then s
  else
    let used := match s.acc.mirrorSegment with
      | some g => if g.no = no then g.used else 0
      | none => 0
    let s := s.performWrite (s.entryData s.mirrorBase no + used) (bs.map fun b => (true, b))
    { s with acc := { s.acc with mirrorSegment := some { no := no, used := used + bs.length, top := cycle } } }

/-- The cycle headers in a segment that begins at an address, with the address of each; at most `fuel` of them. -/
def State.cycleHeaders (s : State) : Nat → Nat → Nat → List (Nat × List Byte)
  | 0, _, _ => []
  | fuel + 1, a, left =>
    let h := s.bytes a 64
    let n := 64 + 32 * leAt h 24 4
    if left < n ∨ leAt h 0 2 ≠ 1 then [] else (a, h) :: s.cycleHeaders fuel (a + n) (left - n)

/-- Every cycle header in the segments of a region. -/
def State.journalHeaders (s : State) (base : Nat) : List (Nat × List Byte) :=
  ((s.headers base).filter fun h => h.nsid == segmentNsid).flatMap fun h => s.cycleHeaders 32768 (base + h.off) segmentBytes

/-- Set CONFIRMED in a cycle's header in this head's segment (R329). -/
def State.markConfirmed (cycle : Nat) (s : State) : State :=
  match (s.journalHeaders s.ownBase).find? fun p => leAt p.2 8 8 == cycle with
  | some (a, h) => s.performWrite (a + 4) ((leBytes 4 (leAt h 4 4 ||| 2)).map fun b => (true, b))
  | none => s

/-- Free the segments whose every cycle a checkpoint covers (R329). -/
def State.freeSegments (through : Nat) (s : State) : State :=
  (s.acc.segments.filter fun g => decide (g.top ≤ through)).foldl (fun t g =>
    (t.freeEntry g.no).sendMirror g.no (headerOff g.no) ((t.freeEntry g.no).headerAt t.ownBase g.no) true)
    { s with acc := { s.acc with segments := s.acc.segments.filter fun g => ! decide (g.top ≤ through) } }

end Sys2Proof.Machine
end

