-- ==== Sys2Proof/Machine/Digest.lean ====
section
/-! DEFINITION. Digest units: SHAKE256, KMAC256, FINGERPRINT, VERIFY and the key table (chapter 08). -/

namespace Sys2Proof.Machine

def stKeyEmpty : Nat := 0x0100
def stAlarm : Nat := 0x0101

/-! ### Operands (R210) -/

def dgtSrc (b : Vec) : Nat := le b 16 8
def dgtDst (b : Vec) : Nat := le b 24 8
def dgtSrcLen (b : Vec) : Nat := le b 32 4
def dgtOutLen (b : Vec) : Nat := le b 36 4
def dgtSlot (b : Vec) : Nat := le b 40 2
def dgtSLen (b : Vec) : Nat := le b 42 1
/-- The customisation string S. -/
def dgtS (b : Vec) : List Byte := leBytes (dgtSLen b) (le b 44 (dgtSLen b))
def dgtExpect (b : Vec) : Nat := le b 48 8
/-- COUNT of FINGERPRINT and VERIFY. -/
def dgtCount (b : Vec) : Nat := dgtSrcLen b / 4096

/-- Addresses and lengths of SHAKE256 and KMAC256 outside their ranges. -/
def badMessage (b : Vec) : Bool :=
  decide (2 ^ 48 ≤ dgtSrc b) || decide (2 ^ 48 ≤ dgtDst b) || decide (16777216 < dgtSrcLen b) || dgtOutLen b == 0
    || decide (65536 < dgtOutLen b) || le b 60 4 != 0

/-- SHAKE256 operands that R210 refuses. -/
def badShake (b : Vec) : Bool := badMessage b || le b 40 20 != 0
/-- KMAC256 operands that R210 refuses. -/
def badKmac (b : Vec) : Bool :=
  badMessage b || decide (4159 < dgtSlot b) || decide (16 < dgtSLen b) || le b 43 1 != 0
    || le b (44 + dgtSLen b) (16 - dgtSLen b) != 0
/-- FINGERPRINT and VERIFY operands that R210 refuses; `most` is the largest COUNT. -/
def badBlocks (verify : Bool) (most : Nat) (b : Vec) : Bool :=
  decide (2 ^ 48 ≤ dgtSrc b) || dgtSrc b % 64 != 0 || decide (2 ^ 48 ≤ dgtDst b) || dgtDst b % 32 != 0
    || dgtSrcLen b % 4096 != 0 || dgtCount b == 0 || decide (most < dgtCount b) || dgtOutLen b != 0
    || decide (4095 < dgtSlot b) || le b 42 6 != 0 || le b 56 8 != 0
    || (if verify then decide (2 ^ 48 ≤ dgtExpect b) || dgtExpect b % 32 != 0 else dgtExpect b != 0)

/-! ### One message (R204, R219) -/

/-- The key of a digest slot; empty when the slot holds none (R206). -/
def State.digestKey (s : State) (slot : Nat) : List Byte := Sparse.get [] slot s.digestKeys

/-- Count bytes absorbed and messages completed. -/
def State.countMessage (u n m : Nat) (s : State) : State :=
  (s.bump64 (rDgtUnit u + 0x8) n).bump64 (rDgtUnit u + 0x10) m

/-- A command that ends with a bus error. -/
def State.dgtError (u : Nat) (e : BusKind × Nat) (c : Cmd) (s : State) : Cmd × State :=
  (c.finish stBusError, s.engineError clsDigest u e)

/-- SHAKE256 or KMAC256: absorb the source, write the output; with a bus error nothing is written (R219). -/
def State.runMessage (u : Nat) (f : List Byte → List Byte) (c : Cmd) (s : State) : Cmd × State :=
  let b := c.block
  let (e, bs, s) := s.readSpan (engineSource clsDigest u) (dgtSrc b) (dgtSrcLen b)
  let s := s.countMessage u bs.length 0
  match e with
  | some err => s.dgtError u err c
  | none =>
    match s.spanWriteFault (dgtDst b) (dgtOutLen b) with
    | some err => s.dgtError u err c
    | none =>
      let (_, n, s) := s.writeSpan (engineSource clsDigest u) (dgtDst b) (f bs)
      ({ c.finish stOk with bytes := n }, s.countMessage u 0 1)

/-- The digest of SHAKE256 or KMAC256 as a function of the message. -/
def messageDigest (c : Cmd) : List Byte → List Byte :=
  if opcodeOf c.block = 1 then shake256 (dgtOutLen c.block)
  else fun m => kmac256 c.key m (dgtOutLen c.block) (dgtS c.block)

/-- The translations a message waits for. -/
def messageMisses (c : Cmd) (s : State) : List Nat :=
  s.spanMisses (dgtSrc c.block) (dgtSrcLen c.block) false ++ s.spanMisses (dgtDst c.block) (dgtOutLen c.block) true

/-- Check a keyed command: the unit reads its key as it takes it and keeps it; with an empty slot it performs nothing (R207). -/
def checkKeyed (bad : Vec → Bool) (c : Cmd) (s : State) : Cmd × State :=
  if bad c.block then (c.finish stBadCommand, s)
  else if (s.digestKey (dgtSlot c.block)).isEmpty then (c.finish stKeyEmpty, s)
  else ({ c with key := s.digestKey (dgtSlot c.block) }, s)

def execDgtShake256 (u : Nat) (s : State) : Host.Outcome State Fault Refusal :=
  .next (if u < 32 then s.engineEvent clsDigest u 1 (checkBlock badShake) messageMisses fun c => State.runMessage u (messageDigest c) c
    else s)
def execDgtKmac256 (u : Nat) (s : State) : Host.Outcome State Fault Refusal :=
  .next (if u < 32 then s.engineEvent clsDigest u 2 (checkKeyed badKmac) messageMisses fun c => State.runMessage u (messageDigest c) c
    else s)

/-! ### Blocks (R205, R211, R215, R217) -/

/-- Read block `i` and compute its fingerprint. -/
def State.hashBlock (u : Nat) (key : List Byte) (b : Vec) (i : Nat) (s : State) : Option (BusKind × Nat) × List Byte × State :=
  let (e, bs, s) := s.readSpan (engineSource clsDigest u) (dgtSrc b + 4096 * i) 4096
  (e, if e.isSome then [] else fingerprint key bs, s.countMessage u bs.length 0)

/-- Blocks `i` on, `n` of them, each hashed and its digest written. -/
def State.fingerprintBlocks (u : Nat) : Nat → Nat → Cmd → State → Cmd × State
  | 0, _, c, s => (c.finish stOk, s)
  | n + 1, i, c, s =>
    match s.hashBlock u c.key c.block i with
    | (some err, _, s) => s.dgtError u err c
    | (none, d, s) =>
      match s.writeSpan (engineSource clsDigest u) (dgtDst c.block + 32 * i) d with
      | (some err, _, s) => s.dgtError u err c
      | (none, _, s) => State.fingerprintBlocks u n (i + 1) { c with bytes := c.bytes + 32, detail := i + 1 } (s.countMessage u 0 1)

/-- `MATCH` and `MATCH_N` of a comparison, each comparator's fault inverting its output (R215). -/
def comparators (equal faultMatch faultDiffer : Bool) : Nat × Nat :=
  ((if equal != faultMatch then 1 else 0), (if (! equal) != faultDiffer then 1 else 0))

/-- Blocks `i` on of a VERIFY; bit i of `fm` and `fn` is a fault of the unit's comparators on block i. -/
def State.verifyBlocks (u fm fn : Nat) : Nat → Nat → Cmd → State → Cmd × State
  | 0, _, c, s => (c.finish stOk, s)
  | n + 1, i, c, s =>
    match s.hashBlock u c.key c.block i with
    | (some err, _, s) => s.dgtError u err c
    | (none, d, s) =>
      match s.readSpan (engineSource clsDigest u) (dgtExpect c.block + 32 * i) 32 with
      | (some err, _, s) => s.dgtError u err c
      | (none, want, s) =>
        let (e, m, s) := if dgtDst c.block = 0 then (none, 0, s)
          else s.writeSpan (engineSource clsDigest u) (dgtDst c.block + 32 * i) d
        match e with
        | some err => s.dgtError u err c
        | none =>
          let (x, y) := comparators (decide (d = want)) (fm / 2 ^ i % 2 == 1) (fn / 2 ^ i % 2 == 1)
          let s := if x = y then s.bump (rDgtUnit u + 0x1C) 1 else s
          State.verifyBlocks u fm fn n (i + 1)
            { c with bytes := c.bytes + m, detail := c.detail + x * 2 ^ i + y * 2 ^ (8 + i) } (s.countMessage u 0 1)

/-- The translations FINGERPRINT and VERIFY wait for. -/
def blockMisses (verify : Bool) (c : Cmd) (s : State) : List Nat :=
  let b := c.block
  s.spanMisses (dgtSrc b) (dgtSrcLen b) false
    ++ (if verify then s.spanMisses (dgtExpect b) (32 * dgtCount b) false else [])
    ++ (if verify && dgtDst b == 0 then [] else s.spanMisses (dgtDst b) (32 * dgtCount b) true)

def execDgtFingerprint (u : Nat) (s : State) : Host.Outcome State Fault Refusal :=
  .next (if u < 32 then s.engineEvent clsDigest u 3 (checkKeyed (badBlocks false 64)) (blockMisses false)
      fun c => State.fingerprintBlocks u (dgtCount c.block) 0 c
    else s)
/-- `fm` and `fn` are faults of the unit's two comparators, bit i for block i; 0 in a sound unit (R215). -/
def execDgtVerify (u fm fn : Nat) (s : State) : Host.Outcome State Fault Refusal :=
  .next (if u < 32 then s.engineEvent clsDigest u 4 (checkKeyed (badBlocks true 8)) (blockMisses true)
      fun c => State.verifyBlocks u fm fn (dgtCount c.block) 0 c
    else s)

/-! ### A command that was ended (R219 to R221) -/

/-- Absorb an open part of the message of `n` bytes at `a`; whether all of it was read. -/
def State.absorbPart (u a n : Nat) (s : State) : Bool × List Byte × State :=
  let (k, s) := s.openCount (accessesOf a n).length
  let (e, bs, s) := s.readSpan (engineSource clsDigest u) a (firstAccesses k a n)
  (e.isNone && bs.length == n, bs, s.countMessage u bs.length 0)

/-- What a digest command had done when it was ended: an open part of its message and then of its output, or an open number of its
blocks. -/
def State.stopDigest (u : Nat) (c : Cmd) (s : State) : Cmd × State :=
  let b := c.block
  if opcodeOf b = 1 ∨ opcodeOf b = 2 then
    let (whole, bs, s) := s.absorbPart u (dgtSrc b) (dgtSrcLen b)
    if ¬ whole then (c, s)
    else let (n, s) := s.writeSome (engineSource clsDigest u) (dgtDst b) (messageDigest c bs); ({ c with bytes := n }, s)
  else
    let (k, s) := s.openCount (dgtCount b)
    let (c, s) := if opcodeOf b = 3 then s.fingerprintBlocks u k 0 c else s.verifyBlocks u 0 0 k 0 c
    if k = dgtCount b ∨ c.status ≠ stOk then (c, s)
    else (c, (s.absorbPart u (dgtSrc b + 4096 * k) 4096).2.2)

/-- A command that executes meets a bus error: a message has written nothing, blocks done before stand (R219). -/
def State.failDigest (u : Nat) (c : Cmd) (s : State) : Cmd × State :=
  let b := c.block
  if opcodeOf b = 1 ∨ opcodeOf b = 2 then (c.finish stBusError, (s.absorbPart u (dgtSrc b) (dgtSrcLen b)).2.2)
  else let (c, s) := s.stopDigest u c; (c.finish stBusError, s)

/-! ### Keys and fences (R206, R207, R221) -/

/-- The keeper writes a digest slot, or clears it with an empty key. -/
def State.setDigestKey (slot : Nat) (key : List Byte) (s : State) : State :=
  { s with digestKeys := Sparse.set [] slot key s.digestKeys }

/-- `key` is the 32-byte key that the keeper writes; none clears the slot. -/
def execDigestSlotLoad (slot : Nat) (key : Option (List Byte)) (s : State) : Host.Outcome State Fault Refusal :=
  .next (if 4160 ≤ slot then s else s.setDigestKey slot (match key with | some k => padTo 32 k | none => []))

def execDgtUnitFence (src u : Nat) (s : State) : Host.Outcome State Fault Refusal :=
  .next (if (src = srcGovernor ∨ src = srcHost) ∧ u < 32 then (s.fenceUnit clsDigest u).afterFence src else s)

end Sys2Proof.Machine
end

