-- ==== Sys2Proof/Machine/Cipher.lean ====
section
/-! DEFINITION. Cipher units: ENCRYPT, DECRYPT and CTR, block by block, suspension, and the key slots (chapter 09). -/

namespace Sys2Proof.Machine

def stKeySpent : Nat := 0x0102
def stKeyReadOnly : Nat := 0x0103
def stNotTrusted : Nat := 0x0104

/-! ### Operands (R240) -/

def cphSrc (b : Vec) : Nat := le b 16 8
def cphDst (b : Vec) : Nat := le b 24 8
def cphAux0 (b : Vec) : Nat := le b 32 8
def cphAux1 (b : Vec) : Nat := le b 40 8
def cphLen (b : Vec) : Nat := le b 48 4
def cphSlot (b : Vec) : Nat := le b 52 2 % 4096
def cphHalfB (b : Vec) : Bool := le b 52 2 / 4096 % 2 == 1
def cphWin (b : Vec) : Bool := le b 54 1 % 2 == 1
def cphWout (b : Vec) : Bool := le b 54 1 / 2 % 2 == 1
def cphTagCheck (b : Vec) : Bool := le b 54 1 / 4 % 2 == 1
def cphTagLen (b : Vec) : Nat := le b 55 1

/-- Fields common to the three opcodes out of their ranges. -/
def badCipher (b : Vec) : Bool :=
  decide (2 ^ 48 ≤ cphSrc b) || decide (2 ^ 48 ≤ cphDst b) || decide (2 ^ 48 ≤ cphAux0 b) || decide (2 ^ 48 ≤ cphAux1 b)
    || decide (65536 < cphLen b) || decide (le b 52 2 / 8192 ≠ 0) || decide (le b 54 1 / 8 ≠ 0) || le b 56 8 != 0

/-- ENCRYPT and DECRYPT operands that R240 refuses. -/
def badWhite (b : Vec) : Bool :=
  badCipher b || cphSrc b % 16 != 0 || cphDst b % 16 != 0 || cphAux0 b % 16 != 0 || (! cphWin b && cphAux0 b != 0)
    || cphAux1 b % 16 != 0 || (! cphWout b && cphAux1 b != 0) || decide (cphLen b < 16) || cphLen b % 16 != 0
    || cphTagCheck b || cphTagLen b != 0

/-- CTR operands that R240 refuses. -/
def badCtr (b : Vec) : Bool :=
  badCipher b || cphAux0 b % 16 != 0 || cphLen b == 0 || cphWin b || cphWout b
    || (if cphTagCheck b then cphAux1 b % 16 != 0 || decide (cphTagLen b < 12) || decide (16 < cphTagLen b)
        else cphAux1 b != 0 || cphTagLen b != 0)

/-- Operands that R240 refuses for an opcode: 1 ENCRYPT, 2 DECRYPT, 3 CTR. -/
def badCipherOp (op : Nat) (b : Vec) : Bool := if op = 3 then badCtr b else badWhite b

/-- Data blocks of a command, a last partial one included. -/
def cphBlocks (b : Vec) : Nat := (cphLen b + 15) / 16
/-- Bytes of data block `k`. -/
def cphBlockLen (b : Vec) (k : Nat) : Nat := min 16 (cphLen b - 16 * k)

/-! ### Slots (R245 to R248) -/

/-- Replace a key slot. -/
def State.setCslot (i : Nat) (c : CSlot) (s : State) : State := { s with cipherSlots := Sparse.set CSlot.empty i c s.cipherSlots }

/-- The key copy a command takes: the half it names (R247). -/
def CSlot.half (c : CSlot) (b : Bool) : List Byte := if b then c.halfB else c.halfA

/-- Why a unit performs none of a command whose slot it has just read, 0 when it may go on (R247). -/
def CSlot.refuse (c : CSlot) (op : Nat) (halfB : Bool) : Nat :=
  if c.now = .empty ∨ (halfB ∧ c.halfB = []) then stKeyEmpty
  else if c.now = .exhausted then stKeySpent
  else if c.now = .readOnly ∧ op ≠ 2 ∧ ¬ halfB then stKeyReadOnly
  else 0

/-- Claim one use of half A: the status of a refused claim, 0 when it is granted, and the slot after it (R246, R248). -/
def CSlot.claim (c : CSlot) : Nat × CSlot :=
  match c.now with
  | .loaded => (0, { c with use := c.use + 1 })
  | .exhausted => (stKeySpent, c)
  | .readOnly => (stKeyReadOnly, c)
  | .empty => (stKeyEmpty, c)

/-- Claim `n` uses of a slot's half A one after another; a refused one leaves the slot at its limit (R246). -/
def State.claimUses (i n : Nat) (s : State) : Bool × State :=
  let c := s.cslot i
  if c.now ≠ .loaded then (decide (n = 0), s)
  else if c.limit < c.use + n then (false, s.setCslot i { c with use := c.limit })
  else (true, s.setCslot i { c with use := c.use + n })

/-- The keeper loads a slot: count 0, state LOADED, or READ_ONLY when it retires it at once (R248, R258). -/
def State.loadSlot (i : Nat) (halfA halfB : List Byte) (limit : Nat) (readOnly : Bool) (s : State) : State :=
  (s.setCslot i { halfA := halfA, halfB := halfB, state := if readOnly then .readOnly else .loaded, use := 0,
                  limit := limit % 2 ^ 48 }).bump (rCphSlot i + 0x18) 1
/-- The keeper retires a slot (R248). -/
def State.retireSlot (i : Nat) (s : State) : State :=
  if (s.cslot i).state = .empty then s else s.setCslot i { s.cslot i with state := .readOnly }
/-- The keeper clears a slot (R248). -/
def State.clearSlot (i : Nat) (s : State) : State := s.setCslot i CSlot.empty

/-- Both halves are keys of the same size, half B possibly absent (R245). -/
def goodHalves (a b : List Byte) : Bool := (a.length == 16 || a.length == 32) && (b.isEmpty || b.length == a.length)

/-- A data slot is loaded only once the owner secret has been accepted (R258). -/
def execKeySlotLoad (slot : Nat) (halfA halfB : List Byte) (limit : Nat) (readOnly : Bool) (s : State) : Host.Outcome State Fault Refusal :=
  .next (if slot < 4096 ∧ goodHalves halfA halfB ∧ (4032 ≤ slot ∨ s.kpr.owner = .accepted) then s.loadSlot slot halfA halfB limit readOnly else s)
def execKeySlotRetire (slot : Nat) (s : State) : Host.Outcome State Fault Refusal :=
  .next (if slot < 4096 then s.retireSlot slot else s)
def execKeySlotClear (slot : Nat) (s : State) : Host.Outcome State Fault Refusal :=
  .next (if slot < 4096 then s.clearSlot slot else s)

/-! ### Contexts (R249) -/

/-- Context 0 or 1 of a unit. -/
def State.cphCtx (s : State) (u i : Nat) : CipherCtx := Sparse.get CipherCtx.free (2 * u + i) s.cipherCtx
/-- Replace a context. -/
def State.setCphCtx (u i : Nat) (c : CipherCtx) (s : State) : State :=
  { s with cipherCtx := Sparse.set CipherCtx.free (2 * u + i) c s.cipherCtx }

/-- The command in service, if it is not finished. -/
def State.cphCommand (s : State) (u : Nat) : Option Cmd :=
  match (s.unit clsCipher u).service with
  | c :: _ => if c.live then some c else none
  | [] => none

/-- Replace the command in service. -/
def State.putCipher (u : Nat) (c : Cmd) (s : State) : State :=
  s.modUnit clsCipher u fun e => { e with service := c :: e.service.drop 1 }

/-- End the command in service: its context is cleared. -/
def State.endCipher (u st : Nat) (c : Cmd) (s : State) : State := (s.putCipher u (c.finish st)).setCphCtx u 0 CipherCtx.free

/-- Suspension is due at this block boundary: queue 0 holds a command, and the command in service may be suspended (R249). -/
def State.suspendDue (s : State) (u : Nat) (c : Cmd) : Bool :=
  let e := s.unit clsCipher u
  let x := s.cphCtx u 0
  ! e.q0.isEmpty && c.queue != 0 && e.suspended.isEmpty && decide (0 < c.index) && (! x.resumed || decide (16 ≤ x.sinceResume))

/-! ### One block (R239, R241 to R243) -/

/-- Two spans share a byte. -/
def spansMeet (a n d m : Nat) : Bool := decide (a < d + m) && decide (d < a + n)

/-- The inputs of block `k` overlap the destination of an earlier block: its output is not defined (R241). -/
def blockOpen (b : Vec) (k : Nat) : Bool :=
  let n := cphBlockLen b k
  let hits (a : Nat) := k != 0 && spansMeet (a + 16 * k) n (cphDst b) (16 * k)
  hits (cphSrc b) || (cphWin b && hits (cphAux0 b)) || (cphWout b && hits (cphAux1 b))

/-- Read an input of block `k`: zeros when it is not used. -/
def State.readInput (u : Nat) (used : Bool) (a n : Nat) (s : State) : Option (BusKind × Nat) × List Byte × State :=
  if used then s.readSpan (engineSource clsCipher u) a n else (none, zeros n, s)

/-- The output of block `k` from its inputs. -/
def blockOutput (op : Nat) (key cb src win wout : List Byte) : List Byte :=
  if op = 1 then xorBytes (aesEnc key (xorBytes src win)) wout
  else if op = 2 then xorBytes (aesDec key (xorBytes src win)) wout
  else xorBytes src (aesEnc key cb)

/-- Read the inputs of block `k`. -/
def State.readInputs (u op k : Nat) (b : Vec) (s : State) :
    Option (BusKind × Nat) × (List Byte × List Byte × List Byte) × State :=
  let n := cphBlockLen b k
  match s.readInput u true (cphSrc b + 16 * k) n with
  | (some e, _, s) => (some e, ([], [], []), s)
  | (none, src, s) =>
    match s.readInput u (op != 3 && cphWin b) (cphAux0 b + 16 * k) 16 with
    | (some e, _, s) => (some e, ([], [], []), s)
    | (none, win, s) =>
      match s.readInput u (op != 3 && cphWout b) (cphAux1 b + 16 * k) 16 with
      | (some e, _, s) => (some e, ([], [], []), s)
      | (none, wout, s) => (none, (src, win, wout), s)

/-- Claim a use of the slot for a counted block (R246). -/
def State.claimUse (op : Nat) (b : Vec) (s : State) : Nat × State :=
  if op = 2 ∨ cphHalfB b then (0, s)
  else let (st, c) := (s.cslot (cphSlot b)).claim; (st, s.setCslot (cphSlot b) c)

/-- Count a block processed. -/
def State.countBlock (u : Nat) (s : State) : State :=
  let x := s.cphCtx u 0
  (s.setCphCtx u 0 { x with sinceResume := x.sinceResume + 1 }).bump64 (rCphUnit u + 0x8) 1

/-- A bus error ends the command in service (R261). -/
def State.cphError (u : Nat) (c : Cmd) (e : BusKind × Nat) (s : State) : State :=
  (s.endCipher u stBusError c).engineError clsCipher u e

/-- Process the data block the command stands at. -/
def State.dataBlock (u op : Nat) (c : Cmd) (s : State) : State :=
  let b := c.block
  let k := c.index
  match s.claimUse op b with
  | (st, s) =>
    if st ≠ 0 then s.endCipher u st c
    else
      match s.readInputs u op k b with
      | (some e, _, s) => s.cphError u c e
      | (none, (src, win, wout), s) =>
        let x := s.cphCtx u 0
        let (out, s) := if blockOpen b k then s.freeBytes (cphBlockLen b k)
          else (blockOutput op (if cphHalfB b then x.halfB else x.halfA) x.counter src win wout, s)
        match s.writeSpan (engineSource clsCipher u) (cphDst b + 16 * k) out with
        | (some e, n, s) => s.cphError u { c with bytes := c.bytes + n } e
        | (none, n, s) =>
          let c := { c with bytes := c.bytes + n, index := k + 1 }
          let s := (s.setCphCtx u 0 { x with counter := addCounter 1 x.counter }).countBlock u
          if k + 1 = cphBlocks b ∧ ¬ cphTagCheck b then s.endCipher u stOk c else s.putCipher u c

/-- The value a tag is checked against: Enc(J0) ⊕ S, J0 one below ICB, which is `blocks` below the counter now (R243). -/
def tagValue (key cb gh : List Byte) (blocks : Nat) : List Byte :=
  xorBytes (aesEnc key (addCounter (2 ^ 32 - (blocks + 1) % 2 ^ 32) cb)) gh

/-- Process the tag block of a CTR command (R243). -/
def State.tagBlock (u : Nat) (c : Cmd) (s : State) : State :=
  let b := c.block
  match s.claimUse 3 b with
  | (st, s) =>
    if st ≠ 0 then s.endCipher u st c
    else
      match s.readSpan (engineSource clsCipher u) (cphAux1 b) 32 with
      | (some e, _, s) => s.cphError u c e
      | (none, bs, s) =>
        let x := s.cphCtx u 0
        let t := tagValue (if cphHalfB b then x.halfB else x.halfA) x.counter (bs.take 16) (cphBlocks b)
        let good := decide (t.take (cphTagLen b) = (bs.drop 16).take (cphTagLen b))
        let s := s.countBlock u
        let s := if good then s else s.bump (rCphUnit u + 0x14) 1
        s.endCipher u (if good then stOk else stNotTrusted) { c with detail := c.detail + 256 }

/-- A CTR command whose initial counter block is not read yet (R243). -/
def State.needsIcb (s : State) (u op : Nat) : Bool := op == 3 && (s.cphCtx u 0).counter.isEmpty

/-- Read the initial counter block of a CTR command. -/
def State.readIcb (u : Nat) (c : Cmd) (s : State) : State :=
  match s.readSpan (engineSource clsCipher u) (cphAux0 c.block) 16 with
  | (some e, _, s) => s.cphError u c e
  | (none, icb, s) => s.setCphCtx u 0 { s.cphCtx u 0 with counter := icb }

/-- The translations the next block, or the initial counter block, waits for. -/
def State.blockMissesOf (s : State) (u op : Nat) (c : Cmd) : List Nat :=
  let b := c.block
  let k := c.index
  let n := cphBlockLen b k
  if s.needsIcb u op then s.spanMisses (cphAux0 b) 16 false
  else if k = cphBlocks b then s.spanMisses (cphAux1 b) 32 false
  else s.spanMisses (cphSrc b + 16 * k) n false ++ (if op != 3 && cphWin b then s.spanMisses (cphAux0 b + 16 * k) 16 false else [])
    ++ (if op != 3 && cphWout b then s.spanMisses (cphAux1 b + 16 * k) 16 false else []) ++ s.spanMisses (cphDst b + 16 * k) n true

/-- Take up to `n` steps of the command in service, the read of an initial counter block or one block each, stopping where a
suspension is due or a translation is missing. -/
def State.cipherBlocks (u op : Nat) : Nat → State → State
  | 0, s => s
  | n + 1, s =>
    match s.cphCommand u with
    | none => s
    | some c =>
      if opcodeOf c.block ≠ op ∨ s.suspendDue u c then s
      else if ¬ (s.blockMissesOf u op c).isEmpty then s.askTranslations (s.blockMissesOf u op c)
      else State.cipherBlocks u op n (if s.needsIcb u op then s.readIcb u c else if c.index = cphBlocks c.block then s.tagBlock u c else s.dataBlock u op c)

/-! ### Taking and running (R247) -/

/-- Take a command: its slot is judged and its key kept before any access (R247). -/
def State.checkCipher (u op : Nat) (c : Cmd) (s : State) : Cmd × State :=
  let slot := s.cslot (cphSlot c.block)
  if badCipherOp op c.block then (c.finish stBadCommand, s)
  else if slot.refuse op (cphHalfB c.block) ≠ 0 then (c.finish (slot.refuse op (cphHalfB c.block)), s)
  else (c, s.setCphCtx u 0 { halfA := slot.halfA, halfB := slot.halfB, counter := [], sinceResume := 0, resumed := false })

/-- Take a command of opcode `op`. -/
def State.takeCipher (u op : Nat) (s : State) : State :=
  s.takeCommandIf clsCipher u (fun b => opcodeOf b == op) (State.checkCipher u op)

/-- Take a command if none is in service, then take up to `n` steps of it. -/
def State.runCipher (u op n : Nat) (s : State) : State :=
  State.cipherBlocks u op n (if (s.cphCommand u).isSome then s else s.takeCipher u op)

def execCphEncrypt (u n : Nat) (s : State) : Host.Outcome State Fault Refusal :=
  .next (if u < 128 then s.runCipher u 1 n else s)
def execCphDecrypt (u n : Nat) (s : State) : Host.Outcome State Fault Refusal :=
  .next (if u < 128 then s.runCipher u 2 n else s)
def execCphCtr (u n : Nat) (s : State) : Host.Outcome State Fault Refusal :=
  .next (if u < 128 then s.runCipher u 3 n else s)

/-! ### Suspension (R249) -/

/-- Move the command in service into the second context. -/
def State.suspendCipher (u : Nat) (c : Cmd) (s : State) : State :=
  let x := s.cphCtx u 0
  let c := { c with detail := if c.detail % 256 = 255 then c.detail else c.detail + 1 }
  (((s.modUnit clsCipher u fun e => { e with service := e.service.drop 1, suspended := [c] }).setCphCtx u 1 x).setCphCtx u 0
    CipherCtx.free).bump (rCphUnit u + 0x10) 1

def execCipherSuspend (u : Nat) (s : State) : Host.Outcome State Fault Refusal :=
  .next (match s.cphCommand u with
    | some c => if u < 128 ∧ s.suspendDue u c then s.suspendCipher u c else s
    | none => s)

/-- The suspended command resumes when queue 0 is empty or has had its limit (R249). -/
def State.resumeDue (s : State) (u : Nat) : Bool :=
  let e := s.unit clsCipher u
  let l := arbLimit (s.reg (rArb clsCipher))
  ! e.suspended.isEmpty && e.service.isEmpty && (e.q0.isEmpty || (l != 0 && decide (l ≤ e.q0run)))

/-- Move the suspended command back into service. -/
def State.resumeCipher (u : Nat) (s : State) : State :=
  let x := s.cphCtx u 1
  ((s.modUnit clsCipher u fun e => { e with service := e.suspended, suspended := [], q0run := 0 }).setCphCtx u 0
    { x with sinceResume := 0, resumed := true }).setCphCtx u 1 CipherCtx.free

def execCipherResume (u : Nat) (s : State) : Host.Outcome State Fault Refusal :=
  .next (if u < 128 ∧ s.resumeDue u then s.resumeCipher u else s)

def execCphUnitFence (src u : Nat) (s : State) : Host.Outcome State Fault Refusal :=
  .next (if (src = srcGovernor ∨ src = srcHost) ∧ u < 128 then (s.fenceUnit clsCipher u).afterFence src else s)

end Sys2Proof.Machine
end

