-- ==== Sys2Proof/Machine/Tpc.lean ====
section
/-! DEFINITION. TPC-1, the coded format of folios: the adaptive model, rANS streams, predictors and binarisation shared by
decoding and coding, the checks of a header, and context images (chapters 06 and 07). -/

namespace Sys2Proof.Machine

/-! ### The adaptive model (R196) -/

/-- p of a context. -/
def modelP (m : Sparse (BitVec 16)) (i : Nat) : Nat := (Sparse.get 32768 i m).toNat
/-- The coding probability of a context. -/
def codingP (p : Nat) : Nat := max 1 (min 4095 (p / 16))
/-- p after a decision. -/
def updateP (p bit : Nat) : Nat := if bit = 0 then p + (65536 - p) / 32 else p - p / 32
/-- The model after context `i` codes a decision. -/
def modelUpdate (m : Sparse (BitVec 16)) (i bit : Nat) : Sparse (BitVec 16) :=
  Sparse.set 32768 i (BitVec.ofNat 16 (updateP (modelP m i) bit)) m

/-! ### Geometry, rows and predictors (R184, R189 to R191) -/

/-- Sample size in bytes of a GEOM field. -/
def geomWb (g : Nat) : Nat := bitsOf g 1 0 + 1
/-- Channels of a GEOM field. -/
def geomC (g : Nat) : Nat := bitsOf g 4 2 + 1
/-- STRIDE of a GEOM field. -/
def geomStride (g : Nat) : Nat := bitsOf g 21 5
/-- Frame size F. -/
def geomF (g : Nat) : Nat := geomWb g * geomC g
/-- Row length V (R189). -/
def geomV (g : Nat) : Nat := if geomStride g = 0 then 1024 * geomF g else geomStride g
/-- A GEOM field from width code, channels minus 1 and stride. -/
def mkGeom (width chans stride : Nat) : Nat := width % 4 + (chans % 8) * 4 + (stride % 0x20000) * 32

/-- The lengths of the rows of a body (R189). -/
def rowLengths (v : Nat) : Nat → Nat → List Nat
  | 0, _ => []
  | fuel + 1, body => if body = 0 then [] else min v body :: rowLengths v fuel (body - min v body)

/-- The rows of a folio of `n` bytes. -/
def folioRows (g n : Nat) : List Nat := rowLengths (geomV g) n (n / geomF g * geomF g)

/-- The `wb`-byte sample at distance `d`, in a history held newest byte first; bytes before its start read as 0 (R190). -/
def sampleAt (hist : List Byte) (d : Nat) : Nat → Nat
  | 0 => 0
  | wb + 1 => (hist.getD (d - 1) 0).toNat + 256 * sampleAt hist (d - 1) wb

/-- The prediction of a sample of channel `c` by a selector (R191). -/
def predictSample (g sel c : Nat) (hist : List Byte) : Nat :=
  let wb := geomWb g
  let f := geomF g
  let v := geomV g
  let a := sampleAt hist f wb
  match sel with
  | 0 => 0
  | 1 => a
  | 2 => sampleAt hist v wb
  | 3 => (a + sampleAt hist v wb) / 2
  | 4 =>
    let b := sampleAt hist v wb
    let x := sampleAt hist (v + f) wb
    if max a b ≤ x then min a b else if x ≤ min a b then max a b else a + b - x
  | _ =>
    if c = 0 then a
    else (sampleAt hist wb wb + a + 2 ^ (8 * wb) - sampleAt hist (f + wb) wb) % 2 ^ (8 * wb)

/-- Context of the order-2 byte model (R194). -/
def byteContext (hist : List Byte) (node : Nat) : Nat :=
  2414 + (65521 * (hist.getD 1 0).toNat + 257 * (hist.getD 0 0).toNat + node) % 12288

/-- Context of a unary length decision (R193). -/
def lengthContext (sel kp1 kp2 k : Nat) : Nat := 48 + (sel * 12 + min 11 ((kp1 + kp2 + 1) / 2)) * 32 + k

/-! ### Decoding (R192 to R199) -/

/-- A rANS stream: its state, the bytes not read, and the offset of the next of them in the folio (R197). -/
structure RStream where
  x : Nat
  rest : List Byte
  pos : Nat
  deriving DecidableEq, Repr

/-- A decode in progress; once `fail` holds an offset nothing more is decoded. -/
structure Decoding where
  model : Sparse (BitVec 16)
  streams : List RStream
  /-- Decisions decoded so far. -/
  count : Nat
  /-- History, newest byte first. -/
  hist : List Byte
  /-- Bytes decoded so far, newest first. -/
  out : List Byte
  /-- Unary lengths of the last two samples of each channel (R193). -/
  kp1 : List Nat
  kp2 : List Nat
  fail : Option Nat
  deriving DecidableEq, Repr

/-- Read bytes until the state is large enough; `none` in the last place when the stream ran out (R197). -/
def renorm (x pos : Nat) : List Byte → Nat × List Byte × Nat × Bool
  | [] => (x, [], pos, decide (0x800000 ≤ x))
  | b :: t => if x < 0x800000 then renorm (x * 256 + b.toNat) (pos + 1) t else (x, b :: t, pos, true)

/-- One decision of probability `p` from the stream whose turn it is (R197). -/
def Decoding.decideP (p : Nat) (d : Decoding) : Nat × Decoding :=
  if d.fail.isSome then (0, d)
  else
    let i := d.count % 4
    let r := d.streams.getD i { x := 0x800000, rest := [], pos := 0 }
    let slot := r.x % 4096
    let bit := if slot < p then 0 else 1
    let x := if slot < p then p * (r.x / 4096) + slot else (4096 - p) * (r.x / 4096) + slot - p
    let (y, rest, pos, ok) := renorm x r.pos r.rest
    (bit, { d with streams := setNth i { x := y, rest := rest, pos := pos } d.streams
                   count := d.count + 1
                   fail := if ok then none else some pos })

/-- One decision of an adaptive context (R196). -/
def Decoding.decide (i : Nat) (d : Decoding) : Nat × Decoding :=
  let (bit, e) := d.decideP (codingP (modelP d.model i))
  (bit, if e.fail.isSome then e else { e with model := modelUpdate e.model i bit })

/-- One decision of fixed probability. -/
def Decoding.decideHalf (d : Decoding) : Nat × Decoding := d.decideP 2048

/-- Append a decoded byte; nothing is appended after a failure. -/
def Decoding.push (b : Nat) (d : Decoding) : Decoding :=
  if d.fail.isSome then d else { d with hist := BitVec.ofNat 8 b :: d.hist, out := BitVec.ofNat 8 b :: d.out }

/-- The selector of a row (R192). -/
def Decoding.selector (prev : Nat) (d : Decoding) : Nat × Decoding :=
  let (b0, d) := d.decide (prev * 6)
  if b0 = 0 then
    let (hi, d) := d.decide (prev * 6 + 1)
    let (lo, d) := d.decide (prev * 6 + 2 + hi)
    (2 * hi + lo, d)
  else
    let (b4, d) := d.decide (prev * 6 + 4)
    if b4 = 0 then
      let (lo, d) := d.decide (prev * 6 + 5)
      (4 + lo, d)
    else (6, d)

/-- The unary length of a residue, from `k` on; `n` decisions at most remain (R193). -/
def Decoding.unary (base : Nat) : Nat → Nat → Decoding → Nat × Decoding
  | 0, k, d => (k, d)
  | n + 1, k, d =>
    let (b, e) := d.decide (base + k)
    if b = 0 then (k, e) else Decoding.unary base n (k + 1) e

/-- The bits below the leading 1, `n` of them left, of a residue of length `k` (R193). -/
def Decoding.lowBits (k : Nat) : Nat → Nat → Decoding → Nat × Decoding
  | 0, u, d => (u, d)
  | n + 1, u, d =>
    let (b, e) := if n = k - 2 then d.decide (2352 + (k - 2) * 2)
                  else if n + 1 = k - 2 then d.decide (2352 + (k - 2) * 2 + 1)
                  else d.decideHalf
    Decoding.lowBits k n (2 * u + b) e

/-- The residue that a zigzag value stands for, modulo 2^w. -/
def unzigzag (w u : Nat) : Nat := if u % 2 = 0 then u / 2 % 2 ^ w else (2 ^ w - (u + 1) / 2) % 2 ^ w

/-- One sample of a numeric row (R191, R193). -/
def Decoding.sample (g sel c : Nat) (d : Decoding) : Decoding :=
  let w := 8 * geomWb g
  let kp1 := d.kp1.getD c 0
  let (k, d) := d.unary (lengthContext sel kp1 (d.kp2.getD c 0) 0) w 0
  let (u, d) := if k = 0 then (0, d) else d.lowBits k (k - 1) 1
  let v := (predictSample g sel c d.hist + unzigzag w u) % 2 ^ w
  let d := { d with kp2 := setNth c kp1 d.kp2, kp1 := setNth c k d.kp1 }
  (leBytes (geomWb g) v).foldl (fun d b => d.push b.toNat) d

/-- One byte coded bit by bit (R194). -/
def Decoding.byteBits : Nat → Nat → Decoding → Nat × Decoding
  | 0, node, d => (node, d)
  | n + 1, node, d =>
    let (b, e) := d.decide (byteContext d.hist node)
    Decoding.byteBits n (2 * node + b) e

/-- One byte of a selector-6 row or of the tail (R194). -/
def Decoding.byte (d : Decoding) : Decoding :=
  let (node, e) := Decoding.byteBits 8 1 d
  e.push (node - 256)

/-- Do a thing `n` times. -/
def times {α : Type} (f : α → α) : Nat → α → α
  | 0, x => x
  | n + 1, x => times f n (f x)

/-- One frame of a numeric row. -/
def Decoding.frame (g sel : Nat) (d : Decoding) : Decoding :=
  (List.range (geomC g)).foldl (fun d c => d.sample g sel c) d

/-- The rows of the body (R199). -/
def Decoding.rows (g : Nat) : List Nat → Nat → Decoding → Decoding
  | [], _, d => d
  | len :: t, prev, d =>
    let (sel, d) := d.selector prev
    let d := if sel = 6 then times Decoding.byte len d
             else times (Decoding.frame g sel) (len / geomF g)
               { d with kp1 := List.replicate (geomC g) 0, kp2 := List.replicate (geomC g) 0 }
    Decoding.rows g t sel d

/-- The offset of the first stream that does not end as R198 requires. -/
def streamsEnd : List RStream → Option Nat
  | [] => none
  | r :: t =>
    if ¬ r.rest.isEmpty then some r.pos
    else if r.x ≠ 0x800000 then some r.pos
    else streamsEnd t

/-- A stream of the payload: its bytes start at `pos` (R197). -/
def RStream.start (bs : List Byte) (pos : Nat) : RStream := { x := leAt bs 0 4, rest := bs.drop 4, pos := pos + 4 }

/-- Decode the payload of a CODED folio of decoded length `n` against a context (R199). -/
def decodePayload (g n : Nat) (lens : List Nat) (payload : List Byte) (ctx : CoderCtx) : Decoding :=
  let l0 := lens.getD 0 0
  let l1 := lens.getD 1 0
  let l2 := lens.getD 2 0
  let s0 := RStream.start (payload.take l0) 16
  let s1 := RStream.start ((payload.drop l0).take l1) (16 + l0)
  let s2 := RStream.start ((payload.drop (l0 + l1)).take l2) (16 + l0 + l1)
  let s3 := RStream.start (payload.drop (l0 + l1 + l2)) (16 + l0 + l1 + l2)
  let d : Decoding := { model := ctx.model, streams := [s0, s1, s2, s3], count := 0, hist := ctx.window.reverse, out := [],
                        kp1 := [], kp2 := [], fail := none }
  let d := Decoding.rows g (folioRows g n) 7 d
  let d := times Decoding.byte (n % geomF g) d
  if d.fail.isSome then d else { d with fail := streamsEnd d.streams }

/-! ### Headers (R184 to R188) -/

def hdrKind (f : List Byte) : Nat := leAt f 1 1 % 4
def hdrStart (f : List Byte) : Bool := leAt f 1 1 / 4 % 2 == 1
def hdrPosition (f : List Byte) : Nat := leAt f 1 1 / 8 % 8
def hdrGeom (f : List Byte) : Nat := leAt f 2 3
/-- The decoded length. -/
def hdrDecoded (f : List Byte) : Nat := leAt f 5 2 % 0x8000 + 1
def hdrCoded (f : List Byte) : Nat := leAt f 7 2
def hdrLen (f : List Byte) (i : Nat) : Nat := leAt f (9 + 2 * i) 2
/-- LINK of the trailer of a folio of `n` bytes. -/
def trailerLink (f : List Byte) (n : Nat) : Nat := leAt f (n - 8) 4

/-- The offset at which a header is not well formed, if anywhere (R188). -/
def headerFault (f : List Byte) : Option Nat :=
  let raw := hdrKind f == 1 || hdrKind f == 2
  if leAt f 0 1 ≠ 0xB1 then some 0
  else if hdrKind f = 3 then some 1
  else if leAt f 1 1 / 64 ≠ 0 then some 1
  else if leAt f 4 1 / 64 ≠ 0 then some 4
  else if leAt f 6 1 / 128 ≠ 0 then some 6
  else if hdrCoded f < 25 ∨ 32792 < hdrCoded f then some 7
  else if hdrStart f ∧ hdrPosition f ≠ 0 then some 1
  else if hdrKind f = 0 ∧ (65536 < geomStride (hdrGeom f) ∨ geomStride (hdrGeom f) % geomF (hdrGeom f) ≠ 0) then some 2
  else if hdrKind f = 0 ∧ hdrDecoded f + 24 ≤ hdrCoded f then some 7
  else if raw ∧ hdrGeom f ≠ 0 then some 2
  else if raw ∧ hdrLen f 0 ≠ 0 then some 9
  else if raw ∧ hdrLen f 1 ≠ 0 then some 11
  else if raw ∧ hdrLen f 2 ≠ 0 then some 13
  else if raw ∧ hdrCoded f ≠ hdrDecoded f + 24 then some 7
  else if hdrKind f = 2 ∧ (hdrStart f ∨ hdrPosition f ≠ 0) then some 1
  else none

/-- A folio may continue the chain of a context (R201). -/
def continuesChain (ctx : CoderCtx) (position link : Nat) : Bool :=
  match ctx.chain with
  | none => false
  | some p => decide (p ≤ 6) && position == p + 1
      && (let d := wrapTo 32 ((link : Int) - (ctx.link : Int)); decide (1 ≤ d) && decide (d ≤ 0x7FFFFFFF))

/-- What a decode gave: its class status, cause and offset, the bytes produced, and the context after it. -/
structure DecodeResult where
  status : Nat
  cause : Nat
  offset : Nat
  out : List Byte
  raw : Bool
  continued : Bool
  after : CoderCtx
  deriving DecidableEq, Repr

def stCodedCorrupt : Nat := 0x0100
def stContextInvalid : Nat := 0x0101
def stChainBroken : Nat := 0x0102

/-- A decode that failed; the queue's context is reset (R169). -/
def DecodeResult.failed (st cause off : Nat) (out : List Byte) : DecodeResult :=
  { status := st, cause := cause, offset := off, out := out, raw := false, continued := false, after := CoderCtx.reset }

/-- The last 65,536 bytes of a window followed by a folio (R200). -/
def windowAfter (w out : List Byte) : List Byte := (w ++ out).drop ((w ++ out).length - 65536)

/-- The header shows a continuation (R169). -/
def hdrContinues (f : List Byte) : Bool := hdrKind f ≠ 2 && ! hdrStart f

/-- A decode that failed after its header was read: DETAIL still says what the header shows (R173). -/
def DecodeResult.failedIn (f : List Byte) (st cause off : Nat) (out : List Byte) : DecodeResult :=
  { DecodeResult.failed st cause off out with raw := hdrKind f ≠ 0, continued := hdrContinues f }

/-- Decode a coded folio against a context, with the checks of R187 in order. -/
def decodeFolio (f : List Byte) (srcLen expect : Nat) (ctx : CoderCtx) : DecodeResult :=
  if leAt f 15 1 ≠ crc32c (f.take 15) % 256 then DecodeResult.failed stCodedCorrupt 2 15 []
  else match headerFault f with
  | some o => DecodeResult.failed stCodedCorrupt 1 o []
  | none =>
    let n := hdrDecoded f
    if hdrCoded f ≠ srcLen ∨ n ≠ expect then DecodeResult.failedIn f stLengthMismatch 0 0 []
    else if leAt f (srcLen - 4) 4 ≠ crc32c (f.take (srcLen - 4)) then DecodeResult.failedIn f stCodedCorrupt 5 (srcLen - 4) []
    else
      let len3 := (srcLen : Int) - 24 - hdrLen f 0 - hdrLen f 1 - hdrLen f 2
      if hdrKind f = 0 ∧ (hdrLen f 0 < 4 ∨ hdrLen f 1 < 4 ∨ hdrLen f 2 < 4 ∨ len3 < 4) then
        DecodeResult.failedIn f stCodedCorrupt 3 9 []
      else
        let link := trailerLink f srcLen
        let cont := hdrContinues f
        if cont && ! continuesChain ctx (hdrPosition f) link then DecodeResult.failedIn f stChainBroken 0 0 []
        else
          let base := if cont then ctx else CoderCtx.reset
          let payload := (f.drop 16).take (srcLen - 24)
          if hdrKind f = 0 then
            let d := decodePayload (hdrGeom f) n [hdrLen f 0, hdrLen f 1, hdrLen f 2] payload base
            let out := d.out.reverse
            match d.fail with
            | some o => DecodeResult.failedIn f stCodedCorrupt 4 o out
            | none => { status := 0, cause := 0, offset := 0, out := out, raw := false, continued := cont,
                        after := { chain := some (hdrPosition f), link := link, geom := hdrGeom f, model := d.model,
                                   window := windowAfter base.window out } }
          else if hdrKind f = 1 then
            { status := 0, cause := 0, offset := 0, out := payload, raw := true, continued := cont,
              after := { base with chain := some (hdrPosition f), link := link, geom := 0,
                                   window := windowAfter base.window payload } }
          else { status := 0, cause := 0, offset := 0, out := payload, raw := true, continued := false,
                 after := CoderCtx.reset }

/-! ### Coding (R161 to R163, R192 to R198) -/

/-- The zigzag value of the least residue from a prediction to a sample of `w` bits. -/
def zigzag (w pred v : Nat) : Nat :=
  let r := signedOf w ((v + 2 ^ w - pred % 2 ^ w) % 2 ^ w)
  if 0 ≤ r then (2 * r).toNat else (-2 * r - 1).toNat

/-- Bits in a number. -/
def bitLength (u : Nat) : Nat := if u = 0 then 0 else u.log2 + 1

/-- A coding in progress: the model, the decisions made (newest first) as probability and bit, and the history. -/
structure Coding where
  model : Sparse (BitVec 16)
  decs : List (Nat × Nat)
  hist : List Byte
  kp1 : List Nat
  kp2 : List Nat
  deriving DecidableEq, Repr

/-- Code a decision of an adaptive context. -/
def Coding.put (i bit : Nat) (c : Coding) : Coding :=
  { c with decs := (codingP (modelP c.model i), bit) :: c.decs, model := modelUpdate c.model i bit }
/-- Code a decision of fixed probability. -/
def Coding.half (bit : Nat) (c : Coding) : Coding := { c with decs := (2048, bit) :: c.decs }

/-- Code a selector (R192). -/
def Coding.selector (prev sel : Nat) (c : Coding) : Coding :=
  let n := prev * 6
  if sel < 4 then ((c.put n 0).put (n + 1) (sel / 2)).put (n + 2 + sel / 2) (sel % 2)
  else if sel < 6 then ((c.put n 1).put (n + 4) 0).put (n + 5) (sel - 4)
  else (c.put n 1).put (n + 4) 1

/-- Code a unary length `k`, from position `j`, with at most `n` decisions left (R193). -/
def Coding.unary (base k : Nat) : Nat → Nat → Coding → Coding
  | 0, _, c => c
  | n + 1, j, c => if j = k then c.put (base + j) 0 else Coding.unary base k n (j + 1) (c.put (base + j) 1)

/-- Code the low bits of a residue (R193). -/
def Coding.lowBits (k u : Nat) : Nat → Coding → Coding
  | 0, c => c
  | n + 1, c =>
    let b := u / 2 ^ n % 2
    Coding.lowBits k u n (if n = k - 2 then c.put (2352 + (k - 2) * 2) b
                          else if n + 1 = k - 2 then c.put (2352 + (k - 2) * 2 + 1) b
                          else c.half b)

/-- Take bytes into the history. -/
def Coding.take (bs : List Byte) (c : Coding) : Coding := { c with hist := bs.reverse ++ c.hist }

/-- Code one sample of a numeric row. -/
def Coding.sample (g sel ch : Nat) (bs : List Byte) (c : Coding) : Coding :=
  let w := 8 * geomWb g
  let u := zigzag w (predictSample g sel ch c.hist) (ofLe bs)
  let k := bitLength u
  let kp1 := c.kp1.getD ch 0
  let c := Coding.unary (lengthContext sel kp1 (c.kp2.getD ch 0) 0) k w 0 c
  let c := if k = 0 then c else Coding.lowBits k u (k - 1) c
  { c.take bs with kp2 := setNth ch kp1 c.kp2, kp1 := setNth ch k c.kp1 }

/-- Code the bits of a byte (R194). -/
def Coding.byteBits (b : Nat) : Nat → Nat → Coding → Coding
  | 0, _, c => c
  | n + 1, node, c =>
    let bit := b / 2 ^ n % 2
    Coding.byteBits b n (2 * node + bit) (c.put (byteContext c.hist node) bit)

/-- Code one byte of a selector-6 row or of the tail. -/
def Coding.byte (c : Coding) (b : Byte) : Coding := (Coding.byteBits b.toNat 8 1 c).take [b]

/-- The samples of a row, each with its channel. -/
def rowSamples (g : Nat) (row : List Byte) : List (Nat × List Byte) :=
  (pieces (geomWb g) row).zipIdx.map fun (bs, i) => (i % geomC g, bs)

/-- The estimate of a numeric predictor over a row (R162 step 1). -/
def rowEstimate (g sel : Nat) (hist : List Byte) (row : List Byte) : Nat :=
  ((rowSamples g row).foldl (fun (acc : Nat × List Byte) p =>
    (acc.1 + 1 + bitLength (zigzag (8 * geomWb g) (predictSample g sel p.1 acc.2) (ofLe p.2)), p.2.reverse ++ acc.2))
    (0, hist)).1

/-- The numeric predictors available to a row that starts at offset `start` of the folio (R162). -/
def rowPredictors (g start fill : Nat) : List Nat :=
  [1] ++ (if geomStride g ≠ 0 ∧ (0 < start ∨ geomV g ≤ fill) then [2, 3, 4] else []) ++ (if 1 < geomC g then [5] else [])

/-- The first of the least estimates: predictor and estimate. -/
def leastOf : List (Nat × Nat) → Nat × Nat
  | [] => (1, 0)
  | [x] => x
  | x :: t => let y := leastOf t; if x.2 ≤ y.2 then x else y

/-- The selector of a row (R162). -/
def chooseSelector (g start fill : Nat) (leftOnly : Bool) (hist row : List Byte) : Nat :=
  if leftOnly then (leastOf [(1, rowEstimate g 1 hist row), (0, rowEstimate g 0 hist row)]).1
  else
    let best := leastOf ((rowPredictors g start fill).map fun p => (p, rowEstimate g p hist row))
    if 8 * row.length < best.2 then 0 else if 6 * row.length < best.2 then 6 else best.1

/-- Code the rows of a body that starts at offset `start`; `fill` is the fill of the window (R192, R199). -/
def Coding.rows (g fill : Nat) (leftOnly : Bool) : List Nat → Nat → Nat → List Byte → Coding → Coding
  | [], _, _, _, c => c
  | len :: t, prev, start, data, c =>
    let row := data.take len
    let sel := chooseSelector g start fill leftOnly c.hist row
    let c := c.selector prev sel
    let c := if sel = 6 then row.foldl Coding.byte c
             else (rowSamples g row).foldl (fun c p => c.sample g sel p.1 p.2)
               { c with kp1 := List.replicate (geomC g) 0, kp2 := List.replicate (geomC g) 0 }
    Coding.rows g fill leftOnly t sel (start + len) (data.drop len) c

/-- The cost of a geometry (R161). -/
def geometryCost (g fill : Nat) : List Nat → Nat → List Byte → List Byte → Nat
  | [], _, _, _ => 0
  | len :: t, start, hist, data =>
    let row := data.take len
    (leastOf ((rowPredictors g start fill).map fun p => (p, rowEstimate g p hist row))).2
      + geometryCost g fill t (start + len) (row.reverse ++ hist) (data.drop len)

/-- The ten frames in trial order, as width code and channels minus 1 (R161). -/
def frameOrder : List (Nat × Nat) := [(0, 0), (0, 2), (0, 3), (1, 0), (1, 1), (1, 3), (2, 0), (2, 1), (3, 0), (3, 1)]

/-- The geometry that analysis chooses (R161): least cost, then the earlier frame, then the smaller stride. -/
def searchGeometry (data window : List Byte) (last : Option Nat) : Nat :=
  let strides := 0 :: ((Config.strideCandidates data window).take 16 ++ last.toList)
  let cands := frameOrder.flatMap fun (w, c) =>
    let ok := strides.filter fun s => s % ((w + 1) * (c + 1)) == 0 && decide (s ≤ 65536)
    (ok.mergeSort (· ≤ ·)).map fun s => mkGeom w c s
  (leastOf (cands.map fun g => (g, geometryCost g window.length (folioRows g data.length) 0 window.reverse data))).1

/-- Bytes of a rANS state put in front of a stream until a decision of frequency `f` fits (R198). -/
def ransFlush (f : Nat) : Nat → Nat → List Byte → Nat × List Byte
  | 0, x, out => (x, out)
  | n + 1, x, out => if 2 ^ 19 * f ≤ x then ransFlush f n (x / 256) (BitVec.ofNat 8 x :: out) else (x, out)

/-- Encode decisions given newest first (R198). -/
def ransEncode : List (Nat × Nat) → Nat → List Byte → List Byte
  | [], x, out => leBytes 4 x ++ out
  | (p, bit) :: t, x, out =>
    let f := if bit = 0 then p else 4096 - p
    let st := if bit = 0 then 0 else p
    let (y, out) := ransFlush f 4 x out
    ransEncode t (y / f * 4096 + y % f + st) out

/-- The decisions of stream `i`, newest first, of `n` decisions given newest first. -/
def streamDecisions (i n : Nat) (decs : List (Nat × Nat)) : List (Nat × Nat) :=
  (decs.zipIdx.filter fun p => (n - 1 - p.2) % 4 == i).map (·.1)

/-- A header with its HCHK (R184). -/
def folioHeader (kind : Nat) (start : Bool) (position geom n coded l0 l1 l2 : Nat) : List Byte :=
  let h := leBytes 1 0xB1 ++ leBytes 1 (kind + (if start then 4 else 0) + position * 8) ++ leBytes 3 geom ++ leBytes 2 (n - 1)
    ++ leBytes 2 coded ++ leBytes 2 l0 ++ leBytes 2 l1 ++ leBytes 2 l2
  h ++ leBytes 1 (crc32c h % 256)

/-- A folio from its header, payload and LINK (R185). -/
def folioBytes (header payload : List Byte) (link : Nat) : List Byte :=
  let b := header ++ payload ++ leBytes 4 link
  b ++ leBytes 4 (crc32c b)

/-- The raw escape: RAW in its chain, or RAW_ISOLATED (R186). -/
def rawFolio (isolated start : Bool) (position link : Nat) (data : List Byte) : List Byte :=
  folioBytes (folioHeader (if isolated then 2 else 1) start position 0 data.length (data.length + 24) 0 0 0) data link

/-- The coded form of a folio in a geometry, and the model after it (R192 to R198). -/
def codeFolio (g : Nat) (leftOnly start : Bool) (position link : Nat) (data : List Byte) (ctx : CoderCtx) :
    List Byte × Sparse (BitVec 16) :=
  let n := data.length
  let c : Coding := { model := ctx.model, decs := [], hist := ctx.window.reverse, kp1 := [], kp2 := [] }
  let body := n / geomF g * geomF g
  let c := Coding.rows g ctx.window.length leftOnly (folioRows g n) 7 0 (data.take body) c
  let c := (data.drop body).foldl Coding.byte c
  let m := c.decs.length
  let s (i : Nat) := ransEncode (streamDecisions i m c.decs) 0x800000 []
  let payload := s 0 ++ s 1 ++ s 2 ++ s 3
  (folioBytes (folioHeader 0 start position g n (payload.length + 24) (s 0).length (s 1).length (s 2).length) payload link,
   c.model)

/-! ### Context images (R170, R171) -/

/-- A context image with a given CHECK. -/
def imageBytes (c : CoderCtx) (check : Nat) : List Byte :=
  leBytes 4 0x58434B54 ++ leBytes 2 1 ++ leBytes 1 (c.chain.getD 0xFF) ++ leBytes 1 0 ++ leBytes 8 c.link
    ++ leBytes 4 c.window.length ++ leBytes 4 c.geom ++ zeros 36 ++ leBytes 4 check
    ++ ((List.range 14702).flatMap fun i => leBytes 2 (modelP c.model i)) ++ zeros 3300
    ++ zeros (65536 - c.window.length) ++ c.window

/-- The context image a lane saves. -/
def packImage (c : CoderCtx) : List Byte := imageBytes c (crc32c (imageBytes c 0))

/-- The context an image holds, or none when R171 finds it invalid. -/
def unpackImage (b : List Byte) : Option CoderCtx :=
  let pos := leAt b 6 1
  let fill := leAt b 16 4
  let geom := leAt b 20 4
  if leAt b 0 4 = 0x58434B54 ∧ leAt b 4 2 = 1 ∧ leAt b 7 1 = 0 ∧ (pos ≤ 7 ∨ pos = 0xFF) ∧ fill ≤ 65536 ∧ geom / 2 ^ 22 = 0
      ∧ (slice b 24 36).all (· == 0) ∧ (slice b 29468 3300).all (· == 0)
      ∧ (slice b 32768 (65536 - fill)).all (· == 0) ∧ leAt b 60 4 = crc32c (patch b 60 (zeros 4)) then
    some { chain := if pos = 0xFF then none else some pos, link := leAt b 8 8, geom := geom,
           model := (List.range 14702).filterMap fun i =>
             let p := leAt b (64 + 2 * i) 2
             if p = 32768 then none else some (i, BitVec.ofNat 16 p),
           window := slice b (98304 - fill) fill }
  else none

end Sys2Proof.Machine
end

