-- ==== Sys2Proof/Machine/Coder.lean ====
section
/-! DEFINITION. Coder and decoder lanes: ENCODE, DECODE, the three stages, contexts and their resets (chapter 06). -/

namespace Sys2Proof.Machine

/-! ### Operands (R157 to R159) -/

def laneSrc (b : Vec) : Nat := le b 16 8
def laneDst (b : Vec) : Nat := le b 24 8
def laneSrcLen (b : Vec) : Nat := le b 32 4
/-- DST_CAP of ENCODE, EXPECT_LEN of DECODE. -/
def laneLen2 (b : Vec) : Nat := le b 36 4
def ctxAddrOf (b : Vec) : Nat := le b 40 8
def laneFlag (b : Vec) (i : Nat) : Bool := le b 48 2 / 2 ^ i % 2 == 1
def chainStartOf (b : Vec) : Bool := laneFlag b 0
def loadCtxOf (b : Vec) : Bool := laneFlag b 1
def saveCtxOf (b : Vec) : Bool := laneFlag b 2
def fixedGeomOf (b : Vec) : Bool := laneFlag b 3
def leftOnlyOf (b : Vec) : Bool := laneFlag b 4
def noOutputOf (b : Vec) : Bool := laneFlag b 5
def laneStride (b : Vec) : Nat := le b 52 4
def laneLink (b : Vec) : Nat := le b 56 8
/-- The geometry that FIXED_GEOM gives. -/
def fixedGeom (b : Vec) : Nat := mkGeom (le b 50 1 % 4) (le b 50 1 / 4) (laneStride b)
/-- The command is an ENCODE. -/
def isEncode (b : Vec) : Bool := opcodeOf b == 1

/-- A context image address that R159 refuses: CTX_ADDR itself is judged. -/
def badCtxAddr (b : Vec) : Bool :=
  let a := ctxAddrOf b
  if loadCtxOf b || saveCtxOf b then
    a == 0 || a % 64 != 0 || ! (decide (a < 0x4000000000) || (decide (0x010000000000 ≤ a) && decide (a < 0x050000000000))
      || (decide (sramBase ≤ a) && decide (a < sramBase + 0xB800000)))
  else a != 0

/-- An ENCODE's operands break R157 or R159. -/
def badEncode (b : Vec) : Bool :=
  decide (2 ^ 48 ≤ laneSrc b) || decide (2 ^ 48 ≤ laneDst b) || laneSrcLen b == 0 || decide (32768 < laneSrcLen b)
    || decide (laneLen2 b < laneSrcLen b + 24) || decide (2 ^ 48 ≤ ctxAddrOf b) || decide (le b 48 2 / 32 ≠ 0)
    || decide (32 ≤ le b 50 1) || le b 51 1 != 0 || (! fixedGeomOf b && (le b 50 1 != 0 || laneStride b != 0))
    || (chainStartOf b && loadCtxOf b) || badCtxAddr b
    || (fixedGeomOf b && (decide (65536 < laneStride b) || laneStride b % ((le b 50 1 % 4 + 1) * (le b 50 1 / 4 + 1)) != 0))

/-- A DECODE's operands break R158 or R159. -/
def badDecode (b : Vec) : Bool :=
  decide (2 ^ 48 ≤ laneSrc b) || decide (2 ^ 48 ≤ laneDst b) || (noOutputOf b && laneDst b != 0)
    || decide (laneSrcLen b < 25) || decide (32792 < laneSrcLen b) || laneLen2 b == 0 || decide (32768 < laneLen2 b)
    || decide (2 ^ 48 ≤ ctxAddrOf b) || chainStartOf b || fixedGeomOf b || leftOnlyOf b || decide (le b 48 2 / 64 ≠ 0)
    || le b 50 8 != 0 || le b 58 6 != 0 || badCtxAddr b

/-- A command starts from a context of its own: CHAIN_START or an image (R588). -/
def ownStart (b : Vec) : Bool := (isEncode b && chainStartOf b) || loadCtxOf b

/-! ### Contexts of the queues (R155, R588) -/

/-- The context a command leaves, once it has one: an ENCODE after its coding, any command once it has ended. -/
def Cmd.leaves (c : Cmd) : Option CoderCtx :=
  match c.job with
  | some j => if c.done || (isEncode c.block && decide (0 < j.stage)) then some j.after else none
  | none => none

/-- The commands of the queue that the lane took before `c` and has not recorded; those that performed nothing are passed over. -/
def EngUnit.before (e : EngUnit) (c : Cmd) : List Cmd :=
  (e.service.takeWhile fun x => ! c.same x).filter fun x => x.queue == c.queue && x.job.isSome

/-- The context a command starts from (R588); none while a command before it still has to leave one. -/
def State.startCtx (s : State) (cls u : Nat) (c : Cmd) (j : LaneJob) : Option CoderCtx :=
  if isEncode c.block ∧ chainStartOf c.block then some CoderCtx.reset
  else if j.loaded.isSome then j.loaded
  else match ((s.unit cls u).before c).getLast? with
    | some x => x.leaves
    | none => some (s.laneCtx cls u c.queue)

/-! ### Coding (R161, R164 to R168) -/

/-- Code an ENCODE from a context; `keep` is the geometry that an earlier analysis chose. -/
def codeJob (b : Vec) (j : LaneJob) (ctx : CoderCtx) (keep : Option Nat) : LaneJob :=
  let link := laneLink b % 2 ^ 32
  let cont := ! chainStartOf b && continuesChain ctx (ctx.chain.getD 0 + 1) link
  let base := if cont then ctx else CoderCtx.reset
  let pos := if cont then ctx.chain.getD 0 + 1 else 0
  let geom := match keep with
    | some g => g
    | none =>
      if fixedGeomOf b then fixedGeom b
      else if leftOnlyOf b then 0
      else searchGeometry j.input base.window (if cont then some (geomStride base.geom) else none)
  let (coded, model) := codeFolio geom (leftOnlyOf b) (! cont) pos link j.input base
  let short := coded.length < j.input.length + 24
  { j with
    geom := geom, position := pos, coded := coded, base := base, verdict := none,
    outcome := if short then 0 else 1,
    restarted := keep.isSome || (! chainStartOf b && ! cont),
    after := { chain := some pos, link := link, geom := if short then geom else 0,
               model := if short then model else base.model, window := windowAfter base.window j.input } }

/-- Code again the commands of a queue that continue from a command whose context was reset (R168, R588): those already coded
are coded as new chain starts in the geometry they have. The first that starts from a context of its own, or that has ended, ends the
reach. -/
def recode (q : Nat) : List Cmd → CoderCtx → List Cmd
  | [], _ => []
  | c :: t, ctx =>
    match c.job with
    | none => c :: recode q t ctx
    | some j =>
      if c.queue ≠ q then c :: recode q t ctx
      else if c.done ∨ c.stop ≠ 0 ∨ ownStart c.block ∨ j.stage = 0 ∨ ¬ isEncode c.block then c :: t
      else
        let j := codeJob c.block j ctx (some j.geom)
        { c with job := some j } :: recode q t j.after

/-- A command ends with a status other than OK and BAD_COMMAND, or RAW_FORCED: it leaves the reset context, and what continues from it
is coded again (R166, R168, R169, R171, R175). -/
def State.endReset (cls u : Nat) (c : Cmd) (j : LaneJob) (s : State) : State :=
  let s := s.putCommand cls u { c with done := true, job := some { j with after := CoderCtx.reset } }
  s.modUnit cls u fun e =>
    let upTo := e.service.takeWhile fun x => ! c.same x
    { e with service := upTo ++ (e.service.drop upTo.length).take 1
                          ++ recode c.queue ((e.service.drop upTo.length).drop 1) CoderCtx.reset }

/-- A command ends: with its context, or with a reset. -/
def State.endLane (cls u : Nat) (c : Cmd) (j : LaneJob) (s : State) : State :=
  if c.status = stOk then s.putCommand cls u { c with done := true, job := some j } else s.endReset cls u c j

/-! ### First reads (R153, R160, R171) -/

/-- Load the context image of a command that asks for it. -/
def State.loadImage (cls u : Nat) (b : Vec) (j : LaneJob) (s : State) : LaneJob × State :=
  if ¬ loadCtxOf b then (j, s)
  else
    let (e, bs, s) := s.readSpan (engineSource cls u) (ctxAddrOf b) 98304
    match e with
    | some err => ({ j with failed := stBusError }, s.engineError cls u err)
    | none => match unpackImage bs with
      | some c => ({ j with loaded := some c }, s)
      | none => ({ j with failed := stContextInvalid }, s)

/-- Read the input of an ENCODE. -/
def State.loadInput (cls u : Nat) (b : Vec) (j : LaneJob) (s : State) : LaneJob × State :=
  if ¬ isEncode b ∨ j.failed ≠ 0 then (j, s)
  else
    let (e, bs, s) := s.readSpan (engineSource cls u) (laneSrc b) (laneSrcLen b)
    match e with
    | some err => ({ j with failed := stBusError }, s.engineError cls u err)
    | none => ({ j with input := bs }, s)

/-- The first reads of a command: its image, then an ENCODE's input. -/
def State.firstReads (cls u : Nat) (b : Vec) (j : LaneJob) (s : State) : LaneJob × State :=
  let (j, s) := s.loadImage cls u b j
  let (j, s) := s.loadInput cls u b j
  ({ j with ready := true }, s)

/-- Check a lane's command; it enters the first stage. -/
def checkLane (c : Cmd) (s : State) : Cmd × State :=
  (if (if isEncode c.block then badEncode c.block else badDecode c.block) then c.finish stBadCommand
   else { c with job := some LaneJob.start }, s)

/-- The command whose first reads are to be made. -/
def State.awaitingReads (s : State) (cls u op : Nat) : Option (Cmd × LaneJob) :=
  ((s.unit cls u).service.filterMap fun c => match c.job with
    | some j => if c.live && opcodeOf c.block == op && ! j.ready then some (c, j) else none
    | none => none).head?

/-- One event of a lane's opcode: the lane takes its next command, if it is one, and checks it; else it makes the first reads of the one
it has taken. -/
def State.laneEvent (cls u op : Nat) (s : State) : State :=
  if s.takesNext cls u op then s.takeCommandIf cls u (fun b => opcodeOf b == op) checkLane
  else match s.awaitingReads cls u op with
    | none => s
    | some (c, j) =>
      let m := if isEncode c.block then s.spanMisses (laneSrc c.block) (laneSrcLen c.block) false else []
      if ¬ m.isEmpty then s.askTranslations m
      else let (j, s) := s.firstReads cls u c.block j; s.putCommand cls u { c with job := some j }

def execCmpEncode (u : Nat) (s : State) : Host.Outcome State Fault Refusal :=
  .next (if u < 32 then s.laneEvent clsCoder u 1 else s)

/-! ### Context images (R171) -/

/-- Save a context image when the command asks for it: the error it met. -/
def State.saveImage (cls u : Nat) (b : Vec) (ctx : CoderCtx) (s : State) : Option (BusKind × Nat) × State :=
  if ¬ saveCtxOf b then (none, s)
  else let (e, _, s) := s.writeSpan (engineSource cls u) (ctxAddrOf b) (packImage ctx); (e, s)

/-! ### Decoding (R158, R169, R174) -/

/-- The output bytes that are written of a decode: whole 64-byte lines of the destination, and the last part of a line once
every byte is decoded (R589). -/
def writtenOutput (dst n : Nat) (out : List Byte) : List Byte :=
  if out.length = n then out else out.take ((dst + out.length) / 64 * 64 - dst)

/-- The counter of output bytes of a lane. -/
def laneOutBytes (cls u : Nat) : Nat := if cls = clsCoder then rCmpLane u + 0x10 else rCmpDec u + 0x8

/-- DETAIL of a DECODE: RAW and CONTINUED whatever the status, CAUSE and OFFSET with CODED_CORRUPT (R173). -/
def decodeDetail (r : DecodeResult) : Nat :=
  (if r.raw then 1 else 0) + (if r.continued then 2 else 0)
    + (if r.status = stCodedCorrupt then r.cause * 2 ^ 8 + r.offset * 2 ^ 16 else 0)

/-- The output of a decode as the command writes it. -/
def decodeOutput (b : Vec) (r : DecodeResult) : List Byte :=
  if noOutputOf b then [] else writtenOutput (laneDst b) (laneLen2 b) r.out

/-- Write what a command decoded, and save its context after the last write; the command as it ends (R171, R174, R589). -/
def State.writeDecoded (cls u : Nat) (c : Cmd) (r : DecodeResult) (s : State) : Cmd × State :=
  let w := s.writeSpan (engineSource cls u) (laneDst c.block) (decodeOutput c.block r)
  let t := w.2.2.bump64 (laneOutBytes cls u) w.2.1
  let c := { c.finish r.status with bytes := w.2.1, detail := decodeDetail r }
  match w.1 with
  | some err => ({ c with status := stBusError, detail := decodeDetail { r with status := stBusError } }, t.engineError cls u err)
  | none =>
    if r.status ≠ stOk then (c, t)
    else match t.saveImage cls u c.block r.after with
      | (some err, t) => ({ c with status := stBusError }, t.engineError cls u err)
      | (none, t) => (c, t)

/-- The pages a decode waits for. -/
def decodeMisses (b : Vec) (s : State) : List Nat :=
  s.spanMisses (laneSrc b) (laneSrcLen b) false ++ (if noOutputOf b then [] else s.spanMisses (laneDst b) (laneLen2 b) true)

/-- Decode a command from a context, write what it produces, and end it. -/
def State.decodeCommand (cls u : Nat) (c : Cmd) (j : LaneJob) (ctx : CoderCtx) (s : State) : State :=
  match s.readSpan (engineSource cls u) (laneSrc c.block) (laneSrcLen c.block) with
  | (some err, _, s) => (s.engineError cls u err).endLane cls u (c.finish stBusError) j
  | (none, bs, s) =>
    let r := decodeFolio bs (laneSrcLen c.block) (laneLen2 c.block) ctx
    let (c, s) := s.writeDecoded cls u c r
    s.endLane cls u c { j with after := r.after }

/-- The decoding of a command whose first reads are made and whose context stands. -/
def State.finishDecode (cls u : Nat) (c : Cmd) (j : LaneJob) (s : State) : State :=
  if j.failed ≠ 0 then s.endLane cls u (c.finish j.failed) j
  else match s.startCtx cls u c j with
    | none => s
    | some ctx =>
      if ¬ (decodeMisses c.block s).isEmpty then s.askTranslations (decodeMisses c.block s)
      else s.decodeCommand cls u c j ctx

/-- The DECODE that a decoder lane has in service, its first reads made. -/
def State.decoding (s : State) (u : Nat) : Option (Cmd × LaneJob) :=
  match s.executing clsDecoder u 2 with
  | some c => c.job.bind fun j => if j.ready then some (c, j) else none
  | none => none

/-- One event of DECODE: on a decoder lane the command is taken, its image loaded, and decoded; on a coder lane it is taken into the
stages (R153, R156). -/
def execCmpDecode (cls u : Nat) (s : State) : Host.Outcome State Fault Refusal :=
  .next (if cls = clsCoder ∧ u < 32 then s.laneEvent clsCoder u 2
    else if cls = clsDecoder ∧ u < 48 then
      match s.decoding u with
      | some (c, j) => s.finishDecode clsDecoder u c j
      | none => s.laneEvent clsDecoder u 2
    else s)

/-! ### Stages (R153, R164 to R166, R589) -/

/-- A command in a stage of a coder lane. -/
def State.inStage (s : State) (u stage : Nat) : Option (Cmd × LaneJob) :=
  match (s.unit clsCoder u).service.find? (Cmd.inStage stage) with
  | some c => c.job.map fun j => (c, j)
  | none => none

/-- DETAIL of an ENCODE (R173). -/
def encodeDetail (j : LaneJob) (outcome pos : Nat) : Nat :=
  outcome + (if j.restarted then 8 else 0) + (j.geom % 4) * 2 ^ 4 + (j.geom / 4 % 8) * 2 ^ 6 + geomStride j.geom * 2 ^ 9
    + pos * 2 ^ 26

/-- The lane's own decoder restores the input from the coded form and the context coding started from (R164). -/
def verifies (j : LaneJob) : Bool :=
  let r := decodeFolio j.coded j.coded.length j.input.length j.base
  r.status == stOk && r.out == j.input

/-- Verification agreed. -/
def LaneJob.agreed (j : LaneJob) : Bool := j.verdict.getD false

/-- The outcome of an ENCODE whose verification is over (R165). -/
def LaneJob.released (j : LaneJob) : Nat := if j.agreed then j.outcome else 2

/-- The form an ENCODE releases (R165). -/
def releasedForm (b : Vec) (j : LaneJob) : List Byte :=
  let link := laneLink b % 2 ^ 32
  match j.released with
  | 0 => j.coded
  | 1 => rawFolio false (j.position == 0) j.position link j.input
  | _ => rawFolio true false 0 link j.input

/-- DETAIL of an ENCODE whose verification is over. -/
def releasedDetail (j : LaneJob) : Nat := encodeDetail j j.released (if j.agreed then j.position else 0)

/-- Verification compares the last byte (R164): the outcome is counted, and the release writes begin; a command that saves its context
keeps the stage (R153, R589). `sound` is whether the comparison met no fault of the lane. -/
def State.verifyEncode (u : Nat) (c : Cmd) (j : LaneJob) (sound : Bool) (s : State) : State :=
  let j := { j with verdict := some (sound && verifies j), stage := if saveCtxOf c.block then 2 else 3 }
  let s := if j.released = 1 then s.bump (rCmpLane u + 0x18) 1 else if j.released = 2 then s.bump (rCmpLane u + 0x1C) 1 else s
  s.putCommand clsCoder u { c with job := some j }

/-- The release writes of an ENCODE, its context image, and its end (R166, R175, R589). -/
def State.release (u : Nat) (c : Cmd) (j : LaneJob) (s : State) : State :=
  let w := s.writeSpan (engineSource clsCoder u) (laneDst c.block) (releasedForm c.block j)
  let t := w.2.2.bump64 (rCmpLane u + 0x10) w.2.1
  let j := { j with after := if j.agreed then j.after else CoderCtx.reset }
  let c := { c.finish stOk with bytes := w.2.1, detail := releasedDetail j }
  let e := match w.1 with
    | some err => (some err, t)
    | none => t.saveImage clsCoder u c.block j.after
  match e with
  | (some err, t) => (t.engineError clsCoder u err).endReset clsCoder u { c with status := stBusError } j
  | (none, t) => if j.agreed then t.endLane clsCoder u c j else t.endReset clsCoder u c j

/-- A command leaves analysis for coding: an ENCODE is coded once the context it starts from stands (R167, R588). -/
def State.leaveAnalysis (u : Nat) (c : Cmd) (j : LaneJob) (s : State) : State :=
  if ¬ isEncode c.block then s.putCommand clsCoder u { c with job := some { j with stage := 1 } }
  else match s.startCtx clsCoder u c j with
    | none => s
    | some ctx => s.putCommand clsCoder u { c with job := some { codeJob c.block j ctx none with stage := 1 } }

/-- Release, once the translations of the destination are there. -/
def State.releaseWhenReady (u : Nat) (c : Cmd) (j : LaneJob) (s : State) : State :=
  let m := s.spanMisses (laneDst c.block) (laneSrcLen c.block + 24) true
  if ¬ m.isEmpty then s.askTranslations m else s.release u c j

/-- Verification's time is over, and the release before it is done: an ENCODE is verified and then released, a DECODE is decoded. -/
def State.leaveVerification (u : Nat) (c : Cmd) (j : LaneJob) (sound : Bool) (s : State) : State :=
  if (s.inStage u 3).isSome then s
  else if ¬ isEncode c.block then s.finishDecode clsCoder u c j
  else if j.verdict.isNone then s.verifyEncode u c j sound
  else s.releaseWhenReady u c j

/-- A stage finishes a command's time (R153); stage 3 is the release writes that occupy none. -/
def State.stageComplete (u stage : Nat) (sound : Bool) (s : State) : State :=
  match s.inStage u stage with
  | none => s
  | some (c, j) =>
    if stage = 0 ∧ ¬ j.ready then s
    else if stage = 0 ∧ j.failed ≠ 0 then s.endLane clsCoder u (c.finish j.failed) j
    else if stage < 2 ∧ (s.inStage u (stage + 1)).isSome then s
    else if stage = 0 then s.leaveAnalysis u c j
    else if stage = 1 then s.putCommand clsCoder u { c with job := some { j with stage := 2 } }
    else if stage = 2 then s.leaveVerification u c j sound
    else s.releaseWhenReady u c j

def execCoderStageComplete (u stage : Nat) (sound : Bool) (s : State) : Host.Outcome State Fault Refusal :=
  .next (if u < 32 ∧ stage < 4 then s.stageComplete u stage sound else s)

/-! ### A command that was ended (R175, R176) -/

/-- The output an ended command may have been writing, with the context image that follows it. -/
def State.laneOutput (cls u : Nat) (c : Cmd) (j : LaneJob) (s : State) : List Byte × List Byte × State :=
  let image (ctx : CoderCtx) := if saveCtxOf c.block then packImage ctx else []
  if isEncode c.block then
    if j.verdict.isNone then ([], [], s)
    else (releasedForm c.block j, image (if j.agreed then j.after else CoderCtx.reset), s)
  else if ¬ j.ready ∨ j.failed ≠ 0 ∨ (cls = clsCoder ∧ j.stage ≠ 2) then ([], [], s)
  else match s.startCtx cls u c j with
    | none => ([], [], s)
    | some ctx =>
      match s.readSpan (engineSource cls u) (laneSrc c.block) (laneSrcLen c.block) with
      | (some _, _, s) => ([], [], s)
      | (none, bs, s) =>
        let r := decodeFolio bs (laneSrcLen c.block) (laneLen2 c.block) ctx
        (decodeOutput c.block r, if r.status = stOk then image r.after else [], s)

/-- DETAIL of an ended ENCODE: what analysis chose, and the outcome once verification is over (R173). -/
def stoppedDetail (b : Vec) (j : LaneJob) : Nat :=
  if ¬ isEncode b ∨ j.stage = 0 then 0 else if j.verdict.isNone then encodeDetail j 0 0 else releasedDetail j

/-- What a lane's command had written when it was ended: an open part of its output, and after all of it of its context image. -/
def State.stopLane (cls u : Nat) (c : Cmd) (s : State) : Cmd × State :=
  match c.job with
  | none => (c, s)
  | some j =>
    let (out, image, s) := s.laneOutput cls u c j
    let (n, s) := s.writeSome (engineSource cls u) (laneDst c.block) out
    let s := s.bump64 (laneOutBytes cls u) n
    let s := if n = out.length then (s.writeSome (engineSource cls u) (ctxAddrOf c.block) image).2 else s
    ({ c with bytes := n, detail := stoppedDetail c.block j }, s)

/-! ### Fences (R176) -/

def execCmpLaneFence (src u : Nat) (s : State) : Host.Outcome State Fault Refusal :=
  .next (if (src = srcGovernor ∨ src = srcHost) ∧ u < 32 then (s.fenceUnit clsCoder u).afterFence src else s)
def execCmpDecFence (src u : Nat) (s : State) : Host.Outcome State Fault Refusal :=
  .next (if (src = srcGovernor ∨ src = srcHost) ∧ u < 48 then (s.fenceUnit clsDecoder u).afterFence src else s)

end Sys2Proof.Machine
end

