-- ==== Sys2Proof/Machine/Parity.lean ====
section
/-! DEFINITION. Parity engines: GENERATE, RECONSTRUCT and CHECK, line by line (R298, R306 to R313). -/

namespace Sys2Proof

/-! ### Arithmetic over strips (R298, R313) -/

/-- g^n in GF(2^8), g = 2. -/
def gPow : Nat → Nat
  | 0 => 1
  | n + 1 => gfDouble 8 0x1D (gPow n)

/-- a^n in GF(2^8). -/
def gf8Pow (a : Nat) : Nat → Nat
  | 0 => 1
  | n + 1 => gf8Mul a (gf8Pow a n)

/-- The inverse in GF(2^8): a^254. -/
def gf8Inv (a : Nat) : Nat := gf8Pow a 254

/-- Multiply each byte of a strip. -/
def scaleBytes (k : Nat) (s : List Byte) : List Byte := s.map fun b => BitVec.ofNat 8 (gf8Mul k b.toNat)

/-- The sum of strips of `n` bytes. -/
def sumStrips (n : Nat) (l : List (List Byte)) : List Byte := l.foldl xorBytes (zeros n)

/-- The sum of data strips weighted by g^m; each strip comes with its member index. -/
def weighStrips (n : Nat) (l : List (Nat × List Byte)) : List Byte :=
  l.foldl (fun a p => xorBytes a (scaleBytes (gPow p.1) p.2)) (zeros n)

/-- P over strips of `n` bytes. -/
def stripP (n : Nat) (data : List (Nat × List Byte)) : List Byte := sumStrips n (data.map (·.2))
/-- Q over strips of `n` bytes. -/
def stripQ (n : Nat) (data : List (Nat × List Byte)) : List Byte := weighStrips n data

end Sys2Proof

namespace Sys2Proof.Machine

/-! ### Operands (R307, R308) -/

def parTable (b : Vec) : Nat := le b 16 8
def parLen (b : Vec) : Nat := le b 24 4
def parD (b : Vec) : Nat := le b 28 1
def parMiss0 (b : Vec) : Nat := le b 29 1
def parMiss1 (b : Vec) : Nat := le b 30 1
def parDst (b : Vec) : Nat := le b 32 8

/-- Operands that R308 refuses, for opcode 1 GENERATE, 2 RECONSTRUCT, 3 CHECK. -/
def badParity (op : Nat) (b : Vec) : Bool :=
  let w := parD b + 2
  decide (2 ^ 48 ≤ parTable b) || parTable b % 8 != 0 || decide (parLen b < 64) || decide (65536 < parLen b) || parLen b % 64 != 0
    || decide (parD b < 4) || decide (32 < parD b) || le b 31 1 != 0 || le b 40 8 != 0 || le b 48 8 != 0 || le b 56 8 != 0
    || (if op = 2 then decide (w ≤ parMiss0 b) || (parMiss1 b != 0xFF && (decide (w ≤ parMiss1 b) || decide (parMiss1 b ≤ parMiss0 b)))
        else parMiss0 b != 0xFF || parMiss1 b != 0xFF)
    || (if op = 3 then decide (2 ^ 48 ≤ parDst b) || parDst b % 64 != 0 else parDst b != 0)

/-- The entries of a member table. -/
def tableEntries (bs : List Byte) : List Nat := (pieces 8 bs).map ofLe

/-- Every entry of a member table is an address R307 allows. -/
def goodTable (t : List Nat) : Bool := t.all fun a => a % 64 == 0 && decide (a < 2 ^ 48)

/-- Members a command writes. -/
def parWritten (op : Nat) (b : Vec) : List Nat :=
  if op = 1 then [parD b, parD b + 1]
  else if op = 2 then (if parMiss1 b = 0xFF then [parMiss0 b] else [parMiss0 b, parMiss1 b])
  else []

/-- Members a command reads, in member order: RECONSTRUCT reads the D that the equations of R313 need. -/
def parRead (op : Nat) (b : Vec) : List Nat :=
  let d := parD b
  let data := List.range d
  if op = 1 then data
  else if op = 3 then data ++ [d, d + 1]
  else
    let miss := parWritten op b
    let left := data.filter fun m => ! miss.contains m
    match (miss.filter fun m => decide (m < d)).length with
    | 0 => left
    | 1 => left ++ [if miss.contains d then d + 1 else d]
    | _ => left ++ [d, d + 1]

/-! ### Recovery of one line (R313) -/

/-- Missing members of one line of 64 bytes from those read. -/
def recoverLine (d : Nat) (miss : List Nat) (read : List (Nat × List Byte)) : List (Nat × List Byte) :=
  let data := read.filter fun p => decide (p.1 < d)
  let p := ((read.find? fun x => x.1 == d).map (·.2)).getD []
  let q := ((read.find? fun x => x.1 == d + 1).map (·.2)).getD []
  let lost := miss.filter fun m => decide (m < d)
  let found : List (Nat × List Byte) :=
    match lost with
    | [x] =>
      if miss.contains d then [(x, scaleBytes (gf8Inv (gPow x)) (xorBytes q (weighStrips 64 data)))]
      else [(x, xorBytes p (sumStrips 64 (data.map (·.2))))]
    | [x, y] =>
      let a := xorBytes p (sumStrips 64 (data.map (·.2)))
      let b := xorBytes q (weighStrips 64 data)
      let dy := scaleBytes (gf8Inv (gPow x ^^^ gPow y)) (xorBytes b (scaleBytes (gPow x) a))
      [(x, xorBytes a dy), (y, dy)]
    | _ => []
  let whole := data ++ found
  found ++ (if miss.contains d then [(d, stripP 64 whole)] else []) ++ (if miss.contains (d + 1) then [(d + 1, stripQ 64 whole)] else [])

/-- SP and SQ of one line. -/
def syndromes (d : Nat) (read : List (Nat × List Byte)) : List Byte × List Byte :=
  let data := read.filter fun p => decide (p.1 < d)
  let p := ((read.find? fun x => x.1 == d).map (·.2)).getD []
  let q := ((read.find? fun x => x.1 == d + 1).map (·.2)).getD []
  (xorBytes p (stripP 64 data), xorBytes q (stripQ 64 data))

/-! ### Running a command (R306, R310) -/

/-- Read one line of each member in turn. -/
def State.readMembers (e o : Nat) (table : List Nat) : List Nat → State → Option (BusKind × Nat) × List (Nat × List Byte) × State
  | [], s => (none, [], s)
  | m :: t, s =>
    match s.busRead (engineSource clsParity e) (table.getD m 0 + o) 64 with
    | (some k, _, s) => (some (k, table.getD m 0 + o), [], s)
    | (none, bs, s) =>
      let (r, l, s) := State.readMembers e o table t (s.bump64 (rParEng e + 0x8) 64)
      (r, (m, bs) :: l, s)

/-- Write lines, each at its address; those of an open destination hold open bytes. -/
def State.writeLines (e : Nat) : List (Nat × Bool × List Byte) → Nat → State → Option (BusKind × Nat) × Nat × State
  | [], n, s => (none, n, s)
  | (a, opened, bs) :: t, n, s =>
    let (bs, s) := if opened then s.freeBytes 64 else (bs, s)
    match s.busWrite (engineSource clsParity e) a (enableAll bs) with
    | (some k, s) => (some (k, a), n, s)
    | (none, s) => State.writeLines e t (n + 64) s

/-- A destination of `n` bytes overlaps a source of the command (R306). -/
def parOverlap (table : List Nat) (reads : List Nat) (len a n : Nat) : Bool :=
  reads.any fun m => decide (table.getD m 0 < a + n) && decide (a < table.getD m 0 + len)

/-- Addresses and bytes to write for one line at offset `o`. -/
def lineWrites (op : Nat) (b : Vec) (table : List Nat) (o : Nat) (read : List (Nat × List Byte)) : List (Nat × Bool × List Byte) :=
  let hits (a n : Nat) := parOverlap table (parRead op b) (parLen b) a n
  if op = 3 then
    if parDst b = 0 then []
    else
      let (sp, sq) := syndromes (parD b) read
      let x := hits (parDst b) (2 * parLen b)
      [(parDst b + o, x, sp), (parDst b + parLen b + o, x, sq)]
  else (recoverLine (parD b) (parWritten op b) read).map fun p =>
    (table.getD p.1 0 + o, hits (table.getD p.1 0) (parLen b), p.2)

/-- Process `n` lines from offset `o` on; the syndromes of CHECK are kept. -/
def State.parLines (e op : Nat) (table : List Nat) : Nat → Nat → Cmd → State → Cmd × (List Byte × List Byte) × State
  | 0, _, c, s => (c.finish stOk, ([], []), s)
  | n + 1, o, c, s =>
    match s.readMembers e o table (parRead op c.block) with
    | (some err, _, s) => (c.finish stBusError, ([], []), s.engineError clsParity e err)
    | (none, read, s) =>
      match s.writeLines e (lineWrites op c.block table o read) 0 with
      | (some err, m, s) => ({ c.finish stBusError with bytes := c.bytes + m }, ([], []), s.engineError clsParity e err)
      | (none, m, s) =>
        let (c, syn, s) := State.parLines e op table n (o + 64) { c with bytes := c.bytes + m } s
        let here := if op = 3 then syndromes (parD c.block) read else ([], [])
        (c, (here.1 ++ syn.1, here.2 ++ syn.2), s)

/-- The member that all damaged bytes point to, if they point to one (R309). -/
def locate (d : Nat) (sp sq : List Byte) : Option Nat :=
  let bad := (sp.zip sq).filter fun x => x.1 != 0 || x.2 != 0
  if bad.isEmpty then none
  else (List.range d).find? fun z => bad.all fun x => x.1 != 0 && x.2 != 0 && x.2.toNat == gf8Mul (gPow z) x.1.toNat

/-- DETAIL of a CHECK that ended with OK (R309). -/
def checkDetail (d : Nat) (sp sq : List Byte) : Nat :=
  let any (l : List Byte) := l.any fun x => x != 0
  let z := locate d sp sq
  let bad := (sp.zip sq).map fun x => x.1 != 0 || x.2 != 0
  (if any sp then 1 else 0) + (if any sq then 2 else 0) + (if z.isSome then 4 else 0) + z.getD 0 * 2 ^ 8
    + (if bad.any id then bad.findIdx id else 0) * 2 ^ 32
    + (((pieces 64 bad).filter fun l => l.any id).length) * 2 ^ 48

/-- Finish a command that has run: CHECK reports its findings, which are counted (R309, R327). -/
def State.closeParity (e op : Nat) (c : Cmd) (syn : List Byte × List Byte) (s : State) : Cmd × State :=
  if op ≠ 3 ∨ c.status ≠ stOk then (c, s)
  else
    let d := checkDetail (parD c.block) syn.1 syn.2
    let s := if d % 4 ≠ 0 then s.bump (rParEng e + 0x10) 1 else s
    let s := if d / 4 % 2 = 1 then s.bump (rParEng e + 0x14) 1 else s
    ({ c with detail := d }, s)

/-- The translations a command waits for: its member table's, then its members' and its destination's. -/
def parMisses (op : Nat) (c : Cmd) (s : State) : List Nat :=
  let b := c.block
  match s.peekSpan (parTable b) (8 * (parD b + 2)) with
  | .miss p => p
  | .error _ _ => []
  | .bytes bs =>
    let t := tableEntries bs
    if ¬ goodTable t then []
    else ((parRead op b).flatMap fun m => s.spanMisses (t.getD m 0) (parLen b) false)
      ++ ((parWritten op b).flatMap fun m => s.spanMisses (t.getD m 0) (parLen b) true)
      ++ (if op = 3 ∧ parDst b ≠ 0 then s.spanMisses (parDst b) (2 * parLen b) true else [])

/-- Run `n` lines of a command after its member table is read (R308). -/
def State.runParity (e op n : Nat) (c : Cmd) (s : State) : Cmd × State :=
  match s.readSpan (engineSource clsParity e) (parTable c.block) (8 * (parD c.block + 2)) with
  | (some err, _, s) => (c.finish stBusError, s.engineError clsParity e err)
  | (none, bs, s) =>
    if ¬ goodTable (tableEntries bs) then (c.finish stBadCommand, s)
    else
      let (c, syn, s) := s.parLines e op (tableEntries bs) n 0 c
      if n = parLen c.block / 64 then s.closeParity e op c syn else (c, s)

/-- One event of a parity opcode on an engine. -/
def State.parityEvent (e op : Nat) (s : State) : State :=
  if e < 8 then s.engineEvent clsParity e op (checkBlock (badParity op)) (parMisses op)
    fun c => State.runParity e op (parLen c.block / 64) c
  else s

def execParGenerate (e : Nat) (s : State) : Host.Outcome State Fault Refusal := .next (s.parityEvent e 1)
def execParReconstruct (e : Nat) (s : State) : Host.Outcome State Fault Refusal := .next (s.parityEvent e 2)
def execParCheck (e : Nat) (s : State) : Host.Outcome State Fault Refusal := .next (s.parityEvent e 3)

/-- What a command had done when it was ended: an open number of its lines (R310). -/
def State.stopParity (e : Nat) (c : Cmd) (s : State) : Cmd × State :=
  let (k, s) := s.openCount (parLen c.block / 64 - 1)
  let (c, s) := s.runParity e (opcodeOf c.block) k c
  ({ c with detail := 0 }, s)

def execParEngFence (src e : Nat) (s : State) : Host.Outcome State Fault Refusal :=
  .next (if (src = srcGovernor ∨ src = srcHost) ∧ e < 8 then (s.fenceUnit clsParity e).afterFence src else s)

end Sys2Proof.Machine
end

