-- ==== Sys2Proof/Machine/Carriers.lean ====
section
/-! DEFINITION. Carriers: their rings and ports, and what each carrier command does (R386 to R403). -/

namespace Sys2Proof.Machine

/-! ### Carrier statuses (R398) -/

def csOk : Nat := 0
def csBadCommand : Nat := 1
def csDataTransfer : Nat := 2
def csRange : Nat := 3
def csOrder : Nat := 4
def csNotErased : Nat := 5
def csUnwritten : Nat := 6
def csUncorrectable : Nat := 7
def csProgramFailed : Nat := 8
def csEraseFailed : Nat := 9
def csRetired : Nat := 0xA
def csNotOwner : Nat := 0xB
def csEpochStale : Nat := 0xC
def csLabelled : Nat := 0xD

/-! ### Ports and memory (R391, R393) -/

/-- Change one port of a carrier. -/
def State.modPort (slot port : Nat) (f : CPort → CPort) (s : State) : State :=
  s.modCar slot fun c => c.setPort port (f (c.port port))

/-- A root port passes a request for this range: the carrier is in service, and the range lies in the LPDDR, the stream pool or
a cluster buffer (R393). -/
def State.portPasses (s : State) (slot a n : Nat) (en : Bool) : Bool :=
  (s.car slot).inService && (decide (a + n ≤ 2 ^ 35 * s.lpdChannels) || (decide (sramBase ≤ a) && decide (a + n ≤ sramBase + 0xA000000)))
    && s.route a n == .mem && (en || ! s.touchesDamage a n)

/-- A carrier writes memory through this head's root port; false when it is refused. -/
def State.portWrite (slot a : Nat) (bs : List Byte) (s : State) : Bool × State :=
  if s.portPasses slot a bs.length true then (true, s.performWrite a (bs.map fun b => (true, b))) else (false, s)

/-- A ring's size is one that R390 allows. -/
def ringSize (n : Nat) : Bool := (List.range 9).any fun i => n == 16 * 2 ^ i

/-- Write CONTROL.ENABLE with the bases and sizes of a port's rings; READY follows (R390, R391). -/
def State.enablePort (slot port cplBase cplSize : Nat) (subBase subSize : List Nat) (s : State) : State :=
  let p := (s.car slot).port port
  if ¬ p.linkUp ∨ p.enable ∨ ¬ ringSize cplSize ∨ cplBase % 4096 ≠ 0 ∨ subBase.length ≠ 4 ∨ subSize.length ≠ 4
      ∨ ¬ subSize.all ringSize ∨ ¬ subBase.all (fun a => a % 4096 == 0) then s
  else s.modPort slot port fun p =>
    { p with enable := true, ready := true, cplBase := cplBase, cplSize := cplSize, subBase := subBase, subSize := subSize }

def execCarrierEnable (slot port cplBase cplSize : Nat) (subBase subSize : List Nat) (s : State) : Host.Outcome State Fault Refusal :=
  .next (if slot < 96 ∧ port < 2 then s.enablePort slot port cplBase cplSize subBase subSize else s)

def execCarrierReset (slot port : Nat) (s : State) : Host.Outcome State Fault Refusal :=
  .next (if slot < 96 ∧ port < 2 then s.resetCarrierPort slot port else s)

/-! ### Fetching (R392, R399) -/

/-- Ring `r` of a port holds a command the carrier has not fetched. -/
def CPort.ringWaits (p : CPort) (r : Nat) : Bool := p.subHead.getD r 0 != p.subTail.getD r 0

/-- The ring the carrier fetches from next: ring 0 first, then 1 to 3 in turn (R399). -/
def CPort.nextRing (p : CPort) : Option Nat :=
  if p.ringWaits 0 then some 0
  else [p.turn % 3 + 1, (p.turn + 1) % 3 + 1, (p.turn + 2) % 3 + 1].find? p.ringWaits

/-- The carrier takes a fetched entry. -/
def Carrier.take (port r head : Nat) (entry : List Byte) (c : Carrier) : Carrier :=
  let p := c.port port
  let x : CCmd := { port := port, ring := r, bytes := padTo 64 entry, subHead := head,
                    wpAtFetch := (c.group (leAt entry 8 4)).wp, outcome := .none }
  { (c.setPort port { p with subHead := setNth r head p.subHead, turn := if r = 0 then p.turn else r }) with fetched := c.fetched ++ [x] }

/-- The carrier fetches the next entry of a port of this head from memory. -/
def State.fetchEntry (slot : Nat) (s : State) : State :=
  let port := s.ownPort
  let p := (s.car slot).port port
  if ¬ p.ready ∨ ¬ p.linkUp then s
  else match p.nextRing with
    | none => s
    | some r =>
      let i := p.subHead.getD r 0
      let a := p.subBase.getD r 0 + 64 * i
      if ¬ s.portPasses slot a 64 false then s
      else (s.correct a 64).modCar slot (Carrier.take port r ((i + 1) % max 1 (p.subSize.getD r 0)) (s.bytes a 64))

/-- The other head's port: the entry its carrier fetches comes with the command. -/
def State.fetchOther (slot ring : Nat) (entry : List Byte) (s : State) : State :=
  let port := 1 - s.ownPort
  if (s.car slot).ident.level = 0 ∨ 3 < ring then s
  else s.modCar slot (Carrier.take port ring (((s.car slot).port port).subHead.getD ring 0 + 1) entry)

/-- A doorbell lets the carrier fetch one entry; `ring` and `entry` are those of the other head's port. -/
def execCarrierSubTail (slot port ring : Nat) (entry : List Byte) (s : State) : Host.Outcome State Fault Refusal :=
  .next (if 96 ≤ slot ∨ 2 ≤ port then s else if port = s.ownPort then s.fetchEntry slot else s.fetchOther slot ring entry)

/-- CPL_HEAD releases completion slots up to the index of the entry after the last one consumed (R391, R392). -/
def CPort.release (head : Nat) (p : CPort) : CPort :=
  let n := (head + p.cplSize - p.cplHead) % max 1 p.cplSize
  { p with cplHead := head, cplHeld := p.cplHeld - (if n = 0 ∧ p.cplHeld = p.cplSize then p.cplSize else n) }

/-- `head` is the other head's index; this head's sequencer writes the place it has read to. -/
def execCarrierCplHead (slot port head : Nat) (s : State) : Host.Outcome State Fault Refusal :=
  .next (if 96 ≤ slot ∨ 2 ≤ port then s
    else s.modPort slot port fun p => p.release (if port = s.ownPort then p.readAt else head % max 1 p.cplSize))

/-! ### Fields of a carrier command (R394) -/

def CCmd.addr (c : CCmd) : Nat := leAt c.bytes 16 8
def CCmd.len (c : CCmd) : Nat := leAt c.bytes 28 4
/-- PAGE, OFFSET, MODE, ACTION or FORCE. -/
def CCmd.arg0 (c : CCmd) : Nat := leAt c.bytes 24 4

/-- Arguments that R394 refuses: opcode, EGROUP, ADDR, the word at 24, the word at 28, the 16 bytes at 32 and those at 48. -/
def badCarrierArgs (op egroup addr a0 a1 : Nat) (a2 : List Byte) (no : Nat) : Bool :=
  let z (o n : Nat) := leAt a2 o n == 0
  decide (2 ^ 48 ≤ addr) ||
  match op with
  | 1 => egroup != 0 || addr % 64 != 0 || a0 != 0 || a1 != 0 || ! z 0 16 || no != 0
  | 2 => addr % 64 != 0 || a1 != 65536 || ! z 0 16 || no != 0
  | 3 => addr % 16 != 0 || a0 % 16 != 0 || decide (a1 < 16) || decide (262144 < a1) || a1 % 16 != 0 || ! z 0 16 || no != 0
  | 4 => a0 != 0 || a1 != 0 || ! z 0 16 || no != 0
  | 5 => decide (1 < a0) || a1 != 0 || ! z 0 16 || no != 0
  | 6 => addr % 16 != 0 || a0 % 16 != 0 || decide (a1 < 16) || decide (262144 < a1) || a1 % 16 != 0 || ! z 15 1 || no != 0
  | 7 => decide (2 < a0) || a1 % 4096 != 0 || ! z 4 12 || no != 0
  | 8 => a0 == 0 || decide (2 < a0) || a1 != 0 || ! z 8 8 || no != 0
  | 9 => decide (1 < a0) || a1 != 0 || decide (95 < no)
  | 10 => a0 != 0 || a1 != 0 || ! z 0 16 || no != 0
  | _ => true

/-- The carrier finds a command malformed. -/
def CCmd.malformed (c : CCmd) : Bool :=
  leAt c.bytes 1 3 != 0 || leAt c.bytes 12 4 != 0
    || badCarrierArgs c.opcode c.egroup c.addr c.arg0 c.len (slice c.bytes 32 16) (leAt c.bytes 48 2)

/-! ### What may run (R399, R401, R402) -/

/-- A command changes an erase group. -/
def changesGroup (op : Nat) : Bool := op == 2 || op == 4 || op == 5 || op == 10
/-- A command names an erase group. -/
def namesGroup (op : Nat) : Bool := changesGroup op || op == 3 || op == 6

/-- A fetched command must run before another fetched after it: both name one erase group, or one is OWNERSHIP and the other
changes an erase group (R399, R402). -/
def mustPrecede (x y : CCmd) : Bool :=
  (namesGroup x.opcode && namesGroup y.opcode && x.egroup == y.egroup)
    || (x.opcode == 8 && (changesGroup y.opcode || y.opcode == 8)) || (y.opcode == 8 && changesGroup x.opcode)
    || x.opcode == 9 || y.opcode == 9

/-- The index of the first command of an opcode that may run, from a list of those fetched. -/
def runnable (want : CCmd → Bool) : List CCmd → List CCmd → Nat → Option Nat
  | _, [], _ => none
  | before, x :: t, i =>
    if want x && x.outcome.isNone && ! (before.any fun y => y.outcome.isNone && mustPrecede y x) then some i
    else runnable want (before ++ [x]) t (i + 1)

/-- The port owns an erase group (R389, R401). -/
def Carrier.owns (c : Carrier) (port g : Nat) : Bool :=
  if c.owner = 0 then g / 2 % 2 == port else c.owner == port + 1

/-- Page groups of an erase group in its mode. -/
def Carrier.pages (c : Carrier) (g : Nat) : Nat := if (c.group g).slc then c.ident.slcPages else c.ident.qlcPages

/-- Checks that end a command that names an erase group before anything else (R395, R401). -/
def Carrier.refuses (c : Carrier) (x : CCmd) : Nat :=
  if x.malformed ∨ (namesGroup x.opcode ∧ c.ident.egroups ≤ x.egroup) then csBadCommand
  else if changesGroup x.opcode ∧ ¬ c.owns x.port x.egroup then csNotOwner
  else if namesGroup x.opcode ∧ (c.group x.egroup).retired then csRetired
  else 0

/-! ### Contents -/

/-- `n` bytes of an erase group from an offset. -/
def Carrier.read (c : Carrier) (g o n : Nat) : List Byte := (List.range n).map fun i => Sparse.get 0 (g * 2 ^ 32 + o + i) c.data

/-- Write bytes of an erase group from an offset. -/
def Carrier.write (g o : Nat) (bs : List Byte) (c : Carrier) : Carrier :=
  { c with data := bs.zipIdx.foldl (fun m p => Sparse.set 0 (g * 2 ^ 32 + o + p.2) p.1 m) c.data }

/-- Erase the contents of an erase group. -/
def Carrier.wipe (g : Nat) (c : Carrier) : Carrier := { c with data := Sparse.filter (fun k _ => k / 2 ^ 32 != g) c.data }

/-! ### The commands (R395 to R402) -/

/-- Record the outcome of a fetched command. -/
def Carrier.decide (i : Nat) (st bytes info : Nat) (c : Carrier) : Carrier :=
  match c.fetched[i]? with
  | some x => { c with fetched := setNth i { x with outcome := some (st, bytes, info) } c.fetched }
  | .none => c

/-- Run the first runnable command that `want` picks: refused by the common checks, else by `body`. -/
def State.runCarrier (slot : Nat) (want : CCmd → Bool) (body : Nat → CCmd → State → State) (s : State) : State :=
  match runnable want [] (s.car slot).fetched 0 with
  | none => s
  | some i => match (s.car slot).fetched[i]? with
    | none => s
    | some x =>
      let st := (s.car slot).refuses x
      if st ≠ 0 then s.modCar slot (Carrier.decide i st 0 (if x.opcode = 2 then ((s.car slot).group x.egroup).wp else 0))
      else body i x s

/-- Put data at a command's destination: through this head's root port, or out of this head's sight. -/
def State.deliver (slot : Nat) (x : CCmd) (bs : List Byte) (s : State) : Bool × State :=
  if x.port = s.ownPort then s.portWrite slot x.addr bs else (true, s)

/-- Deliver data and end the command with BYTES and INFO. -/
def State.sendData (slot i : Nat) (x : CCmd) (bs : List Byte) (info : Nat) (s : State) : State :=
  let (ok, s) := s.deliver slot x bs
  s.modCar slot (if ok then Carrier.decide i csOk bs.length info else Carrier.decide i csDataTransfer 0 0)

/-- The IDENTIFY page (R396). -/
def Carrier.identifyPage (c : Carrier) (port : Nat) : List Byte :=
  let d := c.ident
  leBytes 4 0x44494348 ++ leBytes 2 d.level ++ zeros 2 ++ padTo 32 (d.serial ++ List.replicate 32 0x20) ++ padTo 16 c.arrayId
    ++ leBytes 2 c.number ++ leBytes 1 port ++ leBytes 1 c.owner ++ leBytes 8 c.epoch ++ leBytes 4 d.egroups ++ leBytes 4 d.qlcPages
    ++ leBytes 4 d.slcPages ++ leBytes 4 d.qlcEndurance ++ leBytes 4 d.slcEndurance ++ leBytes 2 d.vstep ++ leBytes 1 d.retrySets
    ++ zeros 1 ++ padTo 20 (d.times.flatMap (leBytes 4)) ++ zeros 16 ++ padTo 128 d.retryTable ++ zeros 3840

def execCarrierIdentify (slot : Nat) (s : State) : Host.Outcome State Fault Refusal :=
  .next (s.runCarrier slot (fun x => x.opcode == 1) fun i x s => s.sendData slot i x ((s.car slot).identifyPage x.port) 0)

/-- Programming a page group with its data, or failing to (R395). -/
def Carrier.program (i : Nat) (x : CCmd) (ok : Bool) (bs : List Byte) (c : Carrier) : Carrier :=
  let g := x.egroup
  let n := (c.group g).wp + 1
  if ok then ((c.write g (x.page * 65536) bs).modGroup g fun e => { e with wp := n }).decide i csOk 65536 n
  else ({ (c.modGroup g EGroup.failPage) with progFails := c.progFails + 1 }).decide i csProgramFailed 65536 n

/-- PROGRAM: ORDER, RANGE and NOT_ERASED are checked before the transfer. -/
def State.carrierProgram (slot : Nat) (ok : Bool) (data : List Byte) (i : Nat) (x : CCmd) (s : State) : State :=
  let c := s.car slot
  let e := c.group x.egroup
  let st := if e.erasePending then csNotErased else if x.page ≠ e.wp then csOrder else if c.pages x.egroup ≤ x.page then csRange else 0
  if st ≠ 0 then s.modCar slot (Carrier.decide i st 0 e.wp)
  else if x.port = s.ownPort then
    if s.portPasses slot x.addr 65536 false then (s.correct x.addr 65536).modCar slot (Carrier.program i x ok (s.bytes x.addr 65536))
    else s.modCar slot (Carrier.decide i csDataTransfer 0 e.wp)
  else s.modCar slot (Carrier.program i x ok (padTo 65536 data))

/-- `ok` says whether the flash takes the page group; `data` is the source of a command of the other head's port. -/
def execCarrierProgram (slot : Nat) (ok : Bool) (data : List Byte) (s : State) : Host.Outcome State Fault Refusal :=
  .next (s.runCarrier slot (fun x => x.opcode == 2) (State.carrierProgram slot ok data))

/-- The first byte of a range that lies in a failed page group. -/
def EGroup.firstFailed (e : EGroup) (o n : Nat) : Option Nat :=
  let pages := (List.range ((o + n + 65535) / 65536 - o / 65536)).map (· + o / 65536)
  (pages.find? fun p => e.failed.contains p).map fun p => max o (p * 65536)

/-- READ and READ_RETRY: RANGE and UNWRITTEN are checked before any transfer; `bad` is the offset of a byte the flash cannot
correct. What the destination then holds, and BYTES, are open (R395). -/
def State.carrierRead (slot : Nat) (bad : Option Nat) (i : Nat) (x : CCmd) (s : State) : State :=
  let c := s.car slot
  let e := c.group x.egroup
  let o := x.arg0
  let n := x.len
  let st := if c.pages x.egroup * 65536 < o + n then csRange
    else if e.erasePending ∨ min e.wp x.wpAtFetch * 65536 < o + n then csUnwritten else 0
  if st ≠ 0 then s.modCar slot (Carrier.decide i st 0 0)
  else
    let worst := match bad with
      | some b => if o ≤ b ∧ b < o + n then some b else e.firstFailed o n
      | none => e.firstFailed o n
    match worst with
    | none => s.sendData slot i x (c.read x.egroup o n) 0
    | some b =>
      let (bs, s) := s.freeBytes n
      let m := s.freeWord.toNat % (n + 1)
      let (_, s) := s.takeFree.deliver slot x bs
      s.modCar slot fun c => { (c.decide i csUncorrectable m b) with uncorrReads := c.uncorrReads + 1 }

def execCarrierRead (slot : Nat) (bad : Option Nat) (s : State) : Host.Outcome State Fault Refusal :=
  .next (s.runCarrier slot (fun x => x.opcode == 3) (State.carrierRead slot bad))
def execCarrierReadRetry (slot : Nat) (bad : Option Nat) (s : State) : Host.Outcome State Fault Refusal :=
  .next (s.runCarrier slot (fun x => x.opcode == 6) (State.carrierRead slot bad))

/-- Erase an erase group, or have its erase fail: a failed one is retired (R395, R398). -/
def Carrier.eraseNow (g : Nat) (ok : Bool) (c : Carrier) : Carrier :=
  if ok then
    (c.wipe g).modGroup g fun e =>
      { e with qlcErases := if e.slc then e.qlcErases else e.qlcErases + 1, slcErases := if e.slc then e.slcErases + 1 else e.slcErases,
               wp := 0, slc := false, erasePending := false, failed := [] }
  else { (c.modGroup g fun e => { e with retired := true }) with eraseFails := c.eraseFails + 1 }

/-- ERASE: the write pointer goes to 0 and the mode to QLC, or the carrier retires the erase group (R395). -/
def Carrier.erase (i : Nat) (x : CCmd) (ok : Bool) (c : Carrier) : Carrier :=
  let c := c.eraseNow x.egroup ok
  let e := c.group x.egroup
  c.decide i (if ok then csOk else csEraseFailed) 0 (e.qlcErases % 65536 + e.slcErases % 65536 * 65536)

def execCarrierErase (slot : Nat) (ok : Bool) (s : State) : Host.Outcome State Fault Refusal :=
  .next (s.runCarrier slot (fun x => x.opcode == 4) fun i x s => s.modCar slot (Carrier.erase i x ok))

def execCarrierSetMode (slot : Nat) (s : State) : Host.Outcome State Fault Refusal :=
  .next (s.runCarrier slot (fun x => x.opcode == 5) fun i x s => s.modCar slot fun c =>
    let e := c.group x.egroup
    if e.erasePending ∨ e.wp ≠ 0 then c.decide i csNotErased 0 0
    else (c.modGroup x.egroup fun e => { e with slc := x.arg0 == 1 }).decide i csOk 0 0)

/-- The retired erase groups, in increasing order. -/
def Carrier.retiredGroups (c : Carrier) : List Nat := (Sparse.filter (fun _ e => e.retired) c.groups).map (·.1)

/-- An entry of HEALTH page 2 (R397). -/
def EGroup.healthEntry (e : EGroup) : List Byte :=
  leBytes 8 (e.qlcErases % 2 ^ 16 + e.slcErases % 2 ^ 16 * 2 ^ 16 + e.wp * 2 ^ 32 + (if e.slc then 2 ^ 49 else 0)
    + (if e.retired then 2 ^ 50 else 0) + (if e.erasePending then 2 ^ 51 else 0))

/-- A HEALTH page and the entries it returns; `temp` is the temperature, 16 bits signed (R397). -/
def Carrier.healthPage (c : Carrier) (page len start temp : Nat) : List Byte × Nat :=
  if page = 0 then
    (padTo len (leBytes 2 temp ++ zeros 2 ++ leBytes 4 c.spare ++ leBytes 4 c.retiredGroups.length ++ zeros 4 ++ leBytes 8 c.uncorrReads
      ++ leBytes 8 c.progFails ++ leBytes 8 c.eraseFails ++ leBytes 8 c.powerLosses
      ++ leBytes 4 (Sparse.filter (fun _ e => e.erasePending) c.groups).length), 0)
  else if page = 1 then
    let l := (c.retiredGroups.drop start).take (len / 4)
    (padTo len (l.flatMap (leBytes 4)), l.length)
  else
    let n := min (len / 8) (c.ident.egroups - start)
    (padTo len ((List.range n).flatMap fun i => (c.group (start + i)).healthEntry), n)

def execCarrierHealth (slot temp : Nat) (s : State) : Host.Outcome State Fault Refusal :=
  .next (s.runCarrier slot (fun x => x.opcode == 7) fun i x s =>
    let (bs, n) := (s.car slot).healthPage x.arg0 x.len (leAt x.bytes 32 4) temp
    s.sendData slot i x bs n)

/-- OWNERSHIP: a newer EPOCH is stored with the new owner state (R402). -/
def Carrier.own (i : Nat) (x : CCmd) (c : Carrier) : Carrier :=
  let e := leAt x.bytes 32 8
  if e ≤ c.epoch then c.decide i csEpochStale 0 c.owner
  else
    let o := if x.arg0 = 1 then x.port + 1 else 0
    ({ c with owner := o, epoch := e }).decide i csOk 0 o

def execCarrierOwnershipTake (slot : Nat) (s : State) : Host.Outcome State Fault Refusal :=
  .next (s.runCarrier slot (fun x => x.opcode == 8 && x.arg0 != 2) fun i x s => s.modCar slot (Carrier.own i x))
def execCarrierOwnershipReturn (slot : Nat) (s : State) : Host.Outcome State Fault Refusal :=
  .next (s.runCarrier slot (fun x => x.opcode == 8 && x.arg0 == 2) fun i x s => s.modCar slot (Carrier.own i x))

/-- The label is blank. -/
def Carrier.blank (c : Carrier) : Bool := c.number == 0xFFFF

/-- Write a label; with FORCE every erase group is erased and every wear count reset first (R395). -/
def Carrier.label (force : Bool) (array : List Byte) (no : Nat) (c : Carrier) : Carrier :=
  let c := if force then
      { c with data := [], groups := (Sparse.filter (fun _ e => e.retired) c.groups).map fun p => (p.1, { EGroup.fresh with retired := true }) }
    else c
  { c with arrayId := array, number := no }

def execCarrierLabel (slot : Nat) (s : State) : Host.Outcome State Fault Refusal :=
  .next (s.runCarrier slot (fun x => x.opcode == 9) fun i x s => s.modCar slot fun c =>
    let a := slice x.bytes 32 16
    let n := leAt x.bytes 48 2
    if x.arg0 = 1 ∨ c.blank ∨ (c.arrayId = a ∧ c.number = n) then (c.label (x.arg0 == 1) a n).decide i csOk 0 0
    else c.decide i csLabelled 0 0)

def execCarrierRetire (slot : Nat) (s : State) : Host.Outcome State Fault Refusal :=
  .next (s.runCarrier slot (fun x => x.opcode == 10) fun i x s => s.modCar slot fun c =>
    (c.modGroup x.egroup fun e => { e with retired := true }).decide i csOk 0 0)

/-! ### Completion (R392) -/

/-- The 32 bytes of a completion entry. -/
def completionEntry (x : CCmd) (st bytes info : Nat) (phase : Bool) : List Byte :=
  slice x.bytes 4 4 ++ leBytes 2 st ++ leBytes 1 x.ring ++ leBytes 1 (if phase then 1 else 0) ++ leBytes 4 x.subHead
    ++ leBytes 4 bytes ++ leBytes 8 info ++ zeros 8

/-- The carrier has written an entry: its tail moves, and an MSI is owed. -/
def CPort.wrote (p : CPort) : CPort :=
  let t := (p.cplTail + 1) % max 1 p.cplSize
  { p with cplTail := t, phase := if t = 0 then ! p.phase else p.phase, cplHeld := p.cplHeld + 1, msiOwed := true }

/-- Write an entry of this head's port into the completion ring, when a slot is free; refused when the carrier is out of
service. -/
def State.writeEntry (slot i : Nat) (entry : List Byte) (s : State) : State :=
  let port := s.ownPort
  let p := (s.car slot).port port
  if p.cplSize ≤ p.cplHeld ∨ ¬ p.ready then s
  else
    let (ok, s) := s.portWrite slot (p.cplBase + 32 * p.cplTail) entry
    let s := s.modCar slot fun c => { c with fetched := c.fetched.eraseIdx i }
    if ok then s.modPort slot port CPort.wrote else s

/-- Complete the `i`-th fetched command, which has had its effect. -/
def State.completeEntry (slot i : Nat) (forged : Option (List Byte)) (s : State) : State :=
  match (s.car slot).fetched[i]? with
  | none => s
  | some x => match x.outcome with
    | none => s
    | some (st, bytes, info) =>
      if x.port ≠ s.ownPort then s.modCar slot fun c => { c with fetched := c.fetched.eraseIdx i }
      else
        let phase := ((s.car slot).port x.port).phase
        s.writeEntry slot i (match forged with
          | some e => patch (padTo 32 e) 7 [if phase then 1 else 0]
          | none => completionEntry x st bytes info phase)

/-- `forged` is the entry of a carrier that breaks the protocol, none for a sound one. -/
def execCarrierCommandComplete (slot i : Nat) (forged : Option (List Byte)) (s : State) : Host.Outcome State Fault Refusal :=
  .next (if slot < 96 then s.completeEntry slot i forged else s)

/-! ### Loss of a port (R400) -/

/-- A link or power is lost: the commands fetched are dropped; after a power loss on both ports. -/
def State.losePort (slot port : Nat) (power : Bool) (s : State) : State :=
  let f (t : State) (p : Nat) := (t.dropPort slot p).modPort slot p fun _ => CPort.reset
  if power then (f (f s 0) 1).modCar slot fun c => { c with powerLosses := c.powerLosses + 1 } else f s port

def execCarrierPortLoss (slot port : Nat) (power : Bool) (s : State) : Host.Outcome State Fault Refusal :=
  .next (if slot < 96 ∧ port < 2 then s.losePort slot port power else s)

end Sys2Proof.Machine
end

