-- ==== Sys2Proof/Machine/Sequencers.lean ====
section
/-! DEFINITION. Carrier sequencers: the commands they issue, the completions they collect, and carriers entering and leaving
service (R388, R405 to R411, R413). -/

namespace Sys2Proof.Machine

/-! ### Operands (R406) -/

def medCarrier (b : Vec) : Nat := le b 16 2
def medEgroup (b : Vec) : Nat := le b 20 4
def medAddr (b : Vec) : Nat := le b 24 8
def medArg0 (b : Vec) : Nat := le b 32 4
def medArg1 (b : Vec) : Nat := le b 36 4
def medArg2 (b : Vec) : List Byte := leBytes 16 (le b 40 16)
def medNo (b : Vec) : Nat := le b 56 2
def medNoRetry (b : Vec) : Bool := le b 58 1 == 1

/-- Operands that R394 and R406 refuse. -/
def badMedia (b : Vec) : Bool :=
  le b 18 2 != 0 || decide (95 < medCarrier b) || decide (1 < le b 58 1) || (opcodeOf b != 3 && le b 58 1 != 0) || le b 59 5 != 0
    || badCarrierArgs (opcodeOf b) (medEgroup b) (medAddr b) (medArg0 b) (medArg1 b) (medArg2 b) (medNo b)

/-- The slot of the carrier with a number. -/
def State.slotOf (s : State) (n : Nat) : Option Nat := (s.carriers.find? fun p => p.2.number == n).map (·.1)

/-- The CMD_ID a sequencer gives a command: its queue and the low bits of its sequence number (R407). -/
def cmdId (c : Cmd) : Nat := c.queue * 2 ^ 30 + c.seq.toNat % 2 ^ 30

/-- The 64 bytes of a carrier command (R394). -/
def carrierEntry (op id : Nat) (b : Vec) (a2 : List Byte) : List Byte :=
  leBytes 4 op ++ leBytes 4 id ++ leBytes 4 (medEgroup b) ++ zeros 4 ++ leBytes 8 (medAddr b) ++ leBytes 4 (medArg0 b)
    ++ leBytes 4 (medArg1 b) ++ padTo 16 a2 ++ leBytes 2 (medNo b) ++ zeros 14

/-! ### Issuing (R392, R407) -/

/-- A submission ring has room as far as the sequencer knows (R392). -/
def CPort.room (p : CPort) (r : Nat) : Bool :=
  p.ready && (p.subTail.getD r 0 + 1) % max 1 (p.subSize.getD r 0) != p.headSeen.getD r 0

/-- Write an entry at the tail of a ring and ring its doorbell. -/
def State.submit (slot r : Nat) (entry : List Byte) (s : State) : State :=
  let p := (s.car slot).port s.ownPort
  let t := p.subTail.getD r 0
  (s.performWrite (p.subBase.getD r 0 + 64 * t) (enableAll entry)).modPort slot s.ownPort fun p =>
    { p with subTail := setNth r ((t + 1) % max 1 (p.subSize.getD r 0)) p.subTail }

/-- The carrier a command is sent to, if it is in service and its ring `q` has room; none when the command waits. -/
def State.sendable (s : State) (b : Vec) (q : Nat) : Option Nat :=
  match s.slotOf (medCarrier b) with
  | some slot => if (s.car slot).inService && ((s.car slot).port s.ownPort).room q then some slot else none
  | none => none

/-- The sequencer takes a command of its queue for which `mine` holds; while the ring has no room the command waits. -/
def State.issueCommand (u : Nat) (mine : Vec → Bool) (s : State) : State :=
  match s.nextCommand clsSequencer u with
  | none => s
  | some (c, _) =>
    let b := c.block
    let slot := s.slotOf (medCarrier b)
    let serves : Bool := match slot with
      | some x => (s.car x).sequencer == u
      | none => true
    let present : Bool := match slot with
      | some x => (s.car x).inService
      | none => false
    if ¬ badCommon b ∧ ¬ badMedia b ∧ serves ∧ present ∧ (s.sendable b c.queue).isNone then s
    else s.takeCommandIf clsSequencer u mine fun c s =>
      if badMedia c.block ∨ ¬ serves then (c.finish stBadCommand, s)
      else match s.sendable c.block c.queue with
        | none => (c.finish 0x010B, s)
        | some x => ({ c with since := s.elapsed }, s.submit x c.queue (carrierEntry (opcodeOf c.block) (cmdId c) c.block (medArg2 c.block)))

/-- Issue a command of one opcode. -/
def State.issueOp (u op : Nat) (s : State) : State := if u < 8 then s.issueCommand u fun b => opcodeOf b == op else s

def execSeqIdentify (u : Nat) (s : State) : Host.Outcome State Fault Refusal := .next (s.issueOp u 1)
def execSeqProgram (u : Nat) (s : State) : Host.Outcome State Fault Refusal := .next (s.issueOp u 2)
def execSeqRead (u : Nat) (s : State) : Host.Outcome State Fault Refusal := .next (s.issueOp u 3)
def execSeqErase (u : Nat) (s : State) : Host.Outcome State Fault Refusal := .next (s.issueOp u 4)
def execSeqSetMode (u : Nat) (s : State) : Host.Outcome State Fault Refusal := .next (s.issueOp u 5)
def execSeqReadRetry (u : Nat) (s : State) : Host.Outcome State Fault Refusal := .next (s.issueOp u 6)
def execSeqHealth (u : Nat) (s : State) : Host.Outcome State Fault Refusal := .next (s.issueOp u 7)
def execSeqOwnershipTake (u : Nat) (s : State) : Host.Outcome State Fault Refusal :=
  .next (if u < 8 then s.issueCommand u fun b => opcodeOf b == 8 && medArg0 b != 2 else s)
def execSeqOwnershipReturn (u : Nat) (s : State) : Host.Outcome State Fault Refusal :=
  .next (if u < 8 then s.issueCommand u fun b => opcodeOf b == 8 && medArg0 b == 2 else s)
def execSeqLabel (u : Nat) (s : State) : Host.Outcome State Fault Refusal := .next (s.issueOp u 9)
def execSeqRetire (u : Nat) (s : State) : Host.Outcome State Fault Refusal := .next (s.issueOp u 10)

/-! ### Leaving service (R409) -/

/-- Commands in service for a carrier end with CARRIER_ABSENT. -/
def State.absentCommands (u number : Nat) (s : State) : State :=
  s.modUnit clsSequencer u fun e =>
    { e with service := mapWhere (fun c => c.live && medCarrier c.block == number) (Cmd.finish 0x010B) e.service }

/-- A carrier leaves service on this head: its memory requests are refused, its commands end, and POSITION_FAILED is queued
(R409, R314). -/
def State.carrierLeaves (slot cause : Nat) (s : State) : State :=
  let c := s.car slot
  if ¬ c.inService then s
  else ((s.modCar slot fun c => { c with inService := false }).absentCommands c.sequencer c.number).positionsFailed c.number cause

/-- `fatal` is STATE.FATAL as the carrier now sets it. -/
def execCarrierOutOfService (slot : Nat) (fatal : Bool) (s : State) : Host.Outcome State Fault Refusal :=
  .next (if 96 ≤ slot then s
    else
      let s := if fatal then s.modPort slot s.ownPort fun p => { p with fatal := true } else s
      let p := (s.car slot).port s.ownPort
      if ¬ p.linkUp then s.carrierLeaves slot 3 else if p.fatal then s.carrierLeaves slot 1 else s)

/-- The command timeout setting (R412). -/
def State.commandTimeout (s : State) (sent : Word64) : Nat := s.settingAt 0x0700 0 2000000000 sent

/-- A command sent to a carrier has passed the command timeout. -/
def State.timedOut (s : State) (slot : Nat) : Bool :=
  let c := s.car slot
  c.inService && (s.unit clsSequencer c.sequencer).service.any fun x =>
    x.live && medCarrier x.block == c.number && decide (x.since.toNat + s.commandTimeout x.since < s.elapsed.toNat)

def execCarrierCommandTimeout (slot : Nat) (s : State) : Host.Outcome State Fault Refusal :=
  .next (if slot < 96 ∧ s.timedOut slot then (s.bump (rMedCar (s.car slot).number + 0x10) 1).carrierLeaves slot 1 else s)

/-- A CARRIER_FAULT finding; the second within 1 s takes the carrier out of service (R409). -/
def State.carrierFault (slot : Nat) (s : State) : State :=
  let again := match (s.car slot).faultAt with
    | some t => decide (s.elapsed.toNat ≤ t.toNat + 1000000000)
    | none => false
  let s := s.modCar slot fun c => { c with faultAt := some s.elapsed }
  if again then s.carrierLeaves slot 1 else s

/-! ### Collecting completions (R392, R398, R408, R410) -/

/-- The record STATUS of a carrier status (R398). -/
def recordStatus (st : Nat) : Nat :=
  if st = csOk then stOk else if st = csDataTransfer then stBusError else if 3 ≤ st ∧ st ≤ 0xD then 0x0100 + (st - 3) else 0x010C

/-- BYTES that an OK completion must report (R410). -/
def bytesWanted (b : Vec) : Option Nat :=
  match opcodeOf b with
  | 1 => some 4096 | 2 => some 65536 | 3 => some (medArg1 b) | 6 => some (medArg1 b) | 7 => some (medArg1 b) | _ => none

/-- BYTES and DETAIL of a record; the command's `index` is the retry set last used (R410). -/
def mediaResult (c : Cmd) (st bytes info : Nat) : Nat × Nat :=
  match opcodeOf c.block with
  | 2 => (0, info % 2 ^ 17)
  | 3 => (bytes, c.index % 16 + (if st = 0x0104 then info % 2 ^ 32 * 2 ^ 32 else 0))
  | 6 => (bytes, if st = 0x0104 then info % 2 ^ 32 * 2 ^ 32 else 0)
  | 4 => (bytes, info % 2 ^ 32)
  | 7 => (bytes, info % 2 ^ 32)
  | 8 => (bytes, info % 2 ^ 32)
  | _ => (bytes, 0)

/-- Count the records a carrier's registers count (R413). -/
def State.countMedia (number st : Nat) (s : State) : State :=
  if st = 0x0104 then s.bump (rMedCar number + 0x4) 1
  else if st = 0x0105 then s.bump (rMedCar number + 0x8) 1
  else if st = 0x0106 then s.bump (rMedCar number + 0xC) 1
  else s

/-- End a command in service with a carrier's completion. -/
def State.endMedia (slot u : Nat) (c : Cmd) (st bytes info : Nat) (s : State) : State :=
  let r := recordStatus st
  let r := match bytesWanted c.block with
    | some n => if r = stOk ∧ bytes ≠ n then stLengthMismatch else r
    | none => r
  let (n, d) := mediaResult c r bytes info
  let s := s.modUnit clsSequencer u fun e =>
    { e with service := mapWhere c.same (fun _ => { c.finish r with bytes := n, detail := d }) e.service }
  let s := s.countMedia (s.car slot).number r
  if r = 0x010C then s.carrierFault slot else s

/-- Send the next retry of a READ on its ring (R408). -/
def State.retryRead (slot u : Nat) (c : Cmd) (s : State) : State :=
  let c := { c with index := c.index + 1, since := s.elapsed }
  let voff := slice (s.car slot).ident.retryTable (16 * (c.index - 1)) 15
  ((s.modUnit clsSequencer u fun e =>
      { e with service := mapWhere c.same (fun _ => c) e.service }).submit slot c.queue
    (carrierEntry 6 (cmdId c) c.block voff)).bump (rMedSeq u + 0x10) 1

/-- Turn one completion entry into its command's end, a retry, or a CARRIER_FAULT finding. -/
def State.takeEntry (slot : Nat) (e : List Byte) (s : State) : State :=
  let c := s.car slot
  let u := c.sequencer
  let st := leAt e 4 2
  match (s.unit clsSequencer u).service.find? fun x => x.live && cmdId x == leAt e 0 4 && medCarrier x.block == c.number with
  | none => s.carrierFault slot
  | some x =>
    let s := s.modPort slot s.ownPort fun p => { p with headSeen := setNth (leAt e 6 1) (leAt e 8 4) p.headSeen }
    if st = csUncorrectable ∧ opcodeOf x.block = 3 ∧ ¬ medNoRetry x.block ∧ x.index < c.ident.retrySets then s.retryRead slot u x
    else s.endMedia slot u x st (leAt e 12 4) (leAt e 16 8)

/-- The next entry of the completion ring, when its PHASE says it is new. -/
def State.nextEntry (s : State) (slot : Nat) : Option (List Byte) :=
  let p := (s.car slot).port s.ownPort
  let e := s.bytes (p.cplBase + 32 * p.readAt) 32
  if p.ready ∧ leAt e 7 1 % 2 = (if p.readPhase then 1 else 0) then some e else none

/-- The sequencer moves past an entry. -/
def CPort.consumed (p : CPort) : CPort :=
  let t := (p.readAt + 1) % max 1 p.cplSize
  { p with readAt := t, readPhase := if t = 0 then ! p.readPhase else p.readPhase }

/-- Take up to `n` new entries of a carrier in service; those of one out of service are discarded (R409). -/
def State.takeEntries (slot : Nat) : Nat → State → State
  | 0, s => s
  | n + 1, s =>
    match s.nextEntry slot with
    | none => s
    | some e =>
      let s := s.modPort slot s.ownPort CPort.consumed
      State.takeEntries slot n (if (s.car slot).inService then s.takeEntry slot e else s)

/-- An MSI that is owed, at most once per 2 µs, wakes the sequencer (R392). -/
def State.carrierMsi (slot : Nat) (s : State) : State :=
  let p := (s.car slot).port s.ownPort
  if ¬ p.msiOwed ∨ (p.lastMsi ≠ 0 ∧ s.elapsed.toNat < p.lastMsi.toNat + 2000) then s
  else
    let s := s.modPort slot s.ownPort fun p => { p with msiOwed := false, lastMsi := s.elapsed }
    let s := s.modCore (116 + (s.car slot).sequencer) fun c => { c with irqPend := c.irqPend ||| 0x20000 }
    s.takeEntries slot p.cplHeld

def execCarrierMsi (slot : Nat) (s : State) : Host.Outcome State Fault Refusal :=
  .next (if slot < 96 then s.carrierMsi slot else s)

/-! ### Entering service (R388, R403, R413) -/

/-- Lanes of a root port of block `b` under its MODE; an odd block joined by MODE 4 has none of its own (R413). -/
def State.portLanes (s : State) (b : Nat) : Nat :=
  if b % 2 = 1 ∧ s.reg (rMedBlk (b - 1)) = 4 then 0
  else match s.reg (rMedBlk b) with
    | 0 => 1 | 1 => 2 | 2 => 4 | 3 => 8 | _ => 16

/-- A slot is the first lane of a root port whose block may bring links up. -/
def State.slotUsable (s : State) (slot : Nat) : Bool :=
  let n := s.portLanes (slot / 8)
  decide (slot < 96) && decide (0 < n) && slot % max 1 n == 0 && ! s.regBit (rMedBlk (slot / 8) + 0x4) 0 && s.hlt.mode != .safe
    && s.pwr.clkMed && s.pin.medPerst / 2 ^ (slot / 8) % 2 == 0

/-- The array's ARRAY_ID, zeros while it has none (R256). -/
def State.arrayId (s : State) : List Byte := s.kpr.arrayId.getD (zeros 16)

/-- The lowest carrier number that no carrier in service and no quire record uses (R388). -/
def State.freeNumber (s : State) : Option Nat :=
  (List.range 96).find? fun n => ! (s.carriers.any fun p => p.2.inService && p.2.number == n)
    && ! (s.quires.any fun q => (q.2.pos.any fun x => x.1 == n) || q.2.targets.any fun t => t.carrier == n)

/-- Automatic labelling of a blank carrier by head 0, or in SOLO by the surviving head (R388, R412). -/
def State.autoLabel (slot : Nat) (s : State) : State :=
  if (s.car slot).blank ∧ s.setting 0x0701 0 1 = 1 ∧ (s.headNo = 0 ∨ s.soloMode) ∧ s.kpr.arrayId.isSome then
    match s.freeNumber with
    | some n => s.modCar slot (Carrier.label false s.arrayId n)
    | none => s
  else s

/-- A sequencer in service for a slot: its own, or the next in turn (R405, R411). -/
def State.servingSequencer (s : State) (slot : Nat) : Nat :=
  let q := slot / 12
  if s.unitFenced clsSequencer q then s.sequencersInService.getD (slot % max 1 s.sequencersInService.length) q else q

/-- In SOLO a carrier that joins is taken before it is used (R403). -/
def State.takeJoined (slot : Nat) (s : State) : State :=
  let e := s.twn.takeoverCycle.toNat
  if s.soloMode ∧ (s.car slot).epoch < e then s.modCar slot fun c => { c with owner := s.ownPort + 1, epoch := e } else s

/-- IDENTIFY of a carrier whose link has come up lets it into service or not (R388). -/
def State.admitCarrier (slot : Nat) (partnerAgrees : Bool) (s : State) : State :=
  let c := s.car slot
  if c.ident.level = 1 ∧ (c.blank ∨ c.arrayId = s.arrayId) ∧ (s.hlt.mode ≠ .paired ∨ partnerAgrees) then
    ((s.modCar slot fun c => { c with inService := true }).autoLabel slot).takeJoined slot
  else s

/-- A carrier's link comes up: a carrier this slot has not held before brings its identity and label, and is taken as erased
(log entry 13). -/
def State.linkCarrier (slot width : Nat) (ident : CarrierIdent) (array : List Byte) (number : Nat) (s : State) : State :=
  let old := s.car slot
  let base := if old.ident.serial = ident.serial ∧ old.ident.level ≠ 0 then { old with ident := ident, arrayId := padTo 16 array, number := number }
    else { Carrier.none with ident := ident, arrayId := padTo 16 array, number := number }
  let p := s.ownPort
  s.setCar slot { (base.setPort p { base.port p with linkUp := true }) with
    width := width, sequencer := s.servingSequencer slot, faultAt := Option.none, inService := false }

/-- A link that may come up comes up. -/
def State.carrierUp (slot width : Nat) (ident : CarrierIdent) (array : List Byte) (number : Nat) (partnerAgrees : Bool) (s : State) : State :=
  if s.slotUsable slot ∧ ¬ ((s.car slot).port s.ownPort).linkUp then (s.linkCarrier slot width ident array number).admitCarrier slot partnerAgrees else s

/-- `width` is the code of `MED_CAR_STATUS.WIDTH`; `number` is 0xFFFF and `array` zeros for a blank label; `partnerAgrees` says
whether the partner reports the same SERIAL under the same number. -/
def execCarrierLinkUp (slot width : Nat) (ident : CarrierIdent) (array : List Byte) (number : Nat) (partnerAgrees : Bool) (s : State) :
    Host.Outcome State Fault Refusal :=
  .next (s.releasePerst.carrierUp slot width ident array number partnerAgrees)

/-! ### Fences (R411, R413) -/

def execMedSeqFence (src u : Nat) (s : State) : Host.Outcome State Fault Refusal :=
  .next (if (src = srcGovernor ∨ src = srcHost) ∧ u < 8 then (s.fenceUnit clsSequencer u).afterFence src else s)

/-- Fence a root-port block: its carriers leave service (R413). -/
def State.fenceBlock (b : Nat) (s : State) : State :=
  let slots := (s.carriers.map (·.1)).filter fun x => x / 8 == b
  slots.foldl (fun t x => ((t.carrierLeaves x 3).losePort x t.ownPort false)) (s.setRegBit (rMedBlk b + 0x4) 0)

def execMedBlkFence (src b : Nat) (s : State) : Host.Outcome State Fault Refusal :=
  .next (if (src = srcGovernor ∨ src = srcHost) ∧ b < 12 then (s.fenceBlock b).afterFence src else s)

end Sys2Proof.Machine
end

