-- ==== Sys2Proof/Machine/Uses.lean ====
section
/-! DEFINITION. The engine commands that the shipped programs issue within one event (R135, R179 to R182, R283, R289, R310, R316): each
takes a SEQ value of a queue of the unit in service with the fewest commands queued, and what the unit counts is counted (log entry 160). -/

namespace Sys2Proof.Machine

/-! ### The unit that takes a program's commands (R180) -/

/-- The unit in service of a class that has the fewest commands queued, of those the lowest number. -/
def State.leastUsed (s : State) (cls : Nat) : Option Nat :=
  (List.range (classUnits cls)).foldl (fun b u =>
    if s.unitFenced cls u then b
    else match b with
      | some v => if (s.unit cls u).queued < (s.unit cls v).queued then some u else b
      | none => some u) none

/-- `n` commands pass through a queue: each takes the next value of SEQ (R93). -/
def State.useQueue (cls u q n : Nat) (s : State) : State := s.setReg64 (rSeq cls u q) (s.reg64 (rSeq cls u q) + n)

/-- A program gives `n` commands to queue `q` of one unit of a class; `count` is what the unit counts. -/
def State.useUnit (cls q n : Nat) (count : Nat → State → State) (s : State) : State :=
  match s.leastUsed cls with
  | some u => count u (s.useQueue cls u q n)
  | none => s

/-! ### Each class -/

/-- A COPY of `n` bytes on a DMA channel. -/
def State.useDma (q n : Nat) (s : State) : State := s.useUnit clsDma q 1 (fun u t => t.bump64 (rDmaChBytes u) n)
/-- FINGERPRINT or VERIFY commands over `n` blocks, `k` blocks a command. -/
def State.useDigest (q k n : Nat) (s : State) : State :=
  if n = 0 then s else s.useUnit clsDigest q ((n + k - 1) / k) (fun u t => t.countMessage u (4096 * n) n)
/-- `n` commands of a catalogue assist. -/
def State.useAssist (q n : Nat) (s : State) : State := s.useUnit clsCatalogue q n (fun _ t => t)
/-- `k` commands of `n` blocks together on a cipher unit. -/
def State.useCipher (q k n : Nat) (s : State) : State := s.useUnit clsCipher q k (fun u t => t.bump64 (rCphUnit u + 0x8) n)
/-- The XTS commands of a folio of `n` bytes: the tweak block under half B, the whole blocks, in commands of at most 4,096 bytes when they
are decrypted, and those of ciphertext stealing (R252, R355). -/
def State.useXts (dec : Bool) (q n : Nat) (s : State) : State :=
  let steal := if n % 16 = 0 then 0 else if dec then 2 else 1
  let whole := if dec then ((if n % 16 = 0 then n / 16 else n / 16 - 1) + 255) / 256 else 1
  s.useCipher q (1 + whole + steal) (1 + (n + 15) / 16)
/-- A GENERATE, RECONSTRUCT or CHECK that reads `n` bytes. -/
def State.useParity (q n : Nat) (s : State) : State := s.useUnit clsParity q 1 (fun u t => t.bump64 (rParEng u + 0x8) n)

/-- ENCODE commands on one coder lane: the input length, output length and outcome of each (R173, R183). -/
def State.useCoder (q : Nat) (folios : List (Nat × Nat × Nat)) (s : State) : State :=
  if folios.isEmpty then s
  else s.useUnit clsCoder q folios.length fun u t => folios.foldl (fun t f =>
    let t := (t.bump64 (rCmpLane u + 0x8) f.1).bump64 (rCmpLane u + 0x10) f.2.1
    if f.2.2 = 1 then t.bump (rCmpLane u + 0x18) 1 else if f.2.2 = 2 then t.bump (rCmpLane u + 0x1C) 1 else t) t

/-- Decoder lanes in service. -/
def State.decodersServing (s : State) : Nat := ((List.range 48).filter fun u => ! s.unitFenced clsDecoder u).length

/-- The lanes that a program's DECODE commands go to: retrieval's, on queue 0, to coder lanes while fewer than 8 decoder lanes are in
service (R179). -/
def State.decodeClass (s : State) (q : Nat) : Nat :=
  if q = 0 ∧ s.decodersServing < 8 ∧ (s.leastUsed clsCoder).isSome then clsCoder else clsDecoder

/-- `n` DECODE commands on one lane, with `out` bytes of output in all. -/
def State.useDecoder (q n out : Nat) (s : State) : State :=
  let cls := s.decodeClass q
  s.useUnit cls q n (fun u t => t.bump64 (laneOutBytes cls u) out)

/-- A command of the sequencer that serves a carrier's slot; its record counts there (R405, R411). -/
def State.useSequencer (slot q : Nat) (s : State) : State :=
  let u := s.servingSequencer slot
  (s.useQueue clsSequencer u q 1).bump64 (rMedSeq u + 8) 1

/-- Every class that retrieval needs has a unit in service (R351 to R358). -/
def State.retrievalUnits (s : State) : Bool := [clsDigest, clsCipher, s.decodeClass 0].all fun cls => (s.leastUsed cls).isSome

/-- Every class that placement needs has a unit in service (R31, R135). -/
def State.placementUnits (s : State) : Bool :=
  [clsDma, clsCoder, clsDigest, clsCipher, clsParity, clsCatalogue].all fun cls => (s.leastUsed cls).isSome

end Sys2Proof.Machine
end

