-- ==== Sys2Proof/Machine/Rows.lean ====
section
/-! DEFINITION. Quire rows: geometry, parity and summaries (R295 to R298, R335, R336), reading with reconstruction (R311 to
R313), programming (R299), and the encryption of folios (R251, R252). -/

namespace Sys2Proof.Machine

/-! ### The encryption of folios (R251, R252) -/

/-- The data unit sequence number of a folio (R251). -/
def folioSeq (firstCid revision : Nat) : Nat := firstCid % 2 ^ 64 + 2 ^ 64 * (revision % 65536)

/-- Blocks a folio's encryption counts against its slot (R252). -/
def folioBlockCount (n : Nat) : Nat := n / 16 + (if n % 16 = 0 then 0 else 1)

/-! ### Geometry (R295 to R297) -/

/-- The position of a member in a row (R296). -/
def Quire.positionOf (q : Quire) (row member : Nat) : Nat := (member + row) % max 1 q.w
/-- A quire's record. -/
def State.quire (s : State) (q : Nat) : Quire := Sparse.get Quire.none q s.quires
/-- Change a quire's record. -/
def State.modQuire (q : Nat) (f : Quire → Quire) (s : State) : State := { s with quires := Sparse.modify Quire.none q f s.quires }

/-- The parts of an extent: member, offset in its strip, length (R265). -/
def extentParts : Nat → Nat → Nat → Nat → List (Nat × Nat × Nat)
  | 0, _, _, _ => []
  | fuel + 1, m, o, n =>
    if n = 0 then [] else
      let k := min n (65536 - o)
      (m, o, k) :: extentParts fuel (m + 1) 0 (n - k)

/-! ### Reading (R311 to R313) -/

/-- The slot of the carrier in service under a number. -/
def State.serviceSlot (s : State) (number : Nat) : Option Nat :=
  (s.carriers.find? fun p => p.2.number == number && p.2.inService).map (·.1)

/-- A carrier's bytes of one page group of an erase group; none where it cannot deliver them. -/
def State.readCarrier (s : State) (number egroup page o n : Nat) : Option (List Byte) :=
  match s.serviceSlot number with
  | none => none
  | some slot =>
    let e := (s.car slot).group egroup
    if e.wp ≤ page ∨ e.erasePending ∨ e.failed.contains page then none
    else some ((s.car slot).read egroup (page * 65536 + o) n)

/-- Ranges that the carriers cannot correct: quire, row, member, offset and length in the strip (R311). -/
abbrev Unread : Type := List (Nat × Nat × Nat × Nat × Nat)

/-- A range of a strip meets one that the carriers cannot correct. -/
def unreadable (unread : Unread) (q row member o n : Nat) : Bool :=
  unread.any fun u => u.1 == q && u.2.1 == row && u.2.2.1 == member && decide (u.2.2.2.1 < o + n) && decide (o < u.2.2.2.1 + u.2.2.2.2)

/-- Part of a member's strip; none when the member is missing for that range (R311). -/
def State.readStrip (s : State) (unread : Unread) (q row member o n : Nat) : Option (List Byte) :=
  let x := s.quire q
  let p := x.positionOf row member
  let (carrier, egroup) := x.pos.getD p (0xFFFF, 0)
  if x.failed / 2 ^ p % 2 = 1 ∨ unreadable unread q row member o n then none else s.readCarrier carrier egroup row o n

/-- A member's range, rebuilt from the others where it is missing or taken as missing (R312, R313); none with more than two
members missing. -/
def State.readMember (s : State) (unread : Unread) (taken : List Nat) (q row member o n : Nat) : Option (List Byte) :=
  match if taken.contains member then none else s.readStrip unread q row member o n with
  | some bs => some bs
  | none =>
    let x := s.quire q
    let o0 := o / 64 * 64
    let n0 := (o + n + 63) / 64 * 64 - o0
    let strips := (List.range (x.d + 2)).map fun m =>
      (m, if taken.contains m ∨ m = member then none else s.readStrip unread q row m o0 n0)
    let missing := (strips.filter fun p => p.2.isNone).map (·.1)
    if 2 < missing.length then none
    else
      let have_ := strips.filterMap fun p => p.2.map fun b => (p.1, b)
      let lines := (List.range (n0 / 64)).flatMap fun i =>
        match (recoverLine x.d missing (have_.map fun p => (p.1, slice p.2 (64 * i) 64))).find? fun p => p.1 == member with
        | some p => p.2
        | none => zeros 64
      some (slice lines (o - o0) n)

/-- An extent of a row, its parts read or rebuilt. -/
def State.readExtent (s : State) (unread : Unread) (taken : List Nat) (q row member o n : Nat) : Option (List Byte) :=
  (extentParts 34 member o n).foldl (fun acc p => match acc, s.readMember unread taken q row p.1 p.2.1 p.2.2 with
    | some a, some b => some (a ++ b)
    | _, _ => none) (some [])

/-- The ciphertext a shelfmark names. -/
def State.readShelf (s : State) (unread : Unread) (taken : List Nat) (x : Shelf) : Option (List Byte) :=
  s.readExtent unread taken x.quire x.row x.member x.offset x.length

/-- Some strip of a row needed reconstruction for an extent. -/
def State.neededRebuild (s : State) (unread : Unread) (x : Shelf) : Bool :=
  (extentParts 34 x.member x.offset x.length).any fun p => (s.readStrip unread x.quire x.row p.1 p.2.1 p.2.2).isNone

/-! ### Row summaries (R335, R336) -/

/-- A row summary from its KIND, row, cycle, LAST, SEQ and entries. -/
def summaryBytes (kind head quire row cycle : Nat) (arrayId : List Byte) (d w : Nat) (last : Bool) (seq : Nat) (entries : List (List Byte)) :
    List Byte :=
  let n := entries.length
  let body (check : Nat) := leBytes 4 0x52534B54 ++ leBytes 2 1 ++ leBytes 1 kind ++ leBytes 1 head ++ leBytes 4 quire ++ leBytes 2 row
    ++ leBytes 2 n ++ leBytes 8 cycle ++ padTo 16 arrayId ++ leBytes 1 d ++ leBytes 1 w ++ leBytes 1 (if last then 1 else 0) ++ zeros 1
    ++ leBytes 4 (64 + 32 * n) ++ leBytes 8 seq ++ zeros 4 ++ leBytes 4 check ++ entries.flatMap (padTo 32)
  body (crc32c (body 0))

/-- The FOLIOS entry of a folio at an offset of the data space. -/
def folioEntry (off : Nat) (f : Folio) : List Byte :=
  leBytes 8 f.firstCid ++ leBytes 4 off ++ leBytes 4 (f.bytes.length + f.blocks * 2 ^ 16 + f.position * 2 ^ 20 + f.profile * 2 ^ 23)
    ++ leBytes 4 f.domain ++ leBytes 4 f.keyGen ++ leBytes 4 f.chainPrev ++ leBytes 4 f.revision

/-- Length of a summary of `n` entries, rounded up to 16 (R297). -/
def summaryLen (n : Nat) : Nat := up16 (64 + 32 * n)

/-- A row's summary, when its bytes can be read and its CHECK holds (R335, R343). -/
def State.readSummary (s : State) (unread : Unread) (q row : Nat) : Option (List Byte) :=
  match s.readExtent unread [] q row 0 0 64 with
  | none => none
  | some h =>
    match s.readExtent unread [] q row 0 0 (leAt h 44 4) with
    | none => none
    | some b =>
      if leAt b 0 4 = 0x52534B54 ∧ leAt b 8 4 = q ∧ leAt b 12 2 = row ∧ leAt b 60 4 = crc32c (patch b 60 (zeros 4)) then some b else none

/-- The entries of a summary. -/
def summaryEntries (b : List Byte) : List (List Byte) := (pieces 32 (b.drop 64)).take (leAt b 14 2)

/-- PROFILE of a folio from the summary of its row (R336). -/
def State.profileOf (s : State) (x : Shelf) (firstCid : Nat) : Nat :=
  match s.readSummary [] x.quire x.row with
  | some b => match (summaryEntries b).find? fun e => leAt e 0 8 == firstCid with
    | some e => leAt e 12 4 / 2 ^ 23 % 4
    | none => 0
  | none => 0

/-! ### Programming rows (R298, R299) -/

/-- The next row of a quire that this head programs: rows whose program has begun lie below the write pointers of its groups, whether or not
their ROWS items are applied (R299). -/
def State.rowsNext (s : State) (q : Nat) : Nat :=
  let x := s.quire q
  (x.pos.filterMap fun g => (s.serviceSlot g.1).map fun slot => ((s.car slot).group g.2).wp).foldl max x.rowsDone

/-- The strips of a row, data members then P and Q. -/
def rowStrips (d : Nat) (data : List Byte) : List (List Byte) :=
  let ds := (List.range d).map fun m => slice data (65536 * m) 65536
  let tagged := ds.zipIdx.map fun p => (p.2, p.1)
  ds ++ [stripP 65536 tagged, stripQ 65536 tagged]

/-- Program one strip on a carrier through the sequencer that serves it, or have its program fail (R405, R413). -/
def State.programStrip (queue number egroup page : Nat) (ok : Bool) (bs : List Byte) (s : State) : State :=
  match s.serviceSlot number with
  | none => s
  | some slot =>
    let t := s.useSequencer slot queue
    if ok then t.modCar slot fun c => (c.write egroup (page * 65536) bs).modGroup egroup fun e => { e with wp := page + 1 }
    else (t.modCar slot fun c =>
      { (c.modGroup egroup fun e => { e with wp := page + 1, failed := e.failed ++ [page] }) with progFails := c.progFails + 1 }).countMedia number 0x0105

/-- Put an erase group into a mode before its quire's row 0 is programmed (R282, R395). -/
def State.setGroupMode (queue number egroup : Nat) (slc : Bool) (s : State) : State :=
  match s.serviceSlot number with
  | none => s
  | some slot => (s.useSequencer slot queue).modCar slot (Carrier.modGroup egroup fun e => { e with slc := slc })

/-- Program the next row of a quire, its parity made by a parity engine; `failed` are the positions whose program fails. True when the row is
durable (R143, R298, R310). -/
def State.programRow (queue q : Nat) (failed : List Nat) (data : List Byte) (s : State) : Bool × State :=
  let x := s.quire q
  let row := s.rowsNext q
  let strips := rowStrips x.d data
  let s := s.useParity queue (x.d * 65536)
  let ok (p : Nat) : Bool := ! failed.contains p && (s.serviceSlot (x.pos.getD p (0xFFFF, 0)).1).isSome && x.failed / 2 ^ p % 2 == 0
  let t := (List.range x.w).foldl (fun t m =>
    let p := x.positionOf row m
    let (c, g) := x.pos.getD p (0xFFFF, 0)
    t.programStrip queue c g row (ok p) (strips.getD m [])) s
  ((List.range x.w).all ok, t)

end Sys2Proof.Machine
end

