-- ==== Sys2Proof/Machine/Apply.lean ====
section
/-! DEFINITION. Applying the journal items of a ledger cycle (R229 to R232, R272, R273, R303, R304, R467, R468, R470). -/

namespace Sys2Proof.Machine

/-! ### Form of items (R272) -/

/-- The ranges of bytes that an item of a TYPE leaves zero, as offset and length; none for an unknown TYPE. -/
def itemZeros (item : List Byte) : Option (List (Nat × Nat)) :=
  match leAt item 0 1 with
  | 1 => some ([(3, 1), (24, 8)] ++ if leAt item 1 1 / 2 % 8 = 0 then [] else [(16, 8)])
  | 2 => some []
  | 3 => some [(1, 3), (30, 2)]
  | 4 => some ([(2, 2)] ++ match leAt item 1 1 with
      | 1 => [(9, 1), (16, 16)]
      | 2 => [(16, 16)]
      | 3 => [(8, 24)]
      | 4 => [(12, 20)]
      | 5 => [(10, 22)]
      | 6 => [(9, 1), (16, 16)]
      | 7 => [(9, 23)]
      | 8 => [(10, 2), (28, 4)]
      | 9 => [(12, 20)]
      | _ => [])
  | 5 => some [(1, 1), (8, 24)]
  | 6 => some [(2, 6), (16, 16)]
  | 7 => some [(1, 3), (24, 8)]
  | 8 => some [(1, 3), (16, 16)]
  | 9 => some [(3, 1), (10, 6), (24, 8)]
  | 0xA => some ([(2, 2)] ++ match leAt item 1 1 with
      | 1 => [(8, 8), (24, 8)]
      | 2 => [(4, 4), (12, 20)]
      | 3 => [(4, 4), (12, 4), (24, 8)]
      | 4 => [(4, 4), (12, 20)]
      | 5 => [(4, 4), (12, 4), (24, 8)]
      | _ => [])
  | _ => none

/-- A type's own flag bits that must be zero. -/
def itemFlagsBad (item : List Byte) : Bool :=
  match leAt item 0 1 with
  | 1 => decide (16 ≤ leAt item 1 1)
  | 2 => decide (128 ≤ leAt item 1 1)
  | 6 => decide (2 ≤ leAt item 1 1)
  | _ => false

/-- An unknown TYPE, or a field that R272 marks zero and is not (R273). -/
def badItem (item : List Byte) : Bool :=
  match itemZeros item with
  | none => true
  | some z => itemFlagsBad item || z.any fun p => leAt item p.1 p.2 != 0

/-- Items that follow an item and have no TYPE byte: the digests of a CONTENT, the LABEL of a SNAPSHOT (R272, R467). -/
def itemTail (item : List Byte) : Nat :=
  if leAt item 0 1 = 2 then leAt item 1 1 % 16 else if leAt item 0 1 = 0xA ∧ leAt item 1 1 = 1 then 1 else 0

/-! ### The application of a cycle as it goes on -/

/-- The state, the increments and decrements owed, the groups changed so far, and whether a metadata fault occurred. -/
structure Applying where
  s : State
  cycle : Nat
  ups : List Nat
  downs : List Nat
  changed : List (Nat × Nat)
  fault : Bool
  deriving DecidableEq, Repr

/-- A metadata fault of an item; the item has no effect. -/
def Applying.faulted (a : Applying) : Applying := { a with fault := true }
/-- Change the catalogue. -/
def Applying.modCat (f : Catalogue → Catalogue) (a : Applying) : Applying := { a with s := { a.s with cat := f a.s.cat } }
/-- Change a quire record that exists; its absence is a metadata fault (R304). -/
def Applying.modQuire (q : Nat) (f : Quire → Quire) (a : Applying) : Applying :=
  if (Sparse.get Quire.none q a.s.quires).state = 0 then a.faulted
  else { a with s := { a.s with quires := Sparse.modify Quire.none q f a.s.quires } }

/-- The hot threshold (R291). -/
def State.hotThreshold (s : State) : Nat := s.setting 0x0406 0 4

/-- New mappings of the blocks of a group by a MAP item (R272). -/
def mapBlocks (flags mask cid : Nat) (l : List Mapped) : List Mapped :=
  (List.range 8).map fun i =>
    if mask / 2 ^ i % 2 = 0 then l.getD i .unmapped
    else if flags / 2 % 2 = 1 then .zero
    else if flags / 4 % 2 = 1 then .unreadable
    else if flags / 8 % 2 = 1 then .unmapped
    else .cid (cid + countOnes 8 (mask % 2 ^ i))

/-- Content IDs mapped in `b` where `a` maps something else. -/
def gained (a b : List Mapped) : List Nat :=
  (List.range 8).filterMap fun i => match b.getD i .unmapped with
    | .cid n => if a.getD i .unmapped = .cid n then none else some n
    | _ => none

/-- A MAP item (R229, R273). -/
def applyMap (item : List Byte) (a : Applying) : Applying :=
  let flags := leAt item 1 1
  let mask := leAt item 2 1
  let nsid := leAt item 4 4
  let lba := groupOf (leAt item 8 8)
  match a.s.cat.live nsid with
  | none => a
  | some v =>
    if flags % 2 = 1 ∨ mask = 0 ∨ (Sparse.get Namespace.none nsid a.s.cat.namespaces).size = 0 then a
    else
      let old := (a.s.cat.groupAt v.root lba).blocks
      let f := mapBlocks flags mask (leAt item 16 8)
      let first := ! a.changed.contains (nsid, lba)
      let (c, inc) := a.s.cat.changeGroup nsid lba a.s.hotThreshold first f
      let new := gained old (f old)
      let s := new.foldl (fun t n => t.indexContent n a.cycle) { a.s with cat := c }
      { a with s := s, ups := a.ups ++ inc ++ new, downs := a.downs ++ gained (f old) old,
               changed := if first then (nsid, lba) :: a.changed else a.changed }

/-- A CONTENT item with its digests (R273). -/
def applyContent (item : List Byte) (digests : List (List Byte)) (a : Applying) : Applying :=
  let f := leAt item 8 8
  let blocks := leAt item 1 1 % 16
  let shelf := Shelf.ofBytes (slice item 16 12)
  if (a.s.cat.record f).blocks ≠ 0 then a.faulted
  else
    let pos := leAt item 1 1 / 16 % 8
    let prev := leAt item 28 4
    let x : Content :=
      { blocks := blocks, position := pos, lost := false, nextPresent := false, released := 0,
        profile := a.s.profileOf shelf f,
        domain := leAt item 2 2 % 4096, revision := 0, keyGen := leAt item 4 4, chainPrev := prev, shelf := shelf,
        created := a.cycle, digests := digests, counts := List.replicate 8 0 }
    let a := a.modCat (Catalogue.setRecord f x)
    let a := if pos = 0 then a else a.modCat (Catalogue.modRecord (f - prev) fun y => if y.blocks = 0 then y else { y with nextPresent := true })
    { a with s := a.s.addValid shelf.quire (up16 shelf.length) }

/-- A MOVE item (R273). -/
def applyMove (item : List Byte) (a : Applying) : Applying :=
  let f := leAt item 8 8
  let x := a.s.cat.record f
  if x.blocks = 0 ∨ x.shelf.quire ≠ leAt item 4 4 then { a with s := { a.s with med := { a.s.med with movesIdle := a.s.med.movesIdle + 1 } } }
  else
    let shelf := Shelf.ofBytes (slice item 16 12)
    let s := (a.s.takeValid x.shelf.quire (up16 x.shelf.length)).addValid shelf.quire (up16 shelf.length)
    ({ a with s := s }).modCat (Catalogue.modRecord f fun x => { x with shelf := shelf, revision := leAt item 28 2 })

/-! ### QUIRE items (R303, R304) -/

/-- An OPENED item: the POSITION items just before it must be exactly those of its quire, for positions 0 to W - 1. -/
def applyOpened (item : List Byte) (a : Applying) : Applying :=
  let q := leAt item 4 4
  let w := leAt item 8 1
  let held := (a.s.cat.positions.reverse.takeWhile fun p => p.1 == q).reverse
  if held.map (fun p => p.2.1) ≠ List.range w then a.faulted
  else
    let mode := leAt item 10 1
    let rec_ : Quire :=
      { state := 1, slc := mode == 1, purpose := leAt item 11 1, d := leAt item 9 1, w := w, rows := leAt item 12 4, rowsDone := 0,
        openCycle := BitVec.ofNat 64 a.cycle, closeCycle := 0, validBytes := 0, failed := 0, pos := held.map fun p => p.2.2,
        targets := [], pins := 0 }
    { a with s := { a.s with quires := Sparse.set Quire.none q rec_ a.s.quires,
                             med := { a.s.med with quireHigh := max a.s.med.quireHigh q } } }

/-- A QUIRE item by its EVENT. A REBUILD_START of a position whose rebuild has begun anew takes the TARGET entry of its given-up group (log
entry 36). -/
def applyQuire (item : List Byte) (a : Applying) : Applying :=
  let q := leAt item 4 4
  let p := leAt item 8 1
  match leAt item 1 1 with
  | 1 =>
    let b := a.modCat fun c => { c with positions := c.positions ++ [(q, p, leAt item 10 2, leAt item 12 4)] }
    { b with s := { b.s with med := { b.s.med with quireHigh := max b.s.med.quireHigh q } } }
  | 2 => applyOpened item a
  | 3 => a.modQuire q fun x => { x with state := 5 }
  | 4 => a.modQuire q fun x =>
      { x with state := if x.slc then 2 else 3, rowsDone := leAt item 8 4, closeCycle := BitVec.ofNat 64 a.cycle }
  | 5 => if (Sparse.get Quire.none q a.s.quires).w ≤ p then a.faulted else a.modQuire q fun x => { x with failed := x.failed ||| 2 ^ p }
  | 6 =>
    let others (x : Quire) := x.targets.filter fun t => t.position != p
    if 2 ≤ (others (Sparse.get Quire.none q a.s.quires)).length then a.faulted
    else a.modQuire q fun x => { x with targets := others x ++ [{ position := p, carrier := leAt item 10 2, egroup := leAt item 12 4 }] }
  | 7 =>
    match (Sparse.get Quire.none q a.s.quires).targets.find? fun t => t.position == p with
    | none => a.faulted
    | some t => a.modQuire q fun x =>
        { x with pos := setNth p (t.carrier, t.egroup) x.pos, failed := x.failed &&& (2 ^ 34 - 1 - 2 ^ p),
                 targets := x.targets.filter fun t => t.position != p }
  | 8 => a.modCat fun c => { c with reshape := item }
  | 9 => a.modQuire q fun x => if x.state = 1 then { x with rowsDone := leAt item 8 4 } else x
  | _ => a.faulted

/-! ### Namespaces and views (R272, R467, R470) -/

/-- A NAMESPACE item. A new namespace gets a live view with an empty leaf for its root (log entry 15). -/
def applyNamespace (item : List Byte) (a : Applying) : Applying :=
  let nsid := leAt item 4 4
  match leAt item 1 1 with
  | 1 =>
    let v := a.s.cat.nextView
    a.modCat fun c =>
      let (root, c) := c.newNode { CatNode.none with nsid := nsid, view := v, epoch := a.cycle / 2 ^ 20 }
      let view : View := { view := v, nsid := nsid, kind := 0, deleting := false, isSealed := false, successor := 0, cycle := 0,
                           root := root, manifestAt := 0, label := zeros 32 }
      { c with namespaces := Sparse.set Namespace.none nsid
                 { profile := leAt item 2 1, domain := leAt item 8 2, size := leAt item 16 8, groupB := a.s.svc.groups.contains nsid } c.namespaces,
               views := c.views ++ [view], nextView := v + 1 }
  | 2 => a.modCat fun c => { c with namespaces := Sparse.set Namespace.none nsid Namespace.none c.namespaces }
  | 3 =>
    let f (n : Namespace) : Namespace := if n.size = 0 then n else { n with profile := leAt item 2 1 }
    a.modCat fun c => { c with namespaces := Sparse.modify Namespace.none nsid f c.namespaces }
  | _ => a.faulted

/-- Free a node: each mapping in it counts one less (R229). -/
def Applying.free (node : Nat) (a : Applying) : Applying :=
  let (c, dec) := a.s.cat.freeNode node
  { a with s := { a.s with cat := c }, downs := a.downs ++ dec }

/-- The KIND of a view a SNAPSHOT item makes: the item has no such field, so a head takes it from the order it holds (log entry
14). -/
def State.snapshotKind (s : State) (nsid n : Nat) : Nat :=
  match s.snp.orders.find? fun o => o.nsid == nsid && o.n == n with
  | some o => o.kind
  | none => 1

/-- A VIEW item by its OP. -/
def applyView (item : List Byte) (label : List Byte) (a : Applying) : Applying :=
  let v := leAt item 8 4
  match leAt item 1 1 with
  | 1 =>
    let nsid := leAt item 4 4
    let n := leAt item 16 8
    match a.s.cat.live nsid with
    | none => a
    | some live =>
      let next := a.s.cat.nextView
      let kind := a.s.snapshotKind nsid n
      let snap : View := { live with kind := kind, cycle := n, label := padTo 32 label, successor := next }
      a.modCat fun c =>
        { c with views := (c.modView live.view fun _ => snap).views ++ [{ live with view := next }], nextView := next + 1 }
  | 2 => a.modCat (Catalogue.modView v fun x => { x with deleting := true })
  | 3 =>
    let node := leAt item 16 8
    match a.s.cat.viewNo v with
    | none => a
    | some x =>
      if a.s.cat.reaches x.successor node then a.modCat fun c => c.setNode node { c.node node with view := x.successor }
      else a.free node
  | 4 =>
    match a.s.cat.viewNo v with
    | none => a
    | some x => a.modCat fun c =>
        { c with views := (c.views.filter fun y => y.view != v).map fun y => if y.successor = v then { y with successor := x.successor } else y }
  | 5 => a.modCat (Catalogue.modView v fun x => { x with isSealed := true, manifestAt := leAt item 16 8 })
  | _ => a.faulted

/-! ### One item, one record -/

/-- Apply one item with those that follow it without a TYPE byte. -/
def applyItem (item : List Byte) (tail : List (List Byte)) (a : Applying) : Applying :=
  let a := if leAt item 0 1 = 4 ∧ (leAt item 1 1 = 1 ∨ leAt item 1 1 = 2) then a else a.modCat fun c => { c with positions := [] }
  if badItem item then a.faulted
  else match leAt item 0 1 with
    | 1 => applyMap item a
    | 2 => applyContent item tail a
    | 3 => applyMove item a
    | 4 => let b := applyQuire item a
           if leAt item 1 1 = 2 then b.modCat fun c => { c with positions := [] } else b
    | 5 =>
      let d := leAt item 2 2
      let g := leAt item 4 4
      a.modCat fun c => if g % 2 = 0 then { c with gens0 := Sparse.set 0 d (g + 1) c.gens0 }
                        else { c with gens1 := Sparse.set 0 d (g + 1) c.gens1 }
    | 6 => { a with s := a.s.setLost (leAt item 8 8) (leAt item 1 1 % 2 == 1) }
    | 7 => let (c, inc) := a.s.cat.copyNode (leAt item 4 4) (leAt item 8 8)
           { a with s := { a.s with cat := c }, ups := a.ups ++ inc }
    | 8 => a.free (leAt item 8 8)
    | 9 => applyNamespace item a
    | _ => applyView item (tail.headD []) a

/-- Apply the items of a record in order; at most `fuel` items. -/
def applyItems : Nat → List (List Byte) → Applying → Applying
  | 0, _, a => a
  | _ + 1, [], a => a
  | fuel + 1, item :: t, a =>
    let n := if badItem item then 0 else itemTail item
    applyItems fuel (t.drop n) (applyItem item (t.take n) a)

/-- Apply one record's items, held POSITION items first forgotten (R304). -/
def applyRecord (items : List (List Byte)) (a : Applying) : Applying :=
  applyItems items.length items (a.modCat fun c => { c with positions := [] })

/-- Every increment, then every decrement (R230); a count that would fall below 0 is a metadata fault (R232). -/
def Applying.count (a : Applying) : Applying :=
  let c := a.ups.foldl (fun c n => c.countUp n) a.s.cat
  let (c, bad) := a.downs.foldl (fun (p : Catalogue × Bool) n => let (c, b) := p.1.countDown n; (c, p.2 || b)) (c, false)
  { a with s := { a.s with cat := c }, ups := [], downs := [], fault := a.fault || bad }

/-- Apply the items of a cycle, head 0's before head 1's, in one step (R230). -/
def State.applyLists (cycle : Nat) (first second : List (List Byte)) (s : State) : State :=
  let a : Applying := { s := { s with cat := { s.cat with now := cycle } }, cycle := cycle, ups := [], downs := [], changed := [], fault := false }
  let a := applyRecord second (applyRecord first a)
  let raised := a.ups
  let a := a.count
  let t := a.s.judgeAll raised cycle
  let t := { t with acc := { t.acc with applied := cycle, journalBytes := t.acc.journalBytes + 128 + 32 * (first.length + second.length) } }
  if a.fault then t.metadataFault else t

end Sys2Proof.Machine
end

