-- ==== Sys2Proof/Machine/Ledger.lean ====
section
/-! DEFINITION. Ledger cycles: records, answers, confirmation and the release of acknowledgements (R124 to R134, R328, R329,
R453, R454). -/

namespace Sys2Proof.Machine

/-! ### Who runs cycles -/

/-- This head runs cycle `n` without a partner: in SOLO, before a rejoining head follows the ledger (R454, R459). -/
def State.alone (s : State) (n : Nat) : Bool :=
  s.soloMode && ! ((s.twn.phase == .joined || s.twn.phase == .failback) && decide (s.twn.cycleJ.toNat ≤ n))

/-- The cycle length in force: 2 µs while a namespace is PROMPT (R124); a change of the setting takes effect with the next cycle (R151). -/
def State.cycleLength (s : State) : Nat :=
  if s.cat.namespaces.any fun p => p.2.profile == 2 then 2000 else s.settingAt 0x0102 0 10000 s.acc.openedAt

/-- The confirm timeout (R131, R151). -/
def State.confirmTimeout (s : State) (sent : Word64) : Nat := s.settingAt 0x0103 0 1000000 sent

/-! ### Records (R126) -/

/-- The length of an item with what must follow it in the same record: digests of a CONTENT, the LABEL of a SNAPSHOT, and
POSITION items with their OPENED (R272, R301, R467). -/
def itemRun (item : List Byte) (rest : List (List Byte)) : Nat :=
  if leAt item 0 2 = 0x0104 then (rest.takeWhile fun x => leAt x 0 2 == 0x0104).length + 2 else 1 + itemTail item

/-- The items of a record of at most `room`, whole runs only; at most `fuel` runs. -/
def takeItems : Nat → Nat → List (List Byte) → List (List Byte)
  | 0, _, _ => []
  | _, _, [] => []
  | fuel + 1, room, x :: t =>
    let n := itemRun x t
    if room < n then [] else (x :: t).take n ++ takeItems fuel (room - n) ((x :: t).drop n)

/-- A ledger record: LEVEL, CYCLE, entries, freed list, items, CID_BATCH, CONFIRMED_THROUGH; FLAGS and CHECK as given. -/
def ledgerBytes (level flags cycle : Nat) (entries : List (Nat × Nat × Nat)) (freed : List Nat) (items : List (List Byte))
    (batch through check : Nat) : List Byte :=
  leBytes 2 1 ++ leBytes 2 level ++ leBytes 4 flags ++ leBytes 8 cycle ++ leBytes 4 entries.length ++ leBytes 4 freed.length
    ++ leBytes 4 items.length ++ leBytes 4 (64 + 16 * entries.length + 8 * freed.length + 32 * items.length) ++ leBytes 8 batch
    ++ leBytes 8 through ++ zeros 12 ++ leBytes 4 check
    ++ entries.flatMap (fun e => leBytes 8 e.1 ++ leBytes 4 e.2.1 ++ leBytes 2 e.2.2 ++ zeros 2) ++ freed.flatMap (leBytes 8)
    ++ items.flatMap (padTo 32)

/-- CHECK of a record in its bytes: CRC-32C with FLAGS and CHECK taken as zero. -/
def ledgerCheck (b : List Byte) : Nat := crc32c (patch (patch b 4 (zeros 4)) 60 (zeros 4))

/-- The record of the open cycle. -/
def State.openRecord (s : State) : CycleRec × List Byte :=
  let entries := s.acc.openEntries.take 16384
  let freed := s.acc.openFreed.take 16384
  let items := takeItems 32768 32768 s.deltas
  let f (check : Nat) := ledgerBytes s.kpr.level 0 s.acc.openCycle entries freed items s.acc.batchClaimed s.acc.last check
  let check := ledgerCheck (f 0)
  ({ cycle := s.acc.openCycle, entries := entries, freed := freed, items := items, check := check, batch := s.acc.batchClaimed,
     sentAt := s.elapsed, resentAt := s.elapsed, confirmed := false }, f check)

/-- A cycle limit of R125 is reached. -/
def State.cycleFull (s : State) : Bool :=
  decide (16384 ≤ s.acc.openEntries.length) || decide (16384 ≤ s.acc.openFreed.length) || decide (32768 ≤ s.deltas.length)

/-- The open cycle may close: its length has passed or a limit is reached, the partner's record of the cycle before is held
(R125), the slot is free (R130), and the journal has room. -/
def State.mayClose (s : State) : Bool :=
  let n := s.acc.openCycle
  s.acc.running && s.basesSet
    && (decide (s.cycleLength ≤ s.elapsed.toNat - s.acc.openedAt.toNat) || s.cycleFull)
    && (s.alone n || decide (n ≤ max s.acc.last s.acc.received + 1))
    && ! (s.acc.own.any fun r => ! r.confirmed && decide (r.cycle + 8 ≤ n))
    && s.journalRoom (64 + 32 * (takeItems 32768 32768 s.deltas).length)

/-! ### Answers to hosts once a cycle is durable or acknowledged -/

/-- Send one answer owed for a durable cycle. -/
def State.answer (a : Answer) (s : State) : State :=
  match a with
  | .capsule c cid dw0 => s.respond c cid dw0 nsSuccess
  | .ring r result => s.crFinish r crOk result
  | .snapshot r nsid => s.crFinish r crOk (((s.cat.views.filter fun v => v.nsid == nsid && v.kind != 0).map (·.view)).foldl max 0)

/-- An answer that needs the items of its cycle applied: the view number of a snapshot (R469). -/
def Answer.needsApply : Answer → Bool
  | .snapshot _ _ => true
  | _ => false

/-- Send the answers owed through a cycle. -/
def State.sendAnswers (p : Answer → Bool) (through : Nat) (s : State) : State :=
  let now := s.acc.answers.filter fun a => decide (a.1 ≤ through) && p a.2
  now.foldl (fun t a => t.answer a.2)
    { s with acc := { s.acc with answers := s.acc.answers.filter fun a => ! (decide (a.1 ≤ through) && p a.2) } }

/-- Acknowledge the write commands whose last entry's cycle is at or below `n` (R132); a queue that has ended is told nothing
(R134) and is gone once its last write is decided (R376). -/
def State.acknowledge (n : Nat) (s : State) : State :=
  s.svc.conns.foldl (fun t p =>
    let due := p.2.cmds.filter fun c => match c.cycle with
      | some k => decide (k ≤ n)
      | none => false
    if p.2.ended then
      let rest := p.2.cmds.filter fun c => ! due.contains c
      if rest.isEmpty then t.setConn p.1 Conn.none else t.modConn p.1 fun x => { x with cmds := rest }
    else due.foldl (fun t c => t.respond p.1 c.cid 0 nsSuccess) t) s

/-- Acknowledge cycle after cycle, `n` of them from `k` on (R132). -/
def State.acknowledgeFrom : Nat → Nat → State → State
  | 0, _, s => s
  | n + 1, k, s => (s.acknowledge k).acknowledgeFrom n (k + 1)

/-- The highest cycle of this head such that it and every earlier one are confirmed. -/
def State.confirmedThrough (s : State) : Nat :=
  match s.acc.own.find? fun r => ! r.confirmed with
  | some r => r.cycle - 1
  | none => s.acc.openCycle - 1

/-- Release acknowledgements while `CUSTODY_HOLD_N` is asserted (R132, R133). -/
def State.releaseAcks (s : State) : State :=
  if ¬ s.holdsCustody then s
  else
    let n := s.confirmedThrough
    if n ≤ s.acc.released then s
    else
      let t := s.acknowledgeFrom (n - s.acc.released) (s.acc.released + 1)
      { t with acc := { t.acc with released := n } }

/-! ### Confirmation (R129, R144, R328, R329) -/

/-- An entry leaves: while an older one remains in a buffer, that it covered its blocks is kept (R122). -/
def State.noteLeft (h : Header) (s : State) : State :=
  let alive := ((s.headers s.ownBase ++ s.headers s.mirrorBase).filter fun x => x.nsid != segmentNsid && x.no != h.no).map (·.no)
  let all := (h.no, h.nsid, h.slba, h.nblk) :: s.acc.left
  { s with acc := { s.acc with left := all.filter fun e => alive.any fun n => decide (n < e.1) } }

/-- Set an entry's header FREE, its blocks remembered. -/
def State.leaveHeader (base no : Nat) (s : State) : State :=
  match s.header base no with
  | some h => (s.noteLeft h).modHeader base no fun h => { h with state := 0 }
  | none => s

/-- Free the header of an entry whose freed notice is confirmed; its slots return when the cycle is applied, and an entry adopted from
the mirror leaves with it (R144, R349, R452). -/
def State.freeHeader (no : Nat) (s : State) : State := if no % 2 = s.headNo then s.leaveHeader s.ownBase no else s

/-- Highest ENTRY_NO that a record lists. -/
def CycleRec.highest (r : CycleRec) : Nat := ((r.entries.map (·.1)) ++ r.freed).foldl max 0

/-- A cycle of this head is durable: its entries become CONFIRMED, its freed entries FREE, and what waited for it goes on. -/
def State.confirmCycle (n : Nat) (s : State) : State :=
  match s.acc.own.find? fun r => r.cycle == n && ! r.confirmed with
  | none => s
  | some r =>
    let s := { s with acc := { s.acc with own := mapWhere (fun r => r.cycle == n) (fun r => { r with confirmed := true }) s.acc.own,
                                          batchConfirmed := max s.acc.batchConfirmed r.batch, ownBatch := max s.acc.ownBatch r.batch,
                                          entrySeen := max s.acc.entrySeen r.highest } }
    let s := r.entries.foldl (fun t e => t.modHeader t.ownBase e.1 fun h => { h with state := 3 }) s
    let s := s.markConfirmed n
    let s := r.freed.foldl (fun t no => t.freeHeader no) s
    (s.sendAnswers (fun a => ! a.needsApply) s.confirmedThrough).releaseAcks

/-! ### Closing a cycle (R125, R126, R329) -/

/-- Close the open cycle: the list goes to the journal, the record to the ledger area and, with a partner, to its mirror; the
next cycle opens. -/
def State.closeCycle (s : State) : State :=
  let (r, bytes) := s.openRecord
  let n := r.cycle
  let header := bytes.take 64
  let s := s.appendJournal n (header ++ r.items.flatMap (padTo 32))
  let s := s.performWrite (s.ownBase + ledgerOff n) (bytes.map fun b => (true, b))
  let s := r.freed.foldl (fun t no => t.modRing no fun e => { e with freedIn := some n }) s
  let s := { s with
    deltas := s.deltas.drop r.items.length,
    acc := { s.acc with own := s.acc.own ++ [r], openCycle := n + 1, openedAt := s.elapsed,
                        openEntries := s.acc.openEntries.drop r.entries.length, openFreed := s.acc.openFreed.drop r.freed.length } }
  if s.alone n then s.confirmCycle n else s.emit (.mirror (ledgerOff n) bytes true)

/-- Resend a record from its own slot with RESEND set (R129, R131). -/
def State.resend (n : Nat) (s : State) : State :=
  match s.acc.own.find? fun r => r.cycle == n with
  | none => s
  | some r =>
    let len := 64 + 16 * r.entries.length + 8 * r.freed.length + 32 * r.items.length
    let b := s.bytes (s.ownBase + ledgerOff n) len
    let b := patch b 4 (leBytes 4 (leAt b 4 4 ||| 1))
    ({ s with acc := { s.acc with own := mapWhere (fun r => r.cycle == n) (fun r => { r with resentAt := s.elapsed }) s.acc.own } }).emit
      (.mirror (ledgerOff n) b true)

/-! ### The partner's record (R127, R128) -/

/-- The 32 bytes of an answer. -/
def answerBytes (type reason index cycle check : Nat) : List Byte :=
  let b := leBytes 2 type ++ leBytes 2 reason ++ leBytes 4 index ++ leBytes 8 cycle ++ leBytes 4 check ++ zeros 8
  b ++ leBytes 4 (crc32c b)

/-- Answer a record. -/
def State.answerRecord (type reason index cycle check : Nat) (s : State) : State :=
  s.emit (.ledgerAnswer (ledgerOff cycle + 0x200000 - 32) (answerBytes type reason index cycle check))

/-- The first entry of a list whose mirror header is not as the record lists it (R128). -/
def State.missingEntry (s : State) (entries : List (Nat × Nat × Nat)) : Option Nat :=
  (List.range entries.length).find? fun i =>
    let e := entries.getD i (0, 0, 0)
    let h := s.headerAt s.mirrorBase e.1
    leAt h 0 8 != e.1 || leAt h 60 4 != e.2.1 || ! goodHeader h

/-- The partner's record in a slot of the mirror ledger area. -/
def State.arrivedRecord (s : State) (slot : Nat) : List Byte :=
  let a := s.mirrorBase + ledgerOff slot
  let h := s.bytes a 64
  s.bytes a (min 0x200000 (max 64 (leAt h 28 4)))

/-- A record taken apart. -/
def recordOf (b : List Byte) (now : Word64) : CycleRec :=
  let ne := leAt b 16 4
  let nf := leAt b 20 4
  let nd := leAt b 24 4
  let fo := 64 + 16 * ne
  { cycle := leAt b 8 8,
    entries := (List.range ne).map fun i => (leAt b (64 + 16 * i) 8, leAt b (72 + 16 * i) 4, leAt b (76 + 16 * i) 2),
    freed := (List.range nf).map fun i => leAt b (fo + 8 * i) 8,
    items := (List.range nd).map fun i => slice b (fo + 8 * nf + 32 * i) 32,
    check := leAt b 60 4, batch := leAt b 32 8, sentAt := now, resentAt := now, confirmed := true }

/-- Apply an arriving record whole (R128, R329). -/
def State.takeRecord (r : CycleRec) (header : List Byte) (s : State) : State :=
  let s := r.entries.foldl (fun t e => t.modHeader t.mirrorBase e.1 fun h => { h with cycle := r.cycle, state := 3 }) s
  let s := s.appendMirror r.cycle (header ++ r.items.flatMap (padTo 32))
  let s := r.freed.foldl (fun t no => t.leaveHeader t.mirrorBase no) s
  { s with acc := { s.acc with partner := s.acc.partner ++ [r], last := r.cycle, checks := Sparse.set 0 r.cycle r.check s.acc.checks,
                               batchConfirmed := max s.acc.batchConfirmed r.batch, entrySeen := max s.acc.entrySeen r.highest,
                               heldBy := leAt header 40 8 } }

/-- A record whose CHECK holds has been received (R125). -/
def State.noteReceived (cycle : Nat) (s : State) : State := { s with acc := { s.acc with received := max s.acc.received cycle } }
/-- A repeated record with another CHECK is reported to the health governor (R128). -/
def State.noteDiffering (s : State) : State := { s with acc := { s.acc with differing := s.acc.differing + 1 } }

/-- Handle the partner's record in a slot (R128). -/
def State.handleRecord (slot : Nat) (s : State) : State :=
  let b := s.arrivedRecord slot
  let r := recordOf b s.elapsed
  if leAt b 28 4 ≠ 64 + 16 * r.entries.length + 8 * r.freed.length + 32 * r.items.length ∨ ledgerCheck b ≠ r.check then
    s.answerRecord 3 2 0 r.cycle r.check
  else
    let s := s.noteReceived r.cycle
    let refuse (reason index : Nat) := s.answerRecord 3 reason index r.cycle r.check
    if leAt b 2 2 + 1 < s.kpr.level ∨ s.kpr.level + 1 < leAt b 2 2 then refuse 3 0
    else if r.cycle ≤ s.acc.last then
      (if Sparse.get 0 r.cycle s.acc.checks = r.check then s.answerRecord 2 0 0 r.cycle r.check
       else s.noteDiffering.answerRecord 3 2 0 r.cycle r.check)
    else if r.cycle ≠ s.acc.last + 1 then refuse 4 0
    else match s.missingEntry r.entries with
      | some i => refuse 1 i
      | none => (s.takeRecord r (b.take 64)).answerRecord 2 0 0 r.cycle r.check

/-- This head follows the ledger with its partner. -/
def State.withPartner (s : State) : Bool := s.acc.running && s.basesSet && ! s.alone s.acc.openCycle

def execLedgerRecord (slot : Nat) (s : State) : Host.Outcome State Fault Refusal :=
  .next (if slot < 8 ∧ s.withPartner ∧ s.twn.linkUp then s.handleRecord slot else s)

/-! ### Answers from the partner (R129) -/

/-- The answer in a slot of the own ledger area. -/
def State.arrivedAnswer (s : State) (slot : Nat) : List Byte := s.bytes (s.ownBase + ledgerOff slot + 0x200000 - 32) 32

/-- The own unconfirmed record an answer of a TYPE is for; an answer that fails its CHECK or names no such record is ignored (log
entry 21). -/
def State.answered (s : State) (slot type : Nat) : Option CycleRec :=
  let b := s.arrivedAnswer slot
  if leAt b 28 4 ≠ crc32c (b.take 28) ∨ leAt b 0 2 ≠ type then none
  else s.acc.own.find? fun r => r.cycle == leAt b 8 8 && r.check == leAt b 16 4 && ! r.confirmed

/-- Repeat the mirror copies of an entry: its data, then its header as a write-last (R119). -/
def State.mirrorEntry (no : Nat) (s : State) : State :=
  match s.ownHeader no with
  | none => s
  | some h =>
    let s := if h.noData then s else s.sendMirror no h.off (s.bytes (s.ownBase + h.off) (4096 * h.nblk)) false
    s.sendMirror no (headerOff no) (headerBytes { h with state := 2, cycle := 0 }) true

/-- What a refusal has the sending head do (R129). -/
def State.refused (r : CycleRec) (reason index : Nat) (s : State) : State :=
  match reason with
  | 1 => ((r.entries.drop index).foldl (fun t e => t.mirrorEntry e.1) s).resend r.cycle
  | 2 => s.resend r.cycle
  | 4 => (s.acc.own.filter fun r => ! r.confirmed && decide (s.acc.heldBy < r.cycle)).foldl (fun t r => t.resend r.cycle) s
  | 3 => { s.releaseCustody causeLevelRefused with acc := { (s.releaseCustody causeLevelRefused).acc with running := false } }
  | _ => s

def execLedgerRefuse (slot : Nat) (s : State) : Host.Outcome State Fault Refusal :=
  .next (if slot < 8 ∧ s.basesSet then
      (match s.answered slot 3 with
      | some r => s.refused r (leAt (s.arrivedAnswer slot) 2 2) (leAt (s.arrivedAnswer slot) 4 4)
      | none => s)
    else s)

/-! ### No answer (R131) -/

/-- The oldest own record unanswered for the confirm timeout since it was sent, and for a cycle length since it was resent. -/
def State.overdue (s : State) : Option CycleRec :=
  s.acc.own.find? fun r => ! r.confirmed && decide (s.confirmTimeout r.sentAt ≤ s.elapsed.toNat - r.sentAt.toNat)
    && decide (s.cycleLength ≤ s.elapsed.toNat - r.resentAt.toNat)

/-- The record is resent and the delay reported: bit 5 of UNCLEAN (R458). -/
def execConfirmTimeout (s : State) : Host.Outcome State Fault Refusal :=
  .next (if s.withPartner then
      (match s.overdue with
      | some r => ({ s with twn := { s.twn with unclean := s.twn.unclean ||| 0x20 } }).resend r.cycle
      | none => s)
    else s)

end Sys2Proof.Machine
end

