-- ==== Sys2Proof/Machine/Messages.lean ====
section
/-! DEFINITION. Journal items by kind (R272, R303, R467), and messages of one supervisor to the other (R442, channel 0x02), whose
layout the spec leaves to the shipped programs and the model fixes (log entry 22). -/

namespace Sys2Proof.Machine

/-! ### Items (R272) -/

def itemMap (flags mask nsid group cid : Nat) : List Byte :=
  itemBytes 1 flags (leBytes 1 mask ++ zeros 1 ++ leBytes 4 nsid ++ leBytes 8 group ++ leBytes 8 cid)
def itemContent (blocks position domain keyGen firstCid : Nat) (shelf : Shelf) (chainPrev : Nat) : List Byte :=
  itemBytes 2 (blocks + 16 * position) (leBytes 2 domain ++ leBytes 4 keyGen ++ leBytes 8 firstCid ++ shelf.bytes ++ leBytes 4 chainPrev)
def itemMove (oldQuire firstCid : Nat) (shelf : Shelf) (revision : Nat) : List Byte :=
  itemBytes 3 0 (zeros 2 ++ leBytes 4 oldQuire ++ leBytes 8 firstCid ++ shelf.bytes ++ leBytes 2 revision)
def itemKeyGen (domain gen : Nat) : List Byte := itemBytes 5 0 (leBytes 2 domain ++ leBytes 4 gen)
def itemLost (lost : Bool) (firstCid : Nat) : List Byte := itemBytes 6 (if lost then 1 else 0) (zeros 6 ++ leBytes 8 firstCid)
def itemNodeFree (view node : Nat) : List Byte := itemBytes 8 0 (zeros 2 ++ leBytes 4 view ++ leBytes 8 node)
def itemNamespace (op profile nsid domain size : Nat) : List Byte :=
  itemBytes 9 op (leBytes 1 profile ++ zeros 1 ++ leBytes 4 nsid ++ leBytes 2 domain ++ zeros 6 ++ leBytes 8 size)
/-- A SNAPSHOT item with the LABEL that follows it (R467). -/
def itemsSnapshot (nsid n : Nat) (label : List Byte) : List (List Byte) :=
  [itemBytes 0xA 1 (zeros 2 ++ leBytes 4 nsid ++ zeros 8 ++ leBytes 8 n), padTo 32 label]
/-- DELETE, ADOPT, RETIRE and SEALED items. -/
def itemView (op view arg : Nat) : List Byte := itemBytes 0xA op (zeros 6 ++ leBytes 4 view ++ zeros 4 ++ leBytes 8 arg)

/-! ### Sending to the partner -/

/-- Send a twin frame; while the link retrains it is held, while the link is down it is not sent (R441). -/
def State.sendTwin (channel : Nat) (payload : List Byte) (s : State) : State :=
  if ¬ s.twn.linkUp then s
  else if s.twn.retraining then { s with twn := { s.twn with held := s.twn.held ++ [(channel, payload)] } }
  else s.emit (.twin channel payload)

/-- A deferred error as log page C4h shows it (R381). -/
def Deferred.bytes (d : Deferred) : List Byte :=
  leBytes 8 d.seq ++ leBytes 4 d.nsid ++ leBytes 2 1 ++ zeros 2 ++ leBytes 8 d.first ++ leBytes 8 d.last ++ leBytes 8 d.no
    ++ leBytes 8 d.cycle ++ leBytes 1 d.head ++ zeros 15

/-- Message kinds: deferred error, damage report, LOST report, erase request, erase answer, setting, namespace group; whether the partner
accepts an activation, and its answer (R539); committed and confirmed levels (R546, R547); a shipment that begins, one that ends (R476), the
namespaces of a stack snapshot (R478), and a view whose seal begins (R472). -/
def msgDeferred : Nat := 1
def msgDamage : Nat := 2
def msgLost : Nat := 3
def msgErase : Nat := 4
def msgErased : Nat := 5
def msgSetting : Nat := 6
def msgGroup : Nat := 7
def msgSchedule : Nat := 8
def msgAccept : Nat := 9
def msgLevels : Nat := 10
def msgShipment : Nat := 11
def msgShipped : Nat := 12
def msgStackOrder : Nat := 13
def msgSeal : Nat := 14

/-- A supervisor message. -/
def State.tellPartner (kind : Nat) (body : List Byte) (s : State) : State := s.sendTwin 2 (leBytes 1 kind ++ body)

/-- Tell the partner of a shipment that runs, which it starts again if it comes to hold the namespace (R476). -/
def State.tellShipment (x : Shipment) (s : State) : State :=
  s.tellPartner msgShipment (leBytes 4 x.nsid ++ leBytes 4 x.base ++ leBytes 4 x.view ++ leBytes 4 x.peer ++ leBytes 1 (if x.dropBase then 1 else 0))

/-- A shipment as the partner's message gives it. -/
def Shipment.of (b : List Byte) : Shipment :=
  { stream := 0, nsid := leAt b 0 4, base := leAt b 4 4, view := leAt b 8 4, peer := leAt b 12 4, endSeq := 0, reply := none, dropBase := leAt b 16 1 == 1 }

/-- Tell the partner the committed level, and the level this head has confirmed, 0 during a trial (R546, R547). -/
def State.tellLevels (s : State) : State :=
  s.tellPartner msgLevels (leBytes 2 s.kpr.committed ++ leBytes 2 (if s.kpr.confirmed then s.kpr.level else 0))

/-! ### Reports to the owner of a quire (R359) -/

/-- Report a row on which a retrieval needed reconstruction. -/
def State.reportRow (q row : Nat) (s : State) : State :=
  if s.ownsQuire q then
    (if s.med.reports.contains (q, row) then s else { s with med := { s.med with reports := s.med.reports ++ [(q, row)] } })
  else s.tellPartner msgDamage (leBytes 4 q ++ leBytes 4 row)

/-- A folio and the later folios of its chain (R318). -/
def Catalogue.suffix (c : Catalogue) (f : Nat) : List Nat :=
  let h := c.chainHead 8 f
  (c.content.filterMap fun p => if f ≤ p.1 ∧ c.chainHead 8 p.1 = h then some p.1 else none)

/-- Queue LOST for a folio and the later folios of its chain that are not LOST yet (R318). -/
def State.queueLost (f : Nat) (s : State) : State :=
  s.queueItems ((s.cat.suffix f).filterMap fun g =>
    if (s.cat.record g).lost ∨ s.deltas.contains (itemLost true g) then none else some (itemLost true g))

/-- A folio is found LOST: its owner queues the items, another head asks it to (R359). -/
def State.reportLost (f : Nat) (s : State) : State :=
  if s.ownsQuire (s.cat.record f).shelf.quire then s.queueLost f else s.tellPartner msgLost (leBytes 8 f)

end Sys2Proof.Machine
end

