-- ==== Sys2Proof/Machine/Retrieval.lean ====
section
/-! DEFINITION. Retrieval (R347 to R362): which content a block has, and bringing a folio back from its row. -/

namespace Sys2Proof.Machine

/-! ### Outcomes (R360) -/

/-- What one block of a read came to. -/
inductive ReadOutcome where
  | ok (data : List Byte)
  | zero
  | unmapped
  | unreadable
  | lost
  | bufferLost
  | internal
  deriving DecidableEq, Repr

/-- The bytes a host gets for a block; none for an outcome of 3 to 6. -/
def ReadOutcome.data : ReadOutcome → Option (List Byte)
  | .ok d => some d
  | .zero => some (zeros 4096)
  | .unmapped => some (zeros 4096)
  | _ => none

/-- The NVMe status of an outcome (R360, R370). -/
def ReadOutcome.status : ReadOutcome → Nat
  | .unreadable => nsUnrecovered
  | .lost => nsUnrecovered
  | .bufferLost => nsUnrecovered
  | .internal => nsInternal
  | _ => nsSuccess

/-! ### The buffer index (R348, R349) -/

/-- Entries that cover a block: region base and header, STATE CONFIRMED or PLACED, or freed and not yet applied. -/
def State.bufferedEntries (s : State) (nsid lba : Nat) : List (Nat × Header) :=
  let hits (base : Nat) := ((s.headers base).filter fun h => decide (3 ≤ h.state) && h.covers nsid lba).map fun h => (base, h)
  let freed := s.acc.ring.filterMap fun e => match s.ownHeader e.no with
    | some h => if e.freedIn.isSome ∧ ¬ e.freed ∧ h.state = 0 ∧ h.covers nsid lba then some (s.ownBase, h) else none
    | none => none
  if s.basesSet then hits s.ownBase ++ hits s.mirrorBase ++ freed else []

/-- The departure mark of a block's group. -/
def State.departureMark (s : State) (nsid lba : Nat) : Nat := Sparse.get 0 (nsid * 2 ^ 48 + groupOf lba) s.med.departed

/-- The entry a read of a block uses, if one does. -/
def State.bufferHit (s : State) (nsid lba : Nat) : Option (Nat × Header) :=
  let best := (s.bufferedEntries nsid lba).foldl (fun (b : Option (Nat × Header)) p => match b with
    | some x => if x.2.no < p.2.no then some p else b
    | none => some p) none
  match best with
  | some p => if s.departureMark nsid lba < p.2.no then some p else none
  | none => none

/-- A NO_DATA entry unmaps: this head's ring says so; an entry adopted from the mirror has no field for it, and the answer is open
(log entry 24). -/
def State.entryUnmaps (s : State) (no : Nat) : Bool :=
  match s.ringEntry no with
  | some e => e.unmap
  | none => Config.unmapBit no

/-- The block of an entry, from this head's memory, or from the partner's mirror when the memory cannot deliver it (R136, R350). -/
def State.entryBlock (seen : Seen) (base : Nat) (h : Header) (lba : Nat) (s : State) : Option (List Byte) × State :=
  let a := base + h.off + 4096 * (lba - h.slba)
  match s.readFault a 4096 with
  | none => (some (s.bytes a 4096), s)
  | some k =>
    let t := (s.takeFree).busError k (s.freeWord.toNat % 4096) a
    if s.withPartner ∧ s.twn.linkUp then ((seen.remote.find? fun p => p.1 == lba).map fun p => padTo 4096 p.2, t) else (none, t)

/-- A block served from the buffer. -/
def State.readBuffered (seen : Seen) (base : Nat) (h : Header) (lba : Nat) (s : State) : ReadOutcome × State :=
  if h.noData then (if s.entryUnmaps h.no then .unmapped else .zero, s)
  else match s.entryBlock seen base h lba with
    | (some b, t) => (.ok b, t)
    | (none, t) => (.bufferLost, t)

/-! ### Data keys in slots (R256 to R258, R353) -/

/-- The usage limit (R260). -/
def State.keyLimit (s : State) : Nat := s.setting 0x0300 0 (2 ^ 44)

/-- Halves A and B of a data key. -/
def State.dataHalves (s : State) (d g : Nat) : List Byte × List Byte :=
  let k := deriveData s.kpr.km d g
  (k.take 32, k.drop 32)

/-- Data slots lie below the service slots (R526). -/
def dataSlotCount : Nat := 4032

/-- A cipher unit has a command of a slot in service. -/
def State.slotInUse (s : State) (i : Nat) : Bool :=
  (List.range (classUnits clsCipher)).any fun u =>
    ((s.unit clsCipher u).service ++ (s.unit clsCipher u).suspended).any fun c => ! c.done && cphSlot c.block == i

/-- The slot that a new key takes: a free data slot, else the least recently used one that is neither a write slot nor in use (R258). -/
def State.slotForKey (s : State) : Option Nat :=
  match (List.range dataSlotCount).find? fun i => ! s.med.slots.any (fun x => x.1 == i) with
  | some i => some i
  | none => (s.med.slots.find? fun x => ! x.2.2.2 && ! s.slotInUse x.1).map (·.1)

/-- A slot is the one most recently used. -/
def State.touchSlot (i : Nat) (s : State) : State :=
  { s with med := { s.med with slots := s.med.slots.filter (fun x => x.1 != i) ++ s.med.slots.filter fun x => x.1 == i } }

/-- The keeper loads a key generation into a data slot, which comes back; none where no slot may be taken. -/
def State.fillSlot (d g : Nat) (readOnly write : Bool) (s : State) : Option Nat × State :=
  match s.slotForKey with
  | none => (none, s)
  | some i =>
    let (a, b) := s.dataHalves d g
    let t := s.loadSlot i a b s.keyLimit readOnly
    (some i, { t with med := { t.med with slots := t.med.slots.filter (fun x => x.1 != i) ++ [(i, d, g, write)] } })

/-- Make sure a slot holds a folio's key, and mark it as the one most recently used. -/
def State.needKey (d g : Nat) (s : State) : State :=
  match s.med.slots.find? fun x => x.2.1 == d && x.2.2.1 == g with
  | some x =>
    if (s.cslot x.1).state = .empty then
      let (a, b) := s.dataHalves d g
      (s.loadSlot x.1 a b s.keyLimit (! x.2.2.2)).touchSlot x.1
    else s.touchSlot x.1
  | none => (s.fillSlot d g true false).2

/-- The halves that the slot of a domain and generation holds. -/
def State.slotHalves (s : State) (d g : Nat) : List Byte × List Byte :=
  match s.med.slots.find? fun x => x.2.1 == d && x.2.2.1 == g with
  | some x => ((s.cslot x.1).halfA, (s.cslot x.1).halfB)
  | none => s.dataHalves d g

/-! ### One folio (R354 to R356) -/

/-- What reading one folio gave: its plaintext and the context after it; or why none. -/
inductive FolioRead where
  | missing
  | spoiled
  | good (out : List Byte) (after : CoderCtx)
  deriving DecidableEq, Repr

/-- Read, decrypt and decode a folio in a context, with some members taken as missing. -/
def State.readFolio (s : State) (seen : Seen) (taken : List Nat) (f : Nat) (ctx : CoderCtx) : FolioRead :=
  let x := s.cat.record f
  match s.readShelf seen.unread taken x.shelf with
  | none => .missing
  | some c =>
    let (a, b) := s.slotHalves x.domain x.keyGen
    let r := decodeFolio (xts true a b (folioSeq f x.revision) c) x.shelf.length (4096 * x.blocks) ctx
    if r.status = 0 then .good r.out r.after else .spoiled

/-- Block `i` of a folio's plaintext has the digest its record gives (R213, R357). -/
def State.blockMatches (s : State) (f i : Nat) (out : List Byte) : Bool :=
  let x := s.cat.record f
  fingerprint (s.digestKey x.domain) (slice out (4096 * i) 4096) == x.digests.getD i []

/-- Every block named, and no other, is compared. -/
def State.blocksMatch (s : State) (f : Nat) (want : List Nat) (out : List Byte) : Bool := want.all fun i => s.blockMatches f i out

/-- Blocks of a folio whose count is above 0. -/
def State.countedBlocks (s : State) (f : Nat) : List Nat :=
  let x := s.cat.record f
  (List.range x.blocks).filter fun i => x.counts.getD i 0 != 0

/-! ### Chains (R182, R356) -/

/-- The folios of a chain from position 0 to one of them. -/
def Catalogue.chainTo (c : Catalogue) : Nat → Nat → List Nat
  | 0, f => [f]
  | n + 1, f => if (c.record f).position = 0 then [f] else c.chainTo n (f - (c.record f).chainPrev) ++ [f]

/-- The context saved after a folio, when one is. -/
def State.savedContext (s : State) (f : Nat) : Option CoderCtx :=
  match s.med.contexts.find? fun p => p.1 == f with
  | some p => some p.2
  | none => none

/-- The context to start from and the folios still to decode, the latest saved image used. -/
def State.chainStart (s : State) : List Nat → CoderCtx × List Nat
  | [] => (CoderCtx.reset, [])
  | [f] => (CoderCtx.reset, [f])
  | p :: t =>
    let (ctx, rest) := s.chainStart t
    if rest.length < t.length then (ctx, rest)
    else match s.savedContext p with
      | some c => (c, t)
      | none => (CoderCtx.reset, p :: t)

/-- A decoded folio: its FIRST_CID, plaintext, the context after it, and the members taken as missing. -/
structure Decoded where
  first : Nat
  out : List Byte
  after : CoderCtx
  taken : List Nat
  deriving DecidableEq, Repr

/-- Decode folios in turn; the first that fails ends it. -/
def State.decodeRun (s : State) (seen : Seen) : CoderCtx → List Nat → Option (List Decoded)
  | _, [] => some []
  | ctx, f :: t =>
    match s.readFolio seen [] f ctx with
    | .good out after => (s.decodeRun seen after t).map fun l => { first := f, out := out, after := after, taken := [] } :: l
    | _ => none

/-! ### The damage sequence (R358) -/

/-- The members taken as missing in turn, the plain read first. -/
def attempts (x : Shelf) : List (List Nat) :=
  if 65536 < x.offset + x.length then [[], [x.member], [x.member + 1], [x.member, x.member + 1]] else [[], [x.member]]

/-- The first attempt at a folio that decodes, and whose counted and wanted blocks verify. -/
def State.attempt (s : State) (seen : Seen) (want : List Nat) (f : Nat) (ctx : CoderCtx) : List (List Nat) → Option Decoded
  | [] => none
  | m :: t =>
    match s.readFolio seen m f ctx with
    | .good out after =>
      if s.blocksMatch f (s.countedBlocks f ++ want) out then some { first := f, out := out, after := after, taken := m }
      else s.attempt seen want f ctx t
    | _ => s.attempt seen want f ctx t

/-- Decode a chain from its start, each folio verified: what decoded, and the first folio that no attempt brings back. -/
def State.healRun (s : State) (seen : Seen) (target : Nat) (want : List Nat) : CoderCtx → List Nat → List Decoded × Option Nat
  | _, [] => ([], none)
  | ctx, f :: t =>
    match s.attempt seen (if f = target then want else []) f ctx (attempts (s.cat.record f).shelf) with
    | none => ([], some f)
    | some d => let (l, bad) := s.healRun seen target want d.after t; (d :: l, bad)

/-! ### Fetching a folio's blocks -/

/-- Save the context after the folio read, of a chain, in the cache of 4,096 images; a full cache gives up the image of lowest FIRST_CID
(R182, R356; log entry 163). -/
def State.saveContext (d : Decoded) (s : State) : State :=
  let x := s.cat.record d.first
  if x.position = 0 ∧ ¬ x.nextPresent then s
  else
    let kept := if s.med.contexts.length < 4096 ∨ (s.savedContext d.first).isSome then s.med.contexts else s.med.contexts.drop 1
    { s with med := { s.med with contexts := Sparse.set CoderCtx.reset d.first d.after kept } }

/-- A READ of part of a strip that the carrier cannot correct ends UNCORRECTABLE after every set of its retry table (R408, R413). -/
def State.noteUncorrectable (slot : Nat) (s : State) : State :=
  (s.countMedia (s.car slot).number 0x0104).bump (rMedSeq (s.servingSequencer slot) + 0x10) (s.car slot).ident.retrySets

/-- The reads of an extent by the sequencers that serve its carriers (R354, R408). -/
def State.useReads (unread : Unread) (q : Nat) (x : Shelf) (s : State) : State :=
  (extentParts 34 x.member x.offset x.length).foldl (fun t p =>
    let g := (t.quire x.quire).pos.getD ((t.quire x.quire).positionOf x.row p.1) (0xFFFF, 0)
    match t.serviceSlot g.1 with
    | some slot =>
      let bad := unreadable unread x.quire x.row p.1 p.2.1 p.2.2 || ((t.car slot).group g.2).failed.contains x.row
      if bad then (t.useSequencer slot q).noteUncorrectable slot else t.useSequencer slot q
    | none => t) s

/-- The reads of an extent, and a RECONSTRUCT where members are missing or taken as missing (R312, R354). -/
def State.useFetch (seen : Seen) (q : Nat) (rebuilt : Bool) (x : Shelf) (s : State) : State :=
  if rebuilt ∨ s.neededRebuild seen.unread x then (s.useReads seen.unread q x).useParity q (x.length * (s.quire x.quire).d) else s.useReads seen.unread q x

/-- The commands of bringing back one folio: its extent read, and DECRYPT (R312, R354, R355). -/
def State.useFolio (seen : Seen) (q : Nat) (d : Decoded) (s : State) : State :=
  let x := (s.cat.record d.first).shelf
  (s.useFetch seen q (! d.taken.isEmpty) x).useXts true q x.length

/-- Runs of consecutive numbers in a rising list. -/
def runsIn : List Nat → Nat
  | [] => 0
  | [_] => 1
  | a :: b :: t => (if b = a + 1 then 0 else 1) + runsIn (b :: t)

/-- VERIFY commands over blocks of a folio, one per run of consecutive ones (R357). -/
def State.useVerifyRuns (q : Nat) (want : List Nat) (s : State) : State :=
  if want.isEmpty then s else s.useUnit clsDigest q (runsIn want) (fun u t => t.countMessage u (4096 * want.length) want.length)

/-- The commands of a read: each folio of the chain brought back, a FIND and a second one for its pin among them, decoded on one lane with
output for the last alone, and the wanted blocks verified (R182, R352, R356, R357). -/
def State.useRead (seen : Seen) (q : Nat) (ds : List Decoded) (want : List Nat) (s : State) : State :=
  let t := ds.foldl (fun t d => (t.useAssist q 2).useFolio seen q d) s
  (t.useDecoder q ds.length ((ds.getLast?.map fun d => d.out.length).getD 0)).useVerifyRuns q want

/-- The commands of the damage sequence: every folio of the chain decoded with output and every block whose count is above 0 verified. -/
def State.useHeal (seen : Seen) (q : Nat) (ds : List Decoded) (s : State) : State :=
  ds.foldl (fun t d => t.useRead seen q [d] (t.countedBlocks d.first)) s

/-- Pins on the quires of a chain's folios, taken before their ciphertext is read and given back after (R286, R352). -/
def State.pinChain (up : Bool) (chain : List Nat) (s : State) : State :=
  chain.foldl (fun t f => t.modQuire (t.cat.record f).shelf.quire fun x =>
    if x.state = 0 then x else { x with pins := if up then x.pins + 1 else x.pins - 1 }) s

/-- Report the rows whose folios were verified with reconstruction (R359). -/
def State.reportRebuilt (seen : Seen) (ds : List Decoded) (s : State) : State :=
  ds.foldl (fun t d =>
    let x := (t.cat.record d.first).shelf
    if d.taken.isEmpty ∧ ¬ t.neededRebuild seen.unread x then t else t.reportRow x.quire x.row) s

/-- What fetching a folio came to. -/
inductive Fetched where
  | plain (out : List Byte)
  | lost
  | internal
  deriving DecidableEq, Repr

/-- Fetch a folio with the wanted blocks verified (R351 to R358). -/
def State.fetchFolio (seen : Seen) (f : Nat) (want : List Nat) (s : State) : Fetched × State :=
  let chain := s.cat.chainTo 8 f
  if (chain.any fun g => seen.exhausted.contains g) ∨ ¬ s.retrievalUnits then (.internal, s)
  else
    let s := (chain.foldl (fun t g => t.needKey (t.cat.record g).domain (t.cat.record g).keyGen) s).pinChain true chain
    let (ctx, rest) := s.chainStart chain
    let good (ds : List Decoded) := match ds.getLast? with
      | some d => if s.blocksMatch f want d.out then some d.out else none
      | none => none
    let plain := s.decodeRun seen ctx rest
    match plain, plain.bind good with
    | some ds, some out =>
      let t := (s.pinChain false chain).useRead seen 0 ds want
      (.plain out, (match ds.getLast? with | some d => t.saveContext d | none => t).reportRebuilt seen ds)
    | _, _ =>
      let (ds, bad) := s.healRun seen f want CoderCtx.reset chain
      let s := (s.pinChain false chain).useHeal seen 0 ds
      match bad, ds.getLast? with
      | none, some d => (.plain d.out, (s.saveContext d).reportRebuilt seen ds)
      | some g, _ => (.lost, (s.reportRebuilt seen ds).reportLost g)
      | none, none => (.lost, s.reportLost f)

/-- The block of a content ID in what fetching its folio came to. -/
def Fetched.block (i : Nat) : Fetched → ReadOutcome
  | .plain out => .ok (slice out (4096 * i) 4096)
  | .lost => .lost
  | .internal => .internal

/-- The block of a content ID of a command that wants `cids`: each distinct folio is brought back once, with every block wanted of it
verified; what the command has fetched by then comes with the answer (R351, R357). -/
def State.fetchWanted (seen : Seen) (cids : List Nat) (fetched : List (Nat × Fetched)) (cid : Nat) (s : State) :
    ReadOutcome × List (Nat × Fetched) × State :=
  match s.cat.firstOf cid with
  | none => (.internal, fetched, (s.useAssist 0 1).metadataFault)
  | some f =>
    let x := s.cat.record f
    if x.isReleased (cid - f) then (.internal, fetched, (s.useAssist 0 1).metadataFault)
    else match fetched.find? fun p => p.1 == f with
      | some p => (p.2.block (cid - f), fetched, s)
      | none =>
        if x.lost then (.lost, fetched, s.useAssist 0 1)
        else
          let (r, t) := s.fetchFolio seen f ((cids.filter fun c => s.cat.firstOf c == some f).map fun c => c - f)
          (r.block (cid - f), (f, r) :: fetched, t)

/-- Fetch the block of one content ID. -/
def State.fetchCid (seen : Seen) (cid : Nat) (s : State) : ReadOutcome × State :=
  let (o, _, t) := s.fetchWanted seen [cid] [] cid
  (o, t)

/-! ### One block -/

/-- What a view's catalogue maps a block to. -/
def State.viewBlock (seen : Seen) (root lba : Nat) (s : State) : ReadOutcome × State :=
  match s.cat.resolve root lba with
  | .unmapped => (.unmapped, s)
  | .zero => (.zero, s)
  | .unreadable => (.unreadable, s)
  | .cid n => s.fetchCid seen n

/-- What the live view maps a block of a namespace to. -/
def State.liveBlock (s : State) (nsid lba : Nat) : Mapped :=
  match s.cat.live nsid with
  | some v => s.cat.resolve v.root lba
  | none => .unmapped

/-- The content ID that a read of a block needs from flash, if it needs one. -/
def State.flashCid (s : State) (nsid lba : Nat) : Option Nat :=
  match s.bufferHit nsid lba, s.liveBlock nsid lba with
  | none, .cid n => some n
  | _, _ => none

/-- A read of the block needs flash and so an accepted owner secret (R353). -/
def State.needsFlash (s : State) (nsid lba : Nat) : Bool := (s.flashCid nsid lba).isSome

/-- A block of a namespace as a host reads it (R347, R348), for a command that wants `cids` from flash. -/
def State.readBlock (seen : Seen) (nsid : Nat) (cids : List Nat) (lba : Nat) (fetched : List (Nat × Fetched)) (s : State) :
    ReadOutcome × List (Nat × Fetched) × State :=
  match s.bufferHit nsid lba with
  | some (base, h) => let (o, t) := s.readBuffered seen base h lba; (o, fetched, t)
  | none => match s.liveBlock nsid lba with
    | .unmapped => (.unmapped, fetched, s)
    | .zero => (.zero, fetched, s)
    | .unreadable => (.unreadable, fetched, s)
    | .cid n => s.fetchWanted seen cids fetched n

/-- Read blocks in order up to the first with no data: the data, and that block with its status. -/
def State.readBlocks (seen : Seen) (nsid : Nat) (cids : List Nat) : Nat → Nat → List (Nat × Fetched) → State → List Byte × Option (Nat × Nat) × State
  | 0, _, _, s => ([], none, s)
  | n + 1, lba, fetched, s =>
    let (o, fetched, t) := s.readBlock seen nsid cids lba fetched
    match o.data with
    | none => ([], some (lba, o.status), t)
    | some d => let (more, bad, u) := t.readBlocks seen nsid cids n (lba + 1) fetched; (d ++ more, bad, u)

/-- The blocks of a read: a WALK per 512 blocks of those the buffer does not serve (R351), then block by block. -/
def State.readRange (seen : Seen) (nsid slba nblk : Nat) (s : State) : List Byte × Option (Nat × Nat) × State :=
  let lbas := (List.range nblk).map fun i => slba + i
  let walked := (lbas.filter fun l => (s.bufferHit nsid l).isNone).length
  (s.useAssist 0 ((walked + 511) / 512)).readBlocks seen nsid (lbas.filterMap fun l => s.flashCid nsid l) nblk slba []

end Sys2Proof.Machine
end

