-- ==== Sys2Proof/Machine/Service.lean ====
section
/-! DEFINITION. The namespace service: ANA states (R373, R374), deferred errors (R381, R382), connections and controllers (R366,
R367, R376, R377), PDU findings (R380) and the front-end ports (R385). -/

namespace Sys2Proof.Machine

/-! ### Settings of R383 -/

/-- A host NQN stands in a list setting: DATA as entries of 256 bytes, zero-padded (log entry 29). -/
def State.nqnListed (s : State) (id : Nat) (nqn : List Byte) : Bool :=
  ! nqn.isEmpty && (pieces 256 (s.settingData id 0)).any fun e => padTo 256 e == padTo 256 nqn

/-- The ANA transition time, in ns. -/
def State.anaTime (s : State) (since : Word64) : Nat := s.settingAt 0x0606 0 10000000000 since

/-! ### ANA (R373) -/

/-- This pair's number in the stack. -/
def State.pairNo (s : State) : Nat := s.reg rStkConfig % 8

/-- Set B is the home set of this head (R446). -/
def State.homeIsB (s : State) : Bool := s.hlt.head
/-- The ANA state of a group of this pair, as the standard codes it: 1 Optimized, 3 Inaccessible, 0Fh Change. -/
def State.anaState (s : State) (b : Bool) : Nat :=
  if s.holdsCustody then
    (if s.holdsSet b then (if s.svc.taking ∧ b ≠ s.homeIsB then 0xF else 1) else 3)
  else if b = s.homeIsB ∧ s.svc.changeSince.isSome then 0xF
  else 3

/-- ANATT after a custody release the group of the head's own set becomes Inaccessible. -/
def execAnaTransitionTimeExpiry (s : State) : Host.Outcome State Fault Refusal :=
  .next (match s.svc.changeSince with
  | some t => if s.anaTime t ≤ s.elapsed.toNat - t.toNat ∧ ¬ s.holdsCustody then { s with svc := { s.svc with changeSince := none } }.anaChange else s
  | none => s)

/-! ### Namespaces -/

/-- Items of records of either head that are durable and not applied (R328). -/
def State.durableItems (s : State) : List (List Byte) :=
  ((s.acc.own.filter CycleRec.confirmed) ++ s.acc.partner).flatMap CycleRec.items

/-- The profile in force: the last PROFILE item that is durable, else the journalled value (R147, R151). -/
def State.profileNow (s : State) (nsid profile : Nat) : Nat :=
  let records := (s.acc.own.filter CycleRec.confirmed) ++ s.acc.partner
  let given := records.flatMap fun r => (r.items.filter fun i => leAt i 0 2 == 0x0309 && leAt i 4 4 == nsid).map fun i => (r.cycle, leAt i 2 1)
  (given.foldl (fun b g => if b.1 ≤ g.1 then g else b) (0, profile)).2

/-- A namespace as hosts see it: none once its DELETE is durable (R372). -/
def State.namespace? (s : State) (nsid : Nat) : Option Namespace :=
  let n := Sparse.get Namespace.none nsid s.cat.namespaces
  if n.size = 0 ∨ s.durableItems.any (fun i => leAt i 0 2 == 0x0209 && leAt i 4 4 == nsid) then none
  else some { n with profile := s.profileNow nsid n.profile }

/-! ### Deferred errors (R381, R382) -/

/-- Put a deferred error on the list and flag its namespace on every controller of this head. -/
def State.addDeferred (d : Deferred) (s : State) : State :=
  let l := s.acc.deferred ++ [d]
  let drop := l.length - 65536
  let cut := (l.drop (drop - 1)).head?.map (·.seq) |>.getD 0
  let f (k : Ctrl) : Ctrl :=
    { k with flagged := if k.flagged.contains d.nsid then k.flagged else k.flagged ++ [d.nsid],
             dropped := if 0 < drop ∧ k.readPos < cut then k.dropped + 1 else k.dropped }
  { s with acc := { s.acc with deferred := l.drop drop, deferredTotal := max d.seq (s.acc.deferredTotal + 1) },
           svc := { s.svc with ctrls := s.svc.ctrls.map fun p => (p.1, f p.2) } }

/-- Record a deferred error of this head and pass it to the partner (R149, R381). -/
def State.recordDeferred (nsid first last no cycle : Nat) (s : State) : State :=
  let d : Deferred := { seq := s.acc.deferredTotal + 1, nsid := nsid, first := first, last := last, no := no, cycle := cycle, head := s.headNo }
  (s.addDeferred d).tellPartner msgDeferred d.bytes

/-- Announce a deferred error to a command: the flag is cleared, and an event is posted once (R382). -/
def State.announce (id nsid : Nat) (s : State) : State :=
  let s := s.modCtrl id fun k => { k with flagged := k.flagged.filter fun n => n != nsid }
  match s.ctrl id with
  | some k =>
    if k.aers.isEmpty ∨ k.announced ∨ k.aerConfig / 2 ^ Config.vendorEventBit % 2 = 0 then s
    else (s.modCtrl id fun k => { k with announced := true }).postEvent id eventDeferred
  | none => s

/-! ### Taking a command off a connection -/

/-- Commands in service on all connections. -/
def State.inflight (s : State) : Nat := (s.svc.conns.map fun p => p.2.cmds.length).foldl (· + ·) 0

/-- A connection delivers a command: it has a controller, has not ended, and the offload has room (R367). -/
def State.delivers (s : State) (c : Nat) : Bool :=
  let x := s.conn c
  x.ready && x.ctrl.isSome && ! x.ended && decide (x.cmds.length < x.depth) && decide (s.inflight < 1048576)

/-- Run a command on the kind of queue it belongs to; on the other kind it is an opcode that the queue does not execute. -/
def State.onQueue (c cid : Nat) (admin : Bool) (body : Nat → State → State) (s : State) : State :=
  if ¬ s.delivers c then s
  else match (s.conn c).ctrl with
    | none => s
    | some id =>
      let s := s.heardPdu c
      if ((s.conn c).qid == 0) ≠ admin then s.respond c cid 0 nsInvalidOpcode
      else match s.ctrl id with
        | none => s
        | some k => if k.ready then body id s else s.respond c cid 0 nsSequence

/-- An accepted handover has come to its cycle: the head appends nothing more (R379, R461). -/
def State.handing (s : State) : Bool := s.twn.phase == .handAccepted && decide (s.twn.cycleH.toNat ≤ s.acc.openCycle)

/-- The checks of an I/O command to a namespace, in this order (log entry 30): the namespace, its group, a pending deferred error. -/
def State.ioRefusal (s : State) (id nsid : Nat) (reads : Bool) : Option Nat :=
  match s.namespace? nsid, s.ctrl id with
  | none, _ => some nsInvalidNs
  | some n, k =>
    let a := s.anaState n.groupB
    let nqn := (k.map Ctrl.nqn).getD []
    if a = 0xF ∨ s.handing then some nsTransition
    else if a ≠ 1 ∧ ¬ (reads ∧ s.hlt.mode = .salvage ∧ s.nqnListed 0x0607 nqn) then some nsInaccessible
    else none

/-- Run an I/O command that passes the checks. -/
def State.onNamespace (c cid nsid : Nat) (reads : Bool) (body : State → State) (s : State) : State :=
  s.onQueue c cid false (fun id s =>
    match s.ioRefusal id nsid reads with
    | some st => s.respond c cid 0 st
    | none =>
      if ((s.ctrl id).map fun k => k.flagged.contains nsid) = some true then (s.announce id nsid).respond c cid 0 nsDeferred
      else body s)

def execInvalidCommandOpcode (c cid : Nat) (s : State) : Host.Outcome State Fault Refusal :=
  .next (if s.delivers c then (s.heardPdu c).respond c cid 0 nsInvalidOpcode else s)

/-! ### PDU findings (R380, R384) -/

/-- Capture a PDU error, or set OVERFLOW while one is held; VALID raises vector 6 (R384, R485). -/
def State.nvtError (st c : Nat) (s : State) : State :=
  let s := if st = 2 then s.bump rNvtLenMismatch 1 else if st = 0x100 ∨ st = 0x101 then s.bump rNvtDigestErr 1 else s
  if s.regBit rNvtErrStatus 0 then s.setRegBit rNvtErrStatus 1
  else ((s.setReg rNvtErrStatus (1 + s.reg rNvtErrStatus / 2 % 2 * 2 + st * 2 ^ 16)).setReg rNvtErrConn c).raiseVector 6

/-- C2HTermReq with a fatal error status, and the connection closes. -/
def State.terminate (c fes : Nat) (s : State) : State := (s.sendPdu c 3 (leBytes 2 fes ++ zeros 14) []).closeConn c

def execInvalidPduType (c : Nat) (s : State) : Host.Outcome State Fault Refusal :=
  .next (if s.svc.conns.any (fun p => p.1 == c) ∧ ¬ (s.conn c).ended then ((s.heardPdu c).nvtError 0x102 c).terminate c 2 else s)

/-! ### Connections -/

/-- A front-end port takes connections: its link is up, it is not fenced and it has an address (R383). -/
def State.portOpen (s : State) (p : Nat) : Bool :=
  decide (p < s.ethPorts) && s.regBit (rEthPort p) 0 && ! s.regBit (rEthPortFence p) 0 && ! (s.settingData 0x0600 p).isEmpty

/-- ICReq on a connection of a port; `unsupported` when it asks for what R366 excludes. -/
def execIcreq (c port maxR2t : Nat) (hdgst ddgst unsupported : Bool) (s : State) : Host.Outcome State Fault Refusal :=
  .next (if s.svc.conns.any (fun p => p.1 == c) then
      (if (s.conn c).ended then s else ((s.heardPdu c).nvtError 0x102 c).terminate c 2)
    else if ¬ (c < 65536 ∧ s.portOpen port) then s
    else if unsupported then ((s.countRx port).setConn c { Conn.none with port := port }).terminate c 6
    else
      let ok := s.setting 0x0605 0 1 == 1
      let x : Conn := { Conn.none with port := port, ready := true, hdgst := hdgst && ok, ddgst := ddgst && ok, maxR2t := maxR2t, depth := 1 }
      ((s.countRx port).setConn c x).sendPdu c 1 (zeros 3 ++ leBytes 1 ((if x.hdgst then 1 else 0) + if x.ddgst then 2 else 0) ++ leBytes 4 131072
        ++ zeros 112) [])

def execH2cTermReq (c : Nat) (s : State) : Host.Outcome State Fault Refusal :=
  .next (if s.svc.conns.any (fun p => p.1 == c) then (s.heardPdu c).closeConn c else s)

def execConnectionEnd (c : Nat) (s : State) : Host.Outcome State Fault Refusal :=
  .next (if s.svc.conns.any (fun p => p.1 == c) ∧ ¬ (s.conn c).ended then s.endConn c else s)

/-! ### Controllers (R367, R377) -/

/-- The controller ID of the n-th controller of this head. -/
def State.ctrlId (s : State) (n : Nat) : Nat := 0x0F00 * (2 * s.pairNo + s.headNo) + n

/-- The lowest free controller number; an ID whose teardown is not complete is not free (R376). -/
def State.freeCtrl (s : State) : Option Nat :=
  ((List.range 3840).drop 1).find? fun n => (s.ctrl (s.ctrlId n)).isNone && ! s.svc.conns.any fun p => p.2.ctrl == some (s.ctrlId n)

/-- A new controller: its read position is at the oldest deferred error, with no flag set (R382). -/
def State.newCtrl (nqn : List Byte) (kato : Nat) (s : State) : Ctrl :=
  { nqn := nqn, cc := 0, ready := false, shst := 0, aers := [], events := [], queues := 0xFFFEFFFE, aerConfig := 0, kato := kato,
    aliveAt := s.elapsed, flagged := [], readPos := ((s.acc.deferred.head?).map fun d => d.seq - 1).getD s.acc.deferredTotal, dropped := 0,
    announced := false }

/-- Connect on the admin queue. -/
def State.connectAdmin (c cid sqsize cntlid kato : Nat) (nqn : List Byte) (s : State) : State :=
  match s.freeCtrl with
  | some n =>
    if 31 < sqsize ∨ cntlid ≠ 0xFFFF then s.respond c cid 0 nsConnectInvalid
    else
      let id := s.ctrlId n
      let s := { s with svc := { s.svc with ctrls := s.svc.ctrls ++ [(id, s.newCtrl nqn kato)] } }
      (s.modConn c fun x => { x with ctrl := some id, qid := 0, depth := 32 }).respond c cid id nsSuccess
  | none => s.respond c cid 0 nsConnectInvalid

/-- Connect on an I/O queue. -/
def State.connectIo (c cid qid sqsize cntlid : Nat) (nqn : List Byte) (s : State) : State :=
  match s.ctrl cntlid with
  | some k =>
    if k.nqn ≠ nqn ∨ ¬ k.ready ∨ 65535 < qid ∨ 4095 < sqsize ∨ s.svc.conns.any (fun p => p.2.ctrl == some cntlid && p.2.qid == qid) then
      s.respond c cid 0 nsConnectInvalid
    else (s.modConn c fun x => { x with ctrl := some cntlid, qid := qid, depth := sqsize + 1 }).respond c cid cntlid nsSuccess
  | none => s.respond c cid 0 nsConnectInvalid

def execNvmeConnect (c cid qid sqsize cntlid kato : Nat) (hostNqn subNqn : List Byte) (s : State) : Host.Outcome State Fault Refusal :=
  .next (let x := s.conn c
    let s := s.heardPdu c
    if ¬ x.ready ∨ x.ended then s
    else if x.ctrl.isSome then s.respond c cid 0 nsSequence
    else if subNqn ≠ s.settingData 0x0603 0 ∨ subNqn.isEmpty then s.respond c cid 0 nsConnectInvalid
    else if qid = 0 then s.connectAdmin c cid sqsize cntlid kato hostNqn
    else s.connectIo c cid qid sqsize cntlid hostNqn)

/-- The queues of a controller end, admin queue last; with `close` the device closes their connections. -/
def State.endCtrl (id : Nat) (close : Bool) (s : State) : State :=
  let mine := s.svc.conns.filterMap fun p => if p.2.ctrl = some id ∧ ¬ p.2.ended then some (p.2.qid, p.1) else none
  let order := (mine.filter fun p => p.1 != 0) ++ mine.filter fun p => p.1 == 0
  order.foldl (fun t p => if close then t.closeConn p.2 else t.endConn p.2) s

def execNvmeDisconnect (c cid : Nat) (s : State) : Host.Outcome State Fault Refusal :=
  .next (if s.delivers c then ((s.heardPdu c).respond c cid 0 nsSuccess).endConn c else s)

/-- A controller property: CAP, VS, CC, CSTS. -/
def State.property (s : State) (id off : Nat) : Option Nat :=
  match s.ctrl id with
  | none => none
  | some k =>
    match off with
    | 0x0 => some (4095 + 2 ^ 16 + Config.capTimeout % 256 * 2 ^ 24 + 2 ^ 37)
    | 0x8 => some 0x00020000
    | 0x14 => some k.cc
    | 0x1C => some ((if k.ready then 1 else 0) + k.shst * 4)
    | _ => none

def execPropertyGet (c cid off : Nat) (s : State) : Host.Outcome State Fault Refusal :=
  .next (if ¬ s.delivers c then s
    else match (s.conn c).ctrl.bind fun id => s.property id off with
      | some v => (s.heardPdu c).respond c cid v nsSuccess
      | none => (s.heardPdu c).respond c cid 0 nsInvalidField)

/-- A write of CC: EN set brings the controller up; EN cleared, or a shutdown, ends its queues (R377). -/
def State.setCc (id c cid v : Nat) (s : State) : State :=
  match s.ctrl id with
  | none => s
  | some k =>
    if k.cc % 2 = 1 ∧ v % 2 = 0 then s.endCtrl id false
    else if v / 2 ^ 14 % 4 ≠ 0 then (s.modCtrl id fun k => { k with cc := v, shst := 2 }).endCtrl id false
    else (s.modCtrl id fun k => { k with cc := v, ready := v % 2 == 1 }).respond c cid 0 nsSuccess

def execPropertySet (c cid off v : Nat) (s : State) : Host.Outcome State Fault Refusal :=
  .next (if ¬ s.delivers c then s
    else match (s.conn c).ctrl, off with
      | some id, 0x14 => (s.heardPdu c).setCc id c cid v
      | _, _ => (s.heardPdu c).respond c cid 0 nsInvalidField)

def execKeepAlive (c cid : Nat) (s : State) : Host.Outcome State Fault Refusal :=
  .next (s.onQueue c cid true (fun id s => (s.modCtrl id fun k => { k with aliveAt := s.elapsed }).respond c cid 0 nsSuccess))

/-- KATO, in ms, in steps of 100 ms (R369). -/
def Ctrl.keepAliveTime (k : Ctrl) : Nat := (k.kato + 99) / 100 * 100000000

def execKeepAliveExpiry (id : Nat) (s : State) : Host.Outcome State Fault Refusal :=
  .next (match s.ctrl id with
    | some k => if k.kato ≠ 0 ∧ k.keepAliveTime ≤ s.elapsed.toNat - k.aliveAt.toNat then s.endCtrl id true else s
    | none => s)

def execNvmeAbort (c cid : Nat) (s : State) : Host.Outcome State Fault Refusal :=
  .next (s.onQueue c cid true (fun _ s => s.respond c cid 1 nsSuccess))

/-! ### Front-end ports (R383, R385) -/

/-- Fence a port: its connections end (R376). -/
def State.ethFence (src p : Nat) (s : State) : State := ((s.setRegBit (rEthPortFence p) 0).endConns fun q => q == p).afterFence src

def execEthPortFence (src p : Nat) (s : State) : Host.Outcome State Fault Refusal :=
  .next (if (src = srcGovernor ∨ src = srcHost) ∧ p < s.ethPorts then s.ethFence src p else s)

/-- A front-end link comes up, with the speed of the mode and the MTU now set, or goes down. SAFE holds it down (R500). -/
def execEthLinkChange (p : Nat) (up : Bool) (s : State) : Host.Outcome State Fault Refusal :=
  .next (if s.ethPorts ≤ p then s
    else if up then
      (if s.hlt.mode = .safe ∨ ¬ s.pwr.clkEth ∨ s.regBit (rEthPortFence p) 0 then s
       else { s.setReg (rEthPort p) (1 + 4 * (s.reg rEthMode % 4 + 1)) with
                svc := { s.svc with mtus := Sparse.set 0 p (s.setting 0x0601 0 9000) s.svc.mtus } })
    else { s.setReg (rEthPort p) 0 with svc := { s.svc with mtus := Sparse.set 0 p 0 s.svc.mtus } })

end Sys2Proof.Machine
end

