-- ==== Sys2Proof/Machine/Admin.lean ====
section
/-! DEFINITION. Admin commands: Identify (R369), log pages (R361, R374, R381), features (R368), events (R382) and Namespace Management
(R371, R372). -/

namespace Sys2Proof.Machine

/-- Send data of a command to the host in increasing offset; the model's record holds one C2HData PDU for it (log entry 31). -/
def State.sendData' (c cid : Nat) (bs : List Byte) (s : State) : State :=
  if bs.isEmpty then s else s.sendPdu c 7 (leBytes 2 cid ++ zeros 2 ++ leBytes 4 0 ++ leBytes 4 bs.length ++ zeros 4) bs

/-- Data, then success. -/
def State.replyData (c cid : Nat) (bs : List Byte) (s : State) : State := (s.sendData' c cid bs).respond c cid 0 nsSuccess

/-! ### Identify (R369) -/

/-- The image slot that runs. -/
def State.runningSlot (s : State) : Slot := if s.hlt.slot = 2 then s.kpr.slotB else s.kpr.slotA

/-- FR: REVISION of the running image. -/
def State.revisionText (s : State) : List Byte := (List.range 8).map fun i => Sparse.get 0xFF (24 + i) s.runningSlot.image

/-- Write fields into a page. -/
def fields (l : List (Nat × List Byte)) (page : List Byte) : List Byte := l.foldl (fun b p => patch b p.1 p.2) page

/-- Identify Controller. -/
def State.identifyCtrl (s : State) (id : Nat) : List Byte :=
  fields [
    (4, (List.range 60).map fun i => Config.identByte (4 + i)), (64, s.revisionText),
    (76, leBytes 1 0x0B), (77, leBytes 1 0x0A), (78, leBytes 2 id), (80, leBytes 4 0x00020000), (92, leBytes 4 0x900), (111, leBytes 1 1),
    (256, leBytes 2 0x0008), (258, leBytes 1 0xFF), (259, leBytes 1 0x0F), (260, leBytes 1 0x03), (320, leBytes 2 1),
    (342, leBytes 1 (s.anaTime s.elapsed / 1000000000)), (343, leBytes 1 0xD5), (344, leBytes 4 16), (348, leBytes 4 16),
    (512, leBytes 1 0x66), (513, leBytes 1 0x44), (514, leBytes 2 4096), (516, leBytes 4 131072), (520, leBytes 2 0x000C),
    (768, padTo 256 (s.settingData 0x0603 0)), (1792, leBytes 4 516), (1796, leBytes 4 1), (1803, leBytes 1 1)] (zeros 4096)

/-- The ANA group of a set of this pair (R373). -/
def State.anaGroup (s : State) (b : Bool) : Nat := 2 * s.pairNo + if b then 2 else 1

/-- Blocks mapped to a content ID other than 0. -/
def State.usedBlocks (s : State) (nsid : Nat) : Nat :=
  match s.cat.live nsid with
  | some v => ((s.cat.nodesUnder 8 v.root).map fun n =>
      ((s.cat.node n).groups.flatMap Group.blocks).countP fun m => m != .unmapped && m != .unreadable).foldl (· + ·) 0
  | none => 0

/-- Identify Namespace. -/
def State.identifyNs (s : State) (nsid : Nat) (n : Namespace) : List Byte :=
  fields [(0, leBytes 8 n.size), (8, leBytes 8 n.size), (16, leBytes 8 (s.usedBlocks nsid)), (24, leBytes 1 1), (30, leBytes 1 1),
    (33, leBytes 1 9), (92, leBytes 4 (s.anaGroup n.groupB)), (128, leBytes 4 0x000C0000)] (zeros 4096)

/-- The namespaces there are, in increasing NSID. -/
def State.nsids (s : State) : List Nat := (s.cat.namespaces.map (·.1)).filter fun n => (s.namespace? n).isSome

/-- Identify data of a CNS; an error status where there is none. -/
def State.identify (s : State) (id cns nsid : Nat) : Except Nat (List Byte) :=
  match cns with
  | 0x00 => match s.namespace? nsid with
    | some n => .ok (s.identifyNs nsid n)
    | none => .error nsInvalidNs
  | 0x01 => .ok (s.identifyCtrl id)
  | 0x02 => .ok (padTo 4096 (((s.nsids.filter fun n => decide (nsid < n)).take 1024).flatMap (leBytes 4)))
  | 0x03 => match s.namespace? nsid with
    | some _ => .ok (padTo 4096 (leBytes 1 2 ++ leBytes 1 16 ++ zeros 2 ++ (List.range 16).map (Config.nguidByte nsid)))
    | none => .error nsInvalidNs
  | 0x05 => match s.namespace? nsid with
    | some _ => .ok (zeros 4096)
    | none => .error nsInvalidNs
  | 0x06 => .ok (zeros 4096)
  | 0x0C => .ok ((List.range 4096).map fun i => Config.freeByte (s.free + i))
  | _ => .error nsInvalidField

def execNvmeIdentify (c cid cns nsid : Nat) (s : State) : Host.Outcome State Fault Refusal :=
  .next (s.onQueue c cid true (fun id s => match s.identify id cns nsid with
    | .ok b => (s.replyData c cid b).takeFrees 4096
    | .error st => s.respond c cid 0 st))

/-! ### Log pages -/

/-- One entry of the error information log. -/
def errorEntry (n : Nat) (e : Nat × Nat × Nat × Nat × Nat × Nat) : List Byte :=
  let (_, c, cid, st, lba, nsid) := e
  leBytes 8 n ++ leBytes 2 c ++ leBytes 2 cid ++ leBytes 2 (2 * st) ++ leBytes 2 0xFFFF ++ leBytes 8 lba ++ leBytes 4 nsid ++ zeros 36

/-- The error information of a controller. -/
def State.errorLog (s : State) (id : Nat) : List Byte :=
  let mine := s.svc.errors.filter fun e => e.1 == id
  padTo 64 ((mine.zipIdx.take 1).flatMap fun p => errorEntry (mine.length - p.2) p.1)

/-- The ANA page: the 16 groups of the stack, those of other pairs Inaccessible (R373, R374). -/
def State.anaLog (s : State) : List Byte :=
  let groups := (List.range 16).map fun i =>
    let g := i + 1
    let own := g == s.anaGroup false || g == s.anaGroup true
    let b := g == s.anaGroup true
    let ns := if own then s.nsids.filter (fun n => ((s.namespace? n).map Namespace.groupB) == some b) else []
    leBytes 4 g ++ leBytes 4 ns.length ++ leBytes 8 s.svc.anaChanges ++ leBytes 1 (if own then s.anaState b else 3) ++ zeros 15
      ++ ns.flatMap (leBytes 4)
  leBytes 8 s.svc.anaChanges ++ leBytes 2 16 ++ zeros 6 ++ groups.flatten

/-- The deferred errors a controller has not read, at most 63. -/
def State.unread (s : State) (k : Ctrl) : List Deferred := (s.acc.deferred.filter fun d => decide (k.readPos < d.seq)).take 63

/-- Log page C4h (R381). -/
def State.deferredLog (s : State) (k : Ctrl) : List Byte :=
  let l := s.unread k
  padTo 4096 (leBytes 8 s.acc.deferredTotal ++ leBytes 2 l.length ++ zeros 2 ++ leBytes 4 k.dropped ++ zeros 48 ++ l.flatMap Deferred.bytes)

/-- A read of page C4h with RAE = 0 moves the read position. -/
def Ctrl.haveRead (l : List Deferred) (k : Ctrl) : Ctrl :=
  { k with readPos := ((l.getLast?).map Deferred.seq).getD k.readPos, dropped := 0, announced := false }

/-- The page of a log identifier; SMART data are not given by the spec (log entry 28). -/
def State.logPage (s : State) (id lid : Nat) : Option (List Byte) :=
  match lid with
  | 0x01 => some (s.errorLog id)
  | 0x02 => some ((List.range 512).map fun i => Config.freeByte (s.free + i))
  | 0x03 => some (padTo 512 (leBytes 1 1 ++ zeros 7 ++ s.revisionText))
  | 0x0C => some s.anaLog
  | 0xC4 => (s.ctrl id).map s.deferredLog
  | _ => none

def execGetLogPage (c cid lid off len : Nat) (rae : Bool) (s : State) : Host.Outcome State Fault Refusal :=
  .next (s.onQueue c cid true (fun id s => match s.logPage id lid, s.ctrl id with
    | some b, some k =>
      if lid = 0xC4 ∧ off ≠ 0 ∨ b.length < off then s.respond c cid 0 nsInvalidField
      else
        let t := s.replyData c cid (slice b off len)
        (if lid = 0xC4 ∧ ¬ rae then t.modCtrl id (Ctrl.haveRead (s.unread k)) else t).takeFrees 512
    | _, _ => s.respond c cid 0 nsInvalidField))

/-! ### Features and events -/

def execSetFeatures (c cid fid v : Nat) (s : State) : Host.Outcome State Fault Refusal :=
  .next (s.onQueue c cid true (fun id s => match fid with
    | 0x07 =>
      if v % 65536 = 65535 ∨ v / 65536 % 65536 = 65535 then s.respond c cid 0 nsInvalidField
      else (s.modCtrl id fun k => { k with queues := v % 2 ^ 32 }).respond c cid (v % 2 ^ 32) nsSuccess
    | 0x0B => (s.modCtrl id fun k => { k with aerConfig := v % 2 ^ 32 }).respond c cid 0 nsSuccess
    | 0x0F => (s.modCtrl id fun k => { k with kato := v % 2 ^ 32, aliveAt := s.elapsed }).respond c cid 0 nsSuccess
    | _ => s.respond c cid 0 nsInvalidField))

def execGetFeatures (c cid fid : Nat) (s : State) : Host.Outcome State Fault Refusal :=
  .next (s.onQueue c cid true (fun id s => match s.ctrl id, fid with
    | some k, 0x07 => s.respond c cid k.queues nsSuccess
    | some k, 0x0B => s.respond c cid k.aerConfig nsSuccess
    | some k, 0x0F => s.respond c cid k.kato nsSuccess
    | _, _ => s.respond c cid 0 nsInvalidField))

/-- Up to 16 requests wait; one more draws the standard's limit status. -/
def execAsynchronousEventRequest (c cid : Nat) (s : State) : Host.Outcome State Fault Refusal :=
  .next (s.onQueue c cid true (fun id s => match s.ctrl id with
    | none => s
    | some k =>
      match k.events with
      | e :: t => (s.modCtrl id fun k => { k with events := t }).respond c cid e nsSuccess
      | [] => if 16 ≤ k.aers.length then s.respond c cid 0 (nvmeStatus 1 0x05 0)
              else s.modCtrl id fun k => { k with aers := k.aers ++ [cid] }))

/-! ### Namespace Management (R371, R372) -/

/-- The cycle whose record will carry the last item queued: each record takes up to 32,768 (R125). -/
def State.itemCycle (s : State) : Nat := s.acc.openCycle + (s.deltas.length - 1) / 32768

/-- Queue items, and answer once the cycle that carries them is durable. -/
def State.queueAnswered (items : List (List Byte)) (a : Answer) (s : State) : State :=
  let t := s.queueItems items
  { t with acc := { t.acc with answers := t.acc.answers ++ [(t.itemCycle, a)] } }

/-- An NSID is taken: a namespace has it, or a CREATE item that is not applied names it. -/
def State.nsidTaken (s : State) (nsid : Nat) : Bool :=
  (s.cat.namespaces.any fun p => p.1 == nsid)
    || (s.deltas ++ (s.acc.own ++ s.acc.partner).flatMap CycleRec.items).any fun i => leAt i 0 2 == 0x0109 && leAt i 4 4 == nsid

/-- The lowest free NSID of the pair. -/
def State.freeNsid (s : State) : Option Nat := ((List.range 16384).map fun i => s.pairNo * 16384 + 1 + i).find? fun n => ! s.nsidTaken n

/-- The host of a controller may manage namespaces. -/
def State.mayManage (s : State) (id : Nat) : Bool := s.nqnListed 0x0604 (((s.ctrl id).map Ctrl.nqn).getD [])

def execNamespaceCreate (c cid nsze ncap flbas group profile domain : Nat) (s : State) : Host.Outcome State Fault Refusal :=
  .next (s.onQueue c cid true (fun id s =>
    if ¬ s.mayManage id then s.respond c cid 0 nsDenied
    else if nsze = 0 ∨ 2 ^ 44 < nsze ∨ ncap ≠ nsze ∨ flbas ≠ 0 ∨ (group ≠ s.anaGroup false ∧ group ≠ s.anaGroup true) ∨ 2 < profile ∨ 4095 < domain then
      s.respond c cid 0 nsInvalidField
    else match s.freeNsid with
      | none => s.respond c cid 0 nsNoNsid
      | some n =>
        let b := group == s.anaGroup true
        let t := { s with svc := { s.svc with groups := (s.svc.groups.filter fun x => x != n) ++ if b then [n] else [] } }
        (t.tellPartner msgGroup (leBytes 4 n ++ leBytes 1 (if b then 1 else 0))).queueAnswered [itemNamespace 1 profile n domain nsze]
          (.capsule c cid n)))

def execNamespaceDelete (c cid nsid : Nat) (s : State) : Host.Outcome State Fault Refusal :=
  .next (s.onQueue c cid true (fun id s =>
    if ¬ s.mayManage id then s.respond c cid 0 nsDenied
    else if nsid = 0xFFFFFFFF then s.respond c cid 0 nsInvalidField
    else if (s.namespace? nsid).isNone then s.respond c cid 0 nsInvalidNs
    else s.queueAnswered [itemNamespace 2 0 nsid 0 0] (.capsule c cid 0)))

end Sys2Proof.Machine
end

