-- ==== Sys2Proof/Machine/Operands.lean ====
section
/-! DEFINITION. Operand forms of the stream instructions: immediates (R67), vector elements and their governing predicate
(R34, R76), and 16-byte lanes (R76, R80). -/

namespace Sys2Proof.Machine

/-- A sign-extended 16-bit immediate (R67). -/
def sextImm (i : BitVec 16) : Word64 := i.signExtend 64
/-- A zero-extended 16-bit immediate. -/
def zextImm (i : BitVec 16) : Word64 := i.zeroExtend 64

/-- The element size in bytes that an esz field gives (R65). -/
def elemBytes (esz : BitVec 2) : Nat := 2 ^ esz.toNat
/-- The elements of `eb` bytes in a vector register (R34). -/
def elemCount (eb : Nat) : Nat := 64 / eb

/-- Element `e` of `eb` bytes of a vector register. -/
def elem (eb : Nat) (v : Vec) (e : Nat) : Nat := v.toNat / 2 ^ (8 * eb * e) % 2 ^ (8 * eb)

/-- The number whose elements of `eb` bytes, from element `e` on, are given by `f`; `n` remain. -/
def elemsFrom (eb : Nat) (f : Nat → Nat) : Nat → Nat → Nat
  | 0, _ => 0
  | n + 1, e => f e % 2 ^ (8 * eb) + 2 ^ (8 * eb) * elemsFrom eb f n (e + 1)

/-- The vector register whose elements are given by `f`. -/
def vecOf (eb : Nat) (f : Nat → Nat) : Vec := BitVec.ofNat 512 (elemsFrom eb f (elemCount eb) 0)

/-- Element `e` is active: the predicate bit of its lowest byte lane is 1 (R34). -/
def elemActive (eb : Nat) (p : Word64) (e : Nat) : Bool := p.getLsbD (eb * e)

/-- The destination whose active elements are given by `f` and whose inactive ones keep their values (R34). -/
def vecMerge (eb : Nat) (p : Word64) (old : Vec) (f : Nat → Nat) : Vec :=
  vecOf eb fun e => if elemActive eb p e then f e else elem eb old e

/-- The two's complement value of an element. -/
def elemSigned (eb : Nat) (x : Nat) : Int := signedOf (8 * eb) x

/-- A 64-bit address formed from a base and an immediate byte offset (R70). -/
def effAddr (base : Word64) (imm : BitVec 16) : Nat := (base + sextImm imm).toNat

end Sys2Proof.Machine
end

