-- ==== Sys2Proof/Machine/Flags.lean ====
section
/-! DEFINITION. The machine has no arithmetic flags; comparisons write predicate registers (R77) and the set-less-than
instructions a general register (R68, R69). -/

namespace Sys2Proof.Machine

/-- 1 for true, 0 for false. -/
def flagWord (b : Bool) : Word64 := if b then 1 else 0

/-- The predicate a vector compare writes: each byte lane of an active element takes the element's result, the bits of
inactive elements keep their values (R77). -/
def cmpPredicate (eb : Nat) (p old : Word64) (f : Nat → Bool) : Word64 :=
  BitVec.ofNat 64 ((List.range 64).foldl (fun acc n =>
    let e := n / eb
    let bit := if elemActive eb p e then f e else old.getLsbD n
    acc + (if bit then 2 ^ n else 0)) 0)

/-- The number of 1 bits of a predicate (R79). -/
def predCount (p : Word64) : Word64 := BitVec.ofNat 64 (countOnes 64 p.toNat)

end Sys2Proof.Machine
end

