-- ==== Sys2Proof/Machine/Alu.lean ====
section
/-! DEFINITION. Integer and immediate instructions (R68, R69). -/

namespace Sys2Proof.Machine

/-- An instruction with two general sources (R68). -/
def State.alu2 (k : Nat) (d a b : BitVec 5) (f : Word64 → Word64 → Word64) (s : State) : State :=
  s.instr k .base [a, b] [] fun s => s.retireG k d (f ((s.core k).getG a) ((s.core k).getG b))

/-- An instruction with one general source (R68, R69). -/
def State.alu1 (k : Nat) (d a : BitVec 5) (f : Word64 → Word64) (s : State) : State :=
  s.instr k .base [a] [] fun s => s.retireG k d (f ((s.core k).getG a))

/-- A 64-bit word with its 8 bytes in reverse order (R68). -/
def bswap64 (x : Word64) : Word64 := BitVec.ofNat 64 (ofLe (leBytes 8 x.toNat).reverse)

def execAdd (k : Nat) (d a b : BitVec 5) (s : State) : Host.Outcome State Fault Refusal := .next (s.alu2 k d a b (· + ·))
def execSub (k : Nat) (d a b : BitVec 5) (s : State) : Host.Outcome State Fault Refusal := .next (s.alu2 k d a b (· - ·))
def execAnd (k : Nat) (d a b : BitVec 5) (s : State) : Host.Outcome State Fault Refusal := .next (s.alu2 k d a b (· &&& ·))
def execOr (k : Nat) (d a b : BitVec 5) (s : State) : Host.Outcome State Fault Refusal := .next (s.alu2 k d a b (· ||| ·))
def execXor (k : Nat) (d a b : BitVec 5) (s : State) : Host.Outcome State Fault Refusal := .next (s.alu2 k d a b (· ^^^ ·))
def execAndn (k : Nat) (d a b : BitVec 5) (s : State) : Host.Outcome State Fault Refusal :=
  .next (s.alu2 k d a b fun x y => x &&& ~~~ y)
def execSll (k : Nat) (d a b : BitVec 5) (s : State) : Host.Outcome State Fault Refusal :=
  .next (s.alu2 k d a b fun x y => x <<< (y.toNat % 64))
def execSrl (k : Nat) (d a b : BitVec 5) (s : State) : Host.Outcome State Fault Refusal :=
  .next (s.alu2 k d a b fun x y => x >>> (y.toNat % 64))
def execSra (k : Nat) (d a b : BitVec 5) (s : State) : Host.Outcome State Fault Refusal :=
  .next (s.alu2 k d a b fun x y => x.sshiftRight (y.toNat % 64))
def execRol (k : Nat) (d a b : BitVec 5) (s : State) : Host.Outcome State Fault Refusal :=
  .next (s.alu2 k d a b fun x y => x.rotateLeft (y.toNat % 64))
def execSlt (k : Nat) (d a b : BitVec 5) (s : State) : Host.Outcome State Fault Refusal :=
  .next (s.alu2 k d a b fun x y => flagWord (x.slt y))
def execSltu (k : Nat) (d a b : BitVec 5) (s : State) : Host.Outcome State Fault Refusal :=
  .next (s.alu2 k d a b fun x y => flagWord (x.ult y))
def execMul (k : Nat) (d a b : BitVec 5) (s : State) : Host.Outcome State Fault Refusal := .next (s.alu2 k d a b (· * ·))
def execMulhu (k : Nat) (d a b : BitVec 5) (s : State) : Host.Outcome State Fault Refusal :=
  .next (s.alu2 k d a b fun x y => BitVec.ofNat 64 (x.toNat * y.toNat / 2 ^ 64))
def execMulh (k : Nat) (d a b : BitVec 5) (s : State) : Host.Outcome State Fault Refusal :=
  .next (s.alu2 k d a b fun x y => BitVec.ofInt 64 (x.toInt * y.toInt / (2 ^ 64 : Nat)))
def execDivu (k : Nat) (d a b : BitVec 5) (s : State) : Host.Outcome State Fault Refusal :=
  .next (s.alu2 k d a b fun x y => if y = 0 then 0xFFFFFFFFFFFFFFFF else x / y)
def execRemu (k : Nat) (d a b : BitVec 5) (s : State) : Host.Outcome State Fault Refusal :=
  .next (s.alu2 k d a b fun x y => if y = 0 then x else x % y)
def execMinu (k : Nat) (d a b : BitVec 5) (s : State) : Host.Outcome State Fault Refusal :=
  .next (s.alu2 k d a b fun x y => if x.ult y then x else y)
def execMaxu (k : Nat) (d a b : BitVec 5) (s : State) : Host.Outcome State Fault Refusal :=
  .next (s.alu2 k d a b fun x y => if x.ult y then y else x)
def execClz (k : Nat) (d a : BitVec 5) (s : State) : Host.Outcome State Fault Refusal :=
  .next (s.alu1 k d a fun x => BitVec.ofNat 64 (leadingZeros 64 x.toNat))
def execCtz (k : Nat) (d a : BitVec 5) (s : State) : Host.Outcome State Fault Refusal :=
  .next (s.alu1 k d a fun x => BitVec.ofNat 64 (trailingZeros 64 x.toNat))
def execPopc (k : Nat) (d a : BitVec 5) (s : State) : Host.Outcome State Fault Refusal :=
  .next (s.alu1 k d a fun x => BitVec.ofNat 64 (countOnes 64 x.toNat))
def execBswap (k : Nat) (d a : BitVec 5) (s : State) : Host.Outcome State Fault Refusal := .next (s.alu1 k d a bswap64)

def execAddk (k : Nat) (d a : BitVec 5) (imm : BitVec 16) (s : State) : Host.Outcome State Fault Refusal :=
  .next (s.alu1 k d a fun x => x + sextImm imm)
def execAndk (k : Nat) (d a : BitVec 5) (imm : BitVec 16) (s : State) : Host.Outcome State Fault Refusal :=
  .next (s.alu1 k d a fun x => x &&& zextImm imm)
def execOrk (k : Nat) (d a : BitVec 5) (imm : BitVec 16) (s : State) : Host.Outcome State Fault Refusal :=
  .next (s.alu1 k d a fun x => x ||| zextImm imm)
def execXork (k : Nat) (d a : BitVec 5) (imm : BitVec 16) (s : State) : Host.Outcome State Fault Refusal :=
  .next (s.alu1 k d a fun x => x ^^^ zextImm imm)
def execLtk (k : Nat) (d a : BitVec 5) (imm : BitVec 16) (s : State) : Host.Outcome State Fault Refusal :=
  .next (s.alu1 k d a fun x => flagWord (x.slt (sextImm imm)))
def execCshl (k : Nat) (d a : BitVec 5) (imm : BitVec 16) (s : State) : Host.Outcome State Fault Refusal :=
  .next (s.alu1 k d a fun x => (x <<< 16) ||| zextImm imm)
def execCset (k : Nat) (d : BitVec 5) (imm : BitVec 16) (s : State) : Host.Outcome State Fault Refusal :=
  .next (s.instr k .base [] [] fun s => s.retireG k d (zextImm imm))
def execShlk (k : Nat) (d a : BitVec 5) (n : BitVec 6) (s : State) : Host.Outcome State Fault Refusal :=
  .next (s.alu1 k d a fun x => x <<< n.toNat)
def execShrk (k : Nat) (d a : BitVec 5) (n : BitVec 6) (s : State) : Host.Outcome State Fault Refusal :=
  .next (s.alu1 k d a fun x => x >>> n.toNat)
def execSark (k : Nat) (d a : BitVec 5) (n : BitVec 6) (s : State) : Host.Outcome State Fault Refusal :=
  .next (s.alu1 k d a fun x => x.sshiftRight n.toNat)
def execRolk (k : Nat) (d a : BitVec 5) (n : BitVec 6) (s : State) : Host.Outcome State Fault Refusal :=
  .next (s.alu1 k d a fun x => x.rotateLeft n.toNat)

end Sys2Proof.Machine
end

