-- ==== Sys2Proof/Machine/Atp.lean ====
section
/-! DEFINITION. The Avenfy transport: packets sent and received (R414 to R424), region checks (R426), reliability (R431 to R434), context
loads (R435, R436), work requests and their records (R437, R438). -/

namespace Sys2Proof.Machine

/-! ### Packets (R414 to R416) -/

/-- The requester code of the transport's own accesses (R61). -/
def srcAtp : Nat := 0xFF

/-- A packet; flags: 1 LAST, 2 RELAXED, 4 END. -/
def pktBytes (op flags qp psn key offset conn aux : Nat) (data : List Byte) : List Byte :=
  let b := beBytes 1 op ++ beBytes 1 flags ++ beBytes 1 1 ++ zeros 1 ++ beBytes 4 qp ++ beBytes 4 psn ++ beBytes 4 key ++ beBytes 8 offset
    ++ beBytes 2 data.length ++ beBytes 2 conn ++ beBytes 4 aux ++ data
  b ++ beBytes 4 (crc32c b)

/-- The ones' complement sum of 16-bit words folded to 16 bits. -/
def onesSum (b : List Byte) : Nat :=
  let n := ((pieces 2 b).map fun w => (w.getD 0 0).toNat * 256 + (w.getD 1 0).toNat).foldl (· + ·) 0
  let n := n % 65536 + n / 65536
  n % 65536 + n / 65536

/-- The UDP checksum over IPv6, of the pseudo-header, the UDP header and the payload; 0 is sent as all ones (R415). -/
def udpChecksum (source dest : List Byte) (sourcePort destPort : Nat) (data : List Byte) : Nat :=
  let n := 8 + data.length
  let c := 65535 - onesSum (padTo 16 source ++ padTo 16 dest ++ beBytes 4 n ++ beBytes 4 17 ++ beBytes 2 sourcePort ++ beBytes 2 destPort ++ beBytes 2 n
    ++ zeros 2 ++ data)
  if c = 0 then 65535 else c

/-- The datagram of a packet of a queue pair: the addresses and the destination port of its setup, a source port of its own, the DSCP
setting, and ECN-capable transport where congestion control is on (R415). -/
def State.datagram (s : State) (q : Nat) (data : List Byte) : Datagram :=
  let x := s.qp q
  let v6 := leAt x.setup 6 1 % 2 == 1
  let addr (o : Nat) : List Byte := if v6 then slice x.setup o 16 else slice x.setup (o + 12) 4
  let sport := 49152 + q % 16384
  let dport := leAt x.setup 56 2
  { ipv6 := v6, vlan := leAt x.setup 58 2 % 4096, source := addr 40, dest := addr 24, sourcePort := sport, destPort := dport,
    dscp := s.setting 0x0801 0 26, ect := x.cc, checksum := if v6 then udpChecksum (addr 40) (addr 24) sport dport data else 0 }

/-- Send a packet of a queue pair over its path; a port whose link is down sends nothing. -/
def State.sendPkt (q op flags psn key offset aux : Nat) (data : List Byte) (s : State) : State :=
  let x := s.qp q
  let b := pktBytes op flags (leAt x.setup 8 4 % 2 ^ 20) psn key offset x.conn aux data
  if x.path = 0 then s.sendTwin 0 b
  else if s.regBit (rEthPort (x.path - 1)) 0 then (s.countTx (x.path - 1) b.length).emit (.packet x.path (s.datagram q b) b) else s

/-- The distance from one PSN up to another. -/
def psnFrom (a b : Nat) : Nat := (b + 2 ^ 32 - a % 2 ^ 32) % 2 ^ 32
/-- A PSN lies below another. -/
def psnBelow (a b : Nat) : Bool := let d := psnFrom a b; decide (0 < d) && decide (d < 2 ^ 31)

/-! ### Sending (R419, R422, R431, R433) -/

def WorkReq.op (r : WorkReq) : Nat := opcodeOf r.block
def WorkReq.localAddr (r : WorkReq) : Nat := le r.block 16 8 % 2 ^ 48
def WorkReq.key (r : WorkReq) : Nat := le r.block 24 4
def WorkReq.len (r : WorkReq) : Nat := le r.block 28 4
def WorkReq.off (r : WorkReq) : Nat := le r.block 32 8
def WorkReq.relaxed (r : WorkReq) : Bool := le r.block 40 1 % 2 == 1

/-- The request a PSN belongs to. -/
def QPair.reqOf (x : QPair) (psn : Nat) : Option WorkReq := x.reqs.find? fun r => ! r.ended && decide (psnFrom r.first psn < r.count)
/-- A PSN is one of a READ. -/
def QPair.isRead (x : QPair) (psn : Nat) : Bool := match x.reqOf psn with
  | some r => r.op == 3
  | none => false

/-- The oldest PSN not answered. -/
def QPair.oldest (x : QPair) : Nat := match x.psns.head? with
  | some p => p.psn
  | none => x.nextPsn

/-- The packet of a PSN of a request goes out: a READ_REQ asks for everything from the PSN on (R422, R423). -/
def State.sendOf (q psn : Nat) (r : WorkReq) (s : State) : State :=
  let p := (s.qp q).payload
  let o := psnFrom r.first psn * p
  match r.op with
  | 1 => s.sendPkt q 1 (if o + p < r.len then 0 else 4) psn r.key (r.off + o) 0 (slice r.data o (min p (r.len - o)))
  | 2 => s.sendPkt q 1 5 psn r.key r.off 0 r.data
  | 3 => s.sendPkt q 2 (if r.relaxed then 2 else 0) psn r.key (r.off + o) (r.len - o) []
  | _ => s.sendPkt q 7 0 psn r.key r.off r.len []

/-- Send a PSN, and mark it SENT; a READ_REQ sends every later PSN of its request with it. The repeat timer starts when none runs. -/
def State.sendPsn (q psn : Nat) (again : Bool) (s : State) : State :=
  match (s.qp q).reqOf psn with
  | none => s
  | some r =>
    let now := s.elapsed
    let with_ (p : SendPsn) : Bool := p.psn == psn || (r.op == 3 && decide (psnFrom r.first psn ≤ psnFrom r.first p.psn ∧ psnFrom r.first p.psn < r.count))
    let f (p : SendPsn) : SendPsn := { p with state := if p.state = .unsent then .sent else p.state, again := if again then some now else p.again }
    let s := s.sendOf q psn r
    let s := s.modQp q fun x => { x with psns := mapWhere with_ f x.psns, timer := some (x.timer.getD now) }
    if again then s.bump64 rAtpRepeats 1 else s

/-- Send what the window permits (R431). -/
def State.pump (q : Nat) (s : State) : State :=
  let u := (s.qp q).oldest
  ((s.qp q).psns.filter fun p => p.state == .unsent).foldl (fun t p =>
    let x := t.qp q
    if x.psns.any (fun y => y.psn == p.psn && y.state == .unsent) && decide (psnFrom u p.psn < x.window) then t.sendPsn q p.psn false else t) s

/-- PSNs become ANSWERED: bytes of `good` ones count for their requests; when U advances, RTO and retries start anew (R433). -/
def State.answerPsns (q : Nat) (gone : Nat → Bool) (good : Bool) (s : State) : State :=
  let x := s.qp q
  let u := x.oldest
  let lost := x.psns.filter fun p => gone p.psn
  let moved (r : WorkReq) : Nat :=
    if ¬ good ∨ r.op = 7 then 0
    else ((lost.filter fun p => decide (psnFrom r.first p.psn < r.count)).map fun p => min x.payload (r.len - psnFrom r.first p.psn * x.payload)).foldl (· + ·) 0
  let now := s.elapsed
  s.modQp q fun x =>
    let x := { x with psns := x.psns.filter (fun p => ! gone p.psn), reqs := x.reqs.map fun r => if r.ended then r else { r with moved := r.moved + moved r } }
    let x := if x.oldest = u then x else { x with rto := x.rtoMin, retries := 0, timer := some now }
    if x.psns.any fun p => p.state == .sent then x else { x with timer := none }

/-- A request of a queue pair gets a status, the first that it is given. -/
def State.markReq (q seq st : Nat) (s : State) : State :=
  s.modQp q fun x => { x with reqs := mapWhere (fun r => r.seq == seq && r.status == 0) (fun r => { r with status := st }) x.reqs }

/-! ### Receiving: acknowledgement (R431, R432) -/

/-- E advances past every PSN answered; at most `fuel`. -/
def QPair.advance : Nat → QPair → QPair
  | 0, x => x
  | fuel + 1, x =>
    if x.got.any fun p => p.1 == x.expect then
      QPair.advance fuel { x with got := x.got.filter (fun p => p.1 != x.expect), expect := (x.expect + 1) % 2 ^ 32 }
    else x

/-- PSNs are placed, or answered by a refusal. -/
def State.gotPsns (q : Nat) (psns : List Nat) (placed : Bool) (s : State) : State :=
  s.modQp q fun x => let y := { x with got := x.got ++ psns.map fun p => (p, placed) }; y.advance y.got.length

/-- Send an ACK, at most one per microsecond unless `force`; one that must wait stays due. -/
def State.sendAck (q : Nat) (force : Bool) (s : State) : State :=
  let x := s.qp q
  let now := s.elapsed
  let soon : Bool := match x.ackAt with
    | some t => decide (now.toNat - t.toNat < 1000)
    | none => false
  if soon ∧ ¬ force then s.modQp q fun x => { x with ackDue := some (x.ackDue.getD now) }
  else
    let placed := (x.got.filter (·.2)).map (·.1)
    let base := placed.foldl (fun b p => if psnFrom x.expect p < psnFrom x.expect b then p else b) ((x.expect + 2 ^ 32 - 1) % 2 ^ 32)
    let base := if placed.isEmpty then 0 else base
    let bit (i : Nat) : Nat := if placed.contains ((base + i) % 2 ^ 32) then 1 else 0
    let map_ := (List.range 32).map fun k => BitVec.ofNat 8 (((List.range 8).map fun i => bit (8 * k + i) * 2 ^ i).foldl (· + ·) 0)
    let free := x.window - x.got.length - x.heldPkts.length
    (s.sendPkt q 4 0 x.expect 0 base free (if placed.isEmpty then zeros 32 else map_)).modQp q fun x => { x with unacked := 0, ackDue := none, ackAt := some now }

/-- A packet was placed: an ACK at once for END and LAST, and after 16 placements; else it falls due (R432). -/
def State.notePlaced (q : Nat) (fin : Bool) (s : State) : State :=
  let now := s.elapsed
  let s := s.modQp q fun x => { x with unacked := x.unacked + 1, ackDue := some (x.ackDue.getD now) }
  if fin then s.sendAck q true else if 16 ≤ (s.qp q).unacked then s.sendAck q false else s

/-- Refuse a PSN with a NAK (R426). -/
def State.nak (q psn reason : Nat) (s : State) : State := s.sendPkt q 5 0 psn 0 0 reason []

/-! ### Region checks (R426) -/

/-- Why a packet for a region is refused, if it is: 1 KEY, 2 RANGE, 3 ACCESS. -/
def State.regionRefusal (s : State) (q key off n : Nat) (write : Bool) : Option Nat :=
  let e := s.region (key / 4096)
  let who := leAt e 20 4
  if key / 4096 = 0 ∨ regState e ≠ 1 ∨ regGen e ≠ key % 4096 ∨ ¬ regCheckOk e ∨ (who / 2 ^ 20 % 2 = 0 ∧ who % 2 ^ 20 ≠ q) then some 1
  else if regLen e < off + n then some 2
  else if leAt e 19 1 / (if write then 1 else 2) % 2 = 0 then some 3
  else none

/-! ### Receiving: WRITE, READ_REQ, REPEAT (R420 to R424) -/

/-- Place a packet's payload in its region; false where memory gives a bus error, and the sender will repeat it. -/
def State.placeData (key off : Nat) (data : List Byte) (s : State) : Bool × State :=
  let (e, _, t) := s.writeSpan srcAtp (regBase (s.region (key / 4096)) + off) data
  match e with
  | some x => (false, t.busError x.1 srcAtp x.2)
  | none => (true, t)

/-- A WRITE that is not a write-last. -/
def State.rxWrite (q : Nat) (p : RxPkt) (s : State) : State :=
  match s.regionRefusal q p.key p.offset p.data.length true with
  | some why => ((s.nak q p.psn why).modQp q fun x => { x with refusedSince := true }).gotPsns q [p.psn] false
  | none =>
    let (ok, t) := s.placeData p.key p.offset p.data
    if ok then (t.gotPsns q [p.psn] true).notePlaced q p.fin else t

/-- A write-last whose turn has come (R421). -/
def State.rxWriteLast (q : Nat) (p : RxPkt) (s : State) : State :=
  let clear (s : State) : State := s.modQp q fun x => { x with refusedSince := false }
  let why := if (s.qp q).refusedSince then some 4 else s.regionRefusal q p.key p.offset p.data.length true
  match why with
  | some w => clear ((s.nak q p.psn w).gotPsns q [p.psn] false)
  | none =>
    let (ok, t) := s.placeData p.key p.offset p.data
    if ok then clear ((t.gotPsns q [p.psn] true).notePlaced q true) else t

/-- Send the READ_RESP packets of a request, in PSN order; a response whose memory read fails is not sent (R422). -/
def State.readResponses (q : Nat) (p : RxPkt) (s : State) : State :=
  let size := (s.qp q).payload
  let base := regBase (s.region (p.key / 4096))
  (List.range ((p.aux + size - 1) / size)).foldl (fun t i =>
    let n := min size (p.aux - i * size)
    let (e, bs, t) := t.readSpan srcAtp (base + p.offset + i * size) n
    match e with
    | some x => t.busError x.1 srcAtp x.2
    | none => t.sendPkt q 3 (if (i + 1) * size < p.aux then 0 else 4) ((p.psn + i) % 2 ^ 32) p.key (p.offset + i * size) 0 bs) s

/-- PSNs a READ_REQ occupies. -/
def State.readPsns (s : State) (q : Nat) (p : RxPkt) : List Nat :=
  let size := (s.qp q).payload
  (List.range ((p.aux + size - 1) / size)).map fun i => (p.psn + i) % 2 ^ 32

/-- Execute a READ_REQ: its responses, or a refusal of each of its PSNs; `first` when its PSNs are received by it. -/
def State.rxRead (q : Nat) (p : RxPkt) (first : Bool) (s : State) : State :=
  let ps := s.readPsns q p
  let mark (placed : Bool) (s : State) : State := if first then s.gotPsns q ps placed else s
  match s.regionRefusal q p.key p.offset p.aux false with
  | some why =>
    let s := ps.foldl (fun t psn => t.nak q psn why) s
    mark false (if first then s.modQp q fun x => { x with refusedSince := true } else s)
  | none => mark true (s.readResponses q p)

/-- The record a REPEAT is delivered with (R424): at the completion address of the queue pair's latest request, or as an orphan where it
has none (log entry 43). Its SEQ and TAG are free values. -/
def State.deliverRecord (a : Option Nat) (rec extra : List Byte) (s : State) : State :=
  let orphan (s : State) : State := (List.range 8).foldl (fun t i => t.setReg (rAtpOrphanRec i) (leAt rec (4 * i) 4)) (s.bump rAtpOrphanCount 1)
  match a with
  | none => orphan s
  | some a =>
    if ¬ goodCompletionAddr a then orphan s
    else match s.writeFault a (List.replicate (32 + extra.length) true) with
      | some k => orphan (s.busError k srcAtp a)
      | none => s.performWrite a ((rec ++ extra).map fun b => (true, b))

/-- A REPEAT. -/
def State.rxRepeat (q : Nat) (p : RxPkt) (s : State) : State :=
  match s.regionRefusal q p.key p.offset p.aux true with
  | some why => ((s.nak q p.psn why).modQp q fun x => { x with refusedSince := true }).gotPsns q [p.psn] false
  | none =>
    let (fb, s) := s.freeBytes 12
    let rec_ := fb.take 8 ++ slice fb 8 4 ++ leBytes 2 0 ++ leBytes 2 0x9000 ++ leBytes 8 0 ++ leBytes 8 (7 + 256 * q)
    let head := (pktBytes 7 (if p.fin then 4 else 0) q p.psn p.key p.offset p.conn p.aux []).take 32
    let s := s.deliverRecord ((s.qp q).reqs.getLast?.map fun r => completionAddr r.block) rec_ head
    (s.gotPsns q [p.psn] true).notePlaced q p.fin

/-- Held packets whose turn has come are run again, in order; at most `fuel`. -/
def State.runHeld (q : Nat) : Nat → State → State
  | 0, s => s
  | fuel + 1, s =>
    match (s.qp q).heldPkts.find? fun p => p.psn == (s.qp q).expect with
    | none => s
    | some p =>
      let t := s.modQp q fun x => { x with heldPkts := x.heldPkts.filter fun y => y.psn != p.psn }
      (if p.op = 2 then t.rxRead q p true else t.rxWriteLast q p).runHeld q fuel

/-- Some PSN below a packet's has not arrived. -/
def QPair.gapBelow (x : QPair) (psn : Nat) : Bool :=
  let n := psnFrom x.expect psn
  decide ((x.got.filter fun p => decide (psnFrom x.expect p.1 < n)).length + (x.heldPkts.filter fun p => decide (psnFrom x.expect p.psn < n)).length < n)

/-- A packet that takes a PSN of the receive sequence (R431). -/
def State.rxSequenced (q : Nat) (p : RxPkt) (s : State) : State :=
  let x := s.qp q
  let d := psnFrom x.expect p.psn
  if d < x.window then
    if x.got.any fun g => g.1 == p.psn then (if p.op = 2 then s.rxRead q p false else s.sendAck q false)
    else if x.heldPkts.any fun h => h.psn == p.psn then s
    else
      let gap := x.gapBelow p.psn
      let t :=
        if p.op = 1 ∧ ¬ p.last then s.rxWrite q p
        else if p.op = 7 then s.rxRepeat q p
        else if p.op = 2 ∧ p.relaxed then s.rxRead q p true
        else s.modQp q fun x => { x with heldPkts := x.heldPkts ++ [p] }
      let t := t.runHeld q ((t.qp q).heldPkts.length)
      if gap then t.sendAck q false else t
  else if psnBelow p.psn x.expect then (if p.op = 2 then s.rxRead q p false else s.sendAck q false)
  else s.bump rAtpDropWindow 1

/-! ### Receiving: answers (R422, R433, R434) -/

/-- A READ_RESP. -/
def State.rxResponse (q : Nat) (p : RxPkt) (s : State) : State :=
  let x := s.qp q
  match x.reqOf p.psn with
  | none => s
  | some r =>
    if r.op ≠ 3 ∨ ¬ x.psns.any fun y => y.psn == p.psn && y.state == .sent then s
    else
      let o := psnFrom r.first p.psn * x.payload
      let mine (psn : Nat) : Bool := decide (psnFrom r.first psn < r.count)
      if p.data.length ≠ min x.payload (r.len - o) then ((s.markReq q r.seq stLengthMismatch).answerPsns q mine false).pump q
      else
        let (e, _, t) := s.writeSpan srcAtp (r.localAddr + o) p.data
        match e with
        | some b => (((t.busError b.1 srcAtp b.2).markReq q r.seq stBusError).answerPsns q (fun n => n == p.psn) false).pump q
        | none => (t.answerPsns q (fun n => n == p.psn) true).pump q

/-- An ACK: PSNs below it are answered but for those of READs (R423), the bitmap SACKs, and PSNs below one placed go out again. -/
def State.rxAck (q : Nat) (p : RxPkt) (s : State) : State :=
  let x := s.qp q
  let bit (psn : Nat) : Bool := let i := psnFrom p.offset psn; decide (i < 256) && (p.data.getD (i / 8) 0).toNat / 2 ^ (i % 8) % 2 == 1
  let gone (psn : Nat) : Bool := psnBelow psn p.psn && ! x.isRead psn && x.psns.any fun y => y.psn == psn && y.state != .unsent
  let s := s.answerPsns q gone true
  let s := s.modQp q fun x => { x with psns := mapWhere (fun y => y.state == .sent && bit y.psn) (fun y => { y with state := .sacked }) x.psns }
  let tops := (List.range 256).filter fun i => (p.data.getD (i / 8) 0).toNat / 2 ^ (i % 8) % 2 == 1
  let s : State := match tops.getLast? with
    | none => s
    | some i =>
      let x : QPair := s.qp q
      let recent (y : SendPsn) : Bool := match y.again with
        | some t => decide (s.elapsed.toNat - t.toNat < x.rto)
        | none => false
      let lost : List SendPsn := x.psns.filter fun (y : SendPsn) => y.state == PsnState.sent && ! psnBelow y.psn p.psn && psnBelow y.psn ((p.offset + i) % 2 ^ 32) && ! recent y
      lost.foldl (fun (t : State) (y : SendPsn) => if ((t.qp q).psns.any fun z => z.psn == y.psn && z.again == y.again) then t.sendPsn q y.psn true else t) s
  s.pump q

/-- A NAK: the PSN is answered and its request gets the reason. -/
def State.rxNak (q psn reason : Nat) (s : State) : State :=
  let x := s.qp q
  if ¬ x.psns.any fun y => y.psn == psn && y.state != .unsent then s
  else match x.reqOf psn with
    | none => s
    | some r => ((s.markReq q r.seq (0xFF + reason)).answerPsns q (fun n => n == psn) false).pump q

/-- A CNP halves the rate, to no less than 1 Gb/s. -/
def State.rxCnp (q : Nat) (s : State) : State :=
  if (s.qp q).cc then s.modQp q fun x => { x with rate := max 1000 (x.rate / 2), rateAt := s.elapsed } else s

/-- A packet marked Congestion Experienced: a CNP, at most once per 50 us. -/
def State.noteMark (q : Nat) (p : RxPkt) (s : State) : State :=
  let x := s.qp q
  let soon : Bool := match x.cnpAt with
    | some t => decide (s.elapsed.toNat - t.toNat < 50000)
    | none => false
  if p.marked ∧ x.cc ∧ ¬ soon then (s.sendPkt q 6 0 0 0 0 0 []).modQp q fun x => { x with cnpAt := some s.elapsed } else s

/-! ### A packet arrives -/

/-- A packet of a queue pair whose context is on chip (R430). -/
def State.rxOnChip (q : Nat) (p : RxPkt) (s : State) : State :=
  let x := s.qp q
  if ¬ x.active ∨ x.conn ≠ p.conn then s.bump rAtpDropQp 1
  else
    let s := (s.touchQp q).noteMark q p
    match p.op with
    | 3 => s.rxResponse q p
    | 4 => s.rxAck q p
    | 5 => s.rxNak q p.psn p.aux
    | 6 => s.rxCnp q
    | _ => s.rxSequenced q p

/-- A packet waits for its context (R436). -/
def State.rxWait (q : Nat) (p : RxPkt) (s : State) : State :=
  let s := s.startLoad q false
  let n : Option Nat := (s.atp.loads.find? fun l => l.qp == q).map fun l => l.packets.length
  if 4194304 < s.missBytes + p.size ∨ 64 ≤ n.getD 64 then s.bump rAtpDropMiss 1
  else { s with atp := { s.atp with loads := mapWhere (fun l => l.qp == q) (fun l => { l with packets := l.packets ++ [p] }) s.atp.loads } }

/-- Both heads read one HEAD_ID: the twin frame is discarded and counted (R563). -/
def State.discardFrame (s : State) : State := s.bump rTwnFrameBad 1

/-- A twin frame passed its checks. -/
def State.noteFrame (s : State) : State := { s with twn := { s.twn with lastGood := s.elapsed } }

/-- A packet that passed the checks of R417, on the twin path or a front-end port the device has. -/
def State.rx (q : Nat) (p : RxPkt) (s : State) : State :=
  if p.path = 0 ∧ s.twn.strapConflict then s.discardFrame
  else if s.ethPorts < p.path then s
  else
    let s := if p.path = 0 then s.noteFrame else s.countRx (p.path - 1)
    if s.reg rAtpQpMax ≤ q then s.bump rAtpDropQp 1
    else if s.atp.cached.contains q then s.rxOnChip q p
    else s.rxWait q p

/-- A packet's fields, the rest zero. -/
def RxPkt.of (op path psn conn : Nat) : RxPkt :=
  { op := op, last := false, relaxed := false, fin := false, psn := psn, key := 0, offset := 0, conn := conn, aux := 0, data := [], path := path,
    marked := false }

def execAtpWrite (path qp psn key offset conn : Nat) (data : List Byte) (last fin marked : Bool) (s : State) : Host.Outcome State Fault Refusal :=
  .next (s.rx qp { RxPkt.of 1 path psn conn with last := last, fin := fin, key := key, offset := offset, data := data, marked := marked })

def execAtpReadReq (path qp psn key offset conn n : Nat) (relaxed marked : Bool) (s : State) : Host.Outcome State Fault Refusal :=
  .next (s.rx qp { RxPkt.of 2 path psn conn with relaxed := relaxed, key := key, offset := offset, aux := n, marked := marked })

def execAtpReadResp (path qp psn conn : Nat) (data : List Byte) (marked : Bool) (s : State) : Host.Outcome State Fault Refusal :=
  .next (s.rx qp { RxPkt.of 3 path psn conn with data := data, marked := marked })

def execAtpAck (path qp psn base conn : Nat) (bitmap : List Byte) (s : State) : Host.Outcome State Fault Refusal :=
  .next (s.rx qp { RxPkt.of 4 path psn conn with offset := base, data := padTo 32 bitmap })

def execAtpNak (path qp psn conn reason : Nat) (s : State) : Host.Outcome State Fault Refusal :=
  .next (s.rx qp { RxPkt.of 5 path psn conn with aux := reason })

def execAtpCnp (path qp conn : Nat) (s : State) : Host.Outcome State Fault Refusal := .next (s.rx qp (RxPkt.of 6 path 0 conn))

def execAtpRepeat (path qp psn key offset conn n : Nat) (fin marked : Bool) (s : State) : Host.Outcome State Fault Refusal :=
  .next (s.rx qp { RxPkt.of 7 path psn conn with fin := fin, key := key, offset := offset, aux := n, marked := marked })

/-- A bad packet is counted; `st` is the status captured: 0x0002 LENGTH_MISMATCH, 0x0105 BAD_CHECK, 0 for a wrong VERSION, OPCODE or zero
field (R417, R440). -/
def execBadAvenfyPacket (path qp st : Nat) (s : State) : Host.Outcome State Fault Refusal :=
  .next (if s.ethPorts < path then s else
    let s := (if path = 0 then s else s.countRx (path - 1)).bump rAtpRxBad 1
    if st ≠ 2 ∧ st ≠ 0x105 then s
    else if s.regBit rAtpErrStatus 0 then s.setRegBit rAtpErrStatus 1
    else ((s.setReg rAtpErrStatus (1 + s.reg rAtpErrStatus / 2 % 2 * 2 + st * 2 ^ 16)).setReg rAtpErrQp (qp % 2 ^ 20 + path % 256 * 2 ^ 20)).raiseVector 6)

/-! ### Work requests (R437, R438) -/

/-- A request breaks the table of R437. -/
def badRequest (b : Vec) (payload : Nat) : Bool :=
  let op := opcodeOf b
  let n := le b 28 4
  badCommon b || ! (op == 1 || op == 2 || op == 3 || op == 7) || decide (le b 16 8 / 2 ^ 48 ≠ 0) || (op == 7 && le b 16 8 != 0)
    || decide (1 < le b 40 1) || (op != 3 && le b 40 1 != 0) || le b 41 23 != 0
    || (if op = 2 then decide (payload < n) else if op = 7 then n == 0 else n == 0 || decide (16777216 < n))

/-- Take the next request of a ring: with BAD_COMMAND or BUS_ERROR at once, or with its PSNs to send. -/
def State.takeRequest (q : Nat) (mine : Nat → Bool) (s : State) : State :=
  let x := s.qp q
  if ¬ s.atp.cached.contains q ∨ ¬ x.active ∨ x.posted = 0 then s
  else
    let slot := x.ringBase + 64 * (x.taken % max 1 x.ringSize)
    let m := s.hostMisses slot 64 false
    if ¬ m.isEmpty then s.askTranslations m
    else match s.readFault slot 64 with
      | some k => if mine 1 then ((s.busError k srcAtp slot).dropFailed (hostPages slot 64)).takeEnded q stBusError else s
      | none =>
        let b := s.nextBlock q
        if ¬ mine (opcodeOf b) then s
        else if badRequest b x.payload then s.takeEnded q stBadCommand
        else
          let r : WorkReq := { seq := x.taken + 1, block := b, first := x.nextPsn, count := 1, data := [], status := 0, moved := 0, ended := false }
          let fetch := if r.op = 1 ∨ r.op = 2 then r.len else 0
          let m := s.spanMisses r.localAddr fetch false
          if ¬ m.isEmpty then s.askTranslations m
          else
            let (e, bs, t) := s.readSpan srcAtp r.localAddr fetch
            match e with
            | some f => (t.busError f.1 srcAtp f.2).takeEnded q stBusError
            | none =>
              let n := if r.op = 1 ∨ r.op = 3 then (r.len + x.payload - 1) / x.payload else 1
              let psns := (List.range n).map fun i => { psn := (x.nextPsn + i) % 2 ^ 32, state := .unsent, again := none }
              (t.modQp q fun x =>
                { x with taken := x.taken + 1, reqs := x.reqs ++ [{ r with count := n, data := bs }], psns := x.psns ++ psns,
                         nextPsn := (x.nextPsn + n) % 2 ^ 32 }).pump q

def execWrWrite (qp : Nat) (s : State) : Host.Outcome State Fault Refusal :=
  .next (s.takeRequest qp fun op => op != 2 && op != 3 && op != 7)
def execWrWriteLast (qp : Nat) (s : State) : Host.Outcome State Fault Refusal := .next (s.takeRequest qp fun op => op == 2)
def execWrRead (qp : Nat) (s : State) : Host.Outcome State Fault Refusal := .next (s.takeRequest qp fun op => op == 3)
def execWrRepeat (qp : Nat) (s : State) : Host.Outcome State Fault Refusal := .next (s.takeRequest qp fun op => op == 7)

/-- The record of a request: BYTES are those placed. -/
def requestRecord (q : Nat) (r : WorkReq) : List Byte :=
  leBytes 8 r.seq ++ leBytes 4 (tagOf r.block) ++ leBytes 2 r.status ++ leBytes 2 0x9000 ++ leBytes 8 r.moved ++ leBytes 8 (256 * q)

def execWorkRequestComplete (qp : Nat) (s : State) : Host.Outcome State Fault Refusal :=
  .next (
    let x := s.qp qp
    match x.reqs with
    | r :: rest =>
      if x.complete r then
        let a := completionAddr r.block
        let good := goodCompletionAddr a && (s.writeFault a (List.replicate 32 true)).isNone
        let t := (s.modQp qp fun x => { x with reqs := rest }).deliverRecord (some a) (requestRecord qp r) []
        (if good ∧ irqOf r.block then t.notifyCq (notifyOf r.block) (sourceOf r.block) else t).settleDrain qp
      else s
    | [] => s)

/-! ### Timers (R432 to R434) -/

def execRepeatTimerExpiry (qp : Nat) (s : State) : Host.Outcome State Fault Refusal :=
  .next (
    let x := s.qp qp
    match x.timer, x.psns.find? fun p => p.state == .sent with
    | some t, some p =>
      if s.elapsed.toNat - t.toNat < x.rto ∨ ¬ x.active then s
      else
        let t := (s.modQp qp fun x => { x with rto := min 64000000 (2 * x.rto), retries := x.retries + 1, timer := some s.elapsed }).sendPsn qp p.psn true
        if x.limit ≤ x.retries + 1 then t.errorQp qp else t
    | _, _ => s)

def execAckDelayExpiry (qp : Nat) (s : State) : Host.Outcome State Fault Refusal :=
  .next (match (s.qp qp).ackDue with
  | some t => if (s.qp qp).active ∧ 4000 ≤ s.elapsed.toNat - t.toNat then s.sendAck qp false else s
  | none => s)

/-- The line rate of a queue pair's port, in Mb/s (R365). -/
def State.lineRate (s : State) : Nat := 200000 * 2 ^ (s.reg rEthMode % 4)

def execRateIncreaseExpiry (qp : Nat) (s : State) : Host.Outcome State Fault Refusal :=
  .next (
    let x := s.qp qp
    if x.active ∧ x.cc ∧ 55000 ≤ s.elapsed.toNat - x.rateAt.toNat then
      s.modQp qp fun x => { x with rate := min s.lineRate (x.rate + s.lineRate / 20), rateAt := s.elapsed }
    else s)

/-! ### Registers with a row of their own (R425, R428, R430) -/

def execAtpRegionSync (index : Nat) (s : State) : Host.Outcome State Fault Refusal := .next (s.syncRegion (index % 2 ^ 20))
def execAtpRevoke (key : Nat) (s : State) : Host.Outcome State Fault Refusal := .next (s.revokeKey (key % 2 ^ 32))
def execRevocationComplete (index : Nat) (s : State) : Host.Outcome State Fault Refusal := .next (s.freeRegion index)

/-- `setup`: the 128 bytes of the image as the transport reads them; none when the read meets a bus error. -/
def execQpReady (qp : Nat) (setup : Option (List Byte)) (s : State) : Host.Outcome State Fault Refusal :=
  .next (match setup with
  | some b => (s.readyQp qp b).modQp qp fun x => if x.rate = 0 then { x with rate := s.lineRate } else x
  | none => s.busError .ats srcAtp (s.reg64 rAtpQpTableBase + 2048 * qp))
def execQpDrain (qp : Nat) (s : State) : Host.Outcome State Fault Refusal := .next (s.drainQp qp)
def execQpReset (qp : Nat) (s : State) : Host.Outcome State Fault Refusal := .next (s.resetQp qp)

/-! ### Context loads (R435, R436) -/

/-- A load failed: the packets that wait are dropped, and the third failure in a row puts the queue pair into ERROR. -/
def State.loadFailed (l : CtxLoad) (s : State) : State :=
  let s := ({ s with atp := { s.atp with loads := s.atp.loads.filter fun x => x.qp != l.qp } }).bump rAtpDropMiss l.packets.length
  let s := s.modQp l.qp fun x => { x with loadFails := x.loadFails + 1 }
  if 3 ≤ (s.qp l.qp).loadFails ∧ (s.qp l.qp).active then (s.modQp l.qp fun x => { x with loadFails := 0 }).errorQp l.qp else s

/-- `image`: the context image as loaded; none for a bus error. -/
def execContextLoadComplete (qp : Nat) (image : Option (List Byte)) (s : State) : Host.Outcome State Fault Refusal :=
  .next (match s.atp.loads.find? fun l => l.qp == qp && l.victim.isNone with
  | none => s
  | some l => match image with
    | none => s.loadFailed l
    | some b =>
      let s := { s with atp := { s.atp with loads := s.atp.loads.filter (fun x => x.qp != qp), cached := s.atp.cached.filter (fun x => x != qp) ++ [qp] } }
      let s := s.modQp qp fun x => { x with loadFails := 0 }
      let s := if l.ready then s.readyQp qp b else s
      l.packets.foldl (fun t p => t.rxOnChip qp p) s)

/-- Write the context image of a queue pair back: its setup with STATE, and transport state whose bytes are open (R429, R435). -/
def State.writeImage (q : Nat) (s : State) : State :=
  let (open_, t) := s.freeBytes 1920
  let image := patch (padTo 128 (s.qp q).setup) 4 (leBytes 1 (s.qp q).state) ++ open_
  t.performWrite (s.reg64 rAtpQpTableBase + 2048 * q) (image.map fun b => (true, b))

/-- The write-back that a load waits for returns. -/
def execEvictionWriteBackComplete (qp : Nat) (ok : Bool) (s : State) : Host.Outcome State Fault Refusal :=
  .next (match s.atp.loads.find? fun l => l.qp == qp && l.victim.isSome with
  | none => s
  | some l =>
    if ok then
      let t := match l.victim with
        | some v => s.writeImage v
        | none => s
      { t with atp := { t.atp with loads := mapWhere (fun x => x.qp == qp) (fun x => { x with victim := none }) t.atp.loads } }
    else s.loadFailed l)

/-- Cut the partner off: every twin queue pair is reset, and the mirror region and the ledger area are revoked (R451). -/
def State.cutTwin (s : State) : State :=
  let twins := (Sparse.filter (fun _ x => x.state != 0 && x.path == 0) s.atp.qps).map (·.1)
  let s := twins.foldl (fun t q => t.resetQp q) s
  if s.basesSet then (s.revokeRange s.mirrorBase (dataOff dataSlots)).revokeRange (s.ownBase + ledgerOff 0) 0x1000000 else s

end Sys2Proof.Machine
end

