-- ==== Sys2Proof/Machine/Branch.lean ====
section
/-! DEFINITION. Branches and jumps (R74, R75). -/

namespace Sys2Proof.Machine

/-- The target of a branch: the branch itself plus 4 × offset16 (R74). -/
def branchTarget (pc : BitVec 18) (off : BitVec 16) : Nat := (pc.zeroExtend 64 + 4 * sextImm off).toNat

/-- Continue at the branch's target when the condition holds, else at the next instruction. -/
def State.branch (k : Nat) (taken : Bool) (off : BitVec 16) (s : State) : State :=
  if taken then s.jump k (branchTarget (s.core k).pc off) else s.advance k

/-- A conditional branch on two general registers (R74). -/
def State.branchG (k : Nat) (a b : BitVec 5) (off : BitVec 16) (f : Word64 → Word64 → Bool) (s : State) : State :=
  s.instr k .base [a, b] [] fun s => s.branch k (f ((s.core k).getG a) ((s.core k).getG b)) off

/-- A branch on a predicate register; a keeper core has `p0` only (R74, R87). -/
def State.branchP (k : Nat) (p : BitVec 3) (off : BitVec 16) (f : Word64 → Bool) (s : State) : State :=
  s.instr k .base [] [] fun s =>
    if engineKind k = .keeper ∧ p ≠ 0 then s.raise k causeIllegal 0
    else s.branch k (f ((s.core k).getP p)) off

def execBeq (k : Nat) (a b : BitVec 5) (off : BitVec 16) (s : State) : Host.Outcome State Fault Refusal :=
  .next (s.branchG k a b off fun x y => x == y)
def execBne (k : Nat) (a b : BitVec 5) (off : BitVec 16) (s : State) : Host.Outcome State Fault Refusal :=
  .next (s.branchG k a b off fun x y => x != y)
def execBlt (k : Nat) (a b : BitVec 5) (off : BitVec 16) (s : State) : Host.Outcome State Fault Refusal :=
  .next (s.branchG k a b off fun x y => x.slt y)
def execBge (k : Nat) (a b : BitVec 5) (off : BitVec 16) (s : State) : Host.Outcome State Fault Refusal :=
  .next (s.branchG k a b off fun x y => ! x.slt y)
def execBltu (k : Nat) (a b : BitVec 5) (off : BitVec 16) (s : State) : Host.Outcome State Fault Refusal :=
  .next (s.branchG k a b off fun x y => x.ult y)
def execBgeu (k : Nat) (a b : BitVec 5) (off : BitVec 16) (s : State) : Host.Outcome State Fault Refusal :=
  .next (s.branchG k a b off fun x y => ! x.ult y)
def execBpany (k : Nat) (p : BitVec 3) (off : BitVec 16) (s : State) : Host.Outcome State Fault Refusal :=
  .next (s.branchP k p off fun x => x != 0)
def execBpnone (k : Nat) (p : BitVec 3) (off : BitVec 16) (s : State) : Host.Outcome State Fault Refusal :=
  .next (s.branchP k p off fun x => x == 0)

/-- Write the address of the next instruction into the link register and continue at a target (R75). -/
def State.link (k : Nat) (d : BitVec 5) (target : Nat) (s : State) : State :=
  (s.modCore k (Core.putG d ((s.core k).pc.zeroExtend 64 + 4))).jump k target

def execCall (k : Nat) (d : BitVec 5) (index : BitVec 16) (s : State) : Host.Outcome State Fault Refusal :=
  .next (s.instr k .base [] [] fun s => s.link k d (4 * index.toNat))
def execCallr (k : Nat) (d a : BitVec 5) (imm : BitVec 16) (s : State) : Host.Outcome State Fault Refusal :=
  .next (s.instr k .base [a] [] fun s => s.link k d (effAddr ((s.core k).getG a) imm))

end Sys2Proof.Machine
end

