-- ==== Sys2Proof/Machine/Catalogue.lean ====
section
/-! DEFINITION. Catalogue assists: WALK, FIND, PROBE and SCORE over the nodes, records and tables in memory (R264 to R281). -/

namespace Sys2Proof.Machine

def stNodeAbsent : Nat := 0x0100
def stNodeCorrupt : Nat := 0x0101
def stNotFound : Nat := 0x0102

/-! ### Nodes (R268, R269) -/

/-- The CHECK of a record or node: bytes 60-63 hold the CRC-32C of the whole with those bytes zero. -/
def goodCheck (bs : List Byte) : Bool := leAt bs 60 4 == crc32c (patch bs 60 (zeros 4))

def nodeKind (b : List Byte) : Nat := leAt b 0 1
def nodeLevel (b : List Byte) : Nat := leAt b 1 1
def nodeCount (b : List Byte) : Nat := leAt b 2 2

/-- KEY and CHILD of interior entry `i`. -/
def entryKey (b : List Byte) (i : Nat) : Nat := leAt b (64 + 32 * i) 8
def entryChild (b : List Byte) (i : Nat) : Nat := leAt b (72 + 32 * i) 8

/-- The entries of an interior node are as R268 lays them out: keys strictly rising, bytes 28-31 zero, and in the catalogue
bits [63:48] of a key zero. -/
def goodInterior (catalogue : Bool) (b : List Byte) : Bool :=
  let n := nodeCount b
  decide (1 ≤ n) && decide (n ≤ 126)
    && ((List.range n).all fun i => leAt b (92 + 32 * i) 4 == 0 && (! catalogue || decide (entryKey b i < 2 ^ 48)))
    && ((List.range (n - 1)).all fun i => decide (entryKey b i < entryKey b (i + 1)))

/-- Two bit masks have no bit in common. -/
def apart (x y : Nat) : Bool := x &&& y == 0

/-- A leaf entry is as R269 lays it out. -/
def goodLeafEntry (e : List Byte) : Bool :=
  let f := leAt e 7 1
  let cid := leAt e 8 8
  decide (f < 4) && (if f % 2 = 1 then cid == 0 else cid != 0)

/-- A folio entry of 32 bytes is as R269 lays it out. -/
def goodFolioEntry (e : List Byte) : Bool :=
  let run := leAt e 7 1
  let zeroed := leAt e 16 1
  let unread := leAt e 17 1
  let x := leAt e 19 1
  let exc := if x / 8 % 2 = 1 then 2 ^ (x % 8) else 0
  leAt e 0 6 % 8 == 0 && (if run = 0 then leAt e 8 8 == 0 else decide (2 ≤ leAt e 8 8)) && decide (x < 16)
    && leAt e 20 2 == 0 && leAt e 22 1 == 3 && leAt e 23 1 == 0
    && (if exc = 0 then leAt e 24 8 == 0 else decide (2 ≤ leAt e 24 8))
    && apart run zeroed && apart run unread && apart run exc && apart zeroed unread && apart zeroed exc && apart unread exc

/-- An entry of a catalogue leaf. -/
structure LeafEntry where
  folio : Bool
  lba : Nat
  bytes : List Byte
  deriving DecidableEq, Repr

/-- The entries of a catalogue leaf from slot `i` on, `n` slots to go; none when a slot is malformed. -/
def leafEntries (b : List Byte) : Nat → Nat → Nat → Option (List LeafEntry)
  | 0, _, _ => some []
  | _ + 1, _, 0 => some []
  | fuel + 1, i, n + 1 =>
    let o := 64 + 16 * i
    if leAt b (o + 6) 1 = 1 then
      let e := slice b o 16
      if goodLeafEntry e then (leafEntries b fuel (i + 1) n).map fun l => { folio := false, lba := leAt e 0 6, bytes := e } :: l else none
    else if leAt b (o + 6) 1 = 2 ∧ 0 < n then
      let e := slice b o 32
      if goodFolioEntry e then (leafEntries b fuel (i + 2) (n - 1)).map fun l => { folio := true, lba := leAt e 0 6, bytes := e } :: l
      else none
    else none

/-- Two neighbouring entries are in order and leave each group in one form. -/
def entriesOrdered (a b : LeafEntry) : Bool :=
  if a.folio || b.folio then decide (a.lba / 8 < b.lba / 8) else decide (a.lba < b.lba)

/-- The entries of a leaf are in order. -/
def leafOrdered : List LeafEntry → Bool
  | a :: b :: t => entriesOrdered a b && leafOrdered (b :: t)
  | _ => true

/-- A catalogue leaf is as R269 lays it out. -/
def goodCatalogueLeaf (b : List Byte) : Bool :=
  decide (nodeCount b ≤ 252) && (match leafEntries b 252 0 (nodeCount b) with
    | some l => leafOrdered l
    | none => false)

/-- A content leaf is as R268 lays it out. -/
def goodContentLeaf (b : List Byte) : Bool := decide (nodeCount b ≤ 10) && leAt b 3904 192 == 0

/-- Node `n` fits its place: its CHECK holds, its KIND, LEVEL and NSID are right, and it breaks no rule of R268 or R269 (R277).
`level` is none for a root. -/
def goodNode (catalogue : Bool) (nsid n : Nat) (level : Option Nat) (b : List Byte) : Bool :=
  let l := nodeLevel b
  goodCheck b && (match level with
      | some x => l == x
      | none => decide (l ≤ 7))
    && nodeKind b == (if catalogue then 1 else 3) + (if l = 0 then 1 else 0)
    && leAt b 4 4 == nsid && leAt b 8 8 == n && leAt b 24 36 == 0
    && (if l ≠ 0 then goodInterior catalogue b else if catalogue then goodCatalogueLeaf b else goodContentLeaf b)

/-- The entry a key descends to: the last whose KEY is at most the key, else the first (R268). -/
def descend (b : List Byte) (key : Nat) : Nat :=
  ((List.range (nodeCount b)).filter fun i => decide (entryKey b i ≤ key)).getLastD 0

/-! ### The node directory (R275) -/

/-- What looking for a node gives. -/
inductive Found where
  | node (b : List Byte)
  | absent
  | corrupt (b : List Byte)
  | miss (pages : List Nat)
  | error (kind : BusKind) (addr : Nat)
  deriving DecidableEq, Repr

/-- The address of node `n` in a bucket of the directory. -/
def bucketSlot (b : List Byte) (n : Nat) : Option Nat :=
  ((List.range 4).find? fun i => leAt b (16 * i) 8 == n && n != 0).map fun i => leAt b (16 * i + 8) 6

/-- Read node `n` through the directory and check that it fits its place. -/
def State.findNode (s : State) (catalogue : Bool) (nsid n : Nat) (level : Option Nat) : Found :=
  let buckets := s.reg rCatDirBuckets
  if buckets = 0 then .absent
  else match s.peekSpan (s.reg64 rCatDirBase / 64 * 64 + 64 * (n % buckets)) 64 with
    | .miss p => .miss p
    | .error k a => .error k a
    | .bytes d =>
      match bucketSlot d n with
      | none => .absent
      | some a =>
        match s.peekSpan (a / 4096 * 4096) 4096 with
        | .miss p => .miss p
        | .error k x => .error k x
        | .bytes b => if goodNode catalogue nsid n level b then .node b else .corrupt b

/-- The nodes an assist has read for a command, by number. -/
abbrev NodeCache := List (Nat × List Byte)

/-- Descend to the leaf of a key: the leaf or what stopped the search, the node it stopped at, and the nodes read so far, each
read once (log entry 12). `fuel` bounds the levels. -/
def State.findLeaf (s : State) (catalogue : Bool) (nsid key : Nat) : Nat → Nat → Option Nat → NodeCache → Found × Nat × NodeCache
  | 0, n, _, cache => (.corrupt [], n, cache)
  | fuel + 1, n, level, cache =>
    let (f, cache) := match cache.find? (fun x => x.1 == n) with
      | some x => (if goodNode catalogue nsid n level x.2 then Found.node x.2 else .corrupt x.2, cache)
      | none => match s.findNode catalogue nsid n level with
        | .node b => (.node b, cache ++ [(n, b)])
        | .corrupt b => (.corrupt b, cache ++ [(n, b)])
        | f => (f, cache)
    match f with
    | .node b =>
      if nodeLevel b = 0 then (.node b, n, cache)
      else State.findLeaf s catalogue nsid key fuel (entryChild b (descend b key)) (some (nodeLevel b - 1)) cache
    | f => (f, n, cache)

/-! ### WALK (R270, R277) -/

/-- How a block of a folio entry resolves: content ID and STATE. -/
def folioResolve (e : List Byte) (i : Nat) : Nat × Nat :=
  let run := leAt e 7 1
  let x := leAt e 19 1
  if x / 8 % 2 = 1 ∧ x % 8 = i then (leAt e 24 8, if leAt e 24 8 = 1 then 1 else 0)
  else if run / 2 ^ i % 2 = 1 then (leAt e 8 8 + countOnes i run, 0)
  else if leAt e 16 1 / 2 ^ i % 2 = 1 then (1, 1)
  else if leAt e 17 1 / 2 ^ i % 2 = 1 then (0, 3)
  else (0, 2)

/-- How a block resolves in a leaf: content ID, STATE and FORM (R270, R277). -/
def leafResolve (b : List Byte) (lba : Nat) : Nat × Nat × Nat :=
  match ((leafEntries b 252 0 (nodeCount b)).getD []).find? fun e => if e.folio then e.lba == lba / 8 * 8 else e.lba == lba with
  | none => (0, 2, 0)
  | some e =>
    if e.folio then let (c, st) := folioResolve e.bytes (lba % 8); (c, st, 2)
    else if leAt e.bytes 7 1 % 2 = 1 then (0, 3, 1)
    else let c := leAt e.bytes 8 8; (c, if c = 1 then 1 else 0, 1)

/-- The 16 bytes of a WALK result. -/
def walkResult (r : Nat × Nat × Nat) : List Byte := leBytes 8 r.1 ++ leBytes 1 r.2.1 ++ leBytes 1 r.2.2 ++ zeros 6

/-- What a walk came to: why it stopped, at which node, its results and the nodes it read. -/
structure Walk where
  stop : Found
  node : Nat
  results : List (List Byte)
  cache : NodeCache
  deriving DecidableEq, Repr

/-- Resolve `n` blocks from `lba` on. -/
def State.walkFrom (s : State) (nsid root : Nat) : Nat → Nat → NodeCache → Walk
  | 0, _, cache => { stop := .node [], node := 0, results := [], cache := cache }
  | n + 1, lba, cache =>
    match s.findLeaf true nsid lba 9 root none cache with
    | (.node b, _, cache) =>
      let w := State.walkFrom s nsid root n (lba + 1) cache
      { w with results := walkResult (leafResolve b lba) :: w.results }
    | (f, x, cache) => { stop := f, node := x, results := [], cache := cache }

def catRoot (b : Vec) : Nat := le b 16 8
def catDst (b : Vec) : Nat := le b 24 8
def walkLba (b : Vec) : Nat := le b 32 8
def walkCount (b : Vec) : Nat := le b 40 2
def walkNsid (b : Vec) : Nat := le b 44 4

/-- WALK operands that R276 and R277 refuse. -/
def badWalk (b : Vec) : Bool :=
  decide (2 ^ 48 ≤ catDst b) || catDst b % 16 != 0 || decide (2 ^ 48 ≤ walkLba b) || walkCount b == 0 || decide (512 < walkCount b)
    || le b 42 2 != 0 || decide (2 ^ 48 < walkLba b + walkCount b) || le b 48 8 != 0 || le b 56 8 != 0

/-- The walk a WALK makes. -/
def State.walkOf (s : State) (b : Vec) : Walk := s.walkFrom (walkNsid b) (catRoot b) (walkCount b) (walkLba b) []

/-- Pages that stopped a search. -/
def Found.pages : Found → List Nat
  | .miss p => p
  | _ => []

/-- Count the nodes an assist read. -/
def State.countNodes (u n : Nat) (s : State) : State := s.bump64 (rCatAssist u + 0x8) n

/-- End a command as a search stopped (R277, R279, R281). -/
def State.endSearch (u : Nat) (f : Found) (node : Nat) (c : Cmd) (s : State) : Cmd × State :=
  match f with
  | .node _ => (c.finish stOk, s)
  | .absent => ({ c.finish stNodeAbsent with detail := node }, s.bump (rCatAssist u + 0x10) 1)
  | .corrupt _ => ({ c.finish stNodeCorrupt with detail := node }, s.bump (rCatAssist u + 0x14) 1)
  | .miss _ => ({ c.finish stBusError with detail := 0 }, s)
  | .error k a => ({ c.finish stBusError with detail := 0 }, s.engineError clsCatalogue u (k, a))

/-- The translations a WALK waits for. -/
def walkMisses (c : Cmd) (s : State) : List Nat :=
  s.spanMisses (catDst c.block) (16 * walkCount c.block) true ++ (s.walkOf c.block).stop.pages

/-- Walk, and write the results found before the walk stopped (R277). -/
def State.runWalk (u : Nat) (c : Cmd) (s : State) : Cmd × State :=
  let w := s.walkOf c.block
  let (e, n, s) := (s.countNodes u w.cache.length).writeSpan (engineSource clsCatalogue u) (catDst c.block) (w.results.flatMap id)
  match e with
  | some err => ({ c.finish stBusError with bytes := n }, s.engineError clsCatalogue u err)
  | none => s.endSearch u w.stop w.node { c with bytes := n, detail := w.cache.length }

def execCatWalk (u : Nat) (s : State) : Host.Outcome State Fault Refusal :=
  .next (if u < 4 then s.engineEvent clsCatalogue u 1 (checkBlock badWalk) walkMisses (State.runWalk u) else s)

/-! ### FIND (R267, R278) -/

/-- FIRST_CID and BLOCKS of record `i` of a content leaf. -/
def recordFirst (b : List Byte) (i : Nat) : Nat := leAt b (64 + 384 * i) 8
def recordBlocks (b : List Byte) (i : Nat) : Nat := leAt b (72 + 384 * i) 1 % 16

/-- The record of a content leaf that holds a content ID. -/
def leafRecord (b : List Byte) (cid : Nat) : Option Nat :=
  (List.range (nodeCount b)).find? fun i => decide (recordFirst b i ≤ cid) && decide (cid < recordFirst b i + recordBlocks b i)

/-- FIND operands that R276 refuses. -/
def badFind (b : Vec) : Bool :=
  decide (2 ^ 48 ≤ catDst b) || catDst b % 64 != 0 || decide (le b 32 8 < 2) || le b 40 8 != 0 || le b 48 8 != 0 || le b 56 8 != 0

/-- The leaf a FIND descends to. -/
def State.findOf (s : State) (b : Vec) : Found × Nat × NodeCache := s.findLeaf false 0 (le b 32 8) 9 (catRoot b) none []

/-- The translations a FIND waits for. -/
def findMisses (c : Cmd) (s : State) : List Nat := s.spanMisses (catDst c.block) 384 true ++ (s.findOf c.block).1.pages

/-- Copy the record that holds a content ID (R278). -/
def State.runFind (u : Nat) (c : Cmd) (s : State) : Cmd × State :=
  let b := c.block
  let (f, node, cache) := s.findOf b
  let s := s.countNodes u cache.length
  match f with
  | .node l =>
    match leafRecord l (le b 32 8) with
    | none => (c.finish stNotFound, s)
    | some i =>
      let r := slice l (64 + 384 * i) 384
      if ¬ goodCheck r then s.endSearch u (.corrupt l) node c
      else
        let (e, n, s) := s.writeSpan (engineSource clsCatalogue u) (catDst b) r
        match e with
        | some err => ({ c.finish stBusError with bytes := n }, s.engineError clsCatalogue u err)
        | none => ({ c.finish stOk with bytes := n, detail := (le b 32 8 - recordFirst l i) % 8 }, s)
  | f => s.endSearch u f node c

def execCatFind (u : Nat) (s : State) : Host.Outcome State Fault Refusal :=
  .next (if u < 4 then s.engineEvent clsCatalogue u 2 (checkBlock badFind) findMisses (State.runFind u) else s)

/-! ### PROBE (R223, R278) -/

/-- An index entry's CHECK holds: CRC-32C of bytes 0-59. -/
def goodIndexEntry (e : List Byte) : Bool := leAt e 60 4 == crc32c (slice e 0 60)

/-- The first entry of a bucket with this fingerprint and domain, and how many entries fail their CHECK. -/
def probeBucket (b : List Byte) (fp domain : Nat) : Option Nat × Nat :=
  let es := (List.range 64).map fun i => slice b (64 * i) 64
  ((List.range 64).find? fun i =>
      let e := es.getD i []
      goodIndexEntry e && leAt e 0 32 == fp && leAt e 40 2 % 4096 == domain && leAt e 32 8 != 0,
   (es.filter fun e => ! goodIndexEntry e).length)

def probeTable (b : Vec) : Nat := le b 48 8
def probeBuckets (b : Vec) : Nat := le b 56 4
/-- The bucket a PROBE reads. -/
def probeAddr (b : Vec) : Nat := probeTable b + 4096 * (le b 16 8 % probeBuckets b)

/-- PROBE operands that R276 refuses. -/
def badProbe (b : Vec) : Bool :=
  decide (2 ^ 48 ≤ probeTable b) || probeTable b % 4096 != 0 || probeBuckets b == 0 || decide (4096 ≤ le b 60 4)

/-- The translations a PROBE waits for. -/
def probeMisses (c : Cmd) (s : State) : List Nat := s.spanMisses (probeAddr c.block) 4096 false

/-- Probe one bucket (R278). -/
def State.runProbe (u : Nat) (c : Cmd) (s : State) : Cmd × State :=
  match s.readSpan (engineSource clsCatalogue u) (probeAddr c.block) 4096 with
  | (some err, _, s) => (c.finish stBusError, s.engineError clsCatalogue u err)
  | (none, bs, s) =>
    let (slot, bad) := probeBucket bs (le c.block 16 32) (le c.block 60 4)
    ({ c.finish stOk with detail := slot.getD 0 + (if slot.isSome then 64 else 0) + bad * 256 }, s)

def execCatProbe (u : Nat) (s : State) : Host.Outcome State Fault Refusal :=
  .next (if u < 4 then s.engineEvent clsCatalogue u 3 (checkBlock badProbe) probeMisses (State.runProbe u) else s)

/-! ### SCORE (R280) -/

/-- A scored summary. -/
structure Score where
  quire : Nat
  score : Nat
  v : Nat
  a : Nat
  w : Nat
  index : Nat
  deriving DecidableEq, Repr

/-- Score a weeding summary; none when its STATE is not asked for or its capacity is 0. -/
def scoreOf (now meanPe states i : Nat) (e : List Byte) : Option Score :=
  let cap := leAt e 12 4
  if states / 2 ^ leAt e 4 1 % 2 = 0 ∨ cap = 0 then none
  else
    let v := min 1024 (1024 * leAt e 8 4 / cap)
    let a := min 4095 ((now - leAt e 16 8) / 2 ^ 24)
    let w := min 255 ((leAt e 24 4 - meanPe) / 16)
    some { quire := leAt e 0 4, score := (1024 - v) * (16 + a) / (16 + w), v := v, a := a, w := w, index := i }

/-- Insert a score after those at least as high. -/
def insertScore (x : Score) : List Score → List Score
  | [] => [x]
  | y :: t => if x.score ≤ y.score then y :: insertScore x t else x :: y :: t

/-- The 16 bytes of a result. -/
def Score.bytes (x : Score) : List Byte :=
  leBytes 4 x.quire ++ leBytes 4 x.score ++ leBytes 4 (x.v + x.a * 2 ^ 11 + x.w * 2 ^ 23) ++ leBytes 4 x.index

def scoreTable (b : Vec) : Nat := le b 16 8
def scoreCount (b : Vec) : Nat := le b 32 4
def scoreTopn (b : Vec) : Nat := le b 36 2
def scoreStates (b : Vec) : Nat := le b 52 1

/-- SCORE operands that R276 refuses. -/
def badScore (b : Vec) : Bool :=
  decide (2 ^ 48 ≤ scoreTable b) || scoreTable b % 32 != 0 || decide (2 ^ 48 ≤ catDst b) || catDst b % 16 != 0
    || scoreCount b == 0 || decide (1048576 < scoreCount b) || scoreTopn b == 0 || decide (16 < scoreTopn b) || le b 38 2 != 0
    || decide (scoreStates b &&& 0xF3 ≠ 0) || le b 53 3 != 0 || le b 56 8 != 0

/-- The highest `topn` scores of a table, and how many entries were scored. -/
def scoreAll (b : Vec) (table : List Byte) : List Score × Nat :=
  (pieces 32 table).zipIdx.foldl (fun (acc : List Score × Nat) p =>
    match scoreOf (le b 40 8) (le b 48 4) (scoreStates b) p.2 p.1 with
    | some x => ((insertScore x acc.1).take (scoreTopn b), acc.2 + 1)
    | none => acc) ([], 0)

/-- The translations a SCORE waits for. -/
def scoreMisses (c : Cmd) (s : State) : List Nat :=
  s.spanMisses (scoreTable c.block) (32 * scoreCount c.block) false ++ s.spanMisses (catDst c.block) (16 * scoreTopn c.block) true

/-- The bytes a SCORE writes. -/
def scoreOutput (b : Vec) (table : List Byte) : List Byte := padTo (16 * scoreTopn b) ((scoreAll b table).1.flatMap Score.bytes)

/-- Score a table and write the highest (R280). -/
def State.runScore (u : Nat) (c : Cmd) (s : State) : Cmd × State :=
  let b := c.block
  match s.readSpan (engineSource clsCatalogue u) (scoreTable b) (32 * scoreCount b) with
  | (some err, _, s) => (c.finish stBusError, s.engineError clsCatalogue u err)
  | (none, bs, s) =>
    match s.writeSpan (engineSource clsCatalogue u) (catDst b) (scoreOutput b bs) with
    | (some err, m, s) => ({ c.finish stBusError with bytes := m }, s.engineError clsCatalogue u err)
    | (none, m, s) => ({ c.finish stOk with bytes := m, detail := (scoreAll b bs).2 }, s)

def execCatScore (u : Nat) (s : State) : Host.Outcome State Fault Refusal :=
  .next (if u < 4 then s.engineEvent clsCatalogue u 4 (checkBlock badScore) scoreMisses (State.runScore u) else s)

/-! ### A command that was ended (R281) -/

/-- The bytes an ended command would have written of what it had found by then: an open number of a WALK's results. -/
def State.catOutput (u : Nat) (c : Cmd) (s : State) : List Byte × State :=
  let b := c.block
  if opcodeOf b = 1 then
    let (k, s) := s.openCount (walkCount b)
    let w := s.walkFrom (walkNsid b) (catRoot b) k (walkLba b) []
    (w.results.flatMap id, s.countNodes u w.cache.length)
  else if opcodeOf b = 2 then
    let f := s.findOf b
    let out := match f.1 with
      | .node l => (match leafRecord l (le b 32 8) with
        | some i => slice l (64 + 384 * i) 384
        | none => [])
      | _ => []
    (if goodCheck out then out else [], s.countNodes u f.2.2.length)
  else if opcodeOf b = 4 then
    let (e, bs, s) := s.readSpan (engineSource clsCatalogue u) (scoreTable b) (32 * scoreCount b)
    (if e.isSome then [] else scoreOutput b bs, s)
  else ([], s)

/-- What an assist's command had written when it was ended: an open part of its output. -/
def State.stopCat (u : Nat) (c : Cmd) (s : State) : Cmd × State :=
  let (out, s) := s.catOutput u c
  let (n, s) := s.writeSome (engineSource clsCatalogue u) (catDst c.block) out
  ({ c with bytes := n }, s)

def execCatAssistFence (src u : Nat) (s : State) : Host.Outcome State Fault Refusal :=
  .next (if (src = srcGovernor ∨ src = srcHost) ∧ u < 4 then (s.fenceUnit clsCatalogue u).afterFence src else s)

end Sys2Proof.Machine
end

