-- ==== Sys2Proof/Machine/Pool.lean ====
section
/-! DEFINITION. The free pool of erase groups (R389), the choice of carriers and erase groups for a quire (R290, R301), and the
reservation of flash capacity (R117). -/

namespace Sys2Proof.Machine

/-- An erase group lies in this head's share (R389). -/
def State.inShare (s : State) (g : Nat) : Bool := s.soloMode || g / 2 % 2 == s.headNo

/-- Carrier and erase group that a POSITION or REBUILD_START item names. -/
def groupNamed (item : List Byte) : Option (Nat × Nat) :=
  if leAt item 0 1 = 4 ∧ (leAt item 1 1 = 1 ∨ leAt item 1 1 = 6) then some (leAt item 10 2, leAt item 12 4) else none

/-- Erase groups that a quire record of STATE 1 to 5, or an item on its way, names. -/
def State.namedGroups (s : State) : List (Nat × Nat) :=
  (s.quires.flatMap fun p => if p.2.state = 0 then [] else p.2.pos ++ p.2.targets.map fun t => (t.carrier, t.egroup))
    ++ s.unappliedItems.filterMap groupNamed

/-- The free erase groups of a carrier in this head's share, with a list of those that are named. -/
def State.freeGroups (s : State) (named : List (Nat × Nat)) (number : Nat) : List Nat :=
  match s.serviceSlot number with
  | none => []
  | some slot =>
    let c := s.car slot
    (List.range c.ident.egroups).filter fun g =>
      decide (4 ≤ g) && s.inShare g && ! (c.group g).retired && (c.group g).wp == 0 && ! (c.group g).erasePending
        && ! s.med.grownBad.contains (number, g) && ! named.contains (number, g)

/-- Numbers of the carriers in service. -/
def State.serviceNumbers (s : State) : List Nat := (Sparse.filter (fun _ c => c.inService) s.carriers).map fun p => p.2.number

/-- Effective P/E count of an erase group, in quarters of a cycle (R282). -/
def EGroup.quarters (e : EGroup) : Nat := 4 * e.qlcErases + e.slcErases

/-- Carriers in the drain set of an active reshape (R303, R323). -/
def State.drained (s : State) (number : Nat) : Bool :=
  leAt s.cat.reshape 9 1 % 2 == 1 && leAt s.cat.reshape 16 12 / 2 ^ number % 2 == 1

/-- A reshape is active. -/
def State.reshaping (s : State) : Bool := leAt s.cat.reshape 9 1 % 2 == 1

/-- The quire data width in use: the setting, or TARGET_D of an active reshape (R301, R324, R326). -/
def State.dataWidth (s : State) : Nat := if s.reshaping then leAt s.cat.reshape 8 1 else s.setting 0x0500 0 16

/-- Carriers that qualify for a quire, those with most free groups first, then by number, each with its least-worn free group or,
for a wear-leveling target, its most-worn one (R290, R301). -/
def State.choices (s : State) (worn : Bool) : List (Nat × Nat × Nat) :=
  let named := s.namedGroups
  let all := s.serviceNumbers.filterMap fun n =>
    if s.drained n then none
    else
      let all := s.freeGroups named n
      let wear (g : Nat) : Nat := match s.serviceSlot n with
        | some slot => ((s.car slot).group g).quarters
        | none => 0
      let endurance := match s.serviceSlot n with
        | some slot => (s.car slot).ident.qlcEndurance
        | none => 0
      let free := if worn then all.filter fun g => decide (wear g < 4 * endurance) else all
      let pick := free.foldl (fun (b : Option Nat) g => match b with
        | some x => if (if worn then wear x < wear g else wear g < wear x) then some g else b
        | none => some g) none
      pick.map fun g => (n, g, free.length)
  all.mergeSort fun a b => decide (b.2.2 < a.2.2 ∨ (b.2.2 = a.2.2 ∧ a.1 ≤ b.1))

/-- Page groups of an erase group of a carrier in a mode. -/
def State.groupPages (s : State) (number : Nat) (slc : Bool) : Nat :=
  match s.serviceSlot number with
  | some slot => if slc then (s.car slot).ident.slcPages else (s.car slot).ident.qlcPages
  | none => 0

/-- Bytes of QLC capacity in the free pool of this head. -/
def State.flashFree (s : State) : Nat :=
  let named := s.namedGroups
  (s.serviceNumbers.map fun n => (s.freeGroups named n).length * s.groupPages n false * 65536).foldl (· + ·) 0

/-- Flash bytes reserved for an entry of `n` blocks: data, catalogue entries, and the share of P and Q at the width in use (R117). -/
def State.reservationOf (s : State) (n : Nat) : Nat :=
  let d := n * 4096 + 24 * ((n + 7) / 8)
  let w := max 4 (min s.dataWidth (s.serviceNumbers.length - 2))
  d + (2 * d + w - 1) / w

/-- Flash bytes for the entries that `n` blocks of a command make, 512 blocks each (R115, R117). -/
def State.reservationFor (s : State) (n : Nat) : Nat := n / 512 * s.reservationOf 512 + (if n % 512 = 0 then 0 else s.reservationOf (n % 512))

/-- Flash bytes reserved for the entries still to come of write commands that have allocated their first (R117). -/
def State.pendingReserve (s : State) : Nat :=
  (s.svc.conns.map fun p => ((p.2.cmds.filter fun n => n.opcode == 1 && n.entries != 0).map fun n => s.reservationFor (n.nblk - n.next)).sum).sum

/-- The capacity for `n` blocks of a command can be reserved; the pool it is held against is the model's reading of R117 (log entry 25). -/
def State.canReserve (s : State) (n : Nat) : Bool := decide (s.acc.reserved + s.pendingReserve + s.reservationFor n ≤ s.flashFree)

end Sys2Proof.Machine
end

