-- ==== Sys2Proof/Machine/Rowwork.lean ====
section
/-! DEFINITION. Opening quires (R282, R301), filling and writing rows (R142, R143, R288, R299), and queueing the deltas of entries whose
folios are durable (R144, R226, R227, R469). -/

namespace Sys2Proof.Machine

/-! ### Opening quires -/

/-- A quire number that an item names. -/
def quireNamed (item : List Byte) : Option Nat := if leAt item 0 1 = 4 ∧ leAt item 1 1 ≠ 8 then some (leAt item 4 4) else none

/-- The next quire number of this head: of its parity, above the highest in a record of either head (R300). -/
def State.nextQuire (s : State) : Nat :=
  let high := ((s.unappliedItems ++ s.acc.partner.flatMap CycleRec.items).filterMap quireNamed).foldl max s.med.quireHigh
  if (high + 1) % 2 = s.headNo then high + 1 else high + 2

/-- Quires are opened in SLC mode for placement and checkpoints, in QLC mode for relocations (R282, R283, R284, R338). -/
def slcPurpose (purpose : Nat) : Bool := purpose == 0 || purpose == 5

/-- The landing zone of a carrier, in bytes (R282, R291). -/
def Carrier.landingZone (share : Nat) (c : Carrier) : Nat :=
  let g := c.ident.slcPages * 65536
  share * (c.ident.egroups * c.ident.qlcPages * 65536) / 100 / max 1 g * g

/-- Bytes of SLC capacity in open or closed SLC quires, and the sum of the landing zones. -/
def State.landing (s : State) : Nat × Nat :=
  let used := (s.quires.flatMap fun p => if p.2.slc ∧ p.2.state ≠ 0 ∧ p.2.state ≠ 5 then p.2.pos else []).map fun x => s.groupPages x.1 true * 65536
  let zones := (Sparse.filter (fun _ c => c.inService) s.carriers).map fun p => p.2.landingZone (s.setting 0x0400 0 3)
  (used.foldl (· + ·) 0, zones.foldl (· + ·) 0)

/-- Landing-zone occupancy has reached `percent`. -/
def State.occupancyAtLeast (s : State) (percent : Nat) : Bool := decide (percent * s.landing.2 ≤ 100 * s.landing.1)

/-- The queue of every engine that media work uses, by the PURPOSE of its rows: placement 1; folding 1 from 90% occupancy on, else 3; recovery
of a quire with two failed positions 1, else 3; all other work 3 (R283, R289, R310, R316). -/
def State.mediaQueue (s : State) (purpose : Nat) : Nat :=
  let worst := s.med.relocating.any fun r => r.2 == 6 && decide (2 ≤ countOnes 34 (s.quire r.1).failed)
  if purpose = 0 ∨ (purpose = 1 ∧ s.occupancyAtLeast 90) ∨ (purpose = 6 ∧ worst) then 1 else 3

/-- The carriers and erase groups of a new quire of at most `d` data members, in increasing carrier number (R301). -/
def State.chooseGroups (s : State) (d : Nat) (worn : Bool) (avoid : List Nat) : Option (List (Nat × Nat)) :=
  let c := (s.choices worn).filter fun x => ! avoid.contains x.1
  if c.length < 6 then none
  else
    let w := if c.length < d + 2 then c.length else d + 2
    some (((c.take w).map fun x => (x.1, x.2.1)).mergeSort fun a b => decide (a.1 ≤ b.1))

/-- Queue the POSITION items and the OPENED item of a new quire on chosen erase groups, put into its mode. -/
def State.openOn (purpose : Nat) (pos : List (Nat × Nat)) (s : State) : State :=
  let q := s.nextQuire
  let slc := slcPurpose purpose
  let rows := (pos.map fun x => s.groupPages x.1 slc).foldl min 65536
  let w := pos.length
  let t := s.queueItems ((pos.zipIdx.map fun p => itemPosition q p.2 p.1.1 p.1.2) ++ [itemOpened q w (w - 2) (if slc then 1 else 0) purpose rows])
  pos.foldl (fun t x => t.setGroupMode (s.mediaQueue purpose) x.1 x.2 slc) t

/-- Open a quire of a PURPOSE with `d` data members; none when too few carriers qualify, or for placement while the landing zone is
full (R283, R301). -/
def State.openQuire (purpose d : Nat) (avoid : List Nat) (s : State) : State :=
  if purpose = 0 ∧ s.occupancyAtLeast 100 then s
  else match s.chooseGroups d (purpose == 3) avoid with
    | none => s
    | some pos => if (s.med.quireHigh + 1 < 2 ^ 32) then s.openOn purpose pos else s

/-- An item that closes a quire is on its way. -/
def State.closing (s : State) (q : Nat) : Bool := s.unappliedItems.any fun i => leAt i 0 2 == 0x0404 && leAt i 4 4 == q

/-- A quire of a PURPOSE that takes rows: open, this head's, not closing, with rows left. -/
def State.targetFor (s : State) (purpose : Nat) : Option Nat :=
  (s.quires.find? fun p => p.2.state == 1 && p.2.purpose == purpose && s.ownsQuire p.1 && ! s.closing p.1 && decide (s.rowsNext p.1 < p.2.rows)).map (·.1)

/-- A quire of a PURPOSE is on its way. -/
def State.opening (s : State) (purpose : Nat) : Bool := s.unappliedItems.any fun i => leAt i 0 2 == 0x0204 && leAt i 11 1 == purpose

/-- Have a quire of a PURPOSE opened unless one is open or on its way. -/
def State.ensureQuire (purpose : Nat) (s : State) : State :=
  if (s.targetFor purpose).isSome ∨ s.opening purpose then s else s.openQuire purpose s.dataWidth []

/-- The erase of a free group fails while a quire is being opened: it is retired at once, and the quire takes another (R288). -/
def State.failErase (queue : Nat) (g : Nat × Nat) (s : State) : State :=
  match s.serviceSlot g.1 with
  | some slot =>
    if (s.freeGroups s.namedGroups g.1).contains g.2 then
      ((s.useSequencer slot queue).modCar slot (Carrier.eraseNow g.2 false)).countMedia g.1 0x0106
    else s
  | none => s

/-- Opening a quire of a PURPOSE: 0 placement, 1 fold, 2 weeding, 3 wear leveling, 4 reshape, 6 recovery. -/
def execQuireOpen (o : QuireOpening) (s : State) : Host.Outcome State Fault Refusal :=
  .next (if s.managesMedia ∧ o.purpose ≤ 6 ∧ o.purpose ≠ 5 then
      (o.failed.foldl (fun t g => t.failErase (s.mediaQueue o.purpose) g) s).ensureQuire o.purpose
    else s)

/-! ### Entries whose folios are durable (R144) -/

/-- Where an entry lies: this head's numbers in its own region, adopted ones in the mirror (R452). -/
def State.entryBase (s : State) (no : Nat) : Nat := if no % 2 = s.headNo then s.ownBase else s.mirrorBase

/-- A block of an entry is superseded: an entry of higher number covers it, or covered it and has been freed (R122, R144). -/
def State.superseded (s : State) (nsid lba no : Nat) : Bool :=
  let covers (base : Nat) := (s.headers base).any fun h => decide (2 ≤ h.state) && decide (no < h.no) && h.covers nsid lba
  covers s.ownBase || covers s.mirrorBase
    || s.acc.left.any fun e => decide (no < e.1) && e.2.1 == nsid && decide (e.2.2.1 ≤ lba) && decide (lba < e.2.2.1 + e.2.2.2)

/-- A MAP item grows by a block: same group, kind and standing, and the next content ID. -/
def joins (a : Nat × Mapped × Bool) (n : Nat) (b : Nat × Mapped × Bool) : Bool :=
  groupOf a.1 == groupOf b.1 && b.1 == a.1 + n && a.2.2 == b.2.2 && (match a.2.1, b.2.1 with
    | .cid x, .cid y => y == x + n
    | x, y => x == y)

/-- Split blocks into runs that one MAP item can carry. -/
def mapRuns : List (Nat × Mapped × Bool) → List (List (Nat × Mapped × Bool))
  | [] => []
  | b :: t =>
    match mapRuns t with
    | (c :: r) :: rest => if joins b 1 c then (b :: c :: r) :: rest else [b] :: (c :: r) :: rest
    | other => [b] :: other

/-- The MAP item of a run. -/
def runItem (nsid : Nat) : List (Nat × Mapped × Bool) → List Byte
  | [] => []
  | (lba, m, sup) :: t =>
    let (flags, cid) := match m with
      | .zero => (2, 0)
      | .unreadable => (4, 0)
      | .unmapped => (8, 0)
      | .cid n => (0, n)
    itemMap (flags + if sup then 1 else 0) ((2 ^ (t.length + 1) - 1) * 2 ^ (lba % 8)) nsid (groupOf lba) cid

/-- A snapshot of the namespace at a cycle below the entry's is ordered and not queued yet (R469). -/
def State.snapshotBlocks (s : State) (nsid cycle : Nat) : Bool := s.snp.orders.any fun o => ! o.queued && o.nsid == nsid && decide (o.n < cycle)

/-- The content IDs an entry depends on are queued or applied. -/
def State.dependsMet (s : State) (e : Staged) : Bool := ! e.depends.any fun cid => s.acc.staged.any fun x => x.allocated.contains cid

/-- Take an entry off the ledger's hands: its freed notice is queued and its STATE is PLACED. -/
def State.noteFreed (no : Nat) (s : State) : State :=
  let t := s.modHeader (s.entryBase no) no fun h => { h with state := 4 }
  { t with acc := { t.acc with openFreed := t.acc.openFreed ++ [no] } }

/-- Queue the deltas of a staged entry. -/
def State.queueStaged (e : Staged) (s : State) : State :=
  let blocks := e.blocks.map fun b => (b.1, b.2, s.superseded e.nsid b.1 e.no)
  let t := s.queueItems (e.contents ++ (mapRuns blocks).map (runItem e.nsid))
  ({ t with acc := { t.acc with staged := t.acc.staged.filter fun x => x.no != e.no } } : State).noteFreed e.no

/-- Drop what placement of an entry has done, and of every entry that depends on it: they are placed again (R145, R226, R227). -/
def State.unstage : Nat → Nat → State → State
  | 0, _, s => s
  | fuel + 1, no, s =>
    match s.acc.staged.find? fun e => e.no == no with
    | none => s
    | some e =>
      let keep (f : Folio) : Bool := ! e.allocated.contains f.firstCid
      let rows := s.acc.rows.map fun r => { r with folios := r.folios.filter keep }
      let stats := setNth 10 (s.acc.stats.getD 10 0 + 1) s.acc.stats
      let index := s.med.index.filter fun x => ! (x.pending && e.allocated.contains x.cid)
      let staged := s.acc.staged.filter fun x => x.no != no
      let acc : Accession :=
        { s.acc with staged := staged, rows := rows, stats := stats, spent := s.acc.spent.filter keep, waiting := s.acc.waiting.filter keep }
      let s := { s with acc := acc, med := { s.med with index := index } }
      (s.acc.staged.filter fun x => x.depends.any fun d => e.allocated.contains d).foldl (fun t x => t.unstage fuel x.no) s

/-- Queue one staged entry that may go, if there is one. -/
def State.settleOne (s : State) : Option State :=
  match s.acc.staged.find? fun e => decide (32768 < s.acc.openCycle - e.decided) with
  | some e => some (s.unstage 64 e.no)
  | none =>
    match s.acc.staged.find? fun e => e.waits.isEmpty && s.dependsMet e
        && ! s.snapshotBlocks e.nsid (((s.header (s.entryBase e.no) e.no).map Header.cycle).getD 0)
        && decide (s.deltas.length + e.contents.length + e.blocks.length ≤ 32768) with
    | some e => some (s.queueStaged e)
    | none => none

/-- Queue every staged entry that may go; at most `fuel`. -/
def State.settleStaged : Nat → State → State
  | 0, s => s
  | fuel + 1, s => match s.settleOne with
    | some t => t.settleStaged fuel
    | none => s

/-! ### Rows (R142, R143, R288) -/

/-- The rows being written in a command: the state, and for each row in turn the positions whose program fails. -/
structure Press where
  s : State
  fails : List (List Nat)
  deriving DecidableEq, Repr

/-- The next row's failed positions. -/
def Press.next (p : Press) : List Nat × Press := (p.fails.headD [], { p with fails := p.fails.drop 1 })

/-- Offsets of folios after a summary of their count (R297). -/
def folioOffsets : Nat → List Folio → List (Nat × Folio)
  | _, [] => []
  | o, f :: t => (o, f) :: folioOffsets (o + up16 f.bytes.length) t

/-- Bytes a row of these folios takes. -/
def rowNeed (l : List Folio) : Nat := summaryLen l.length + (l.map fun f => up16 f.bytes.length).foldl (· + ·) 0

/-- The data space of a row: summary, folios, filler. -/
def State.rowData (s : State) (q : Nat) (l : List Folio) : List Byte :=
  let x := s.quire q
  let placed := folioOffsets (summaryLen l.length) l
  let sum := summaryBytes 1 s.headNo q (s.rowsNext q) s.acc.openCycle s.arrayId x.d x.w false 0 (placed.map fun p => folioEntry p.1 p.2)
  padTo (x.d * 65536) (placed.foldl (fun b p => patch b p.1 p.2.bytes) (padTo (rowNeed l) sum))

/-- The shelfmark of a folio at an offset of a row. -/
def shelfAt (q row off n : Nat) : Shelf := { quire := q, row := row, member := off / 65536, offset := off % 65536, length := n }

/-- A folio is durable: a moved one queues its MOVE, a new one joins the deltas of its entry (R144, R285, R319). -/
def State.folioDurable (f : Folio) (shelf : Shelf) (s : State) : State :=
  match f.moveFrom with
  | some old => s.queueItems (itemMove old f.firstCid shelf f.revision :: if f.repair then [itemLost false f.firstCid] else [])
  | none =>
    let items := itemContent f.blocks f.position f.domain f.keyGen f.firstCid shelf f.chainPrev :: f.digests
    let take (e : Staged) : Staged :=
      if e.waits.contains f.firstCid then { e with contents := e.contents ++ items, waits := e.waits.filter fun c => c != f.firstCid } else e
    { s with acc := { s.acc with staged := s.acc.staged.map take } }

/-- A second program failure on an erase group closes the quire at its last durable row and marks the group grown-bad (R288). -/
def State.noteFailures (q : Nat) (failed : List Nat) (s : State) : State :=
  let x := s.quire q
  failed.foldl (fun t p =>
    let (c, g) := x.pos.getD p (0xFFFF, 0)
    match t.serviceSlot c with
    | some slot =>
      if ((t.car slot).group g).failed.length < 2 then t
      else
        let t := if t.closing q then t else t.queueItems [itemClosed q (t.durableRows q)]
        { t with med := { t.med with grownBad := if t.med.grownBad.contains (c, g) then t.med.grownBad else t.med.grownBad ++ [(c, g)] } }
    | none => t) s

/-- Write the open row of a quire: durable, or abandoned with its folios in the next row (R143, R288, R299). -/
def Press.writeRow (q : Nat) (p : Press) : Press :=
  match p.s.acc.rows.find? fun r => r.quire == q with
  | none => p
  | some r =>
    let s := { p.s with acc := { p.s.acc with rows := p.s.acc.rows.filter fun r => r.quire != q } }
    if r.folios.isEmpty then { p with s := s }
    else
      let x := s.quire q
      let row := s.rowsNext q
      let (failed, p) := p.next
      let (ok, t) := s.programRow (s.mediaQueue x.purpose) q failed (s.rowData q r.folios)
      if ok then
        let t := (folioOffsets (summaryLen r.folios.length) r.folios).foldl (fun t e => t.folioDurable e.2 (shelfAt q row e.1 e.2.bytes.length)) t
        let t := t.queueItems [itemRows q (row + 1)]
        { p with s := (if x.rows ≤ row + 1 then t.queueItems [itemClosed q (row + 1)] else t).settleStaged 1024 }
      else
        let t := ({ t with med := { t.med with abandoned := t.med.abandoned ++ [(q, row)] } } : State).noteFailures q failed
        let t := if x.rows ≤ row + 1 ∧ ¬ t.closing q then t.queueItems [itemClosed q (t.durableRows q)] else t
        if t.targetFor x.purpose = some q then
          { p with s := { t with acc := { t.acc with rows := t.acc.rows ++ [{ quire := q, since := t.elapsed, folios := r.folios }] } } }
        else { p with s := { t with acc := { t.acc with waiting := r.folios ++ t.acc.waiting } } }

/-- Put a folio into the open row of a quire of its purpose; a row it no longer fits is written first. Without a quire it waits, and
one is opened. At most `fuel` rows are written. -/
def Press.addFolio (f : Folio) : Nat → Press → Press
  | 0, p => { p with s := { p.s with acc := { p.s.acc with waiting := p.s.acc.waiting ++ [f] } } }
  | fuel + 1, p =>
    match p.s.targetFor f.purpose with
    | none => { p with s := ({ p.s with acc := { p.s.acc with waiting := p.s.acc.waiting ++ [f] } }).ensureQuire f.purpose }
    | some q =>
      match p.s.acc.rows.find? fun r => r.quire == q with
      | none => { p with s := { p.s with acc := { p.s.acc with rows := p.s.acc.rows ++ [{ quire := q, since := p.s.elapsed, folios := [f] }] } } }
      | some r =>
        if rowNeed (r.folios ++ [f]) ≤ (p.s.quire q).d * 65536 then
          { p with s := { p.s with acc := { p.s.acc with
              rows := mapWhere (fun r => r.quire == q) (fun r => { r with folios := r.folios ++ [f] }) p.s.acc.rows } } }
        else (p.writeRow q).addFolio f fuel

/-- Put the folios that wait for a quire into rows again. -/
def Press.drainWaiting (p : Press) : Press :=
  let w := p.s.acc.waiting
  w.foldl (fun p f => p.addFolio f 4) { p with s := { p.s with acc := { p.s.acc with waiting := [] } } }

/-- The row pad age (R142, R151). -/
def State.padAge (s : State) (since : Word64) : Nat := s.settingAt 0x0104 0 1000000 since

/-- An open row reaches the row pad age and is written; `failed` are the positions whose program fails. -/
def execRowPadAgeExpiry (q : Nat) (failed : List Nat) (s : State) : Host.Outcome State Fault Refusal :=
  .next (if s.acc.rows.any (fun r => r.quire == q && decide (s.padAge r.since ≤ s.elapsed.toNat - r.since.toNat)) ∧ s.managesMedia then
      (Press.mk s [failed]).drainWaiting.writeRow q |>.s
    else s)

end Sys2Proof.Machine
end

