-- ==== Sys2Proof/Machine/Erase.lean ====
section
/-! DEFINITION. Erasing and retiring erase groups (R286, R288, R345), and requests to the other head for groups of its share (R404). -/

namespace Sys2Proof.Machine

/-- Retire a group of a carrier in service. -/
def State.retireGroup (carrier egroup : Nat) (s : State) : State :=
  match s.serviceSlot carrier with
  | none => s
  | some slot => (s.useSequencer slot 3).modCar slot (Carrier.modGroup egroup fun e => { e with retired := true })

/-- Erase a group of a carrier in service; a grown-bad one is retired instead (R288). `ok`: the erase completes with OK. -/
def State.wipeGroup (carrier egroup : Nat) (ok : Bool) (s : State) : State :=
  match s.serviceSlot carrier with
  | none => s
  | some slot =>
    let e := (s.car slot).group egroup
    if s.med.grownBad.contains (carrier, egroup) then s.retireGroup carrier egroup
    else if e.retired ∨ (e.wp = 0 ∧ ¬ e.erasePending) then s
    else
      let t := (s.useSequencer slot 3).modCar slot (Carrier.eraseNow egroup ok)
      if ok then t else t.countMedia carrier 0x0106

/-- A group still holds data of a freed quire, or is due for retirement. -/
def State.groupDue (s : State) (carrier egroup : Nat) : Bool :=
  match s.serviceSlot carrier with
  | none => false
  | some slot =>
    let e := (s.car slot).group egroup
    ! e.retired && (e.wp != 0 || e.erasePending || s.med.grownBad.contains (carrier, egroup))

/-- Some quire record in STATE 1 to 4 other than one quire's names a group (R345). -/
def State.groupInUse (s : State) (q carrier egroup : Nat) : Bool :=
  s.quires.any fun p => p.1 != q && decide (1 ≤ p.2.state) && decide (p.2.state ≤ 4)
    && (p.2.pos.contains (carrier, egroup) || p.2.targets.any fun t => t.carrier == carrier && t.egroup == egroup)

/-- A quire's groups may be erased on this head: FREED is applied and so durable, no MOVE out of it is on its way, and no read holds
it (R345). -/
def State.eraseReady (s : State) (q : Nat) : Bool :=
  (s.quire q).state == 5 && (s.quire q).pins == 0
    && ! s.unappliedItems.any fun i => leAt i 0 1 == 3 && leAt i 4 4 == q

/-- An erase or retire request as a message. -/
def EraseReq.bytes (r : EraseReq) : List Byte := leBytes 4 r.quire ++ leBytes 2 r.carrier ++ leBytes 4 r.egroup ++ leBytes 1 (if r.retire then 1 else 0)
/-- A request read from a message. -/
def EraseReq.ofBytes (b : List Byte) (now : Word64) : EraseReq :=
  { quire := leAt b 0 4, carrier := leAt b 4 2, egroup := leAt b 6 4, retire := leAt b 10 1 % 2 == 1, sentAt := now }
/-- Two requests are for the same group. -/
def EraseReq.same (a b : EraseReq) : Bool := a.quire == b.quire && a.carrier == b.carrier && a.egroup == b.egroup && a.retire == b.retire

/-- Send a request to the other head unless one is out (R404). -/
def State.askErase (q carrier egroup : Nat) (retire : Bool) (s : State) : State :=
  let r : EraseReq := { quire := q, carrier := carrier, egroup := egroup, retire := retire, sentAt := s.elapsed }
  if s.eraseOut.any r.same then s else ({ s with eraseOut := s.eraseOut ++ [r] } : State).tellPartner msgErase r.bytes

/-- Erase a group of a freed quire, or have the head of its share do so. -/
def State.eraseOne (q carrier egroup : Nat) (ok : Bool) (s : State) : State :=
  if ¬ s.groupDue carrier egroup ∨ s.groupInUse q carrier egroup then s
  else if s.inShare egroup then s.wipeGroup carrier egroup ok
  else s.askErase q carrier egroup (s.med.grownBad.contains (carrier, egroup))

/-- Retire a group whose position was rebuilt, or have the head of its share do so (R317, R404). -/
def State.retireOne (q carrier egroup : Nat) (s : State) : State :=
  if (s.serviceSlot carrier).isNone then s
  else if s.inShare egroup then s.retireGroup carrier egroup
  else s.askErase q carrier egroup true

/-- Erase the groups of a freed quire of this head. `failed` are the positions whose erase fails. -/
def execEraseAfterFree (q : Nat) (failed : List Nat) (s : State) : Host.Outcome State Fault Refusal :=
  .next (if s.eraseReady q ∧ s.ownsQuire q ∧ s.hlt.mode ≠ .safe then
      let x := s.quire q
      let t := x.pos.zipIdx.foldl (fun t g => t.eraseOne q g.1.1 g.1.2 (! failed.contains g.2)) s
      x.targets.foldl (fun t g => t.eraseOne q g.carrier g.egroup (! failed.contains g.position)) t
    else s)

/-- Do what the other head asked, once R345 holds here too; the outcome is reported. -/
def State.serveErase (r : EraseReq) (s : State) : State :=
  let done (t : State) : State :=
    ({ t with eraseIn := t.eraseIn.filter fun x => ! r.same x } : State).tellPartner msgErased r.bytes
  if r.retire then done (s.retireGroup r.carrier r.egroup)
  else if s.eraseReady r.quire ∧ ¬ s.groupInUse r.quire r.carrier r.egroup then done (s.wipeGroup r.carrier r.egroup true)
  else s

/-- A request of the other head arrives; it waits in SAFE and RESTORE (R404). -/
def State.takeErase (r : EraseReq) (s : State) : State :=
  let s := if s.eraseIn.any r.same then s else { s with eraseIn := s.eraseIn ++ [r] }
  if s.hlt.mode = .safe ∨ s.hlt.mode = .restore then s else s.serveErase r

/-- Serve the requests that wait. -/
def State.serveErases (s : State) : State :=
  if s.hlt.mode = .safe ∨ s.hlt.mode = .restore then s else s.eraseIn.foldl (fun t r => t.serveErase r) s

/-- The other head reports a request done: the group, of its share, is erased or retired. -/
def State.erased (r : EraseReq) (s : State) : State :=
  let s := { s with eraseOut := s.eraseOut.filter fun x => ! r.same x }
  if r.retire then s.retireGroup r.carrier r.egroup else s.wipeGroup r.carrier r.egroup true

/-- An unanswered request is sent again every 100 ms. -/
def execEraseRequestRepeat (s : State) : Host.Outcome State Fault Refusal :=
  .next (match s.eraseOut.find? fun r => decide (100000000 ≤ s.elapsed.toNat - r.sentAt.toNat) with
    | some r => ({ s with eraseOut := mapWhere r.same (fun x => { x with sentAt := s.elapsed }) s.eraseOut } : State).tellPartner msgErase r.bytes
    | none => s)

end Sys2Proof.Machine
end

