-- ==== Sys2Proof/Machine/Nodes.lean ====
section
/-! DEFINITION. The bytes of catalogue and content nodes, content records (R266, R268, R269), quire records (R302) and the state block
(R339) as checkpoints store them. -/

namespace Sys2Proof.Machine

/-- Bytes with CRC-32C at byte 60, computed with those four bytes taken as zero. -/
def withCheck (b : List Byte) : List Byte := patch b 60 (leBytes 4 (crc32c (patch b 60 (zeros 4))))

/-! ### Content records (R266) -/

/-- The 384 bytes of a content record. -/
def Content.bytes (f : Nat) (x : Content) : List Byte :=
  withCheck (leBytes 8 f ++ leBytes 1 (x.blocks % 16 + x.position % 8 * 16) ++ leBytes 1 ((if x.lost then 1 else 0) + if x.nextPresent then 2 else 0)
    ++ leBytes 1 x.released ++ leBytes 1 (x.profile % 4) ++ leBytes 2 (x.domain % 4096) ++ leBytes 2 x.revision ++ leBytes 4 x.keyGen
    ++ leBytes 4 x.chainPrev ++ x.shelf.bytes ++ leBytes 8 x.created ++ zeros 20 ++ padTo 256 ((x.digests.take x.blocks).flatMap (padTo 32))
    ++ padTo 32 ((x.counts.take x.blocks).flatMap (leBytes 4)) ++ zeros 32)

/-! ### Catalogue leaves (R269) -/

/-- A leaf entry of a block; none where it has no mapping. -/
def leafEntryBytes (lba : Nat) (m : Mapped) (touched : Bool) : List Byte :=
  let e (unreadable cid : Nat) := leBytes 6 lba ++ leBytes 1 1 ++ leBytes 1 (unreadable + if touched then 2 else 0) ++ leBytes 8 cid
  match m with
  | .unmapped => []
  | .zero => e 0 1
  | .unreadable => e 1 0
  | .cid n => e 0 n

/-- The block that stands outside the run of a folio entry: where two would do, the later one (log entry 164). -/
def folioExc (l : List Mapped) : Option Nat :=
  if rising (mappedCids l) then none
  else (List.range 8).reverse.find? fun i => (match l.getD i .unmapped with | .cid _ => true | _ => false) && rising (mappedCids (setNth i .unmapped l))

/-- Bits of the blocks that `p` picks. -/
def blockBits (p : Nat → Bool) : Nat := ((List.range 8).map fun i => if p i then 2 ^ i else 0).foldl (· + ·) 0

/-- The 32 bytes of a folio entry. -/
def folioEntryBytes (g : Group) : List Byte :=
  let exc := folioExc g.blocks
  let at_ (i : Nat) := g.blocks.getD i .unmapped
  let cid (i : Nat) : Nat := match at_ i with | .cid n => n | _ => 0
  let run (i : Nat) : Bool := decide (2 ≤ cid i) && exc != some i
  let base := match (List.range 8).find? run with
    | some i => cid i
    | none => 0
  leBytes 6 g.lba ++ leBytes 1 2 ++ leBytes 1 (blockBits run) ++ leBytes 8 base ++ leBytes 1 (blockBits fun i => at_ i == .zero)
    ++ leBytes 1 (blockBits fun i => at_ i == .unreadable) ++ leBytes 1 g.heat
    ++ leBytes 1 (match exc with | some i => i + 8 | none => 0) ++ zeros 2 ++ leBytes 1 3 ++ zeros 1
    ++ leBytes 8 (match exc with | some i => cid i | none => 0)

/-- The slots of a group. -/
def Group.bytes (g : Group) : List Byte :=
  if g.folio then folioEntryBytes g
  else (List.range 8).flatMap fun i => leafEntryBytes (g.lba + i) (g.blocks.getD i .unmapped) (g.touched.getD i false)

/-! ### Nodes (R268) -/

/-- KIND of a node. -/
def CatNode.kind (x : CatNode) : Nat := (if x.content then 2 else 0) + if x.level = 0 then 2 else 1
/-- COUNT of a node. -/
def CatNode.count (x : CatNode) : Nat := if x.level ≠ 0 then x.kids.length else if x.content then x.recs.length else leafSlots x.groups

/-- The 4,096 bytes of a node under its number; `shelf` gives the stored copy of each child (R268). -/
def Catalogue.nodeBytes (c : Catalogue) (shelf : Nat → Shelf) (n : Nat) : List Byte :=
  let x := c.node n
  let body :=
    if x.level ≠ 0 then x.kids.flatMap fun k => leBytes 8 k.1 ++ leBytes 8 k.2 ++ (shelf k.2).bytes ++ zeros 4
    else if x.content then x.recs.flatMap fun f => (c.record f).bytes f
    else x.groups.flatMap Group.bytes
  withCheck (padTo 4096 (leBytes 1 x.kind ++ leBytes 1 x.level ++ leBytes 2 x.count ++ leBytes 4 x.nsid ++ leBytes 8 n ++ leBytes 4 x.epoch
    ++ leBytes 4 x.view ++ zeros 40 ++ body))

/-- Every node under a root, each after its children (R338). -/
def Catalogue.nodesUp (c : Catalogue) : Nat → Nat → List Nat
  | 0, n => [n]
  | f + 1, n => ((c.node n).kids.flatMap fun k => c.nodesUp f k.2) ++ [n]

/-! ### The quire table (R302) -/

/-- The 384 bytes of a quire's record; `state` is 4 while it is under relocation. -/
def Quire.bytes (q state : Nat) (x : Quire) : List Byte :=
  let pos (i : Nat) : List Byte := match x.pos[i]? with
    | .some g => leBytes 2 g.1 ++ leBytes 4 g.2 ++ zeros 2
    | .none => zeros 8
  let target (i : Nat) : List Byte := match x.targets[i]? with
    | .some t => leBytes 1 t.position ++ zeros 1 ++ leBytes 2 t.carrier ++ leBytes 4 t.egroup
    | .none => leBytes 1 0xFF ++ zeros 7
  withCheck (leBytes 4 q ++ leBytes 1 state ++ leBytes 1 ((if x.slc then 1 else 0) + x.purpose % 8 * 2) ++ leBytes 1 x.d ++ leBytes 1 x.w
    ++ leBytes 4 x.rows ++ leBytes 4 x.rowsDone ++ leBytes 8 x.openCycle.toNat ++ leBytes 8 x.closeCycle.toNat ++ leBytes 8 x.validBytes
    ++ leBytes 8 (x.failed % 2 ^ 34) ++ zeros 16 ++ (List.range 34).flatMap pos ++ (List.range 2).flatMap target ++ zeros 32)

/-! ### The state block (R339) -/

/-- The highest generation of a domain, 0xFFFF_FFFF for none, from one above it. -/
def genField (n : Nat) : List Byte := leBytes 4 (if n = 0 then m32 else n - 1)

/-- The 48 bytes of a namespace of the state block. -/
def Catalogue.namespaceBytes (c : Catalogue) (shelf : Nat → Shelf) (nsid : Nat) (n : Namespace) : List Byte :=
  let root := ((c.live nsid).map (·.root)).getD 0
  leBytes 4 nsid ++ leBytes 1 (n.profile % 4) ++ zeros 3 ++ leBytes 2 (n.domain % 4096) ++ zeros 6 ++ leBytes 8 n.size ++ leBytes 8 root
    ++ (shelf root).bytes ++ zeros 4

/-- The 128 bytes of a view (R466). -/
def View.bytes (shelf : Nat → Shelf) (v : View) : List Byte :=
  let b := leBytes 4 v.view ++ leBytes 4 v.nsid ++ leBytes 1 v.kind ++ leBytes 1 (if v.deleting then 2 else 1) ++ leBytes 1 (if v.isSealed then 1 else 0)
    ++ zeros 1 ++ leBytes 4 v.successor ++ leBytes 8 v.cycle ++ leBytes 8 v.root ++ (shelf v.root).bytes ++ zeros 4 ++ leBytes 8 v.manifestAt
    ++ zeros 8 ++ padTo 32 v.label ++ zeros 28
  b ++ leBytes 4 (crc32c (b ++ zeros 4))

/-- The state block; the place of the dedup index's tier 2 is private to the programs that keep it (R222, R339, R466). -/
def Catalogue.stateBlock (c : Catalogue) (shelf : Nat → Shelf) (tier2 : List Byte) : List Byte :=
  let views := c.views.mergeSort fun a b => decide (a.view ≤ b.view)
  withCheck (leBytes 4 0x54534B54 ++ leBytes 2 1 ++ zeros 2 ++ leBytes 4 c.namespaces.length ++ zeros 4 ++ padTo 12 tier2 ++ zeros 36
    ++ ((List.range 4096).flatMap fun d => genField (Sparse.get 0 d c.gens0) ++ genField (Sparse.get 0 d c.gens1))
    ++ (c.namespaces.flatMap fun p => c.namespaceBytes shelf p.1 p.2)
    ++ leBytes 4 views.length ++ leBytes 4 c.nextView ++ zeros 56 ++ views.flatMap (View.bytes shelf))

end Sys2Proof.Machine
end

