-- ==== Sys2Proof/Machine/Landing.lean ====
section
/-! DEFINITION. I/O commands: landing of writes (R114 to R121), Write Zeroes and Dataset Management (R368), Flush (R378), Read (R360,
R361), and data PDUs (R380). -/

namespace Sys2Proof.Machine

/-! ### Commands of a queue -/

/-- A command of a connection in service. -/
def State.ncmd (s : State) (c cid : Nat) : Option NCmd := (s.conn c).cmds.find? fun n => n.cid == cid
/-- Change a command. -/
def State.modCmd (c cid : Nat) (f : NCmd → NCmd) (s : State) : State :=
  s.modConn c fun x => { x with cmds := mapWhere (fun n => n.cid == cid) f x.cmds }
/-- Take a command into service. -/
def State.addCmd (c : Nat) (n : NCmd) (s : State) : State := s.modConn c fun x => { x with cmds := x.cmds ++ [n] }

/-- A command just begun. -/
def NCmd.start (cid opcode nsid slba nblk : Nat) : NCmd :=
  { cid := cid, opcode := opcode, nsid := nsid, slba := slba, nblk := nblk, ranges := [], unmap := false, capsule := [], fails := 0, next := 0, entries := 0,
    landing := none, cycle := none, failed := none }

/-! ### Landing (R119, R120) -/

/-- Writes of some namespaces that are not yet appended end with a status (R379, R460, R511). -/
def State.endLoose (st : Nat) (p : Nat → Bool) (s : State) : State :=
  let due := s.svc.conns.flatMap fun x => (x.2.cmds.filter fun n => n.writes && n.cycle.isNone && p n.nsid).map fun n => (x.1, n.cid)
  due.foldl (fun t w => t.failWrite w.1 w.2 st) s

/-- The status with which a write to a namespace ends before it is appended, if it must (R148, R372, R379, R475). -/
def State.landRefusal (s : State) (nsid : Nat) : Option Nat :=
  match s.namespace? nsid with
  | none => some nsInvalidNs
  | some n =>
    if s.snp.replicas.contains nsid then some nsDenied
    else if s.hlt.mode = .quiesce ∧ s.hlt.form = .drained then some nsNotReady
    else if s.handing then some nsTransition
    else if s.acc.running ∧ s.holdsSet n.groupB then none else some nsTransition

/-- Append an entry whose copies are complete to the open cycle. -/
def State.append (no : Nat) (s : State) : State :=
  match s.ownHeader no with
  | none => s
  | some h =>
    let listed := headerCheck { h with state := 2, cycle := 0 }
    let s := s.mirrorEntry no
    let s := s.putHeader s.ownBase { h with state := 2, cycle := s.acc.openCycle }
    { s with acc := { s.acc with openEntries := s.acc.openEntries ++ [(no, listed, h.nblk)] } }

/-- Entries that are allocated and not appended yet. -/
def State.landingCount (s : State) : Nat := (s.svc.conns.map fun p => (p.2.cmds.filter fun n => n.landing.isSome).length).sum

/-- The open cycle has room for `k` entries more (R125, R130; log entry 161). -/
def State.openRoom (s : State) (k : Nat) : Bool := decide (s.acc.openEntries.length + s.landingCount + k ≤ 16384)

/-- Room for an entry: entry table, data area and dump reserve, the hold-up is ready, and the open cycle has an entry left for it (R118,
R332, R333). -/
def State.mayAllocate (s : State) (n : Nat) : Bool :=
  s.roomFor n && s.pwr.holdupReady && s.openRoom 1

/-- Hold a command until space returns (R118). -/
def State.hold' (c cid : Nat) (s : State) : State :=
  if s.acc.held.contains (c, cid) then s else { s with acc := { s.acc with held := s.acc.held ++ [(c, cid)] } }

/-- Ask the host for an entry's data: R2T with the entry's tag, offset in the command's data and length. -/
def State.askData (c cid no off len : Nat) (s : State) : State :=
  s.sendPdu c 9 (leBytes 2 cid ++ leBytes 2 (no / 2 % 65536) ++ leBytes 4 off ++ leBytes 4 len ++ zeros 4) []

/-- The command has landed its last entry. -/
def NCmd.landed (cycle : Nat) (n : NCmd) : NCmd := { n with cycle := some cycle, landing := none }

/-- Go on with a write command: its next entry is allocated, or the command is held, or it has landed whole. NO_DATA entries land at
once; at most `fuel` entries. -/
def State.advanceWrite (c cid : Nat) : Nat → State → State
  | 0, s => s
  | fuel + 1, s =>
    match s.ncmd c cid with
    | none => s
    | some n =>
      if n.landing.isSome ∨ n.cycle.isSome then s
      else if n.nblk ≤ n.next then
        (match n.ranges with
        | r :: t => (s.modCmd c cid fun n => { n with slba := r.1, nblk := r.2, next := 0, ranges := t }).advanceWrite c cid fuel
        | [] => if n.entries = 0 then s.respond c cid 0 nsSuccess else s.modCmd c cid (NCmd.landed s.acc.openCycle))
      else match s.landRefusal n.nsid, s.namespace? n.nsid with
        | some st, _ => s.failWrite c cid st
        | none, none => s
        | none, some ns =>
          let k := min 512 (n.nblk - n.next)
          let data := n.opcode == 1
          let slots := if data then k else 0
          if ¬ s.mayAllocate slots then s.hold' c cid
          else if data ∧ n.entries = 0 ∧ ¬ s.canReserve n.nblk then s.failWrite c cid nsCapacity
          else
            let h : Header := { no := 0, cycle := 0, slba := n.slba + n.next, nsid := n.nsid, nblk := k, state := 1, noData := ! data,
                                profile := ns.profile, off := 0, domain := ns.domain }
            let (no, s) := s.allocate h slots (some (c, cid)) n.unmap (if data then s.reservationOf k else 0)
            let s := s.modCmd c cid fun n => { n with next := n.next + k, entries := n.entries + 1, landing := if data then some no else none }
            if ¬ data then (s.append no).advanceWrite c cid fuel
            else if n.capsule.isEmpty then s.askData c cid no (4096 * n.next) (4096 * k)
            else if 4 ≤ n.fails then s.failWrite c cid nsTransient
            else
              let a := s.ownBase + (((s.ownHeader no).map Header.off).getD 0)
              ((((s.performWrite a (n.capsule.map fun b => (true, b))).useDma 0 n.capsule.length).append no).modCmd c cid fun n =>
                { n with landing := none }).advanceWrite c cid fuel

/-- Entries a command can have: 1,024 blocks, or 256 ranges of up to 2³² blocks, in 512s. -/
def entryFuel (n : NCmd) : Nat := ((n.nblk :: n.ranges.map (·.2)).map fun k => k / 512 + 2).foldl (· + ·) 2

/-- Begin or go on with a write command. -/
def State.goOn (c cid : Nat) (s : State) : State :=
  match s.ncmd c cid with
  | some n => s.advanceWrite c cid (entryFuel n)
  | none => s

/-- Space has returned: the command held longest is taken up again (R118). -/
def execBufferSpaceReturn (s : State) : Host.Outcome State Fault Refusal :=
  .next (match s.acc.held with
    | [] => s
    | (c, cid) :: t =>
      match s.ncmd c cid with
      | none => { s with acc := { s.acc with held := t } }
      | some n =>
        let k := if n.opcode = 1 then min 512 (n.nblk - n.next) else 0
        if s.mayAllocate k then { s with acc := { s.acc with held := t } }.goOn c cid else s)

/-! ### Data (R119, R121, R380) -/

/-- The entry whose data a tag asks for: its command, entry number and header. -/
def State.dataFor (s : State) (c tag : Nat) : Option (NCmd × Nat × Header) :=
  (s.conn c).cmds.findSome? fun n => match n.landing with
    | some no => if no / 2 % 65536 = tag then (s.ownHeader no).map fun h => (n, no, h) else none
    | none => none

/-- The data of an entry is whole: with `fails` failed copies in a row, four of them end the command; else it lands. -/
def State.dataWhole (c cid no fails : Nat) (s : State) : State :=
  match s.ncmd c cid with
  | none => s
  | some n =>
    match s.landRefusal n.nsid with
    | some st => s.failWrite c cid st
    | none =>
      let s := s.useDma 0 (4096 * (((s.ownHeader no).map Header.nblk).getD 0))
      if 4 ≤ fails then s.failWrite c cid nsTransient
      else ((s.append no).modCmd c cid fun n => { n with landing := none }).goOn c cid

/-- Take data into an entry's slots at an offset of the entry. -/
def State.intake (no : Nat) (h : Header) (o : Nat) (data : List Byte) (s : State) : State :=
  (s.performWrite (s.ownBase + h.off + o) (data.map fun b => (true, b))).modRing no fun e => { e with received := e.received + data.length }

/-- An H2CData PDU: `fails` counts the copies of R119 that failed in a row when it completes an entry. -/
def execH2cData (c tag off : Nat) (data : List Byte) (last plenOk headerOk dataOk : Bool) (fails : Nat) (s : State) :
    Host.Outcome State Fault Refusal :=
  .next (let x := s.conn c
    let s := s.heardPdu c
    if ¬ x.ready ∨ x.ended then s
    else if ¬ headerOk then (s.nvtError 0x100 c).terminate c 3
    else if ¬ plenOk then (s.nvtError 2 c).terminate c 1
    else if 131072 < data.length then (s.nvtError 0x103 c).terminate c 5
    else match s.dataFor c tag with
      | none => (s.nvtError 2 c).terminate c 4
      | some (n, no, h) =>
        let base := 4096 * (h.slba - n.slba)
        let got := ((s.ringEntry no).map RingEntry.received).getD 0
        let whole := 4096 * h.nblk
        if off < base ∨ base + whole < off + data.length then (s.nvtError 2 c).terminate c 4
        else if last ∧ got + data.length < whole then (s.nvtError 2 c).terminate c 4
        else if ¬ dataOk then (s.nvtError 0x101 c).failWrite c n.cid nsDataDigest
        else
          let t := s.intake no h (off - base) data
          if got + data.length < whole then t else t.dataWhole c n.cid no fails)

/-! ### Write, Write Zeroes, Dataset Management -/

/-- Blocks inside a namespace. -/
def State.inRange (s : State) (nsid slba nblk : Nat) : Bool := decide (slba + nblk ≤ (Sparse.get Namespace.none nsid s.cat.namespaces).size)

/-- A Write: `data` is the data in its capsule, `sgl` the length its SGL gives, `dataOk` whether the data digest holds, and
`fails` how many copies of that data fail in a row (R121). -/
def execNvmeWrite (c cid nsid slba nblk : Nat) (data : Option (List Byte)) (sgl : Nat) (dataOk : Bool) (fails : Nat) (s : State) :
    Host.Outcome State Fault Refusal :=
  .next (s.onNamespace c cid nsid false (fun s =>
    if ¬ s.basesSet then s.respond c cid 0 nsNotReady
    else if nblk = 0 ∨ 1024 < nblk then s.respond c cid 0 nsInvalidField
    else if ¬ s.inRange nsid slba nblk then s.respond c cid 0 nsRange
    else match data with
      | none => (s.addCmd c (NCmd.start cid 1 nsid slba nblk)).goOn c cid
      | some b =>
        if b.length ≠ sgl ∨ b.length ≠ 4096 * nblk ∨ 8192 < b.length then (s.nvtError 2 c).respond c cid 0 nsSglLength
        else if ¬ dataOk then (s.nvtError 0x101 c).respond c cid 0 nsDataDigest
        else (s.addCmd c { NCmd.start cid 1 nsid slba nblk with capsule := b, fails := fails }).goOn c cid))

def execWriteZeroes (c cid nsid slba nblk : Nat) (deac : Bool) (s : State) : Host.Outcome State Fault Refusal :=
  .next (s.onNamespace c cid nsid false (fun s =>
    if ¬ s.basesSet then s.respond c cid 0 nsNotReady
    else if nblk = 0 ∨ 65536 < nblk then s.respond c cid 0 nsInvalidField
    else if ¬ s.inRange nsid slba nblk then s.respond c cid 0 nsRange
    else (s.addCmd c { NCmd.start cid 8 nsid slba nblk with unmap := deac }).goOn c cid))

/-- Dataset Management: `ranges` are first block and blocks; without attribute AD nothing is deallocated. -/
def execDatasetManagement (c cid nsid : Nat) (ad : Bool) (ranges : List (Nat × Nat)) (s : State) : Host.Outcome State Fault Refusal :=
  .next (s.onNamespace c cid nsid false (fun s =>
    if ¬ s.basesSet then s.respond c cid 0 nsNotReady
    else if ranges.isEmpty ∨ 256 < ranges.length then s.respond c cid 0 nsInvalidField
    else if ranges.any fun r => ! s.inRange nsid r.1 r.2 then s.respond c cid 0 nsRange
    else if ¬ ad then s.respond c cid 0 nsSuccess
    else (s.addCmd c { NCmd.start cid 9 nsid 0 0 with unmap := true, ranges := ranges }).goOn c cid))

/-! ### Flush (R378) -/

/-- Flush of one namespace or of all: it completes when no write command submitted before it is left. -/
def State.flush (c cid nsid : Nat) (s : State) : State :=
  let t := s.addCmd c (NCmd.start cid 0 nsid 0 0)
  if (flushesDue (t.conn c).cmds).contains cid then t.respond c cid 0 nsSuccess else t

def execNvmeFlush (c cid nsid : Nat) (s : State) : Host.Outcome State Fault Refusal :=
  .next (if nsid = 0xFFFFFFFF then s.onQueue c cid false (fun _ s => s.flush c cid nsid)
    else s.onNamespace c cid nsid false (fun s => s.flush c cid nsid))

/-! ### Read (R351, R360, R361) -/

/-- An entry of the error information log; the log holds one (R361, R369). -/
def State.logError (c cid st lba nsid : Nat) (s : State) : State :=
  let id := ((s.conn c).ctrl).getD 0
  { s with svc := { s.svc with errors := (id, c, cid, st, lba, nsid) :: s.svc.errors } }

/-- Serve a read whose blocks can be decided now. -/
def State.serveRead (c cid nsid slba nblk : Nat) (seen : Seen) (s : State) : State :=
  let (data, bad, t) := s.readRange seen nsid slba nblk
  let t := t.sendData' c cid data
  match bad with
  | none => t.respond c cid 0 nsSuccess
  | some (lba, st) => (t.logError c cid st lba nsid).respond c cid 0 st

/-- A Read; one that needs flash while the owner secret is not accepted stays in service, and NVME_READ with its connection and
command ID takes it up again (R353, log entry 32). -/
def execNvmeRead (c cid nsid slba nblk : Nat) (seen : Seen) (s : State) : Host.Outcome State Fault Refusal :=
  .next (match s.ncmd c cid with
    | some n =>
      if n.opcode = 2 ∧ s.kpr.owner = .accepted ∧ ¬ (s.conn c).ended then s.serveRead c cid n.nsid n.slba n.nblk seen else s
    | none => s.onNamespace c cid nsid true (fun s =>
      if nblk = 0 ∨ 1024 < nblk then s.respond c cid 0 nsInvalidField
      else if ¬ s.inRange nsid slba nblk then s.respond c cid 0 nsRange
      else if s.kpr.owner ≠ .accepted ∧ (List.range nblk).any (fun i => s.needsFlash nsid (slba + i)) then
        s.addCmd c (NCmd.start cid 2 nsid slba nblk)
      else (s.addCmd c (NCmd.start cid 2 nsid slba nblk)).serveRead c cid nsid slba nblk seen))

end Sys2Proof.Machine
end

