-- ==== Sys2Proof/Machine/Placement.lean ====
section
/-! DEFINITION. Placement (R135 to R145): fingerprints and dedup (R137, R138, R224), content IDs (R139), folios and chains (R140),
coding, encryption (R141, R252, R257) and rows. -/

namespace Sys2Proof.Machine

/-- Count one in the dedup statistics (R234). -/
def State.stat (i : Nat) (s : State) : State := { s with acc := { s.acc with stats := setNth i (s.acc.stats.getD i 0 + 1) s.acc.stats } }

/-! ### Content IDs (R139) -/

/-- A content ID from which 512 more of a confirmed batch of this head follow. -/
def State.cidsFrom (s : State) (c : Nat) : Bool :=
  let b := c / 65536
  b % 2 == s.headNo && decide (1 ≤ b) && decide (b ≤ s.acc.ownBatch) && decide (c % 65536 + 512 ≤ 65536)

/-- The next batch of this head's parity above the highest batch either head has claimed. -/
def State.nextBatch (s : State) : Nat :=
  let high := max s.acc.batchClaimed s.acc.batchConfirmed
  if (high + 1) % 2 = s.headNo then high + 1 else high + 2

/-- Make 512 content IDs ready: true when they are, else a batch is claimed and its confirmation awaited. -/
def State.readyCids (s : State) : Bool × State :=
  if s.cidsFrom s.acc.nextCid then (true, s)
  else
    let c := s.acc.batchClaimed * 65536
    if s.acc.nextCid < c ∧ s.cidsFrom c then (true, { s with acc := { s.acc with nextCid := c } })
    else if s.acc.ownBatch < s.acc.batchClaimed then (false, s)
    else (false, { s with acc := { s.acc with batchClaimed := s.nextBatch } })

/-- Take the next content ID. -/
def State.takeCid (s : State) : Nat × State := (s.acc.nextCid, { s with acc := { s.acc with nextCid := s.acc.nextCid + 1 } })

/-! ### Dedup decisions (R137, R224, R225, R228) -/

/-- Index entries whose CHECK fails are treated as empty, and counted (R223, R234). -/
def State.dropBad (bad : List (Nat × Nat)) (s : State) : State :=
  bad.foldl (fun t b =>
    if t.med.index.any (fun e => e.tier == b.1 && e.cid == b.2) then
      ({ t with med := { t.med with index := t.med.index.filter fun e => ! (e.tier == b.1 && e.cid == b.2) } } : State).stat 11
    else t) s

/-- Count a match in a tier: a tombstone or a LOST entry is none (R224, R234). -/
def State.countHit (i : Nat) (e : DedupEntry) (s : State) : State := if e.tomb || e.lost then s else s.stat i

/-- Tier 2 is read: its version is one this image knows, or it has been rebuilt (R222). -/
def State.tierTwo (s : State) : Bool := s.med.tier2Known

/-- The index entry of a fingerprint in tiers 0 and 1; one found in tier 1 is copied to tier 0, clean. -/
def State.probeMemory (domain : Nat) (fp : List Byte) (s : State) : Option DedupEntry × State :=
  match s.probeTier 0 domain fp with
  | some e => (some e, s.countHit 2 e)
  | none =>
    if ¬ s.tierOne then (none, s)
    else match s.probeTier 1 domain fp with
      | some e => (some e, (s.insertEntry { e with dirty := false }).countHit 3 e)
      | none => (none, s)

/-- The index entry of a fingerprint, tier 2 included unless its read was abandoned. -/
def State.lookup (tier2 : Bool) (domain : Nat) (fp : List Byte) (s : State) : Option DedupEntry × State :=
  match s.probeMemory domain fp with
  | (some e, t) => (some e, t)
  | (none, t) =>
    match if t.tierTwo then t.probeTier 2 domain fp else none with
    | none => (none, t)
    | some e => if tier2 then (some e, (t.insertEntry { e with dirty := false }).countHit 4 e) else (none, t.stat 6)

/-- A block's lookup must read tier 2: the membership filter covers it exactly (log entry 33). -/
def State.needsTier2 (s : State) (domain : Nat) (fp : List Byte) : Bool :=
  (s.probeTier 0 domain fp).isNone && (! s.tierOne || (s.probeTier 1 domain fp).isNone) && s.tierTwo && (s.probeTier 2 domain fp).isSome

/-- The fingerprint of a domain's all-zero block (R214). -/
def State.zeroPrint (s : State) (domain : Nat) : List Byte := fingerprint (s.digestKey domain) (zeros 4096)

/-- One survivor: logical block, content ID, bytes and fingerprint. -/
structure Survivor where
  lba : Nat
  cid : Nat
  data : List Byte
  fp : List Byte
  deriving DecidableEq, Repr

/-- The block of a content ID that has no record yet: a survivor of this entry, or a block of an entry in placement that its buffer still
holds (R138). -/
def State.pendingBlock (seen : Seen) (mine : List Survivor) (cid : Nat) (s : State) : Option (List Byte) × State :=
  match mine.find? fun x => x.cid == cid with
  | some x => (some x.data, s)
  | none => match s.acc.staged.find? fun e => e.allocated.contains cid with
    | none => (none, s)
    | some e => match e.blocks.find? (fun b => b.2 == .cid cid), s.header (s.entryBase e.no) e.no with
      | some b, some h => s.entryBlock seen (s.entryBase e.no) h b.1
      | _, _ => (none, s)

/-- The candidate block of a match, retrieved for comparison; none when it cannot be read. -/
def State.candidate (seen : Seen) (mine : List Survivor) (cid : Nat) (s : State) : Option (List Byte) × State :=
  match s.cat.firstOf cid with
  | none => s.pendingBlock seen mine cid
  | some _ => match s.fetchCid seen cid with
    | (.ok b, t) => (some b, t)
    | (_, t) => (none, t)

/-- A match counts: trusted, or in ARCHIVE compared with the candidate's bytes (R137, R228). -/
def State.confirmMatch (seen : Seen) (archive : Bool) (mine : List Survivor) (block : List Byte) (e : DedupEntry) (s : State) : Bool × State :=
  if ¬ archive then (true, s)
  else match s.candidate seen mine e.cid with
    | (some b, t) => if b = block then (true, t.stat 7) else (false, t.stat 8)
    | (none, t) => (false, t.stat 9)

/-- Placement of an entry as it goes on: what its blocks map to, its survivors, and the pending content IDs it depends on. -/
structure Placing where
  s : State
  blocks : List (Nat × Mapped)
  survivors : List Survivor
  depends : List Nat
  deriving DecidableEq, Repr

/-- A block maps to something known. -/
def Placing.map (lba : Nat) (m : Mapped) (p : Placing) : Placing := { p with blocks := p.blocks ++ [(lba, m)] }

/-- A block is a survivor: a new content ID, whose PENDING entry goes into tier 0. -/
def Placing.survive (lba domain : Nat) (data fp : List Byte) (p : Placing) : Placing :=
  let (cid, s) := p.s.takeCid
  let e : DedupEntry := { fp := fp, cid := cid, domain := domain, tier := 0, pending := true, dirty := true, tomb := false, lost := false,
                          cycle := s.acc.openCycle }
  let q : Placing := { p with s := s.insertEntry e, survivors := p.survivors ++ [{ lba := lba, cid := cid, data := data, fp := fp }] }
  q.map lba (.cid cid)

/-- Decide one block. -/
def Placing.decide (seen : Seen) (tier2 archive : Bool) (domain lba : Nat) (data : List Byte) (p : Placing) : Placing :=
  let fp := fingerprint (p.s.digestKey domain) data
  let s := p.s.stat 0
  if fp = s.zeroPrint domain ∧ (¬ archive ∨ data = zeros 4096) then ({ p with s := s.stat 1 } : Placing).map lba .zero
  else
    let (e, s) := s.lookup tier2 domain fp
    match e with
    | none => ({ p with s := s } : Placing).survive lba domain data fp
    | some e =>
      if e.tomb ∨ e.lost then ({ p with s := s } : Placing).survive lba domain data fp
      else
        let (same, s) := s.confirmMatch seen archive p.survivors data e
        if ¬ same then ({ p with s := s } : Placing).survive lba domain data fp
        else
          let own := p.survivors.any fun x => x.cid == e.cid
          let p := { p with s := s, depends := if e.pending ∧ ¬ own then p.depends ++ [e.cid] else p.depends }
          p.map lba (.cid e.cid)

/-- Decide the blocks of an entry in block order; one that neither buffer can deliver becomes unreadable, with a deferred error
(R136, R149). -/
def Placing.blocks' (seen : Seen) (tier2 : Bool) (base : Nat) (h : Header) : Nat → Nat → Placing → Placing
  | 0, _, p => p
  | n + 1, lba, p =>
    let (b, s) := p.s.entryBlock seen base h lba
    let p := match b with
      | some data => ({ p with s := s } : Placing).decide seen tier2 (h.profile == 0) h.domain lba data
      | none => ({ p with s := s.recordDeferred h.nsid lba lba h.no h.cycle } : Placing).map lba .unreadable
    p.blocks' seen tier2 base h n (lba + 1)

/-! ### Folios and chains (R140) -/

/-- Survivors that make one folio: the same aligned group, consecutive blocks and content IDs. -/
def folioRuns (g : Nat) : List Survivor → List (List Survivor)
  | [] => []
  | b :: t =>
    match folioRuns g t with
    | (c :: r) :: rest => if c.lba = b.lba + 1 ∧ c.cid = b.cid + 1 ∧ c.lba / g = b.lba / g then (b :: c :: r) :: rest else [b] :: (c :: r) :: rest
    | other => [b] :: other

/-- Where a chain stands: the position of its last folio, that folio's FIRST_CID, the block after it, and the coder context. -/
structure ChainEnd where
  position : Nat
  first : Nat
  nextLba : Nat
  ctx : CoderCtx
  deriving DecidableEq, Repr

/-- The command block of an ENCODE as the programs issue it: CHAIN_START, LEFT_ONLY and LINK (R157, R180). -/
def encodeBlock (start leftOnly : Bool) (link : Nat) : Vec :=
  BitVec.ofNat 512 (1 + ((if start then 1 else 0) + (if leftOnly then 16 else 0)) * 2 ^ 384 + link * 2 ^ 448)

/-- What coding a folio gave: the released bytes, its chain position, the context after it, and the outcome 0 coded, 1 raw, 2 raw because
verification differed (R164, R165). -/
structure Coded where
  bytes : List Byte
  position : Nat
  after : CoderCtx
  outcome : Nat
  deriving DecidableEq, Repr

/-- What a lane counts for the folio. -/
def Coded.counted (input : Nat) (x : Coded) : Nat × Nat × Nat := (input, x.bytes.length, x.outcome)

/-- Code one folio as a coder lane does, verification included: PROMPT codes left-only (R135, R146, R161 to R165). -/
def codeStep (profile link : Nat) (start : Bool) (data : List Byte) (ctx : CoderCtx) : Coded :=
  let b := encodeBlock start (profile == 2) link
  let j := codeJob b { LaneJob.start with input := data } ctx none
  let j := { j with verdict := some (verifies j) }
  { bytes := releasedForm b j, position := if j.agreed then j.position else 0, after := if j.agreed then j.after else CoderCtx.reset,
    outcome := j.released }

/-- Code a folio in a profile: ARCHIVE continues a chain of up to 8 folios without a gap; the others are independent (R140, R146). -/
def codeRun (h : Header) (run : List Survivor) (last : Option ChainEnd) : (Folio × Coded) × ChainEnd :=
  let first := ((run.head?).map Survivor.cid).getD 0
  let lba := ((run.head?).map Survivor.lba).getD 0
  let on_ := last.filter fun c => h.profile == 0 && c.nextLba == lba && decide (c.position < 7)
  let x := codeStep h.profile (first % 2 ^ 32) on_.isNone (run.flatMap Survivor.data) ((on_.map ChainEnd.ctx).getD CoderCtx.reset)
  (({ firstCid := first, blocks := run.length, position := x.position, profile := h.profile, domain := h.domain, keyGen := 0,
      chainPrev := if x.position = 0 then 0 else first - (on_.map ChainEnd.first).getD first, revision := 0, bytes := x.bytes,
      digests := run.map Survivor.fp, moveFrom := none, repair := false, purpose := 0 }, x),
   { position := x.position, first := first, nextLba := lba + run.length, ctx := x.after })

/-- Code the folios of an entry in order. A placement pass is one entry: no folio and no chain goes past it (log entry 34). -/
def codeRuns (h : Header) : List (List Survivor) → Option ChainEnd → List (Folio × Coded)
  | [], _ => []
  | r :: t, last => let (f, e) := codeRun h r last; f :: codeRuns h t (some e)

/-! ### Encryption (R141, R252, R257) -/

/-- The write slot of a domain on this head, and its generation. -/
def State.writeSlot (s : State) (domain : Nat) : Option (Nat × Nat) :=
  (s.med.slots.find? fun x => x.2.1 == domain && x.2.2.2).map fun x => (x.1, x.2.2.1)

/-- Encrypt a folio under a slot; none when a claim is refused (R246, R252). -/
def State.encryptWith (i q : Nat) (f : Folio) (s : State) : Option (List Byte) × State :=
  let c := s.cslot i
  match s.claimUses i (folioBlockCount f.bytes.length) with
  | (false, t) => (none, t)
  | (true, t) => (some (xts false c.halfA c.halfB (folioSeq f.firstCid f.revision) f.bytes), (t.useXts false q f.bytes.length).touchSlot i)

/-- Encrypt a folio under its domain's write slot; none when the slot is spent or there is none (R141, R246). -/
def State.encryptFolio (f : Folio) (s : State) : Option Folio × State :=
  match s.writeSlot f.domain with
  | none => (none, s)
  | some (i, g) => match s.encryptWith i 1 f with
    | (some bytes, t) => (some { f with bytes := bytes, keyGen := g }, t)
    | (none, t) => (none, t)

/-- Encrypt a folio and put it into a row, or hold it for KEY_SPENT. -/
def Press.takeFolio (f : Folio) (p : Press) : Press :=
  match p.s.encryptFolio f with
  | (some f, t) => ({ p with s := t } : Press).addFolio f 4
  | (none, t) => { p with s := { t with acc := { t.acc with spent := t.acc.spent ++ [f] } } }

/-! ### One entry (R135) -/

/-- The entry placement takes next: the lowest CONFIRMED one that is not staged; adopted ones in SOLO (R452). -/
def State.nextToPlace (s : State) : Option (Nat × Header) :=
  let fit (base : Nat) := ((s.headers base).filter fun h => h.state == 3 && h.nsid != segmentNsid
    && ! s.acc.staged.any (fun e => e.no == h.no) && ! s.acc.openFreed.contains h.no).map fun h => (base, h)
  let all := fit s.ownBase ++ if s.soloMode then fit s.mirrorBase else []
  all.foldl (fun (b : Option (Nat × Header)) p => match b with
    | some x => if p.2.no < x.2.no then some p else b
    | none => some p) none

/-- Decide an entry's blocks, form its folios and stage it. -/
def Press.placeBlocks (seen : Seen) (tier2 : Bool) (base : Nat) (h : Header) (p : Press) : Press :=
  let pl : Placing := { s := p.s, blocks := [], survivors := [], depends := [] }
  let pl := if h.noData then
      { pl with blocks := (List.range h.nblk).map fun i => (h.slba + i, if p.s.entryUnmaps h.no then Mapped.unmapped else Mapped.zero) }
    else pl.blocks' seen tier2 base h h.nblk h.slba
  let runs := folioRuns (if h.profile = 2 then 2 else 8) pl.survivors
  let folios := codeRuns h runs none
  let e : Staged := { no := h.no, nsid := h.nsid, domain := h.domain, decided := p.s.acc.openCycle, blocks := pl.blocks, contents := [],
                      allocated := pl.survivors.map Survivor.cid, waits := folios.map (·.1.firstCid), depends := pl.depends }
  let s := { pl.s with acc := { pl.s.acc with staged := pl.s.acc.staged ++ [e], tier2Wait := none } }
  let s := if h.noData then s
    else ((s.useDigest 1 64 h.nblk).useAssist 1 h.nblk).useCoder 1 (folios.map fun f => f.2.counted (4096 * f.1.blocks))
  let p := folios.foldl (fun p f => p.takeFolio f.1) { p with s := s }
  { p with s := p.s.settleStaged 1024 }

/-- Place an entry. While the domain's digest slot is empty its FINGERPRINT ends with KEY_EMPTY, and it is repeated at the next turn
(R208). With `tier2` none and a tier-2 read needed, the read is begun and the entry waits for it (R224). One entry is one placement pass
(DESIGN CHOICE, log entry 170). -/
def State.place (seen : Seen) (fails : List (List Nat)) (tier2 : Option Bool) (base : Nat) (h : Header) (s : State) : State :=
  if (Sparse.get Namespace.none h.nsid s.cat.namespaces).size = 0 then s.noteFreed h.no
  else if ¬ h.noData ∧ (s.digestKey h.domain).isEmpty then s.useDigest 1 64 h.nblk
  else
    let (ready, s) := (s.dropBad seen.badEntries).readyCids
    let p := (Press.mk s fails).drainWaiting
    if ¬ ready then s
    else if (p.s.targetFor 0).isNone then p.s.ensureQuire 0
    else
      let needs := ! h.noData && (List.range h.nblk).any fun i => match (p.s.entryBlock seen base h (h.slba + i)).1 with
        | some b => p.s.needsTier2 h.domain (fingerprint (p.s.digestKey h.domain) b)
        | none => false
      if needs ∧ tier2.isNone then { p.s with acc := { p.s.acc with tier2Wait := some (h.no, p.s.elapsed) } }
      else (p.placeBlocks seen (tier2.getD true) base h).s

/-- The entry whose placement waits for tier 2. -/
def State.waitingEntry (s : State) : Option (Nat × Header × Word64) :=
  match s.acc.tier2Wait with
  | none => none
  | some (no, t) => (s.header (s.entryBase no) no).map fun h => (s.entryBase no, h, t)

/-- Placement runs while the head is in service, knows its keys and has the engine units it needs. -/
def State.mayPlace (s : State) : Bool := s.managesMedia && s.basesSet && s.kpr.owner == .accepted && s.placementUnits

/-- Placement starts over with every entry not yet freed when a core of the role has been fenced (R64). -/
def State.startOver (s : State) : State :=
  if s.acc.restart then
    (let t := (s.acc.staged.map (·.no)).foldl (fun t no => t.unstage 64 no) s
     { t with acc := { t.acc with restart := false, tier2Wait := none } })
  else s

/-- PLACE_ENTRY: `fails` are, for each row written in turn, the positions whose program fails. An entry whose tier-2 reads are out
goes on with their results. -/
def execPlaceEntry (seen : Seen) (fails : List (List Nat)) (s : State) : Host.Outcome State Fault Refusal :=
  .next (if ¬ s.mayPlace then s
    else let s := s.startOver; match s.waitingEntry with
      | some (base, h, _) => s.place seen fails (some true) base h
      | none => match s.nextToPlace with
        | some (base, h) => s.place seen fails none base h
        | none => (Press.mk s fails).drainWaiting.s)

/-- The tier-2 deadline passes: the reads are abandoned, and the blocks are survivors (R224, R235). -/
def execTier2Deadline (seen : Seen) (fails : List (List Nat)) (s : State) : Host.Outcome State Fault Refusal :=
  .next (if ¬ s.mayPlace then s
    else match s.waitingEntry with
      | some (base, h, t) => if s.settingAt 0x0202 0 200000 t ≤ s.elapsed.toNat - t.toNat then s.place seen fails (some false) base h else s
      | none => s)

/-! ### Key generations (R141, R257) -/

/-- Generations of a domain that this head has recorded, in the journal or on the way to it. -/
def State.recordedGens (s : State) (domain : Nat) : List Nat :=
  let own := Sparse.get 0 domain (if s.headNo = 0 then s.cat.gens0 else s.cat.gens1)
  (if own = 0 then [] else [own - 1]) ++ s.unappliedItems.filterMap fun i =>
    if leAt i 0 1 = 5 ∧ leAt i 2 2 = domain ∧ leAt i 4 4 % 2 = s.headNo then some (leAt i 4 4) else none

/-- The next generation of this head's parity. -/
def State.nextGen (s : State) (domain : Nat) : Nat :=
  match s.recordedGens domain with
  | [] => s.headNo
  | l => l.foldl max 0 + 2

/-- The generation of a domain that is recorded and not loaded yet. -/
def State.pendingGen (s : State) (domain : Nat) : Option Nat := (s.med.gens.find? fun x => x.1 == domain).map (·.2)

/-- A generation's KEYGEN item is in the journal: it no longer waits for the record that carries it to be confirmed. -/
def State.genJournalled (s : State) (domain g : Nat) : Bool :=
  ! (s.deltas ++ (s.acc.own.filter fun r => ! r.confirmed).flatMap CycleRec.items).contains (itemKeyGen domain g)

/-- Steps 3 and 4 of R257: the generation is loaded into a free slot, which becomes the write slot, and the old one is retired. -/
def State.takeGeneration (domain g : Nat) (s : State) : State :=
  match s.fillSlot domain g false true with
  | (none, s) => s
  | (some i, t) =>
    let old := (t.med.slots.filter fun x => x.2.1 == domain && x.2.2.2 && x.1 != i).map (·.1)
    let u := old.foldl (fun t k => t.retireSlot k) t
    { u with med := { u.med with slots := u.med.slots.map (fun x => if old.contains x.1 then (x.1, x.2.1, x.2.2.1, false) else x),
                                 gens := u.med.gens.filter fun x => x.1 != domain } }

/-- A new generation: it is recorded, and once the journal holds it, loaded and taken into use (R257). -/
def State.newGeneration (domain : Nat) (s : State) : State :=
  match s.pendingGen domain with
  | none =>
    let g := s.nextGen domain
    let t := s.queueItems [itemKeyGen domain g]
    { t with med := { t.med with gens := t.med.gens ++ [(domain, g)] } }
  | some g => if s.genJournalled domain g then s.takeGeneration domain g else s

/-- The write slot's count has reached 15/16 of its limit, or the domain has no write slot yet. -/
def State.generationDue (s : State) (domain : Nat) : Bool :=
  match s.writeSlot domain with
  | none => true
  | some (i, _) => decide (15 * (s.cslot i).limit ≤ 16 * (s.cslot i).use)

def execNewKeyGeneration (domain : Nat) (s : State) : Host.Outcome State Fault Refusal :=
  .next (if domain < 4096 ∧ s.mayPlace ∧ s.generationDue domain then s.newGeneration domain else s)

/-- The folios held for a domain's key are sent again from encryption (R141). -/
def execHeldFoliosResend (domain : Nat) (fails : List (List Nat)) (s : State) : Host.Outcome State Fault Refusal :=
  .next (if ¬ s.mayPlace ∨ (s.writeSlot domain).isNone then s
    else
      let mine := s.acc.spent.filter fun f => f.domain == domain
      let p : Press := { s := { s with acc := { s.acc with spent := s.acc.spent.filter fun f => f.domain != domain } }, fails := fails }
      (mine.foldl (fun p f => p.takeFolio f) p).s)

end Sys2Proof.Machine
end

