-- ==== Sys2Proof/Machine/Checkpoints.lean ====
section
/-! DEFINITION. Checkpoints (R333, R337 to R341) and the application of ledger cycles with what follows from it (R230, R284, R349,
R470). -/

namespace Sys2Proof.Machine

/-! ### Checkpoints -/

/-- The highest SEQ of a checkpoint of the pair that this head knows. -/
def State.checkpointSeq (s : State) : Nat := (s.med.checkpoints.map (·.seq)).foldl max 0

/-- Highest ENTRY_NO of either head that this head had allocated, mirrored or seen (R340). -/
def State.entryHigh (s : State) : Nat :=
  (s.headerNumbers s.ownBase ++ s.headerNumbers s.mirrorBase).foldl max (max s.acc.entrySeen (s.acc.nextEntry - 2))

/-- Quires needed for a dump reserve of 24 GiB, at most 32; how many to open is the model's choice (R332, R333; log entry 37). -/
def reserveCount (space : Nat) : Nat := min 32 ((24 * 2 ^ 30 + space - 1) / max 1 space)

/-- Open a new dump reserve: quires of PURPOSE 5 with D = min(32, carriers in service - 2). Their numbers come back. -/
def State.openReserve (s : State) : List Nat × State :=
  let d := min 32 (s.serviceNumbers.length - 2)
  let rows := (s.serviceNumbers.map fun n => s.groupPages n true).foldl min 65536
  let step (p : List Nat × State) : List Nat × State :=
    match p.2.chooseGroups d false [] with
    | none => p
    | some pos => (p.1 ++ [p.2.nextQuire], p.2.openOn 5 pos)
  (List.range (reserveCount (rows * (d * 65536 - 4096)))).foldl (fun p _ => step p) ([], s)

/-- D of a checkpoint quire: with 12 or more carriers in service its width is at most half of them (R305). -/
def State.checkpointWidth (s : State) : Nat :=
  let n := s.serviceNumbers.length
  min 32 ((if 12 ≤ n then n / 2 else n) - 2)

/-- The number of a checkpoint quire that is opened outside the carriers of another one, where 12 or more are in service (R305, R338). -/
def State.openCheckpointQuire (other : List Nat) (s : State) : List Nat × State :=
  let avoid := if 12 ≤ s.serviceNumbers.length then other else []
  match s.chooseGroups s.checkpointWidth false avoid with
  | none => ([], s)
  | some pos => ([s.nextQuire], s.openOn 5 pos)

/-- Carriers of a quire's positions, from its record or from the items that open it. -/
def State.carriersOf (s : State) (q : Nat) : List Nat :=
  (s.quire q).pos.map (·.1) ++ s.unappliedItems.filterMap fun i => if leAt i 0 2 = 0x0104 ∧ leAt i 4 4 = q then some (leAt i 10 2) else none

/-- Head 0's checkpoint quire for a checkpoint, once its OPENED is applied: the first of PURPOSE 5 that it opened after C (R338). -/
def State.firstOfHead0 (s : State) (c : Checkpoint) : Option Nat :=
  (s.quires.find? fun p => p.2.state == 1 && p.2.purpose == 5 && p.1 % 2 == 0 && decide (c.cycle < p.2.openCycle.toNat)).map (·.1)

/-- Open the checkpoint quires of a checkpoint that has none: head 0 and a SOLO head at once, head 1 once it has applied head 0's OPENED. A SOLO
head opens a second one for table copy B. -/
def State.openForCheckpoint (c : Checkpoint) (s : State) : Checkpoint × State :=
  if c.own ≠ [] then (c, s)
  else if s.soloMode then
    let (a, t) := s.openCheckpointQuire []
    let (b, u) := t.openCheckpointQuire (a.flatMap t.carriersOf)
    ({ c with own := a, second := b.head? }, u)
  else if s.headNo = 0 then let (a, t) := s.openCheckpointQuire []; ({ c with own := a }, t)
  else match s.firstOfHead0 c with
    | some q => let (a, t) := s.openCheckpointQuire (s.carriersOf q); ({ c with own := a }, t)
    | none => (c, s)

/-- The state at a cycle just applied, as its checkpoint holds it (R338). -/
def State.checkpointOf (n : Nat) (s : State) : Checkpoint :=
  { head := s.headNo, solo := s.soloMode, seq := s.checkpointSeq + 1, cycle := n, arrayId := s.arrayId, keyCheck := s.kpr.keyCheck,
    cat := s.cat, quires := s.quires, batch := s.acc.batchConfirmed, quireHigh := s.med.quireHigh, entryHigh := s.entryHigh,
    conserveQuire := s.med.conserveQuire, conserveRow := s.med.conserveRow, dumpRes := [], level := s.kpr.level, copies := 0,
    own := [], second := none, shelves := [], qtA := (0, 0, 0), qtB := (0, 0, 0), stateAt := (0, 0, 0) }

/-- Begin the checkpoint of a cycle just applied: the state at C, its quires and a new dump reserve (R338). -/
def State.beginCheckpoint (n : Nat) (s : State) : State :=
  let (c, s) := s.openForCheckpoint (s.checkpointOf n)
  let (res, t) := s.openReserve
  { t with acc := { t.acc with journalBytes := 0 }, twn := { t.twn with seedCheckpoint := false }, med := { t.med with writing := some { c with dumpRes := res } } }

/-! ### Checkpoint rows (R335, R336, R338, R339) -/

/-- Pages of 4 KiB that a row of `d` data members takes beside the summary that lists them. -/
def pagesPerRow (d : Nat) : Nat := (d * 65536 - 64) / 4128
/-- DATA_OFF of page `i` of a row of at most `k` pages. -/
def pageAt (k i : Nat) : Nat := 64 + 32 * k + 4096 * i
/-- The CHECKPOINT entry of a page: UNIT 1 tree node, 2 quire-table page, 3 state-block page, 4 page of a seal manifest (R472). -/
def pageEntry (unit no off n : Nat) : List Byte := leBytes 1 unit ++ zeros 7 ++ leBytes 8 no ++ leBytes 4 off ++ leBytes 2 n ++ zeros 10

/-- The data space of a row of pages, each with its number. -/
def State.pageRow (s : State) (head seq q row : Nat) (last : Bool) (unit : Nat) (pages : List (Nat × List Byte)) : List Byte :=
  let x := s.quire q
  let k := pagesPerRow x.d
  let sum := summaryBytes 3 head q row s.acc.openCycle s.arrayId x.d x.w last seq
    (pages.zipIdx.map fun p => pageEntry unit p.1.1 (pageAt k p.2) p.1.2.length)
  padTo (x.d * 65536) (pages.zipIdx.foldl (fun b p => patch b (pageAt k p.2) p.1.2) (padTo (pageAt k pages.length) sum))

/-- Program a row of a checkpoint quire, in the next row again where a program fails: the row it took. At most `fuel` rows. -/
def Press.programPages (q : Nat) (data : Nat → List Byte) : Nat → Press → Option Nat × Press
  | 0, p => (none, p)
  | fuel + 1, p =>
    let row := p.s.rowsNext q
    if (p.s.quire q).rows ≤ row ∨ p.s.closing q then (none, p)
    else
      let (failed, p) := p.next
      let (ok, t) := p.s.programRow 3 q failed (data row)
      if ok then (some row, { p with s := t.queueItems [itemRows q (row + 1)] })
      else (Press.mk (({ t with med := { t.med with abandoned := t.med.abandoned ++ [(q, row)] } } : State).noteFailures q failed) p.fails).programPages q data fuel

/-- The stored copy of a node in an earlier checkpoint of this head still stands: its quire is not freed, and its bytes are the same. -/
def State.storedBefore (s : State) (c : Checkpoint) (shelves : Sparse Shelf) (n : Nat) : Option Shelf :=
  match s.med.checkpoints.find? fun x => x.head == c.head with
  | none => none
  | some b =>
    let sh := Sparse.get Shelf.none n b.shelves
    let bytes (x : Checkpoint) (l : Sparse Shelf) := x.cat.nodeBytes (fun k => Sparse.get Shelf.none k l) n
    if sh ≠ Shelf.none ∧ 1 ≤ (s.quire sh.quire).state ∧ (s.quire sh.quire).state ≤ 4 ∧ bytes b b.shelves = bytes c shelves then some sh else none

/-- Nodes that the next row takes, the shelves with them, and the nodes left; a node whose copy stands takes no page. -/
def State.fillRow (s : State) (c : Checkpoint) (q row k : Nat) : List Nat → Nat → Sparse Shelf → List Nat × Sparse Shelf × List Nat
  | [], _, sh => ([], sh, [])
  | n :: t, i, sh =>
    if Sparse.get Shelf.none n sh ≠ Shelf.none then s.fillRow c q row k t i sh
    else match s.storedBefore c sh n with
      | some x => s.fillRow c q row k t i (Sparse.set Shelf.none n x sh)
      | none =>
        if k ≤ i then ([], sh, n :: t)
        else
          let (l, sh', r) := s.fillRow c q row k t (i + 1) (Sparse.set Shelf.none n (shelfAt q row (pageAt k i) 4096) sh)
          (n :: l, sh', r)

/-- Write the nodes changed since their last stored copy, leaves first; at most `fuel` rows. Answers the nodes left. -/
def Press.writeNodes (q : Nat) : Nat → List Nat → Checkpoint → Press → List Nat × Checkpoint × Press
  | 0, nodes, c, p => (nodes, c, p)
  | fuel + 1, nodes, c, p =>
    let k := pagesPerRow (p.s.quire q).d
    let plan (row : Nat) := p.s.fillRow c q row k nodes 0 c.shelves
    let data (row : Nat) : List Byte :=
      let sh := (plan row).2.1
      p.s.pageRow c.head c.seq q row false 1 ((plan row).1.map fun n => (n, c.cat.nodeBytes (fun k => Sparse.get Shelf.none k sh) n))
    if (plan 0).1 = [] then ((plan 0).2.2, { c with shelves := (plan 0).2.1 }, p)
    else match p.programPages q data 64 with
      | (none, p) => (nodes, c, p)
      | (some row, p) => p.writeNodes q fuel (plan row).2.2 { c with shelves := (plan row).2.1 }

/-- Write pages of a unit in whole rows: the first row and how many lie from there to the last; none where the quire has no room. -/
def Press.writeUnits (head seq q unit : Nat) (last : Bool) : List (List (Nat × List Byte)) → Option Nat → Press → Option (Nat × Nat) × Press
  | [], none, p => (some (0, 0), p)
  | [], some first, p => (some (first, p.s.rowsNext q - first), p)
  | pages :: t, first, p =>
    let s := p.s
    match p.programPages q (fun row => s.pageRow head seq q row (last && t.isEmpty) unit pages) 64 with
    | (none, p) => (none, p)
    | (some row, p) => p.writeUnits head seq q unit last t (some (first.getD row))

/-- A byte string as numbered pages, in rows of at most `k`. -/
def pageRows (k : Nat) (b : List Byte) : List (List (Nat × List Byte)) := pieces (max 1 k) ((pieces 4096 b).zipIdx.map fun p => (p.2, p.1))

/-- The quire table in whole pages. STATE 4 is not journalled, and so not in a copy (R302, R346). -/
def Checkpoint.table (c : Checkpoint) : List Byte :=
  let b := c.quires.flatMap fun p => p.2.bytes p.1 p.2.state
  padTo ((b.length + 4095) / 4096 * 4096) b

/-- The shelfmark of a node's stored copy. -/
def Checkpoint.shelf (c : Checkpoint) (n : Nat) : Shelf := Sparse.get Shelf.none n c.shelves

/-- Every node under the roots of the views and of the content tree, each after its children. -/
def Catalogue.allNodes (c : Catalogue) : List Nat :=
  (c.views.flatMap fun v => c.nodesUp 8 v.root) ++ if c.contentRoot = 0 then [] else c.nodesUp 8 c.contentRoot

/-- Write a table copy into a quire; none where it has no room. -/
def Press.writeTable (q : Nat) (c : Checkpoint) (p : Press) : Option (Nat × Nat × Nat) × Press :=
  let (r, p) := p.writeUnits c.head c.seq q 2 false (pageRows (pagesPerRow (p.s.quire q).d) c.table) none
  (r.map fun x => if c.table.isEmpty then (0, 0, 0) else (q, x.1, x.2), p)

/-- Write the copy of the quire table in the checkpoint's second quire, where it has one. -/
def Press.writeSecondTable (c : Checkpoint) (p : Press) : Option (Nat × Nat × Nat) × Press :=
  match c.second with
  | some b => p.writeTable b c
  | none => (some (0, 0, 0), p)

/-- Write the state block; the shelf of the tier-2 table is free (log entry 38). -/
def Press.writeState (q : Nat) (c : Checkpoint) (p : Press) : Option (Nat × Nat) × Press :=
  let tier2 := (List.range 12).map fun k => Config.freeByte (p.s.free + k)
  let pages := pageRows (pagesPerRow (p.s.quire q).d) (c.cat.stateBlock c.shelf tier2)
  Press.writeUnits c.head c.seq q 3 true pages none { p with s := p.s.takeFrees 12 }

/-- Note where this head's table copy, the other copy and the state block lie; false where one was not written. -/
def Checkpoint.locate (q : Nat) (mine other : Option (Nat × Nat × Nat)) (state : Option (Nat × Nat)) (c : Checkpoint) : Bool × Checkpoint :=
  match mine, other, state with
  | some a, some b, some x =>
    (true, { c with qtA := if c.head = 0 ∨ c.solo then a else b, qtB := if c.head = 0 ∨ c.solo then b else a, stateAt := (q, x.1, x.2) })
  | _, _, _ => (false, c)

/-- Write a checkpoint's pages: the nodes, the table copies this head owes, and the state block, whose last row is LAST. True when all are
durable. -/
def Press.writeCheckpoint (q : Nat) (c : Checkpoint) (p : Press) : Bool × Checkpoint × Press :=
  let nodes := p.writeNodes q (c.cat.nodes.length + 1) c.cat.allNodes c
  if nodes.1 ≠ [] then (false, nodes.2)
  else
    let c := nodes.2.1
    let mine := nodes.2.2.writeTable q c
    let other := mine.2.writeSecondTable c
    let state := other.2.writeState q c
    let r := c.locate q mine.1 other.1 state.1
    (r.1, r.2, state.2)

/-- The checkpoint quire that takes pages: the last of those opened, while it has rows. -/
def State.pageQuire (s : State) (c : Checkpoint) : Option Nat :=
  c.own.getLast?.filter fun q => (s.quire q).state == 1 && ! s.closing q && decide (s.rowsNext q < (s.quire q).rows)

/-- Valid bytes of a checkpoint quire: what the latest durable checkpoint of this head reaches in it (R341), and the manifests of sealed
views (R472). -/
def State.checkpointBytes (s : State) (q : Nat) : Nat :=
  let k := pagesPerRow (s.quire q).d
  let rows (x : Nat × Nat × Nat) : Nat := if x.1 = q then 4096 * k * x.2.2 else 0
  let manifests := (s.cat.views.map fun v => if v.isSealed then rows (v.manifestAt % 2 ^ 32, 0, v.manifestAt / 2 ^ 48) else 0).foldl (· + ·) 0
  match s.med.checkpoints.find? fun c => c.head == s.headNo with
  | none => manifests
  | some c =>
    manifests + 4096 * (Sparse.filter (fun _ x => x.quire == q) c.shelves).length + rows c.qtA + rows c.qtB + rows c.stateAt

/-- A checkpoint begins after cycle `n`: at a multiple of 2^20, past 4 GiB of journal, for a rejoining head (R459), or where no dump reserve is open since RESTORE
(R333, R337). -/
def State.checkpointDue (s : State) (n : Nat) : Bool :=
  n % 2 ^ 20 == 0 || decide (2 ^ 32 < s.acc.journalBytes) || s.twn.seedCheckpoint || (s.med.writing.isNone && s.reserveSpace == 0 && decide (6 ≤ s.serviceNumbers.length))

/-- The 64 KiB slot of a checkpoint header (R340). -/
def Checkpoint.header (c : Checkpoint) : List Byte :=
  let place (x : Nat × Nat × Nat) : List Byte := leBytes 4 x.1 ++ leBytes 2 x.2.1 ++ leBytes 2 x.2.2
  let body := leBytes 4 0x4B434B54 ++ leBytes 2 1 ++ leBytes 1 c.head ++ leBytes 1 (if c.solo then 1 else 0) ++ leBytes 8 c.seq ++ leBytes 8 c.cycle
    ++ padTo 16 c.arrayId ++ padTo 8 c.keyCheck
    ++ place c.qtA ++ place c.qtB ++ place c.stateAt ++ leBytes 8 c.cat.contentRoot ++ (c.shelf c.cat.contentRoot).bytes ++ zeros 4 ++ leBytes 8 c.batch ++ leBytes 4 c.quireHigh ++ zeros 4 ++ leBytes 8 (c.cat.nextNode - 1)
    ++ leBytes 4 c.conserveQuire ++ leBytes 2 c.conserveRow ++ zeros 2 ++ padTo 32 c.cat.reshape
    ++ padTo 128 (c.dumpRes.flatMap (leBytes 4)) ++ leBytes 2 c.level ++ zeros 6 ++ leBytes 8 c.entryHigh ++ zeros 12
  body ++ leBytes 4 (crc32c body) ++ zeros (65536 - 320)

/-- The anchor group a head writes to next on a carrier, and whether it is erased first (R340). -/
def Carrier.anchorFor (c : Carrier) (head : Nat) : Nat × Bool :=
  let a := 2 * head
  let b := a + 1
  let full (g : Nat) : Bool := Nat.ble c.ident.slcPages (c.group g).wp
  let seq (g : Nat) : Nat := leAt (c.read g (65536 * ((c.group g).wp - 1)) 16) 8 8
  if (c.group a).wp ≠ 0 ∧ ¬ full a then (a, false)
  else if (c.group b).wp ≠ 0 ∧ ¬ full b then (b, false)
  else if (c.group a).wp = 0 then (a, false)
  else if (c.group b).wp = 0 then (b, false)
  else if seq a < seq b then (a, true) else (b, true)

/-- Write a header into the next free slot of a head's anchor group of a carrier. -/
def Carrier.writeAnchor (head : Nat) (header : List Byte) (ok : Bool) (c : Carrier) : Carrier :=
  let (g, wipe) := c.anchorFor head
  let c := (if wipe then c.eraseNow g true else c).modGroup g fun e => { e with slc := true }
  let page := (c.group g).wp
  if ok then (c.write g (65536 * page) header).modGroup g fun e => { e with wp := page + 1 }
  else { (c.modGroup g fun e => { e with wp := page + 1, failed := e.failed ++ [page] }) with progFails := c.progFails + 1 }

/-- The header of a checkpoint stands in an anchor group of its head on this carrier (R342). -/
def Carrier.anchorHolds (c : Carrier) (k : Checkpoint) : Bool :=
  [2 * k.head, 2 * k.head + 1].any fun g => (List.range (c.group g).wp).any fun page => c.read g (65536 * page) 320 == k.header.take 320

/-- The header of a checkpoint stands on a carrier in service. -/
def State.anchorHolds (s : State) (k : Checkpoint) : Bool := s.carriers.any fun p => p.2.inService && p.2.anchorHolds k

/-- Write a header on every carrier in service; `ok` says on which its program takes. -/
def State.writeAnchors (header : List Byte) (ok : Nat → Bool) (s : State) : State :=
  s.serviceNumbers.foldl (fun t n => match t.serviceSlot n with
    | some slot =>
      let u := (t.useSequencer slot 3).modCar slot (Carrier.writeAnchor s.headNo header (ok n))
      if ok n then u else u.countMedia n 0x0105
    | none => t) s

/-- Tier 2 of a version the image does not know is rebuilt from the content records, every content ID that is live or in quarantine (R222). -/
def State.rebuildTier2 (s : State) : State :=
  if s.med.tier2Known then s
  else
    let entry (cid : Nat) : Option DedupEntry := (s.cat.firstOf cid).map fun f =>
      { fp := s.cat.digestOf cid, cid := cid, domain := (s.cat.record f).domain, tier := 2, pending := false, dirty := false,
        tomb := Sparse.get 0 cid s.cat.quarantine != 0, lost := (s.cat.record f).lost, cycle := s.cat.now }
    { s with med := { s.med with index := (s.med.index.filter fun e => e.tier != 2) ++ s.cat.liveCids.filterMap entry, tier2Known := true } }

/-- Merge the DIRTY index entries into tier 2, and drop the tombstones of content the checkpoint shows released (R222, R231). -/
def State.mergeIndex (c : Catalogue) (s : State) : State :=
  let s := s.rebuildTier2
  let dirty := s.med.index.filter fun e => e.dirty && ! e.pending
  let merged := dirty.map fun e => { e with tier := 2, dirty := false }
  let kept := (s.med.index.filter fun e => e.tier != 3 && ! (e.tier == 2 && dirty.any fun d => d.cid == e.cid)).map fun e =>
    if e.pending then e else { e with dirty := false }
  let gone (e : DedupEntry) : Bool := e.tomb && (match c.firstOf e.cid with
    | none => true
    | some f => (c.record f).isReleased (e.cid - f))
  { s with med := { s.med with index := (kept ++ merged).filter (fun e => ! gone e), tier2Level := s.kpr.level } }

/-- The record of a freed quire leaves the table: a checkpoint holds its FREED, and its groups are erased (R303, R345). -/
def State.dropFreed (c : Checkpoint) (s : State) : State :=
  { s with quires := Sparse.filter (fun q x => ! (x.state == 5 && (Sparse.get Quire.none q c.quires).state == 5
      && ! x.pos.any fun g => s.groupDue g.1 g.2 && ! s.groupInUse q g.1 g.2)) s.quires }

/-- A FREED of a quire is on its way. -/
def State.freeing (s : State) (q : Nat) : Bool := s.unappliedItems.any fun i => leAt i 0 2 == 0x0304 && leAt i 4 4 == q

/-- A header is durable: the reserve it names replaces the previous one, the index is merged, and freed records leave the table. -/
def State.checkpointDone (c : Checkpoint) (s : State) : State :=
  let old := (Sparse.filter (fun q x => x.state == 1 && x.purpose == 5 && s.ownsQuire q && ! c.dumpRes.contains q && ! s.freeing q) s.quires).map (·.1)
  let t := s.queueItems (old.map itemFreed ++ (c.own ++ c.second.toList).map fun q => itemClosed q (s.durableRows q))
  (({ t with med := { t.med with reserveReady := true, writing := none, checkpoints := c :: t.med.checkpoints.take 7 } }).mergeIndex c.cat).dropFreed c

/-- Free the adopted journal segments of the partner whose every cycle a checkpoint covers (R329, R452). -/
def State.freeAdopted (through : Nat) (s : State) : State :=
  let old := (s.headers s.mirrorBase).filter fun h => h.nsid == segmentNsid
    && ((s.cycleHeaders 32768 (s.mirrorBase + h.off) segmentBytes).all fun p => decide (leAt p.2 8 8 ≤ through))
  old.foldl (fun t h => t.modHeader t.mirrorBase h.no fun h => { h with state := 0 }) s

/-- Free the segments a checkpoint covers once the partner's header of the same SEQ has been read, at once in SOLO (R329). -/
def State.freeCovered (partnerHas : Bool) (s : State) : State :=
  match s.med.checkpoints.find? fun x => x.head == s.headNo with
  | some c => if s.soloMode then (s.freeSegments c.cycle).freeAdopted c.cycle else if partnerHas then s.freeSegments c.cycle else s
  | none => s

/-- The drained form of QUIESCE has drained: every entry but journal segments is freed and a checkpoint is durable (R511). -/
def State.noteDrained (s : State) : State :=
  let left := (s.headers s.ownBase ++ s.headers s.mirrorBase).any fun h => h.state != 0 && h.nsid != segmentNsid
  if s.hlt.mode = .quiesce ∧ s.hlt.form = .drained ∧ s.med.reserveReady ∧ ¬ left then { s with hlt := { s.hlt with drained := true } } else s

/-- Write the header of a checkpoint whose pages are durable. A head one level above the committed one writes the headers of both versions, in
two slots (R546). -/
def State.writeCheckpointHeader (fails : List Nat) (partnerHas : Bool) (c : Checkpoint) (s : State) : State :=
  let numbers := s.serviceNumbers
  let good := numbers.filter fun n => ! fails.contains n
  let c := { c with copies := good.length }
  let t := s.writeAnchors c.header (fun n => ! fails.contains n)
  let t := if s.kpr.level = s.kpr.committed + 1 then t.writeAnchors c.header (fun n => ! fails.contains n) else t
  if numbers.isEmpty ∨ good.length < min 3 numbers.length then t else (t.checkpointDone c).freeCovered partnerHas

/-- Write the pages of the checkpoint in hand, and its header once all else is durable; it waits for its quires and its dump reserve to open.
`partnerHas`: the partner's header of the same SEQ can be read from an anchor group. -/
def execCheckpointHeaderWrite (fails : CheckpointFails) (partnerHas : Bool) (s : State) : Host.Outcome State Fault Refusal :=
  .next (State.noteDrained (if s.hlt.mode = .safe ∨ ¬ s.basesSet then s
    else match s.med.writing with
      | none => s.freeCovered partnerHas
      | some c =>
        let (c, s) := s.openForCheckpoint c
        let keep (c : Checkpoint) (s : State) : State := { s with med := { s.med with writing := some c } }
        if (c.dumpRes ++ c.own ++ c.second.toList).any (fun q => (s.quire q).state == 0) ∨ c.own = [] then keep c s
        else match s.pageQuire c with
          | none => let (a, t) := s.openCheckpointQuire (c.second.toList.flatMap s.carriersOf); keep { c with own := c.own ++ a } t
          | some q =>
            let (ok, c, p) := (Press.mk s fails.rows).writeCheckpoint q c
            if ok then (keep c p.s).writeCheckpointHeader fails.header partnerHas c
            else let (a, t) := p.s.openCheckpointQuire (c.second.toList.flatMap p.s.carriersOf); keep { c with own := c.own ++ a } t))

/-! ### After a cycle is applied -/

/-- The groups of an entry's blocks take its departure mark (R348). -/
def State.markDeparted (h : Header) (s : State) : State :=
  let groups := (List.range ((h.slba % 8 + h.nblk + 7) / 8)).map fun i => h.nsid * 2 ^ 48 + groupOf h.slba + 8 * i
  { s with med := { s.med with departed := groups.foldl (fun m k => Sparse.modify 0 k (fun x => max x h.no) m) s.med.departed } }

/-- Entries freed in cycle `n` leave the buffer index, and their slots return (R349). -/
def State.returnFreed (n : Nat) (s : State) : State :=
  let freed := (s.acc.own.filter fun r => decide (r.cycle ≤ n)).flatMap CycleRec.freed
  freed.foldl (fun t no =>
    let base := t.entryBase no
    let h := headerOf (t.headerAt base no)
    let t := if h.no = no then t.markDeparted h else t
    if no % 2 = t.headNo then t.freeEntry no else t.leaveHeader base no) s

/-- A shelfmark that an item or a staged entry on its way names lies in a quire. -/
def State.namedSoon (s : State) (q : Nat) : Bool :=
  let hits (i : List Byte) : Bool := (leAt i 0 1 == 2 || leAt i 0 1 == 3) && leAt i 16 4 == q
  s.unappliedItems.any hits || (s.acc.staged.any fun e => e.contents.any hits) || s.acc.partner.any fun r => r.items.any hits

/-- Closed quires of this head with no valid bytes are freed (R284, R285). -/
def State.freeEmpty (s : State) : State :=
  let valid (q : Nat) (x : Quire) : Bool := if x.purpose = 5 then s.checkpointBytes q != 0 || q % 2 != s.headNo else x.validBytes != 0
  let empty := (Sparse.filter (fun q x => (x.state == 2 || x.state == 3) && ! valid q x && s.ownsQuire q && ! s.freeing q && ! s.namedSoon q)
    s.quires).map (·.1)
  let t := s.queueItems (empty.map itemFreed)
  { t with med := { t.med with relocating := t.med.relocating.filter fun r => ! empty.contains r.1 } }

/-- Entries of a deleted namespace that are not placed are freed, those whose placement has begun too (R148). -/
def State.freeDeleted (s : State) : State :=
  let gone (base : Nat) := ((s.headers base).filter fun h => h.state == 3 && h.nsid != segmentNsid && ! s.acc.openFreed.contains h.no
    && (Sparse.get Namespace.none h.nsid s.cat.namespaces).size == 0).map (·.no)
  (gone s.ownBase ++ if s.soloMode then gone s.mirrorBase else []).foldl (fun t no => (t.unstage 64 no).noteFreed no) s

/-! ### Deleting views (R470) -/

/-- A VIEW item of an OP for a view is on its way. -/
def State.viewItemQueued (s : State) (op v : Nat) : Bool := s.unappliedItems.any fun i => leAt i 0 2 == 0x0A + 256 * op && leAt i 8 4 == v

/-- This head decides for a namespace's views: it holds the custody set of its group, or the namespace is gone and head 0, or the
SOLO head, does. -/
def State.holdsViews (s : State) (nsid : Nat) : Bool :=
  let n := Sparse.get Namespace.none nsid s.cat.namespaces
  if n.size = 0 then s.ownsQuire 0 else s.holdsSet n.groupB

/-- The items of the walk of a view's tree: each node it owns is adopted or freed, leaves first, and the view is retired. -/
def State.walkView (s : State) (v : View) : List (List Byte) :=
  let own := ((s.cat.nodesUnder 8 v.root).filter fun n => (s.cat.node n).view == v.view).reverse
  (own.map fun n => if s.cat.reaches v.successor n then itemView 3 v.view n else itemNodeFree v.view n) ++ [itemView 4 v.view 0]

/-- Queue the walk of each DELETING view that no older DELETING view of its namespace precedes. -/
def State.walkViews (s : State) : State :=
  let due := s.cat.views.filter fun v => v.deleting && s.holdsViews v.nsid && ! s.viewItemQueued 4 v.view
    && ! s.cat.views.any fun o => o.successor == v.view && o.deleting
  due.foldl (fun t v => t.queueItems (t.walkView v)) s

/-- Views of namespaces that no longer exist are deleted (R470). -/
def State.deleteOrphans (s : State) : State :=
  let due := s.cat.views.filter fun v => ! v.deleting && (Sparse.get Namespace.none v.nsid s.cat.namespaces).size == 0 && s.holdsViews v.nsid
    && ! s.viewItemQueued 2 v.view
  s.queueItems (due.map fun v => itemView 2 v.view 0)

/-! ### Applying a cycle (R230) -/

/-- What a cycle needs to be applied: its own record confirmed, and the partner's record unless this head is alone. -/
def State.cycleLists (s : State) : Option (List (List Byte) × List (List Byte)) :=
  let n := s.acc.applied + 1
  match s.acc.own.find? fun r => r.cycle == n && r.confirmed with
  | none => none
  | some own =>
    match s.acc.partner.find? fun r => r.cycle == n with
    | some other => some (if s.headNo = 0 then (own.items, other.items) else (other.items, own.items))
    | none => if s.alone n then some (own.items, []) else none

/-- Positions of this head's quires that REBUILD_DONE items of a cycle replace: quire, carrier and erase group. -/
def State.replaced (s : State) (items : List (List Byte)) : List (Nat × Nat × Nat) :=
  items.filterMap fun i =>
    if leAt i 0 2 = 0x0704 ∧ s.ownsQuire (leAt i 4 4) then
      ((s.quire (leAt i 4 4)).pos[leAt i 8 1]?).map fun g => (leAt i 4 4, g.1, g.2)
    else none

/-- Tell controllers that asked for it that the list of namespaces changed. -/
def State.noteNamespaces (items : List (List Byte)) (s : State) : State :=
  if items.any fun i => leAt i 0 1 == 9 && leAt i 1 1 != 3 then
    s.svc.ctrls.foldl (fun t p => if p.2.aerConfig / 2 ^ 8 % 2 = 1 then t.postEvent p.1 eventNamespace else t) s
  else s

end Sys2Proof.Machine
end

