-- ==== Sys2Proof/Machine/DumpRows.lean ====
section
/-! DEFINITION. The rows of a dump in the dump reserve (R331, R333, R335, R336). -/

namespace Sys2Proof.Machine

/-- The DUMP entry of a unit: REGION, REGION_OFF / 4,096, LENGTH 4,096 and DATA_OFF (R336). -/
def dumpEntry (region unit off : Nat) : List Byte := leBytes 1 region ++ zeros 7 ++ leBytes 4 unit ++ leBytes 4 4096 ++ leBytes 4 off ++ zeros 12

/-- The units of a dump in the order they are written: region, number and bytes. -/
def DumpImage.units (d : DumpImage) : List (Nat × Nat × List Byte) :=
  (d.region0.map fun u => (0, u.1, u.2)) ++ d.region1.map fun u => (1, u.1, u.2)

/-- The data space of a row of dump units. -/
def State.dumpRow (s : State) (d : DumpImage) (q : Nat) (last : Bool) (l : List (Nat × Nat × List Byte)) : List Byte :=
  let x := s.quire q
  let k := pagesPerRow x.d
  let sum := summaryBytes 2 d.head q (s.rowsNext q) s.acc.openCycle s.arrayId x.d x.w last d.seq
    (l.zipIdx.map fun p => dumpEntry p.1.1 p.1.2.1 (pageAt k p.2))
  padTo (x.d * 65536) (l.zipIdx.foldl (fun b p => patch b (pageAt k p.2) p.1.2.2) (padTo (pageAt k l.length) sum))

/-- The reserve's quire that takes the next row, of those the latest checkpoint of this head names. -/
def State.dumpQuire (s : State) : Option Nat :=
  match s.med.checkpoints.find? fun c => c.head == s.headNo with
  | some c => c.dumpRes.find? fun q => (s.quire q).state == 1 && decide (s.rowsNext q < (s.quire q).rows)
  | none => none

/-- Program one row of a dump; without a quire for it there is none. -/
def State.programDump (d : DumpImage) (last : Bool) (l : List (Nat × Nat × List Byte)) (s : State) : State :=
  match s.dumpQuire with
  | some q => (s.programRow 0 q [] (s.dumpRow d q last l)).2
  | none => s

/-- The rows of a dump in units, each as wide as the quire that takes it. -/
def State.dumpRows (s : State) (d : DumpImage) : List (List (Nat × Nat × List Byte)) :=
  match s.dumpQuire with
  | some q => pieces (max 1 (pagesPerRow (s.quire q).d)) d.units
  | none => []

/-- This head's dump on the carriers. -/
def State.ownDump (s : State) : Option DumpImage := s.med.dumps.find? fun d => d.head == s.headNo

/-- Program the rows of this head's dump up to the LAST one (R331, dump phase). -/
def State.programDumpRows (s : State) : State :=
  match s.ownDump with
  | some d => ((s.dumpRows d).dropLast).foldl (fun t l => t.programDump d false l) s
  | none => s

/-- Program the LAST row (R331, close phase). -/
def State.programLastRow (s : State) : State :=
  match s.ownDump with
  | some d => match (s.dumpRows d).getLast? with
    | some l => s.programDump d true l
    | none => s
  | none => s

end Sys2Proof.Machine
end

