-- ==== Sys2Proof/Machine/Relocate.lean ====
section
/-! DEFINITION. Relocation of quires (R285 to R288), and what starts it: folding (R283), weeding (R284) and static wear leveling (R290). -/

namespace Sys2Proof.Machine

/-! ### Relocation (R285) -/

/-- FIRST_CIDs of the records whose folio lies in a quire, in increasing order (log entry 35). -/
def State.foliosIn (s : State) (q : Nat) : List Nat :=
  (Sparse.filter (fun _ x => x.blocks != 0 && x.shelf.quire == q) s.cat.content).map (·.1)

/-- A folio on its way from a quire, with its ciphertext (R253). -/
def movedFolio (f : Nat) (x : Content) (q purpose : Nat) (bytes : List Byte) : Folio :=
  { firstCid := f, blocks := x.blocks, position := x.position, profile := x.profile, domain := x.domain, keyGen := x.keyGen,
    chainPrev := x.chainPrev, revision := x.revision, bytes := bytes, digests := [], moveFrom := some q, repair := false,
    purpose := purpose }

/-- Move one folio: a LOST one, or one that cannot be read and so is LOST now, moves to no location (R285, R287). `taken` are the
members to take as missing. -/
def Press.moveFolio (seen : Seen) (taken : List Nat) (q purpose f : Nat) (p : Press) : Press :=
  let x := p.s.cat.record f
  let p : Press := { p with s := p.s.useAssist (p.s.mediaQueue purpose) 1 }
  let away (s : State) : Press := { p with s := s.queueItems [itemMove q f Shelf.none x.revision] }
  if x.lost then away p.s
  else
    let s := p.s.useFetch seen (p.s.mediaQueue purpose) (! taken.isEmpty) x.shelf
    match s.readShelf seen.unread taken x.shelf with
    | none => away (s.queueLost f)
    | some bytes => ({ p with s := s }).addFolio (movedFolio f x q purpose bytes) 4

/-- Relocate a quire into targets of a PURPOSE. `taken` names, for folios that need it, the members to take as missing. -/
def Press.relocate (seen : Seen) (taken : List (Nat × List Nat)) (q purpose : Nat) (p : Press) : Press :=
  let s := { p.s with med := { p.s.med with relocating := p.s.med.relocating ++ [(q, purpose)] } }
  (s.foliosIn q).foldl (fun p f => p.moveFolio seen (((taken.find? fun t => t.1 == f).map (·.2)).getD []) q purpose f) { p with s := s }

/-- A quire is under relocation. -/
def State.isRelocating (s : State) (q : Nat) : Bool := s.med.relocating.any fun r => r.1 == q
/-- Relocations of a PURPOSE in progress. -/
def State.relocations (s : State) (purpose : Nat) : Nat := (s.med.relocating.filter fun r => r.2 == purpose).length

/-- A closed quire of this head in a STATE of R280 that may be relocated; checkpoint quires are never moved (R341). -/
def State.movable (s : State) (q : Nat) (x : Quire) : Bool :=
  (x.state == 2 || x.state == 3) && x.purpose != 5 && s.ownsQuire q && ! s.isRelocating q && decide (0 < x.validBytes)

/-! ### Rebuild due (R315, R316) -/

/-- Failed positions of a quire. -/
def Quire.failedPositions (q : Quire) : List Nat := (List.range q.w).filter fun p => q.failed / 2 ^ p % 2 == 1

/-- A position is under rebuild, or its REBUILD_DONE is on its way. -/
def State.rebuilding (s : State) (q p : Nat) : Bool :=
  (s.med.rebuilds.any fun r => r.quire == q && r.position == p)
    || s.unappliedItems.any fun i => leAt i 0 2 == 0x0704 && leAt i 4 4 == q && leAt i 8 1 == p

/-- Quires under rebuild. -/
def State.rebuildQuires (s : State) : List Nat :=
  s.med.rebuilds.foldl (fun l r => if l.contains r.quire then l else l ++ [r.quire]) []

/-- Closed quires of this head with a failed position that no rebuild has: those with two first, then in increasing QUIRE (R316). -/
def State.rebuildQueue (s : State) : List Nat :=
  let due := Sparse.filter (fun q x => (x.state == 2 || x.state == 3) && s.ownsQuire q && ! s.isRelocating q
    && x.failedPositions.any fun p => ! s.rebuilding q p) s.quires
  (Sparse.filter (fun _ x => decide (2 ≤ countOnes 34 x.failed)) due ++ Sparse.filter (fun _ x => ! decide (2 ≤ countOnes 34 x.failed)) due).map (·.1)

/-- Rebuilds and recovery relocations in progress are fewer than 8 (R316). -/
def State.mayRecover (s : State) : Bool := decide (s.relocations 6 + s.rebuildQuires.length < 8)

/-- The quire whose rebuild or recovery begins next; one that is under rebuild takes no further place (R316, R317). -/
def State.rebuildNext (s : State) : Option Nat := s.rebuildQueue.find? fun q => s.mayRecover || s.rebuildQuires.contains q

/-- A rebuild may begin: it comes before folding, weeding and wear leveling (R316). -/
def State.rebuildDue (s : State) : Bool := s.rebuildNext.isSome

/-! ### Folding (R283) -/

/-- Of two quires, the one that closed first. -/
def firstClosed (b : Option (Nat × Quire)) (p : Nat × Quire) : Option (Nat × Quire) :=
  match b with
  | some x => if p.2.closeCycle.toNat < x.2.closeCycle.toNat then some p else b
  | none => some p

/-- The closed SLC quire folding takes next. -/
def State.foldNext (s : State) : Option Nat :=
  ((Sparse.filter (fun q x => x.state == 2 && s.movable q x) s.quires).foldl firstClosed none).map (·.1)

/-- Folding starts at the fold start and stops at the fold stop (R291). -/
def State.judgeFolding (s : State) : State :=
  let on_ := if s.occupancyAtLeast (s.setting 0x0401 0 60) then true
    else if 100 * s.landing.1 ≤ s.setting 0x0402 0 45 * s.landing.2 then false else s.med.folding
  { s with med := { s.med with folding := on_ } }

/-- A fold relocation may begin. -/
def State.foldDue (s : State) : Bool := s.med.folding && decide (s.relocations 1 < 4) && s.foldNext.isSome

/-- Begin fold relocations while they may; at most `fuel`. -/
def Press.fold (seen : Seen) : Nat → Press → Press
  | 0, p => p
  | fuel + 1, p =>
    if ¬ p.s.foldDue then p
    else match p.s.foldNext with
      | some q => (p.relocate seen [] q 1).fold seen fuel
      | none => p

/-- `fails` are, for each row written in turn, the positions whose program fails. -/
def execFoldStart (seen : Seen) (fails : List (List Nat)) (s : State) : Host.Outcome State Fault Refusal :=
  .next (if s.managesMedia then
      let t := s.judgeFolding
      if t.rebuildDue then t else ((Press.mk t fails).drainWaiting.fold seen 4).s
    else s)

/-! ### Weeding (R284) -/

/-- Free erase groups of this head's share, and all of its groups on carriers in service that are not retired. -/
def State.groupCounts (s : State) : Nat × Nat :=
  let named := s.namedGroups
  let all (n : Nat) : Nat := match s.serviceSlot n with
    | some slot => ((List.range (s.car slot).ident.egroups).filter fun g =>
        decide (4 ≤ g) && s.inShare g && ! ((s.car slot).group g).retired && ! s.med.grownBad.contains (n, g)).length
    | none => 0
  s.serviceNumbers.foldl (fun p n => (p.1 + (s.freeGroups named n).length, p.2 + all n)) (0, 0)

/-- Weeding starts below the weeding start and stops at the weeding stop (R291). -/
def State.judgeWeeding (s : State) : State :=
  let (free, all) := s.groupCounts
  let on_ := if 100 * free < s.setting 0x0403 0 6 * all then true
    else if s.setting 0x0404 0 8 * all ≤ 100 * free then false else s.med.weeding
  { s with med := { s.med with weeding := on_ } }

/-- Effective P/E counts, in quarters, of the erase groups in service that are not anchors and not retired (R290). -/
def State.wearCounts (s : State) : List Nat :=
  (Sparse.filter (fun _ c => c.inService) s.carriers).flatMap fun p =>
    (List.range p.2.ident.egroups).filterMap fun g =>
      if g < 4 ∨ (p.2.group g).retired then none else some (p.2.group g).quarters

/-- MEAN_PE of R276. -/
def State.meanPe (s : State) : Nat := (s.wearCounts.foldl (· + ·) 0) / max 1 s.wearCounts.length / 4

/-- Effective counts of a quire's erase groups, in quarters. -/
def State.quireWear (s : State) (x : Quire) : List Nat :=
  x.pos.filterMap fun g => (s.serviceSlot g.1).map fun slot => ((s.car slot).group g.2).quarters

/-- The weeding summary of a quire (R280). -/
def State.weedSummary (s : State) (q : Nat) (x : Quire) : List Byte :=
  leBytes 4 q ++ leBytes 1 (if s.isRelocating q then 4 else x.state) ++ zeros 3 ++ leBytes 4 ((x.validBytes + 1023) / 1024)
    ++ leBytes 4 (64 * x.d * x.rowsDone) ++ leBytes 8 x.closeCycle.toNat ++ leBytes 4 ((s.quireWear x).foldl max 0 / 4) ++ zeros 4

/-- The closed QLC quire with the highest score; on equal scores the lowest number (R280). -/
def State.weedNext (s : State) : Option Nat :=
  let scored := (Sparse.filter (fun q x => x.state == 3 && s.movable q x) s.quires).filterMap fun p =>
    scoreOf s.acc.applied s.meanPe 8 0 (s.weedSummary p.1 p.2)
  ((scored.foldl (fun l x => insertScore x l) []).head?).map (·.quire)

/-- A weeding relocation may begin. -/
def State.weedDue (s : State) : Bool := s.med.weeding && decide (s.relocations 2 < 4) && s.weedNext.isSome

/-- Begin weeding relocations while they may; at most `fuel`. -/
def Press.weed (seen : Seen) : Nat → Press → Press
  | 0, p => p
  | fuel + 1, p =>
    if ¬ p.s.weedDue then p
    else match p.s.weedNext with
      | some q => (({ p with s := p.s.useAssist 3 1 }).relocate seen [] q 2).weed seen fuel
      | none => p

def execWeedingStart (seen : Seen) (fails : List (List Nat)) (s : State) : Host.Outcome State Fault Refusal :=
  .next (if s.managesMedia then
      let t := s.judgeFolding.judgeWeeding
      if t.rebuildDue ∨ t.foldDue then t else ((Press.mk t fails).drainWaiting.weed seen 4).s
    else s)

/-! ### Static wear leveling (R290) -/

/-- The wear spread, in whole P/E cycles. -/
def State.wearSpread (s : State) : Nat :=
  match s.wearCounts with
  | [] => 0
  | x :: t => t.foldl max x / 4 - t.foldl min x / 4

/-- Leveling starts above the spread limit and stops at 50 cycles below it. -/
def State.judgeLeveling (s : State) : State :=
  let limit := s.setting 0x0405 0 200
  let on_ := if limit < s.wearSpread then true else if s.wearSpread ≤ limit - 50 then false else s.med.leveling
  { s with med := { s.med with leveling := on_ } }

/-- Age a of a quire (R280). -/
def State.quireAge (s : State) (x : Quire) : Nat := min 4095 ((s.acc.applied - x.closeCycle.toNat) / 2 ^ 24)
/-- Mean effective count of a quire's erase groups, in quarters. -/
def State.meanWear (s : State) (x : Quire) : Nat := (s.quireWear x).foldl (· + ·) 0 / max 1 (s.quireWear x).length

/-- The closed QLC quire the leveler takes: greatest age, and among those the lowest mean count. -/
def State.levelNext (s : State) : Option Nat :=
  ((Sparse.filter (fun q x => x.state == 3 && s.movable q x) s.quires).foldl (fun (b : Option (Nat × Quire)) p => match b with
    | none => some p
    | some x =>
      if s.quireAge x.2 < s.quireAge p.2 ∨ (s.quireAge x.2 = s.quireAge p.2 ∧ s.meanWear p.2 < s.meanWear x.2) then some p else b) none).map (·.1)

def execWearLevelStart (seen : Seen) (fails : List (List Nat)) (s : State) : Host.Outcome State Fault Refusal :=
  .next (if s.managesMedia then
      let t := s.judgeFolding.judgeWeeding.judgeLeveling
      if t.rebuildDue ∨ t.foldDue ∨ t.weedDue ∨ ¬ t.med.leveling ∨ t.relocations 3 ≠ 0 then t
      else match t.levelNext with
        | some q => ((Press.mk t fails).drainWaiting.relocate seen [] q 3).s
        | none => t
    else s)

end Sys2Proof.Machine
end

