-- ==== Sys2Proof/Machine/Rebuild.lean ====
section
/-! DEFINITION. Rebuild (R314 to R317), the conservation pass (R318, R321, R322, R359) and reshaping (R323 to R325). -/

namespace Sys2Proof.Machine

/-! ### Conforming quires (R324) -/

/-- The widest width that R301 allows outside the drain set. -/
def State.widest (s : State) : Nat := (s.serviceNumbers.filter fun n => ! s.drained n).length - 2

/-- A quire conforms to the plan. -/
def State.conforms (s : State) (x : Quire) : Bool :=
  (x.pos.all fun g => ! s.drained g.1) && (x.slc || x.d == min s.dataWidth s.widest)

/-! ### In-place rebuild (R315, R317) -/

/-- The member whose strip lies at a position in a row (R296). -/
def Quire.memberAt (q : Quire) (row p : Nat) : Nat := (p + q.w - row % max 1 q.w) % max 1 q.w

/-- A row was abandoned: a strip's program failed, and no content record names it (R299). -/
def State.isAbandoned (s : State) (q row : Nat) : Bool :=
  let x := s.quire q
  (s.med.abandoned.contains (q, row) || x.pos.any fun g => match s.serviceSlot g.1 with
    | some slot => ((s.car slot).group g.2).failed.contains row
    | none => false)
  && ! s.cat.content.any fun r => r.2.blocks != 0 && r.2.shelf.quire == q && r.2.shelf.row == row

/-- The strip of a position in a row, rebuilt from the other members; filler for an abandoned row, and none where three or more members are
missing (R313, R315). -/
def State.rebuiltStrip (s : State) (seen : Seen) (q p row : Nat) : Option (List Byte) :=
  let m := (s.quire q).memberAt row p
  if s.isAbandoned q row then some (zeros 65536) else s.readMember seen.unread [m] q row m 0 65536

/-- Carriers a rebuilt position may not take: those of the quire and of its targets, and those on their way. -/
def State.rebuildAvoid (s : State) (q : Nat) : List Nat :=
  (s.quire q).pos.map (·.1) ++ (s.quire q).targets.map (fun t => t.carrier)
    ++ (s.med.rebuilds.filter fun r => r.quire == q).map (·.carrier)

/-- The carrier and free erase group that a rebuilt position takes: outside the quire and the drain set, with room for its rows (R301, R315). -/
def State.rebuildGroup (s : State) (q : Nat) : Option (Nat × Nat) :=
  let x := s.quire q
  ((s.choices false).find? fun c => ! (s.rebuildAvoid q).contains c.1 && decide (x.rowsDone ≤ s.groupPages c.1 x.slc)).map fun c => (c.1, c.2.1)

/-- An active reshape would relocate the quire: it lies at or above the boundary, below END, and does not conform to the plan (R315, R324,
R325). -/
def State.reshapeMoves (s : State) (q : Nat) : Bool :=
  let x := s.quire q
  s.reshaping && decide (leAt s.cat.reshape 4 4 ≤ q) && decide (q < leAt s.cat.reshape 12 4) && ! s.conforms x

/-- The quire is relocated rather than rebuilt: v below the rebuild floor, three failed positions, a row with a range of three or more
missing members, no free erase group outside the quire, or a reshape that would relocate it (R315, R317). -/
def State.prefersRelocation (s : State) (seen : Seen) (q : Nat) : Bool :=
  let x := s.quire q
  decide (1024 * ((x.validBytes + 1023) / 1024) / max 1 (64 * x.d * x.rowsDone) < s.setting 0x0501 0 256)
    || decide (3 ≤ x.failedPositions.length)
    || ((List.range x.rowsDone).any fun row => x.failedPositions.any fun p => (s.rebuiltStrip seen q p row).isNone)
    || (s.rebuildGroup q).isNone || s.reshapeMoves q

/-- A quire's rebuilds stop (R317). -/
def State.dropRebuilds (q : Nat) (s : State) : State := { s with med := { s.med with rebuilds := s.med.rebuilds.filter fun r => r.quire != q } }

/-- The queue of every engine that a rebuild uses (R316). -/
def State.rebuildQueueNo (s : State) (q : Nat) : Nat := if 2 ≤ countOnes 34 (s.quire q).failed then 1 else 3

/-- Begin the rebuild of a position from row 0: a free erase group is taken and REBUILD_START queued. A group taken before for the position,
in this service or before a power loss, is given up (R315, R317). None where no group is free. -/
def State.startRebuild (q p : Nat) (s : State) : Option State :=
  (s.rebuildGroup q).map fun g =>
    let old := ((s.quire q).targets.filter fun t => t.position == p).map fun t => (t.carrier, t.egroup)
    let rest := s.med.rebuilds.filter fun r => ! (r.quire == q && r.position == p)
    let t := s.setGroupMode (s.rebuildQueueNo q) g.1 g.2 (s.quire q).slc
    let new : Rebuild := { quire := q, position := p, carrier := g.1, egroup := g.2, row := 0 }
    ({ t with med := { t.med with rebuilds := rest ++ [new],
                                  givenUp := t.med.givenUp ++ old } }).queueItems [itemRebuildStart q p g.1 g.2]

/-- Begin the rebuild of every failed position of a quire that has none; false where no group is free for one. -/
def State.startRebuilds (q : Nat) (s : State) : Bool × State :=
  ((s.quire q).failedPositions.filter fun p => ! s.rebuilding q p).foldl (fun a p => match a.2.startRebuild q p with
    | some t => (a.1, t)
    | none => (false, a.2)) (true, s)

/-- Mark an erase group grown-bad (R288). -/
def State.markBad (carrier egroup : Nat) (s : State) : State :=
  if s.med.grownBad.contains (carrier, egroup) then s
  else { s with med := { s.med with grownBad := s.med.grownBad ++ [(carrier, egroup)] } }

/-- The reads and the RECONSTRUCT of a strip. -/
def State.useRebuild (queue q : Nat) (s : State) : State :=
  let x := s.quire q
  ((x.pos.take x.d).foldl (fun t g => match t.serviceSlot g.1 with
    | some slot => t.useSequencer slot queue
    | none => t) s).useParity queue (x.d * 65536)

/-- The next row of a position's rebuild, once its REBUILD_START is applied: the strip is programmed, and REBUILD_DONE queued after the last.
A group that fails its program is retired, and another is taken from row 0. None where the strip cannot be rebuilt or no group is free. -/
def State.advanceRebuild (seen : Seen) (failed : List Nat) (r : Rebuild) (s : State) : Option State :=
  let x := s.quire r.quire
  let rest := s.med.rebuilds.filter fun y => ! (y.quire == r.quire && y.position == r.position)
  let queue := s.rebuildQueueNo r.quire
  if ¬ x.targets.contains ({ position := r.position, carrier := r.carrier, egroup := r.egroup } : Target) then some s
  else if x.rowsDone ≤ r.row then some (({ s with med := { s.med with rebuilds := rest } }).queueItems [itemRebuildDone r.quire r.position])
  else match s.rebuiltStrip seen r.quire r.position r.row with
    | none => none
    | some b =>
      let ok := ! failed.contains r.position
      let t := (s.useRebuild queue r.quire).programStrip queue r.carrier r.egroup r.row ok b
      if ¬ ok then (((t.markBad r.carrier r.egroup).retireGroup r.carrier r.egroup)).startRebuild r.quire r.position
      else if r.row + 1 < x.rowsDone then some { t with med := { t.med with rebuilds := rest ++ [{ r with row := r.row + 1 }] } }
      else some (({ t with med := { t.med with rebuilds := rest } }).queueItems [itemRebuildDone r.quire r.position])

/-- Rebuild one more row of every position under rebuild of a quire; false where that cannot go on. -/
def State.advanceQuire (seen : Seen) (failed : List Nat) (q : Nat) (s : State) : Bool × State :=
  (s.med.rebuilds.filter fun r => r.quire == q).foldl (fun a r => if ¬ a.1 then a else match a.2.advanceRebuild seen failed r with
    | some t => (true, t)
    | none => (false, a.2)) (true, s)

/-- Erase groups given up by rebuilds that no quire record names any more, or have the head of their share do so; they return to the free
pool (R317, R345). -/
def State.eraseGivenUp (s : State) : State :=
  let free := s.med.givenUp.filter fun g => ! s.groupInUse 0 g.1 g.2
  free.foldl (fun t g => t.eraseOne 0 g.1 g.2 true) { s with med := { s.med with givenUp := s.med.givenUp.filter fun g => ! free.contains g } }

/-- Rebuilds of quires that are freed or under relocation stop. -/
def State.stopRebuilds (s : State) : State :=
  (s.rebuildQuires.filter fun q => (s.quire q).state == 5 || s.isRelocating q).foldl (fun t q => t.dropRebuilds q) s

/-- Relocate a quire under R315; its rebuilds stop. -/
def Press.recover (seen : Seen) (q : Nat) (p : Press) : Press := ({ p with s := p.s.dropRebuilds q }).relocate seen [] q 6

/-- Begin the rebuild or the relocation of a quire. -/
def State.beginRecovery (seen : Seen) (fails : List (List Nat)) (q : Nat) (s : State) : State :=
  if (s.quire q).validBytes = 0 ∨ s.prefersRelocation seen q then ((Press.mk s fails).drainWaiting.recover seen q).s
  else
    let (ok, t) := s.startRebuilds q
    if ok then t else ((Press.mk t fails).drainWaiting.recover seen q).s

/-- Begin the rebuild or relocation that is first in line; with none to begin, rebuild one more row of the quire that has waited longest among
those under rebuild. `fails` are, for a rebuild, the positions whose program fails; in a relocation, for each row, the positions. -/
def execRebuildBegin (seen : Seen) (fails : List (List Nat)) (s : State) : Host.Outcome State Fault Refusal :=
  .next (if ¬ s.managesMedia then s
    else
      let s := s.stopRebuilds.eraseGivenUp
      match s.rebuildNext, s.rebuildQuires.head? with
      | some q, _ => s.beginRecovery seen fails q
      | none, none => s
      | none, some q =>
        let (ok, t) := s.advanceQuire seen (fails.headD []) q
        if ok then t else ((Press.mk t (fails.drop 1)).drainWaiting.recover seen q).s)

/-! ### The conservation pass (R321, R322) -/

/-- Count one in the statistics of the pass: 0 rows checked, 1 clean, 2 P or Q only, 3 located, 4 not located, 5 a digest fails in a
clean row, 6 a strip unreadable, 7 quires relocated. -/
def State.countPass (i : Nat) (s : State) : State :=
  { s with med := { s.med with conserveStats := setNth i (s.med.conserveStats.getD i 0 + 1) s.med.conserveStats } }

/-- CHECK of a row: its members, none when a strip is missing; else the P_BAD, Q_BAD, LOCATED and Z bits of R309. -/
def State.checkRow (s : State) (seen : Seen) (q row : Nat) : Option Nat :=
  let x := s.quire q
  let strips := (List.range (x.d + 2)).map fun m => s.readStrip seen.unread q row m 0 65536
  if strips.any Option.isNone then none
  else
    let all := strips.map fun b => b.getD []
    let data := (all.take x.d).zipIdx.map fun p => (p.2, p.1)
    let sp := xorBytes (all.getD x.d []) (stripP 65536 data)
    let sq := xorBytes (all.getD (x.d + 1) []) (stripQ 65536 data)
    some (checkDetail x.d sp sq % 65536)

/-- FIRST_CIDs of the folios whose records name a row. -/
def State.foliosOfRow (s : State) (q row : Nat) : List Nat :=
  (Sparse.filter (fun _ x => x.blocks != 0 && x.shelf.quire == q && x.shelf.row == row) s.cat.content).map (·.1)

/-- The reads and the CHECK of a row on queue 3, counted as its DETAIL says (R321, R327). -/
def State.useCheck (q : Nat) (detail : Option Nat) (s : State) : State :=
  let x := s.quire q
  let t := x.pos.foldl (fun t g => match t.serviceSlot g.1 with
    | some slot => t.useSequencer slot 3
    | none => t) s
  match detail with
  | none => t
  | some d => t.useUnit clsParity 3 1 fun u t =>
      let t := t.bump64 (rParEng u + 0x8) (x.w * 65536)
      let t := if d % 4 = 0 then t else t.bump (rParEng u + 0x10) 1
      if d / 4 % 2 = 1 then t.bump (rParEng u + 0x14) 1 else t

/-- The decoding and verification of the folios of a row on queue 3 (R321). -/
def State.useVerify (seen : Seen) (q row : Nat) (s : State) : State :=
  ((s.foliosOfRow q row).filter fun f => ! (s.cat.record f).lost).foldl (fun t f =>
    t.useRead seen 3 (t.healRun seen f [] CoderCtx.reset (t.cat.chainTo 8 f)).1 (t.countedBlocks f)) s

/-- Have the keys of a folio's chain in slots. -/
def State.needChainKeys (f : Nat) (s : State) : State :=
  (s.cat.chainTo 8 f).foldl (fun t g => t.needKey (t.cat.record g).domain (t.cat.record g).keyGen) s

/-- What verifying a folio of the row gave: the members it needed taken as missing; none when no attempt verifies. -/
def State.verifyFolio (s : State) (seen : Seen) (f : Nat) : Option (List Nat) :=
  let (ds, bad) := s.healRun seen f [] CoderCtx.reset (s.cat.chainTo 8 f)
  match bad, ds.getLast? with
  | none, some d => some d.taken
  | _, _ => none

/-- Folios of a row with what each came to, LOST ones passed over. -/
def State.verifyRow (s : State) (seen : Seen) (q row : Nat) : List (Nat × Option (List Nat)) :=
  ((s.foliosOfRow q row).filter fun f => ! (s.cat.record f).lost).map fun f => (f, s.verifyFolio seen f)

/-- Relocate a quire on a finding of the pass in a row; with eight rebuilds and recoveries in progress the row is looked at again (R316). -/
def Press.relocateFound (seen : Seen) (taken : List (Nat × List Nat)) (q row : Nat) (p : Press) : Press :=
  if ¬ p.s.movable q (p.s.quire q) then p
  else if ¬ p.s.mayRecover then { p with s := { p.s with med := { p.s.med with reports := p.s.med.reports ++ [(q, row)] } } }
  else (Press.mk ((p.s.countPass 7).dropRebuilds q) p.fails).relocate seen taken q 6

/-- Positions that are not failed, on carriers in service, whose strip of a row cannot be read. -/
def State.unreadPositions (s : State) (seen : Seen) (q row : Nat) : List Nat :=
  let x := s.quire q
  (List.range x.w).filter fun p => x.failed / 2 ^ p % 2 == 0 && (s.serviceSlot (x.pos.getD p (0xFFFF, 0)).1).isSome
    && (s.readStrip seen.unread q row (x.memberAt row p) 0 65536).isNone

/-- Failures that repeat on one erase group of a row: POSITION_FAILED, cause 0x02; a first one is kept in mind (R314, R322). -/
def State.failRepeated (seen : Seen) (q row : Nat) (s : State) : State :=
  let x := s.quire q
  let group (p : Nat) := x.pos.getD p (0xFFFF, 0)
  let again (p : Nat) : Bool := s.med.readFails.contains (group p) || match s.serviceSlot (group p).1 with
    | some slot => decide (2 ≤ ((s.car slot).group (group p).2).failed.length)
    | none => false
  let found := s.unreadPositions seen q row
  let first := (found.filter fun p => ! again p).map group
  ({ s with med := { s.med with readFails := s.med.readFails ++ first } } : State).failPositions q (found.filter again) 2

/-- Check one row and act on the finding (R322). -/
def Press.conserve (seen : Seen) (q row : Nat) (p : Press) : Press :=
  let s := (p.s.foliosOfRow q row).foldl (fun t f => t.needChainKeys f) (p.s.countPass 0)
  let found := s.checkRow seen q row
  let s := (s.useCheck q found).useVerify seen q row
  match found with
  | none =>
    let lost := (s.verifyRow seen q row).filter fun r => r.2.isNone
    { p with s := lost.foldl (fun t r => t.queueLost r.1) ((s.countPass 6).failRepeated seen q row) }
  | some detail =>
    if detail % 8 = 0 then
      let lost := (s.verifyRow seen q row).filter fun r => r.2 != some []
      { p with s := lost.foldl (fun t r => t.queueLost r.1) (s.countPass (if lost.isEmpty then 1 else 5)) }
    else if detail % 8 = 1 ∨ detail % 8 = 2 then (Press.mk (s.countPass 2) p.fails).relocateFound seen [] q row
    else
      let z := detail / 256
      let without : Seen := { seen with unread := (q, row, z, 0, 65536) :: seen.unread }
      let again := s.verifyRow without q row
      if detail / 4 % 2 = 1 ∧ again.all (fun r => r.2 == some []) then (Press.mk (s.countPass 3) p.fails).relocateFound without [] q row
      else
        let found := s.verifyRow seen q row
        let t := (found.filter fun r => r.2.isNone).foldl (fun t r => t.queueLost r.1) (s.countPass 4)
        (Press.mk t p.fails).relocateFound seen (found.filterMap fun r => r.2.map fun m => (r.1, m)) q row

/-- The row the pass comes to next: the first at or after its position that a content record names, in a closed quire of this head
(R321). -/
def State.nextRow (s : State) : Option (Nat × Nat) :=
  let rows := s.cat.content.filterMap fun r =>
    let q := r.2.shelf.quire
    let x := s.quire q
    if r.2.blocks ≠ 0 ∧ (x.state = 2 ∨ x.state = 3) ∧ ¬ s.isRelocating q ∧ s.ownsQuire q ∧ r.2.shelf.row < x.rowsDone then some (q, r.2.shelf.row) else none
  let before (a b : Nat × Nat) : Bool := decide (a.1 < b.1 ∨ (a.1 = b.1 ∧ a.2 < b.2))
  let least (l : List (Nat × Nat)) : Option (Nat × Nat) := l.foldl (fun b r => match b with
    | some x => if before r x then some r else b
    | none => some r) none
  let at_ := (s.med.conserveQuire, s.med.conserveRow)
  match least (rows.filter fun r => ! before r at_) with
  | some r => some r
  | none => least rows

/-- One row of the pass; rows that retrievals reported come first (R359). `fails` are, for each row a relocation writes, the positions
whose program fails. -/
def execConservationRow (seen : Seen) (fails : List (List Nat)) (s : State) : Host.Outcome State Fault Refusal :=
  .next (if ¬ s.managesMedia ∨ ¬ s.basesSet then s
    else match s.med.reports with
      | (q, row) :: rest =>
        let s := { s with med := { s.med with reports := rest } }
        if (s.quire q).state = 2 ∨ (s.quire q).state = 3 ∨ (s.quire q).state = 1 then ((Press.mk s fails).drainWaiting.conserve seen q row).s else s
      | [] => match s.nextRow with
        | none => s
        | some (q, row) =>
          let s := { s with med := { s.med with conserveQuire := q, conserveRow := row + 1 } }
          ((Press.mk s fails).drainWaiting.conserve seen q row).s)

/-! ### Reshaping (R323, R324) -/

/-- The lowest quire at or above the boundary and below END in the table. -/
def State.boundaryQuire (s : State) : Option (Nat × Quire) :=
  s.quires.find? fun p => decide (leAt s.cat.reshape 4 4 ≤ p.1) && decide (p.1 < leAt s.cat.reshape 12 4) && p.2.state != 0

/-- The plan with another boundary and ACTIVE. -/
def State.planItem (s : State) (boundary active : Nat) : List Byte :=
  itemReshape boundary (leAt s.cat.reshape 8 1) active (leAt s.cat.reshape 12 4) (leAt s.cat.reshape 16 12)

/-- A RESHAPE item is on its way. -/
def State.reshapeQueued (s : State) : Bool := s.unappliedItems.any fun i => leAt i 0 2 == 0x0804

/-- One step of the boundary; a cancel takes effect once no reshape relocation is in progress. The end is queued by head 0, or by the
SOLO head. -/
def execReshapeStep (seen : Seen) (fails : List (List Nat)) (s : State) : Host.Outcome State Fault Refusal :=
  .next (if ¬ s.managesMedia ∨ ¬ s.reshaping ∨ s.reshapeQueued then s
    else if s.med.reshapeCancel then
      (if s.relocations 4 ≠ 0 then s
       else ({ s with med := { s.med with reshapeCancel := false } } : State).queueItems [s.planItem (leAt s.cat.reshape 4 4) 0])
    else match s.boundaryQuire with
      | none => if s.ownsQuire 0 then s.queueItems [s.planItem (leAt s.cat.reshape 12 4) 0] else s
      | some (q, x) =>
        if ¬ s.ownsQuire q then s
        else if x.state = 5 ∨ s.conforms x then s.queueItems [s.planItem (q + 1) 1]
        else if x.state = 1 then (if s.closing q then s else s.queueItems [itemClosed q x.rowsDone])
        else if s.movable q x ∧ s.relocations 4 < 2 then ((Press.mk s fails).drainWaiting.relocate seen [] q 4).s
        else s)

end Sys2Proof.Machine
end

