-- ==== Sys2Proof/Machine/Ed448.lean ====
section
/-! DEFINITION. Ed448 signatures, as RFC 8032 specifies them, with a context (R471, R523, R524, R531). -/

namespace Sys2Proof.Machine

/-- The field prime, the curve constant d and the group order. -/
def edP : Nat := 2 ^ 448 - 2 ^ 224 - 1
def edD : Nat := edP - 39081
def edL : Nat := 2 ^ 446 - 13818066809895115352007386748515426880336692474882178609894547503885

/-- a to the n-th power in the field, by at most `fuel` bits of n. -/
def edPow : Nat → Nat → Nat → Nat
  | 0, _, _ => 1
  | fuel + 1, a, n => if n = 0 then 1 else (if n % 2 = 1 then a else 1) * edPow fuel (a * a % edP) (n / 2) % edP

/-- The inverse in the field. -/
def edInv (a : Nat) : Nat := edPow 450 a (edP - 2)

/-- A point in projective coordinates. -/
structure EdPoint where
  x : Nat
  y : Nat
  z : Nat
  deriving DecidableEq, Repr

/-- The neutral point and the base point. -/
def EdPoint.zero : EdPoint := { x := 0, y := 1, z := 1 }
def EdPoint.base : EdPoint :=
  { x := 224580040295924300187604334099896036246789641632564134246125461686950415467406032909029192869357953282578032075146446173674602635247710,
    y := 298819210078481492676017930443930673437544040154080242095928241372331506189835876003536878655418784733982303233503462500531545062832660,
    z := 1 }

/-- The sum of two points. -/
def EdPoint.add (p q : EdPoint) : EdPoint :=
  let a := p.z * q.z % edP
  let b := a * a % edP
  let c := p.x * q.x % edP
  let d := p.y * q.y % edP
  let e := edD * c % edP * d % edP
  let f := (b + edP - e) % edP
  let g := (b + e) % edP
  let h := (p.x + p.y) * (q.x + q.y) % edP
  { x := a * f % edP * ((h + 2 * edP - c - d) % edP) % edP, y := a * g % edP * ((d + edP - c) % edP) % edP, z := f * g % edP }

/-- n times a point, by at most `fuel` bits of n. -/
def EdPoint.mul : Nat → Nat → EdPoint → EdPoint
  | 0, _, _ => EdPoint.zero
  | fuel + 1, n, p =>
    if n = 0 then EdPoint.zero
    else
      let r := EdPoint.mul fuel (n / 2) (p.add p)
      if n % 2 = 1 then r.add p else r

/-- The 57 bytes of a point. -/
def EdPoint.bytes (p : EdPoint) : List Byte :=
  let zi := edInv p.z
  leBytes 57 (p.y * zi % edP + 2 ^ 455 * (p.x * zi % edP % 2))

/-- The point that 57 bytes encode. -/
def EdPoint.ofBytes (b : List Byte) : Option EdPoint :=
  let v := ofLe b
  let y := v % 2 ^ 455
  let u := (y * y + edP - 1) % edP
  let w := (edD * (y * y % edP) + edP - 1) % edP
  let x := edPow 3 u 3 * w % edP * edPow 450 (edPow 3 u 5 * edPow 3 w 3 % edP) ((edP - 3) / 4) % edP
  if b.length ≠ 57 ∨ edP ≤ y ∨ w * (x * x % edP) % edP ≠ u then none
  else if x = 0 ∧ v / 2 ^ 455 = 1 then none
  else some { x := if x % 2 = v / 2 ^ 455 then x else edP - x, y := y, z := 1 }

/-- The prefix of every hash of a signature with a context. -/
def edDom (context : List Byte) : List Byte := ascii "SigEd448" ++ [0, BitVec.ofNat 8 context.length] ++ context

/-- The secret scalar and the hash prefix of a 57-byte seed. -/
def edSecret (seed : List Byte) : Nat × List Byte :=
  let h := shake256 114 seed
  (ofLe (h.take 56) % 2 ^ 447 / 4 * 4 + 2 ^ 447, h.drop 57)

/-- The public key of a seed. -/
def edPublic (seed : List Byte) : List Byte := (EdPoint.mul 448 (edSecret seed).1 EdPoint.base).bytes

/-- The signature of a message. -/
def edSign (seed context msg : List Byte) : List Byte :=
  let (a, prefix_) := edSecret seed
  let dom := edDom context
  let pub := edPublic seed
  let r := ofLe (shake256 114 (dom ++ prefix_ ++ msg)) % edL
  let rb := (EdPoint.mul 448 r EdPoint.base).bytes
  let k := ofLe (shake256 114 (dom ++ rb ++ pub ++ msg)) % edL
  rb ++ leBytes 57 ((r + k * a) % edL)

/-- A signature verifies. -/
def edVerify (pub context msg sig : List Byte) : Bool :=
  match EdPoint.ofBytes pub, EdPoint.ofBytes (sig.take 57) with
  | some a, some r =>
    let s := ofLe (sig.drop 57)
    let k := ofLe (shake256 114 (edDom context ++ sig.take 57 ++ pub ++ msg)) % edL
    sig.length == 114 && decide (s < edL) && (EdPoint.mul 448 s EdPoint.base).bytes == (r.add (EdPoint.mul 448 k a)).bytes
  | _, _ => false

end Sys2Proof.Machine
end

