-- ==== Sys2Proof/Machine/RingRun.lean ====
section
/-! DEFINITION. Running the commands of a control ring (R491, R492). -/

namespace Sys2Proof.Machine

/-- Run the first fetched command of a ring that the supervisor serves, when its OPCODE is `op` and it is not in execution already. -/
def State.onRing (r op : Nat) (body : List Byte → State → State) (s : State) : State :=
  match (s.cring r).fetched with
  | c :: _ => if decide (r < 4) && s.supervisorRuns && ! (s.cring r).busy && ! badRingCommand c && leAt c 0 2 == op then body c s else s
  | [] => s

def ringArg0 (c : List Byte) : Nat := leAt c 8 8
def ringArg1 (c : List Byte) : Nat := leAt c 16 8
def ringArg2 (c : List Byte) : Nat := leAt c 24 8
def ringDataAddr (c : List Byte) : Nat := leAt c 32 8
def ringDataLen (c : List Byte) : Nat := leAt c 40 4

/-- The DATA of a command as the head host's memory holds it; none where it cannot be read. -/
def State.ringData (s : State) (c : List Byte) (data : Option (List Byte)) : Option (List Byte) :=
  if ringDataLen c = 0 then some []
  else match data with
    | some d => if s.ep.linkUp ∧ ringDataLen c ≤ 65536 ∧ d.length = ringDataLen c then some d else none
    | none => none

/-- Run a command with its DATA, or end it with DATA_FAULT. -/
def State.onRingData (r op : Nat) (data : Option (List Byte)) (body : List Byte → List Byte → State → State) (s : State) : State :=
  s.onRing r op fun c s => match s.ringData c data with
    | some d => body c d s
    | none => s.crComplete r crDataFault 0 0

/-- Leave the first fetched command of a ring in execution. -/
def State.ringWait (r : Nat) (s : State) : State := s.modCring r fun x => { x with busy := true }

end Sys2Proof.Machine
end

