-- ==== Sys2Proof/Machine/Seals.lean ====
section
/-! DEFINITION. Snapshot orders (R469), the deletion of views (R470) and seals (R471, R472). -/

namespace Sys2Proof.Machine

/-! ### Snapshot orders (R469) -/

/-- Views of a namespace besides its live view. -/
def State.viewsOf (s : State) (nsid : Nat) : List View := s.cat.views.filter fun v => v.nsid == nsid && v.kind != 0

/-- This head decides for a namespace: it exists, and this head is in service and holds its custody set. -/
def State.holdsNs (s : State) (nsid : Nat) : Bool :=
  let n := Sparse.get Namespace.none nsid s.cat.namespaces
  s.acc.running && n.size != 0 && s.holdsSet n.groupB

/-- A snapshot may be ordered: the limits on views leave room (R465). -/
def State.viewRoom (s : State) (nsid : Nat) : Bool := decide ((s.viewsOf nsid).length < 1024) && decide (s.cat.views.length < 65536)

/-- Take an order; N is the open cycle. -/
def State.orderSnapshot (nsid : Nat) (label : List Byte) (kind : Nat) (reply peer : Option Nat) (ack : Option (Nat × Nat × Nat)) (s : State) : State :=
  let o : SnapOrder := { nsid := nsid, n := s.acc.openCycle, label := label, kind := kind, reply := reply, peer := peer, ack := ack, queued := false }
  { s with snp := { s.snp with orders := s.snp.orders ++ [o] } }

/-- SNAPSHOT of a control ring. -/
def execCrSnapshot (r : Nat) (data : Option (List Byte)) (s : State) : Host.Outcome State Fault Refusal :=
  .next (s.onRingData r 3 data fun c d s =>
    if d.length ≠ 32 then s.crComplete r crOutOfRange 0 0
    else if s.holdsNs (ringArg0 c) ∧ s.viewRoom (ringArg0 c) then (s.orderSnapshot (ringArg0 c) d 1 (some r) none none).ringWait r
    else s.crComplete r crRefused 0 0)

/-- Every entry of a namespace with CYCLE at or below N has queued its deltas or been freed. -/
def State.pointReached (s : State) (nsid n : Nat) : Bool :=
  let waits (base : Nat) := (s.headers base).any fun h => h.nsid == nsid && (h.state == 2 || h.state == 3) && decide (h.cycle ≤ n)
  decide (n < s.acc.openCycle) && ! waits s.ownBase && ! (s.soloMode && waits s.mirrorBase)

/-- The SNAPSHOT item of the oldest order of a namespace is queued. -/
def execSnapshotItemQueue (nsid : Nat) (s : State) : Host.Outcome State Fault Refusal :=
  .next (match s.snp.orders.find? fun o => o.nsid == nsid && ! o.queued with
    | none => s
    | some o =>
      if ¬ s.holdsNs nsid ∨ ¬ s.pointReached nsid o.n then s
      else
        let s := { s with snp := { s.snp with orders := mapWhere (fun x => x == o) (fun x => { x with queued := true }) s.snp.orders } }
        match o.reply with
        | some r => s.queueAnswered (itemsSnapshot nsid o.n o.label) (.snapshot r nsid)
        | none => s.queueItems (itemsSnapshot nsid o.n o.label))

/-! ### Deleting a view (R470) -/

/-- A view is the source of a shipment. -/
def State.shipping (s : State) (v : Nat) : Bool := (s.snp.shipments ++ s.snp.restarts).any fun x => x.view == v || x.base == v

/-- A seal of a view is in progress. -/
def State.sealing (s : State) (v : Nat) : Bool := (s.snp.seals.any fun j => j.view == v && ! j.gone) || s.viewItemQueued 5 v

def execCrViewDelete (r : Nat) (s : State) : Host.Outcome State Fault Refusal :=
  .next (s.onRing r 4 fun c s =>
    match s.cat.viewNo (ringArg0 c) with
    | none => s.crComplete r crRefused 0 0
    | some v =>
      if v.kind = 0 ∨ v.deleting ∨ ¬ s.holdsNs v.nsid ∨ s.shipping v.view ∨ s.sealing v.view ∨ s.viewItemQueued 2 v.view then s.crComplete r crRefused 0 0
      else (s.queueAnswered [itemView 2 v.view 0] (.ring r 0)).ringWait r)

/-! ### Seals (R471, R472) -/

/-- v(b) of a block. -/
def State.sealValue (s : State) (v : View) (size domain lba : Nat) : List Byte :=
  if size ≤ lba then zeros 32
  else match s.cat.resolve v.root lba with
    | .unmapped => zeros 32
    | .zero => s.zeroPrint domain
    | .unreadable => List.replicate 32 0xFF
    | .cid n => match s.cat.firstOf n with
      | some f => if (s.cat.record f).lost then List.replicate 32 0xFF else s.cat.digestOf n
      | none => List.replicate 32 0xFF

/-- The groups under a root, in order. -/
def Catalogue.groupsUnder (c : Catalogue) (root : Nat) : List Group := (c.nodesUnder 8 root).flatMap fun n => (c.node n).groups

/-- Pages of a view with a block that is not UNMAPPED, in increasing order. -/
def State.sealPages (s : State) (v : View) (size : Nat) : List Nat :=
  let used := (s.cat.groupsUnder v.root).filter fun g => decide (g.lba < size) && g.blocks.any fun m => m != .unmapped
  ((used.map fun g => g.lba / 4096).eraseDups).mergeSort

/-- The manifest of a view: header, page entries, signature and padding. -/
def State.manifest (s : State) (v : View) : List Byte :=
  let ns := Sparse.get Namespace.none v.nsid s.cat.namespaces
  let value (lba : Nat) := s.sealValue v ns.size ns.domain lba
  let pages := s.sealPages v ns.size
  let entries := pages.flatMap fun j =>
    leBytes 8 j ++ shake256 64 (ascii "TKSP" ++ leBytes 8 j ++ (List.range 4096).flatMap fun i => value (4096 * j + i))
  let states := (s.cat.groupsUnder v.root).flatMap fun g => (List.range 8).filterMap fun i =>
    if ns.size ≤ g.lba + i ∨ g.blocks.getD i .unmapped = .unmapped then none else some (decide (value (g.lba + i) = List.replicate 32 0xFF))
  let head := leBytes 4 0x4C534B54 ++ leBytes 2 1 ++ zeros 2 ++ padTo 16 s.arrayId ++ leBytes 4 v.nsid ++ leBytes 4 v.view
    ++ leBytes 8 v.cycle ++ leBytes 8 ns.size ++ leBytes 8 pages.length ++ leBytes 8 (states.filter fun b => ! b).length
    ++ leBytes 8 (states.filter id).length ++ padTo 32 v.label
  let root := shake256 64 (ascii "TKSM" ++ head ++ entries)
  let body := head ++ root ++ padTo 88 (edPublic s.kpr.seed) ++ entries
  let signed := body ++ edSign s.kpr.seed [] body
  padTo ((signed.length + 4095) / 4096 * 4096) signed

/-- Put a seal into the list of those in progress. -/
def State.putSeal (j : SealJob) (s : State) : State := { s with snp := { s.snp with seals := s.snp.seals ++ [j] } }

/-- Begin the seal of a view: the manifest is signed, a checkpoint quire for its pages is opened, and the partner is told. -/
def State.startSeal (v : View) (ring : Option Nat) (s : State) : State :=
  let m := s.manifest v
  let (q, t) := s.openCheckpointQuire []
  (t.putSeal { view := v.view, manifest := m, quire := q.head?, ring := ring, gone := false }).tellPartner msgSeal (leBytes 4 v.view)

/-- Hand the manifest to the head host, in a DATA buffer where the command gives one (log entry 40), and answer once SEALED is durable. -/
def State.handManifest (j : SealJob) (items : List (List Byte)) (s : State) : State :=
  match j.ring with
  | none => s.queueItems items
  | some r =>
    let c := ((s.cring r).fetched.head?).getD []
    let (ok, t) := if ringDataLen c = 0 then (true, s) else s.hostWrite 0 (ringDataAddr c) (j.manifest.take (ringDataLen c))
    if ok then t.queueAnswered items (.ring r j.manifest.length) else (t.queueItems items).crFinish r crDataFault 0

/-- The manifest's pages are durable: SEALED names them, and their quire closes. -/
def State.sealed (j : SealJob) (q first rows : Nat) (s : State) : State :=
  let t := { s with snp := { s.snp with manifests := (s.snp.manifests.filter fun (x : Nat × List Byte) => x.1 != j.view) ++ [(j.view, j.manifest)] } }
  t.handManifest j [itemView 5 j.view (q + first * 2 ^ 32 + rows * 2 ^ 48), itemClosed q (t.durableRows q)]

/-- Carry a seal on: open its quire, write its pages once the quire is open, in another quire where this one takes no more (R472). -/
def State.advanceSeal (fails : List (List Nat)) (j : SealJob) (s : State) : State :=
  match j.quire with
  | none =>
    if j.gone then s else let (q, t) := s.openCheckpointQuire []; t.putSeal { j with quire := q.head? }
  | some q =>
    if (s.quire q).state = 0 then s.putSeal j
    else if (s.quire q).state ≠ 1 ∨ s.closing q then (if j.gone then s else s.putSeal { j with quire := none })
    else if j.gone then s.queueItems [itemClosed q (s.durableRows q)]
    else
      let (r, p) := Press.writeUnits s.headNo s.checkpointSeq q 4 false (pageRows (pagesPerRow (s.quire q).d) j.manifest) none { s := s, fails := fails }
      match r with
      | some x => p.s.sealed j q x.1 x.2
      | none => (p.s.queueItems [itemClosed q (p.s.durableRows q)]).putSeal { j with quire := none }

/-- Views whose seal is due: snapshots of ARCHIVE namespaces (R469), and those whose seal the partner had begun (R472). -/
def State.sealsDue (s : State) : List View :=
  s.cat.views.filter fun v => v.kind != 0 && ! v.deleting && ! v.isSealed && ! s.sealing v.view && s.holdsNs v.nsid
    && ((v.kind == 1 && (Sparse.get Namespace.none v.nsid s.cat.namespaces).profile == 0) || s.snp.partnerSeals.contains v.view)

/-- Carry every seal on, and begin those that are due. -/
def State.advanceSeals (fails : List (List Nat)) (s : State) : State :=
  let jobs := s.snp.seals
  let t := jobs.foldl (fun t j => t.advanceSeal fails j) { s with snp := { s.snp with seals := [] } }
  t.sealsDue.foldl (fun t v => t.startSeal v none) t

/-- SEAL of a control ring. -/
def execCrSeal (r : Nat) (s : State) : Host.Outcome State Fault Refusal :=
  .next (s.onRing r 5 fun c s =>
    match s.cat.viewNo (ringArg0 c) with
    | none => s.crComplete r crRefused 0 0
    | some v =>
      if v.kind = 0 ∨ v.deleting ∨ v.isSealed ∨ ¬ s.holdsNs v.nsid ∨ s.sealing v.view ∨ s.viewItemQueued 2 v.view then s.crComplete r crRefused 0 0
      else (s.startSeal v (some r)).ringWait r)

end Sys2Proof.Machine
end

