-- ==== Sys2Proof/Machine/Streams.lean ====
section
/-! DEFINITION. Replication and export streams (R473 to R476) and the repair of LOST folios from a peer (R319, R320). -/

namespace Sys2Proof.Machine

/-! ### AES-256-GCM (R254, R474) -/

/-- CTR from a counter block. -/
def ctrBytes (key : List Byte) : Nat → List Byte → List (List Byte) → List Byte
  | _, _, [] => []
  | k, j0, b :: t => xorBytes b ((aesEnc key (addCounter (k + 1) j0)).take b.length) ++ ctrBytes key (k + 1) j0 t

/-- Pad to whole blocks. -/
def pad16 (b : List Byte) : List Byte := padTo (up16 b.length) b

/-- The tag of a message. -/
def gcmTag (key iv aad ct : List Byte) : List Byte :=
  let h := aesEnc key (zeros 16)
  xorBytes (aesEnc key (iv ++ beBytes 4 1)) (ghash h (pad16 aad ++ pad16 ct ++ beBytes 8 (8 * aad.length) ++ beBytes 8 (8 * ct.length)))

/-- Encrypt or decrypt the payload. -/
def gcmCrypt (key iv m : List Byte) : List Byte := ctrBytes key 0 (iv ++ beBytes 4 1) (pieces 16 m)

/-- The service slot of the streams of a peer (log entry 41). -/
def streamSlot (peer : Nat) : Nat := 4032 + peer % 64
/-- The key of a peer's streams, when its slot is loaded. -/
def State.streamKey (s : State) (peer : Nat) : Option (List Byte) :=
  let c := s.cslot (streamSlot peer)
  if c.state = .empty then none else some c.halfA

/-! ### Messages (R474) -/

/-- The 64-byte header of a message. -/
def streamHeader (type stream seq len a0 a1 : Nat) : List Byte :=
  leBytes 1 type ++ zeros 1 ++ leBytes 2 1 ++ leBytes 4 stream ++ leBytes 8 seq ++ leBytes 4 len ++ zeros 4 ++ leBytes 8 a0 ++ leBytes 8 a1 ++ zeros 24

/-- The IV of a message. -/
def streamIv (stream seq : Nat) : List Byte := leBytes 4 stream ++ leBytes 8 seq

/-- The claims and commands of one message of `n` bytes under a peer's slot: the block that gives H once per key load, CTR, and the tag
block (R246, R254). False when a claim is refused. -/
def State.useGcm (peer n : Nat) (s : State) : Bool × State :=
  let first := if (s.cslot (streamSlot peer)).use = 0 then 1 else 0
  let blocks := first + (n + 15) / 16 + 1
  match s.claimUses (streamSlot peer) blocks with
  | (ok, t) => (ok, if ok then t.useCipher 2 (first + (if n = 0 then 1 else 2)) blocks else t)

/-- Send a message of a stream; a spent key sends nothing. -/
def State.sendStream (peer type stream seq a0 a1 : Nat) (payload : List Byte) (s : State) : State :=
  match s.streamKey peer with
  | none => s
  | some key => match s.useGcm peer payload.length with
    | (false, s) => s
    | (true, s) =>
      let h := streamHeader type stream seq payload.length a0 a1
      let ct := gcmCrypt key (streamIv stream seq) payload
      s.emit (.stream peer (h ++ ct ++ gcmTag key (streamIv stream seq) h ct))

/-- What a message that arrives turns out to be. -/
inductive Opened where
  /-- Not a message of the format; it is passed over. -/
  | malformed
  /-- Its tag fails. -/
  | untrusted
  | good (header payload : List Byte)
  deriving DecidableEq, Repr

/-- Check and decrypt a message of a TYPE; a tag that fails counts in CPH_UNIT_NOT_TRUSTED of the unit that checked it (R255), which
the spec leaves open. -/
def State.openMessage (s : State) (peer type : Nat) (msg : List Byte) : Opened :=
  let h := msg.take 64
  let n := leAt h 16 4
  match s.streamKey peer with
  | none => .malformed
  | some key =>
    if msg.length ≠ 80 + n ∨ leAt h 0 1 ≠ type ∨ leAt h 1 1 ≠ 0 ∨ leAt h 2 2 ≠ 1 ∨ leAt h 20 4 ≠ 0 ∨ leAt h 40 8 ≠ 0 ∨ leAt h 48 8 ≠ 0 ∨ leAt h 56 8 ≠ 0 then
      .malformed
    else
      let ct := slice msg 64 n
      if gcmTag key (h.drop 4 |>.take 12) h ct = msg.drop (64 + n) then .good h (gcmCrypt key (h.drop 4 |>.take 12) ct) else .untrusted

def msgStream (h : List Byte) : Nat := leAt h 4 4
def msgSeq (h : List Byte) : Nat := leAt h 8 8
def msgArg0 (h : List Byte) : Nat := leAt h 24 8
def msgArg1 (h : List Byte) : Nat := leAt h 32 8

/-- Take a message of a TYPE: one whose tag fails is asked for again, and counted (R475). -/
def State.onMessage (peer type : Nat) (msg : List Byte) (body : List Byte → List Byte → State → State) (s : State) : State :=
  match s.openMessage peer type msg with
  | .malformed => s
  | opened =>
  match opened, s.useGcm peer (msg.length - 80) with
  | _, (false, s) => s
  | .malformed, _ => s
  | .untrusted, (true, s) =>
    let u := s.freeWord.toNat % classUnits clsCipher
    (s.takeFree.bump (rCphUnit u + 0x14) 1).emit (.streamRepeat peer (msgStream msg) (msgSeq msg))
  | .good h p, (true, s) => body h p s

/-! ### Sending a shipment (R473) -/

/-- Blocks of a group as a GROUP message carries them: masks, and content ID and data of each MAPPED block. -/
structure GroupOut where
  masks : Nat
  blocks : List (Nat × List Byte)
  s : State
  deriving DecidableEq, Repr

/-- Read the blocks of a group in a view. -/
def State.groupOut (seen : Seen) (root lba : Nat) (s : State) : GroupOut :=
  (List.range 8).foldl (fun g i =>
    match g.s.cat.resolve root (lba + i) with
    | .unmapped => { g with masks := g.masks + 2 ^ (16 + i) }
    | .zero => { g with masks := g.masks + 2 ^ (8 + i) }
    | .unreadable => { g with masks := g.masks + 2 ^ (24 + i) }
    | .cid n => match g.s.fetchCid seen n with
      | (.ok d, t) => { masks := g.masks + 2 ^ i, blocks := g.blocks ++ [(n, d)], s := t }
      | (_, t) => { g with masks := g.masks + 2 ^ (24 + i), s := t }) { masks := 0, blocks := [], s := s }

/-- LBAs of the groups whose mapping differs between two roots; a base root of 0 has no groups. -/
def Catalogue.differing (c : Catalogue) (base root : Nat) : List Nat :=
  let old := if base = 0 then [] else c.groupsUnder base
  let all := ((c.groupsUnder root ++ old).map (·.lba)).eraseDups.mergeSort
  let empty (l : Nat) := Group.empty l
  all.filter fun l => (c.groupAt root l).blocks != (if base = 0 then (empty l).blocks else (c.groupAt base l).blocks)

/-- The GROUP messages of a shipment: SEQ, chain position and context run on. -/
def State.sendGroups (seen : Seen) (peer stream root profile : Nat) : List Nat → Nat → Nat → CoderCtx → State → Nat × State
  | [], seq, _, _, s => (seq, s)
  | lba :: t, seq, pos, ctx, s =>
    let g := s.groupOut seen root lba
    let data := g.blocks.flatMap (·.2)
    let x := codeStep profile (seq % 2 ^ 32) (pos == 0) data ctx
    let payload := if g.blocks.isEmpty then [] else (g.blocks.flatMap fun b => g.s.cat.digestOf b.1) ++ x.bytes
    let s := (if g.blocks.isEmpty then g.s else g.s.useCoder 2 [x.counted data.length]).sendStream peer 2 stream seq lba g.masks payload
    if g.blocks.isEmpty then s.sendGroups seen peer stream root profile t (seq + 1) pos ctx
    else s.sendGroups seen peer stream root profile t (seq + 1) ((x.position + 1) % 8) x.after

/-- The SEAL messages of a manifest, in parts of 4,096 bytes. -/
def State.sendSeal (peer stream total : Nat) : List (List Byte) → Nat → Nat → State → Nat × State
  | [], _, seq, s => (seq, s)
  | p :: t, off, seq, s => (s.sendStream peer 4 stream seq off total p).sendSeal peer stream total t (off + p.length) (seq + 1)

/-- Ship a view to a peer as the difference from a base view, 0 for none. -/
def State.ship (seen : Seen) (v : View) (base peer : Nat) (reply : Option Nat) (dropBase : Bool) (s : State) : State :=
  let ns := Sparse.get Namespace.none v.nsid s.cat.namespaces
  let stream := s.snp.nextStream
  let begin_ := padTo 16 s.arrayId ++ leBytes 4 v.nsid ++ leBytes 1 ns.profile ++ zeros 3 ++ leBytes 2 ns.domain ++ zeros 6 ++ leBytes 8 v.cycle
    ++ leBytes 8 ns.size ++ zeros 48 ++ padTo 32 v.label
  let s := s.sendStream peer 1 stream 1 base v.view begin_
  let lbas := s.cat.differing (((s.cat.viewNo base).map (·.root)).getD 0) v.root
  let (seq, s) := s.sendGroups seen peer stream v.root ns.profile lbas 2 0 CoderCtx.reset
  let (seq, s) := match s.snp.manifests.find? fun m => m.1 == v.view with
    | some m => s.sendSeal peer stream m.2.length (pieces 4096 m.2) 0 seq
    | none => (seq, s)
  let s := s.sendStream peer 3 stream seq lbas.length 0 []
  let x : Shipment := { stream := stream, nsid := v.nsid, base := base, view := v.view, peer := peer, endSeq := seq, reply := reply, dropBase := dropBase }
  ({ s with snp := { s.snp with nextStream := stream + 1, shipments := s.snp.shipments ++ [x] } } : State).tellShipment x

/-- Start a shipment again at BEGIN, on a queue pair that is not in ERROR and while its view is there (R476). -/
def State.restartShipment (seen : Seen) (x : Shipment) (s : State) : State :=
  if ¬ s.holdsNs x.nsid ∨ (s.qp x.peer).state = 3 ∨ (s.streamKey x.peer).isNone then s
  else
    let s := { s with snp := { s.snp with restarts := s.snp.restarts.filter fun y => y != x } }
    match s.cat.viewNo x.view with
    | some v => s.ship seen v x.base x.peer x.reply x.dropBase
    | none => match x.reply with
      | some r => s.crFinish r crRefused 0
      | none => s

/-- SHIP of a control ring. -/
def execCrShip (r : Nat) (seen : Seen) (s : State) : Host.Outcome State Fault Refusal :=
  .next (s.onRing r 6 fun c s =>
    let nsid := ringArg0 c
    let base := ringArg1 c % 2 ^ 32
    let peer := ringArg2 c
    match s.cat.viewNo (ringArg1 c / 2 ^ 32) with
    | none => s.crComplete r crRefused 0 0
    | some v =>
      let goodBase := base == 0 || (match s.cat.viewNo base with
        | some b => b.nsid == nsid && b.kind != 0 && ! b.deleting
        | none => false)
      if v.kind = 0 ∨ v.deleting ∨ v.nsid ≠ nsid ∨ ¬ goodBase ∨ ¬ s.holdsNs nsid ∨ (s.streamKey peer).isNone then s.crComplete r crRefused 0 0
      else (s.ship seen v base peer (some r) false).ringWait r)

/-- The ship interval passes: a replication view is ordered, to be shipped to the peer; skipped while a shipment of the namespace
runs (R473, R476). -/
def execShipInterval (nsid peer : Nat) (s : State) : Host.Outcome State Fault Refusal :=
  .next (if s.holdsNs nsid ∧ s.viewRoom nsid ∧ (s.streamKey peer).isSome ∧ ¬ (s.snp.shipments ++ s.snp.restarts).any (fun x => x.nsid == nsid)
      ∧ ¬ s.snp.orders.any (fun o => o.nsid == nsid) then
      (let t := s.orderSnapshot nsid (zeros 32) 2 none (some peer) none
       { t with snp := { t.snp with shippedAt := Sparse.set 0 nsid s.elapsed t.snp.shippedAt } })
    else s)

/-- An ACK of a shipment: the peer's view is paired with the one shipped, and the order for it is answered. -/
def execStreamAck (peer : Nat) (msg : List Byte) (s : State) : Host.Outcome State Fault Refusal :=
  .next (s.onMessage peer 5 msg fun h _ s =>
    match s.snp.shipments.find? fun x => x.peer == peer && x.stream == msgStream h with
    | none => s
    | some x =>
      if msgArg1 h = 0 ∨ msgArg0 h < x.endSeq then s
      else
        let s := { s with snp := { s.snp with shipments := s.snp.shipments.filter fun y => y.stream != x.stream,
                                              peerViews := s.snp.peerViews ++ [(peer, x.view, msgArg1 h)] } }
        let s := s.tellPartner msgShipped (leBytes 4 x.view ++ leBytes 4 peer)
        let s := if x.dropBase ∧ x.base ≠ 0 ∧ ¬ s.viewItemQueued 2 x.base ∧ (s.cat.viewNo x.base).isSome then s.queueItems [itemView 2 x.base 0] else s
        match x.reply with
        | some r => s.crFinish r crOk (msgArg1 h)
        | none => s)

/-! ### Receiving (R475) -/

/-- The stream of a peer being received. -/
def State.inbound (s : State) (peer stream : Nat) : Option Inbound := s.snp.inbound.find? fun x => x.peer == peer && x.stream == stream
/-- Put back a stream. -/
def State.setInbound (x : Inbound) (s : State) : State :=
  { s with snp := { s.snp with inbound := s.snp.inbound.filter (fun y => ! (y.peer == x.peer && y.stream == x.stream)) ++ [x] } }

/-- BEGIN: the stream writes the namespace of the same NSID, which becomes a replica (log entry 42). -/
def execStreamBegin (peer : Nat) (msg : List Byte) (s : State) : Host.Outcome State Fault Refusal :=
  .next (s.onMessage peer 1 msg fun h p s =>
    let nsid := leAt p 16 4
    if p.length ≠ 128 ∨ msgSeq h ≠ 1 ∨ ¬ s.holdsNs nsid then s
    else
      let x : Inbound := { peer := peer, stream := msgStream h, nsid := nsid, seq := 1, groups := 0, chain := CoderCtx.reset, profile := leAt p 20 1,
                           domain := leAt p 24 2, size := leAt p 40 8, label := slice p 96 32, manifest := [], ended := false }
      let replicas := if s.snp.replicas.contains nsid then s.snp.replicas else s.snp.replicas ++ [nsid]
      ({ s with snp := { s.snp with replicas := replicas } } : State).setInbound x)

/-- One write of the device's own: data, or a run of blocks to zero or unmap. -/
structure InnerWrite where
  lba : Nat
  data : Option (List Byte)
  unmap : Bool
  count : Nat
  deriving DecidableEq, Repr

/-- Land a write of the device's own (R475). -/
def State.innerWrite (nsid : Nat) (w : InnerWrite) (s : State) : State :=
  let ns := Sparse.get Namespace.none nsid s.cat.namespaces
  let h : Header := { no := 0, cycle := 0, slba := w.lba, nsid := nsid, nblk := w.count, state := 1, noData := w.data.isNone, profile := ns.profile,
                      off := 0, domain := ns.domain }
  let (no, t) := s.allocate h (if w.data.isSome then w.count else 0) none w.unmap (if w.data.isSome then s.reservationOf w.count else 0)
  match w.data with
  | some d => (t.performWrite (t.ownBase + ((t.ownHeader no).map Header.off).getD 0) (d.map fun b => (true, b))).append no
  | none => t.append no

/-- The writes of a GROUP's masks: MAPPED blocks take the folio's blocks in order. -/
def groupWrites (lba masks : Nat) (data : List Byte) : List InnerWrite :=
  (List.range 8).filterMap fun i =>
    if masks / 2 ^ i % 2 = 1 then
      some { lba := lba + i, data := some (slice data (4096 * countOnes 8 (masks % 2 ^ i)) 4096), unmap := false, count := 1 }
    else if masks / 2 ^ (8 + i) % 2 = 1 then some { lba := lba + i, data := none, unmap := false, count := 1 }
    else if masks / 2 ^ (16 + i) % 2 = 1 then some { lba := lba + i, data := none, unmap := true, count := 1 }
    else none

/-- GROUP: taken in SEQ order, when the buffer has room for it. Blocks the source cannot read become unreadable. -/
def execStreamGroup (peer : Nat) (msg : List Byte) (s : State) : Host.Outcome State Fault Refusal :=
  .next (s.onMessage peer 2 msg fun h p s =>
    match s.inbound peer (msgStream h) with
    | none => s
    | some x =>
      let masks := msgArg1 h
      let n := countOnes 8 (masks % 256)
      let folio := p.drop (32 * n)
      if msgSeq h ≠ x.seq + 1 ∨ x.ended ∨ ¬ s.holdsNs x.nsid ∨ ¬ s.mayAllocate (8 * n) ∨ ¬ s.openRoom 8 ∨ ¬ s.canReserve (8 * n) then s
      else
        let d := decodeFolio folio folio.length (4096 * n) x.chain
        let s := if n = 0 then s else s.useDecoder 2 1 d.out.length
        if n ≠ 0 ∧ d.status ≠ 0 then s
        else
        let s := (groupWrites (msgArg0 h) masks d.out).foldl (fun t w => t.innerWrite x.nsid w) s
        let bad := masks / 2 ^ 24 % 256
        let s := if bad = 0 then s else s.queueItems [itemMap 4 bad x.nsid (groupOf (msgArg0 h)) 0]
        s.setInbound { x with seq := x.seq + 1, groups := x.groups + 1, chain := if n = 0 then x.chain else d.after })

/-- SEAL: a part of the source's manifest. -/
def execStreamSeal (peer : Nat) (msg : List Byte) (s : State) : Host.Outcome State Fault Refusal :=
  .next (s.onMessage peer 4 msg fun h p s =>
    match s.inbound peer (msgStream h) with
    | none => s
    | some x =>
      if msgSeq h ≠ x.seq + 1 ∨ x.ended ∨ msgArg1 h < msgArg0 h + p.length then s
      else s.setInbound { x with seq := x.seq + 1, manifest := patch (padTo (msgArg1 h) x.manifest) (msgArg0 h) p })

/-- END: the replica is snapshot once its entries are placed; the ACK follows with the view. -/
def execStreamEnd (peer : Nat) (msg : List Byte) (s : State) : Host.Outcome State Fault Refusal :=
  .next (s.onMessage peer 3 msg fun h _ s =>
    match s.inbound peer (msgStream h) with
    | none => s
    | some x =>
      if msgSeq h ≠ x.seq + 1 ∨ x.ended ∨ msgArg0 h ≠ x.groups ∨ ¬ s.holdsNs x.nsid ∨ ¬ s.viewRoom x.nsid then s
      else
        (s.orderSnapshot x.nsid x.label 2 none none (some (peer, x.stream, msgSeq h))).setInbound { x with seq := x.seq + 1, ended := true })

/-! ### Repair requests (R319, R320, R474, R475) -/

/-- REPAIR_REQ: answered from the view it names, and only with a block that verified. -/
def execRepairReq (peer : Nat) (msg : List Byte) (seen : Seen) (s : State) : Host.Outcome State Fault Refusal :=
  .next (s.onMessage peer 6 msg fun h p s =>
    let lba := msgArg0 h
    match s.cat.viewNo (msgArg1 h) with
    | none => s.sendStream peer 7 (msgStream h) (msgSeq h) lba 2 []
    | some v =>
      if v.nsid ≠ leAt p 0 4 ∨ v.deleting then s.sendStream peer 7 (msgStream h) (msgSeq h) lba 2 []
      else match s.viewBlock seen v.root lba with
        | (.ok d, t) => t.sendStream peer 7 (msgStream h) (msgSeq h) lba 0 d
        | (.zero, t) => t.sendStream peer 7 (msgStream h) (msgSeq h) lba 0 (zeros 4096)
        | (_, t) => t.sendStream peer 7 (msgStream h) (msgSeq h) lba 1 [])

/-- REPAIR_RESP: the block is kept when its fingerprint is the digest of the content ID asked for; else the peer has failed for it. -/
def execRepairResp (peer : Nat) (msg : List Byte) (s : State) : Host.Outcome State Fault Refusal :=
  .next (s.onMessage peer 7 msg fun h p s =>
    match s.snp.repairs.find? fun x => x.1 == msgStream h && x.2.2 == peer with
    | none => s
    | some (stream, cid, _) =>
      let s := { s with snp := { s.snp with repairs := s.snp.repairs.filter fun x => x.1 != stream } }
      let domain := ((s.cat.firstOf cid).map fun f => (s.cat.record f).domain).getD 0
      if msgArg1 h = 0 ∧ p.length = 4096 ∧ fingerprint (s.digestKey domain) p = s.cat.digestOf cid then
        { s with snp := { s.snp with repairBlocks := Sparse.set [] cid p s.snp.repairBlocks } }
      else { s with snp := { s.snp with repairFailed := s.snp.repairFailed ++ [(peer, cid)] } })

/-- A block of a view that maps to a content ID. -/
def Catalogue.mapsTo (c : Catalogue) (root cid : Nat) : Option Nat :=
  (c.groupsUnder root).findSome? fun g => (List.range 8).findSome? fun i => if g.blocks.getD i .unmapped = .cid cid then some (g.lba + i) else none

/-- A peer that holds a view naming a content ID and has not failed for it: peer, its view, NSID and logical block. -/
def State.repairSource (s : State) (cid : Nat) : Option (Nat × Nat × Nat × Nat) :=
  s.snp.peerViews.findSome? fun (peer, own, theirs) =>
    if s.snp.repairFailed.contains (peer, cid) ∨ (s.streamKey peer).isNone then none
    else match s.cat.viewNo own with
      | some v => (s.cat.mapsTo v.root cid).map fun lba => (peer, theirs, v.nsid, lba)
      | none => none

/-- Ask a peer for a block. -/
def State.askRepair (cid : Nat) (x : Nat × Nat × Nat × Nat) (s : State) : State :=
  let stream := s.snp.nextStream
  let t := s.sendStream x.1 6 stream 1 x.2.2.2 x.2.1 (leBytes 4 x.2.2.1)
  { t with snp := { t.snp with nextStream := stream + 1, repairs := t.snp.repairs ++ [(stream, cid, x.1)] } }

/-- Content IDs of a suffix whose count is above 0. -/
def State.repairCids (s : State) (suffix : List Nat) : List Nat := suffix.flatMap fun f => (s.countedBlocks f).map fun i => f + i

/-- The data of a repaired folio: verified blocks, and zero bytes for blocks that nothing names. -/
def State.repairedData (s : State) (f : Nat) : List Byte :=
  (List.range (s.cat.record f).blocks).flatMap fun i => padTo 4096 (Sparse.get [] (f + i) s.snp.repairBlocks)

/-- Encode, encrypt under a slot and place the folios of a suffix in order; a refused claim ends it (R319). -/
def Press.repairFolios (slot : Nat) : List Nat → CoderCtx → Press → Press
  | [], _, p => p
  | f :: t, ctx, p =>
    let x := p.s.cat.record f
    let c := codeStep x.profile (f % 2 ^ 32) (x.position == 0) (p.s.repairedData f) ctx
    let folio := { movedFolio f x x.shelf.quire 0 c.bytes with repair := true, revision := x.revision + 1 }
    match (p.s.useCoder 1 [c.counted (4096 * x.blocks)]).encryptWith slot 1 folio with
    | (none, s) => { p with s := s }
    | (some bytes, s) => (({ p with s := s } : Press).addFolio { folio with bytes := bytes } 4).repairFolios slot t c.after

/-- A suffix stays LOST and is reported. -/
def State.giveUp (f : Nat) (s : State) : State :=
  if s.snp.unrepaired.contains f then s else { s with snp := { s.snp with unrepaired := s.snp.unrepaired ++ [f] } }

/-- The LOST suffix that begins with a folio. -/
def State.lostSuffix (s : State) (f : Nat) : List Nat := (s.cat.suffix f).filter fun g => (s.cat.record g).lost

/-- Repair the LOST suffix that begins at a folio: blocks not at hand are asked of peers; once every one has verified, its folios are
encoded again and placed at the next revision. -/
def State.repairSuffix (seen : Seen) (fails : List (List Nat)) (f : Nat) (s : State) : State :=
  let suffix := s.lostSuffix f
  let have_ (cid : Nat) : Bool := (Sparse.get [] cid s.snp.repairBlocks).length == 4096
  let wanted := (s.repairCids suffix).filter fun cid => ! have_ cid
  if suffix.any fun g => (s.cat.record g).revision == 65535 then s.giveUp f
  else if ! wanted.isEmpty then
    let sources := wanted.map fun cid => (cid, s.repairSource cid)
    if sources.any fun x => x.2.isNone && ! s.snp.repairs.any (fun y => y.2.1 == x.1) then s.giveUp f
    else sources.foldl (fun t x => match x.2 with
      | some y => if t.snp.repairs.any (fun z => z.2.1 == x.1) then t else t.askRepair x.1 y
      | none => t) s
  else
    let s := s.needChainKeys f
    let before := (s.cat.chainTo 8 f).dropLast
    let (ds, bad) := s.healRun seen f [] CoderCtx.reset before
    if bad.isSome then s.giveUp f
    else
      let ctx := ((ds.getLast?).map (·.after)).getD CoderCtx.reset
      match s.fillSlot (s.cat.record f).domain (s.cat.record f).keyGen false false with
      | (none, s) => s
      | (some i, s) => (((Press.mk s fails).drainWaiting.repairFolios i suffix ctx).s).retireSlot i

def execLostRepair (f : Nat) (seen : Seen) (fails : List (List Nat)) (s : State) : Host.Outcome State Fault Refusal :=
  .next (if s.managesMedia ∧ s.basesSet ∧ s.kpr.owner = .accepted ∧ (s.cat.record f).lost
      ∧ ((s.cat.record f).keyGen % 2 = s.headNo ∨ s.soloMode) then s.repairSuffix seen fails f
    else s)

/-! ### Snapshots once applied (R469, R471, R473, R475) -/

/-- What an applied snapshot still owes: the shipment of a replication view, the ACK of a stream. -/
def State.finishOrder (seen : Seen) (o : SnapOrder) (v : View) (s : State) : State :=
  let s := { s with snp := { s.snp with orders := s.snp.orders.filter fun x => ! (x.queued && x.nsid == o.nsid && x.n == o.n) } }
  let s := match o.peer with
    | some peer =>
      let base := ((s.snp.peerViews.filter fun x => x.1 == peer && (match s.cat.viewNo x.2.1 with
        | some b => b.nsid == o.nsid && b.kind == 2 && ! b.deleting
        | none => false)).getLast?).map (·.2.1)
      s.ship seen v (base.getD 0) peer none true
    | none => s
  match o.ack with
  | none => s
  | some (peer, stream, seq) =>
    let m := ((s.inbound peer stream).map (·.manifest)).getD []
    let s := { s with snp := { s.snp with inbound := s.snp.inbound.filter fun x => ! (x.peer == peer && x.stream == stream),
                                          manifests := if m.isEmpty then s.snp.manifests else s.snp.manifests ++ [(v.view, m)] } }
    s.sendStream peer 5 stream seq seq v.view []

/-- Finish the orders whose snapshot is applied, carry the seals on, and start again the shipments that a custody transfer or an error ended. -/
def State.finishOrders (seen : Seen) (s : State) : State :=
  let s := s.snp.restarts.foldl (fun t x => t.restartShipment seen x) s
  ((s.snp.orders.filter fun o => o.queued).foldl (fun t o =>
    match t.cat.views.find? fun v => v.nsid == o.nsid && v.kind != 0 && v.cycle == o.n with
    | some v => t.finishOrder seen o v
    | none => t) s).advanceSeals seen.fails

end Sys2Proof.Machine
end

