-- ==== Sys2Proof/Machine/Cycles.lean ====
section
/-! DEFINITION. The application of a ledger cycle with what follows from it (R230, R284, R337, R349, R470). -/

namespace Sys2Proof.Machine

/-- What follows once cycle `n` is applied. -/
def State.afterApply (seen : Seen) (n : Nat) (s : State) : State :=
  let s := s.returnFreed n
  let s := ((s.freeEmpty.freeDeleted.deleteOrphans).walkViews)
  let s := (s.sendAnswers (fun a => a.needsApply) n).finishOrders seen
  let s := { s with acc := { s.acc with own := s.acc.own.filter (fun r => decide (n < r.cycle)), partner := s.acc.partner.filter fun r => decide (n < r.cycle) } }
  if s.checkpointDue n then s.beginCheckpoint n else s

/-- A change of the hot threshold takes effect from the cycle it names (R291). -/
def State.takeHot (n : Nat) (s : State) : State :=
  match s.med.hotNext with
  | some (c, v) => if c ≤ n then ({ s with med := { s.med with hotNext := none } } : State).giveSetting 0x0406 0 v else s
  | none => s

/-- Apply the next cycle. -/
def State.applyNext (seen : Seen) (lists : List (List Byte) × List (List Byte)) (s : State) : State :=
  let n := s.acc.applied + 1
  let s := s.takeHot n
  let old := s.replaced (lists.1 ++ lists.2)
  let t := s.applyLists n lists.1 lists.2
  let t := old.foldl (fun t g => t.retireOne g.1 g.2.1 g.2.2) t
  (t.noteNamespaces (lists.1 ++ lists.2)).afterApply seen n

end Sys2Proof.Machine
end

