-- ==== Sys2Proof/Machine/Stack.lean ====
section
/-! DEFINITION. The stack: the registrar role, `STACK_SYNC` and stack snapshots (R477 to R479, R565). -/

namespace Sys2Proof.Machine

/-- Take the registrar role and raise STK_GEN; the head's own pair is in the stack table. -/
def State.takeRegistrar (s : State) : State :=
  if s.snp.registrar then s
  else ({ s with snp := { s.snp with registrar := true, lastPulse := s.elapsed, members := s.snp.members ||| 2 ^ s.pairNo } }).bump64 rStkGen 1

/-- Leave the registrar role. -/
def State.leaveRegistrar (s : State) : State := { s with snp := { s.snp with registrar := false } }

/-- The registrar drives a pulse every 1 ms. -/
def execStackSyncPulse (s : State) : Host.Outcome State Fault Refusal :=
  .next (if s.snp.registrar ∧ 1000000 ≤ s.elapsed.toNat - s.snp.lastPulse.toNat then { s with snp := { s.snp with lastPulse := s.elapsed } } else s)

/-- Order the snapshots due at an edge: each namespace this head holds, at its open cycle. -/
def State.edgeOrders (k : Nat) (s : State) : State :=
  let due := s.snp.stackOrders.filter fun o => o.1 == k
  let s := { s with snp := { s.snp with stackOrders := s.snp.stackOrders.filter fun o => o.1 != k } }
  due.foldl (fun t o => if t.holdsNs o.2 ∧ t.viewRoom o.2 then t.orderSnapshot o.2 (zeros 32) 1 none none none else t) s

/-- A falling edge, after the net has been high for `high` ns: it counts from 2 us on, and the whole 1 ms intervals since the edge
before it that saw none are missed. -/
def execStackSyncEdge (high : Nat) (s : State) : Host.Outcome State Fault Refusal :=
  .next (if high < 2000 then s
    else
      let missed := (s.elapsed.toNat - s.snp.lastEdge.toNat - 1) / 1000000
      let t := (s.bump64 rStkSyncCount 1).bump rStkSyncMissed missed
      ({ t with snp := { t.snp with lastEdge := t.elapsed } }).edgeOrders (t.reg64 rStkSyncCount))

/-- 10 ms without an edge while head 0 is unclean: the successor, head 1 of pair 0, takes the role. -/
def execStackSyncSilence (s : State) : Host.Outcome State Fault Refusal :=
  .next (if s.headNo = 1 ∧ s.pairNo = 0 ∧ s.hlt.mode ≠ .safe ∧ 10000000 ≤ s.elapsed.toNat - s.snp.lastEdge.toNat ∧ 0 < s.twn.peer.uncleanRun then s.takeRegistrar
    else s)

/-- STACK_SNAPSHOT of a control ring: accepted by the registrar, for an edge still to come; the other head of the pair is told. -/
def execCrStackSnapshot (r : Nat) (data : Option (List Byte)) (s : State) : Host.Outcome State Fault Refusal :=
  .next (s.onRingData r 12 data fun c d s =>
    if ¬ s.snp.registrar then s.crComplete r crRefused 0 0
    else if d.length % 4 ≠ 0 ∨ ringArg0 c ≤ s.reg64 rStkSyncCount then s.crComplete r crOutOfRange 0 0
    else
      let orders := (pieces 4 d).map fun b => (ringArg0 c, ofLe b)
      (({ s with snp := { s.snp with stackOrders := s.snp.stackOrders ++ orders } } : State).tellPartner msgStackOrder (leBytes 8 (ringArg0 c) ++ d)).crComplete r crOk 0 0)

end Sys2Proof.Machine
end

