-- ==== Sys2Proof/Machine/Replay.lean ====
section
/-! DEFINITION. What replay reads of the carriers and the restored regions (R342, R343), and the adoption of the partner's entries (R452). -/

namespace Sys2Proof.Machine

/-! ### Open quires (R343) -/

/-- A row's strips, missing ones rebuilt; none when more than two are missing. -/
def State.wholeRow (s : State) (seen : Seen) (q row : Nat) : Option (List (List Byte)) :=
  (List.range ((s.quire q).d + 2)).foldl (fun acc m => match acc, s.readMember seen.unread [] q row m 0 65536 with
    | some l, some b => some (l ++ [b])
    | _, _ => none) (some [])

/-- Replay accepts a row: its summary is sound and of this array, and a CHECK of the row is clean. -/
def State.acceptsRow (s : State) (seen : Seen) (q row : Nat) : Bool :=
  let d := (s.quire q).d
  match s.readSummary seen.unread q row, s.wholeRow seen q row with
  | some b, some strips =>
    let data := (strips.take d).zipIdx.map fun p => (p.2, p.1)
    slice b 24 16 == padTo 16 s.arrayId
      && checkDetail d (xorBytes (strips.getD d []) (stripP 65536 data)) (xorBytes (strips.getD (d + 1) []) (stripQ 65536 data)) % 8 == 0
  | _, _ => false

/-- The first row from `row` on that replay does not accept; at most `fuel` rows are accepted. -/
def State.acceptedTo (s : State) (seen : Seen) (q : Nat) : Nat → Nat → Nat
  | 0, row => row
  | fuel + 1, row => if row < (s.quire q).rows ∧ s.acceptsRow seen q row then s.acceptedTo seen q fuel (row + 1) else row

/-- Replay an open quire: it closes at the first row not accepted. -/
def State.replayQuire (seen : Seen) (q : Nat) (s : State) : State :=
  let x := s.quire q
  let r := s.acceptedTo seen q (x.rows - x.rowsDone) x.rowsDone
  s.queueItems [itemRows q r, itemClosed q r]

/-- An open quire of PURPOSE 5 belongs to a dump reserve: a checkpoint of this head names it, or it is the other head's and does not begin with a
CHECKPOINT row. -/
def State.inReserve (s : State) (seen : Seen) (q : Nat) : Bool :=
  (s.med.checkpoints.any fun c => c.dumpRes.contains q)
    || (q % 2 != s.headNo && ! (s.readSummary seen.unread q 0).any fun b => leAt b 6 1 == 3)

/-- Replay the open quires of one parity, partial checkpoint quires too (R341); a dump reserve is not replayed. -/
def State.replayParity (seen : Seen) (parity : Nat) (s : State) : State :=
  let due (q : Nat) (x : Quire) : Bool :=
    x.state == 1 && q % 2 == parity && ! s.closing q && (x.purpose != 5 || ! s.inReserve seen q)
  let open_ := (Sparse.filter due s.quires).map (·.1)
  open_.foldl (fun t q => t.replayQuire seen q) s

/-! ### The restored journal (R342) -/

/-- The items that follow a cycle header. -/
def State.journalItems (s : State) (p : Nat × List Byte) : List (List Byte) := pieces 32 (s.bytes (p.1 + 64) (32 * leAt p.2 24 4))

/-- A record as its cycle header and items in a segment show it; its entries and freed list are not kept there. -/
def State.journalRecord (s : State) (p : Nat × List Byte) : CycleRec :=
  { cycle := leAt p.2 8 8, entries := [], freed := [], items := s.journalItems p, check := leAt p.2 60 4, batch := leAt p.2 32 8, sentAt := s.elapsed,
    resentAt := s.elapsed, confirmed := true }

/-- This head's record of cycle `n` in its segments, if it is shown confirmed: by its flag, by the answer in the ledger area, or by a
partner header (R342). -/
def State.confirmedRecord (s : State) (n : Nat) : Option CycleRec :=
  match (s.journalHeaders s.ownBase).find? fun p => leAt p.2 8 8 == n with
  | none => none
  | some p =>
    let ans := s.arrivedAnswer n
    let byAnswer := leAt ans 28 4 == crc32c (ans.take 28) && leAt ans 0 2 == 2 && leAt ans 8 8 == n && leAt ans 16 4 == leAt p.2 60 4
    let byPartner := (s.journalHeaders s.mirrorBase).any fun m => decide (n ≤ leAt m.2 40 8)
    if leAt p.2 4 4 / 2 % 2 = 1 ∨ byAnswer ∨ byPartner then some (s.journalRecord p) else none

/-- The partner's record of cycle `n` in its mirrored segments. -/
def State.partnerRecord (s : State) (n : Nat) : Option CycleRec :=
  ((s.journalHeaders s.mirrorBase).find? fun p => leAt p.2 8 8 == n).map s.journalRecord

/-- Apply a cycle from records, head 0's items first. -/
def State.applyRecords (n : Nat) (own other : List (List Byte)) (s : State) : State :=
  if s.headNo = 0 then s.applyLists n own other else s.applyLists n other own

/-- Apply the restored cycles after the last applied one; from `solo` on this head's records alone count. At most `fuel` cycles. -/
def State.replayJournal (solo : Option Nat) : Nat → State → State
  | 0, s => s
  | fuel + 1, s =>
    let n := s.acc.applied + 1
    let alone : Bool := match solo with
      | some t => decide (t ≤ n)
      | none => false
    match s.confirmedRecord n, s.partnerRecord n with
    | some own, some other => (s.applyRecords n own.items other.items).replayJournal solo fuel
    | some own, none => if alone then (s.applyRecords n own.items []).replayJournal solo fuel else s
    | none, _ => s

/-- The highest cycle that anything in the two regions names. -/
def State.highestCycle (s : State) : Nat :=
  (((s.journalHeaders s.ownBase) ++ s.journalHeaders s.mirrorBase).map (fun p => leAt p.2 8 8)
    ++ (s.headers s.ownBase ++ s.headers s.mirrorBase).map (·.cycle)).foldl max s.acc.applied

/-! ### Numbers (R115, R342) -/

/-- The least number above `high` of this head's parity. -/
def State.nextOwn (s : State) (high : Nat) : Nat := if (high + 1) % 2 = s.headNo then high + 1 else high + 2

/-- Entry numbers go on above every number either head has used (R115). -/
def State.raiseEntries (high : Nat) (s : State) : State :=
  { s with acc := { s.acc with nextEntry := max s.acc.nextEntry (s.nextOwn (max high s.entryHigh)) } }

/-- Content ID batches go on above every batch recorded; the next ID starts a new batch (R139). -/
def State.raiseBatches (high : Nat) (s : State) : State :=
  let b := max high (max s.acc.batchClaimed s.acc.batchConfirmed)
  { s with acc := { s.acc with batchClaimed := b, batchConfirmed := b, ownBatch := b, nextCid := (b + 1) * 65536 } }

/-! ### Restored entries (R342, R452) -/

/-- A region's entries that are LANDED without a confirmed cycle are discarded; the others are placed again from their start. -/
def State.settleRegion (base : Nat) (s : State) : State :=
  (s.headers base).foldl (fun t h => t.modHeader base h.no fun h =>
    { h with state := if h.nsid = segmentNsid ∨ 3 ≤ h.state ∨ (h.state = 2 ∧ h.cycle ≠ 0 ∧ h.cycle ≤ s.acc.applied) then 3 else 0 }) s

/-- Ring entries in order with the slots that lie free before each: freed entries' slots, which return with it (R116). -/
def withHoles : Option Nat → List RingEntry → List RingEntry
  | _, [] => []
  | last, e :: t =>
    if e.slots = 0 then e :: withHoles last t
    else
      let gap := match last with
        | some a => if a ≤ e.slot then e.slot - a else dataSlots - a + e.slot
        | none => 0
      { e with skipped := gap } :: withHoles (some (e.slot + e.slots)) t

/-- The ring of this head's entries as the entry table shows it, in order of number (R116). Whether a NO_DATA entry was a Write Zeroes
or a Deallocate its header does not say, so the answer is a free value (log entry 162). -/
def State.rebuildRing (s : State) : State :=
  let hs := (s.headers s.ownBase).mergeSort fun a b => decide (a.no ≤ b.no)
  let entry (h : Header) : RingEntry :=
    { no := h.no, slot := (h.off - dataOff 0) / 4096, slots := if h.noData then 0 else h.nblk, skipped := 0, cmd := none,
      unmap := Config.unmapBit h.no, received := 0, reserved := if h.nsid = segmentNsid then 0 else s.reservationOf h.nblk, freedIn := none, freed := false }
  let ring := withHoles none (hs.map entry)
  let segs := (hs.filter fun h => h.nsid == segmentNsid).map fun h =>
    { no := h.no, used := segmentBytes, top := ((s.cycleHeaders 32768 (s.ownBase + h.off) segmentBytes).map fun p => leAt p.2 8 8).foldl max 0 }
  let at_ := match (ring.filter fun e => e.slots != 0).getLast? with
    | some e => e.slot + e.slots
    | none => 0
  { s with acc := { s.acc with ring := ring, ringAt := at_, segments := segs, segment := none, reserved := (ring.map (·.reserved)).foldl (· + ·) 0 } }

/-- Keep the mirrored entries confirmed in a cycle at or below `c`, and discard the others (R452). -/
def State.adoptMirror (c : Nat) (s : State) : State :=
  (s.headers s.mirrorBase).foldl (fun t h => t.modHeader t.mirrorBase h.no fun h =>
    { h with state := if h.nsid = segmentNsid ∨ (3 ≤ h.state ∧ h.cycle ≤ c) then 3 else 0 }) s

/-- Both regions hold nothing. -/
def State.clearRegions (s : State) : State :=
  let n := dataOff dataSlots
  let inside (a base : Nat) : Bool := decide (base ≤ a) && decide (a < base + n)
  { s with mem := Sparse.filter (fun a _ => ! (inside a s.ownBase || inside a s.mirrorBase)) s.mem }

end Sys2Proof.Machine
end

