-- ==== Sys2Proof/Machine/Health.lean ====
section
/-! DEFINITION. Heartbeats, health reports and their delivery (R443, R457, R458, R481, R492), and custody messages (R462). -/

namespace Sys2Proof.Machine

/-! ### Custody messages (R462) -/

def cmJoin : Nat := 1
def cmJoinAccept : Nat := 2
def cmJoinRefuse : Nat := 3
def cmJoined : Nat := 4
def cmReady : Nat := 5
def cmFailback : Nat := 6
def cmHandover : Nat := 7
def cmHandoverAccept : Nat := 8
def cmHandoverRefuse : Nat := 9

def whyLevel : Nat := 1
def whyNotSolo : Nat := 2
def whyNotClean : Nat := 3

/-- The 32 bytes of a custody message. -/
def custodyBytes (type head level reason cycle : Nat) : List Byte :=
  let b := leBytes 1 type ++ leBytes 1 head ++ leBytes 2 level ++ leBytes 4 reason ++ leBytes 8 cycle ++ zeros 12
  b ++ leBytes 4 (crc32c b)

/-- A custody message of this head. -/
def State.custodyMessage (s : State) (type reason cycle : Nat) : List Byte := custodyBytes type s.headNo s.kpr.level reason cycle

/-- Send a custody message that is repeated until it is answered or its cycle opens. -/
def State.sendCustody (type cycle : Nat) (s : State) : State :=
  let m := s.custodyMessage type 0 cycle
  { s.sendTwin 3 m with twn := { (s.sendTwin 3 m).twn with awaiting := some m, awaitingAt := s.elapsed } }

/-- The message awaiting an answer has been answered. -/
def State.endAwait (s : State) : State := { s with twn := { s.twn with awaiting := none } }

/-- Answer a custody message; a repeat of it is answered alike. -/
def State.answerCustody (msg : List Byte) (type reason cycle : Nat) (s : State) : State :=
  let m := s.custodyMessage type reason cycle
  { s.sendTwin 3 m with twn := { (s.sendTwin 3 m).twn with answered := some (msg, m) } }

/-! ### Contents of a report (R457) -/

/-- `n` bits from a predicate, bit 0 first. -/
def bitBytes (n : Nat) (p : Nat → Bool) : List Byte :=
  leBytes ((n + 7) / 8) (((List.range n).map fun i => if p i then 2 ^ i else 0).foldl (· + ·) 0)

/-- Bytes 0-27 of a heartbeat or report, and four zero bytes. While no supervisor runs MODE and bytes 6-23 are zero (R499). -/
def State.reportHead (s : State) (type : Nat) : List Byte :=
  let run := s.supervisorRuns
  let flags := (if s.twn.setA then 1 else 0) + (if s.twn.setB then 2 else 0) + (if s.hlt.restored then 4 else 0) + (if s.hlt.joined then 8 else 0)
  leBytes 1 type ++ leBytes 1 s.headNo ++ leBytes 1 (if run then s.hlt.mode.code else 0) ++ leBytes 1 flags ++ leBytes 2 s.kpr.level
    ++ (if run then leBytes 2 s.twn.cleanRun ++ leBytes 8 s.acc.openCycle ++ leBytes 8 s.acc.applied else zeros 18) ++ zeros 8

/-- A heartbeat. -/
def State.heartbeatBytes (s : State) : List Byte := let b := s.reportHead 1; patch b 28 (leBytes 4 (crc32c (b.take 28)))

/-- A packet engine is fenced: it has been stopped for good (R58). -/
def State.packetFenced (s : State) (e : Nat) : Bool := (s.core (100 + e)).run == .dead

/-- The fence bits, bytes 48-111. -/
def State.fenceBytes (s : State) : List Byte :=
  bitBytes 96 s.coreFenced ++ bitBytes 16 (fun c => decide (c < 12) && s.clusterFenced c) ++ zeros 2
    ++ bitBytes 32 (s.unitFenced clsCoder) ++ bitBytes 48 (s.unitFenced clsDecoder) ++ zeros 2
    ++ bitBytes 32 (s.unitFenced clsDigest) ++ bitBytes 128 (s.unitFenced clsCipher)
    ++ bitBytes 8 (s.unitFenced clsParity) ++ bitBytes 8 (fun a => decide (a < 4) && s.unitFenced clsCatalogue a) ++ bitBytes 8 (s.unitFenced clsSequencer)
    ++ bitBytes 8 (s.regBit rLpdFence) ++ bitBytes 16 (fun e => s.regBit (rDmaEngFence e) 0) ++ bitBytes 16 s.packetFenced
    ++ bitBytes 16 (fun b => decide (b < 12) && s.regBit (rMedBlk b + 4) 0) ++ bitBytes 16 (fun p => s.regBit (rEthPortFence p) 0)
    ++ bitBytes 8 (fun p => decide (p < 4) && s.regBit (rCxlPortFence p) 0) ++ zeros 3

/-- A unit was fenced since the last report. -/
def State.newlyFenced (s : State) : Bool :=
  (s.fenceBytes.zip (padTo 64 s.twn.lastFences)).any fun p => p.1 &&& (p.1 ^^^ p.2) != 0

/-- UNCLEAN as it stands (R458). -/
def State.uncleanNow (s : State) : Nat :=
  s.twn.unclean ||| (if s.newlyFenced then 1 else 0) ||| (if s.twn.katFailed ≠ 0 then 2 else 0) ||| (if s.pwr.holdupReady then 0 else 0x10)
    ||| (if s.kpr.owner = .accepted then 0 else 0x80)

/-- The 256 bytes of a health report. -/
def State.reportBytes (s : State) : List Byte :=
  let cars := (Sparse.filter (fun _ c => c.inService) s.carriers).map fun p => p.2.number
  let b := s.reportHead 2 ++ leBytes 8 s.twn.reportSeq ++ leBytes 8 s.elapsed.toNat ++ s.fenceBytes ++ bitBytes 96 (fun n => cars.contains n)
    ++ leBytes 4 s.twn.katRun ++ leBytes 4 s.twn.katFailed ++ leBytes 2 (wrapTo 16 s.pwr.temp) ++ leBytes 2 s.pwr.vholdMv ++ leBytes 4 s.uncleanNow
    ++ zeros 112
  b ++ leBytes 4 (crc32c b)

/-! ### Delivery to the head host (R481, R492) -/

/-- Write a report into the next slot of the health ring and raise vector 4, or keep the newest 64 until it can be delivered. -/
def State.deliverReport (b : List Byte) (s : State) : State :=
  if s.ep.healthRing ≠ 0 ∧ s.ep.linkUp then
    let (_, t) := s.hostWrite 0 (s.ep.healthRing + 256 * s.ep.healthSlot) b
    ({ t with ep := { t.ep with healthSlot := (t.ep.healthSlot + 1) % 64 } }).raiseVector 4
  else
    let l := s.twn.reportsHeld ++ [b]
    { s with twn := { s.twn with reportsHeld := l.drop (l.length - 64) } }

/-- Every 100 us a heartbeat goes out, with the link down too: the first that arrives restores it. -/
def execHeartbeatSend (s : State) : Host.Outcome State Fault Refusal :=
  .next (if s.elapsed.toNat - s.twn.sentAt.toNat < 100000 then s
    else
      let s := { s with twn := { s.twn with sentAt := s.elapsed } }
      if s.twn.retraining then { s with twn := { s.twn with held := s.twn.held ++ [(1, s.heartbeatBytes)] } } else s.emit (.twin 1 s.heartbeatBytes))

/-- The clean run after a report; one that came more than 150 ms after the last counts as missing, which is unclean (R458). -/
def State.nextCleanRun (s : State) : Nat :=
  if s.uncleanNow ≠ 0 then 0
  else if 150000000 < s.elapsed.toNat - s.twn.reportAt.toNat ∧ s.twn.reportSeq ≠ 0 then 1
  else satAt 65535 (s.twn.cleanRun + 1)

/-- A joined head that has completed RESTORE sends READY after 300 consecutive clean reports (R460). -/
def State.offerReady (s : State) : State :=
  if s.hlt.mode = .restore ∧ s.hlt.restored ∧ s.twn.phase = .joined ∧ 300 ≤ s.twn.cleanRun ∧ s.twn.awaiting.isNone then s.sendCustody cmReady 0 else s

def execHealthReportBuild (s : State) : Host.Outcome State Fault Refusal :=
  .next (if ¬ s.supervisorRuns ∨ s.elapsed.toNat - s.twn.reportAt.toNat < 100000000 then s
    else
      let s := { s with twn := { s.twn with cleanRun := s.nextCleanRun, reportSeq := s.twn.reportSeq + 1 } }
      let b := s.reportBytes
      let s := (s.sendTwin 1 b).deliverReport b
      ({ s with twn := { s.twn with reportAt := s.elapsed, lastFences := s.fenceBytes, unclean := 0, katRun := 0, katFailed := 0 } } : State).offerReady)

end Sys2Proof.Machine
end

