-- ==== Sys2Proof/Machine/Restore.lean ====
section
/-! DEFINITION. RESTORE: the checkpoint, the dumped regions, the journal and the open quires (R342, R344, R505 to R507), and taking both
sets (R451, R456). -/

namespace Sys2Proof.Machine

/-! ### The checkpoint and the regions -/

/-- The checkpoints whose header stands in an anchor group: this head's own, and the partner's that can be read. -/
def State.checkpointsFound (s : State) (shows : Shows) : List Checkpoint :=
  (s.med.checkpoints.filter fun c => c.head == s.headNo && s.anchorHolds c) ++ shows.checkpoint.toList

/-- The checkpoint RESTORE uses: the highest SEQ with this array's ARRAY_ID and the keeper's KEY_CHECK, this head's own where both wrote it. -/
def State.chooseCheckpoint (s : State) (shows : Shows) : Option Checkpoint :=
  let all := (s.checkpointsFound shows).filter fun c => padTo 16 c.arrayId == padTo 16 s.arrayId && c.keyCheck == s.kpr.keyCheck
  if s.serviceNumbers.isEmpty then none
  else all.foldl (fun b c => match b with
    | some x => if x.seq < c.seq then some c else b
    | none => some c) none

/-- Load a checkpoint: the trees, the quire table and the numbers it shows (R342, steps 1 and 2). -/
def State.loadCheckpoint (c : Checkpoint) (s : State) : State :=
  { s with
    cat := c.cat, quires := c.quires, deltas := [], eraseOut := [], eraseIn := [],
    acc := { s.acc.fresh with applied := c.cycle, openCycle := c.cycle + 1, openedAt := s.elapsed, batchConfirmed := c.batch, batchClaimed := c.batch },
    free := s.free + 1,
    med := { s.med.fresh with tier2Known := s.med.tier2Level == s.kpr.level || Config.freeBit s.free, quireHigh := c.quireHigh, conserveQuire := c.conserveQuire, conserveRow := c.conserveRow } }

/-- Put bytes by offset into a region. -/
def State.fillRegion (base : Nat) (l : List (Nat × Byte)) (s : State) : State :=
  { s with mem := l.foldl (fun m p => Sparse.set 0 (base + p.1) p.2 m) s.mem }

/-- Restore both regions from the dumps of a sequence; false where one has no complete source (R344). -/
def State.loadDumps (seq : Nat) (shows : Shows) (s : State) : Bool × State :=
  let usable (d : DumpImage) : Bool := d.seq == seq && s.dumpReadable d
  let own := if shows.ownDump then s.med.dumps.find? fun d => d.head == s.headNo && usable d else none
  let other := shows.dump.filter usable
  let region0 := match own, other with
    | some d, _ => some (s.undumpRegion d 0 d.region0)
    | none, some p => some (s.undumpRegion p 1 p.region1)
    | none, none => none
  let region1 := match own, other with
    | some d, _ => some (s.undumpRegion d 1 d.region1)
    | none, some p => some (s.undumpRegion p 0 p.region0)
    | none, none => none
  let s := s.clearRegions
  let s := match region0 with
    | some l => s.fillRegion s.ownBase l
    | none => s
  let s := match region1 with
    | some l => s.fillRegion s.mirrorBase l
    | none => s
  (region0.isSome && region1.isSome, s)

/-- The first cycle of this head's SOLO service as its carriers' ownership shows it (R402, R451). -/
def State.soloSince (s : State) : Option Nat :=
  (s.carriers.find? fun p => p.2.inService && p.2.owner == s.ownPort + 1).map fun p => p.2.epoch

/-- Enter SALVAGE in RESTORE with an error (R507). -/
def State.restoreFails (error : Nat) (s : State) : State :=
  ({ s with hlt := { s.hlt with error := error } } : State).setMode .salvage .none

/-- Steps 3 to 7 of R342 on a loaded checkpoint; `fresh` when the regions stand as they are. -/
def State.replay (seen : Seen) (shows : Shows) (c : Checkpoint) (fresh : Bool) (s : State) : State :=
  let (ok, s) := if fresh then (true, s) else s.loadDumps (c.seq + 1) shows
  let s := s.replayJournal s.soloSince ((s.journalHeaders s.ownBase).length + 1)
  if ¬ ok then { s.restoreFails 3 with hlt := { (s.restoreFails 3).hlt with step := 3 } }
  else
    let batch := ((s.journalHeaders s.ownBase ++ s.journalHeaders s.mirrorBase).map fun p => leAt p.2 32 8).foldl max c.batch
    let s := ((s.replayParity seen s.headNo).settleRegion s.ownBase).rebuildRing
    let s := (s.raiseEntries c.entryHigh).raiseBatches batch
    let next := s.highestCycle + 1
    { s with acc := { s.acc with openCycle := next, last := next - 1 }, hlt := { s.hlt with step := 9, error := 0, kept := true } }

/-- Run steps 1 to 7 of R342 (R505); the head holds at step 1 where no header fits, with NO_ARRAY where there is none at all (R506). -/
def State.runSteps (seen : Seen) (shows : Shows) (s : State) : State :=
  match s.chooseCheckpoint shows with
  | none => { s with hlt := { s.hlt with step := 1, error := if (s.checkpointsFound shows).isEmpty then 1 else 0 } }
  | some c =>
    if ¬ shows.table then { s.restoreFails 2 with hlt := { (s.restoreFails 2).hlt with step := 2 } }
    else (s.loadCheckpoint c).replay seen shows c s.hlt.kept

/-! ### Rejoining (R459) -/

/-- The partner is in SOLO or holds custody (R505). -/
def State.partnerServes (s : State) : Bool := s.twn.linkUp && s.twn.peer.seen && (s.twn.peer.mode == 3 || s.twn.peer.setA || s.twn.peer.setB)

/-- Ask the SOLO head to take this head back. -/
def State.startJoin (s : State) : State :=
  let s := { s with hlt := { s.hlt with step := 8, error := 0 }, twn := { s.twn with phase := .asking, answered := none } }
  s.tellLevels.sendCustody cmJoin 0

/-! ### Holding both sets (R451, R456) -/

/-- OWNERSHIP of every carrier in service: to this head, or back to SPLIT, for a newer epoch (R402, R403). -/
def State.ownCarriers (take : Bool) (epoch : Nat) (s : State) : State :=
  { s with carriers := s.carriers.map fun p =>
      (p.1, if p.2.inService ∧ p.2.epoch < epoch then { p.2 with owner := if take then s.ownPort + 1 else 0, epoch := epoch } else p.2) }

/-- Apply every cycle that can be applied; at most `fuel`. -/
def State.applyAll (seen : Seen) : Nat → State → State
  | 0, s => s
  | fuel + 1, s => match s.cycleLists with
    | some lists => (s.applyNext seen lists).applyAll seen fuel
    | none => s

/-- Twin state of a head that takes both sets. -/
def Twin.solo (now : Word64) (w : Twin) : Twin :=
  { w with setA := true, setB := true, drive := true, phase := .idle, awaiting := none, answered := none, aliveAt := now }

/-- Mode state of a head in service. -/
def Hlt.serving (h : Hlt) : Hlt := { h with restored := true, joined := false, step := 0, error := 0, kept := true }

/-- Change whether a taken set is being restored, and report it (R373). -/
def State.setTaking (b : Bool) (s : State) : State := ({ s with svc := { s.svc with taking := b, changeSince := none } }).anaChange

/-- The survivor releases the acknowledgements of its cycles that lack a CONFIRM, each as its list is durable (R453). -/
def State.confirmOwn (s : State) : State :=
  let waiting := (s.acc.own.filter fun r => ! r.confirmed).map (·.cycle)
  waiting.foldl (fun t n => t.confirmCycle n) s.releaseAcks

/-- Enter SOLO with both sets held and no request to the other head left. -/
def State.takeBoth (s : State) : State :=
  let s := s.setMode .solo .none
  ({ s with twn := s.twn.solo s.elapsed, hlt := s.hlt.serving, acc := { s.acc with running := true }, eraseOut := [], eraseIn := [] } : State).takeShipments

/-- Write T of a takeover; head 0 or 1 of pair 0 takes the registrar role (R451, R478). -/
def State.noteTakeover (t : Nat) (s : State) : State :=
  let s := { s with twn := { s.twn with takeoverCycle := BitVec.ofNat 64 t } }
  if s.pairNo = 0 then s.takeRegistrar else s

/-- Adopt the partner's entries and apply every confirmed cycle (R451 to R453). -/
def State.adoptPartner (seen : Seen) (c : Nat) (s : State) : State :=
  let s := (((s.replayParity seen (1 - s.headNo)).adoptMirror c).raiseEntries 0).confirmOwn
  s.applyAll seen (s.acc.own.length + s.acc.partner.length + 1)

/-- Hold both sets in SOLO from cycle `t`, with the partner confirmed through `c`: the carriers are taken, the partner's open quires are
replayed, its entries adopted, and every confirmed cycle is applied (R451 to R453). -/
def State.holdBoth (seen : Seen) (t c : Nat) (s : State) : State :=
  ((((s.takeBoth.setTaking true).ownCarriers true t).adoptPartner seen c).setTaking false).noteTakeover t

/-- Start service alone after RESTORE: the first cycle opens (R455, R456). -/
def State.startSolo (seen : Seen) (s : State) : State :=
  let c := s.acc.applied
  let t := s.acc.openCycle
  let s := { s with acc := { s.acc with applied := t - 1, last := t - 1, released := t - 1, openedAt := s.elapsed, running := true } }
  s.holdBoth seen t c

end Sys2Proof.Machine
end

