-- ==== Sys2Proof/Machine/Twin.lean ====
section
/-! DEFINITION. The twin link, the custody line and the governor's causes (R441 to R456), and rejoin, failback and handover between the
heads (R459 to R463). -/

namespace Sys2Proof.Machine

/-! ### Frames (R442, R443, R563) -/

/-- A frame that passed its checks and carries a HEAD field: the same head number as this one's is a strap conflict, and from then on
every frame is discarded. -/
def State.onFrame (head : Nat) (body : State → State) (s : State) : State :=
  if s.twn.strapConflict then s.discardFrame
  else if head = s.headNo then { s with twn := { s.twn with strapConflict := true } }.discardFrame
  else body s.noteFrame

/-- What a heartbeat or report says of the partner (R457). -/
def Peer.of (b : List Byte) (uncleanRun fitRun : Nat) : Peer :=
  { seen := true, head := leAt b 1 1 == 1, mode := leAt b 2 1, setA := leAt b 3 1 % 2 == 1, setB := leAt b 3 1 / 2 % 2 == 1,
    restored := leAt b 3 1 / 4 % 2 == 1, joined := leAt b 3 1 / 8 % 2 == 1, level := leAt b 4 2, cleanRun := leAt b 6 2,
    openCycle := BitVec.ofNat 64 (leAt b 8 8), applied := BitVec.ofNat 64 (leAt b 16 8), uncleanRun := uncleanRun, fitRun := fitRun }

/-- A change of TWN_CUSTODY raises vector 5 (R485). -/
def State.custodyChanged (s : State) : State := s.raiseVector 5

/-- The low level counts again once the partner reports SOLO with a set held (R445). -/
def State.countHolder (s : State) : State :=
  if s.twn.surrendered ∧ s.twn.peerLow ∧ s.twn.peer.mode = 3 ∧ (s.twn.peer.setA ∨ s.twn.peer.setB) then
    { s with twn := { s.twn with surrendered := false, peerHolds := true } }.custodyChanged
  else s

/-- A head that waits in RESTORE rejoins a partner that serves (R459, R505). -/
def State.rejoinIfServed (s : State) : State :=
  if s.hlt.mode = .restore ∧ s.hlt.step = 9 ∧ s.twn.phase = .idle ∧ s.partnerServes then s.startJoin else s

/-- A heartbeat or report of the partner is taken in; a heartbeat restores the link (R443). -/
def State.heard (b : List Byte) (uncleanRun fitRun : Nat) (s : State) : State :=
  (({ s with twn := { s.twn with peer := Peer.of b uncleanRun fitRun } } : State).countHolder).rejoinIfServed

/-- The surrender filter. -/
def State.surrenderFilter (s : State) : Nat := s.setting 0x0900 0 20000

/-- Start service alone when RESTORE has come to its wait. -/
def State.maySolo (s : State) : Bool := s.hlt.mode == .restore && s.hlt.step == 9 && s.twn.phase == .idle

/-- The conditions of R456 for a head: neither head holds custody, the link is up, RESTORE has come to its wait, the working set is in
service, the owner secret is accepted, the partner's line has been high for the filter, and its latest report is clean. -/
def State.startFit (s : State) : Bool :=
  s.maySolo && s.twn.linkUp && ! s.holdsCustody && ! s.twn.peer.setA && ! s.twn.peer.setB && ! s.twn.peerLow
    && decide (s.surrenderFilter ≤ s.elapsed.toNat - s.twn.peerSince.toNat) && s.workingSet && s.kpr.owner == .accepted
    && decide (0 < s.twn.cleanRun)

/-- A report of the partner is taken in: unclean ones in a row are counted, and those of them at which this head meets the conditions of
R456 itself. -/
def State.heardReport (b : List Byte) (unclean : Bool) (s : State) : State :=
  s.heard b (if unclean then s.twn.peer.uncleanRun + 1 else 0) (if unclean && s.startFit then s.twn.peer.fitRun + 1 else 0)

def execHeartbeat (b : List Byte) (s : State) : Host.Outcome State Fault Refusal :=
  .next (
    let b := padTo 32 b
    if leAt b 0 1 ≠ 1 ∨ leAt b 28 4 ≠ crc32c (b.take 28) then s.discardFrame
    else s.onFrame (leAt b 1 1) fun s =>
      let w := { s.twn with linkUp := true, lastHeartbeat := s.elapsed, lanes := if s.twn.lanes = 0 then 3 else s.twn.lanes }
      ({ s with twn := w } : State).heard b s.twn.peer.uncleanRun s.twn.peer.fitRun)

def execHealthReport (b : List Byte) (s : State) : Host.Outcome State Fault Refusal :=
  .next (
    let b := padTo 256 b
    if leAt b 0 1 ≠ 2 ∨ leAt b 252 4 ≠ crc32c (b.take 252) then s.discardFrame
    else s.onFrame (leAt b 1 1) fun s => s.heardReport b (leAt b 136 4 != 0))

def execTwinFrameBad (s : State) : Host.Outcome State Fault Refusal := .next s.discardFrame

/-- A 100 us interval has passed; without a heartbeat in it, it counts as missed. -/
def execHeartbeatMissed (s : State) : Host.Outcome State Fault Refusal :=
  .next (if s.elapsed.toNat - s.twn.missedAt.toNat < 100000 then s
    else
      let t := { s with twn := { s.twn with missedAt := s.twn.missedAt + 100000 } }
      if s.twn.lastHeartbeat.toNat < s.twn.missedAt.toNat ∨ ¬ s.twn.peer.seen then t.bump rTwnHbMissed 1 else t)

/-! ### The link (R441, R443, R450) -/

def execTwinLinkLoss (s : State) : Host.Outcome State Fault Refusal :=
  .next (if ¬ s.twn.linkUp ∨ s.elapsed.toNat - s.twn.lastGood.toNat < s.setting 0x0901 0 5000000 then s
    else
      let t := { s with twn := { s.twn with linkUp := false, unclean := s.twn.unclean ||| 0x40 } }
      if s.headNo = 1 ∧ s.holdsCustody ∧ s.twn.peerLow then t.releaseCustody causeTwinLost else t)

/-- A lane fails: 8 lanes retrain as 4, 4 as 2; at 2 the link goes dark, and R443 counts it lost. -/
def execTwinLaneFailure (s : State) : Host.Outcome State Fault Refusal :=
  .next (if s.twn.lanes = 0 then s
    else if s.twn.lanes = 1 then { s with twn := { s.twn with lanes := 0, retraining := false } }
    else ({ s with twn := { s.twn with lanes := s.twn.lanes - 1, retraining := true } }).bump rTwnRetrains 1)

/-- The retrain completes: the frames held meanwhile are sent. -/
def execTwinLinkRetrained (s : State) : Host.Outcome State Fault Refusal :=
  .next (if s.twn.retraining then
      s.twn.held.foldl (fun t f => t.emit (.twin f.1 f.2)) { s with twn := { s.twn with retraining := false, held := [] } }
    else s)

/-! ### The governor's causes (R447, R450) -/

def execSupervisorSilent (s : State) : Host.Outcome State Fault Refusal :=
  .next (if 500000 ≤ s.elapsed.toNat - s.twn.aliveAt.toNat ∧ (s.holdsCustody ∨ s.hlt.mode = .quiesce) then s.releaseCustody causeSupervisorSilent else s)

/-- A record of either head has stayed unanswered for the confirm stall timeout; `partnerWaits`: the partner's has. -/
def execConfirmStall (partnerWaits : Bool) (s : State) : Host.Outcome State Fault Refusal :=
  .next (
    let own := s.acc.own.any fun r => ! r.confirmed && decide (s.setting 0x0902 0 20000000 ≤ s.elapsed.toNat - r.sentAt.toNat)
    if s.headNo = 1 ∧ s.holdsCustody ∧ s.withPartner ∧ s.twn.linkUp ∧ (own ∨ partnerWaits) then s.releaseCustody causeConfirmStall else s)

def execTwnRelease (src v : Nat) (s : State) : Host.Outcome State Fault Refusal :=
  .next (if (src = srcGovernor ∨ src = srcHost) ∧ v % 2 = 1 then s.releaseCustody causeHostOrder else s)

/-- Any write of a stream core restarts the count of SUPERVISOR_SILENT. -/
def execTwnGovAlive (src : Nat) (s : State) : Host.Outcome State Fault Refusal :=
  .next (if src < 96 then { s with twn := { s.twn with aliveAt := s.elapsed } } else s)

/-! ### The custody line (R445, R449, R451) -/

/-- The low level counts as holding from the cycle a failback message names (R445); no such cycle stands once a surrender is recognised. -/
def State.failbackOpen (s : State) : Bool := s.twn.cycleF != 0 && decide (s.twn.cycleF.toNat ≤ s.acc.openCycle)

/-- CUSTODY_PEER_N goes low: a pulse shorter than the filter, or a level that does not count, is a glitch. -/
def State.peerFalls (s : State) : State :=
  let t := { s with twn := { s.twn with peerLow := true, peerSince := s.elapsed } }
  if ¬ s.twn.surrendered then
    let t := { t with twn := { t.twn with peerHolds := true } }
    if s.twn.peerHolds then t.bump rTwnPeerGlitch 1 else t
  else if s.failbackOpen ∨ (s.twn.peer.mode = 3 ∧ (s.twn.peer.setA ∨ s.twn.peer.setB)) then
    { t with twn := { t.twn with surrendered := false, peerHolds := true } }
  else t.bump rTwnPeerGlitch 1

def execCustodyPeerChange (low : Bool) (s : State) : Host.Outcome State Fault Refusal :=
  .next (if low = s.twn.peerLow then s
    else if low then s.peerFalls.custodyChanged
    else ({ s with twn := { s.twn with peerLow := false, peerSince := s.elapsed } }).custodyChanged)

/-- A cause of R447 whose condition lasts is present: power loss, a keeper alarm that stands, the shutdown temperature, or a silent
supervisor. The other causes are events, which have released custody where they arose. -/
def State.causePresent (s : State) : Bool :=
  s.pwr.loss || ! s.kpr.alarms.isEmpty || decide (115 ≤ s.pwr.temp) || decide (500000 ≤ s.elapsed.toNat - s.twn.aliveAt.toNat)

/-- R449 permits a takeover: this head holds its home set with the line asserted, and no cause of R447 is present. -/
def State.mayTake (s : State) : Bool := s.hlt.mode == .paired && s.holdsCustody && s.holdsSet s.homeIsB && ! s.causePresent

/-- The head takes over the partner's set (R451): it cuts the partner off and holds both. -/
def State.takeOver (seen : Seen) (s : State) : State := s.cutTwin.holdBoth seen s.acc.openCycle s.acc.last

/-- A joined standby loses its SOLO head: with RESTORE complete it waits for service to start, else it runs RESTORE (R459). -/
def State.standbyLoses (seen : Seen) (shows : Shows) (s : State) : State :=
  let done := s.hlt.restored
  let s := { s with twn := { s.twn with phase := .idle, awaiting := none }, acc := { s.acc with running := false }, hlt := { s.hlt with joined := false } }
  if done then { s with hlt := { s.hlt with step := 9 } } else s.runSteps seen shows

/-- The line has stayed high for the whole filter. -/
def execSurrenderRecognised (seen : Seen) (shows : Shows) (s : State) : Host.Outcome State Fault Refusal :=
  .next (if s.twn.peerLow ∨ s.twn.surrendered ∨ s.elapsed.toNat - s.twn.peerSince.toNat < s.surrenderFilter then s
    else
      let t := ({ s with twn := { s.twn with surrendered := true, peerHolds := false, cycleF := 0 } }).custodyChanged
      if s.mayTake then t.takeOver seen
      else if s.hlt.mode = .restore ∧ s.twn.phase ≠ .idle then t.standbyLoses seen shows
      else t)

/-! ### Start of service (R455, R456) -/

/-- `absent`: carriers in service that report STATE.PEER_LINK = 0. -/
def execPartnerWaitExpiry (seen : Seen) (absent : Nat) (s : State) : Host.Outcome State Fault Refusal :=
  .next (
    let wait := s.setting 0x0903 0 60000000000
    if s.maySolo ∧ wait ≤ s.elapsed.toNat - s.twn.lastHeartbeat.toNat ∧ wait ≤ s.elapsed.toNat - s.hlt.safeAt.toNat ∧ ¬ s.twn.peerLow
        ∧ s.carriersInService.length ≤ 2 * absent then s.startSolo seen
    else s)

/-- A head starts service by R456: this head is fit, and head 1 only after 50 unclean reports of head 0. -/
def State.mayStart (s : State) : Bool := s.startFit && (s.headNo == 0 || decide (50 ≤ s.twn.peer.fitRun))

def execServiceStart (seen : Seen) (s : State) : Host.Outcome State Fault Refusal := .next (if s.mayStart then s.startSolo seen else s)

/-! ### Rejoin (R459) -/

/-- A custody message passes to its meaning; one that repeats the last answered is answered alike (R462). -/
def State.onCustody (type head level reason cycle : Nat) (body : List Byte → State → State) (s : State) : State :=
  s.onFrame head fun s =>
    let msg := custodyBytes type head level reason cycle
    match s.twn.answered with
    | some (m, a) => if m = msg then s.sendTwin 3 a else body msg s
    | none => body msg s

/-- Levels of two heads that can work together differ by at most 1. -/
def State.levelFits (s : State) (level : Nat) : Bool := decide (level ≤ s.kpr.level + 1 ∧ s.kpr.level ≤ level + 1)

/-- Copy the entries below the seeding mark into the rejoining head's mirror: data, then the header as a write-last. -/
def State.seedCopies (s : State) : State :=
  ((s.headers s.ownBase).filter fun h => h.state != 0).foldl (fun t h =>
    let t := if h.noData then t else t.emit (.mirror h.off (t.bytes (t.ownBase + h.off) (4096 * h.nblk)) false)
    t.emit (.mirror (headerOff h.no) (headerBytes h) true)) s

/-- The SOLO head begins to seed the rejoining head. -/
def State.beginSeeding (s : State) : State :=
  let w := { s.twn with phase := .seeding, seedMark := BitVec.ofNat 64 s.acc.nextEntry, seedCheckpoint := true }
  ({ s with twn := w } : State).seedCopies

def execTwinJoin (head level : Nat) (s : State) : Host.Outcome State Fault Refusal :=
  .next (s.onCustody cmJoin head level 0 0 fun msg s =>
    if s.hlt.mode ≠ .solo then s.answerCustody msg cmJoinRefuse whyNotSolo 0
    else if ¬ s.levelFits level then s.answerCustody msg cmJoinRefuse whyLevel 0
    else (s.answerCustody msg cmJoinAccept 0 0).tellLevels.beginSeeding)

/-- The rejoining head discards its buffers and waits for the SOLO head's state. -/
def execTwinJoinAccept (head level : Nat) (s : State) : Host.Outcome State Fault Refusal :=
  .next (s.onCustody cmJoinAccept head level 0 0 fun _ s =>
    if s.twn.phase ≠ .asking ∨ s.hlt.mode ≠ .restore then s
    else ({ s.endAwait with twn := { s.endAwait.twn with phase := .loading }, acc := s.acc.fresh, deltas := [] } : State).clearRegions)

def execTwinJoinRefuse (head level reason : Nat) (s : State) : Host.Outcome State Fault Refusal :=
  .next (s.onCustody cmJoinRefuse head level reason 0 fun _ s =>
    if s.twn.phase = .asking then { s.endAwait with twn := { s.endAwait.twn with phase := .idle } } else s)

/-- The copy is complete, and the checkpoint written: JOINED names the next cycle to open. -/
def execSeedingComplete (s : State) : Host.Outcome State Fault Refusal :=
  .next (if s.hlt.mode ≠ .solo ∨ s.twn.phase ≠ .seeding ∨ s.twn.seedCheckpoint ∨ s.med.writing.isSome then s
    else
      let j := s.acc.openCycle + 1
      let t := { s with acc := { s.acc with last := j - 1, partner := [] }, twn := { s.twn with phase := .joined, cycleJ := BitVec.ofNat 64 j } }
      t.sendCustody cmJoined j)

/-- Apply the mirrored journal of the SOLO head up to cycle `j - 1`; none when a cycle is missing. At most `fuel` cycles. -/
def State.applyMirrored (j : Nat) : Nat → State → Option State
  | 0, _ => none
  | fuel + 1, s =>
    let n := s.acc.applied + 1
    if j ≤ n then some s
    else match s.partnerRecord n with
      | some r => State.applyMirrored j fuel (({ s.applyRecords n [] r.items with
          acc := { (s.applyRecords n [] r.items).acc with batchConfirmed := max (s.applyRecords n [] r.items).acc.batchConfirmed r.batch } }))
      | none => none

/-- The rejoining head follows the ledger from cycle `j` (R459). -/
def State.followFrom (j : Nat) (c : Checkpoint) (s : State) : State :=
  let s := (s.raiseEntries c.entryHigh).raiseBatches c.batch
  { s with acc := { s.acc with openCycle := j, openedAt := s.elapsed, last := j - 1, released := j - 1, running := true },
           twn := { s.twn with phase := .joined, cycleJ := BitVec.ofNat 64 j }, hlt := { s.hlt with joined := true } }

/-- `shown`: the checkpoint that the SOLO head wrote for this rejoin, as the anchors show it. -/
def execTwinJoined (head level cycle : Nat) (shown : Checkpoint) (s : State) : Host.Outcome State Fault Refusal :=
  .next (s.onCustody cmJoined head level 0 cycle fun _ s =>
    if s.twn.phase ≠ .loading ∨ s.hlt.mode ≠ .restore then s
    else
      let t := s.loadCheckpoint shown
      match t.applyMirrored cycle ((t.journalHeaders t.mirrorBase).length + 1) with
      | some u => u.followFrom cycle shown
      | none => s)

/-! ### Failback (R460) -/

/-- Close the open quires that hold an erase group of the returning head's share; the folios of their open rows wait for other quires. -/
def State.closeShared (s : State) : State :=
  let due := (Sparse.filter (fun q x => x.state == 1 && ! s.closing q && x.pos.any fun g => g.2 / 2 % 2 != s.headNo) s.quires).map fun p => (p.1, s.durableRows p.1)
  let mine (r : OpenRow) : Bool := due.any fun d => d.1 == r.quire
  let freed := (s.acc.rows.filter mine).flatMap (·.folios)
  let s := { s with acc := { s.acc with rows := s.acc.rows.filter (fun r => ! mine r), waiting := s.acc.waiting ++ freed } }
  s.queueItems (due.map fun d => itemClosed d.1 d.2)

/-- Tell the returning head which shipments of its home set run, which it starts again (R476). -/
def State.tellShipments (s : State) : State :=
  (s.snp.shipments.filter fun x => (Sparse.get Namespace.none x.nsid s.cat.namespaces).groupB != s.homeIsB).foldl (fun t x => t.tellShipment x) s

/-- The SOLO head answers READY with FAILBACK for its open cycle + 2, and a repeated READY with the same message (R462). -/
def execTwinReady (head _level : Nat) (s : State) : Host.Outcome State Fault Refusal :=
  .next (s.onFrame head fun s =>
    if s.hlt.mode = .solo ∧ s.twn.phase = .failback then s.sendTwin 3 (s.custodyMessage cmFailback 0 s.twn.cycleF.toNat)
    else if s.hlt.mode ≠ .solo ∨ s.twn.phase ≠ .joined then s
    else
      let f := s.acc.openCycle + 2
      let t := { s with twn := { s.twn with phase := .failback, cycleF := BitVec.ofNat 64 f } }
      (((t.sendCustody cmFailback f).tellShipments).closeShared).ownCarriers false f)

/-- FAILBACK at the joined head: it takes its home set when F opens. -/
def execTwinFailback (head _level cycle : Nat) (s : State) : Host.Outcome State Fault Refusal :=
  .next (s.onFrame head fun s =>
    if s.hlt.mode ≠ .restore ∨ s.twn.phase ≠ .joined ∨ ¬ s.hlt.restored then s
    else { s.endAwait with twn := { s.endAwait.twn with phase := .failback, cycleF := BitVec.ofNat 64 cycle } })

/-! ### Planned handover (R461) -/

/-- The ring whose command waits for the handover's answer. -/
def State.handoverRing (s : State) : Option Nat :=
  [0, 1, 2, 3].find? fun r => (s.cring r).busy && (match (s.cring r).fetched with
    | c :: _ => leAt c 0 2 == 10
    | [] => false)

/-- End the handover command of a control ring. -/
def State.endHandoverCommand (status res : Nat) (s : State) : State :=
  match s.handoverRing with
  | some r => s.crFinish r status res
  | none => s

/-- Send HANDOVER for the open cycle + 2. -/
def State.startHandover (s : State) : State :=
  let h := s.acc.openCycle + 2
  ({ s with twn := { s.twn with phase := .handingOver, cycleH := BitVec.ofNat 64 h } } : State).sendCustody cmHandover h

/-- A handover comes to nothing. -/
def State.cancelHandover (s : State) : State :=
  ({ s.endAwait with twn := { s.endAwait.twn with phase := .idle } } : State).endHandoverCommand crRefused 0

/-- The partner accepts when it is PAIRED and clean. -/
def execTwinHandover (head level cycle : Nat) (s : State) : Host.Outcome State Fault Refusal :=
  .next (s.onCustody cmHandover head level 0 cycle fun msg s =>
    if s.hlt.mode = .paired ∧ 0 < s.twn.cleanRun ∧ s.twn.phase = .idle then s.answerCustody msg cmHandoverAccept 0 0
    else s.answerCustody msg cmHandoverRefuse whyNotClean 0)

def execTwinHandoverAccept (head _level : Nat) (s : State) : Host.Outcome State Fault Refusal :=
  .next (s.onFrame head fun s =>
    if s.twn.phase ≠ .handingOver then s
    else ({ s.endAwait with twn := { s.endAwait.twn with phase := .handAccepted } } : State).endHandoverCommand crOk s.twn.cycleH.toNat)

def execTwinHandoverRefuse (head _level _reason : Nat) (s : State) : Host.Outcome State Fault Refusal :=
  .next (s.onFrame head fun s => if s.twn.phase = .handingOver then s.cancelHandover.cancelActivation else s)

/-- Every 1 ms a message that has no answer goes out again, until the cycle it names has opened (R462). -/
def execCustodyMessageRepeat (s : State) : Host.Outcome State Fault Refusal :=
  .next (match s.twn.awaiting with
  | none => s
  | some m =>
    if s.elapsed.toNat - s.twn.awaitingAt.toNat < 1000000 then s
    else if leAt m 8 8 ≠ 0 ∧ leAt m 8 8 ≤ s.acc.openCycle then
      (if s.twn.phase = .handingOver then s.cancelHandover.cancelActivation else s.endAwait)
    else { s.sendTwin 3 m with twn := { (s.sendTwin 3 m).twn with awaitingAt := s.elapsed } })

/-! ### What the opening of a cycle brings (R460, R461) -/

/-- F opens: both heads are PAIRED, each with its home set, and a low level on the line counts again (R445); the registrar role goes back to
head 0 (R460, R478). -/
def State.openFailback (s : State) : State :=
  if s.twn.phase ≠ .failback ∨ s.acc.openCycle < s.twn.cycleF.toNat then s
  else
    let w := { s.twn with surrendered := s.twn.surrendered && ! s.twn.peerLow, peerHolds := s.twn.peerLow }
    let w := { w with phase := .idle, awaiting := none, answered := none, drive := true, setA := ! s.homeIsB, setB := s.homeIsB, aliveAt := s.elapsed }
    let t := (({ s with twn := w, svc := { s.svc with changeSince := none }, hlt := { s.hlt.serving with restored := true } } : State).setMode .paired .none).anaChange
    let t := (t.dropOrdersOf fun n => ! t.holdsNamespace n).takeShipments
    if s.pairNo = 0 then (if s.headNo = 0 then t.takeRegistrar else t.leaveRegistrar) else t

/-- From H the head appends nothing; once every cycle below H is confirmed it releases custody with HANDOVER (R461). -/
def State.finishHandover (s : State) : State :=
  if s.twn.phase = .handAccepted ∧ s.twn.cycleH.toNat ≤ s.acc.openCycle ∧ s.twn.cycleH.toNat ≤ s.confirmedThrough + 1 ∧ s.holdsCustody then
    s.releaseCustody causeHandover
  else if s.twn.phase = .handingOver ∧ s.twn.cycleH.toNat ≤ s.acc.openCycle then s.cancelHandover.cancelActivation
  else s

end Sys2Proof.Machine
end

