-- ==== Sys2Proof/Machine/Images.lean ====
section
/-! DEFINITION. Denad images: their checks (R531 to R533), the update log (R536) and the choice of the image to boot (R537). -/

namespace Sys2Proof.Machine

/-! ### The bytes of a slot -/

def Slot.imageLen (x : Slot) : Nat := x.num 8 4
def Slot.svn (x : Slot) : Nat := x.num 12 4
def Slot.keyIndex (x : Slot) : Nat := x.num 20 1
def Slot.sections (x : Slot) : Nat := x.num 21 1
/-- IMAGE_DIGEST (R531). -/
def Slot.digest (x : Slot) : List Byte := shake256 64 (x.bytes 0 1344)

/-- A section entry (R532). -/
structure Section where
  type : Nat
  flags : Nat
  zero : Nat
  offset : Nat
  length : Nat
  load : Nat
  digest : List Byte
  deriving DecidableEq, Repr

/-- Section `i` of an image. -/
def Slot.section (x : Slot) (i : Nat) : Section :=
  let o := 64 + 80 * i
  { type := x.num o 1, flags := x.num (o + 1) 1, zero := x.num (o + 2) 2, offset := x.num (o + 4) 4, length := x.num (o + 8) 4,
    load := x.num (o + 12) 4, digest := x.bytes (o + 16) 64 }

/-- The sections of an image. -/
def Slot.allSections (x : Slot) : List Section := (List.range x.sections).map x.section
/-- The section holds the supervisor. -/
def Section.isSupervisor (e : Section) : Bool := e.flags % 2 == 1
/-- The bytes of a section. -/
def Slot.sectionBytes (x : Slot) (e : Section) : List Byte := x.bytes e.offset e.length
/-- A section's digest holds. -/
def Slot.sectionGood (x : Slot) (e : Section) : Bool := shake256 64 (x.sectionBytes e) == e.digest

/-! ### Checking an image (R533) -/

/-- A section entry is not as R532 lays it out. -/
def Slot.badSection (x : Slot) (e : Section) : Bool :=
  e.type == 0 || decide (5 < e.type) || decide (1 < e.flags) || e.zero != 0 || e.offset % 4096 != 0 || decide (e.offset < 4096)
    || decide (x.imageLen < e.offset + e.length) || (e.type == 5 && e.load != 0)
    || (e.isSupervisor && (e.type != 1 || e.load != 0 || decide (131072 < e.length)))

/-- Every byte of a range is zero. -/
def Slot.zeroRange (x : Slot) (o n : Nat) : Bool := (x.bytes o n).all (· == 0)

/-- Check 1: the header is not as R531 and R532 lay it out. -/
def Slot.badHeader (x : Slot) : Bool :=
  x.num 0 4 != 0x4E444B54 || x.num 4 2 != 1 || x.imageLen % 4096 != 0 || decide (67108864 < x.imageLen) || decide (64 < x.svn) || x.level == 0
    || x.num 18 2 != 0 || decide (3 < x.keyIndex) || x.sections == 0 || decide (16 < x.sections) || decide (3 < x.num 22 1) || x.num 23 1 != 0
    || ! x.zeroRange 48 16 || ! x.zeroRange (64 + 80 * x.sections) (80 * (16 - x.sections)) || ! x.zeroRange 1458 2638
    || (x.num 22 1 % 2 == 0 && ! x.zeroRange 32 16) || x.allSections.any x.badSection || (x.allSections.filter Section.isSupervisor).length != 1

/-- UNIT_ID (R523), as the certificate gives it. -/
def Keeper.unitId (k : Keeper) : List Byte := shake256 16 (slice k.certificate 24 57)

/-- Checks 1 to 6 of an image: 0, or the result of the first that fails. -/
def Keeper.checkImage (k : Keeper) (x : Slot) : Nat :=
  if x.badHeader then 0x03
  else if x.num 6 2 ≠ 0x8640 then 0x04
  else if k.revoked.getLsbD x.keyIndex then 0x05
  else if ¬ edVerify (Config.releaseKey x.keyIndex) (ascii "TKDN") x.digest (x.bytes 1344 114) then 0x06
  else if x.num 22 1 % 2 = 1 ∧ x.bytes 32 16 ≠ k.unitId then 0x07
  else if x.svn < k.svnFloor then 0x08
  else 0

/-- All seven checks, every section digest among them (R538). -/
def Keeper.verifyImage (k : Keeper) (x : Slot) : Nat :=
  let r := k.checkImage x
  if r ≠ 0 then r else if x.allSections.all x.sectionGood then 0 else 0x09

/-- The checks of stage 3: the sections that the keeper loads there are the supervisor's and the keeper's (R532). -/
def Keeper.bootImage (k : Keeper) (x : Slot) : Nat :=
  let r := k.checkImage x
  if r ≠ 0 then r else if (x.allSections.filter fun e => e.isSupervisor || e.type == 4).all x.sectionGood then 0 else 0x09

/-! ### Slots and the update log (R536) -/

/-- Replace a slot. -/
def Keeper.setSlot (n : Nat) (x : Slot) (k : Keeper) : Keeper := if n = 2 then { k with slotB := x } else { k with slotA := x }
/-- The other slot. -/
def otherSlot (n : Nat) : Nat := 3 - n

/-- Append to one log: a full one, of 1,024 records, is erased while the other holds the newest record. -/
def appendTo (log other : List UpdRecord) (r : UpdRecord) : List UpdRecord :=
  let seq (l : List UpdRecord) : Nat := ((newestOf l).map UpdRecord.seq).getD 0
  if log.length < 1024 then log ++ [r] else if seq log ≤ seq other then [r] else log

/-- Append a record to the log of slot A, then to the log of slot B. STATE: 0 CONFIRMED, 1 TRIAL, 2 FELL_BACK. -/
def Keeper.append (slot state boots : Nat) (k : Keeper) : Keeper :=
  let r : UpdRecord := { seq := ((k.newest.map UpdRecord.seq).getD 0) + 1, slot := slot, state := state, boots := boots,
                         digest16 := (k.slotOf slot).digest.take 16, committed := k.committed }
  let a := appendTo k.logA k.logB r
  { k with logA := a, logB := appendTo k.logB a r }

/-! ### The image to boot (R537) -/

/-- The slot booted (0 for none), whether as a trial and whether after a fallback, and the keeper's logs. -/
structure Boot where
  slot : Nat
  trial : Bool
  fell : Bool
  kpr : Keeper
  deriving DecidableEq, Repr

/-- The image of a slot boots, with the digest that the record names. -/
def Keeper.boots (k : Keeper) (n : Nat) (digest16 : Option (List Byte)) : Bool :=
  k.bootImage (k.slotOf n) == 0 && (match digest16 with
    | some d => d == (k.slotOf n).digest.take 16
    | none => true)

/-- Boot a slot, or fall back to the other one. -/
def Keeper.bootSlot (n : Nat) (trial fell : Bool) (digest16 : Option (List Byte)) (k : Keeper) : Boot :=
  if k.boots n digest16 then { slot := n, trial := trial, fell := fell, kpr := k }
  else
    let o := otherSlot n
    let k := k.append o 2 0
    { slot := if k.boots o none then o else 0, trial := false, fell := true, kpr := k }

/-- The choice of stage 3. -/
def Keeper.chooseBoot (k : Keeper) : Boot :=
  match k.newest with
  | none => { slot := if k.boots 1 none then 1 else if k.boots 2 none then 2 else 0, trial := false, fell := false, kpr := k }
  | some r =>
    if r.state = 1 ∧ 3 ≤ r.boots then (k.append (otherSlot r.slot) 2 0).bootSlot (otherSlot r.slot) false true none
    else if r.state = 1 then (k.append r.slot 1 (r.boots + 1)).bootSlot r.slot true false (some r.digest16)
    else k.bootSlot r.slot false (r.state == 2) (some r.digest16)

end Sys2Proof.Machine
end

