-- ==== Sys2Proof/Machine/Starts.lean ====
section
/-! DEFINITION. The three kinds of start: what each keeps (R496) and the staged start to SAFE (R497 to R500), and the warm reset (R513). -/

namespace Sys2Proof.Machine

/-! ### What a start keeps (R496) -/

/-- The kinds of start. -/
inductive StartKind where
  | cold
  | power
  | warm
  deriving DecidableEq, Repr

/-- The register image after a start that is not cold: the kept bits stay, the rest is at its reset value (R10, R496). -/
def keptRegs (old : Sparse Word32) : Sparse Word32 :=
  old.foldl (fun m p =>
    let k := keepMask p.1
    if k = 0 then m else Sparse.set 0 p.1 (BitVec.ofNat 32 ((p.2.toNat &&& k) ||| ((Sparse.get 0 p.1 regsCold).toNat &&& (m32 ^^^ k)))) m) regsCold

/-- Head-host memory lies outside the device. -/
def keptMem (old : Sparse Byte) : Sparse Byte := Sparse.filter (fun a _ => decide (hostBase ≤ a) && decide (a < 2 ^ 48)) old

/-- Every carrier loses this head's port. -/
def State.portsLost (s : State) : State :=
  s.carriers.foldl (fun t p => (t.losePort p.1 t.ownPort false).modCar p.1 fun c => { c with inService := false }) s

/-- A core, packet engine or sequencer of this number was fenced, alone or with its cluster: a start does not run it again (R30). A packet
engine is fenced by the governor when it has stopped by double fault (R89). -/
def State.fencedEngine (s : State) (k : Nat) : Bool :=
  match engineKind k with
  | .stream => s.coreFenced k
  | .keeper => false
  | .packet => (s.core k).run == .dead
  | .sequencer => s.unitFenced clsSequencer (k - 116)

/-- The engines: the keeper's run from ROM, and fenced ones stay dead, with the clock of a fenced cluster stopped (R30, R59). -/
def State.coresReset (s : State) : Sparse Core :=
  (List.range 124).foldl (fun m k =>
    if s.fencedEngine k then Sparse.set Core.cold k { Core.cold with run := .dead, clockHeld := (s.core k).clockHeld.map fun _ => 0 } m
    else m) coresCold

/-- The twin link and custody after a start: counts since cold start and what the pins show stay. -/
def Twin.restarted (cold : Bool) (now : Word64) (w : Twin) : Twin :=
  let t := { Twin.cold with peerLow := w.peerLow, peerSince := w.peerSince, peerHolds := w.peerLow, missedAt := now, sentAt := now, aliveAt := now,
                            reportAt := now, lastGood := now }
  if cold then t
  else { t with govCause := w.govCause, govCount := w.govCount, govTime := w.govTime, strapConflict := w.strapConflict, reportSeq := w.reportSeq }

/-- The keeper after a start: fuses, slots, logs and the guard pins stay; the array's name stays but through a cold start (R529). -/
def Keeper.restarted (cold : Bool) (k : Keeper) : Keeper :=
  let blank (x : Slot) : Slot := { x with result := 0 }
  let t := { Keeper.cold with seed := k.seed, certificate := k.certificate, tampered := k.tampered, svnFloor := k.svnFloor, revoked := k.revoked,
                              slotA := blank k.slotA, slotB := blank k.slotB, logA := k.logA, logB := k.logB, guards := k.guards }
  if cold then t
  else { t with arrayId := k.arrayId, keyCheck := k.keyCheck, alarms := k.alarms, lastAlarm := k.lastAlarm, alarmCount := k.alarmCount, alarmClearAt := k.alarmClearAt }

/-- Modes and start-up after a start: the mode itself changes when SAFE is entered. -/
def Hlt.restarted (kind : StartKind) (h : Hlt) : Hlt :=
  { Hlt.cold with mode := h.mode, head := h.head, coldStart := kind == .cold,
                  warmResets := if kind = .cold then 0 else h.warmResets, safeCause := if kind = .cold then 0 else h.safeCause,
                  fuseOk := if kind = .cold then false else h.fuseOk, trimWritten := if kind = .cold then false else h.trimWritten,
                  trained := if kind = .warm then h.trained else 0 }

/-- Supplies and clocks after a start. -/
def Power.restarted (cold : Bool) (slow : Nat) (p : Power) : Power :=
  { p with loss := p.loss && ! cold, phase := .none, throttled := false, slow := if cold then 0 else slow, island := true }

/-- Pins after a start: the inputs stay, the resets of media and CXL are driven low (R567). -/
def Pins.restarted (p : Pins) : Pins := { p with medPerst := 0xFFF, cxlPerst := 0xF, medModeSet := 0, cxlModeSet := false }

/-- The counts of accession since cold start. -/
def Accession.restarted (cold : Bool) (a : Accession) : Accession :=
  if cold then Accession.idle else { a.fresh with lookupsBefore := a.stats.getD 0 0 }

/-- The media programs after a start: what lies on flash stays. -/
def Media.restarted (cold : Bool) (m : Media) : Media :=
  if cold then { m.fresh with conserveStats := Media.empty.conserveStats, movesIdle := 0, faults := 0 } else m.fresh

/-- Every unit resets, keeping what R496 keeps. Memory of the device is as if nothing had written it: a power loss clears it, and R496
lets nothing rely on it after a warm reset. -/
def State.unitsReset (kind : StartKind) (s : State) : State :=
  let cold := kind == .cold
  let t := s.portsLost
  { State.reset with
    free := t.free, elapsed := if cold then 0 else s.elapsed,
    regs := if cold then regsCold else keptRegs s.regs,
    mem := keptMem s.mem,
    cores := if cold then coresCold else s.coresReset,
    carriers := t.carriers, med := s.med.restarted cold, acc := s.acc.restarted cold,
    snp := { Snap.none with manifests := s.snp.manifests, peerViews := s.snp.peerViews },
    hlt := s.hlt.restarted kind, pwr := s.pwr.restarted cold s.slowTotal, twn := s.twn.restarted cold (if cold then 0 else s.elapsed),
    kpr := s.kpr.restarted cold, pin := s.pin.restarted, sent := t.sent, pending := s.pending }

/-! ### The staged start (R497) -/

/-- Stage 2 of a cold start: the fuse words go into the trim bank; where their check fails the ROM's nominal values do (R498). -/
def State.loadTrims (fuses : Option (List Word32)) (s : State) : State :=
  let word (i : Nat) : Word32 := match fuses with
    | some l => l.getD i 0
    | none => Config.romTrim i
  let t := (List.range 512).foldl (fun t i => t.setReg (rTrimBank i) (word i).toNat) s
  { t with hlt := { t.hlt with fuseOk := fuses.isSome } }

/-- Load the sections of stage 3: the supervisor's into its core, the keeper's into the keeper's SRAM (R532). -/
def State.loadBootImage (x : Slot) (s : State) : State :=
  let put (t : State) (e : Section) : State :=
    if e.isSupervisor then (match t.supervisorCore with
      | some k => t.putBytes (localStore k) (x.sectionBytes e)
      | none => t)
    else if e.type = 4 then t.putBytes (privateBase 96 + 0x10000 + e.load) (x.sectionBytes e)
    else t
  x.allSections.foldl put s

/-- With an image verified the supervisor, the packet engines and the sequencers in service run (R499). -/
def State.startEngines (s : State) : State :=
  let t := match s.supervisorCore with
    | some k => s.assignRoles.runCore k
    | none => s
  (List.range 24).foldl (fun t i => t.modCore (100 + i) fun c => if c.run = .dead then c else { c with run := .running, startedAt := s.elapsed, startedSlow := s.slowTotal }) t

/-- Stage 3: the keeper chooses the image, and what it chose runs. -/
def State.bootStage (s : State) : State :=
  let b := s.kpr.chooseBoot
  let x := b.kpr.slotOf b.slot
  let level := if b.slot = 0 then 0 else x.level
  let k := { b.kpr with trial := b.trial, confirmed := b.slot != 0 && ! b.trial, fellBack := b.fell, level := level,
                        committed := match s.kpr.newest with
                          | some r => r.committed
                          | none => level,
                        trialStart := if b.trial then s.elapsed.toNat else 0 }
  let t : State := { s with kpr := k, hlt := { s.hlt with slot := b.slot, imageOk := b.slot != 0 } }
  if b.slot = 0 then t else (t.loadBootImage x).startEngines

/-- Stage 4: the endpoint trains at full speed and width, once its clock is there and PERST_N is high (R497, R577). -/
def State.trainEndpoint (s : State) : State :=
  if s.pwr.clkHost ∧ ¬ s.pin.perstLow then { s with ep := { s.ep with linkUp := true, speed := 6, width := 16 } } else s

/-- Stages 3 to 5: the start ends in SAFE. -/
def State.boot (cause : Nat) (s : State) : State :=
  let t := s.bootStage.trainEndpoint
  ({ t with hlt := { t.hlt with safeCause := cause, safeAt := t.elapsed } } : State).setMode .safe .none

/-! ### The rows -/

/-- A cold start: `head` is the HEAD_ID strap 1 ms after the supplies come good (R563), `fuses` the words where their check passes, `vin` and
`vhold` the supplies in mV. -/
def execColdStart (head : Bool) (fuses : Option (List Word32)) (vin vhold : Nat) (s : State) : Host.Outcome State Fault Refusal :=
  .next (
    let t := s.unitsReset .cold
    let p := { t.pwr with vinMv := vin, vholdMv := vhold, vinGood := decide (5800 ≤ vin) && decide (vin ≤ 41000), vinCut := false,
                          holdupReady := decide (10000 ≤ vhold), throttled := false, coolSince := 0, clkMedSince := 0, clkCxlSince := 0, dumpSeq := 0, lossAt := 0 }
    let t : State := { t with hlt := { t.hlt with head := head }, pwr := p }
    (t.loadTrims fuses).boot 0)

/-- VIN has come good while VHOLD kept the island powered in keeper-only standby. -/
def execPowerReturn (s : State) : Host.Outcome State Fault Refusal :=
  .next (if s.pwr.phase = .standby ∧ s.pwr.vinGood then (s.unitsReset .power).boot 1 else s)

/-- A warm reset with its custody cause and the cause of the SAFE entry; one requested while a dump runs is ignored (R513). -/
def State.warmStart (cause safeCause : Nat) (s : State) : State :=
  if s.pwr.phase ≠ .none then s
  else
    let held := s.holdsCustody
    let t := if held then s.releaseCustody cause else s
    let t := if (held ∨ s.regionsHold) ∧ t.mayDump then t.writeDump.programDumpRows.programLastRow else t
    let t := { t with hlt := { t.hlt with warmResets := satAt 255 (t.hlt.warmResets + 1) } }
    (t.unitsReset .warm).boot safeCause

/-- A write of SYS_RESET, by the head-host endpoint or the keeper with the key. -/
def State.resetWrite (src v : Nat) (s : State) : State :=
  if (src = srcHost ∨ (0x60 ≤ src ∧ src < 0x64)) ∧ v / 65536 = 0x5A5A ∧ v % 2 = 1 then s.warmStart causeHostOrder 3 else s

def execWarmReset (src : Nat) (v : Word32) (s : State) : Host.Outcome State Fault Refusal := .next (s.resetWrite src v.toNat)

/-- WARM_RESET_N has gone low and stayed there for 10 us, or is high again; a level held low starts no further reset (R566). -/
def execWarmResetN (low : Bool) (s : State) : Host.Outcome State Fault Refusal :=
  .next (
    let t : State := { s with pin := { s.pin with warmLow := low } }
    if low ∧ ¬ s.pin.warmLow then t.warmStart causeHostOrder 2 else t)

/-- Image activation: every connection closes with a TCP FIN, and the head restarts (R379, R513, R540, R543). -/
def State.activateImage (s : State) : State := ((s.svc.conns.map (·.1)).foldl (fun t c => t.closeConn c) s).warmStart causeImageActivation 4

end Sys2Proof.Machine
end

