-- ==== Sys2Proof/Machine/Keeper.lean ====
section
/-! DEFINITION. The SEC mailbox and the keeper's alarms: identity and attestation (R523, R524), the owner secret and key inputs (R525, R526),
and alarms as they begin and end (R528 to R530, R551). -/

namespace Sys2Proof.Machine

/-! ### The mailbox (R551) -/

def mbOk : Nat := 0
def mbUnknown : Nat := 1
def mbLength : Nat := 2
def mbRefused : Nat := 3
def mbNotAllowed : Nat := 4
def mbShareOrder : Nat := 5

/-- The first `n` bytes of the mailbox buffer. -/
def State.mbBytes (s : State) (n : Nat) : List Byte := ((List.range 256).flatMap fun i => leBytes 4 (s.reg (rSecMbBuf i))).take n

/-- A response replaces the buffer from byte 0. -/
def State.putMailbox (resp : List Byte) (s : State) : State :=
  let b := patch (s.mbBytes 1024) 0 resp
  if resp.isEmpty then s else (List.range 256).foldl (fun t i => t.setReg (rSecMbBuf i) (leAt b (4 * i) 4)) s

/-- What a command ends with: its code, its response, and the state. -/
structure MbEnd where
  result : Nat
  resp : List Byte
  s : State
  deriving DecidableEq, Repr

/-- A write of SEC_MB_CMD by the head host starts a command, unless one is in service; a request of another length than `want` ends with
LENGTH_MISMATCH. -/
def State.mailbox (src op len want : Nat) (body : List Byte → State → MbEnd) (s : State) : State :=
  if src ≠ srcHost ∨ s.kpr.mbBusy then s
  else
    let r := if len ≠ want then { result := mbLength, resp := [], s := s } else body (s.mbBytes want) s
    { r.s with kpr := { r.s.kpr with mbBusy := true, mbOp := op, mbLen := len, mbPending := some (r.result, r.resp) } }

/-- The command in service finishes. -/
def State.mailboxDone (s : State) : State :=
  match s.kpr.mbPending with
  | none => s
  | some (result, resp) =>
    let t := s.putMailbox resp
    { t with kpr := { t.kpr with mbBusy := false, mbDone := true, mbResult := result, mbRespLen := resp.length, mbPending := none } }

def execMailboxCommandComplete (s : State) : Host.Outcome State Fault Refusal := .next s.mailboxDone

/-! ### Identity (R523, R524) -/

/-- IDENTITY: the certificate. -/
def State.identityCommand (s : State) : MbEnd := { result := mbOk, resp := padTo 256 s.kpr.certificate, s := s }

/-- The 256 bytes of an attestation report. -/
def State.attestReport (s : State) (nonce : List Byte) : List Byte :=
  let k := s.kpr
  let x := k.slotOf s.hlt.slot
  let run := s.hlt.slot != 0
  let flags := (if k.trial then 1 else 0) + (if k.confirmed then 2 else 0) + (if k.owner = .none then 0 else 4) + (if s.hlt.fuseOk then 8 else 0)
    + (if s.hlt.trimWritten then 16 else 0)
  padTo 256 (leBytes 4 0x54414B54 ++ leBytes 2 1 ++ leBytes 2 0x8640 ++ padTo 16 k.unitId ++ padTo 32 nonce ++ leBytes 8 s.elapsed.toNat
    ++ (if run then padTo 64 x.digest else zeros 64) ++ leBytes 1 s.hlt.slot ++ leBytes 1 s.hlt.mode.code ++ leBytes 1 flags ++ leBytes 1 k.svnFloor
    ++ leBytes 4 (if run then x.svn else 0) ++ leBytes 2 k.level ++ leBytes 2 k.committed ++ padTo 16 (k.arrayId.getD []) ++ padTo 8 k.keyCheck
    ++ leBytes 4 k.alarmCount ++ leBytes 1 k.lastAlarm)

/-- ATTEST: the report and its signature; never again once the TAMPERED fuse is blown (R530). -/
def State.attestCommand (nonce : List Byte) (s : State) : MbEnd :=
  if s.kpr.tampered then { result := mbNotAllowed, resp := [], s := s }
  else
    let b := s.attestReport nonce
    { result := mbOk, resp := b ++ edSign s.kpr.seed (ascii "TKAT") b, s := s }

def execSecIdentity (src len : Nat) (s : State) : Host.Outcome State Fault Refusal := .next (s.mailbox src 1 len 0 fun _ s => s.identityCommand)
def execSecAttest (src len : Nat) (s : State) : Host.Outcome State Fault Refusal := .next (s.mailbox src 2 len 32 State.attestCommand)

/-! ### The owner secret (R525) -/

/-- The keeper loads the domain slots of the digest key table (R208). -/
def State.loadDedup (s : State) : State :=
  { s with digestKeys := ((List.range 4096).map fun d => (d, deriveDedup s.kpr.km d)) ++ Sparse.filter (fun k _ => decide (4096 ≤ k)) s.digestKeys }

/-- A share as OWNER_SHARE carries it. -/
def Share.of (b : List Byte) : Share :=
  { index := leAt b 0 1, count := leAt b 1 1, secret := slice b 8 32, arrayId := slice b 40 16, keyCheck := slice b 56 8 }

/-- A share does not follow the shares before it. -/
def badShare (have_ : List Share) (x : Share) : Bool :=
  x.count == 0 || decide (4 < x.count) || decide (x.count ≤ x.index) || have_.any (fun y => y.index == x.index)
    || (match have_ with
      | y :: _ => y.count != x.count || y.arrayId != x.arrayId
      | [] => false)

/-- Judge a complete set: the owner secret, its ARRAY_ID and its KEY_CHECK. -/
def State.judgeSecret (os arrayId keyCheck : List Byte) (s : State) : Nat × State :=
  let k := s.kpr
  if k.owner = .accepted ∧ k.arrayId ≠ some arrayId then (mbRefused, s)
  else if arrayId = zeros 16 then (mbOk, { s with kpr := { k with owner := .arrayPending, os := os, km := [] } })
  else
    let km := deriveMaster os arrayId
    if deriveCheck km ≠ keyCheck then (mbRefused, s)
    else if k.owner = .accepted then (mbOk, s)
    else (mbOk, ({ s with kpr := { k with owner := .accepted, os := os, km := km, arrayId := some arrayId, keyCheck := keyCheck } } : State).loadDedup)

/-- Take a share. -/
def State.takeShare (x : Share) (s : State) : Nat × State :=
  let set (l : List Share) (t : State) : State := { t with kpr := { t.kpr with shares := l } }
  if badShare s.kpr.shares x then (mbShareOrder, set [] s)
  else
    let l := s.kpr.shares ++ [x]
    if l.length < x.count then (mbOk, set l s)
    else (set [] s).judgeSecret (l.foldl (fun a y => xorBytes a y.secret) (zeros 32)) x.arrayId x.keyCheck

/-- OWNER_SHARE: the buffer is zeroed as soon as the share is read. -/
def State.ownerShareCommand (b : List Byte) (s : State) : MbEnd :=
  if slice b 2 6 ≠ zeros 6 then { result := mbUnknown, resp := [], s := s }
  else
    let t := s.zeroMailbox
    if s.kpr.tampered ∨ ¬ s.kpr.alarms.isEmpty then { result := mbNotAllowed, resp := [], s := t }
    else { result := (t.takeShare (Share.of b)).1, resp := [], s := (t.takeShare (Share.of b)).2 }

def execSecOwnerShare (src len : Nat) (s : State) : Host.Outcome State Fault Refusal := .next (s.mailbox src 3 len 64 State.ownerShareCommand)

/-- KEY_INPUT (R526). -/
def State.keyInputCommand (b : List Byte) (s : State) : MbEnd :=
  let slot := leAt b 0 2
  let key := slice b 8 32
  let stop (r : Nat) : MbEnd := { result := r, resp := [], s := s }
  if slice b 3 5 ≠ zeros 5 then stop mbUnknown
  else if s.kpr.owner = .none then stop mbNotAllowed
  else if leAt b 2 1 = 0 ∧ 4032 ≤ slot ∧ slot < 4096 then { result := mbOk, resp := [], s := s.loadSlot slot key [] (s.setting 0x0300 0 (2 ^ 44)) false }
  else if leAt b 2 1 = 1 ∧ 4096 ≤ slot ∧ slot < 4160 then { result := mbOk, resp := [], s := s.setDigestKey slot key }
  else stop mbNotAllowed

def execSecKeyInput (src len : Nat) (s : State) : Host.Outcome State Fault Refusal := .next (s.mailbox src 4 len 40 State.keyInputCommand)

/-- ARRAY_INFO. -/
def State.arrayInfoCommand (s : State) : MbEnd :=
  match s.kpr.arrayId with
  | some a => { result := mbOk, resp := padTo 16 a ++ padTo 8 s.kpr.keyCheck, s := s }
  | none => { result := mbNotAllowed, resp := [], s := s }

def execSecArrayInfo (src len : Nat) (s : State) : Host.Outcome State Fault Refusal := .next (s.mailbox src 5 len 0 fun _ s => s.arrayInfoCommand)

/-- ZEROISE raises its alarm. -/
def execSecZeroise (src len : Nat) (s : State) : Host.Outcome State Fault Refusal :=
  .next (s.mailbox src 6 len 0 fun _ s => { result := mbOk, resp := [], s := s.keeperAlarm alarmZeroise })

/-- A write of SEC_MB_CMD, whatever its OP. -/
def State.mailboxWrite (src v : Nat) (s : State) : State :=
  let len := v / 65536 % 2048
  match v % 256 with
  | 1 => s.mailbox src 1 len 0 fun _ s => s.identityCommand
  | 2 => s.mailbox src 2 len 32 State.attestCommand
  | 3 => s.mailbox src 3 len 64 State.ownerShareCommand
  | 4 => s.mailbox src 4 len 40 State.keyInputCommand
  | 5 => s.mailbox src 5 len 0 fun _ s => s.arrayInfoCommand
  | 6 => s.mailbox src 6 len 0 fun _ s => { result := mbOk, resp := [], s := s.keeperAlarm alarmZeroise }
  | op => s.mailbox src op len len fun _ s => { result := mbUnknown, resp := [], s := s }

/-! ### Alarms (R528, R529) -/

def execKeeperAlarm (code : Nat) (s : State) : Host.Outcome State Fault Refusal :=
  .next (if 1 ≤ code ∧ code ≤ 6 then s.keeperAlarm code else s)

/-- The condition of an alarm has been absent for 1 s; `passes`: the keeper's self-tests pass. LID never ends. -/
def execAlarmEnd (code : Nat) (passes : Bool) (s : State) : Host.Outcome State Fault Refusal :=
  .next (if passes ∧ code ≠ alarmLid ∧ s.passed s.kpr.alarmClearAt 1000000000 then { s with kpr := { s.kpr with alarms := s.kpr.alarms.filter fun a => a != code } }
    else s)

end Sys2Proof.Machine
end

