-- ==== Sys2Proof/Machine/Modes.lean ====
section
/-! DEFINITION. The mode commands of the head host (R504 to R511), LPDDR training and its fences (R502, R519), and image activation at its
point (R540). -/

namespace Sys2Proof.Machine

/-! ### HLT_CMD (R504, R510, R520) -/

def hltOk : Nat := 0
def hltWrongMode : Nat := 1
def hltNoImage : Nat := 2
def hltTrimInvalid : Nat := 3
def hltNoLpddr : Nat := 4
def hltNoRegions : Nat := 5
def hltNoSecret : Nat := 6
def hltWorkingSet : Nat := 7
def hltArrayExists : Nat := 8
def hltReleased : Nat := 9
def hltNotDrained : Nat := 10

/-- The present mode permits an OP (R506, R509). -/
def State.modePermits (s : State) (op : Nat) : Bool :=
  match op with
  | 1 => s.hlt.mode == .safe
  | 2 => s.headNo == 0 && s.hlt.mode == .restore && s.hlt.step == 1 && s.hlt.error == 1
  | 3 => s.hlt.mode == .paired || s.hlt.mode == .solo
  | _ => s.hlt.mode == .quiesce

/-- The form of QUIESCE that RESUME and REJOIN need (R511). -/
def State.formFits (s : State) (op : Nat) : Bool :=
  match op with
  | 4 => s.hlt.form == .drained
  | 5 => s.hlt.form == .handover
  | _ => true

/-- The working set as R504 tests it; in SAFE, whose root ports are down, without the carriers. -/
def State.hltSet (s : State) : Bool := if s.hlt.mode = .safe then s.workingUnits else s.workingSet

/-- The result of a command: the first condition that does not hold. `anchors`: some carrier in service shows a valid anchor header. -/
def State.hltResult (s : State) (op : Nat) (anchors : Bool) : Nat :=
  if ¬ s.modePermits op then hltWrongMode
  else if ¬ s.hlt.imageOk then hltNoImage
  else if ¬ s.hlt.fuseOk then hltTrimInvalid
  else if s.lpdInService % 4 ≠ 3 then hltNoLpddr
  else if ¬ s.basesSet then hltNoRegions
  else if s.kpr.owner = .none then hltNoSecret
  else if ¬ s.hltSet then hltWorkingSet
  else if op = 2 ∧ (anchors ∨ s.med.checkpoints.any s.anchorHolds) then hltArrayExists
  else if s.twn.releasedAt = some s.elapsed then hltReleased
  else if ¬ s.formFits op then hltNotDrained
  else hltOk

/-- Latch a command that a core or the head host has written: what it finds comes with its own row. -/
def State.latchHlt (src op : Nat) (s : State) : State :=
  if s.hlt.cmdBusy ∨ ¬ (src = srcHost ∨ s.supervisorCore = some src) ∨ op = 0 ∨ 5 < op then s
  else { s with hlt := { s.hlt with cmdBusy := true, cmdOp := op } }

/-- The command is decided; with OK it proceeds. A writer other than the head host and the supervisor is not heard (R520), and while another
command is being decided the write is discarded (R510). -/
def State.onHlt (src op : Nat) (anchors : Bool) (body : State → State) (s : State) : State :=
  if (if s.hlt.cmdBusy then s.hlt.cmdOp ≠ op else ¬ (src = srcHost ∨ s.supervisorCore = some src)) then s
  else
    let r := s.hltResult op anchors
    let t : State := { s with hlt := { s.hlt with cmdBusy := false, cmdOp := op, cmdResult := r } }
    if r = hltOk then body t else t

/-- Rejoin a partner that serves, else run steps 1 to 7 of R342 (R505). -/
def State.beginRestore (seen : Seen) (shows : Shows) (s : State) : State :=
  let t := { s with hlt := { s.hlt with step := 1, error := 0, restored := false, joined := false } }
  if t.partnerServes then t.startJoin else t.runSteps seen shows

/-- RESTORE: `found` are the carriers whose links come up. -/
def execHltRestore (src : Nat) (found : List Sys2Proof.Found) (seen : Seen) (shows : Shows) (s : State) : Host.Outcome State Fault Refusal :=
  .next (s.onHlt src 1 false fun s =>
    let t := (s.setMode .restore .none).releasePerst
    (found.foldl (fun t c => t.carrierUp c.slot c.width c.ident c.array c.number c.agreed) t).beginRestore seen shows)

/-- Label the blank carriers in service with the array's ARRAY_ID (R388, R506). -/
def State.labelBlank (s : State) : State :=
  s.carriersInService.foldl (fun t slot =>
    if (t.car slot).blank then
      (match t.freeNumber with
      | some n => t.modCar slot (Carrier.label false t.arrayId n)
      | none => t)
    else t) s

/-- The keeper draws ARRAY_ID from the TRNG and derives what follows from it (R256, R506). -/
def State.drawArray (s : State) : State :=
  let (id, t) := s.freeBytes 16
  let km := deriveMaster t.kpr.os id
  ({ t with kpr := { t.kpr with arrayId := some id, km := km, keyCheck := deriveCheck km, owner := .accepted } } : State).loadDedup

/-- The first checkpoint of an array: SEQ 1, CYCLE 0, empty trees. -/
def State.firstCheckpoint (s : State) : Checkpoint :=
  { head := s.headNo, solo := false, seq := 1, cycle := 0, arrayId := s.arrayId, keyCheck := s.kpr.keyCheck, cat := Catalogue.empty, quires := [],
    batch := 0, quireHigh := 0, entryHigh := 0, conserveQuire := 0, conserveRow := 0, dumpRes := [], level := s.kpr.level,
    copies := s.serviceNumbers.length, own := [], second := none, shelves := [], qtA := (0, 0, 0), qtB := (0, 0, 0), stateAt := (0, 0, 0) }

/-- Write the first checkpoint's header with its dump reserve. -/
def State.writeFirst (c : Checkpoint) (s : State) : State :=
  let (res, t) := s.openReserve
  let c := { c with dumpRes := res }
  let t := t.writeAnchors c.header fun _ => true
  { t with med := { t.med with checkpoints := [c], reserveReady := true } }

/-- CREATE_ARRAY: head 0 makes the array and continues at step 2. -/
def execHltCreateArray (src : Nat) (anchors : Bool) (seen : Seen) (s : State) : Host.Outcome State Fault Refusal :=
  .next (s.onHlt src 2 anchors fun s =>
    let t := s.drawArray.labelBlank
    let c := t.firstCheckpoint
    let shows : Shows := { checkpoint := none, dump := none, ownDump := false, table := true }
    (((t.loadCheckpoint c).clearRegions).replay seen shows c true).writeFirst c)

/-! ### Activation (R540, R541) -/

/-- A guard input is asserted (R544): the refusal is counted. -/
def State.guarded (s : State) : Bool := s.kpr.guards != 0
def State.countGuard (s : State) : State := s.bump rUpdGuardRefused 1

/-- Activate the scheduled image, or cancel the activation with GUARD. -/
def State.activateScheduled (slot : Nat) (s : State) : State :=
  let t : State := { s with kpr := { s.kpr with scheduled := none, handoverSent := false } }
  if s.guarded then { t.countGuard with kpr := { t.countGuard.kpr with updResult := 0x02 } }
  else ({ t with kpr := t.kpr.append slot 1 0 } : State).activateImage

/-- The clock in which the head entered QUIESCE is the activation point. -/
def State.activateInQuiesce (s : State) : State :=
  match s.kpr.scheduled with
  | some (slot, _) => if s.hlt.mode = .quiesce then s.activateScheduled slot else s
  | none => s

/-- For a drained head the opening of cycle A is. -/
def State.activateDrained (s : State) : State :=
  match s.kpr.scheduled with
  | some (slot, a) => if s.hlt.mode = .quiesce ∧ s.hlt.drained ∧ a.toNat ≤ s.acc.openCycle then s.activateScheduled slot else s
  | none => s

/-! ### QUIESCE, RESUME, REJOIN (R509, R511) -/

/-- PAIRED: a planned handover (R461). SOLO: the drained form, in which writes not yet appended end with the not-ready status. -/
def State.quiesce (s : State) : State :=
  if s.hlt.mode = .paired then (if s.twn.phase = .idle then s.startHandover else s)
  else (((s.setMode .quiesce .drained).endLoose nsNotReady fun _ => true).noteDrained).activateInQuiesce

def execHltQuiesce (src : Nat) (s : State) : Host.Outcome State Fault Refusal := .next (s.onHlt src 3 false State.quiesce)
def execHltResume (src : Nat) (s : State) : Host.Outcome State Fault Refusal := .next (s.onHlt src 4 false fun s => s.setMode .solo .none)

/-- REJOIN: what this head's buffers hold no longer binds. -/
def execHltRejoin (src : Nat) (seen : Seen) (shows : Shows) (s : State) : Host.Outcome State Fault Refusal :=
  .next (s.onHlt src 5 false fun s =>
    (({ s with hlt := { s.hlt with kept := false } } : State).setMode .restore .none).beginRestore seen shows)

/-! ### LPDDR (R502, R519) -/

def execLpddrTrainStart (mask : Nat) (s : State) : Host.Outcome State Fault Refusal := .next (s.trainLpddr mask)

/-- Fence LPDDR channels; what the range held is laid out anew, so it is lost. -/
def State.fenceChannels (mask : Nat) (s : State) : State :=
  let new := mask % 256 &&& (0xFF ^^^ s.reg rLpdFence % 256)
  let t := s.setReg rLpdFence (s.reg rLpdFence ||| mask % 256)
  if new &&& s.hlt.trained.toNat = 0 then t
  else { t with mem := Sparse.filter (fun a _ => decide (2 ^ 38 ≤ a)) t.mem, damaged := Sparse.filter (fun w _ => decide (2 ^ 35 ≤ w)) t.damaged,
                hlt := { t.hlt with kept := false } }

/-- Training ends: the channels named that are not in `failed` are in service, the others fenced. -/
def execLpddrTrainComplete (failed : BitVec 8) (s : State) : Host.Outcome State Fault Refusal :=
  .next (if s.hlt.training = 0 then s
    else
      let named := s.hlt.training
      let bad := named &&& failed
      let t := s.fenceChannels bad.toNat
      { t with hlt := { t.hlt with training := 0, trained := (t.hlt.trained ||| named) &&& ~~~ bad, trainFailed := (t.hlt.trainFailed &&& ~~~ named) ||| bad } })

/-- A channel in service holds part of both buffer regions, since they lie across all of them: when the governor fences one, it releases
custody (R31, R447). The lower of two causes is recorded. -/
def State.afterChannelFence (src : Nat) (held : Bool) (s : State) : State :=
  let t := s.afterFence src
  if src = srcGovernor ∧ held ∧ t.holdsCustody then t.releaseCustody causeBufferChannel else t

/-- The regions are set and some channel of a mask is in service. -/
def State.holdsRegions (s : State) (mask : Nat) : Bool := s.basesSet && (s.lpdInService &&& mask) != 0

def execLpdFence (src mask : Nat) (s : State) : Host.Outcome State Fault Refusal :=
  .next (if (src = srcGovernor ∨ src = srcHost) ∧ mask % 256 ≠ 0 then (s.fenceChannels mask).afterChannelFence src (s.holdsRegions mask) else s)

end Sys2Proof.Machine
end

