-- ==== Sys2Proof/Machine/Update.lean ====
section
/-! DEFINITION. Installing and scheduling images (R538 to R541), trial, confirmation and fallback (R542, R543), guard inputs (R544), levels
(R546, R547), and sections (R532). -/

namespace Sys2Proof.Machine

def updOk : Nat := 0x00
def updProtected : Nat := 0x01
def updGuard : Nat := 0x02
def updLevel : Nat := 0x0A
def updNotPaired : Nat := 0x0B
def updCycle : Nat := 0x0C
def updFlashFault : Nat := 0x0D
def updNotVerified : Nat := 0x0E
def updTooLate : Nat := 0x0F
def updOutOfRange : Nat := 0x10
def updBlank : Nat := 0x11

/-! ### UPD_CMD (R538, R552) -/

/-- A slot command ends at once with a result. -/
def State.updEnds (result : Nat) (s : State) : State :=
  let t := if result = updGuard then s.countGuard else s
  { t with kpr := { t.kpr with updResult := result } }

/-- A slot command takes time: the result it will report, if it is known. -/
def State.updTakes (result : Option Nat) (s : State) : State := { s with kpr := { s.kpr with updBusy := true, updPending := result } }

/-- A write of UPD_CMD by the head host, while no slot command is in service; SLOT names a slot. -/
def State.onUpd (src op slot : Nat) (body : State → State) (s : State) : State :=
  if src ≠ srcHost ∨ s.kpr.updBusy ∨ ¬ (slot = 1 ∨ slot = 2 ∨ op = 5) then s
  else body { s with kpr := { s.kpr with updOp := op, updSlot := slot } }

/-- The slot is the running one, the fallback of a trial, or the target of a scheduled activation. -/
def State.slotProtected (s : State) (slot : Nat) : Bool :=
  slot == s.hlt.slot || (s.kpr.trial && slot == otherSlot s.hlt.slot) || (s.kpr.scheduled.map (·.1)) == some slot

/-- Change a slot. -/
def State.modSlot (n : Nat) (f : Slot → Slot) (s : State) : State := { s with kpr := s.kpr.setSlot n (f (s.kpr.slotOf n)) }

/-- ERASE. -/
def State.updErase (slot : Nat) (s : State) : State :=
  if s.guarded then s.updEnds updGuard
  else if s.slotProtected slot then s.updEnds updProtected
  else (s.modSlot slot fun _ => { image := [], result := updBlank }).updTakes (some updOk)

/-- The 256 bytes of UPD_PAGE. -/
def State.updPage (s : State) : List Byte := (List.range 64).flatMap fun i => leBytes 4 (s.reg (rUpdPage i))

/-- Put bytes into the image area. -/
def Slot.put (o : Nat) (bs : List Byte) (x : Slot) : Slot :=
  { x with image := bs.zipIdx.foldl (fun m p => Sparse.set 0xFF (o + p.2) p.1 m) x.image }

/-- WRITE. -/
def State.updWrite (slot : Nat) (s : State) : State :=
  let a := s.reg rUpdAddr
  if s.guarded then s.updEnds updGuard
  else if s.slotProtected slot then s.updEnds updProtected
  else if 0x4000000 < a + 256 then s.updEnds updOutOfRange
  else
    let t := s.modSlot slot fun x => { x.put a s.updPage with result := updNotVerified }
    ({ t with kpr := { t.kpr with updAt := a } } : State).updTakes (some updOk)

/-- VERIFY. -/
def State.updVerify (slot : Nat) (s : State) : State :=
  if s.slotProtected slot then s.updEnds updProtected
  else
    let r := s.kpr.verifyImage (s.kpr.slotOf slot)
    (s.modSlot slot fun x => { x with result := r }).updTakes (some r)

/-- LEVEL of a slot's image fits the pair. -/
def State.levelMayRun (s : State) (l : Nat) : Bool :=
  decide (s.kpr.committed ≤ l) && decide (l ≤ s.kpr.committed + 1)
    && (! s.twn.peer.seen || (decide (l ≤ s.twn.peer.level + 1) && decide (s.twn.peer.level ≤ l + 1)))

/-- The head is PAIRED and clean. -/
def State.pairedClean (s : State) : Bool := s.hlt.mode == .paired && decide (0 < s.twn.cleanRun)

/-- The last condition of R539, and the activation scheduled. -/
def State.scheduleAt (slot a : Nat) (s : State) : Nat × State :=
  if a < s.acc.openCycle + 4 then (updCycle, s)
  else (updOk, { s with kpr := { s.kpr with scheduled := some (slot, BitVec.ofNat 64 a), handoverSent := false } })

/-- SCHEDULE: a PAIRED head asks the partner. -/
def State.updSchedule (slot : Nat) (s : State) : State :=
  let a := s.reg64 rUpdActCycle
  if s.guarded then s.updEnds updGuard
  else if (s.kpr.slotOf slot).result ≠ 0 then s.updEnds updNotVerified
  else if ¬ s.levelMayRun (s.kpr.slotOf slot).level then s.updEnds updLevel
  else if s.hlt.mode = .quiesce ∧ s.hlt.drained then (s.scheduleAt slot a).2.updEnds (s.scheduleAt slot a).1
  else if ¬ s.pairedClean ∨ ¬ s.twn.linkUp then s.updEnds updNotPaired
  else (s.tellPartner msgSchedule (leBytes 1 slot ++ leBytes 8 a)).updTakes none

/-- CANCEL. -/
def State.updCancel (s : State) : State :=
  match s.kpr.scheduled with
  | none => s.updEnds updOk
  | some (_, a) =>
    if s.kpr.handoverSent ∨ (s.hlt.mode = .quiesce ∧ a.toNat ≤ s.acc.openCycle + 1) then s.updEnds updTooLate
    else ({ s with kpr := { s.kpr with scheduled := none } } : State).updEnds updOk

def execUpdErase (src slot : Nat) (s : State) : Host.Outcome State Fault Refusal := .next (s.onUpd src 1 slot (State.updErase slot))
def execUpdWrite (src slot : Nat) (s : State) : Host.Outcome State Fault Refusal := .next (s.onUpd src 2 slot (State.updWrite slot))
def execUpdVerify (src slot : Nat) (s : State) : Host.Outcome State Fault Refusal := .next (s.onUpd src 3 slot (State.updVerify slot))
def execUpdSchedule (src slot : Nat) (s : State) : Host.Outcome State Fault Refusal := .next (s.onUpd src 4 slot (State.updSchedule slot))
def execUpdCancel (src : Nat) (s : State) : Host.Outcome State Fault Refusal := .next (s.onUpd src 5 0 State.updCancel)

/-- A write of UPD_CMD, whatever its OP; other values are discarded. -/
def State.updCommand (src v : Nat) (s : State) : State :=
  let slot := v / 16 % 4
  match v % 16 with
  | 1 => s.onUpd src 1 slot (State.updErase slot)
  | 2 => s.onUpd src 2 slot (State.updWrite slot)
  | 3 => s.onUpd src 3 slot (State.updVerify slot)
  | 4 => s.onUpd src 4 slot (State.updSchedule slot)
  | 5 => s.onUpd src 5 slot State.updCancel
  | _ => s

/-- A slot command that took time ends. `misread` are the bytes, by offset in the page written, that a WRITE reads back otherwise than it
wrote them: the slot holds those. A SCHEDULE whose answer cannot come any more ends with NOT_PAIRED. -/
def execUpdCommandComplete (misread : List (Nat × Byte)) (s : State) : Host.Outcome State Fault Refusal :=
  .next (if ¬ s.kpr.updBusy then s
    else
      let k := s.kpr
      let done (r : Nat) (t : State) : State := { t with kpr := { t.kpr with updBusy := false, updPending := none, updResult := r } }
      match k.updPending with
      | none => if s.twn.linkUp then s else done updNotPaired s
      | some r =>
        let bad := misread.filter fun p => decide (p.1 < 256) && (k.slotOf k.updSlot).byte (k.updAt + p.1) != p.2
        if k.updOp = 2 ∧ ¬ bad.isEmpty then
          done updFlashFault (s.modSlot k.updSlot fun x => bad.foldl (fun y p => y.put (k.updAt + p.1) [p.2]) x)
        else done r s)

/-! ### The partner's part (R539, R546, R547) -/

/-- The partner asks whether this head accepts an activation. -/
def State.answerSchedule (b : List Byte) (s : State) : State :=
  s.tellPartner msgAccept (leBytes 1 (if s.pairedClean ∧ s.kpr.scheduled.isNone then 1 else 0) ++ b)

/-- The partner's answer to the SCHEDULE in service. -/
def State.takeAcceptance (b : List Byte) (s : State) : State :=
  let slot := leAt b 1 1
  if ¬ (s.kpr.updBusy ∧ s.kpr.updOp = 4 ∧ s.kpr.updPending.isNone ∧ s.kpr.updSlot = slot) then s
  else if leAt b 0 1 % 2 = 0 ∨ ¬ s.pairedClean then s.updTakes (some updNotPaired)
  else
    let (r, t) := s.scheduleAt slot (leAt b 2 8)
    t.updTakes (some r)

/-- Write a new committed level into the update log. -/
def Keeper.commit (level slot : Nat) (k : Keeper) : Keeper :=
  if level ≤ k.committed then k
  else
    let k := { k with committed := level }
    match k.newest with
    | some r => k.append r.slot r.state r.boots
    | none => k.append slot 0 0

/-- The level both heads have confirmed is committed. -/
def State.commitShared (s : State) : State :=
  if s.kpr.confirmed then { s with kpr := s.kpr.commit (min s.kpr.level s.kpr.peerConfirmed) s.hlt.slot } else s

/-- The partner's levels: the higher committed level holds for both. -/
def State.takeLevels (b : List Byte) (s : State) : State :=
  ({ s with kpr := { s.kpr.commit (leAt b 0 2) s.hlt.slot with peerConfirmed := leAt b 2 2 } } : State).commitShared

/-! ### Trial, confirmation and fallback (R542, R543) -/

/-- Blow the fuses of a confirmed image: the SVN floor, and with REVOKE_BELOW the keys below its own (R534, R535). -/
def Keeper.blowFuses (x : Slot) (k : Keeper) : Keeper :=
  let below : BitVec 4 := BitVec.ofNat 4 (2 ^ x.keyIndex - 1)
  { k with svnFloor := max k.svnFloor x.svn, revoked := if x.num 22 1 / 2 % 2 = 1 then k.revoked ||| below else k.revoked }

/-- HEALTH_CONFIRM. -/
def State.confirmTrial (s : State) : State :=
  let n := s.hlt.slot
  let k := (s.kpr.append n 0 0).blowFuses (s.kpr.slotOf n)
  (({ s with kpr := { k with trial := false, confirmed := true } } : State).commitShared).tellLevels

/-- A write of UPD_CONFIRM; any other value, or one outside a trial, is discarded. -/
def State.confirmWrite (src v : Nat) (s : State) : State :=
  if src < 96 ∧ v = 0x4B4F4348 ∧ s.kpr.trial ∧ s.kpr.fallbackAt.isNone then s.confirmTrial else s

def execHealthConfirm (src : Nat) (v : Word32) (s : State) : Host.Outcome State Fault Refusal := .next (s.confirmWrite src v.toNat)

/-- The keeper falls back by itself, and asks for a handover where the head holds custody in PAIRED. -/
def State.beginFallback (s : State) : State :=
  if s.kpr.fallbackAt.isSome ∨ s.hlt.slot = 0 then s
  else
    let t : State := { s with kpr := { s.kpr.append (otherSlot s.hlt.slot) 2 0 with fallbackAt := some s.elapsed } }
    if t.holdsCustody ∧ t.hlt.mode = .paired ∧ t.twn.phase = .idle then t.startHandover else t

def execConfirmWindowExpiry (s : State) : Host.Outcome State Fault Refusal :=
  .next (if s.kpr.trial ∧ s.passed s.kpr.trialStart (s.setting 0x0B00 0 600000000000) then s.beginFallback else s)

/-- 1 s after a fallback began the other image is activated, handover or not. -/
def execFallbackActivation (s : State) : Host.Outcome State Fault Refusal :=
  .next (match s.kpr.fallbackAt with
  | some t => if s.passed t 1000000000 then s.activateImage else s
  | none => s)

/-! ### Guard inputs and sections (R532, R544) -/

/-- Guard input `i`: 0 TRANSIT, 1 HOLDUP_LOW, 2 OWNER_LOCK. Asserted after 100 us low, or released. -/
def execGuardInputChange (i : Nat) (asserted : Bool) (s : State) : Host.Outcome State Fault Refusal :=
  .next (if i < 3 then
      let bit : BitVec 3 := BitVec.ofNat 3 (2 ^ i)
      { s with kpr := { s.kpr with guards := if asserted then s.kpr.guards ||| bit else s.kpr.guards &&& ~~~ bit } }
    else s)

/-- The `n` bytes at a byte key lie in the local store of a packet engine or a sequencer (R87; log entry 2). -/
def inUnitStore (key n : Nat) : Bool :=
  (List.range 24).any fun j => decide (privateBase (100 + j) ≤ key) && decide (key + n ≤ privateBase (100 + j) + 0x10000)

/-- The section loader writes bytes where the supervisor names: into a packet engine's or sequencer's local store, or at an address of the
mesh with the keeper core's source code, where a bus error is captured and fails the load (R61, R88). -/
def State.loadSection (dest : Nat) (bs : List Byte) (s : State) : Bool × State :=
  if inUnitStore dest bs.length then (true, s.putBytes dest bs)
  else
    match s.writeSpan 0x60 dest bs with
    | (some (k, a), _, t) => (false, t.busError k 0x60 a)
    | (none, _, t) => (true, t)

/-- The keeper loads section `i` of the running image where the supervisor names, and reports OK only where every write succeeded and the
digest is right (R88, R532); a section that fails its digest starts a fallback (R543). -/
def execSectionLoad (i dest : Nat) (s : State) : Host.Outcome State Fault Refusal :=
  .next (let x := s.kpr.slotOf s.hlt.slot
    if ¬ s.supervisorRuns ∨ x.sections ≤ i then s
    else
      let e := x.section i
      let (ok, t) := s.loadSection dest (x.sectionBytes e)
      let u : State := { t with kpr := { t.kpr with sectionReport := some (i, ok && x.sectionGood e) } }
      if x.sectionGood e then u else u.beginFallback)

end Sys2Proof.Machine
end

