-- ==== Sys2Proof/Machine/Hooks.lean ====
section
/-! DEFINITION. The steps of the ledger with all that hangs on them: the close of a cycle (R125), its confirmation (R129), its application
(R230), and the failback, handover or activation they complete (R379, R460, R461, R540). -/

namespace Sys2Proof.Machine

/-- Two cycles before the activation cycle a PAIRED head sends HANDOVER (R540). -/
def State.sendActivation (s : State) : State :=
  match s.kpr.scheduled with
  | some (_, a) =>
    if s.hlt.mode = .paired ∧ ¬ s.kpr.handoverSent ∧ a.toNat ≤ s.acc.openCycle + 2 then
      let t : State := { s with kpr := { s.kpr with handoverSent := true } }
      if s.twn.phase = .idle then t.startHandover else t
    else s
  | none => s

/-- With the opening of F or H, writes not yet appended that this head no longer lands end with the transition status. -/
def State.endGiven (s : State) : State :=
  if s.handing then (s.endLoose nsTransition fun _ => true).endReads
  else if s.acc.running ∧ s.hlt.mode = .paired then s.endLoose nsTransition fun n => ! s.holdsNamespace n
  else s

/-- A handover comes to its end, and the head enters QUIESCE, where a scheduled image is activated. -/
def State.handOver (s : State) : State :=
  let t := s.finishHandover
  if s.hlt.mode ≠ .quiesce ∧ t.hlt.mode = .quiesce then t.activateInQuiesce else t

/-- What the opening of a cycle brings. -/
def State.cycleOpened (s : State) : State :=
  let t := ((s.openFailback.sendActivation).endGiven).handOver
  t.activateDrained

def execLedgerCycleClose (s : State) : Host.Outcome State Fault Refusal := .next (if s.mayClose then s.closeCycle.cycleOpened else s)

/-- The partner's CONFIRM of the record in a slot. -/
def execLedgerConfirm (slot : Nat) (s : State) : Host.Outcome State Fault Refusal :=
  .next (if slot < 8 ∧ s.basesSet then
      (match s.answered slot 2 with
      | some r => (s.confirmCycle r.cycle).handOver
      | none => s)
    else s)

/-- The rejoining head has applied cycle J: its RESTORE is complete, and its own entries go on above every number it has seen (R459). -/
def State.completeJoin (s : State) : State :=
  if s.hlt.mode = .restore ∧ s.twn.phase = .joined ∧ s.twn.cycleJ.toNat ≤ s.acc.applied ∧ ¬ s.hlt.restored then
    { s.raiseEntries 0 with hlt := { (s.raiseEntries 0).hlt with restored := true } }
  else s

def execApplyCycle (seen : Seen) (s : State) : Host.Outcome State Fault Refusal :=
  .next (if ¬ s.acc.running ∨ ¬ s.basesSet then s
    else match s.cycleLists with
      | some lists => ((s.applyNext seen lists).completeJoin).noteDrained
      | none => s)

/-! ### Supervisor messages (R442, channel 0x02; log entry 22) -/

/-- A deferred error of the partner as its message carries it. -/
def Deferred.of (b : List Byte) : Deferred :=
  { seq := leAt b 0 8, nsid := leAt b 8 4, first := leAt b 16 8, last := leAt b 24 8, no := leAt b 32 8, cycle := leAt b 40 8, head := leAt b 48 1 }

/-- Do what a message of the partner says: its kind, and the bytes after it. -/
def State.heed (kind : Nat) (b : List Byte) (s : State) : State :=
  match kind with
  | 1 => s.addDeferred (Deferred.of b)
  | 2 => s.reportRow (leAt b 0 4) (leAt b 4 4)
  | 3 => s.queueLost (leAt b 0 8)
  | 4 => s.takeErase (EraseReq.ofBytes b s.elapsed)
  | 5 => s.erased (EraseReq.ofBytes b s.elapsed)
  | 6 => { s with med := { s.med with hotNext := some (leAt b 0 8, leAt b 8 4) } }
  | 7 => { s with svc := { s.svc with groups := (s.svc.groups.filter fun x => x != leAt b 0 4) ++ if leAt b 4 1 % 2 = 1 then [leAt b 0 4] else [] } }
  | 8 => s.answerSchedule b
  | 9 => s.takeAcceptance b
  | 10 => s.takeLevels b
  | 11 => { s with snp := { s.snp with partnerShips := s.snp.partnerShips ++ [Shipment.of b] } }
  | 12 => { s with snp := { s.snp with partnerShips := s.snp.partnerShips.filter fun x => ! (x.view == leAt b 0 4 && x.peer == leAt b 4 4) } }
  | 14 => { s with snp := { s.snp with partnerSeals := s.snp.partnerSeals ++ [leAt b 0 4] } }
  | 13 => { s with snp := { s.snp with stackOrders := s.snp.stackOrders ++ (pieces 4 (b.drop 8)).map fun n => (leAt b 0 8, ofLe n) } }
  | _ => s

/-- A message of the partner's supervisor: this head's supervisor takes it, unless the two heads read the same strap (R563). -/
def execSupervisorMessage (b : List Byte) (s : State) : Host.Outcome State Fault Refusal :=
  .next (if s.twn.strapConflict then s.discardFrame
    else if ¬ s.supervisorRuns then s.noteFrame
    else s.noteFrame.heed (leAt b 0 1) (b.drop 1))

end Sys2Proof.Machine
end

