-- ==== Sys2Proof/Machine/ControlRings.lean ====
section
/-! DEFINITION. Commands of the control rings: settings with their ranges (R493 and the tables it names), statistics (R234, R322), and the
orders of the head host to the supervisor (R323, R388, R455, R461, R492). -/

namespace Sys2Proof.Machine

/-! ### Settings (R493) -/

/-- A setting whose value is a number in a range: how many indexes it has, its bounds, and what its value is a multiple of. -/
structure NumberSetting where
  indexes : Nat
  lo : Nat
  hi : Nat
  step : Nat
  deriving DecidableEq, Repr

/-- The numbers of the tables of R151, R235, R260, R291, R326, R383, R412, R439, R463, R516 and R550 that have no rule of their own. -/
def State.numberSetting (s : State) (id : Nat) : Option NumberSetting :=
  let one (lo hi : Nat) : Option NumberSetting := some { indexes := 1, lo := lo, hi := hi, step := 1 }
  match id with
  | 0x0102 => some { indexes := 1, lo := 2000, hi := 200000, step := 1000 }
  | 0x0103 => one 100000 100000000
  | 0x0104 => one 100000 100000000
  | 0x0201 => one 0 1
  | 0x0202 => one 20000 10000000
  | 0x0300 => one (2 ^ 32) (2 ^ 46)
  | 0x0400 => one 1 10
  | 0x0401 => one 30 90
  | 0x0402 => one 10 (s.setting 0x0401 0 60 - 5)
  | 0x0403 => one 2 20
  | 0x0404 => one (s.setting 0x0403 0 6 + 1) 30
  | 0x0405 => one 50 1000
  | 0x0406 => one 2 16
  | 0x0500 => one 4 32
  | 0x0501 => one 0 1024
  | 0x0502 => one 86400000000000 31536000000000000
  | 0x0601 => some { indexes := 16, lo := 1500, hi := 9216, step := 1 }
  | 0x0602 => one 1 65535
  | 0x0605 => one 0 1
  | 0x0606 => one 1000000000 60000000000
  | 0x0700 => one 100000000 10000000000
  | 0x0701 => one 0 1
  | 0x0800 => one 1 65535
  | 0x0801 => one 0 63
  | 0x0802 => one 4 64
  | 0x0900 => one 10000 1000000
  | 0x0901 => one 1000000 100000000
  | 0x0902 => one (max 5000000 (s.setting 0x0103 0 1000000 + 1)) 1000000000
  | 0x0903 => one 1000000000 600000000000
  | 0x0A00 => some { indexes := 1, lo := 3, hi := 0xFF, step := 1 }
  | 0x0A01 => one 0 1
  | 0x0A02 => some { indexes := 8, lo := 0, hi := 2, step := 1 }
  | 0x0A03 => some { indexes := 8, lo := 1000000, hi := 12500000, step := 1 }
  | 0x0B00 => one 120000000000 3600000000000
  | 0x0B01 => one 10 3000
  | _ => none

/-- What follows from a number given: tier 1 out of use loses its entries (R235); a hot threshold waits for a cycle that both heads share
(R291); a mask of LPDDR channels is written to LPD_CTL at once (R516). -/
def State.giveNumber (id index v : Nat) (s : State) : State :=
  match id with
  | 0x0201 =>
    let t := s.giveSetting id index v
    if v = 0 then { t with med := { t.med with index := t.med.index.filter fun e => e.tier != 1 } } else t
  | 0x0406 =>
    if s.acc.running then
      ({ s with med := { s.med with hotNext := some (s.acc.openCycle, v) } } : State).tellPartner msgSetting (leBytes 8 s.acc.openCycle ++ leBytes 4 v)
    else s.giveSetting id index v
  | 0x0A00 => (s.giveSetting id index v).trainLpddr v
  | _ => s.giveSetting id index v

/-- Give a number, or say why not. -/
def State.setNumber (k : NumberSetting) (id index v : Nat) (s : State) : Nat × State :=
  if k.indexes ≤ index then (if k.indexes = 1 then crUnknown else crOutOfRange, s)
  else if v < k.lo ∨ k.hi < v ∨ v % k.step ≠ 0 ∨ (id = 0x0A00 ∧ v % 4 ≠ 3) then (crOutOfRange, s)
  else (crOk, s.giveNumber id index v)

/-- A value that takes effect once: `used` says that it has. -/
def State.setOnce (id v : Nat) (now : Option Nat) (used : Bool) (s : State) : Nat × State :=
  if now = some v then (crOk, s) else if used then (crOnceOnly, s) else (crOk, s.giveSetting id 0 v)

/-- A region base: 1 GiB-aligned, its 12 GiB inside the LPDDR range in service and clear of the other region (R151). -/
def State.setRegion (id v : Nat) (s : State) : Nat × State :=
  let n := 12 * 2 ^ 30
  let clash : Bool := match s.regionBase (if id = 0x0100 then 0x0101 else 0x0100) with
    | some b => decide (v < b + n) && decide (b < v + n)
    | none => false
  if v % 2 ^ 30 ≠ 0 ∨ 2 ^ 35 * s.lpdChannels < v + n ∨ clash then (crOutOfRange, s)
  else s.setOnce id v (s.regionBase id) (s.regionBase id).isSome

/-- A power of two between two bounds. -/
def powerIn (lo hi v : Nat) : Bool := decide (lo ≤ v) && decide (v ≤ hi) && v == 2 ^ v.log2

/-- What a SETTINGS command ends with, or that it waits for a cycle to become durable. -/
inductive SetEnd where
  | ends (status : Nat) (s : State)
  | waits (s : State)
  deriving DecidableEq, Repr

/-- A namespace's profile is journalled, unless it has the value (R147, R151). -/
def State.setProfile (r nsid v : Nat) (s : State) : SetEnd :=
  if 2 < v then .ends crOutOfRange s
  else match s.namespace? nsid with
    | none => .ends crRefused s
    | some n =>
      if n.profile = v then .ends crOk s
      else if ¬ s.holdsNs nsid then .ends crRefused s
      else .waits (s.queueAnswered [itemNamespace 3 v nsid n.domain n.size] (.ring r 0))

/-- A namespace's dedup domain is fixed at its creation. -/
def State.setDomain (nsid v : Nat) (s : State) : Nat :=
  if 4095 < v then crOutOfRange
  else match s.namespace? nsid with
    | none => crRefused
    | some n => if n.domain = v then crOk else crOnceOnly

/-- Lists and names that DATA carries: port addresses, subsystem NQN, management hosts, salvage list (R383; log entry 29). -/
def State.setData (id index : Nat) (d : List Byte) (s : State) : Nat × State :=
  match id with
  | 0x0600 => if 16 ≤ index then (crOutOfRange, s) else (crOk, s.giveSetting id index (dataValue d))
  | 0x0603 =>
    if d.isEmpty ∨ 223 < d.length then (crOutOfRange, s)
    else s.setOnce id (dataValue d) (if (s.settingData id 0).isEmpty then none else some (dataValue (s.settingData id 0))) (! (s.settingData id 0).isEmpty)
  | _ => if d.length % 256 ≠ 0 ∨ (if id = 0x0604 then 16 else 64) * 256 < d.length then (crOutOfRange, s) else (crOk, s.giveSetting id index (dataValue d))

/-- One SETTINGS command of ring `r`. -/
def State.setOne (r id index v : Nat) (d : List Byte) (s : State) : SetEnd :=
  let flat (p : Nat × State) : SetEnd := if index = 0 then .ends p.1 p.2 else .ends crUnknown s
  match id with
  | 0x0100 => flat (s.setRegion id v)
  | 0x0101 => flat (s.setRegion id v)
  | 0x0105 => s.setProfile r index v
  | 0x0106 => .ends (s.setDomain index v) s
  | 0x0200 =>
    if powerIn (2 ^ 33) (2 ^ 37) v then flat (s.setOnce id v (some (s.setting id 0 (2 ^ 35))) (s.acc.stats.getD 0 0 != s.acc.lookupsBefore))
    else flat (crOutOfRange, s)
  | 0x0407 =>
    if powerIn (2 ^ 34) (2 ^ 37) v then flat (s.setOnce id v (some (s.setting id 0 (2 ^ 36))) (s.acc.applied != 0))
    else flat (crOutOfRange, s)
  | 0x0600 => if v = 0 then .ends (s.setData id index d).1 (s.setData id index d).2 else .ends crUnknown s
  | 0x0603 => if v = 0 then flat (s.setData id index d) else .ends crUnknown s
  | 0x0604 => if v = 0 then flat (s.setData id index d) else .ends crUnknown s
  | 0x0607 => if v = 0 then flat (s.setData id index d) else .ends crUnknown s
  | _ => match s.numberSetting id with
    | some k => .ends (s.setNumber k id index v).1 (s.setNumber k id index v).2
    | none => .ends crUnknown s

/-- `data` is the DATA as head-host memory holds it, none where it cannot be read. -/
def execCrSettings (r : Nat) (data : Option (List Byte)) (s : State) : Host.Outcome State Fault Refusal :=
  .next (s.onRingData r 1 data fun c d s =>
    if 65536 ≤ ringArg0 c then s.crComplete r crUnknown 0 0
    else match s.setOne r (ringArg0 c) (ringArg1 c) (ringArg2 c) d with
      | .ends st t => t.crComplete r st 0 0
      | .waits t => t.ringWait r)

/-! ### Statistics (R234, R322) -/

def execCrStatistics (r : Nat) (s : State) : Host.Outcome State Fault Refusal :=
  .next (s.onRing r 2 fun c s =>
    let give (l : List Nat) : State :=
      let b := (l.flatMap (leBytes 8)).take (ringDataLen c)
      let (ok, t) := s.hostWrite 0 (ringDataAddr c) b
      if ok then t.crComplete r crOk b.length 0 else t.crComplete r crDataFault 0 0
    match ringArg0 c with
    | 1 => give s.acc.stats
    | 2 => give s.med.conserveStats
    | _ => s.crComplete r crOutOfRange 0 0)

/-! ### Reshaping (R323, R324) -/

def execCrReshape (r : Nat) (data : Option (List Byte)) (s : State) : Host.Outcome State Fault Refusal :=
  .next (s.onRingData r 7 data fun c d s =>
    let left := (s.serviceNumbers.filter fun n => ofLe d / 2 ^ n % 2 = 0).length
    let width := ringArg0 c
    if width < 4 ∨ 32 < width ∨ d.length ≠ 12 then s.crComplete r crOutOfRange 0 0
    else if s.reshaping ∨ s.reshapeQueued ∨ left < width + 2 ∨ left < 6 ∨ ¬ s.managesMedia then s.crComplete r crRefused 0 0
    else (s.queueAnswered [itemReshape 1 width 1 (s.med.quireHigh + 1) (ofLe d)] (.ring r 0)).ringWait r)

def execCrReshapeCancel (r : Nat) (s : State) : Host.Outcome State Fault Refusal :=
  .next (s.onRing r 8 fun _ s =>
    if s.reshaping then ({ s with med := { s.med with reshapeCancel := true } } : State).crComplete r crOk 0 0 else s.crComplete r crRefused 0 0)

/-! ### Service and handover (R455, R461) -/

/-- SOLO with FORCE starts service alone where RESTORE waits for the partner. -/
def execCrSolo (r : Nat) (seen : Seen) (s : State) : Host.Outcome State Fault Refusal :=
  .next (s.onRing r 9 fun c s =>
    if ringArg0 c % 2 = 1 ∧ s.maySolo then (s.startSolo seen).crComplete r crOk 0 0 else s.crComplete r crRefused 0 0)

def execCrHandover (r : Nat) (s : State) : Host.Outcome State Fault Refusal :=
  .next (s.onRing r 10 fun _ s => if s.hlt.mode = .paired ∧ s.twn.phase = .idle then s.startHandover.ringWait r else s.crComplete r crRefused 0 0)

/-! ### Labels (R388) -/

/-- A number that no carrier in service and no quire record uses. -/
def State.numberFree (s : State) (n : Nat) : Bool :=
  decide (n < 96) && ! (s.carriers.any fun p => p.2.inService && p.2.number == n) && ! (s.quires.any fun q => q.2.pos.any fun x => x.1 == n)

/-- LABEL: `slot` holds the carrier that the order is for, and `agreed` says whether the partner reports the same SERIAL under the new
number. A label of another array gives way only to FORCE; one of this array stays. -/
def execCrLabel (r slot : Nat) (agreed : Bool) (s : State) : Host.Outcome State Fault Refusal :=
  .next (s.onRing r 11 fun c s =>
    let n := ringArg0 c
    let force := ringArg1 c % 2 == 1
    let x := s.car slot
    if 96 ≤ n then s.crComplete r crOutOfRange 0 0
    else if 96 ≤ slot ∨ ¬ (x.port s.ownPort).linkUp ∨ x.ident.level ≠ 1 ∨ s.kpr.arrayId.isNone ∨ ¬ s.numberFree n
        ∨ ¬ (x.blank ∨ (force ∧ x.arrayId ≠ s.arrayId)) then s.crComplete r crRefused 0 0
    else ((s.modCar slot (Carrier.label force s.arrayId n)).admitCarrier slot agreed).crComplete r crOk 0 0)

/-! ### The health ring (R492) -/

def execCrHealthRing (r : Nat) (s : State) : Host.Outcome State Fault Refusal :=
  .next (s.onRing r 13 fun c s =>
    let a := ringArg0 c
    if a % 4096 ≠ 0 then s.crComplete r crOutOfRange 0 0
    else
      let t : State := { s with ep := { s.ep with healthRing := a, healthSlot := 0 } }
      let t := if a = 0 then t else s.twn.reportsHeld.foldl (fun u b => u.deliverReport b) { t with twn := { t.twn with reportsHeld := [] } }
      t.crComplete r crOk 0 0)

end Sys2Proof.Machine
end

