-- ==== Sys2Proof/Machine/Dma.lean ====
section
/-! DEFINITION. DMA channels: COPY, FILL, chains, abort and fences (R101 to R113). -/

namespace Sys2Proof.Machine

def stOverlap : Nat := 0x0100
def stBadDescriptors : Nat := 0x0101

/-! ### Transfer bodies (R103) -/

def bodySrc (b : Vec) : Nat := le b 16 8
def bodyDst (b : Vec) : Nat := le b 24 8
def bodyLen0 (b : Vec) : Nat := le b 32 4
def bodyCnt1 (b : Vec) : Nat := le b 36 2
def bodyCnt2 (b : Vec) : Nat := le b 38 2
def bodyStep (b : Vec) (o : Nat) : Int := signedOf 32 (le b o 4)
def bodyExpect (b : Vec) : Nat := le b 60 4

/-- A transfer body breaks its table (R91, R103); bytes 56-59 are checked by the caller. -/
def badBody (fill : Bool) (b : Vec) : Bool :=
  (! fill && decide (2 ^ 48 ≤ bodySrc b)) || decide (2 ^ 48 ≤ bodyDst b) || bodyLen0 b == 0 || decide (2 ^ 24 ≤ bodyLen0 b)
    || bodyCnt1 b == 0 || bodyCnt2 b == 0 || (fill && (le b 40 4 != 0 || le b 48 4 != 0)) || bodyExpect b == 0

/-- The source and destination of run (k2, k1), modulo 2^48 (R104). -/
def runAddrs (b : Vec) (k2 k1 : Nat) : Nat × Nat :=
  (wrapTo 48 ((bodySrc b : Int) + k2 * bodyStep b 48 + k1 * bodyStep b 40),
   wrapTo 48 ((bodyDst b : Int) + k2 * bodyStep b 52 + k1 * bodyStep b 44))

/-- The runs of a transfer in loop order. -/
def runsOf (b : Vec) : List (Nat × Nat) :=
  (List.range (bodyCnt2 b)).flatMap fun k2 => (List.range (bodyCnt1 b)).map fun k1 => runAddrs b k2 k1

/-- The source and destination ranges of a run of `n` bytes overlap, modulo 2^48 (R106). -/
def runOverlaps (n : Nat) (r : Nat × Nat) : Bool :=
  decide ((r.2 + 2 ^ 48 - r.1) % 2 ^ 48 < n) || decide ((r.1 + 2 ^ 48 - r.2) % 2 ^ 48 < n)

/-- The runs before the first that overlaps, and whether there is one. -/
def goodRuns (n : Nat) : List (Nat × Nat) → List (Nat × Nat) × Bool
  | [] => ([], false)
  | r :: t => if runOverlaps n r then ([], true) else let (g, o) := goodRuns n t; (r :: g, o)

/-- What a COPY or FILL does when no access fails: its status, and the runs it makes (R106). -/
def planOf (fill : Bool) (b : Vec) : Nat × List (Nat × Nat) :=
  if bodyLen0 b * bodyCnt1 b * bodyCnt2 b ≠ bodyExpect b then (stLengthMismatch, [])
  else if fill then (stOk, runsOf b)
  else
    let (runs, crossed) := goodRuns (bodyLen0 b) (runsOf b)
    (if crossed then stOverlap else stOk, runs)

/-- The accesses of `n` bytes at `a`, none crossing a 64-byte boundary of its own address, modulo 2^48 (R104). -/
def wrapAccesses (a n : Nat) : List (Nat × Nat) := (accessesOf a n).map fun p => (p.1 % 2 ^ 48, p.2)

/-- The bytes a FILL writes at destination `d` (R104). -/
def fillBytes (pattern d n : Nat) : List Byte :=
  (List.range n).map fun i => BitVec.ofNat 8 (pattern / 2 ^ (8 * ((d + i) % 8)))

/-- Make reads in order up to the first that fails. -/
def State.readAll (src : Nat) : List (Nat × Nat) → State → Option (BusKind × Nat) × List Byte × State
  | [], s => (none, [], s)
  | p :: t, s =>
    match s.busRead src p.1 p.2 with
    | (some k, _, s) => (some (k, p.1), [], s)
    | (none, bs, s) => let (e, l, s) := State.readAll src t s; (e, bs ++ l, s)

/-- Write `bs` by accesses in order up to the first that fails. -/
def State.writeAll (src : Nat) : List (Nat × Nat) → List Byte → State → Option (BusKind × Nat) × State
  | [], _, s => (none, s)
  | p :: t, bs, s =>
    match s.busWrite src p.1 (enableAll (bs.take p.2)) with
    | (some k, s) => (some (k, p.1), s)
    | (none, s) => State.writeAll src t (bs.drop p.2) s

/-- The pattern of a FILL; none for a COPY. -/
def patternOf (fill : Bool) (b : Vec) : Option Nat := if fill then some (bodySrc b) else none

/-- Make one run of `n` bytes: its reads, then its writes, in address order (log entry 155). -/
def State.moveRun (src n : Nat) (fill : Option Nat) (r : Nat × Nat) (s : State) : Option (BusKind × Nat) × State :=
  let (e, bs, s) := match fill with
    | some pat => (none, fillBytes pat r.2 n, s)
    | none => s.readAll src (wrapAccesses r.1 n)
  match e with
  | some err => (some err, s)
  | none => s.writeAll src (wrapAccesses r.2 n) bs

/-- Make runs in loop order up to the first access that fails. -/
def State.moveRuns (src n : Nat) (fill : Option Nat) : List (Nat × Nat) → State → Option (BusKind × Nat) × State
  | [], s => (none, s)
  | r :: t, s =>
    match s.moveRun src n fill r with
    | (some e, s) => (some e, s)
    | (none, s) => State.moveRuns src n fill t s

/-! ### An ended transfer (R104, R105, R107, R111) -/

/-- The 64-byte line of an address. -/
def lineOf (a : Nat) : Nat := a / 64

/-- Reads of an ended transfer: which were made is open; one that fails, waits for a translation, or reads a line whose write was not
made, was not. -/
def State.readSome (src : Nat) (held : List Nat) : List (Nat × Nat) → State → List (Option Byte) × State
  | [], s => ([], s)
  | p :: t, s =>
    let go := s.freeBit && ! held.contains (lineOf p.1) && (s.hostMisses p.1 p.2 false).isEmpty
    let (e, bs, s) := if go then s.takeFree.busRead src p.1 p.2 else (some .unoccupied, [], s.takeFree)
    let got := if e.isSome then List.replicate p.2 none else bs.map some
    let (l, s) := State.readSome src held t s
    (got ++ l, s)

/-- Writes of an ended transfer: which were made is open, of those whose bytes were read. Answers the bytes written and the lines whose
write was not made. -/
def State.writeSomeOf (src : Nat) : List (Nat × Nat) → List (Option Byte) → State → Nat × List Nat × State
  | [], _, s => (0, [], s)
  | p :: t, bs, s =>
    let here := bs.take p.2
    let go := s.freeBit && here.all Option.isSome && (s.hostMisses p.1 p.2 true).isEmpty
    let (e, s) := if go then s.takeFree.busWrite src p.1 (here.map fun b => (true, b.getD 0)) else (some .unoccupied, s.takeFree)
    let (n, held, s) := State.writeSomeOf src t (bs.drop p.2) s
    if e.isSome then (n, lineOf p.1 :: held, s) else (n + p.2, held, s)

/-- The runs of a transfer that ended early: an open part of their accesses. Answers the bytes written. -/
def State.moveSome (src n : Nat) (fill : Option Nat) (held : List Nat) : List (Nat × Nat) → State → Nat × State
  | [], s => (0, s)
  | r :: t, s =>
    let (bs, s) := match fill with
      | some pat => ((fillBytes pat r.2 n).map some, s)
      | none => s.readSome src held (wrapAccesses r.1 n)
    let (m, more, s) := s.writeSomeOf src (wrapAccesses r.2 n) bs
    let (rest, s) := State.moveSome src n fill (held ++ more) t s
    (m + rest, s)

/-- The part of a transfer that a channel had made when it ended: the bytes written (R107, R111). -/
def State.transferPart (u : Nat) (fill : Bool) (b : Vec) (s : State) : Nat × State :=
  let (m, s) := s.moveSome (engineSource clsDma u) (bodyLen0 b) (patternOf fill b) [] (planOf fill b).2
  (m, s.bump64 (rDmaChBytes u) m)

/-- Execute a transfer body: status, bytes written, state (R104 to R107). `DMA_CH_BYTES` counts the bytes of data writes (log entry 157);
of the accesses that fail, the first in loop order is captured (log entry 159). -/
def State.transfer (u : Nat) (fill : Bool) (b : Vec) (s : State) : Nat × Nat × State :=
  let plan := planOf fill b
  match s.moveRuns (engineSource clsDma u) (bodyLen0 b) (patternOf fill b) plan.2 with
  | (none, t) =>
    let m := bodyLen0 b * plan.2.length
    (plan.1, m, t.bump64 (rDmaChBytes u) m)
  | (some e, _) =>
    let (m, t) := s.transferPart u fill b
    (stBusError, m, t.engineError clsDma u e)

/-- The pages of head-host memory a transfer must wait for. -/
def transferMisses (fill : Bool) (b : Vec) (s : State) : List Nat :=
  (planOf fill b).2.flatMap fun r =>
    (if fill then [] else (wrapAccesses r.1 (bodyLen0 b)).flatMap fun p => s.hostMisses p.1 p.2 false)
      ++ (wrapAccesses r.2 (bodyLen0 b)).flatMap fun p => s.hostMisses p.1 p.2 true

/-- A COPY or FILL block that ends with BAD_COMMAND (R91, R103). -/
def badTransfer (fill : Bool) (b : Vec) : Bool := badBody fill b || le b 56 4 != 0

/-- Execute a COPY or FILL that the channel has taken. -/
def State.runTransfer (u : Nat) (fill : Bool) (c : Cmd) (s : State) : Cmd × State :=
  let (st, n, t) := s.transfer u fill c.block
  ({ c.finish st with bytes := n }, t)

/-- One event of COPY or FILL on a channel. -/
def State.dmaTransfer (u : Nat) (fill : Bool) (s : State) : State :=
  s.engineEvent clsDma u (if fill then 2 else 1) (checkBlock (badTransfer fill)) (fun c => transferMisses fill c.block)
    (State.runTransfer u fill)

def execDmaCopy (u : Nat) (s : State) : Host.Outcome State Fault Refusal :=
  .next (if u < 1024 then s.dmaTransfer u false else s)
def execDmaFill (u : Nat) (s : State) : Host.Outcome State Fault Refusal :=
  .next (if u < 1024 then s.dmaTransfer u true else s)

/-! ### Chains (R108 to R110) -/

/-- DESC_ADDR of a CHAIN command. -/
def chainAddr (b : Vec) : Nat := le b 16 8
/-- DESC_COUNT of a CHAIN command. -/
def chainCount (b : Vec) : Nat := le b 24 2

/-- A CHAIN's operands break R108. -/
def badChain (b : Vec) : Bool :=
  decide (2 ^ 48 ≤ chainAddr b) || chainAddr b % 64 != 0 || chainCount b == 0 || le b 26 8 != 0 || le b 34 8 != 0
    || le b 42 8 != 0 || le b 50 8 != 0 || le b 58 6 != 0

/-- The address of the descriptor in service; it wraps at 2^48 as R104's addresses do (log entry 156). -/
def Cmd.descAddr (c : Cmd) : Nat := (chainAddr c.block + 64 * c.index) % 2 ^ 48

/-- The header that the channel writes into a descriptor (R108). -/
def descHeader (state status bytes : Nat) : List Byte :=
  leBytes 2 state ++ leBytes 2 status ++ leBytes 4 0 ++ leBytes 8 bytes

/-- A descriptor is a FILL. -/
def descFill (d : Vec) : Bool := le d 56 2 == 2

/-- A descriptor's body or OP is out of its ranges (R108, R109). -/
def badDescriptor (d : Vec) : Bool := (le d 56 2 != 1 && le d 56 2 != 2) || le d 58 2 != 0 || badBody (descFill d) d

/-- The descriptor in service ends with a status and the bytes it wrote; its header is owed. -/
def Cmd.endDescriptor (st n : Nat) (c : Cmd) : Cmd := { c with desc := none, descEnd := some (st, n) }

/-- The translations a chain waits for: those of the descriptor in service, then those of its transfer. -/
def chainMisses (c : Cmd) (s : State) : List Nat :=
  match c.descEnd, c.desc with
  | some _, _ => []
  | none, none => s.hostMisses c.descAddr 64 false
  | none, some d => transferMisses (descFill d) d s

/-- Go on with a chain: the descriptor in service is read, once, and checked; or its transfer is executed. Its header is then written
by DESCRIPTOR_COMPLETE (R108, R109). -/
def State.runChain (u : Nat) (c : Cmd) (s : State) : Cmd × State :=
  match c.descEnd, c.desc with
  | some _, _ => (c, s)
  | none, none =>
    let (e, bs, s) := s.busRead (engineSource clsDma u) c.descAddr 64
    let d : Vec := BitVec.ofNat 512 (ofLe bs)
    match e with
    | some k => (c.endDescriptor stBusError 0, s.engineError clsDma u (k, c.descAddr))
    | none => (if badDescriptor d then c.endDescriptor stBadCommand 0 else { c with desc := some d }, s)
  | none, some d =>
    let (st, n, t) := s.transfer u (descFill d) d
    (c.endDescriptor st n, t)

def execDmaChain (u : Nat) (s : State) : Host.Outcome State Fault Refusal :=
  .next (if 1024 ≤ u then s else s.engineEvent clsDma u 3 (checkBlock badChain) chainMisses (State.runChain u))

/-- DETAIL of a chain's record (R110). -/
def chainDetail (c : Cmd) : Nat := c.bad + 2 ^ 32 * c.firstBad

/-- The chain after the header of its descriptor in service is written. -/
def Cmd.nextDescriptor (n : Nat) (bad : Bool) (c : Cmd) : Cmd :=
  { c with bytes := c.bytes + n, bad := if bad then c.bad + 1 else c.bad,
           firstBad := if bad ∧ c.bad = 0 then c.index else c.firstBad, index := c.index + 1, desc := none, descEnd := none }

/-- A chain whose descriptors have all ended (R110). -/
def Cmd.endChain (c : Cmd) : Cmd :=
  { c.finish (if c.bad = 0 then stOk else stBadDescriptors) with detail := chainDetail c }

/-- Write the header of the descriptor in service; an error is captured (R109). -/
def State.writeHeader (u : Nat) (c : Cmd) (state st n : Nat) (s : State) : Bool × State :=
  let (e, s) := s.busWrite (engineSource clsDma u) c.descAddr (enableAll (descHeader state st n))
  match e with
  | some k => (false, s.engineError clsDma u (k, c.descAddr))
  | none => (true, s)

/-- The descriptor in service ended with a status: its header is written, and the next one starts (R109). -/
def State.completeDescriptor (u st n : Nat) (c : Cmd) (s : State) : Cmd × State :=
  let (good, s) := s.writeHeader u c (if st = stOk then 1 else 2) st n
  let bad := st ≠ stOk ∨ ¬ good
  let c := c.nextDescriptor n bad
  (if c.index < chainCount c.block then c else c.endChain, if bad then s.bump (rDmaChBad u) 1 else s)

def execDescriptorComplete (u : Nat) (s : State) : Host.Outcome State Fault Refusal :=
  .next (match s.executing clsDma u 3 with
    | some c =>
      match c.descEnd with
      | some (st, n) =>
        if 1024 ≤ u then s
        else if ¬ (s.hostMisses c.descAddr 16 true).isEmpty then s.askTranslations (s.hostMisses c.descAddr 16 true)
        else let (c, s) := s.completeDescriptor u st n c; s.putCommand clsDma u c
      | none => s
    | none => s)

/-! ### A command that was ended (R107, R110, R111) -/

/-- The part of the descriptor in service that was made when the chain was ended: its bytes. -/
def State.descriptorPart (u : Nat) (c : Cmd) (s : State) : Nat × State :=
  match c.descEnd, c.desc with
  | some (_, n), _ => (n, s)
  | none, some d => s.transferPart u (descFill d) d
  | none, none => (0, s)

/-- An ended command that was still executing, with what it had written: a chain's descriptor in service gets its header as ABORTED
(R111). -/
def State.stopDma (u : Nat) (c : Cmd) (s : State) : Cmd × State :=
  if opcodeOf c.block = 3 then
    let (n, s) := s.descriptorPart u c
    let (_, s) := s.writeHeader u c 3 c.stop n
    ({ c with bytes := c.bytes + n, detail := chainDetail c }, s)
  else
    let (n, s) := s.transferPart u (opcodeOf c.block == 2) c.block
    ({ c with bytes := n }, s)

/-- A command that executes meets a bus error: a chain's descriptor ends with it, a COPY or FILL ends (R107, R109). -/
def State.failDma (u : Nat) (c : Cmd) (s : State) : Cmd × State :=
  if opcodeOf c.block = 3 then
    match c.descEnd with
    | some _ => (c, s)
    | none => let (n, s) := s.descriptorPart u c; (c.endDescriptor stBusError n, s)
  else
    let (n, s) := s.transferPart u (opcodeOf c.block == 2) c.block
    ({ c.finish stBusError with bytes := n }, s)

/-! ### Abort and fences (R111, R112) -/

def execDmaChAbort (u : Nat) (s : State) : Host.Outcome State Fault Refusal :=
  .next (if u < 1024 then s.abortChannel u else s)

/-- Fence a DMA channel for a requester. -/
def State.unitFence (src cls u : Nat) (s : State) : State := (s.fenceUnit cls u).afterFence src

def execDmaChFence (src u : Nat) (s : State) : Host.Outcome State Fault Refusal :=
  .next (if (src = srcGovernor ∨ src = srcHost) ∧ u < 1024 then s.unitFence src clsDma u else s)
def execDmaEngFence (src e : Nat) (s : State) : Host.Outcome State Fault Refusal :=
  .next (if (src = srcGovernor ∨ src = srcHost) ∧ e < 16 then (s.fenceDmaEngine e).afterFence src else s)

end Sys2Proof.Machine
end

