-- ==== Sys2Proof/Machine/Endpoint.lean ====
section
/-! DEFINITION. The head-host endpoint: its resets (R481), BAR4 (R484), MSI-X (R485, R486), address translation (R487, R488), head-host reads
(R489) and the doorbells of the control rings (R491, R494). -/

namespace Sys2Proof.Machine

/-! ### Resets (R481) -/

/-- A load or store on its way to head-host memory ends in a bus error of kind 1. -/
def Load.cut (l : Load) : Load := if l.result = .host then { l with result := .error .ats } else l
def Owed.cut (o : Owed) : Owed := if hostBase ≤ o.addr.toNat ∧ o.addr.toNat < 2 ^ 48 ∧ o.error.isNone then { o with error := some .ats, held := [] } else o

/-- Change the outstanding loads and stores of every engine. -/
def State.modRequests (f : Load → Load) (g : Owed → Owed) (s : State) : State :=
  (s.cores.map (·.1)).foldl (fun t k => t.modCore k fun c => { c with loads := c.loads.map f, stores := c.stores.map g }) s

/-- Requests in flight to head-host memory end. -/
def State.cutHostRequests (s : State) : State := s.modRequests Load.cut Owed.cut

/-- The registers of the EP window at their reset values, but for counts since cold start. -/
def epWindowReset (regs : Sparse Word32) : Sparse Word32 :=
  let inside (a : Nat) : Bool := decide (epBase ≤ a) && decide (a < epBase + 0x100000)
  let kept := Sparse.filter (fun a _ => inside a) (keptRegs (Sparse.filter (fun a _ => inside a) regs))
  kept.foldl (fun m p => Sparse.set 0 p.1 p.2 m) (Sparse.filter (fun a _ => ! inside a) regs)

/-- The endpoint resets: configuration space, MSI-X table and EP window; the control rings are out of service. -/
def State.endpointReset (s : State) : State := { s.cutHostRequests.forgetRings with ep := Endpoint.cold, regs := epWindowReset s.regs }

/-- PERST_N goes low, or high again, when the endpoint trains. -/
def execPerstN (low : Bool) (s : State) : Host.Outcome State Fault Refusal :=
  .next (
    let t : State := { s with pin := { s.pin with perstLow := low } }
    if low then t.endpointReset else if s.pin.perstLow then t.trainEndpoint else t)

/-- A hot reset or link-down; `again`: the link trains again at once. -/
def execHostLinkDown (again : Bool) (s : State) : Host.Outcome State Fault Refusal :=
  .next (if ¬ s.ep.linkUp then s else if again then s.endpointReset.trainEndpoint else s.endpointReset)

/-! ### BAR4 (R484) -/

/-- The endpoint decodes its BARs: the link is up, Memory Space Enable is 1, and the function is in D0 (R480, R482). -/
def State.barsOpen (s : State) : Bool := s.ep.linkUp && s.ep.memEnable && ! s.ep.d3hot

/-- The LPDDR address of a BAR4 offset in the window in force. -/
def State.bar4Address (s : State) (o : Nat) : Nat := s.reg rEpBar4Window % 64 * 2 ^ 32 + o % 2 ^ 32
/-- An access lies in the LPDDR range in service. -/
def State.inLpddr (s : State) (a n : Nat) : Bool := decide (a + n ≤ 2 ^ 35 * s.lpdChannels)
/-- Set what the last read of a requester returned. -/
def State.replyTo (src a : Nat) (data : List Byte) (ur : Bool) (s : State) : State :=
  { s with replies := Sparse.set { addr := 0, data := [], unsupported := false } src { addr := a, data := data, unsupported := ur } s.replies }
/-- Set what the last read of the head host returned. -/
def State.replyHost (a : Nat) (data : List Byte) (ur : Bool) (s : State) : State := s.replyTo srcHost a data ur

def execBar4Read (o n : Nat) (s : State) : Host.Outcome State Fault Refusal :=
  .next (if ¬ s.barsOpen then s
    else
      let a := s.bar4Address o
      if ¬ s.inLpddr a n then (s.bump rEpBar4Ur 1).replyHost o [] true
      else if s.touchesDamage a n then ((s.countDamage a).bump rEpBar4Ur 1).replyHost o [] true
      else (s.correct a n).replyHost o (s.bytes a n) false)

/-- A write with its byte enables; one that would merge into a damaged word is discarded like one beyond the range (R39). -/
def execBar4Write (o : Nat) (bs : List (Bool × Byte)) (s : State) : Host.Outcome State Fault Refusal :=
  .next (if ¬ s.barsOpen then s
    else
      let a := s.bar4Address o
      if ¬ s.inLpddr a bs.length then s.bump rEpBar4Ur 1
      else if s.mergesDamage a (bs.map (·.1)) then (s.countDamage a).bump rEpBar4Ur 1
      else s.performWrite a bs)

/-! ### MSI-X (R485, R486) -/

/-- A vector that is unmasked with its pending bit set sends one message. -/
def State.settleVector (v : Nat) (s : State) : State :=
  if Sparse.get false v s.ep.msixPending ∧ ¬ s.vectorMasked v then
    ({ s with ep := { s.ep with msixPending := Sparse.set false v false s.ep.msixPending } } : State).emit (.msix (s.msixEntry v).addr (s.msixEntry v).data)
  else s

/-- An entry with one of its four words replaced. -/
def MsixEntry.put (w : Nat) (v : Word32) (e : MsixEntry) : MsixEntry :=
  match w with
  | 0 => { e with addr := BitVec.ofNat 64 (e.addr.toNat / 2 ^ 32 * 2 ^ 32 + v.toNat) }
  | 1 => { e with addr := BitVec.ofNat 64 (e.addr.toNat % 2 ^ 32 + v.toNat * 2 ^ 32) }
  | 2 => { e with data := v }
  | _ => { e with masked := v.toNat % 2 == 1 }

/-- A write of the word at an offset of BAR2; outside the table it is discarded (R485). -/
def State.writeMsix (o : Nat) (v : Word32) (s : State) : State :=
  if o % 4 ≠ 0 ∨ 0x8000 ≤ o then s
  else
    let n := o / 16
    let t : State := { s with ep := { s.ep with msix := Sparse.modify MsixEntry.reset n (MsixEntry.put (o % 16 / 4) v) s.ep.msix } }
    t.settleVector n

def execMsixEntryWrite (o : Nat) (v : Word32) (s : State) : Host.Outcome State Fault Refusal :=
  .next (if s.barsOpen then s.writeMsix o v else s)

/-- The function mask changes (R486): vectors that it unmasks send what is pending. -/
def State.setFunctionMask (m : Bool) (s : State) : State :=
  let t : State := { s with ep := { s.ep with msixMask := m } }
  (t.ep.msixPending.map (·.1)).foldl (fun t v => t.settleVector v) t

def execEpMsixSend (v : Word32) (s : State) : Host.Outcome State Fault Refusal := .next (s.sendVector v.toNat)

/-! ### Address translation (R487, R488) -/

/-- An access at an address touches one of the pages. -/
def touchesPages (a n page pages : Nat) : Bool := (hostPages a (max 1 n)).any fun p => decide (page ≤ p) && decide (p < page + pages)

/-- A read of an engine under translations of the pages has not completed. -/
def State.readsOut (s : State) (page pages : Nat) : Bool :=
  s.cores.any fun p => p.2.loads.any fun l => l.result == .host && touchesPages l.addr.toNat l.size page pages

/-- An invalidation whose requests have all completed ends, and Translation Requests held back by it go out again. -/
def State.settleInval (r : Nat × Nat) (s : State) : State :=
  if s.readsOut r.1 r.2 then s
  else
    let t : State := { s with ep := { s.ep with invals := s.ep.invals.erase r } }
    let t := (t.emit (.atsInvalidateDone r.1 r.2)).bump rEpAtsInvals 1
    let again := t.ep.atsWaiting.filter fun p => decide (r.1 ≤ p) && decide (p < r.1 + r.2)
    again.foldl (fun t p => (t.emit (.atsRequest p)).bump rEpAtsMisses 1) t

/-- Settle every invalidation in progress. -/
def State.settleInvals (s : State) : State := s.ep.invals.foldl (fun t r => t.settleInval r) s

/-- An Invalidate Request for a range of 4 KiB pages; the endpoint holds at most 32. -/
def execAtsInvalidateRequest (page pages : Nat) (s : State) : Host.Outcome State Fault Refusal :=
  .next (if ¬ s.ep.linkUp ∨ 32 ≤ s.ep.invals.length then s
    else
      let stays (t : Translation) : Bool := ! (decide (page ≤ t.page) && decide (t.page < page + pages))
      let t : State := { s with ep := { s.ep with atc := s.ep.atc.filter stays, invals := s.ep.invals ++ [(page, pages)] } }
      (t.revokeRange (hostBase + 4096 * page) (4096 * pages)).settleInval (page, pages))

/-- A store whose bytes wait for a translation goes on, or fails. -/
def State.resumeStore (s : State) (o : Owed) : Owed × Option (Nat × List (Nat × Byte)) :=
  if o.held.isEmpty ∨ o.error.isSome then (o, none)
  else
    let a := o.addr.toNat
    let pages := o.held.flatMap fun p => hostPages (a + p.1) 1
    if pages.any fun p => s.hostPage p true == .miss then (o, none)
    else if pages.any fun p => s.hostPage p true == .fail then ({ o with error := some .ats, held := [] }, none)
    else ({ o with held := [] }, some (a, o.held))

/-- The stores of one engine that waited for translations go on. -/
def State.resumeStores (k : Nat) (s : State) : State :=
  let l := (s.core k).stores.map s.resumeStore
  let t := s.modCore k fun c => { c with stores := l.map (·.1) }
  l.foldl (fun t x => match x.2 with
    | some (a, held) => held.foldl (fun t p => t.setByte (a + p.1) p.2) t
    | none => t) t

/-- Every engine's stores that waited for translations go on. -/
def State.resumeAllStores (s : State) : State := (s.cores.map (·.1)).foldl (fun t k => t.resumeStores k) s

/-- A load that waits on a page fails. -/
def Load.failPage (page : Nat) (l : Load) : Load :=
  if l.result = .host ∧ touchesPages l.addr.toNat l.size page 1 then { l with result := .error .ats } else l
/-- A store that waits on a page fails. -/
def Owed.failPage (page : Nat) (o : Owed) : Owed :=
  if ¬ o.held.isEmpty ∧ o.error.isNone ∧ (o.held.any fun p => (hostPages (o.addr.toNat + p.1) 1).contains page) then { o with error := some .ats, held := [] } else o

/-- An access of an engine waits on a page. -/
def Core.waitsOn (page : Nat) (c : Core) : Bool := (c.loads.any fun l => l.failPage page != l) || c.stores.any fun o => o.failPage page != o

/-- The translation of a page failed: the accesses that wait for it end in a bus error of kind 1. -/
def State.failTranslation (page : Nat) (s : State) : State :=
  let mine := s.cores.any fun p => p.2.waitsOn page
  let t := (s.modRequests (Load.failPage page) (Owed.failPage page)).bump rEpAtsFailed 1
  if mine then t else { t with ep := { t.ep with atsFailed := t.ep.atsFailed ++ [page] } }

/-- A store waits on a page for which the translation gives no write permission. -/
def State.lacksWrite (s : State) (page : Nat) : Bool := s.cores.any fun p => p.2.stores.any fun o => o.failPage page != o

/-- A Translation Completion for a page: `ok` false for UR or CA. -/
def execTranslationCompletion (page : Nat) (ok read write : Bool) (s : State) : Host.Outcome State Fault Refusal :=
  .next (if ¬ s.ep.atsWaiting.contains page ∨ (s.ep.invals.any fun r => decide (r.1 ≤ page) && decide (page < r.1 + r.2)) then s
    else
      let t : State := { s with ep := { s.ep with atsWaiting := s.ep.atsWaiting.erase page } }
      if ¬ ok ∨ (¬ read ∧ ¬ write) then t.failTranslation page
      else if ¬ write ∧ t.lacksWrite page then t.failTranslation page
      else
        let l := t.ep.atc ++ [{ page := page, read := read, write := write }]
        ({ t with ep := { t.ep with atc := l.drop (l.length - 8192) } } : State).resumeAllStores)

/-! ### Reads of head-host memory (R489) -/

/-- The `i`-th outstanding load of engine `k` gets its data, or fails: UR, CA or poison, or a timeout (kind 0). -/
def execHostReadCompletion (k i : Nat) (data : Option (List Byte)) (timeout : Bool) (s : State) : Host.Outcome State Fault Refusal :=
  .next (match (s.core k).loads[i]? with
    | none => s
    | some l =>
      if l.result ≠ .host ∨ (hostPages l.addr.toNat l.size).any (fun p => s.ep.atsWaiting.contains p) then s
      else
        let result : LoadResult := match data with
          | some bs => if timeout then .error .unoccupied else .data (BitVec.ofNat 512 (ofLe (bs.take l.size)))
          | none => .error .unoccupied
        let t := s.modCore k fun c => { c with loads := setNth i { l with result := result } c.loads }
        (if timeout then t.bump rEpCplTimeouts 1 else t).settleInvals)

/-! ### Control rings (R491, R494) -/

/-- A doorbell with the commands that the head host's memory then holds; it is held while no supervisor runs. -/
def execEpCrTail (r tail : Nat) (commands : List (List Byte)) (s : State) : Host.Outcome State Fault Refusal :=
  .next (if 4 ≤ r ∨ ¬ s.cringEnabled r ∨ ¬ s.ep.linkUp then s
    else
      let size := s.cringSize r
      let tail := tail % size
      if ¬ s.supervisorRuns then s.modCring r fun x => { x with tail := tail, heldTail := some tail }
      else
        let n := (tail + size - (s.cring r).subHead) % size
        let new := (List.range n).map fun i => padTo 64 (commands.getD i [])
        let t := s.modCring r fun x => { x with tail := tail, subHead := tail, heldTail := none, fetched := x.fetched ++ new }
        t.sweepRing r n)

def execEpCrDisable (r : Nat) (s : State) : Host.Outcome State Fault Refusal := .next (if r < 4 then s.disableRing r else s)

end Sys2Proof.Machine
end

