-- ==== Sys2Proof/Machine/EngineErrors.lean ====
section
/-! DEFINITION. Commands that a fence, an abort, an alarm or a bus error ends (R29, R97, R107, R111, R175, R176, R219, R261, R281,
R310), the record of a command (R94), and the governor's known-answer tests (R177, R221, R262, R281, R310, R457). -/

namespace Sys2Proof.Machine

/-! ### What an ended command had done -/

/-- The translations that a command of a unit waits for: until they are there it has made none of its accesses. -/
def State.commandMisses (s : State) (cls : Nat) (c : Cmd) : List Nat :=
  let op := opcodeOf c.block
  match cls with
  | 4 => if op = 1 ∨ op = 2 then messageMisses c s else blockMisses (op == 4) c s
  | 6 => parMisses op c s
  | 7 => match op with | 1 => walkMisses c s | 2 => findMisses c s | 3 => probeMisses c s | _ => scoreMisses c s
  | _ => []

/-- A command that a fence, an abort or an alarm ended while it executed, with what it had written by then: an open part of its
accesses. -/
def State.stopCommand (cls u : Nat) (c : Cmd) (s : State) : Cmd × State :=
  if ¬ (s.commandMisses cls c).isEmpty then (c, s)
  else match cls with
    | 1 => s.stopDma u c
    | 2 => s.stopLane clsCoder u c
    | 3 => s.stopLane clsDecoder u c
    | 4 => s.stopDigest u c
    | 6 => s.stopParity u c
    | 7 => s.stopCat u c
    | _ => (c, s)

/-- DETAIL of an ended command: what its class says whatever the status, else 0 (R93, R110, R173, R217, R250, R279, R309, R410). -/
def endedDetail (cls : Nat) (c : Cmd) : Nat :=
  if cls = clsSequencer then (if opcodeOf c.block = 3 then c.index % 16 else 0)
  else if cls ≤ 5 ∧ (cls ≠ 1 ∨ opcodeOf c.block = 3) then c.detail else 0

/-- The command of queue `q` whose record is due, as it is recorded, with what it had done if it was ended (R94, R95); none while it
executes. -/
def State.dueRecord (cls u q : Nat) (s : State) : Option (Cmd × State) :=
  match (s.unit cls u).oldest q with
  | none => none
  | some c =>
    if c.stop ≠ 0 then
      let (c, s) := if c.done then (c, s) else s.stopCommand cls u c
      some ({ c with done := true, status := c.stop, detail := endedDetail cls c }, s)
    else if c.done then some (c, s)
    else none

/-- The header of a chain's descriptor that an abort or a fence stopped lies in a page still to be translated. -/
def State.headerMisses (s : State) (cls u q : Nat) : List Nat :=
  match (s.unit cls u).oldest q with
  | some c => if cls = clsDma ∧ opcodeOf c.block = 3 ∧ c.stop ≠ 0 ∧ ¬ c.done then s.hostMisses c.descAddr 16 true else []
  | none => []

/-- Write the record that is due of queue `q` (R94, R95). -/
def State.reportNext (cls u q : Nat) (s : State) : State :=
  if ¬ (s.headerMisses cls u q).isEmpty then s.askTranslations (s.headerMisses cls u q)
  else match s.dueRecord cls u q with
    | none => s
    | some (c, s) => s.reportCommand cls u c

/-- The catalogue programs learn from a record that a node is corrupt in memory: they put the stored copy that their head's latest checkpoint
names in its place; where that copy cannot be read or fails CHECK as well, it is a metadata fault (R232, R281). A node never stored has no
copy to read. -/
def State.healNode (node : Nat) (s : State) : State :=
  match s.med.checkpoints.find? fun c => c.head == s.headNo with
  | none => s
  | some c =>
    let buckets := s.reg rCatDirBuckets
    let slot := bucketSlot (s.bytes (s.reg64 rCatDirBase / 64 * 64 + 64 * (node % max 1 buckets)) 64) node
    match slot with
    | none => s
    | some a =>
      if c.shelf node = Shelf.none ∨ buckets = 0 then s
      else match (s.useReads [] 1 (c.shelf node)).readShelf [] [] (c.shelf node) with
        | some b => if goodCheck b then (s.useReads [] 1 (c.shelf node)).performWrite (a / 4096 * 4096) (b.map fun x => (true, x)) else s.metadataFault
        | none => s.metadataFault

/-- What the programs do on the record that is due of queue `q`. -/
def State.healAfter (cls u q : Nat) (before s : State) : State :=
  if cls ≠ clsCatalogue ∨ ¬ (before.headerMisses cls u q).isEmpty then s
  else match before.dueRecord cls u q with
    | some (c, _) => if c.status = stNodeCorrupt then s.healNode c.detail else s
    | none => s

/-- The last write response of queue `q`'s oldest command returns: its record is written. A command of no assigned opcode is taken
first, which needs no other event. -/
def execEngineCommandComplete (cls u q : Nat) (s : State) : Host.Outcome State Fault Refusal :=
  .next (if classUnits cls ≤ u ∨ 3 < q then s else
      let t := s.takeUnassigned cls u
      (t.reportNext cls u q).healAfter cls u q t)

/-! ### Bus errors -/

/-- The bus-error kind of a code of `NOC_ERR_STATUS.KIND`. -/
def busKindOf (n : Nat) : BusKind :=
  match n with
  | 0 => .unoccupied | 1 => .ats | 2 => .uncorrectable | _ => .atomic

/-- A command that executes meets a bus error: what it becomes. -/
def State.failCommand (cls u : Nat) (c : Cmd) (s : State) : Cmd × State :=
  if cls = clsDma then s.failDma u c
  else if ¬ (s.commandMisses cls c).isEmpty then (c.finish stBusError, s)
  else if cls = clsDigest then s.failDigest u c
  else
    let (c, s) := s.stopCommand cls u c
    ({ c.finish stBusError with detail := 0 }, s)

/-- A lane's command meets a bus error, which resets the context (R171, R175). -/
def State.failLane (cls u : Nat) (c : Cmd) (j : LaneJob) (s : State) : State :=
  let (x, s) := s.stopLane cls u c
  s.endReset cls u { x with status := stBusError } j

/-- A command that a unit executes meets a bus error at an address. -/
def State.engineFails (cls u kind addr : Nat) (s : State) : State :=
  match (s.unit cls u).service.find? Cmd.live with
  | none => s
  | some c =>
    if cls = clsSequencer then s
    else if cls = clsCipher then s.cphError u c (busKindOf kind, addr)
    else
      let s := s.engineError cls u (busKindOf kind, addr)
      match c.job with
      | some j => s.failLane cls u c j
      | none => let (c, s) := s.failCommand cls u c; s.putCommand cls u c

def execEngineBusError (cls u kind addr : Nat) (s : State) : Host.Outcome State Fault Refusal :=
  .next (if u < classUnits cls then s.engineFails cls u kind addr else s)

/-! ### Known-answer tests -/

/-- Classes the governor tests: lanes, digest, cipher, parity and catalogue units (R177, R221, R262, R281, R310). -/
def testedClass (cls : Nat) : Bool := decide (2 ≤ cls) && decide (cls ≤ 7)

/-- A unit is idle: its queues are empty and it holds no command. -/
def State.unitIdle (s : State) (cls u : Nat) : Bool := (s.unit cls u).queued == 0 && (s.unit cls u).owed.isEmpty

/-- A known-answer test begins on an idle unit, which takes no command meanwhile. -/
def State.beginTest (cls u : Nat) (s : State) : State := s.modUnit cls u fun e => { e with testing := true }

/-- A known-answer test ends; a unit that fails it is fenced (R457). -/
def State.endTest (cls u : Nat) (pass : Bool) (s : State) : State :=
  let s := s.modUnit cls u fun e => { e with testing := false }
  let s := { s with twn := { s.twn with katRun := s.twn.katRun + 1, katFailed := s.twn.katFailed + (if pass then 0 else 1) } }
  if pass then s else (s.fenceUnit cls u).afterFence srcGovernor

/-- A test of a unit that is idle begins; the next such event on the unit ends it, with its outcome. -/
def execKnownAnswerTest (cls u : Nat) (pass : Bool) (s : State) : Host.Outcome State Fault Refusal :=
  .next (if ¬ testedClass cls ∨ classUnits cls ≤ u ∨ s.unitFenced cls u then s
    else if (s.unit cls u).testing then s.endTest cls u pass
    else if s.unitIdle cls u then s.beginTest cls u
    else s)

end Sys2Proof.Machine
end

