-- ==== Sys2Proof/Machine/Expanders.lean ====
section
/-! DEFINITION. CXL ports: links, fences and what is lost with them (R30, R222, R292, R294, R562). -/

namespace Sys2Proof.Machine

/-- The first address of a port's window (R17). -/
def cxlWindow (p : Nat) : Nat := 0x010000000000 * (p + 1)

/-- Directory slots whose node lies in a port's window (R275). -/
def State.slotsAtPort (s : State) (p : Nat) : List Nat :=
  let base := s.reg64 rCatDirBase / 64 * 64
  let slots := ((Sparse.filter (fun a _ => decide (base ≤ a) && decide (a < base + 64 * s.reg rCatDirBuckets)) s.mem).map fun c =>
    base + (c.1 - base) / 16 * 16).eraseDups
  slots.filter fun a => ofLe (s.bytes a 8) != 0 && ofLe (s.bytes (a + 8) 8) / 0x010000000000 == p + 1

/-- Remove from the directory the nodes held on a port: each bucket that names one is written with one 64-byte store (R275, R292). -/
def State.dropNodes (p : Nat) (s : State) : State :=
  let slots := s.slotsAtPort p
  let bucket (a : Nat) : List Byte := (List.range 4).flatMap fun i => if slots.contains (a + 16 * i) then zeros 16 else s.bytes (a + 16 * i) 16
  ((slots.map fun a => a / 64 * 64).eraseDups).foldl (fun t a => t.performWrite a ((bucket a).map fun b => (true, b))) s

/-- Lose a port's share of dedup tier 1 (R222): all of it where no other port is up; where one is, which entries lay on the port is
open (log entry 39). -/
def State.dropTierOne (p : Nat) (s : State) : State :=
  let others := [0, 1, 2, 3].any fun q => q != p && s.regBit (rCxlPort q) 0 && ! s.regBit (rCxlPortFence q) 0
  let keep (x : DedupEntry × Nat) : Bool := x.1.tier != 1 || (others && Config.freeBit (s.free + x.2))
  { s with free := s.free + s.med.index.length, med := { s.med with index := (s.med.index.zipIdx.filter keep).map (·.1) } }

/-- Fence a port, after its nodes leave the directory. -/
def State.cxlFence (src p : Nat) (s : State) : State := (((s.dropNodes p).setRegBit (rCxlPortFence p) 0).dropTierOne p).afterFence src

def execCxlPortFence (src p : Nat) (s : State) : Host.Outcome State Fault Refusal :=
  .next (if (src = srcGovernor ∨ src = srcHost) ∧ p < 4 then s.cxlFence src p else s)

/-- A port's link goes down: what it held is lost (R292). -/
def State.cxlDown (p : Nat) (s : State) : State :=
  if ¬ s.regBit (rCxlPort p) 0 then s
  else
    let t := (((s.dropNodes p).clearRegBit (rCxlPort p) 0).setReg (rCxlPortCapacity p) 0).dropTierOne p
    { t with mem := Sparse.filter (fun a _ => a / 0x010000000000 != p + 1) t.mem }

/-- A port's link comes up with `gib` GiB mapped, or goes down, `err` when by an uncorrectable link error. A link comes up only out of
reset and with its clock; memory beyond 1 TiB is not mapped. -/
def execCxlLinkChange (p : Nat) (up : Bool) (gib : Nat) (err : Bool) (s : State) : Host.Outcome State Fault Refusal :=
  .next (let s := s.releasePerst
    if 4 ≤ p then s
    else if up then
      (if s.hlt.mode = .safe ∨ ¬ s.pwr.clkCxl ∨ s.cxlPorts ≤ p ∨ s.pin.cxlPerst.getLsbD p ∨ s.regBit (rCxlPortFence p) 0 then s
       else (s.setReg (rCxlPort p) (1 + 4 * s.cxlWidth)).setReg (rCxlPortCapacity p) (min 1024 gib))
    else if ¬ s.regBit (rCxlPort p) 0 then s
    else if err then (s.cxlDown p).bump (rCxlPort p + 0x10) 1 else s.cxlDown p)

end Sys2Proof.Machine
end

