-- ==== Sys2Proof/Machine/Power.lean ====
section
/-! DEFINITION. Supplies and the dump (R330 to R333, R571 to R575), reference clocks (R577, R578), temperature (R584) and test access (R568). -/

namespace Sys2Proof.Machine

/-! ### Supplies (R572, R573, R575) -/

/-- VIN has stayed in range for 1 ms: it is good, and a VIN cut for overvoltage is connected again. -/
def execVinGood (mv : Nat) (s : State) : Host.Outcome State Fault Refusal :=
  .next (if 5800 ≤ mv ∧ mv ≤ 41000 then { s with pwr := { s.pwr with vinMv := mv, vinGood := true, vinCut := false } } else s)

def execVinOvervoltage (mv : Nat) (s : State) : Host.Outcome State Fault Refusal :=
  .next (if 42000 < mv then { s with pwr := { s.pwr with vinMv := mv, vinCut := true } } else s)

/-- VHOLD takes a new value: the hold-up is ready from 10.0 V rising to 9.5 V falling. -/
def execHoldupReadyChange (mv : Nat) (s : State) : Host.Outcome State Fault Refusal :=
  .next { s with
    pwr := { s.pwr with vholdMv := mv, holdupReady := if 10000 ≤ mv then true else if mv ≤ 9500 then false else s.pwr.holdupReady },
    twn := { s.twn with unclean := if mv ≤ 9500 then s.twn.unclean ||| 0x10 else s.twn.unclean } }

/-- Both supplies are below 5.2 V: the island stops. -/
def execIslandSupplyFail (vin vhold : Nat) (s : State) : Host.Outcome State Fault Refusal :=
  .next (if 5200 ≤ vin ∨ 5200 ≤ vhold then s
    else
      let t := s.unitsReset .power
      { t with pwr := { t.pwr with vinMv := vin, vholdMv := vhold, vinGood := false, holdupReady := false, island := false } })

/-! ### Power loss and the dump (R330, R331) -/

/-- Every cluster but 0 and 8 stops. -/
def State.stopClusters (s : State) : State :=
  (List.range 96).foldl (fun t k => if k / 8 = 0 ∨ k / 8 = 8 then t else t.stopCore k) s

/-- Ethernet, twin link, CXL and host endpoint stop. -/
def State.stopLinks (s : State) : State :=
  let t := (((List.range 16).foldl (fun t i => t.clearRegBit (rEthPort i) 0) s).endConns fun _ => true)
  let t := [0, 1, 2, 3].foldl (fun t i => t.clearRegBit (rCxlPort i) 0) t
  let t := t.cutHostRequests
  { t with twn := { t.twn with linkUp := false, lanes := 0, retraining := false, held := [] }, ep := { t.ep with linkUp := false, speed := 0, width := 0 } }

/-- VIN has stayed below 5.6 V, or cut, for 20 us with VHOLD at or above 6.0 V: custody goes, intake stops, the drain begins. -/
def execPowerLossReport (vin : Nat) (s : State) : Host.Outcome State Fault Refusal :=
  .next (if s.pwr.phase ≠ .none ∨ s.pwr.vholdMv < 6000 ∨ (5600 ≤ vin ∧ ¬ s.pwr.vinCut) then s
    else
      let t : State := { s with pwr := { s.pwr with vinMv := vin, vinGood := false, loss := true, phase := .drain, lossAt := s.elapsed } }
      let t := ((t.raiseVector 7).releaseCustody causePowerLoss).stopLinks.stopClusters
      { t with acc := { t.acc with running := false } })

/-- The device powers down to keeper-only standby. -/
def State.standby (s : State) : State :=
  let t := s.unitsReset .power
  { t with pwr := { t.pwr with phase := .standby } }

/-- 50 ms after the report: the dump, or standby where R507 and R512 forbid one. -/
def execDumpPhase (s : State) : Host.Outcome State Fault Refusal :=
  .next (if s.pwr.phase ≠ .drain ∨ ¬ s.passed s.pwr.lossAt 50000000 then s
    else if s.mayDump then { s.writeDump.programDumpRows with pwr := { s.writeDump.programDumpRows.pwr with phase := .dump } }
    else s.standby)

/-- The LAST row is written: alarms held meanwhile take their effect (R529), then the device powers down. -/
def execDumpClose (s : State) : Host.Outcome State Fault Refusal :=
  .next (if s.pwr.phase ≠ .dump ∨ ¬ s.passed s.pwr.lossAt 790000000 then s
    else
      let held := s.kpr.heldAlarms
      let t : State := { s.programLastRow with kpr := { s.programLastRow.kpr with heldAlarms := [] } }
      (held.foldl (fun t c => t.alarmNow c) t).standby)

/-! ### Reference clocks (R578) -/

/-- Every media link is down: the carriers leave service, and MED_PERST_N is held low. -/
def State.loseMediaClock (s : State) : State :=
  let t := (s.carriers.map (·.1)).foldl (fun t x => (t.carrierLeaves x 3).losePort x t.ownPort false) s
  { t with pwr := { t.pwr with clkMed := false }, pin := { t.pin with medPerst := 0xFFF } }

/-- Every CXL link is down (R292). -/
def State.loseCxlClock (s : State) : State :=
  let t := [0, 1, 2, 3].foldl (fun t p => t.cxlDown p) s
  { t with pwr := { t.pwr with clkCxl := false }, pin := { t.pin with cxlPerst := 0xF } }

/-- Front-end ports and the twin link go dark; R443 counts the twin link lost. -/
def State.loseEthernetClock (s : State) : State :=
  let down (t : State) (p : Nat) : State := { t.setReg (rEthPort p) 0 with svc := { t.svc with mtus := Sparse.set 0 p 0 t.svc.mtus } }
  let t := (List.range 16).foldl down s
  { t with pwr := { t.pwr with clkEth := false }, twn := { t.twn with lanes := 0, retraining := false } }

def execRefclkLoss (clock : Refclk) (s : State) : Host.Outcome State Fault Refusal :=
  .next (match clock with
    | .pcieHost => { s.endpointReset with pwr := { s.endpointReset.pwr with clkHost := false } }
    | .pcieMedia => s.loseMediaClock
    | .pcieCxl => s.loseCxlClock
    | .ethernet => s.loseEthernetClock
    | .crystal => ({ s with pwr := { s.pwr with crystal := false } } : State).keeperAlarm alarmClock)

/-- The clock is there again: the host link trains; the other links come up by their own rows. -/
def execRefclkReturn (clock : Refclk) (s : State) : Host.Outcome State Fault Refusal :=
  .next (match clock with
    | .pcieHost => if s.pwr.clkHost then s else ({ s with pwr := { s.pwr with clkHost := true } } : State).trainEndpoint
    | .pcieMedia => if s.pwr.clkMed then s else { s with pwr := { s.pwr with clkMed := true, clkMedSince := s.elapsed } }
    | .pcieCxl => if s.pwr.clkCxl then s else { s with pwr := { s.pwr with clkCxl := true, clkCxlSince := s.elapsed } }
    | .ethernet => { s with pwr := { s.pwr with clkEth := true } }
    | .crystal => if s.pwr.crystal then s else { s with pwr := { s.pwr with crystal := true }, kpr := { s.kpr with alarmClearAt := s.elapsed } })

/-! ### Temperature (R503, R584) -/

/-- The die temperature: the highest reading of the 64 sensors, each corrected by its trim word. -/
def State.dieTemperature (s : State) (raw : List Int) : Int :=
  let one (i : Nat) : Int := raw.getD i 0 + Config.sensorOffset (BitVec.ofNat 32 (s.reg (rTrimBank (192 + i))))
  (List.range 63).foldl (fun m i => max m (one (i + 1))) (one 0)

/-- Throttling ends once the die has stayed at or below 100 °C for 100 ms. -/
def State.endThrottle (s : State) : State :=
  if s.pwr.throttled ∧ s.pwr.temp ≤ 100 ∧ s.passed s.pwr.coolSince 100000000 then
    { s with pwr := { s.pwr with slow := s.slowTotal, throttled := false } }
  else s

/-- Throttling begins. -/
def State.beginThrottle (s : State) : State :=
  if s.pwr.throttled then s else { s with pwr := { s.pwr with throttled := true, throttledAt := s.elapsed } }

/-- A threshold lies between the last sample and this one. -/
def crosses (old new at_ : Int) : Bool := decide (old < at_) && decide (at_ ≤ new)

/-- One sample of the 64 sensors, in °C before correction: the action of the highest threshold it crosses. -/
def execThermalSample (raw : List Int) (s : State) : Host.Outcome State Fault Refusal :=
  .next (
    let old := s.pwr.temp
    let new := s.dieTemperature raw
    let since := if new ≤ 100 ∧ old ≤ 100 then s.pwr.coolSince else s.elapsed
    let hot := if 105 ≤ new then s.twn.unclean ||| 8 else s.twn.unclean
    let clear := if 125 ≤ old ∧ new < 125 then s.elapsed else s.kpr.alarmClearAt
    let t : State := { s with pwr := { s.pwr with temp := new, coolSince := since }, twn := { s.twn with unclean := hot }, kpr := { s.kpr with alarmClearAt := clear } }
    if crosses old new 125 then t.keeperAlarm alarmTemperature
    else if crosses old new 115 then t.releaseCustody causeThermal
    else if crosses old new 105 then t.beginThrottle
    else t.endThrottle)

/-! ### Test access (R568) -/

/-- Select an instruction that drives or floats the outputs: only in SAFE without custody, else it acts as BYPASS. -/
def State.selectTap (j : Jtag) (s : State) : State :=
  { s with pin := { s.pin with jtag := if s.hlt.mode = .safe ∧ ¬ s.twn.drive then j else .bypass } }

/-- IDCODE: version 1, part 0x8640, the manufacturer code, and 1. -/
def idcode : Nat := 1 * 2 ^ 28 + 0x8640 * 2 ^ 12 + Config.jedecCode.toNat * 2 + 1

def execJtagBypass (s : State) : Host.Outcome State Fault Refusal := .next { s with pin := { s.pin with jtag := .bypass } }
def execJtagIdcode (s : State) : Host.Outcome State Fault Refusal := .next { s with pin := { s.pin with jtag := .idcode, tdo := idcode } }
/-- The cells are preloaded; what the pins show to SAMPLE is open. -/
def execJtagSamplePreload (cells : List Bool) (s : State) : Host.Outcome State Fault Refusal :=
  .next ({ s with pin := { s.pin with jtag := .samplePreload, tdo := s.freeWord.toNat, cells := cells } } : State).takeFree
def execJtagExtest (s : State) : Host.Outcome State Fault Refusal := .next (s.selectTap .extest)
def execJtagHighz (s : State) : Host.Outcome State Fault Refusal := .next (s.selectTap .highz)

end Sys2Proof.Machine
end

