-- ==== Sys2Proof/Machine/System.lean ====
section
/-! DEFINITION. Enqueue, waits, fences, barriers and system instructions (R81 to R86), and the happenings that reach an engine
between instructions: interrupts, responses, the watchdog, the timer, starting, stopping and fencing (R45 to R60). -/

namespace Sys2Proof.Machine

/-! ### Enqueue -/

def execEnq (k : Nat) (gd vs gq : BitVec 5) (s : State) : Host.Outcome State Fault Refusal :=
  .next (s.instr k .enq [gq] [vs] fun s => s.beginWait k (.enq gd vs gq))

/-- Change the `i`-th command block on its way. -/
def Core.modEnq (i : Nat) (f : EnqOwed → EnqOwed) (c : Core) : Core :=
  match c.enqs[i]? with
  | some e => { c with enqs := setNth i (f e) c.enqs }
  | none => c

/-- The `i`-th command block of engine `k` is the next that has not reached its unit's queues (R16). -/
def Core.arrivesNext (i : Nat) (c : Core) : Bool :=
  match c.enqs[i]? with
  | some e => e.status.isNone && (c.enqs.take i).all fun x => x.status.isSome || ! (x.cls == e.cls && x.inst == e.inst)
  | none => false

def execCommandQueueArrival (k i : Nat) (s : State) : Host.Outcome State Fault Refusal :=
  .next (if ¬ (isEngine k ∧ (s.core k).arrivesNext i) then s
    else match (s.core k).enqs[i]? with
      | none => s
      | some e =>
        let (st, t) := s.accept e.cls e.inst e.queue e.block
        t.modCore k (Core.modEnq i fun x => { x with status := some (BitVec.ofNat 64 st) }))

def execEnqStatusReturn (k i : Nat) (s : State) : Host.Outcome State Fault Refusal :=
  .next (match (s.core k).enqs[i]? with
    | some e => match e.status with
      | some v => s.modCore k fun c => Core.setG e.gd v { c with enqs := c.enqs.eraseIdx i }
      | none => s
    | none => s)

/-! ### Waiting for a word (R83) -/

/-- The 8-byte word at a byte key. -/
def State.word8 (s : State) (key : Nat) : Nat := ofLe (s.bytes key 8)

/-- `wne` completes with a word, then an interrupt that is due is left for the next boundary (R83). -/
def State.finishWne (k : Nat) (gd : BitVec 5) (w : Nat) (s : State) : State := s.retireG k gd (BitVec.ofNat 64 w)

def execWne (k : Nat) (gd ga gb : BitVec 5) (s : State) : Host.Outcome State Fault Refusal :=
  .next (s.instr k .base [ga, gb] [] fun s =>
    let c := s.core k
    let a := (c.getG ga).toNat
    if a % 8 ≠ 0 then s.raise k causeMisaligned (a % 2 ^ 48)
    else match reachOf k a 8 with
      | .own key =>
        if s.touchesDamage key 8 then (s.countDamage key).raise k causeEcc (a % 2 ^ 48)
        else if s.word8 key ≠ (c.getG gb).toNat ∨ c.irqCommon then (s.correct key 8).finishWne k gd (s.word8 key)
        else (s.correct key 8).modCore k fun c => { c with waiting := .wne gd (BitVec.ofNat 64 a) (c.getG gb) }
      | _ => s.raise k causeLoadBus (a % 2 ^ 48))

def execWneWake (k : Nat) (s : State) : Host.Outcome State Fault Refusal :=
  .next (match (s.core k).waiting with
    | .wne gd a cmp => match reachOf k a.toNat 8 with
      | .own key =>
        if s.touchesDamage key 8 then (s.countDamage key).raise k causeEcc (a.toNat % 2 ^ 48)
        else if s.word8 key ≠ cmp.toNat ∨ (s.core k).irqCommon then (s.correct key 8).finishWne k gd (s.word8 key) else s
      | _ => s
    | _ => s)

/-! ### Fences, barriers and waits -/

def execFenceW (k : Nat) (s : State) : Host.Outcome State Fault Refusal :=
  .next (s.instr k .base [] [] fun s => s.beginWait k .fenceW)
def execFenceRw (k : Nat) (s : State) : Host.Outcome State Fault Refusal :=
  .next (s.instr k .base [] [] fun s => s.beginWait k .fenceRw)
def execCbar (k : Nat) (mask : BitVec 8) (s : State) : Host.Outcome State Fault Refusal :=
  .next (s.instr k .cbar [] [] fun s =>
    if ¬ mask.getLsbD (k % 8) then s.raise k causeIllegal 0 else s.beginWait k (.cbarFence mask))

def execBarrierTimeout (k : Nat) (s : State) : Host.Outcome State Fault Refusal :=
  .next (match (s.core k).waiting with
    | .cbar _ since =>
      let t := (s.core k).barTimeout.toNat
      if t ≠ 0 ∧ s.passed since (t * 1000) then s.raise k causeBarrier 0 else s
    | _ => s)

def execWait (k : Nat) (s : State) : Host.Outcome State Fault Refusal :=
  .next (s.instr k .base [] [] fun s =>
    if (s.core k).irqCommon then s.advance k else s.modCore k fun c => { c with waiting := .wait })

/-- Take INTERRUPT at this boundary when it is due and no exception is: a watchdog expiry due at the boundary comes first (R52). -/
def State.takeInterrupt (k : Nat) (s : State) : State :=
  let c := s.core k
  if c.run == .running && c.waiting == .issuing && c.interruptDue && ! s.wdogDue k then s.takeException k causeInterrupt c.pc.toNat 0 else s

def execWaitWake (k : Nat) (s : State) : Host.Outcome State Fault Refusal :=
  .next (match (s.core k).waiting with
    | .wait => if (s.core k).irqCommon then (s.advance k).takeInterrupt k else s
    | _ => s)

def execInterruptEntry (k : Nat) (s : State) : Host.Outcome State Fault Refusal := .next (s.takeInterrupt k)

/-! ### System instructions -/

def execResume (k : Nat) (s : State) : Host.Outcome State Fault Refusal :=
  .next (s.instr k .base [] [] fun s =>
    if ¬ (s.core k).inExc then s.raise k causeIllegal 0
    else (s.modCore k fun c => { c with inExc := false, ie := true, causeArmed := true }).jump k (s.core k).epc.toNat)

def execTrap (k : Nat) (imm : BitVec 12) (s : State) : Host.Outcome State Fault Refusal :=
  .next (s.instr k .base [] [] fun s => s.raise k causeTrap imm.toNat)

def execSysrd (k : Nat) (d : BitVec 5) (num : BitVec 12) (s : State) : Host.Outcome State Fault Refusal :=
  .next (s.instr k .base [] [] fun s =>
    if 0xF < num.toNat then s.raise k causeIllegal 0
    else
      let (v, t) := s.readCoreReg k k num.toNat
      let t := if num = 3 ∧ (s.core k).causeArmed then t.modCore k fun c => { c with cause := 0, causeArmed := false } else t
      t.retireG k d (BitVec.ofNat 64 v))

def execSyswr (k : Nat) (a : BitVec 5) (num : BitVec 12) (s : State) : Host.Outcome State Fault Refusal :=
  .next (s.instr k .base [a] [] fun s =>
    if 0xF < num.toNat then s.raise k causeIllegal 0
    else (s.writeCoreReg k num.toNat ((s.core k).getG a).toNat).advance k)

/-! ### Responses (R40, R49, R50, R590) -/

/-- Write what a load returns into its register. -/
def Core.takeLoad (l : Load) (v : Vec) (c : Core) : Core :=
  if l.vector then c.setV l.reg v
  else
    let x := v.toNat % 2 ^ (8 * l.size)
    c.setG l.reg (if l.signed then BitVec.ofInt 64 (signedOf (8 * l.size) x) else BitVec.ofNat 64 x)

/-- After a response: a wait for it may end, and a stop may complete. -/
def State.afterResponse (k : Nat) (s : State) : State := (s.settleFence k).completeStop k

/-- The `i`-th outstanding load of engine `k` is the one that holds issue. -/
def Core.isHeld (i : Nat) (c : Core) : Bool := c.waiting == .loadHeld && i + 1 == c.loads.length

def execLoadDataReturn (k i : Nat) (s : State) : Host.Outcome State Fault Refusal :=
  .next (match (s.core k).loads[i]? with
    | none => s
    | some l =>
      let held := (s.core k).isHeld i
      let t := s.modCore k fun c => { c with loads := c.loads.eraseIdx i }
      match l.result with
      | .host => s
      | .data v =>
        let t := t.modCore k (Core.takeLoad l v)
        if held then t.advance k else t.afterResponse k
      | .error kind =>
        let t := t.busError kind k l.addr.toNat
        if held then t.raise k causeLoadBus (l.addr.toNat % 2 ^ 48) else t.afterResponse k)

def execWriteResponseReturn (k i : Nat) (s : State) : Host.Outcome State Fault Refusal :=
  .next (match (s.core k).stores[i]? with
    | none => s
    | some o =>
      if o.error.isSome ∨ ¬ o.held.isEmpty then s
      else (s.modCore k fun c => { c with stores := c.stores.eraseIdx i }).afterResponse k)

def execStoreErrorResponse (k i : Nat) (s : State) : Host.Outcome State Fault Refusal :=
  .next (match (s.core k).stores[i]? with
    | none => s
    | some o => match o.error with
      | none => s
      | some kind =>
        let c := s.core k
        if c.waiting = .loadHeld then s
        else
          let t := o.failed.foldl (fun t a => t.busError kind k a) (s.modCore k fun c => { c with stores := c.stores.eraseIdx i })
          if c.run = .running then t.raise k causeStoreBus (o.addr.toNat % 2 ^ 48) else t.completeStop k)

/-! ### Watchdog and timer (R47, R54, R55) -/

/-- The µs at which the watchdog warns: half the limit, or the limit itself when half rounds down to 0. -/
def warnAt (limit : Nat) : Nat := if limit / 2 = 0 then limit else limit / 2

def execWatchdogWarn (k : Nat) (s : State) : Host.Outcome State Fault Refusal :=
  .next (let c := s.core k
    if c.run = .running ∧ c.wdogLimit ≠ 0 ∧ ¬ c.wdogWarned ∧ s.wdogReached k (warnAt c.wdogLimit.toNat) then
      s.modCore k fun c => { c with wdogWarned := true, irqPend := c.irqPend ||| 0x10000 }
    else s)

/-- While a load that may fail holds issue the expiry waits for its return: the spec does not say which comes first (DESIGN CHOICE, log
entry 147). -/
def execWatchdogExpiry (k : Nat) (s : State) : Host.Outcome State Fault Refusal :=
  .next (let c := s.core k
    if s.wdogDue k ∧ c.waiting ≠ .loadHeld then
      let t := if k < 96 then s.setRegBit (rStcClFault (k / 8)) (8 + k % 8) else s
      let t := t.modCore k fun c => { c with wdogStart := s.elapsed, wdogWarned := false,
                                             irqPend := if c.wdogWarned then c.irqPend else c.irqPend ||| 0x10000 }
      t.raise k causeWatchdog 0
    else s)

def execTimerMatch (k : Nat) (s : State) : Host.Outcome State Fault Refusal :=
  .next (if isEngine k ∧ (s.core k).clockHeld = none ∧ (s.core k).timerCmp.toNat ≤ s.elapsed.toNat then
      s.modCore k fun c => { c with irqPend := c.irqPend ||| 0x40000 }
    else s)

/-! ### Running, stopping, doorbells and fences (R56 to R59) -/

def execRunCore (k : Nat) (s : State) : Host.Outcome State Fault Refusal := .next (if k < 96 then s.runCore k else s)
def execStopCore (k : Nat) (s : State) : Host.Outcome State Fault Refusal := .next (if k < 96 then s.stopCore k else s)
def execCoreStopComplete (k : Nat) (s : State) : Host.Outcome State Fault Refusal := .next (s.completeStop k)
def execRingDoorbell (cl : Nat) (ring : BitVec 8) (s : State) : Host.Outcome State Fault Refusal :=
  .next (if cl < 12 then s.ringDoorbell cl ring.toNat else s)

/-- The device takes a fence write from this requester (R57, R113 and their like). -/
def mayFence (src : Nat) : Bool := src == srcGovernor || src == srcHost

def execCoreFence (src k : Nat) (s : State) : Host.Outcome State Fault Refusal :=
  .next (if mayFence src ∧ k < 96 then s.coreFence src k else s)
def execClusterFence (src cl : Nat) (s : State) : Host.Outcome State Fault Refusal :=
  .next (if mayFence src ∧ cl < 12 then s.clusterFence src cl else s)

end Sys2Proof.Machine
end

