-- ==== Sys2Proof/Machine/RegFile.lean ====
section
/-! DEFINITION. The whole register file: writes whose effects reach other units (fences, the mailbox, update, mode and reset commands), the
accesses of requesters that are no engine unit (R7, R8, R483, R586), and the endpoint's configuration space (R480, R482). -/

namespace Sys2Proof.Machine

/-! ### Fence registers -/

/-- A unit of a class with one fence register at `o` of the class's units. -/
def State.fenceAt (src cls o : Nat) (s : State) : Option State :=
  if o % 0x100 = 4 ∧ o / 0x100 < classUnits cls then some ((s.fenceUnit cls (o / 0x100)).afterFence src) else none

/-- A write of a fence register of the DMA window (R113). -/
def State.fenceDma (src a : Nat) (s : State) : Option State :=
  let o := a - dmaBase - 0x10000
  let e := o / 0x8000
  let u := 64 * e + (o % 0x8000 - 0x100) / 0x40
  if a < dmaBase + 0x10000 ∨ 16 ≤ e then none
  else if a = rDmaEngFence e then some ((s.fenceDmaEngine e).afterFence src)
  else if a = rDmaChFence u ∧ u < 1024 then some (s.unitFence src clsDma u)
  else none

/-- A write of `STC_CL_FENCE`: each bit written 1 fences its core, bit 8 the cluster (R56, R58, R59). -/
def State.fenceStc (src c v : Nat) (s : State) : State :=
  let t := (List.range 8).foldl (fun t n => if v / 2 ^ n % 2 = 1 ∧ ¬ t.regBit (rStcClFence c) n then t.coreFence src (8 * c + n) else t) s
  if v / 2 ^ 8 % 2 = 1 ∧ ¬ t.regBit (rStcClFence c) 8 then t.clusterFence src c else t

/-- What writing 1 to FENCE of the register at `a` does; none where no single FENCE bit lies. -/
def State.fenceBitAt (src a : Nat) (s : State) : Option State :=
  match a / 0x100000 with
  | 0x04 => s.fenceDma src a
  | 0x05 => if a < rCmpDec 0 then s.fenceAt src clsCoder (a - rCmpLane 0) else s.fenceAt src clsDecoder (a - rCmpDec 0)
  | 0x06 => s.fenceAt src clsDigest (a - rDgtUnit 0)
  | 0x07 => if a < rCphSlot 0 then s.fenceAt src clsCipher (a - rCphUnit 0) else none
  | 0x08 => s.fenceAt src clsParity (a - rParEng 0)
  | 0x09 => s.fenceAt src clsCatalogue (a - rCatAssist 0)
  | 0x0A =>
    let b := (a - rMedBlk 0) / 0x100
    if a < rMedCar 0 then s.fenceAt src clsSequencer (a - rMedSeq 0)
    else if a = rMedBlk b + 4 ∧ b < 12 then some ((s.fenceBlock b).afterFence src) else none
  | 0x0C =>
    let p := (a - rEthPort 0) / 0x100
    if a = rEthPortFence p ∧ p < 16 then some (if p < s.ethPorts then s.ethFence src p else s) else none
  | 0x10 =>
    let p := (a - rCxlPort 0) / 0x100
    if a = rCxlPortFence p ∧ p < 4 then some (s.cxlFence src p) else none
  | _ => none

/-- A write of a fence register by the governor or the head-host endpoint; none for other registers. -/
def State.fenceWrite (src a v : Nat) (s : State) : Option State :=
  if ¬ mayFence src then none
  else if a = rLpdFence then some (if v % 256 = 0 then s else (s.fenceChannels v).afterChannelFence src (s.holdsRegions v))
  else if a / 0x100000 = 0x12 then
    (let c := (a - stcBase) / 0x10000; if c < 12 ∧ a = rStcClFence c then some (s.fenceStc src c v) else none)
  else if v % 2 = 1 then s.fenceBitAt src a
  else none

/-! ### Writes -/

/-- The word at `a` belongs to the mailbox buffer. -/
def inMailbox (a : Nat) : Bool := decide (rSecMbBuf 0 ≤ a) && decide (a < rSecMbBuf 256)

/-- Writes that act on more than the register file knows; none for the others (R513, R520, R551, R552, R464). -/
def State.deepWrite (src a v : Nat) (s : State) : Option State :=
  if a = rSysReset then some (s.resetWrite src v)
  else if a = rSecMbCmd then some (s.mailboxWrite src v)
  else if a = rSecMbStatus then some (if src = srcHost ∧ v / 2 % 2 = 1 then { s with kpr := { s.kpr with mbDone := false } } else s)
  else if inMailbox a ∧ s.kpr.mbBusy then some s
  else if a = rUpdCmd then some (s.updCommand src v)
  else if a = rUpdConfirm then some (s.confirmWrite src v)
  else if a = rHltCmd then some (s.latchHlt src (v % 16))
  else if a = rTwnRelease then some (if mayFence src ∧ v % 2 = 1 then s.releaseCustody causeHostOrder else s)
  else s.fenceWrite src a v

/-- Write the aligned word at `a` for any requester (R7, R8). -/
def State.storeReg (src a v : Nat) (s : State) : State :=
  match s.deepWrite src a v with
  | some t => t
  | none => s.writeReg src a v

/-! ### Accesses of requesters (R483, R586) -/

/-- The requester reaches register space: the head host through an open BAR0. -/
def State.reachesRegs (s : State) (src : Nat) : Bool := src != srcHost || s.barsOpen

/-- Write bytes: words covered whole are written, the others discarded. -/
def State.storeRegBytes (src a : Nat) (bs : List Byte) (s : State) : State :=
  (regWords a bs.length).foldl (fun t w =>
    if a ≤ w ∧ w + 4 ≤ a + bs.length then t.storeReg src w (leAt bs (w - a) 4) else t) s

/-! ### Configuration space (R480, R482) -/

/-- Where commands name the endpoint's configuration space: its offsets lie from here on, above BAR0's (log entry 49). -/
def configBase : Nat := 0x100000000

/-- The writable bits of a BAR register and what its other bits read as (R482). -/
def barMask (o : Nat) : Nat × Nat :=
  match o with
  | 0x10 => (0xF0000000, 0x4)
  | 0x14 => (m32, 0)
  | 0x18 => (0xFFFF0000, 0x4)
  | 0x1C => (m32, 0)
  | 0x20 => (0, 0xC)
  | 0x24 => (m32, 0)
  | _ => (0, 0)

/-- A word of configuration space. What the spec gives no content for is open. -/
def State.configWord (s : State) (o : Nat) : Nat :=
  if 0x10 ≤ o ∧ o < 0x28 then ((Sparse.get 0 o s.ep.bars).toNat &&& (barMask o).1) ||| (barMask o).2
  else if o = 0x00 then Config.vendorId.toNat + 0x8640 * 2 ^ 16
  else if o = 0x04 then bitAt 1 s.ep.memEnable + bitAt 2 s.ep.busMaster + (Config.configWord o).toNat / 2 ^ 3 * 2 ^ 3 % 2 ^ 32
  else if o = 0x08 then (Config.configWord o).toNat % 256 + 0x018000 * 2 ^ 8
  else if o = 0x2C then 0
  else if o = 0x1000 then 0x7FF * 2 ^ 16 + bitAt 30 s.ep.msixMask
  else if o = 0x1004 then bitAt 15 s.ep.atsEnable
  else if o = 0x1008 then (if s.ep.d3hot then 3 else 0)
  else (Config.configWord o).toNat

/-- Write a word of configuration space: the command register, the BARs, and, at the model's own offsets, the function mask (bit 30 of
0x1000), ATS Enable (bit 15 of 0x1004) and the power state (0x1008: 3 for D3hot) (log entry 49). -/
def State.configWrite (o v : Nat) (s : State) : State :=
  if 0x10 ≤ o ∧ o < 0x28 ∧ o % 4 = 0 then { s with ep := { s.ep with bars := Sparse.set 0 o (BitVec.ofNat 32 (v &&& (barMask o).1)) s.ep.bars } }
  else if o = 0x04 then { s with ep := { s.ep with memEnable := v / 2 % 2 == 1, busMaster := v / 4 % 2 == 1 } }
  else if o = 0x1000 then s.setFunctionMask (v / 2 ^ 30 % 2 == 1)
  else if o = 0x1004 then { s with ep := { s.ep with atsEnable := v / 2 ^ 15 % 2 == 1 } }
  else if o = 0x1008 then { s with ep := { s.ep with d3hot := v % 4 == 3 } }
  else s

/-! ### The commands -/

/-- A write of the aligned word at an address of register space or configuration space; a misaligned one is discarded (R586). -/
def execRegisterWrite (src a : Nat) (v : Word32) (s : State) : Host.Outcome State Fault Refusal :=
  .next (if configBase ≤ a then (if src = srcHost ∧ s.ep.linkUp then s.configWrite (a - configBase) v.toNat else s)
    else if a % 4 ≠ 0 ∨ ¬ s.reachesRegs src then s
    else s.storeReg src a v.toNat)

/-- A read of `n` bytes, or a write of the bytes given, at any address and of any size: word by word in increasing order. A read of
configuration space is of the words that hold it. -/
def execUnalignedRegisterAccess (src a n : Nat) (data : Option (List Byte)) (s : State) : Host.Outcome State Fault Refusal :=
  .next (
    if configBase ≤ a then
      (if src = srcHost ∧ s.ep.linkUp ∧ data.isNone then
        s.replyTo src a ((regWords (a - configBase) n).flatMap fun w => wordSlice (a - configBase) n w (s.configWord w)) false
      else s)
    else if ¬ s.reachesRegs src then s
    else match data with
      | some bs => s.storeRegBytes src a bs
      | none => let (bs, t) := s.readRegBytes src a n; t.replyTo src a bs false)

/-- Word `a` is the low half (`hi` false) or the high half of a 64-bit register. -/
def isHalf (hi : Bool) (a : Nat) : Bool := match regAt a with
  | some (r, h) => r.wide && h == hi
  | none => false

def execReadLowHalf (src a : Nat) (s : State) : Host.Outcome State Fault Refusal :=
  .next (if ¬ isHalf false a ∨ ¬ s.reachesRegs src then s
    else
      let (v, t) := s.readLow src a (s.live64 a)
      t.replyTo src a (leBytes 4 v) false)

def execReadHighHalf (src a : Nat) (s : State) : Host.Outcome State Fault Refusal :=
  .next (if ¬ isHalf true a ∨ ¬ s.reachesRegs src then s
    else s.replyTo src a (leBytes 4 (s.readHigh src (a - 4) (s.live64 (a - 4)))) false)

def execWriteLowHalf (src a : Nat) (v : Word32) (s : State) : Host.Outcome State Fault Refusal :=
  .next (if ¬ isHalf false a ∨ ¬ s.reachesRegs src then s else s.setHold src a v.toNat)

def execWriteHighHalf (src a : Nat) (v : Word32) (s : State) : Host.Outcome State Fault Refusal :=
  .next (if ¬ isHalf true a ∨ ¬ s.reachesRegs src then s
    else match regAt a with
      | some (r, _) => if s.mayWrite r.writer src then s.write64 r (a - 4) (s.joinHigh src (a - 4) v.toNat (s.live64 (a - 4))) else s
      | none => s)

/-- A write of word `i` of the trim bank. -/
def execTrimBankWrite (src i : Nat) (v : Word32) (s : State) : Host.Outcome State Fault Refusal :=
  .next (if i < 512 ∧ s.reachesRegs src then s.writeTrim (rTrimBank i) v.toNat else s)

end Sys2Proof.Machine
end

