-- ==== Sys2Proof/Machine/Mem.lean ====
section
/-! DEFINITION. Loads, stores and atomic operations of the programmable engines (R37 to R40, R49, R50, R70 to R73), and
ILLEGAL_INSTRUCTION (R65 to R67, R87). -/

namespace Sys2Proof.Machine

/-! ### Addresses -/

/-- The address of a load or store in format I (R70). -/
def Core.dataAddr (c : Core) (a : BitVec 5) (imm : BitVec 16) : Nat := effAddr (c.getG a) imm

/-- The low 48 bits of an address, as `STC_FAULT_ADDR` holds them. -/
def faultAddr (a : Nat) : Nat := a % 2 ^ 48

/-- `n` bytes at a byte key lie in the keepers' ROM, which nothing writes (log entry 50). -/
def inRom (k key : Nat) : Bool := engineKind k == .keeper && decide (key < privateBase 96 + 0x10000)

/-! ### Loads (R39, R40, R70, R72) -/

/-- A load goes out: the engine goes on with data on its way, and holds issue where an error may still come (R49, R590). -/
def State.sendLoad (k : Nat) (l : Load) (s : State) : State :=
  let t := s.modCore k fun c => { c.claim l with loads := (c.claim l).loads ++ [l] }
  match l.result with
  | .data _ => t.advance k
  | _ => t.modCore k fun c => { c with waiting := .loadHeld }

/-- What a load of head-host memory will return: its data comes later, after the translations it needs (R487, R489). -/
def State.hostLoad (k a n : Nat) (l : Load) (s : State) : State :=
  let pages := hostPages a n
  if pages.any (fun p => s.hostPage p false == .fail) then (s.dropFailed pages).sendLoad k { l with result := .error .ats }
  else (s.askTranslations (s.hostMisses a n false)).sendLoad k { l with result := .host }

/-- A load of `n` bytes beyond the engine's own memory. -/
def State.farLoad (k a n : Nat) (l : Load) (s : State) : State :=
  if 16 ≤ (s.core k).loads.length then s
  else match s.route a n with
    | .regs r =>
      if 4 < n then s.raise k causeMisaligned (faultAddr a)
      else
        let (bs, t) := s.readRegBytes k r n
        t.sendLoad k { l with result := .data (BitVec.ofNat 512 (ofLe bs)) }
    | .host => s.hostLoad k a n l
    | _ => match s.readFault a n with
      | some e => s.sendLoad k { l with result := .error e }
      | none => (s.correct a n).sendLoad k { l with result := .data (BitVec.ofNat 512 (ofLe (s.bytes a n))) }

/-- Load `n` bytes at an address: `vec` into vector register `d`, else into general register `d`, sign-extended when `signed`. -/
def State.load (k : Nat) (vec : Bool) (d : BitVec 5) (n : Nat) (signed : Bool) (a : Nat) (s : State) : State :=
  let l : Load := { vector := vec, reg := d, size := n, signed := signed, atomic := false, addr := BitVec.ofNat 64 a, result := .host }
  if a % n ≠ 0 then s.raise k causeMisaligned (faultAddr a)
  else match reachOf k a n with
    | .own key =>
      if s.touchesDamage key n then (s.countDamage key).raise k causeEcc (faultAddr a)
      else ((s.correct key n).modCore k fun c => (c.claim l).takeLoad l (BitVec.ofNat 512 (ofLe (s.bytes key n)))).advance k
    | .far => s.farLoad k a n l
    | .nothing => s.raise k causeLoadBus (faultAddr a)

/-- A scalar load. -/
def State.loadG (k : Nat) (d a : BitVec 5) (imm : BitVec 16) (n : Nat) (signed : Bool) (s : State) : State :=
  s.instr k .base [a] [] fun s => s.load k false d n signed ((s.core k).dataAddr a imm)

def execLdB (k : Nat) (d a : BitVec 5) (imm : BitVec 16) (s : State) : Host.Outcome State Fault Refusal := .next (s.loadG k d a imm 1 false)
def execLdBs (k : Nat) (d a : BitVec 5) (imm : BitVec 16) (s : State) : Host.Outcome State Fault Refusal := .next (s.loadG k d a imm 1 true)
def execLdH (k : Nat) (d a : BitVec 5) (imm : BitVec 16) (s : State) : Host.Outcome State Fault Refusal := .next (s.loadG k d a imm 2 false)
def execLdHs (k : Nat) (d a : BitVec 5) (imm : BitVec 16) (s : State) : Host.Outcome State Fault Refusal := .next (s.loadG k d a imm 2 true)
def execLdW (k : Nat) (d a : BitVec 5) (imm : BitVec 16) (s : State) : Host.Outcome State Fault Refusal := .next (s.loadG k d a imm 4 false)
def execLdWs (k : Nat) (d a : BitVec 5) (imm : BitVec 16) (s : State) : Host.Outcome State Fault Refusal := .next (s.loadG k d a imm 4 true)
def execLdD (k : Nat) (d a : BitVec 5) (imm : BitVec 16) (s : State) : Host.Outcome State Fault Refusal := .next (s.loadG k d a imm 8 false)
def execVld (k : Nat) (d a : BitVec 5) (imm : BitVec 16) (s : State) : Host.Outcome State Fault Refusal :=
  .next (s.instr k .vector [a] [] fun s => s.load k true d 64 false ((s.core k).dataAddr a imm))

/-! ### Stores (R37, R39, R40, R50, R70 to R72) -/

/-- A store that the engine's own memory refuses: STORE_BUS_ERROR before the next instruction (R39, R50). -/
def State.storeFails (k a : Nat) (s : State) : State := s.takeException k causeStoreBus ((s.core k).pc.toNat + 4) (faultAddr a)

/-- A store goes out, owed its response; the engine goes on. -/
def State.sendStore (k : Nat) (o : Owed) (s : State) : State := (s.modCore k fun c => { c with stores := c.stores ++ [o] }).advance k

/-- The bytes of a store with their offsets, those enabled alone. -/
def enabledAt (bs : List (Bool × Byte)) : List (Nat × Byte) := bs.zipIdx.filterMap fun p => if p.1.1 then some (p.2, p.1.2) else none

/-- A store to head-host memory: at once, after translations, or failing (R487). -/
def State.hostStore (k a : Nat) (bs : List (Bool × Byte)) (s : State) : State :=
  let o : Owed := { addr := BitVec.ofNat 64 a, error := none, failed := [a], held := [] }
  let pages := hostPages a bs.length
  if pages.any (fun p => s.hostPage p true == .fail) then (s.dropFailed pages).sendStore k { o with error := some .ats }
  else if (s.hostMisses a bs.length true).isEmpty then (s.performWrite a bs).sendStore k o
  else (s.askTranslations (s.hostMisses a bs.length true)).sendStore k { o with held := enabledAt bs }

/-- The eight 8-byte writes of a 64-byte store on CXL memory: those that fail leave memory alone, the others are performed (R71). -/
def State.cxlWrites (a : Nat) (bs : List (Bool × Byte)) (s : State) : List Nat × State :=
  (List.range (bs.length / 8)).foldl (fun (x : List Nat × State) i =>
    let w := (bs.drop (8 * i)).take 8
    match x.2.writeFault (a + 8 * i) (w.map (·.1)) with
    | some _ => (x.1 ++ [a + 8 * i], x.2)
    | none => (x.1, x.2.performWrite (a + 8 * i) w)) ([], s)

/-- An address of CXL memory (R17). -/
def onCxl (a : Nat) : Bool := decide (0x010000000000 ≤ a) && decide (a < 0x050000000000)

/-- A store beyond the engine's own memory. A register takes an aligned 4-byte store and discards narrower ones (R7, R72). -/
def State.farStore (k a : Nat) (bs : List (Bool × Byte)) (s : State) : State :=
  let o : Owed := { addr := BitVec.ofNat 64 a, error := none, failed := [a], held := [] }
  if 32 ≤ (s.core k).stores.length then s
  else match s.route a bs.length with
    | .regs r =>
      if 4 < bs.length then s.raise k causeMisaligned (faultAddr a)
      else
        let t := s.sendStore k o
        if bs.length = 4 then t.storeReg k r (leAt (bs.map (·.2)) 0 4) else t
    | .host => s.hostStore k a bs
    | .mem =>
      if onCxl a ∧ bs.length = 64 then
        (let x := s.cxlWrites a bs
         x.2.sendStore k (if x.1.isEmpty then o else { o with error := some .uncorrectable, failed := x.1 }))
      else match s.writeFault a (bs.map (·.1)) with
        | some e => s.sendStore k { o with error := some e }
        | none => (s.performWrite a bs).sendStore k o
    | .bad e => s.sendStore k { o with error := some e }

/-- Store bytes with byte enables at an address aligned to their number. -/
def State.store (k a : Nat) (bs : List (Bool × Byte)) (s : State) : State :=
  if a % bs.length ≠ 0 then s.raise k causeMisaligned (faultAddr a)
  else match reachOf k a bs.length with
    | .own key =>
      if inRom k key then s.storeFails k a
      else if s.mergesDamage key (bs.map (·.1)) then (s.countDamage key).storeFails k a
      else (s.performWrite key bs).advance k
    | .far => s.farStore k a bs
    | .nothing => s.storeFails k a

/-- The low `n` bytes of a value, all enabled. -/
def lowBytes (n : Nat) (v : Nat) : List (Bool × Byte) := (leBytes n v).map fun b => (true, b)

/-- A scalar store. -/
def State.storeG (k : Nat) (d a : BitVec 5) (imm : BitVec 16) (n : Nat) (s : State) : State :=
  s.instr k .base [d, a] [] fun s => s.store k ((s.core k).dataAddr a imm) (lowBytes n ((s.core k).getG d).toNat)

def execStB (k : Nat) (d a : BitVec 5) (imm : BitVec 16) (s : State) : Host.Outcome State Fault Refusal := .next (s.storeG k d a imm 1)
def execStH (k : Nat) (d a : BitVec 5) (imm : BitVec 16) (s : State) : Host.Outcome State Fault Refusal := .next (s.storeG k d a imm 2)
def execStW (k : Nat) (d a : BitVec 5) (imm : BitVec 16) (s : State) : Host.Outcome State Fault Refusal := .next (s.storeG k d a imm 4)
def execStD (k : Nat) (d a : BitVec 5) (imm : BitVec 16) (s : State) : Host.Outcome State Fault Refusal := .next (s.storeG k d a imm 8)
def execVst (k : Nat) (d a : BitVec 5) (imm : BitVec 16) (s : State) : Host.Outcome State Fault Refusal :=
  .next (s.instr k .vector [a] [d] fun s => s.store k ((s.core k).dataAddr a imm) (lowBytes 64 ((s.core k).getV d).toNat))

/-- The 64 byte lanes of a vector, each enabled by its predicate bit. -/
def maskedLanes (v : Vec) (p : Word64) : List (Bool × Byte) := (leBytes 64 v.toNat).zipIdx.map fun x => (p.getLsbD x.2, x.1)

/-- Byte lanes that a predicate selects; with none selected nothing is accessed and no exception raised (R71). -/
def execVstM (k : Nat) (d a : BitVec 5) (p : BitVec 3) (s : State) : Host.Outcome State Fault Refusal :=
  .next (s.instr k .vector [a] [d] fun s =>
    let c := s.core k
    if c.getP p = 0 then s.advance k else s.store k (c.getG a).toNat (maskedLanes (c.getV d) (c.getP p)))

/-! ### Atomic operations (R38, R73) -/

/-- An atomic operation may act there: the local stores, the cluster buffers, the stream pool and the LPDDR (R38). -/
def State.atomicAt (s : State) (a : Nat) : Bool := s.route a 8 == .mem && ! (decide (0x010000000000 ≤ a) && decide (a < 0x050000000000))

/-- Why an atomic operation fails, if it does. -/
def State.atomicFault (s : State) (a : Nat) : Option BusKind :=
  if s.atomicAt a then s.readFault a 8
  else match s.route a 8 with
    | .bad e => if 0x010000000000 ≤ a ∧ a < 0x050000000000 then some .atomic else some e
    | _ => some .atomic

/-- An atomic operation that reads the general registers `reads`: `f` gives the word to store from the word found. -/
def State.atomic (k : Nat) (reads : List (BitVec 5)) (d a : BitVec 5) (f : Core → Word64 → Word64) (s : State) : State :=
  s.instr k .base reads [] fun s =>
    let c := s.core k
    let x := (c.getG a).toNat
    let l : Load := { vector := false, reg := d, size := 8, signed := false, atomic := true, addr := BitVec.ofNat 64 x, result := .host }
    let at_ (key : Nat) : Word64 := BitVec.ofNat 64 (ofLe (s.bytes key 8))
    if x % 8 ≠ 0 then s.raise k causeMisaligned (faultAddr x)
    else match reachOf k x 8 with
      | .own key =>
        if inRom k key then s.raise k causeLoadBus (faultAddr x)
        else if s.touchesDamage key 8 then (s.countDamage key).raise k causeEcc (faultAddr x)
        else ((s.correct key 8).performWrite key (lowBytes 8 (f c (at_ key)).toNat)).retireG k d (at_ key)
      | .nothing => s.raise k causeLoadBus (faultAddr x)
      | .far =>
        if 16 ≤ c.loads.length then s
        else match s.atomicFault x with
          | some e => s.sendLoad k { l with result := .error e }
          | none => ((s.correct x 8).performWrite x (lowBytes 8 (f c (at_ x)).toNat)).sendLoad k { l with result := .data ((at_ x).zeroExtend 512) }

def execAtomAdd (k : Nat) (d a b : BitVec 5) (s : State) : Host.Outcome State Fault Refusal := .next (s.atomic k [a, b] d a fun c old => old + c.getG b)
def execAtomSwap (k : Nat) (d a b : BitVec 5) (s : State) : Host.Outcome State Fault Refusal := .next (s.atomic k [a, b] d a fun c _ => c.getG b)
def execAtomCas (k : Nat) (d a b : BitVec 5) (s : State) : Host.Outcome State Fault Refusal :=
  .next (s.atomic k [d, a, b] d a fun c old => if old = c.getG d then c.getG b else old)

/-! ### Illegal instructions (R65, R66, R87) -/

/-- The group of a word, as engines may lack it (R87). -/
def wordGroup (w : Word32) : InstrGroup :=
  match (fieldOp w).toNat with
  | 0x1C => .vector
  | 0x1D => .vector
  | 0x1F => .vector
  | 0x30 => .vector
  | 0x31 => .vector
  | 0x32 => .vector
  | 0x33 => .gf
  | 0x35 => .vector
  | 0x38 => .enq
  | 0x3A => if fieldSfunc w = 2 then .cbar else .base
  | _ => .base

/-- The engine takes ILLEGAL_INSTRUCTION for a word (R66): it is not assigned, or the engine lacks it. A word that it executes is another
command's. -/
def isIllegal (k : Nat) (w : Word32) : Bool := (decodeWord k w).isNone || lacks k (wordGroup w)

def execIllegalInstruction (k : Nat) (w : Word32) (s : State) : Host.Outcome State Fault Refusal :=
  .next (if isIllegal k w then s.instr k .base [] [] (fun s => s.raise k causeIllegal 0) else s)

end Sys2Proof.Machine
end

