-- ==== Sys2Proof/Machine/Predicate.lean ====
section
/-! DEFINITION. Predicate instructions (R79). -/

namespace Sys2Proof.Machine

/-- An instruction on two predicate registers. -/
def State.pred2 (k : Nat) (d a b : BitVec 3) (f : Word64 → Word64 → Word64) (s : State) : State :=
  s.instr k .vector [] [] fun s => s.retireP k d (f ((s.core k).getP a) ((s.core k).getP b))

def execPand (k : Nat) (d a b : BitVec 3) (s : State) : Host.Outcome State Fault Refusal := .next (s.pred2 k d a b (· &&& ·))
def execPor (k : Nat) (d a b : BitVec 3) (s : State) : Host.Outcome State Fault Refusal := .next (s.pred2 k d a b (· ||| ·))
def execPxor (k : Nat) (d a b : BitVec 3) (s : State) : Host.Outcome State Fault Refusal := .next (s.pred2 k d a b (· ^^^ ·))
def execPandn (k : Nat) (d a b : BitVec 3) (s : State) : Host.Outcome State Fault Refusal :=
  .next (s.pred2 k d a b fun x y => x &&& ~~~ y)
def execPfromg (k : Nat) (d : BitVec 3) (a : BitVec 5) (s : State) : Host.Outcome State Fault Refusal :=
  .next (s.instr k .vector [a] [] fun s => s.retireP k d ((s.core k).getG a))
def execPtog (k : Nat) (d : BitVec 5) (a : BitVec 3) (s : State) : Host.Outcome State Fault Refusal :=
  .next (s.instr k .vector [] [] fun s => s.retireG k d ((s.core k).getP a))
def execPcnt (k : Nat) (d : BitVec 5) (a : BitVec 3) (s : State) : Host.Outcome State Fault Refusal :=
  .next (s.instr k .vector [] [] fun s => s.retireG k d (predCount ((s.core k).getP a)))

end Sys2Proof.Machine
end

