-- ==== Sys2Proof/Machine/Vector.lean ====
section
/-! DEFINITION. Vector, compare, permute and GF instructions (R76 to R78, R80). -/

namespace Sys2Proof.Machine

/-- An element-wise instruction on two vector registers (R76). -/
def State.vec2 (k : Nat) (d a b : BitVec 5) (p : BitVec 3) (eb : Nat) (g : InstrGroup) (f : Nat → Nat → Nat) (s : State) : State :=
  s.instr k g [] [d, a, b] fun s =>
    let c := s.core k
    s.retireV k d (vecMerge eb (c.getP p) (c.getV d) fun e => f (elem eb (c.getV a) e) (elem eb (c.getV b) e))

/-- A shift amount: the element modulo the element's bits. -/
def shiftAmount (eb y : Nat) : Nat := y % (8 * eb)

def execVadd (k : Nat) (d a b : BitVec 5) (p : BitVec 3) (esz : BitVec 2) (s : State) : Host.Outcome State Fault Refusal :=
  .next (s.vec2 k d a b p (elemBytes esz) .vector fun x y => x + y)
def execVsub (k : Nat) (d a b : BitVec 5) (p : BitVec 3) (esz : BitVec 2) (s : State) : Host.Outcome State Fault Refusal :=
  .next (s.vec2 k d a b p (elemBytes esz) .vector fun x y => x + 2 ^ (8 * elemBytes esz) - y)
def execVand (k : Nat) (d a b : BitVec 5) (p : BitVec 3) (esz : BitVec 2) (s : State) : Host.Outcome State Fault Refusal :=
  .next (s.vec2 k d a b p (elemBytes esz) .vector fun x y => x &&& y)
def execVor (k : Nat) (d a b : BitVec 5) (p : BitVec 3) (esz : BitVec 2) (s : State) : Host.Outcome State Fault Refusal :=
  .next (s.vec2 k d a b p (elemBytes esz) .vector fun x y => x ||| y)
def execVxor (k : Nat) (d a b : BitVec 5) (p : BitVec 3) (esz : BitVec 2) (s : State) : Host.Outcome State Fault Refusal :=
  .next (s.vec2 k d a b p (elemBytes esz) .vector fun x y => x ^^^ y)
def execVandn (k : Nat) (d a b : BitVec 5) (p : BitVec 3) (esz : BitVec 2) (s : State) : Host.Outcome State Fault Refusal :=
  .next (s.vec2 k d a b p (elemBytes esz) .vector fun x y => x &&& (2 ^ (8 * elemBytes esz) - 1 - y))
def execVminu (k : Nat) (d a b : BitVec 5) (p : BitVec 3) (esz : BitVec 2) (s : State) : Host.Outcome State Fault Refusal :=
  .next (s.vec2 k d a b p (elemBytes esz) .vector fun x y => min x y)
def execVmaxu (k : Nat) (d a b : BitVec 5) (p : BitVec 3) (esz : BitVec 2) (s : State) : Host.Outcome State Fault Refusal :=
  .next (s.vec2 k d a b p (elemBytes esz) .vector fun x y => max x y)
def execVsll (k : Nat) (d a b : BitVec 5) (p : BitVec 3) (esz : BitVec 2) (s : State) : Host.Outcome State Fault Refusal :=
  .next (s.vec2 k d a b p (elemBytes esz) .vector fun x y => x <<< shiftAmount (elemBytes esz) y)
def execVsrl (k : Nat) (d a b : BitVec 5) (p : BitVec 3) (esz : BitVec 2) (s : State) : Host.Outcome State Fault Refusal :=
  .next (s.vec2 k d a b p (elemBytes esz) .vector fun x y => x >>> shiftAmount (elemBytes esz) y)
def execVsra (k : Nat) (d a b : BitVec 5) (p : BitVec 3) (esz : BitVec 2) (s : State) : Host.Outcome State Fault Refusal :=
  .next (s.vec2 k d a b p (elemBytes esz) .vector fun x y =>
    wrapTo (8 * elemBytes esz) (elemSigned (elemBytes esz) x / (2 ^ shiftAmount (elemBytes esz) y : Nat)))
def execVmul (k : Nat) (d a b : BitVec 5) (p : BitVec 3) (esz : BitVec 2) (s : State) : Host.Outcome State Fault Refusal :=
  .next (s.vec2 k d a b p (elemBytes esz) .vector fun x y => x * y)

def execVbcast (k : Nat) (d a : BitVec 5) (p : BitVec 3) (esz : BitVec 2) (s : State) : Host.Outcome State Fault Refusal :=
  .next (s.instr k .vector [a] [d] fun s =>
    let c := s.core k
    s.retireV k d (vecMerge (elemBytes esz) (c.getP p) (c.getV d) fun _ => (c.getG a).toNat))
/-- `p` is ignored (R76). -/
def execVext (k : Nat) (d a b : BitVec 5) (_p : BitVec 3) (esz : BitVec 2) (s : State) : Host.Outcome State Fault Refusal :=
  .next (s.instr k .vector [b] [a] fun s =>
    let c := s.core k
    s.retireG k d (BitVec.ofNat 64 (elem (elemBytes esz) (c.getV a) ((c.getG b).toNat % elemCount (elemBytes esz)))))
def execVins (k : Nat) (d a b : BitVec 5) (p : BitVec 3) (esz : BitVec 2) (s : State) : Host.Outcome State Fault Refusal :=
  .next (s.instr k .vector [a, b] [d] fun s =>
    let c := s.core k
    let i := (c.getG b).toNat % elemCount (elemBytes esz)
    s.retireV k d (vecMerge (elemBytes esz) (c.getP p) (c.getV d) fun e =>
      if e = i then (c.getG a).toNat else elem (elemBytes esz) (c.getV d) e))

/-- The active elements of a vector register (R76). -/
def activeElems (eb : Nat) (p : Word64) (v : Vec) : List Nat :=
  ((List.range (elemCount eb)).filter (elemActive eb p)).map (elem eb v)

def execVredadd (k : Nat) (d a : BitVec 5) (p : BitVec 3) (esz : BitVec 2) (s : State) : Host.Outcome State Fault Refusal :=
  .next (s.instr k .vector [] [a] fun s =>
    let c := s.core k
    s.retireG k d (BitVec.ofNat 64 ((activeElems (elemBytes esz) (c.getP p) (c.getV a)).foldl (· + ·) 0)))
def execVredxor (k : Nat) (d a : BitVec 5) (p : BitVec 3) (esz : BitVec 2) (s : State) : Host.Outcome State Fault Refusal :=
  .next (s.instr k .vector [] [a] fun s =>
    let c := s.core k
    s.retireG k d (BitVec.ofNat 64 ((activeElems (elemBytes esz) (c.getP p) (c.getV a)).foldl (· ^^^ ·) 0)))
def execVmov (k : Nat) (d a : BitVec 5) (p : BitVec 3) (esz : BitVec 2) (s : State) : Host.Outcome State Fault Refusal :=
  .next (s.instr k .vector [] [d, a] fun s =>
    let c := s.core k
    s.retireV k d (vecMerge (elemBytes esz) (c.getP p) (c.getV d) fun e => elem (elemBytes esz) (c.getV a) e))

/-- A vector compare (R77). -/
def State.vcmp (k : Nat) (d : BitVec 3) (a b : BitVec 5) (p : BitVec 3) (eb : Nat) (f : Nat → Nat → Bool) (s : State) : State :=
  s.instr k .vector [] [a, b] fun s =>
    let c := s.core k
    s.retireP k d (cmpPredicate eb (c.getP p) (c.getP d) fun e => f (elem eb (c.getV a) e) (elem eb (c.getV b) e))

def execVcmpEq (k : Nat) (d : BitVec 3) (a b : BitVec 5) (p : BitVec 3) (esz : BitVec 2) (s : State) : Host.Outcome State Fault Refusal :=
  .next (s.vcmp k d a b p (elemBytes esz) fun x y => x == y)
def execVcmpNe (k : Nat) (d : BitVec 3) (a b : BitVec 5) (p : BitVec 3) (esz : BitVec 2) (s : State) : Host.Outcome State Fault Refusal :=
  .next (s.vcmp k d a b p (elemBytes esz) fun x y => x != y)
def execVcmpLtu (k : Nat) (d : BitVec 3) (a b : BitVec 5) (p : BitVec 3) (esz : BitVec 2) (s : State) : Host.Outcome State Fault Refusal :=
  .next (s.vcmp k d a b p (elemBytes esz) fun x y => decide (x < y))
def execVcmpLt (k : Nat) (d : BitVec 3) (a b : BitVec 5) (p : BitVec 3) (esz : BitVec 2) (s : State) : Host.Outcome State Fault Refusal :=
  .next (s.vcmp k d a b p (elemBytes esz) fun x y => decide (elemSigned (elemBytes esz) x < elemSigned (elemBytes esz) y))

def execVperm (k : Nat) (d a b : BitVec 5) (p : BitVec 3) (s : State) : Host.Outcome State Fault Refusal :=
  .next (s.instr k .vector [] [d, a, b] fun s =>
    let c := s.core k
    s.retireV k d (vecMerge 1 (c.getP p) (c.getV d) fun n =>
      let i := elem 1 (c.getV b) n
      if 128 ≤ i then 0 else elem 1 (c.getV a) (i % 64)))
/-- `p` selects; every byte is written (R78). -/
def execVsel (k : Nat) (d a b : BitVec 5) (p : BitVec 3) (s : State) : Host.Outcome State Fault Refusal :=
  .next (s.instr k .vector [] [a, b] fun s =>
    let c := s.core k
    s.retireV k d (vecOf 1 fun n => if (c.getP p).getLsbD n then elem 1 (c.getV a) n else elem 1 (c.getV b) n))

def execVgf8mul (k : Nat) (d a b : BitVec 5) (p : BitVec 3) (s : State) : Host.Outcome State Fault Refusal :=
  .next (s.vec2 k d a b p 1 .gf gf8Mul)
def execVgf128mulX (k : Nat) (d a b : BitVec 5) (p : BitVec 3) (s : State) : Host.Outcome State Fault Refusal :=
  .next (s.vec2 k d a b p 16 .gf gf128Mul)
def execVgf128mulG (k : Nat) (d a b : BitVec 5) (p : BitVec 3) (s : State) : Host.Outcome State Fault Refusal :=
  .next (s.vec2 k d a b p 16 .gf gf128MulG)

end Sys2Proof.Machine
end

