-- ==== Sys2Proof/Machine/Dispatch.lean ====
section
/-! DEFINITION. The dispatch of the commands to their meanings: one arm per constructor of `Instr`. -/

namespace Sys2Proof.Machine

/-- The effect of a command on everything but the queue. -/
def exec (i : Instr) (s : State) : Host.Outcome State Fault Refusal :=
  match i with
  | .coldStart head fuses vin vhold => Sys2Proof.Machine.execColdStart head fuses vin vhold s
  | .powerReturn => Sys2Proof.Machine.execPowerReturn s
  | .warmReset src v => Sys2Proof.Machine.execWarmReset src v s
  | .warmResetN low => Sys2Proof.Machine.execWarmResetN low s
  | .vinGood mv => Sys2Proof.Machine.execVinGood mv s
  | .powerLossReport vin => Sys2Proof.Machine.execPowerLossReport vin s
  | .dumpPhase => Sys2Proof.Machine.execDumpPhase s
  | .dumpClose => Sys2Proof.Machine.execDumpClose s
  | .vinOvervoltage mv => Sys2Proof.Machine.execVinOvervoltage mv s
  | .islandSupplyFail vin vhold => Sys2Proof.Machine.execIslandSupplyFail vin vhold s
  | .holdupReadyChange mv => Sys2Proof.Machine.execHoldupReadyChange mv s
  | .refclkLoss clock => Sys2Proof.Machine.execRefclkLoss clock s
  | .refclkReturn clock => Sys2Proof.Machine.execRefclkReturn clock s
  | .thermalSample raw => Sys2Proof.Machine.execThermalSample raw s
  | .registerWrite src a v => Sys2Proof.Machine.execRegisterWrite src a v s
  | .unalignedRegisterAccess src a n data => Sys2Proof.Machine.execUnalignedRegisterAccess src a n data s
  | .readLowHalf src a => Sys2Proof.Machine.execReadLowHalf src a s
  | .readHighHalf src a => Sys2Proof.Machine.execReadHighHalf src a s
  | .writeLowHalf src a v => Sys2Proof.Machine.execWriteLowHalf src a v s
  | .writeHighHalf src a v => Sys2Proof.Machine.execWriteHighHalf src a v s
  | .trimBankWrite src n v => Sys2Proof.Machine.execTrimBankWrite src n v s
  | .illegalInstruction k w => Sys2Proof.Machine.execIllegalInstruction k w s
  | .add k d a b => Sys2Proof.Machine.execAdd k d a b s
  | .sub k d a b => Sys2Proof.Machine.execSub k d a b s
  | .and k d a b => Sys2Proof.Machine.execAnd k d a b s
  | .or k d a b => Sys2Proof.Machine.execOr k d a b s
  | .xor k d a b => Sys2Proof.Machine.execXor k d a b s
  | .andn k d a b => Sys2Proof.Machine.execAndn k d a b s
  | .sll k d a b => Sys2Proof.Machine.execSll k d a b s
  | .srl k d a b => Sys2Proof.Machine.execSrl k d a b s
  | .sra k d a b => Sys2Proof.Machine.execSra k d a b s
  | .rol k d a b => Sys2Proof.Machine.execRol k d a b s
  | .slt k d a b => Sys2Proof.Machine.execSlt k d a b s
  | .sltu k d a b => Sys2Proof.Machine.execSltu k d a b s
  | .mul k d a b => Sys2Proof.Machine.execMul k d a b s
  | .mulhu k d a b => Sys2Proof.Machine.execMulhu k d a b s
  | .mulh k d a b => Sys2Proof.Machine.execMulh k d a b s
  | .divu k d a b => Sys2Proof.Machine.execDivu k d a b s
  | .remu k d a b => Sys2Proof.Machine.execRemu k d a b s
  | .minu k d a b => Sys2Proof.Machine.execMinu k d a b s
  | .maxu k d a b => Sys2Proof.Machine.execMaxu k d a b s
  | .clz k d a => Sys2Proof.Machine.execClz k d a s
  | .ctz k d a => Sys2Proof.Machine.execCtz k d a s
  | .popc k d a => Sys2Proof.Machine.execPopc k d a s
  | .bswap k d a => Sys2Proof.Machine.execBswap k d a s
  | .addk k d a imm => Sys2Proof.Machine.execAddk k d a imm s
  | .andk k d a imm => Sys2Proof.Machine.execAndk k d a imm s
  | .ork k d a imm => Sys2Proof.Machine.execOrk k d a imm s
  | .xork k d a imm => Sys2Proof.Machine.execXork k d a imm s
  | .ltk k d a imm => Sys2Proof.Machine.execLtk k d a imm s
  | .cshl k d a imm => Sys2Proof.Machine.execCshl k d a imm s
  | .cset k d imm => Sys2Proof.Machine.execCset k d imm s
  | .shlk k d a n => Sys2Proof.Machine.execShlk k d a n s
  | .shrk k d a n => Sys2Proof.Machine.execShrk k d a n s
  | .sark k d a n => Sys2Proof.Machine.execSark k d a n s
  | .rolk k d a n => Sys2Proof.Machine.execRolk k d a n s
  | .ldB k d a imm => Sys2Proof.Machine.execLdB k d a imm s
  | .ldBs k d a imm => Sys2Proof.Machine.execLdBs k d a imm s
  | .ldH k d a imm => Sys2Proof.Machine.execLdH k d a imm s
  | .ldHs k d a imm => Sys2Proof.Machine.execLdHs k d a imm s
  | .ldW k d a imm => Sys2Proof.Machine.execLdW k d a imm s
  | .ldWs k d a imm => Sys2Proof.Machine.execLdWs k d a imm s
  | .ldD k d a imm => Sys2Proof.Machine.execLdD k d a imm s
  | .stB k d a imm => Sys2Proof.Machine.execStB k d a imm s
  | .stH k d a imm => Sys2Proof.Machine.execStH k d a imm s
  | .stW k d a imm => Sys2Proof.Machine.execStW k d a imm s
  | .stD k d a imm => Sys2Proof.Machine.execStD k d a imm s
  | .vld k d a imm => Sys2Proof.Machine.execVld k d a imm s
  | .vst k d a imm => Sys2Proof.Machine.execVst k d a imm s
  | .vstM k d a p => Sys2Proof.Machine.execVstM k d a p s
  | .atomAdd k d a b => Sys2Proof.Machine.execAtomAdd k d a b s
  | .atomSwap k d a b => Sys2Proof.Machine.execAtomSwap k d a b s
  | .atomCas k d a b => Sys2Proof.Machine.execAtomCas k d a b s
  | .beq k a b off => Sys2Proof.Machine.execBeq k a b off s
  | .bne k a b off => Sys2Proof.Machine.execBne k a b off s
  | .blt k a b off => Sys2Proof.Machine.execBlt k a b off s
  | .bge k a b off => Sys2Proof.Machine.execBge k a b off s
  | .bltu k a b off => Sys2Proof.Machine.execBltu k a b off s
  | .bgeu k a b off => Sys2Proof.Machine.execBgeu k a b off s
  | .bpany k p off => Sys2Proof.Machine.execBpany k p off s
  | .bpnone k p off => Sys2Proof.Machine.execBpnone k p off s
  | .call k d index => Sys2Proof.Machine.execCall k d index s
  | .callr k d a imm => Sys2Proof.Machine.execCallr k d a imm s
  | .vadd k d a b p esz => Sys2Proof.Machine.execVadd k d a b p esz s
  | .vsub k d a b p esz => Sys2Proof.Machine.execVsub k d a b p esz s
  | .vand k d a b p esz => Sys2Proof.Machine.execVand k d a b p esz s
  | .vor k d a b p esz => Sys2Proof.Machine.execVor k d a b p esz s
  | .vxor k d a b p esz => Sys2Proof.Machine.execVxor k d a b p esz s
  | .vandn k d a b p esz => Sys2Proof.Machine.execVandn k d a b p esz s
  | .vminu k d a b p esz => Sys2Proof.Machine.execVminu k d a b p esz s
  | .vmaxu k d a b p esz => Sys2Proof.Machine.execVmaxu k d a b p esz s
  | .vsll k d a b p esz => Sys2Proof.Machine.execVsll k d a b p esz s
  | .vsrl k d a b p esz => Sys2Proof.Machine.execVsrl k d a b p esz s
  | .vsra k d a b p esz => Sys2Proof.Machine.execVsra k d a b p esz s
  | .vmul k d a b p esz => Sys2Proof.Machine.execVmul k d a b p esz s
  | .vbcast k d a p esz => Sys2Proof.Machine.execVbcast k d a p esz s
  | .vext k d a b p esz => Sys2Proof.Machine.execVext k d a b p esz s
  | .vins k d a b p esz => Sys2Proof.Machine.execVins k d a b p esz s
  | .vredadd k d a p esz => Sys2Proof.Machine.execVredadd k d a p esz s
  | .vredxor k d a p esz => Sys2Proof.Machine.execVredxor k d a p esz s
  | .vmov k d a p esz => Sys2Proof.Machine.execVmov k d a p esz s
  | .vcmpEq k d a b p esz => Sys2Proof.Machine.execVcmpEq k d a b p esz s
  | .vcmpNe k d a b p esz => Sys2Proof.Machine.execVcmpNe k d a b p esz s
  | .vcmpLtu k d a b p esz => Sys2Proof.Machine.execVcmpLtu k d a b p esz s
  | .vcmpLt k d a b p esz => Sys2Proof.Machine.execVcmpLt k d a b p esz s
  | .vperm k d a b p => Sys2Proof.Machine.execVperm k d a b p s
  | .vsel k d a b p => Sys2Proof.Machine.execVsel k d a b p s
  | .pand k d a b => Sys2Proof.Machine.execPand k d a b s
  | .por k d a b => Sys2Proof.Machine.execPor k d a b s
  | .pxor k d a b => Sys2Proof.Machine.execPxor k d a b s
  | .pandn k d a b => Sys2Proof.Machine.execPandn k d a b s
  | .pfromg k d a => Sys2Proof.Machine.execPfromg k d a s
  | .ptog k d a => Sys2Proof.Machine.execPtog k d a s
  | .pcnt k d a => Sys2Proof.Machine.execPcnt k d a s
  | .vgf8mul k d a b p => Sys2Proof.Machine.execVgf8mul k d a b p s
  | .vgf128mulX k d a b p => Sys2Proof.Machine.execVgf128mulX k d a b p s
  | .vgf128mulG k d a b p => Sys2Proof.Machine.execVgf128mulG k d a b p s
  | .enq k gd vs gq => Sys2Proof.Machine.execEnq k gd vs gq s
  | .commandQueueArrival k n => Sys2Proof.Machine.execCommandQueueArrival k n s
  | .enqStatusReturn k n => Sys2Proof.Machine.execEnqStatusReturn k n s
  | .wne k gd ga gb => Sys2Proof.Machine.execWne k gd ga gb s
  | .wneWake k => Sys2Proof.Machine.execWneWake k s
  | .fenceW k => Sys2Proof.Machine.execFenceW k s
  | .fenceRw k => Sys2Proof.Machine.execFenceRw k s
  | .cbar k mask => Sys2Proof.Machine.execCbar k mask s
  | .barrierTimeout k => Sys2Proof.Machine.execBarrierTimeout k s
  | .wait k => Sys2Proof.Machine.execWait k s
  | .waitWake k => Sys2Proof.Machine.execWaitWake k s
  | .resume k => Sys2Proof.Machine.execResume k s
  | .trap k imm => Sys2Proof.Machine.execTrap k imm s
  | .sysrd k d num => Sys2Proof.Machine.execSysrd k d num s
  | .syswr k a num => Sys2Proof.Machine.execSyswr k a num s
  | .interruptEntry k => Sys2Proof.Machine.execInterruptEntry k s
  | .loadDataReturn k n => Sys2Proof.Machine.execLoadDataReturn k n s
  | .storeErrorResponse k n => Sys2Proof.Machine.execStoreErrorResponse k n s
  | .watchdogWarn k => Sys2Proof.Machine.execWatchdogWarn k s
  | .watchdogExpiry k => Sys2Proof.Machine.execWatchdogExpiry k s
  | .timerMatch k => Sys2Proof.Machine.execTimerMatch k s
  | .runCore k => Sys2Proof.Machine.execRunCore k s
  | .stopCore k => Sys2Proof.Machine.execStopCore k s
  | .coreStopComplete k => Sys2Proof.Machine.execCoreStopComplete k s
  | .ringDoorbell cl ring => Sys2Proof.Machine.execRingDoorbell cl ring s
  | .coreFence src k => Sys2Proof.Machine.execCoreFence src k s
  | .clusterFence src cl => Sys2Proof.Machine.execClusterFence src cl s
  | .engineBusError cls u kind addr => Sys2Proof.Machine.execEngineBusError cls u kind addr s
  | .engineCommandComplete cls u q => Sys2Proof.Machine.execEngineCommandComplete cls u q s
  | .dmaCopy u => Sys2Proof.Machine.execDmaCopy u s
  | .dmaFill u => Sys2Proof.Machine.execDmaFill u s
  | .dmaChain u => Sys2Proof.Machine.execDmaChain u s
  | .descriptorComplete u => Sys2Proof.Machine.execDescriptorComplete u s
  | .dmaChAbort u => Sys2Proof.Machine.execDmaChAbort u s
  | .dmaEngFence src e => Sys2Proof.Machine.execDmaEngFence src e s
  | .dmaChFence src u => Sys2Proof.Machine.execDmaChFence src u s
  | .bufferSpaceReturn => Sys2Proof.Machine.execBufferSpaceReturn s
  | .ledgerCycleClose => Sys2Proof.Machine.execLedgerCycleClose s
  | .ledgerRecord slot => Sys2Proof.Machine.execLedgerRecord slot s
  | .ledgerConfirm slot => Sys2Proof.Machine.execLedgerConfirm slot s
  | .ledgerRefuse slot => Sys2Proof.Machine.execLedgerRefuse slot s
  | .confirmTimeout => Sys2Proof.Machine.execConfirmTimeout s
  | .placeEntry seen fails => Sys2Proof.Machine.execPlaceEntry seen fails s
  | .tier2Deadline seen fails => Sys2Proof.Machine.execTier2Deadline seen fails s
  | .heldFoliosResend domain fails => Sys2Proof.Machine.execHeldFoliosResend domain fails s
  | .rowPadAgeExpiry q failed => Sys2Proof.Machine.execRowPadAgeExpiry q failed s
  | .cmpEncode u => Sys2Proof.Machine.execCmpEncode u s
  | .cmpDecode cls u => Sys2Proof.Machine.execCmpDecode cls u s
  | .coderStageComplete u stage agree => Sys2Proof.Machine.execCoderStageComplete u stage agree s
  | .cmpLaneFence src u => Sys2Proof.Machine.execCmpLaneFence src u s
  | .cmpDecFence src u => Sys2Proof.Machine.execCmpDecFence src u s
  | .knownAnswerTest cls u pass => Sys2Proof.Machine.execKnownAnswerTest cls u pass s
  | .dgtShake256 u => Sys2Proof.Machine.execDgtShake256 u s
  | .dgtKmac256 u => Sys2Proof.Machine.execDgtKmac256 u s
  | .dgtFingerprint u => Sys2Proof.Machine.execDgtFingerprint u s
  | .dgtVerify u fm fn => Sys2Proof.Machine.execDgtVerify u fm fn s
  | .dgtUnitFence src u => Sys2Proof.Machine.execDgtUnitFence src u s
  | .digestSlotLoad slot key => Sys2Proof.Machine.execDigestSlotLoad slot key s
  | .applyCycle seen => Sys2Proof.Machine.execApplyCycle seen s
  | .checkpointHeaderWrite fails partnerHas => Sys2Proof.Machine.execCheckpointHeaderWrite fails partnerHas s
  | .cphEncrypt u n => Sys2Proof.Machine.execCphEncrypt u n s
  | .cphDecrypt u n => Sys2Proof.Machine.execCphDecrypt u n s
  | .cphCtr u n => Sys2Proof.Machine.execCphCtr u n s
  | .cipherSuspend u => Sys2Proof.Machine.execCipherSuspend u s
  | .cipherResume u => Sys2Proof.Machine.execCipherResume u s
  | .keySlotLoad slot halfA halfB limit readOnly => Sys2Proof.Machine.execKeySlotLoad slot halfA halfB limit readOnly s
  | .keySlotRetire slot => Sys2Proof.Machine.execKeySlotRetire slot s
  | .keySlotClear slot => Sys2Proof.Machine.execKeySlotClear slot s
  | .newKeyGeneration domain => Sys2Proof.Machine.execNewKeyGeneration domain s
  | .cphUnitFence src u => Sys2Proof.Machine.execCphUnitFence src u s
  | .catWalk u => Sys2Proof.Machine.execCatWalk u s
  | .catFind u => Sys2Proof.Machine.execCatFind u s
  | .catProbe u => Sys2Proof.Machine.execCatProbe u s
  | .catScore u => Sys2Proof.Machine.execCatScore u s
  | .catAssistFence src u => Sys2Proof.Machine.execCatAssistFence src u s
  | .foldStart seen fails => Sys2Proof.Machine.execFoldStart seen fails s
  | .weedingStart seen fails => Sys2Proof.Machine.execWeedingStart seen fails s
  | .wearLevelStart seen fails => Sys2Proof.Machine.execWearLevelStart seen fails s
  | .eraseAfterFree q failed => Sys2Proof.Machine.execEraseAfterFree q failed s
  | .cxlPortFence src p => Sys2Proof.Machine.execCxlPortFence src p s
  | .quireOpen purpose => Sys2Proof.Machine.execQuireOpen purpose s
  | .parGenerate e => Sys2Proof.Machine.execParGenerate e s
  | .parReconstruct e => Sys2Proof.Machine.execParReconstruct e s
  | .parCheck e => Sys2Proof.Machine.execParCheck e s
  | .parEngFence src e => Sys2Proof.Machine.execParEngFence src e s
  | .rebuildBegin seen fails => Sys2Proof.Machine.execRebuildBegin seen fails s
  | .lostRepair f seen fails => Sys2Proof.Machine.execLostRepair f seen fails s
  | .conservationRow seen fails => Sys2Proof.Machine.execConservationRow seen fails s
  | .reshapeStep seen fails => Sys2Proof.Machine.execReshapeStep seen fails s
  | .nvmeRead c cid nsid slba nblk seen => Sys2Proof.Machine.execNvmeRead c cid nsid slba nblk seen s
  | .icreq c port maxR2t hdgst ddgst unsupported => Sys2Proof.Machine.execIcreq c port maxR2t hdgst ddgst unsupported s
  | .h2cTermReq c => Sys2Proof.Machine.execH2cTermReq c s
  | .nvmeConnect c cid qid sqsize cntlid kato hostNqn subNqn => Sys2Proof.Machine.execNvmeConnect c cid qid sqsize cntlid kato hostNqn subNqn s
  | .propertyGet c cid off => Sys2Proof.Machine.execPropertyGet c cid off s
  | .propertySet c cid off v => Sys2Proof.Machine.execPropertySet c cid off v s
  | .nvmeDisconnect c cid => Sys2Proof.Machine.execNvmeDisconnect c cid s
  | .nvmeIdentify c cid cns nsid => Sys2Proof.Machine.execNvmeIdentify c cid cns nsid s
  | .getLogPage c cid lid off len rae => Sys2Proof.Machine.execGetLogPage c cid lid off len rae s
  | .setFeatures c cid fid v => Sys2Proof.Machine.execSetFeatures c cid fid v s
  | .getFeatures c cid fid => Sys2Proof.Machine.execGetFeatures c cid fid s
  | .asynchronousEventRequest c cid => Sys2Proof.Machine.execAsynchronousEventRequest c cid s
  | .keepAlive c cid => Sys2Proof.Machine.execKeepAlive c cid s
  | .keepAliveExpiry id => Sys2Proof.Machine.execKeepAliveExpiry id s
  | .nvmeAbort c cid => Sys2Proof.Machine.execNvmeAbort c cid s
  | .namespaceCreate c cid nsze ncap flbas group profile domain => Sys2Proof.Machine.execNamespaceCreate c cid nsze ncap flbas group profile domain s
  | .namespaceDelete c cid nsid => Sys2Proof.Machine.execNamespaceDelete c cid nsid s
  | .nvmeWrite c cid nsid slba nblk data sgl dataOk fails => Sys2Proof.Machine.execNvmeWrite c cid nsid slba nblk data sgl dataOk fails s
  | .writeZeroes c cid nsid slba nblk deac => Sys2Proof.Machine.execWriteZeroes c cid nsid slba nblk deac s
  | .datasetManagement c cid nsid ad ranges => Sys2Proof.Machine.execDatasetManagement c cid nsid ad ranges s
  | .nvmeFlush c cid nsid => Sys2Proof.Machine.execNvmeFlush c cid nsid s
  | .h2cData c tag off data last plenOk headerOk dataOk fails => Sys2Proof.Machine.execH2cData c tag off data last plenOk headerOk dataOk fails s
  | .connectionEnd c => Sys2Proof.Machine.execConnectionEnd c s
  | .ethPortFence src p => Sys2Proof.Machine.execEthPortFence src p s
  | .seqIdentify u => Sys2Proof.Machine.execSeqIdentify u s
  | .seqProgram u => Sys2Proof.Machine.execSeqProgram u s
  | .seqRead u => Sys2Proof.Machine.execSeqRead u s
  | .seqErase u => Sys2Proof.Machine.execSeqErase u s
  | .seqSetMode u => Sys2Proof.Machine.execSeqSetMode u s
  | .seqReadRetry u => Sys2Proof.Machine.execSeqReadRetry u s
  | .seqHealth u => Sys2Proof.Machine.execSeqHealth u s
  | .seqOwnershipTake u => Sys2Proof.Machine.execSeqOwnershipTake u s
  | .seqOwnershipReturn u => Sys2Proof.Machine.execSeqOwnershipReturn u s
  | .seqLabel u => Sys2Proof.Machine.execSeqLabel u s
  | .seqRetire u => Sys2Proof.Machine.execSeqRetire u s
  | .carrierMsi slot => Sys2Proof.Machine.execCarrierMsi slot s
  | .carrierIdentify slot => Sys2Proof.Machine.execCarrierIdentify slot s
  | .carrierProgram slot ok data => Sys2Proof.Machine.execCarrierProgram slot ok data s
  | .carrierRead slot bad => Sys2Proof.Machine.execCarrierRead slot bad s
  | .carrierErase slot ok => Sys2Proof.Machine.execCarrierErase slot ok s
  | .carrierSetMode slot => Sys2Proof.Machine.execCarrierSetMode slot s
  | .carrierReadRetry slot bad => Sys2Proof.Machine.execCarrierReadRetry slot bad s
  | .carrierHealth slot temp => Sys2Proof.Machine.execCarrierHealth slot temp s
  | .carrierOwnershipTake slot => Sys2Proof.Machine.execCarrierOwnershipTake slot s
  | .carrierOwnershipReturn slot => Sys2Proof.Machine.execCarrierOwnershipReturn slot s
  | .carrierLabel slot => Sys2Proof.Machine.execCarrierLabel slot s
  | .carrierRetire slot => Sys2Proof.Machine.execCarrierRetire slot s
  | .carrierCommandComplete slot n forged => Sys2Proof.Machine.execCarrierCommandComplete slot n forged s
  | .carrierEnable slot port cplBase cplSize subBase subSize => Sys2Proof.Machine.execCarrierEnable slot port cplBase cplSize subBase subSize s
  | .carrierReset slot port => Sys2Proof.Machine.execCarrierReset slot port s
  | .carrierSubTail slot port ring entry => Sys2Proof.Machine.execCarrierSubTail slot port ring entry s
  | .carrierCplHead slot port head => Sys2Proof.Machine.execCarrierCplHead slot port head s
  | .carrierPortLoss slot port power => Sys2Proof.Machine.execCarrierPortLoss slot port power s
  | .carrierLinkUp slot width ident array number partnerAgrees => Sys2Proof.Machine.execCarrierLinkUp slot width ident array number partnerAgrees s
  | .carrierOutOfService slot fatal => Sys2Proof.Machine.execCarrierOutOfService slot fatal s
  | .carrierCommandTimeout slot => Sys2Proof.Machine.execCarrierCommandTimeout slot s
  | .medSeqFence src u => Sys2Proof.Machine.execMedSeqFence src u s
  | .medBlkFence src b => Sys2Proof.Machine.execMedBlkFence src b s
  | .eraseRequestRepeat => Sys2Proof.Machine.execEraseRequestRepeat s
  | .atpWrite path qp psn key offset conn data last fin marked => Sys2Proof.Machine.execAtpWrite path qp psn key offset conn data last fin marked s
  | .atpReadReq path qp psn key offset conn n relaxed marked => Sys2Proof.Machine.execAtpReadReq path qp psn key offset conn n relaxed marked s
  | .atpReadResp path qp psn conn data marked => Sys2Proof.Machine.execAtpReadResp path qp psn conn data marked s
  | .atpAck path qp psn base conn bitmap => Sys2Proof.Machine.execAtpAck path qp psn base conn bitmap s
  | .atpNak path qp psn conn reason => Sys2Proof.Machine.execAtpNak path qp psn conn reason s
  | .atpCnp path qp conn => Sys2Proof.Machine.execAtpCnp path qp conn s
  | .atpRepeat path qp psn key offset conn n fin marked => Sys2Proof.Machine.execAtpRepeat path qp psn key offset conn n fin marked s
  | .wrWrite qp => Sys2Proof.Machine.execWrWrite qp s
  | .wrWriteLast qp => Sys2Proof.Machine.execWrWriteLast qp s
  | .wrRead qp => Sys2Proof.Machine.execWrRead qp s
  | .wrRepeat qp => Sys2Proof.Machine.execWrRepeat qp s
  | .workRequestComplete qp => Sys2Proof.Machine.execWorkRequestComplete qp s
  | .repeatTimerExpiry qp => Sys2Proof.Machine.execRepeatTimerExpiry qp s
  | .ackDelayExpiry qp => Sys2Proof.Machine.execAckDelayExpiry qp s
  | .rateIncreaseExpiry qp => Sys2Proof.Machine.execRateIncreaseExpiry qp s
  | .atpRegionSync index => Sys2Proof.Machine.execAtpRegionSync index s
  | .atpRevoke key => Sys2Proof.Machine.execAtpRevoke key s
  | .revocationComplete index => Sys2Proof.Machine.execRevocationComplete index s
  | .qpReady qp setup => Sys2Proof.Machine.execQpReady qp setup s
  | .qpDrain qp => Sys2Proof.Machine.execQpDrain qp s
  | .qpReset qp => Sys2Proof.Machine.execQpReset qp s
  | .contextLoadComplete qp image => Sys2Proof.Machine.execContextLoadComplete qp image s
  | .heartbeat b => Sys2Proof.Machine.execHeartbeat b s
  | .healthReport b => Sys2Proof.Machine.execHealthReport b s
  | .supervisorMessage b => Sys2Proof.Machine.execSupervisorMessage b s
  | .heartbeatSend => Sys2Proof.Machine.execHeartbeatSend s
  | .healthReportBuild => Sys2Proof.Machine.execHealthReportBuild s
  | .heartbeatMissed => Sys2Proof.Machine.execHeartbeatMissed s
  | .twinLinkLoss => Sys2Proof.Machine.execTwinLinkLoss s
  | .twinLaneFailure => Sys2Proof.Machine.execTwinLaneFailure s
  | .custodyPeerChange low => Sys2Proof.Machine.execCustodyPeerChange low s
  | .surrenderRecognised seen shows => Sys2Proof.Machine.execSurrenderRecognised seen shows s
  | .supervisorSilent => Sys2Proof.Machine.execSupervisorSilent s
  | .confirmStall partnerWaits => Sys2Proof.Machine.execConfirmStall partnerWaits s
  | .twnRelease src v => Sys2Proof.Machine.execTwnRelease src v s
  | .twnGovAlive src => Sys2Proof.Machine.execTwnGovAlive src s
  | .partnerWaitExpiry seen absent => Sys2Proof.Machine.execPartnerWaitExpiry seen absent s
  | .serviceStart seen => Sys2Proof.Machine.execServiceStart seen s
  | .twinJoin head level => Sys2Proof.Machine.execTwinJoin head level s
  | .twinJoinAccept head level => Sys2Proof.Machine.execTwinJoinAccept head level s
  | .twinJoinRefuse head level reason => Sys2Proof.Machine.execTwinJoinRefuse head level reason s
  | .seedingComplete => Sys2Proof.Machine.execSeedingComplete s
  | .twinJoined head level cycle shown => Sys2Proof.Machine.execTwinJoined head level cycle shown s
  | .twinReady head level => Sys2Proof.Machine.execTwinReady head level s
  | .twinFailback head level cycle => Sys2Proof.Machine.execTwinFailback head level cycle s
  | .twinHandover head level cycle => Sys2Proof.Machine.execTwinHandover head level cycle s
  | .twinHandoverAccept head level => Sys2Proof.Machine.execTwinHandoverAccept head level s
  | .twinHandoverRefuse head level reason => Sys2Proof.Machine.execTwinHandoverRefuse head level reason s
  | .custodyMessageRepeat => Sys2Proof.Machine.execCustodyMessageRepeat s
  | .snapshotItemQueue nsid => Sys2Proof.Machine.execSnapshotItemQueue nsid s
  | .streamBegin peer msg => Sys2Proof.Machine.execStreamBegin peer msg s
  | .streamGroup peer msg => Sys2Proof.Machine.execStreamGroup peer msg s
  | .streamEnd peer msg => Sys2Proof.Machine.execStreamEnd peer msg s
  | .streamSeal peer msg => Sys2Proof.Machine.execStreamSeal peer msg s
  | .streamAck peer msg => Sys2Proof.Machine.execStreamAck peer msg s
  | .repairReq peer msg seen => Sys2Proof.Machine.execRepairReq peer msg seen s
  | .repairResp peer msg => Sys2Proof.Machine.execRepairResp peer msg s
  | .shipInterval nsid peer => Sys2Proof.Machine.execShipInterval nsid peer s
  | .stackSyncPulse => Sys2Proof.Machine.execStackSyncPulse s
  | .stackSyncEdge high => Sys2Proof.Machine.execStackSyncEdge high s
  | .stackSyncSilence => Sys2Proof.Machine.execStackSyncSilence s
  | .perstN low => Sys2Proof.Machine.execPerstN low s
  | .hostLinkDown again => Sys2Proof.Machine.execHostLinkDown again s
  | .bar4Read o n => Sys2Proof.Machine.execBar4Read o n s
  | .bar4Write o bs => Sys2Proof.Machine.execBar4Write o bs s
  | .msixEntryWrite o v => Sys2Proof.Machine.execMsixEntryWrite o v s
  | .epMsixSend v => Sys2Proof.Machine.execEpMsixSend v s
  | .atsInvalidateRequest page pages => Sys2Proof.Machine.execAtsInvalidateRequest page pages s
  | .translationCompletion page ok read write => Sys2Proof.Machine.execTranslationCompletion page ok read write s
  | .hostReadCompletion k n data timeout => Sys2Proof.Machine.execHostReadCompletion k n data timeout s
  | .epCrTail r tail commands => Sys2Proof.Machine.execEpCrTail r tail commands s
  | .epCrDisable r => Sys2Proof.Machine.execEpCrDisable r s
  | .crSettings r data => Sys2Proof.Machine.execCrSettings r data s
  | .crStatistics r => Sys2Proof.Machine.execCrStatistics r s
  | .crSnapshot r data => Sys2Proof.Machine.execCrSnapshot r data s
  | .crViewDelete r => Sys2Proof.Machine.execCrViewDelete r s
  | .crSeal r => Sys2Proof.Machine.execCrSeal r s
  | .crShip r seen => Sys2Proof.Machine.execCrShip r seen s
  | .crReshape r data => Sys2Proof.Machine.execCrReshape r data s
  | .crReshapeCancel r => Sys2Proof.Machine.execCrReshapeCancel r s
  | .crSolo r seen => Sys2Proof.Machine.execCrSolo r seen s
  | .crHandover r => Sys2Proof.Machine.execCrHandover r s
  | .crLabel r slot agreed => Sys2Proof.Machine.execCrLabel r slot agreed s
  | .crStackSnapshot r data => Sys2Proof.Machine.execCrStackSnapshot r data s
  | .crHealthRing r => Sys2Proof.Machine.execCrHealthRing r s
  | .hltRestore src found seen shows => Sys2Proof.Machine.execHltRestore src found seen shows s
  | .hltCreateArray src anchors seen => Sys2Proof.Machine.execHltCreateArray src anchors seen s
  | .hltQuiesce src => Sys2Proof.Machine.execHltQuiesce src s
  | .hltResume src => Sys2Proof.Machine.execHltResume src s
  | .hltRejoin src seen shows => Sys2Proof.Machine.execHltRejoin src seen shows s
  | .lpddrTrainStart mask => Sys2Proof.Machine.execLpddrTrainStart mask s
  | .lpddrTrainComplete failed => Sys2Proof.Machine.execLpddrTrainComplete failed s
  | .lpdFence src mask => Sys2Proof.Machine.execLpdFence src mask s
  | .secIdentity src len => Sys2Proof.Machine.execSecIdentity src len s
  | .secAttest src len => Sys2Proof.Machine.execSecAttest src len s
  | .secOwnerShare src len => Sys2Proof.Machine.execSecOwnerShare src len s
  | .secKeyInput src len => Sys2Proof.Machine.execSecKeyInput src len s
  | .secArrayInfo src len => Sys2Proof.Machine.execSecArrayInfo src len s
  | .secZeroise src len => Sys2Proof.Machine.execSecZeroise src len s
  | .keeperAlarm code => Sys2Proof.Machine.execKeeperAlarm code s
  | .alarmEnd code passes => Sys2Proof.Machine.execAlarmEnd code passes s
  | .sectionLoad n dest => Sys2Proof.Machine.execSectionLoad n dest s
  | .updErase src slot => Sys2Proof.Machine.execUpdErase src slot s
  | .updWrite src slot => Sys2Proof.Machine.execUpdWrite src slot s
  | .updVerify src slot => Sys2Proof.Machine.execUpdVerify src slot s
  | .updSchedule src slot => Sys2Proof.Machine.execUpdSchedule src slot s
  | .updCancel src => Sys2Proof.Machine.execUpdCancel src s
  | .updCommandComplete misread => Sys2Proof.Machine.execUpdCommandComplete misread s
  | .healthConfirm src v => Sys2Proof.Machine.execHealthConfirm src v s
  | .confirmWindowExpiry => Sys2Proof.Machine.execConfirmWindowExpiry s
  | .guardInputChange n asserted => Sys2Proof.Machine.execGuardInputChange n asserted s
  | .jtagBypass => Sys2Proof.Machine.execJtagBypass s
  | .jtagIdcode => Sys2Proof.Machine.execJtagIdcode s
  | .jtagSamplePreload cells => Sys2Proof.Machine.execJtagSamplePreload cells s
  | .jtagExtest => Sys2Proof.Machine.execJtagExtest s
  | .jtagHighz => Sys2Proof.Machine.execJtagHighz s
  | .writeResponseReturn k n => Sys2Proof.Machine.execWriteResponseReturn k n s
  | .anaTransitionTimeExpiry => Sys2Proof.Machine.execAnaTransitionTimeExpiry s
  | .invalidCommandOpcode c cid => Sys2Proof.Machine.execInvalidCommandOpcode c cid s
  | .invalidPduType c => Sys2Proof.Machine.execInvalidPduType c s
  | .badAvenfyPacket path qp st => Sys2Proof.Machine.execBadAvenfyPacket path qp st s
  | .twinFrameBad => Sys2Proof.Machine.execTwinFrameBad s
  | .mailboxCommandComplete => Sys2Proof.Machine.execMailboxCommandComplete s
  | .fallbackActivation => Sys2Proof.Machine.execFallbackActivation s
  | .twinLinkRetrained => Sys2Proof.Machine.execTwinLinkRetrained s
  | .cxlLinkChange p up gib err => Sys2Proof.Machine.execCxlLinkChange p up gib err s
  | .ethLinkChange p up => Sys2Proof.Machine.execEthLinkChange p up s
  | .evictionWriteBackComplete qp ok => Sys2Proof.Machine.execEvictionWriteBackComplete qp ok s

end Sys2Proof.Machine
end

