-- ==== Sys2Proof/Machine/Time.lean ====
section
/-! DEFINITION. The running of `SYS_ELAPSED` (R3, R515). -/

namespace Sys2Proof.Machine

/-- `SYS_ELAPSED` advances by 40 ns while its crystal runs (R515, R578). -/
def State.tick (s : State) : State := if s.pwr.crystal && s.pwr.island then { s with elapsed := s.elapsed + 40 } else s

end Sys2Proof.Machine
end

