-- ==== Sys2Proof/Safety.lean ====
section
/-! DEFINITION. The words that statements about the block are made in: the canonical form of its tables, an engine that executes an
instruction, and what a change to one engine or one register leaves alone. -/

namespace Sys2Proof.Machine

/-- The canonical form of memory: addresses strictly rising, and no byte listed that an unlisted address reads as. -/
def Memory.wf (m : Sparse Byte) : Bool := Sparse.wf 0 m

/-- Memory, the register image and the tables of engines and units are in canonical form. -/
def State.canonical (s : State) : Bool :=
  Memory.wf s.mem && Sparse.wf 0 s.regs && Sparse.wf Core.cold s.cores && Sparse.wf EngUnit.idle s.units

/-- Engine `k` executes an instruction of group `g` that reads these general and vector registers, now: it issues, the word fetched is
sound (R36), and its subset has the group (R87). -/
def State.executes (s : State) (k : Nat) (g : InstrGroup) (gs vs : List (BitVec 5)) : Bool :=
  s.issues k gs vs && ! s.fetchDamaged k && ! lacks k g

/-- The next instruction's address is one the engine can fetch from. -/
def State.hasNext (s : State) (k : Nat) : Bool := fetchable k ((s.core k).pc.toNat + 4)

/-- The fetch of the word at the pc: one whose single-bit error the device corrects is counted (R36, R39); nothing else changes. -/
def State.fetched (k : Nat) (s : State) : State := s.correct (ownKey k (s.core k).pc.toNat) 4

/-- The fetch, then engine `k` with its registers changed by `f` and its pc at the next instruction; nothing else changes. -/
def State.retired (k : Nat) (f : Core → Core) (s : State) : State := (s.fetched k).setCore k { f (s.core k) with pc := (s.core k).pc + 4 }

/-- The fetch, then engine `k` with its registers changed by `f` and its pc at `target`; nothing else changes. -/
def State.movedTo (k : Nat) (f : Core → Core) (target : BitVec 18) (s : State) : State := (s.fetched k).setCore k { f (s.core k) with pc := target }

/-- Engine `k` with its registers changed by `f` and its pc at the next instruction, without a fetch; nothing else changes. -/
def State.goesOn (k : Nat) (f : Core → Core) (s : State) : State := s.setCore k { f (s.core k) with pc := (s.core k).pc + 4 }

/-- Nothing but engine `k` differs between two states. -/
def State.onlyEngine (k : Nat) (s t : State) : Prop := t = { s with cores := t.cores } ∧ ∀ j, j ≠ k → t.core j = s.core j

/-- Nothing but engine `k` differs between a state and the fetch of the engine's next word in another. -/
def State.onlyCore (k : Nat) (s t : State) : Prop := (s.fetched k).onlyEngine k t

/-- A load without its register. -/
def Load.place (l : Load) : Load := { l with vector := false, reg := 0 }
/-- An enqueue under way without its register. -/
def EnqOwed.place (e : EnqOwed) : EnqOwed := { e with gd := 0 }

/-- Two engines agree in everything but their general, vector and predicate registers, their pc, and the registers that loads and enqueues under
way will write. -/
def Core.sameControl (c d : Core) : Prop :=
  d = { c with g := d.g, v := d.v, p := d.p, pc := d.pc, loads := d.loads, enqs := d.enqs }
    ∧ d.loads.map Load.place = c.loads.map Load.place ∧ d.enqs.map EnqOwed.place = c.enqs.map EnqOwed.place

/-! ### The instructions by what they name -/

/-- What an instruction of an engine names: the engine, its group (R87), and the general and vector registers it reads. -/
structure EngineForm where
  engine : Nat
  group : InstrGroup
  gs : List (BitVec 5)
  vs : List (BitVec 5)
  deriving DecidableEq, Repr

/-- A register an instruction writes. -/
inductive Dest where
  | none
  | g (d : BitVec 5)
  | v (d : BitVec 5)
  | p (d : BitVec 3)
  deriving DecidableEq, Repr

/-- The instructions that only compute on registers (R68, R69, R76 to R80), with the register each writes. -/
def regForm : Instr → Option (EngineForm × Dest)
  | .add k d a b => some (⟨k, .base, [a, b], []⟩, .g d)
  | .sub k d a b => some (⟨k, .base, [a, b], []⟩, .g d)
  | .and k d a b => some (⟨k, .base, [a, b], []⟩, .g d)
  | .or k d a b => some (⟨k, .base, [a, b], []⟩, .g d)
  | .xor k d a b => some (⟨k, .base, [a, b], []⟩, .g d)
  | .andn k d a b => some (⟨k, .base, [a, b], []⟩, .g d)
  | .sll k d a b => some (⟨k, .base, [a, b], []⟩, .g d)
  | .srl k d a b => some (⟨k, .base, [a, b], []⟩, .g d)
  | .sra k d a b => some (⟨k, .base, [a, b], []⟩, .g d)
  | .rol k d a b => some (⟨k, .base, [a, b], []⟩, .g d)
  | .slt k d a b => some (⟨k, .base, [a, b], []⟩, .g d)
  | .sltu k d a b => some (⟨k, .base, [a, b], []⟩, .g d)
  | .mul k d a b => some (⟨k, .base, [a, b], []⟩, .g d)
  | .mulhu k d a b => some (⟨k, .base, [a, b], []⟩, .g d)
  | .mulh k d a b => some (⟨k, .base, [a, b], []⟩, .g d)
  | .divu k d a b => some (⟨k, .base, [a, b], []⟩, .g d)
  | .remu k d a b => some (⟨k, .base, [a, b], []⟩, .g d)
  | .minu k d a b => some (⟨k, .base, [a, b], []⟩, .g d)
  | .maxu k d a b => some (⟨k, .base, [a, b], []⟩, .g d)
  | .clz k d a => some (⟨k, .base, [a], []⟩, .g d)
  | .ctz k d a => some (⟨k, .base, [a], []⟩, .g d)
  | .popc k d a => some (⟨k, .base, [a], []⟩, .g d)
  | .bswap k d a => some (⟨k, .base, [a], []⟩, .g d)
  | .addk k d a _ => some (⟨k, .base, [a], []⟩, .g d)
  | .andk k d a _ => some (⟨k, .base, [a], []⟩, .g d)
  | .ork k d a _ => some (⟨k, .base, [a], []⟩, .g d)
  | .xork k d a _ => some (⟨k, .base, [a], []⟩, .g d)
  | .ltk k d a _ => some (⟨k, .base, [a], []⟩, .g d)
  | .cshl k d a _ => some (⟨k, .base, [a], []⟩, .g d)
  | .shlk k d a _ => some (⟨k, .base, [a], []⟩, .g d)
  | .shrk k d a _ => some (⟨k, .base, [a], []⟩, .g d)
  | .sark k d a _ => some (⟨k, .base, [a], []⟩, .g d)
  | .rolk k d a _ => some (⟨k, .base, [a], []⟩, .g d)
  | .cset k d _ => some (⟨k, .base, [], []⟩, .g d)
  | .vadd k d a b _ _ => some (⟨k, .vector, [], [d, a, b]⟩, .v d)
  | .vsub k d a b _ _ => some (⟨k, .vector, [], [d, a, b]⟩, .v d)
  | .vand k d a b _ _ => some (⟨k, .vector, [], [d, a, b]⟩, .v d)
  | .vor k d a b _ _ => some (⟨k, .vector, [], [d, a, b]⟩, .v d)
  | .vxor k d a b _ _ => some (⟨k, .vector, [], [d, a, b]⟩, .v d)
  | .vandn k d a b _ _ => some (⟨k, .vector, [], [d, a, b]⟩, .v d)
  | .vminu k d a b _ _ => some (⟨k, .vector, [], [d, a, b]⟩, .v d)
  | .vmaxu k d a b _ _ => some (⟨k, .vector, [], [d, a, b]⟩, .v d)
  | .vsll k d a b _ _ => some (⟨k, .vector, [], [d, a, b]⟩, .v d)
  | .vsrl k d a b _ _ => some (⟨k, .vector, [], [d, a, b]⟩, .v d)
  | .vsra k d a b _ _ => some (⟨k, .vector, [], [d, a, b]⟩, .v d)
  | .vmul k d a b _ _ => some (⟨k, .vector, [], [d, a, b]⟩, .v d)
  | .vbcast k d a _ _ => some (⟨k, .vector, [a], [d]⟩, .v d)
  | .vext k d a b _ _ => some (⟨k, .vector, [b], [a]⟩, .g d)
  | .vins k d a b _ _ => some (⟨k, .vector, [a, b], [d]⟩, .v d)
  | .vredadd k d a _ _ => some (⟨k, .vector, [], [a]⟩, .g d)
  | .vredxor k d a _ _ => some (⟨k, .vector, [], [a]⟩, .g d)
  | .vmov k d a _ _ => some (⟨k, .vector, [], [d, a]⟩, .v d)
  | .vcmpEq k d a b _ _ => some (⟨k, .vector, [], [a, b]⟩, .p d)
  | .vcmpNe k d a b _ _ => some (⟨k, .vector, [], [a, b]⟩, .p d)
  | .vcmpLtu k d a b _ _ => some (⟨k, .vector, [], [a, b]⟩, .p d)
  | .vcmpLt k d a b _ _ => some (⟨k, .vector, [], [a, b]⟩, .p d)
  | .vperm k d a b _ => some (⟨k, .vector, [], [d, a, b]⟩, .v d)
  | .vsel k d a b _ => some (⟨k, .vector, [], [a, b]⟩, .v d)
  | .pand k d _ _ => some (⟨k, .vector, [], []⟩, .p d)
  | .por k d _ _ => some (⟨k, .vector, [], []⟩, .p d)
  | .pxor k d _ _ => some (⟨k, .vector, [], []⟩, .p d)
  | .pandn k d _ _ => some (⟨k, .vector, [], []⟩, .p d)
  | .pfromg k d a => some (⟨k, .vector, [a], []⟩, .p d)
  | .ptog k d _ => some (⟨k, .vector, [], []⟩, .g d)
  | .pcnt k d _ => some (⟨k, .vector, [], []⟩, .g d)
  | .vgf8mul k d a b _ => some (⟨k, .gf, [], [d, a, b]⟩, .v d)
  | .vgf128mulX k d a b _ => some (⟨k, .gf, [], [d, a, b]⟩, .v d)
  | .vgf128mulG k d a b _ => some (⟨k, .gf, [], [d, a, b]⟩, .v d)
  | _ => Option.none

/-- Every instruction of the engines. -/
def engineForm (i : Instr) : Option EngineForm :=
  match i with
  | .ldB k _ a _ => some ⟨k, .base, [a], []⟩
  | .ldBs k _ a _ => some ⟨k, .base, [a], []⟩
  | .ldH k _ a _ => some ⟨k, .base, [a], []⟩
  | .ldHs k _ a _ => some ⟨k, .base, [a], []⟩
  | .ldW k _ a _ => some ⟨k, .base, [a], []⟩
  | .ldWs k _ a _ => some ⟨k, .base, [a], []⟩
  | .ldD k _ a _ => some ⟨k, .base, [a], []⟩
  | .stB k d a _ => some ⟨k, .base, [d, a], []⟩
  | .stH k d a _ => some ⟨k, .base, [d, a], []⟩
  | .stW k d a _ => some ⟨k, .base, [d, a], []⟩
  | .stD k d a _ => some ⟨k, .base, [d, a], []⟩
  | .callr k _ a _ => some ⟨k, .base, [a], []⟩
  | .vld k _ a _ => some ⟨k, .vector, [a], []⟩
  | .vst k d a _ => some ⟨k, .vector, [a], [d]⟩
  | .vstM k d a _ => some ⟨k, .vector, [a], [d]⟩
  | .atomAdd k _ a b => some ⟨k, .base, [a, b], []⟩
  | .atomSwap k _ a b => some ⟨k, .base, [a, b], []⟩
  | .atomCas k d a b => some ⟨k, .base, [d, a, b], []⟩
  | .beq k a b _ => some ⟨k, .base, [a, b], []⟩
  | .bne k a b _ => some ⟨k, .base, [a, b], []⟩
  | .blt k a b _ => some ⟨k, .base, [a, b], []⟩
  | .bge k a b _ => some ⟨k, .base, [a, b], []⟩
  | .bltu k a b _ => some ⟨k, .base, [a, b], []⟩
  | .bgeu k a b _ => some ⟨k, .base, [a, b], []⟩
  | .bpany k _ _ => some ⟨k, .base, [], []⟩
  | .bpnone k _ _ => some ⟨k, .base, [], []⟩
  | .call k _ _ => some ⟨k, .base, [], []⟩
  | .enq k _ vs gq => some ⟨k, .enq, [gq], [vs]⟩
  | .wne k _ ga gb => some ⟨k, .base, [ga, gb], []⟩
  | .fenceW k => some ⟨k, .base, [], []⟩
  | .fenceRw k => some ⟨k, .base, [], []⟩
  | .cbar k _ => some ⟨k, .cbar, [], []⟩
  | .wait k => some ⟨k, .base, [], []⟩
  | .resume k => some ⟨k, .base, [], []⟩
  | .trap k _ => some ⟨k, .base, [], []⟩
  | .sysrd k _ _ => some ⟨k, .base, [], []⟩
  | .syswr k a _ => some ⟨k, .base, [a], []⟩
  | i => (regForm i).map (·.1)

/-- The outcome `o` is the next instruction with vector register `d` written: each active element `e` of `eb` bytes is `f e`, each
inactive one keeps its value (R34). -/
def State.writesElems (s : State) (k : Nat) (d : BitVec 5) (eb : Nat) (p : Word64) (f : Nat → Nat)
    (o : Host.Outcome State Fault Refusal) : Prop :=
  ∃ v : Vec, o = .next (s.retired k (Core.putV d v)) ∧
    ∀ e, e < 64 / eb → elem eb v e = if p.getLsbD (eb * e) then f e % 2 ^ (8 * eb) else elem eb ((s.core k).getV d) e

/-- No core of engine `k`'s cluster waits at a barrier, or `k` has no cluster. -/
def State.noBarrier (s : State) (k : Nat) : Bool := decide (96 ≤ k) || (s.barrierMasks (k / 8)).isEmpty

/-- Engine `k` may enter a handler: it is in none, and the handler's offset is one it can fetch from. -/
def State.mayEnter (s : State) (k cause : Nat) : Bool :=
  ! (s.core k).inExc && decide ((s.core k).vbase.toNat + 16 * cause < fetchLimit k) && s.noBarrier k

/-- Engine `k` at the handler of `cause` (R48, R51): `STC_EPC`, `STC_CAUSE` and `STC_FAULT_ADDR` are written, `IN_EXC` is set and `IE`
cleared; the registers keep their values. -/
def State.inHandler (k cause : Nat) (epc : Word32) (fault : BitVec 48) (s : State) : State :=
  s.setCore k { s.core k with epc := epc, cause := BitVec.ofNat 4 cause, causeArmed := false, faultAddr := fault, inExc := true, ie := false,
                              waiting := .issuing, pc := BitVec.ofNat 18 ((s.core k).vbase.toNat + 16 * cause) }

/-! ### Engine units -/

/-- Unit `u` takes command `c` of opcode `op` now and is then as `e` says: its queues and arbitration choose it (R100). -/
def State.takes (cls u op : Nat) (c : Cmd) (e : EngUnit) (s : State) : Prop := s.nextCommand cls u = some (c, e) ∧ opcodeOf c.block = op

/-- Unit `u` executes command `c` of opcode `op` and takes none of that opcode now. -/
def State.runs (cls u op : Nat) (c : Cmd) (s : State) : Prop := s.takesNext cls u op = false ∧ s.executing cls u op = some c

/-- The outcome `o` is the unit with the command it executed as `c` has it, after what the command did to `s`. -/
def becomes (cls u : Nat) (c : Cmd) (s : State) (o : Host.Outcome State Fault Refusal) : Prop := o = .next (s.putCommand cls u c)

/-- The outcome `o` is the unit with command `c` in service, after what the command did to `s`. -/
def serves (cls u : Nat) (c : Cmd) (s : State) (o : Host.Outcome State Fault Refusal) : Prop := o = .next (s.serve cls u c)

/-- What the fence of unit `u` leaves of it (R30): its fence bit stands, nothing is queued or suspended, each command that was queued has
ended with FENCED, and each one that was in service or suspended without an ending ends so. -/
def State.fencedUnit (cls u : Nat) (s t : State) : Prop :=
  t.unitFenced cls u = true ∧ (t.unit cls u).queued = 0 ∧ (t.unit cls u).suspended = [] ∧
    (∀ q, q < 4 → ∀ x ∈ (s.unit cls u).queue q, ∃ c ∈ (t.unit cls u).ended, c.seq = x.seq ∧ c.block = x.block ∧ c.status = stFenced) ∧
    ∀ c ∈ (s.unit cls u).service ++ (s.unit cls u).suspended, c.stop = 0 → ∃ d ∈ (t.unit cls u).service, d.seq = c.seq ∧ d.stop = stFenced

end Sys2Proof.Machine
end

