-- ==== Sys2Proof/Certificates/Slice0/Obligations.lean ====
section
/-! DEFINITION. The statements for the provers: what each command does, what it leaves alone, and what every step keeps. -/

open Sys2Proof Sys2Proof.Machine

/-! ### The block as a whole -/

/-- A step runs the command at the front of the queue with the queue's rest. -/
def Obligations.StepRunsFrontCommand : Prop :=
  ∀ (c : Instr) (rest : List Instr) (s : State), step { s with pending := c :: rest } = exec c { s with pending := rest }

/-- With an empty queue a step lets one period of the 25 MHz crystal pass (R515): 40 ns while the crystal and the island run, none
otherwise, and nothing else changes. That a step on an empty queue stands for a period is the model's choice (log entry 5). -/
def Obligations.EmptyQueueLetsTimePass : Prop :=
  ∀ s : State, s.pending = [] →
    (s.pwr.crystal = true ∧ s.pwr.island = true → step s = .next { s with elapsed := s.elapsed + 40 }) ∧
    (s.pwr.crystal = false ∨ s.pwr.island = false → step s = .next s)

/-- No command is turned away: from every state every step answers a next state. -/
def Obligations.EveryStepAnswersNext : Prop := ∀ s : State, ∃ t : State, step s = .next t

/-- Every step keeps memory, the register image and the tables of engines and units in canonical form, and takes no command from the
queue but its first. -/
def Obligations.StepKeepsCanonicalTables : Prop :=
  ∀ s t : State, s.canonical = true → step s = .next t → t.canonical = true ∧ t.pending = s.pending.tail

/-- The tables are in canonical form after reset. -/
def Obligations.ResetIsCanonical : Prop := State.reset.canonical = true ∧ State.reset.pending = []

/-- R4: a cold start puts `SYS_ELAPSED` to zero, and no other command, no warm reset, mode change, image activation or custody transfer
among them, restarts or adjusts it. -/
def Obligations.OnlyColdStartTouchesElapsed : Prop :=
  (∀ (head : Bool) (fuses : Option (List Word32)) (vin vhold : Nat) (s t : State), exec (.coldStart head fuses vin vhold) s = .next t → t.elapsed = 0) ∧
  (∀ (c : Instr) (s t : State), (∀ head fuses vin vhold, c ≠ .coldStart head fuses vin vhold) → exec c s = .next t → t.elapsed = s.elapsed)

/-- R46 and R57: after a cold start every engine's general, vector and predicate registers are zero (but for p0, which is all ones),
and its control registers are at their reset values; nothing is outstanding. -/
def Obligations.EnginesAfterReset : Prop :=
  ∀ k : Nat, k < 124 →
    let c := State.reset.core k
    (∀ d, c.getG d = 0) ∧ (∀ d, c.getV d = 0) ∧ (∀ d, c.getP d = if d = 0 then 0xFFFFFFFFFFFFFFFF else 0) ∧
    c.pc = 0 ∧ c.ie = false ∧ c.inExc = false ∧ c.epc = 0 ∧ c.cause = 0 ∧ c.faultAddr = 0 ∧ c.vbase = 0 ∧ c.irqPend = 0 ∧ c.irqMask = 0 ∧
    c.wdogLimit = 0 ∧ c.timerCmp = 0xFFFFFFFFFFFFFFFF ∧ c.barTimeout = 0x3E8 ∧ c.loads = [] ∧ c.stores = [] ∧ c.enqs = []

/-- R65 to R67 and R76 to R84: every instruction of the engines has one word, which the decoder reads back with every operand, and a word that
the decoder reads is the word of what it reads: no bit of an encoding is dropped, and no other word stands for the instruction. -/
def Obligations.EncodingRoundTrip : Prop :=
  (∀ (i : Instr) (f : EngineForm), engineForm i = some f → ∃ w : Word32, encodeWord i = some (f.engine, w) ∧ decodeWord f.engine w = some i) ∧
  ∀ (k : Nat) (w : Word32) (i : Instr), decodeWord k w = some i → encodeWord i = some (k, w)

/-! ### Instructions on registers (R68, R69, R76 to R80) -/

/-- R68: the integer operations. An engine that executes one goes on at the next instruction with the result in `gd`; nothing else changes.
The counts and the byte swap are each said by what they count. -/
def Obligations.IntegerResults : Prop :=
  (∀ (s : State) (k : Nat) (d a b : BitVec 5), s.executes k .base [a, b] [] = true → s.hasNext k = true →
      let x := (s.core k).getG a
      let y := (s.core k).getG b
      let n := y.toNat % 64
      let gives (v : Word64) : Host.Outcome State Fault Refusal := .next (s.retired k (Core.putG d v))
      exec (.add k d a b) s = gives (x + y) ∧
      exec (.sub k d a b) s = gives (x - y) ∧
      exec (.and k d a b) s = gives (x &&& y) ∧
      exec (.or k d a b) s = gives (x ||| y) ∧
      exec (.xor k d a b) s = gives (x ^^^ y) ∧
      exec (.andn k d a b) s = gives (x &&& ~~~ y) ∧
      exec (.sll k d a b) s = gives (x <<< n) ∧
      exec (.srl k d a b) s = gives (x >>> n) ∧
      exec (.sra k d a b) s = gives (BitVec.ofInt 64 (x.toInt / (2 ^ n : Nat))) ∧
      exec (.rol k d a b) s = gives (x <<< n ||| x >>> (64 - n)) ∧
      exec (.slt k d a b) s = gives (if x.toInt < y.toInt then 1 else 0) ∧
      exec (.sltu k d a b) s = gives (if x.toNat < y.toNat then 1 else 0) ∧
      exec (.mul k d a b) s = gives (BitVec.ofNat 64 (x.toNat * y.toNat)) ∧
      exec (.mulhu k d a b) s = gives (BitVec.ofNat 64 (x.toNat * y.toNat / 2 ^ 64)) ∧
      exec (.mulh k d a b) s = gives (BitVec.ofInt 64 (x.toInt * y.toInt / 2 ^ 64)) ∧
      exec (.divu k d a b) s = gives (if y = 0 then 0xFFFFFFFFFFFFFFFF else BitVec.ofNat 64 (x.toNat / y.toNat)) ∧
      exec (.remu k d a b) s = gives (if y = 0 then x else BitVec.ofNat 64 (x.toNat % y.toNat)) ∧
      exec (.minu k d a b) s = gives (BitVec.ofNat 64 (min x.toNat y.toNat)) ∧
      exec (.maxu k d a b) s = gives (BitVec.ofNat 64 (max x.toNat y.toNat))) ∧
  ∀ (s : State) (k : Nat) (d a : BitVec 5), s.executes k .base [a] [] = true → s.hasNext k = true →
    let x := (s.core k).getG a
    let gives (v : Word64) : Host.Outcome State Fault Refusal := .next (s.retired k (Core.putG d v))
    (∃ n, n ≤ 64 ∧ exec (.clz k d a) s = gives (BitVec.ofNat 64 n) ∧ x.toNat < 2 ^ (64 - n) ∧ (n < 64 → 2 ^ (63 - n) ≤ x.toNat)) ∧
    (∃ n, n ≤ 64 ∧ exec (.ctz k d a) s = gives (BitVec.ofNat 64 n) ∧ (x = 0 → n = 64) ∧
      (x ≠ 0 → x.toNat % 2 ^ n = 0 ∧ x.toNat / 2 ^ n % 2 = 1)) ∧
    exec (.popc k d a) s = gives (BitVec.ofNat 64 ((List.range 64).filter x.getLsbD).length) ∧
    (∃ y : Word64, exec (.bswap k d a) s = gives y ∧ ∀ i, i < 8 → y.extractLsb' (8 * i) 8 = x.extractLsb' (8 * (7 - i)) 8)

/-- R69: the immediate and constant instructions. -/
def Obligations.ImmediateResults : Prop :=
  ∀ (s : State) (k : Nat) (d a : BitVec 5) (imm : BitVec 16) (n : BitVec 6), s.hasNext k = true →
    let x := (s.core k).getG a
    let gives (v : Word64) : Host.Outcome State Fault Refusal := .next (s.retired k (Core.putG d v))
    (s.executes k .base [a] [] = true →
      exec (.addk k d a imm) s = gives (x + imm.signExtend 64) ∧
      exec (.andk k d a imm) s = gives (x &&& imm.zeroExtend 64) ∧
      exec (.ork k d a imm) s = gives (x ||| imm.zeroExtend 64) ∧
      exec (.xork k d a imm) s = gives (x ^^^ imm.zeroExtend 64) ∧
      exec (.ltk k d a imm) s = gives (if x.toInt < imm.toInt then 1 else 0) ∧
      exec (.cshl k d a imm) s = gives (BitVec.ofNat 64 (x.toNat % 2 ^ 48 * 2 ^ 16 + imm.toNat)) ∧
      exec (.shlk k d a n) s = gives (x <<< n.toNat) ∧
      exec (.shrk k d a n) s = gives (x >>> n.toNat) ∧
      exec (.sark k d a n) s = gives (BitVec.ofInt 64 (x.toInt / (2 ^ n.toNat : Nat))) ∧
      exec (.rolk k d a n) s = gives (x <<< n.toNat ||| x >>> (64 - n.toNat))) ∧
    (s.executes k .base [] [] = true → exec (.cset k d imm) s = gives (imm.zeroExtend 64))

/-- R76, R78 and R80: the vector instructions that write a vector register, element by element under the governing predicate. -/
def Obligations.VectorResults : Prop :=
  ∀ (s : State) (k : Nat) (d a b : BitVec 5) (p : BitVec 3) (esz : BitVec 2), s.hasNext k = true →
    let c := s.core k
    let eb := elemBytes esz
    let w := 8 * eb
    let q := c.getP p
    let x (e : Nat) := elem eb (c.getV a) e
    let y (e : Nat) := elem eb (c.getV b) e
    (s.executes k .vector [] [d, a, b] = true →
      s.writesElems k d eb q (fun e => x e + y e) (exec (.vadd k d a b p esz) s) ∧
      s.writesElems k d eb q (fun e => x e + 2 ^ w - y e) (exec (.vsub k d a b p esz) s) ∧
      s.writesElems k d eb q (fun e => x e &&& y e) (exec (.vand k d a b p esz) s) ∧
      s.writesElems k d eb q (fun e => x e ||| y e) (exec (.vor k d a b p esz) s) ∧
      s.writesElems k d eb q (fun e => x e ^^^ y e) (exec (.vxor k d a b p esz) s) ∧
      s.writesElems k d eb q (fun e => x e &&& (2 ^ w - 1 - y e)) (exec (.vandn k d a b p esz) s) ∧
      s.writesElems k d eb q (fun e => min (x e) (y e)) (exec (.vminu k d a b p esz) s) ∧
      s.writesElems k d eb q (fun e => max (x e) (y e)) (exec (.vmaxu k d a b p esz) s) ∧
      s.writesElems k d eb q (fun e => x e * 2 ^ (y e % w)) (exec (.vsll k d a b p esz) s) ∧
      s.writesElems k d eb q (fun e => x e / 2 ^ (y e % w)) (exec (.vsrl k d a b p esz) s) ∧
      s.writesElems k d eb q (fun e => wrapTo w (signedOf w (x e) / (2 ^ (y e % w) : Nat))) (exec (.vsra k d a b p esz) s) ∧
      s.writesElems k d eb q (fun e => x e * y e) (exec (.vmul k d a b p esz) s) ∧
      s.writesElems k d 1 q (fun n => if elem 1 (c.getV b) n / 128 = 1 then 0 else elem 1 (c.getV a) (elem 1 (c.getV b) n % 64))
        (exec (.vperm k d a b p) s)) ∧
    (s.executes k .vector [] [a, b] = true →
      s.writesElems k d 1 (BitVec.allOnes 64) (fun n => if q.getLsbD n then elem 1 (c.getV a) n else elem 1 (c.getV b) n)
        (exec (.vsel k d a b p) s)) ∧
    (s.executes k .gf [] [d, a, b] = true →
      s.writesElems k d 1 q (fun e => gf8Mul (elem 1 (c.getV a) e) (elem 1 (c.getV b) e)) (exec (.vgf8mul k d a b p) s) ∧
      s.writesElems k d 16 q (fun e => gf128Mul (elem 16 (c.getV a) e) (elem 16 (c.getV b) e)) (exec (.vgf128mulX k d a b p) s) ∧
      s.writesElems k d 16 q (fun e => gf128MulG (elem 16 (c.getV a) e) (elem 16 (c.getV b) e)) (exec (.vgf128mulG k d a b p) s)) ∧
    (s.executes k .vector [a] [d] = true →
      s.writesElems k d eb q (fun _ => (c.getG a).toNat) (exec (.vbcast k d a p esz) s)) ∧
    (s.executes k .vector [a, b] [d] = true →
      s.writesElems k d eb q (fun e => if e = (c.getG b).toNat % (64 / eb) then (c.getG a).toNat else elem eb (c.getV d) e)
        (exec (.vins k d a b p esz) s)) ∧
    (s.executes k .vector [] [d, a] = true →
      s.writesElems k d eb q x (exec (.vmov k d a p esz) s))

/-- R76: the vector instructions that write a general register. -/
def Obligations.VectorToScalarResults : Prop :=
  ∀ (s : State) (k : Nat) (d a b : BitVec 5) (p : BitVec 3) (esz : BitVec 2), s.hasNext k = true →
    let c := s.core k
    let eb := elemBytes esz
    let active := ((List.range (64 / eb)).filter fun e => (c.getP p).getLsbD (eb * e)).map (elem eb (c.getV a))
    let gives (v : Word64) : Host.Outcome State Fault Refusal := .next (s.retired k (Core.putG d v))
    (s.executes k .vector [b] [a] = true →
      exec (.vext k d a b p esz) s = gives (BitVec.ofNat 64 (elem eb (c.getV a) ((c.getG b).toNat % (64 / eb))))) ∧
    (s.executes k .vector [] [a] = true →
      exec (.vredadd k d a p esz) s = gives (BitVec.ofNat 64 active.sum) ∧
      exec (.vredxor k d a p esz) s = gives (BitVec.ofNat 64 (active.foldl (· ^^^ ·) 0)))

/-- R77 and R79: compares and predicate instructions. A compare writes, for each active element, its result into every predicate bit of
the element's lanes; the bits of inactive elements keep their values. -/
def Obligations.PredicateResults : Prop :=
  ∀ (s : State) (k : Nat), s.hasNext k = true →
    let c := s.core k
    (∀ (d : BitVec 3) (a b : BitVec 5) (p : BitVec 3) (esz : BitVec 2), s.executes k .vector [] [a, b] = true →
      let eb := elemBytes esz
      let x (e : Nat) := elem eb (c.getV a) e
      let y (e : Nat) := elem eb (c.getV b) e
      let gives (f : Nat → Bool) (o : Host.Outcome State Fault Refusal) : Prop := ∃ v : Word64, o = .next (s.retired k (Core.setP d v)) ∧
        ∀ n, n < 64 → v.getLsbD n = if (c.getP p).getLsbD (n / eb * eb) then f (n / eb) else (c.getP d).getLsbD n
      gives (fun e => x e == y e) (exec (.vcmpEq k d a b p esz) s) ∧
      gives (fun e => x e != y e) (exec (.vcmpNe k d a b p esz) s) ∧
      gives (fun e => decide (x e < y e)) (exec (.vcmpLtu k d a b p esz) s) ∧
      gives (fun e => decide (signedOf (8 * eb) (x e) < signedOf (8 * eb) (y e))) (exec (.vcmpLt k d a b p esz) s)) ∧
    (∀ d a b : BitVec 3, s.executes k .vector [] [] = true →
      let x := c.getP a
      let y := c.getP b
      let gives (v : Word64) : Host.Outcome State Fault Refusal := .next (s.retired k (Core.setP d v))
      exec (.pand k d a b) s = gives (x &&& y) ∧ exec (.por k d a b) s = gives (x ||| y) ∧ exec (.pxor k d a b) s = gives (x ^^^ y) ∧
      exec (.pandn k d a b) s = gives (x &&& ~~~ y)) ∧
    (∀ (d : BitVec 3) (a : BitVec 5), s.executes k .vector [a] [] = true →
      exec (.pfromg k d a) s = .next (s.retired k (Core.setP d (c.getG a)))) ∧
    (∀ (d : BitVec 5) (a : BitVec 3), s.executes k .vector [] [] = true →
      exec (.ptog k d a) s = .next (s.retired k (Core.putG d (c.getP a))) ∧
      exec (.pcnt k d a) s = .next (s.retired k (Core.putG d (BitVec.ofNat 64 ((List.range 64).filter (c.getP a).getLsbD).length))))

/-- The frame of every instruction that only computes on registers: nothing but the executing engine differs, and in it only the pc, which
moves to the next instruction, and the register that the instruction writes. -/
def Obligations.RegisterInstructionFrame : Prop :=
  ∀ (i : Instr) (f : EngineForm) (dest : Dest) (s t : State), regForm i = some (f, dest) → s.executes f.engine f.group f.gs f.vs = true →
    s.hasNext f.engine = true → exec i s = .next t →
      let c := s.core f.engine
      let r := t.core f.engine
      s.onlyCore f.engine t ∧ c.sameControl r ∧ r.pc = c.pc + 4 ∧
      (∀ d, dest ≠ .g d → r.getG d = c.getG d) ∧ (∀ d, dest ≠ .v d → r.getV d = c.getV d) ∧ (∀ d, dest ≠ .p d → r.getP d = c.getP d) ∧
      (∀ a, t.byte a = s.byte a)

/-- R33: `g0` reads as zero and `p0` as all ones, whatever the engine holds; a write to either is discarded, and a write to any other
register is read back. -/
def Obligations.HardwiredRegisters : Prop :=
  ∀ (c : Core) (x : Word64),
    c.getG 0 = 0 ∧ c.getP 0 = 0xFFFFFFFFFFFFFFFF ∧ c.setG 0 x = c ∧ c.setP 0 x = c ∧
    (∀ d e : BitVec 5, d ≠ 0 → (c.setG d x).getG e = if e = d then x else c.getG e) ∧
    (∀ d e : BitVec 3, d ≠ 0 → (c.setP d x).getP e = if e = d then x else c.getP e)

/-! ### Branches, memory, and exceptions (R36 to R40, R48 to R53, R70 to R75) -/

/-- R74: a conditional branch whose condition holds continues at its own address plus 4 × offset16, the offset signed; one whose condition
does not hold continues at the next instruction. Nothing else changes. A keeper core's `bpany` and `bpnone` name p0 only (R87). -/
def Obligations.BranchResults : Prop :=
  ∀ (s : State) (k : Nat) (off : BitVec 16) (target : Nat), (target : Int) = (s.core k).pc.toNat + 4 * off.toInt →
    let goes (cond : Bool) (o : Host.Outcome State Fault Refusal) : Prop :=
      (cond = true → fetchable k target = true → o = .next (s.movedTo k id (BitVec.ofNat 18 target))) ∧
      (cond = false → s.hasNext k = true → o = .next (s.retired k id))
    (∀ a b : BitVec 5, s.executes k .base [a, b] [] = true →
      let x := (s.core k).getG a
      let y := (s.core k).getG b
      goes (decide (x = y)) (exec (.beq k a b off) s) ∧ goes (decide (x ≠ y)) (exec (.bne k a b off) s) ∧
      goes (decide (x.toInt < y.toInt)) (exec (.blt k a b off) s) ∧ goes (decide (y.toInt ≤ x.toInt)) (exec (.bge k a b off) s) ∧
      goes (decide (x.toNat < y.toNat)) (exec (.bltu k a b off) s) ∧ goes (decide (y.toNat ≤ x.toNat)) (exec (.bgeu k a b off) s)) ∧
    (∀ p : BitVec 3, s.executes k .base [] [] = true → engineKind k ≠ .keeper ∨ p = 0 →
      let x := (s.core k).getP p
      goes (decide (∃ n : Fin 64, x.getLsbD n = true)) (exec (.bpany k p off) s) ∧
      goes (decide (∀ n : Fin 64, x.getLsbD n = false)) (exec (.bpnone k p off) s))

/-- R75: `call` and `callr` write the address of the next instruction into `gd` and continue at the target, which `callr` computes from
`ga` as it was before. A target that is not a multiple of 4 or lies outside the fetch range takes FETCH_FAULT there, the link written:
`STC_FAULT_ADDR` holds bits [47:0] of the target and `STC_EPC` bits [17:2]. -/
def Obligations.CallResults : Prop :=
  ∀ (s : State) (k : Nat) (d : BitVec 5) (target : Nat) (o : Host.Outcome State Fault Refusal),
    (s.executes k .base [] [] = true ∧ (∃ index : BitVec 16, target = 4 * index.toNat ∧ o = exec (.call k d index) s)) ∨
    (∃ (a : BitVec 5) (imm : BitVec 16), s.executes k .base [a] [] = true ∧
      target = ((s.core k).getG a + imm.signExtend 64).toNat ∧ o = exec (.callr k d a imm) s) →
    let link := Core.putG d ((s.core k).pc.zeroExtend 64 + 4)
    (target % 4 = 0 ∧ target < fetchLimit k → o = .next (s.movedTo k link (BitVec.ofNat 18 target))) ∧
    (target % 4 ≠ 0 ∨ fetchLimit k ≤ target → s.mayEnter k 2 = true →
      o = .next (((s.fetched k).modCore k link).inHandler k 2 (BitVec.ofNat 32 (target / 4 % 65536 * 4)) (BitVec.ofNat 48 target)))

/-- R36 and R70: a load from the engine's own memory writes the bytes at ga + imm, low byte first, zero- or sign-extended into `gd`, or 64
of them into `vd`; the engine goes on at the next instruction and nothing else changes but what a corrected error counts (R39): a read of a
cluster's memory that meets a single-bit error adds one to `STC_CL_ECC.CORRECTED`. -/
def Obligations.OwnLoadResults : Prop :=
  ∀ (s : State) (k : Nat) (d a : BitVec 5) (imm : BitVec 16) (key : Nat), s.hasNext k = true →
    let at_ := ((s.core k).getG a + imm.signExtend 64).toNat
    let x (n : Nat) := ofLe (s.bytes key n)
    let good (n : Nat) : Prop := at_ % n = 0 ∧ reachOf k at_ n = .own key ∧ s.touchesDamage key n = false
    let gives (n : Nat) (v : Word64) : Host.Outcome State Fault Refusal := .next (((s.fetched k).correct key n).goesOn k (Core.putG d v))
    (s.executes k .base [a] [] = true →
      (good 1 → exec (.ldB k d a imm) s = gives 1 (BitVec.ofNat 64 (x 1)) ∧ exec (.ldBs k d a imm) s = gives 1 ((BitVec.ofNat 8 (x 1)).signExtend 64)) ∧
      (good 2 → exec (.ldH k d a imm) s = gives 2 (BitVec.ofNat 64 (x 2)) ∧ exec (.ldHs k d a imm) s = gives 2 ((BitVec.ofNat 16 (x 2)).signExtend 64)) ∧
      (good 4 → exec (.ldW k d a imm) s = gives 4 (BitVec.ofNat 64 (x 4)) ∧ exec (.ldWs k d a imm) s = gives 4 ((BitVec.ofNat 32 (x 4)).signExtend 64)) ∧
      (good 8 → exec (.ldD k d a imm) s = gives 8 (BitVec.ofNat 64 (x 8)))) ∧
    (s.executes k .vector [a] [] = true → good 64 →
      exec (.vld k d a imm) s = .next (((s.fetched k).correct key 64).goesOn k (Core.putV d (BitVec.ofNat 512 (x 64))))) ∧
    (∀ n, s.touchesWeak key n = false → s.correct key n = s) ∧
    (∀ n c, s.touchesWeak key n = true → 2 ^ 35 * s.lpdChannels ≤ key → sramBase ≤ key → key < sramBase + 0xB800000 → sramCluster (key - sramBase) = some c →
      let t := s.correct key n
      t.reg (rStcClEcc c) % 2 ^ 16 = min 0xFFFF (s.reg (rStcClEcc c) % 2 ^ 16 + 1) ∧ t.reg (rStcClEcc c) / 2 ^ 16 = s.reg (rStcClEcc c) / 2 ^ 16 ∧
        ∀ r, r ≠ rStcClEcc c → t.reg r = s.reg r)

/-- R70 and R71: a store to the engine's own memory puts the low bytes of `gd`, or the 64 bytes of `vd`, at ga + imm, and `vst.m` those
lanes of `vd` at ga whose predicate bit is 1. Every other byte of memory reads as before, every register of every engine keeps its value,
and the engine goes on at the next instruction. A single-bit error that the fetch or a merging store meets is corrected and counted (R39). -/
def Obligations.OwnStoreResults : Prop :=
  ∀ (s : State) (k : Nat) (d a : BitVec 5) (imm : BitVec 16) (p : BitVec 3) (key : Nat), s.hasNext k = true →
    let c := s.core k
    let base := (c.getG a + imm.signExtend 64).toNat
    let good (at_ n : Nat) : Prop := at_ % n = 0 ∧ reachOf k at_ n = .own key ∧ inRom k key = false ∧ s.mergesDamage key (List.replicate n true) = false
    let stores (n : Nat) (v : Nat → Byte) (en : Nat → Bool) (o : Host.Outcome State Fault Refusal) : Prop :=
      ∃ t : State, o = .next t ∧ t.cores = (s.retired k id).cores ∧ t.regs = ((s.fetched k).correctMerge key ((List.range n).map en)).regs ∧
        t.units = s.units ∧
        ∀ x, t.byte x = if key ≤ x ∧ x < key + n ∧ en (x - key) = true then v (x - key) else s.byte x
    let gByte (i : Nat) : Byte := (c.getG d).extractLsb' (8 * i) 8
    let vByte (i : Nat) : Byte := (c.getV d).extractLsb' (8 * i) 8
    (s.executes k .base [d, a] [] = true →
      (good base 1 → stores 1 gByte (fun _ => true) (exec (.stB k d a imm) s)) ∧ (good base 2 → stores 2 gByte (fun _ => true) (exec (.stH k d a imm) s)) ∧
      (good base 4 → stores 4 gByte (fun _ => true) (exec (.stW k d a imm) s)) ∧ (good base 8 → stores 8 gByte (fun _ => true) (exec (.stD k d a imm) s))) ∧
    (s.executes k .vector [a] [d] = true →
      (good base 64 → stores 64 vByte (fun _ => true) (exec (.vst k d a imm) s)) ∧
      ((c.getG a).toNat % 64 = 0 → reachOf k (c.getG a).toNat 64 = .own key → inRom k key = false →
        s.mergesDamage key ((List.range 64).map (c.getP p).getLsbD) = false →
        stores 64 vByte (c.getP p).getLsbD (exec (.vstM k d a p) s)) ∧
      (c.getP p = 0 → exec (.vstM k d a p) s = .next (s.retired k id)))

/-- R73: an atomic operation on a word of the engine's own memory stores the new word there and gives `gd` the old one; `atom.cas` stores
only where the old word equals `gd`. Every other byte reads as before. -/
def Obligations.OwnAtomicResults : Prop :=
  ∀ (s : State) (k : Nat) (d a b : BitVec 5) (key : Nat), s.hasNext k = true →
    let c := s.core k
    c.getG a % 8 = 0 → reachOf k (c.getG a).toNat 8 = .own key → inRom k key = false → s.touchesDamage key 8 = false →
    let old : Word64 := BitVec.ofNat 64 (ofLe (s.bytes key 8))
    let swaps (new : Word64) (o : Host.Outcome State Fault Refusal) : Prop :=
      ∃ t : State, o = .next t ∧ t.cores = (s.retired k (Core.putG d old)).cores ∧ t.regs = ((s.fetched k).correct key 8).regs ∧
        ∀ x, t.byte x = if key ≤ x ∧ x < key + 8 then new.extractLsb' (8 * (x - key)) 8 else s.byte x
    (s.executes k .base [a, b] [] = true →
      swaps (old + c.getG b) (exec (.atomAdd k d a b) s) ∧ swaps (c.getG b) (exec (.atomSwap k d a b) s)) ∧
    (s.executes k .base [d, a, b] [] = true → swaps (if old = c.getG d then c.getG b else old) (exec (.atomCas k d a b) s))

/-- R37: a load, store or atomic operation at an address that is not a multiple of its size takes MISALIGNED with that address, and
performs no part of the access: after the fetch nothing but the engine's pc and exception registers changes. -/
def Obligations.MisalignedAccess : Prop :=
  ∀ (s : State) (k : Nat) (d a b : BitVec 5) (imm : BitVec 16) (p : BitVec 3), s.mayEnter k 3 = true →
    let c := s.core k
    let base := (c.getG a + imm.signExtend 64).toNat
    let traps (at_ : Nat) (o : Host.Outcome State Fault Refusal) : Prop :=
      o = .next ((s.fetched k).inHandler k 3 (BitVec.ofNat 32 (c.pc.toNat / 4 * 4)) (BitVec.ofNat 48 at_))
    (s.executes k .base [a] [] = true →
      (base % 2 ≠ 0 → traps base (exec (.ldH k d a imm) s) ∧ traps base (exec (.ldHs k d a imm) s)) ∧
      (base % 4 ≠ 0 → traps base (exec (.ldW k d a imm) s) ∧ traps base (exec (.ldWs k d a imm) s)) ∧
      (base % 8 ≠ 0 → traps base (exec (.ldD k d a imm) s))) ∧
    (s.executes k .base [d, a] [] = true →
      (base % 2 ≠ 0 → traps base (exec (.stH k d a imm) s)) ∧ (base % 4 ≠ 0 → traps base (exec (.stW k d a imm) s)) ∧
      (base % 8 ≠ 0 → traps base (exec (.stD k d a imm) s))) ∧
    (s.executes k .vector [a] [] = true → base % 64 ≠ 0 → traps base (exec (.vld k d a imm) s)) ∧
    (s.executes k .vector [a] [d] = true →
      (base % 64 ≠ 0 → traps base (exec (.vst k d a imm) s)) ∧
      ((c.getG a).toNat % 64 ≠ 0 → c.getP p ≠ 0 → traps (c.getG a).toNat (exec (.vstM k d a p) s))) ∧
    ((c.getG a).toNat % 8 ≠ 0 →
      (s.executes k .base [a, b] [] = true →
        traps (c.getG a).toNat (exec (.atomAdd k d a b) s) ∧ traps (c.getG a).toNat (exec (.atomSwap k d a b) s)) ∧
      (s.executes k .base [d, a, b] [] = true → traps (c.getG a).toNat (exec (.atomCas k d a b) s)))

/-- R51: on entry to an exception or interrupt the engine writes `STC_EPC`, `STC_CAUSE` and `STC_FAULT_ADDR`, sets `IN_EXC` and clears `IE`;
its general, vector and predicate registers keep their values. `resume` clears `IN_EXC`, sets `IE` and continues at `STC_EPC`. Entry goes
to `STC_VBASE` + 16 × the cause (R48). -/
def Obligations.ExceptionEntryAndReturn : Prop :=
  (∀ (s : State) (k cause epc fault : Nat), cause < 16 → (s.core k).inExc = false → (s.core k).vbase.toNat + 16 * cause < fetchLimit k →
    (∀ j m since, j / 8 = k / 8 → j ≠ k → (s.core j).waiting = .cbar m since → s.hasNext j = true) →
    let c := s.core k
    let t := s.takeException k cause epc fault
    let h := t.core k
    h.epc.toNat = epc % 0x40000 / 4 * 4 ∧ h.cause.toNat = cause ∧ h.faultAddr.toNat = fault % 2 ^ 48 ∧ h.inExc = true ∧ h.ie = false ∧
    h.g = c.g ∧ h.v = c.v ∧ h.p = c.p ∧ h.pc.toNat = c.vbase.toNat + 16 * cause ∧ (s.noBarrier k = true → s.onlyEngine k t)) ∧
  (∀ (s : State) (k : Nat), s.executes k .base [] [] = true → (s.core k).inExc = true → fetchable k (s.core k).epc.toNat = true →
    ∃ t : State, exec (.resume k) s = .next t ∧ s.onlyCore k t ∧
      let h := t.core k
      h.inExc = false ∧ h.ie = true ∧ h.pc.toNat = (s.core k).epc.toNat ∧ h.g = (s.core k).g ∧ h.v = (s.core k).v ∧ h.p = (s.core k).p)

/-- R49, R52, R66, R84 and R87: `trap` takes TRAP with its operand; an engine takes INTERRUPT at a boundary where an unmasked source is
pending, `IE` is set and `IN_EXC` clear, unless its watchdog expires there; a word that is not assigned, and every instruction that the engine's subset lacks, takes
ILLEGAL_INSTRUCTION. Each entry holds the address of the instruction that was not executed. -/
def Obligations.TrapsAndInterrupts : Prop :=
  ∀ (s : State) (k : Nat),
    let c := s.core k
    let here : Word32 := BitVec.ofNat 32 (c.pc.toNat / 4 * 4)
    (∀ imm : BitVec 12, s.executes k .base [] [] = true → s.mayEnter k 8 = true →
      exec (.trap k imm) s = .next ((s.fetched k).inHandler k 8 here (imm.zeroExtend 48))) ∧
    (c.run = .running → c.waiting = .issuing → c.irqPend &&& c.irqMask ≠ 0 → c.ie = true → s.wdogDue k = false → s.mayEnter k 15 = true →
      exec (.interruptEntry k) s = .next (s.inHandler k 15 here 0)) ∧
    (s.mayEnter k 1 = true →
      (∀ w : Word32, s.executes k .base [] [] = true → decodeWord k w = none ∨ lacks k (wordGroup w) = true →
        exec (.illegalInstruction k w) s = .next ((s.fetched k).inHandler k 1 here 0)) ∧
      (∀ (i : Instr) (f : EngineForm), engineForm i = some f → f.engine = k → s.issues k f.gs f.vs = true → s.fetchDamaged k = false →
        lacks k f.group = true → exec i s = .next ((s.fetched k).inHandler k 1 here 0)) ∧
      (s.executes k .base [] [] = true → c.inExc = false → exec (.resume k) s = .next ((s.fetched k).inHandler k 1 here 0)))

/-- An instruction of an engine that does not issue, or that reads a register a load or an `enq` has still to write, changes nothing
(R40, R82, R590). -/
def Obligations.InstructionsWaitToIssue : Prop :=
  ∀ (i : Instr) (f : EngineForm) (s : State), engineForm i = some f → s.issues f.engine f.gs f.vs = false → exec i s = .next s

/-! ### Waiting, enqueueing and control registers (R42 to R58, R81 to R85) -/

/-- R42, R43, R45, R52, R83 and R85: an engine at a fence, a barrier, `wait` or `wne` goes on once what it waits for is there, and only
waits until then. A `cbar` without the core's own bit takes ILLEGAL_INSTRUCTION. A barrier completes for every core that waits at it with
the same mask once each core named there waits or is fenced; one that does not complete within `STC_BAR_TIMEOUT` µs takes
BARRIER_TIMEOUT. -/
def Obligations.FencesWaitsAndBarriers : Prop :=
  ∀ (s : State) (k : Nat), s.hasNext k = true →
    let c := s.core k
    let waits (w : Waiting) : Host.Outcome State Fault Refusal := .next ((s.fetched k).setCore k { c with waiting := w })
    let due : Prop := c.irqPend &&& c.irqMask ≠ 0
    let atBar (mask : BitVec 8) (j : Nat) : Prop := ∃ since, (s.core j).waiting = .cbar mask since
    (s.executes k .base [] [] = true →
      (c.storesDone = true → exec (.fenceW k) s = .next (s.retired k id)) ∧ (c.storesDone = false → exec (.fenceW k) s = waits .fenceW) ∧
      (c.stores = [] → c.loads = [] → exec (.fenceRw k) s = .next (s.retired k id)) ∧
      (c.stores ≠ [] ∨ c.loads ≠ [] → exec (.fenceRw k) s = waits .fenceRw) ∧
      (due → exec (.wait k) s = .next (s.retired k id)) ∧ (¬ due → exec (.wait k) s = waits .wait)) ∧
    (∀ mask : BitVec 8, s.executes k .cbar [] [] = true →
      (mask.getLsbD (k % 8) = false → s.mayEnter k 1 = true →
        exec (.cbar k mask) s = .next ((s.fetched k).inHandler k 1 (BitVec.ofNat 32 (c.pc.toNat / 4 * 4)) 0)) ∧
      (mask.getLsbD (k % 8) = true → c.stores ≠ [] ∨ c.loads ≠ [] → exec (.cbar k mask) s = waits (.cbarFence mask)) ∧
      (mask.getLsbD (k % 8) = true → c.stores = [] → c.loads = [] →
        (∀ n, n < 8 → mask.getLsbD n = true → n = k % 8 ∨ s.coreFenced (8 * (k / 8) + n) = true ∨ atBar mask (8 * (k / 8) + n)) →
        s.coreFenced k = false → (∀ j, j / 8 = k / 8 → atBar mask j → s.hasNext j = true) →
        ∃ t : State, exec (.cbar k mask) s = .next t ∧ t = { s.fetched k with cores := t.cores } ∧
          ∀ j, (j / 8 = k / 8 ∧ (j = k ∨ atBar mask j) → t.core j = { s.core j with pc := (s.core j).pc + 4, waiting := .issuing }) ∧
            (¬ (j / 8 = k / 8 ∧ (j = k ∨ atBar mask j)) → t.core j = s.core j)) ∧
      (mask.getLsbD (k % 8) = true → c.stores = [] → c.loads = [] →
        (∃ n, n < 8 ∧ mask.getLsbD n = true ∧ n ≠ k % 8 ∧ s.coreFenced (8 * (k / 8) + n) = false ∧ ¬ atBar mask (8 * (k / 8) + n)) →
        exec (.cbar k mask) s = waits (.cbar mask s.elapsed))) ∧
    (∀ (mask : BitVec 8) (since : Word64), c.waiting = .cbar mask since → c.barTimeout ≠ 0 →
      since.toNat + c.barTimeout.toNat * 1000 ≤ s.elapsed.toNat → c.inExc = false → c.vbase.toNat + 144 < fetchLimit k →
      (∀ j m t, j / 8 = k / 8 → j ≠ k → (s.core j).waiting ≠ .cbar m t) →
      exec (.barrierTimeout k) s = .next (s.inHandler k 9 (BitVec.ofNat 32 (c.pc.toNat / 4 * 4)) 0)) ∧
    (∀ (d a b : BitVec 5) (key : Nat), s.executes k .base [a, b] [] = true → (c.getG a).toNat % 8 = 0 →
      reachOf k (c.getG a).toNat 8 = .own key → s.touchesDamage key 8 = false →
      let word : Word64 := BitVec.ofNat 64 (ofLe (s.bytes key 8))
      (word ≠ c.getG b ∨ due → exec (.wne k d a b) s = .next (((s.fetched k).correct key 8).goesOn k (Core.putG d word))) ∧
      (word = c.getG b → ¬ due → exec (.wne k d a b) s =
        .next (((s.fetched k).correct key 8).setCore k { c with waiting := .wne d (c.getG a) (c.getG b) }))) ∧
    (∀ (d : BitVec 5) (at_ cmp : Word64) (key : Nat), c.waiting = .wne d at_ cmp → reachOf k at_.toNat 8 = .own key → s.touchesDamage key 8 = false →
      let word : Word64 := BitVec.ofNat 64 (ofLe (s.bytes key 8))
      (word ≠ cmp ∨ due → exec (.wneWake k) s = .next ((s.correct key 8).goesOn k fun c => { Core.putG d word c with waiting := .issuing })) ∧
      (word = cmp → ¬ due → exec (.wneWake k) s = .next s)) ∧
    (c.waiting = .wait → c.run = .running →
      (due → c.ie = false ∨ c.inExc = true → exec (.waitWake k) s = .next (s.goesOn k fun c => { c with waiting := .issuing })) ∧
      (due → c.ie = true → s.wdogDue k = false → s.mayEnter k 15 = true →
        exec (.waitWake k) s = .next (s.inHandler k 15 (BitVec.ofNat 32 ((c.pc.toNat + 4) / 4 * 4)) 0)) ∧
      (¬ due → exec (.waitWake k) s = .next s))

/-- R81, R82 and R99: `enq` sends the 64 bytes of `vs` to the queue that `gq` names and goes on, its status owed to `gd`; it decides
NO_UNIT (3) and NOT_PERMITTED (4) itself. The queue answers FENCED (2), QUEUE_FULL (1) or, with the command block appended under the next
sequence number, OK (0). The status then reaches `gd`. -/
def Obligations.EnqueueAndStatus : Prop :=
  ∀ (s : State) (k : Nat),
    let c := s.core k
    (∀ gd vs gq : BitVec 5, s.executes k .enq [gq] [vs] = true → s.hasNext k = true →
      let q := (c.getG gq).toNat
      let cls := q / 2 ^ 12 % 16
      let inst := q / 4 % 1024
      (c.storesDone = false → exec (.enq k gd vs gq) s = .next ((s.fetched k).setCore k { c with waiting := .enq gd vs gq })) ∧
      (c.storesDone = true →
        (2 ^ 16 ≤ q ∨ classUnits cls ≤ inst → exec (.enq k gd vs gq) s = .next (s.retired k (Core.putG gd 3))) ∧
        (q < 2 ^ 16 → inst < classUnits cls → mayCommand k cls = false → exec (.enq k gd vs gq) s = .next (s.retired k (Core.putG gd 4))) ∧
        (q < 2 ^ 16 → inst < classUnits cls → mayCommand k cls = true → exec (.enq k gd vs gq) s = .next (s.retired k fun c =>
          { c.claimG gd with enqs := (c.claimG gd).enqs ++ [{ gd := gd, cls := cls, inst := inst, queue := q % 4, block := c.getV vs, status := none }] })))) ∧
    (∀ (i : Nat) (e : EnqOwed), isEngine k = true → c.enqs[i]? = some e → e.status = none →
      (∀ j x, j < i → c.enqs[j]? = some x → x.status = none → ¬ (x.cls = e.cls ∧ x.inst = e.inst)) → e.queue < 4 →
      let old := (s.unit e.cls e.inst).queue e.queue
      let answered (st : Word64) (t : State) : Prop := t.core k = { c with enqs := c.enqs.set i { e with status := some st } }
      ∃ t : State, exec (.commandQueueArrival k i) s = .next t ∧ (∀ j, j ≠ k → t.core j = s.core j) ∧ t.mem = s.mem ∧
        (s.unitFenced e.cls e.inst = true → answered 2 t ∧ t.units = s.units ∧ t.regs = s.regs) ∧
        (s.unitFenced e.cls e.inst = false → queueDepth e.cls ≤ old.length → answered 1 t ∧ t.units = s.units ∧ t.regs = s.regs) ∧
        (s.unitFenced e.cls e.inst = false → old.length < queueDepth e.cls → answered 0 t ∧
          t.unit e.cls e.inst = (s.unit e.cls e.inst).setQueue e.queue
            (old ++ [{ seq := BitVec.ofNat 64 (s.reg64 (rSeq e.cls e.inst e.queue) + 1), block := e.block }]))) ∧
    (∀ (i : Nat) (e : EnqOwed) (v : Word64), c.enqs[i]? = some e → e.status = some v →
      exec (.enqStatusReturn k i) s = .next (s.setCore k (Core.setG e.gd v { c with enqs := c.enqs.eraseIdx i })))

/-- R46, R48, R84 and R85: `sysrd` writes the control register it names into `gd`, zero-extended; `syswr` writes the low 32 bits of `ga`
to the fields that are RW, clears what is W1C, and is discarded by an RO register; a number that names no register takes
ILLEGAL_INSTRUCTION. The `sysrd` of `STC_CAUSE` that first follows `resume` clears it. A kick of the watchdog restarts its count unless the
count has reached the limit (R55). -/
def Obligations.ControlRegisterAccess : Prop :=
  ∀ (s : State) (k : Nat) (d : BitVec 5), s.hasNext k = true →
    let c := s.core k
    let reads (n : BitVec 12) (v : Word64) : Prop := exec (.sysrd k d n) s = .next (s.retired k (Core.putG d v))
    let x : Word32 := (c.getG d).truncate 32
    let writes (n : BitVec 12) (f : Core → Core) : Prop := exec (.syswr k d n) s = .next (s.retired k f)
    (s.executes k .base [] [] = true →
      (k < 96 → reads 0 (BitVec.ofNat 64 (k % 8 + 8 * (k / 8) + if s.hlt.head then 128 else 0))) ∧
    reads 1 ((if c.ie then 1 else 0) + (if c.inExc then 2 else 0)) ∧ reads 2 (c.epc.zeroExtend 64) ∧
    (c.causeArmed = false → reads 3 (c.cause.zeroExtend 64)) ∧
    (c.causeArmed = true → exec (.sysrd k d 3) s = .next (s.retired k fun c => { Core.putG d (c.cause.zeroExtend 64) c with cause := 0, causeArmed := false })) ∧
    reads 6 (c.vbase.zeroExtend 64) ∧ reads 7 (c.irqPend.zeroExtend 64) ∧ reads 8 (c.irqMask.zeroExtend 64) ∧
    reads 9 (c.wdogLimit.zeroExtend 64) ∧ reads 10 0 ∧ reads 15 (c.barTimeout.zeroExtend 64)) ∧
    (s.executes k .base [d] [] = true →
    writes 1 (fun c => { c with ie := x.getLsbD 0 }) ∧ writes 2 (fun c => { c with epc := x &&& 0x3FFFC }) ∧
    writes 6 (fun c => { c with vbase := x &&& 0x3FF00 }) ∧ writes 7 (fun c => { c with irqPend := c.irqPend &&& ~~~ x }) ∧
    writes 8 (fun c => { c with irqMask := x &&& 0x7FFFF }) ∧
    writes 9 (fun c => { c with wdogLimit := x.truncate 16, wdogStart := s.elapsed, wdogWarned := false }) ∧
    (s.wdogDue k = false → writes 10 (fun c => { c with wdogStart := s.elapsed, wdogWarned := false })) ∧ (s.wdogDue k = true → writes 10 id) ∧
    writes 15 (fun c => { c with barTimeout := x.truncate 16 }) ∧
    (∀ n ∈ ([0, 3, 4, 5, 13, 14] : List (BitVec 12)), writes n id)) ∧
    (∀ n : BitVec 12, 16 ≤ n.toNat → s.mayEnter k 1 = true →
      (s.executes k .base [] [] = true → exec (.sysrd k d n) s = .next ((s.fetched k).inHandler k 1 (BitVec.ofNat 32 (c.pc.toNat / 4 * 4)) 0)) ∧
      (s.executes k .base [d] [] = true → exec (.syswr k d n) s = .next ((s.fetched k).inHandler k 1 (BitVec.ofNat 32 (c.pc.toNat / 4 * 4)) 0)))

/-- R8 for the control registers of two words: a read of the low half returns bits [31:0] and the read of the high half that the same engine
makes next returns bits [63:32] of that same value; a write of the high half puts both halves into effect. -/
def Obligations.WideControlRegisters : Prop :=
  ∀ (s : State) (k : Nat) (d e : BitVec 5) (lo hi : BitVec 12) (v : Nat),
    (lo = 4 ∧ hi = 5 ∧ v = (s.core k).faultAddr.toNat) ∨ (lo = 11 ∧ hi = 12 ∧ v = (s.core k).timerCmp.toNat) ∨ (lo = 13 ∧ hi = 14 ∧ v = s.coreReg k 13) →
    s.hasNext k = true →
    (s.executes k .base [] [] = true → ∃ t : State, exec (.sysrd k d lo) s = .next t ∧ t.cores = (s.retired k (Core.putG d (BitVec.ofNat 64 (v % 2 ^ 32)))).cores ∧
      ∀ u : State, u.shadows = t.shadows → u.executes k .base [] [] = true → u.hasNext k = true →
        exec (.sysrd k e hi) u = .next (u.retired k (Core.putG e (BitVec.ofNat 64 (v / 2 ^ 32 % 2 ^ 32))))) ∧
    (s.executes k .base [d] [] = true → ∃ t : State, exec (.syswr k d 11) s = .next t ∧ t.cores = (s.retired k id).cores ∧
      ∀ u : State, u.holds = t.holds → u.executes k .base [e] [] = true → u.hasNext k = true →
        exec (.syswr k e 12) u = .next (u.retired k fun c =>
          { c with timerCmp := ((c.getG e).truncate 32 : Word32) ++ ((s.core k).getG d).truncate 32 }))

/-- R49, R50, R58 and R590: data that returns for a load goes to the load's register, and an engine that the load held goes on; an error
takes LOAD_BUS_ERROR at the load. A store's good response is taken off what is owed; an error response takes STORE_BUS_ERROR at the next
instruction, with the addresses that failed captured (R61). A response of the head host becomes the load's data. -/
def Obligations.ResponsesToLoadsAndStores : Prop :=
  ∀ (s : State) (k i : Nat),
    let c := s.core k
    let without : Core := { c with loads := c.loads.eraseIdx i }
    let paid : Core := { c with stores := c.stores.eraseIdx i }
    (∀ (l : Load) (v : Vec), c.loads[i]? = some l → l.result = .data v →
      (c.waiting = .loadHeld → i + 1 = c.loads.length → s.hasNext k = true →
        exec (.loadDataReturn k i) s = .next (s.setCore k { without.takeLoad l v with pc := c.pc + 4, waiting := .issuing })) ∧
      (c.waiting = .issuing → c.run = .running → exec (.loadDataReturn k i) s = .next (s.setCore k (without.takeLoad l v)))) ∧
    (∀ (l : Load) (kind : BusKind), c.loads[i]? = some l → l.result = .error kind → c.waiting = .loadHeld → i + 1 = c.loads.length →
      s.mayEnter k 4 = true → exec (.loadDataReturn k i) s = .next (((s.setCore k without).busError kind k l.addr.toNat).inHandler k 4
        (BitVec.ofNat 32 (c.pc.toNat / 4 * 4)) (l.addr.truncate 48))) ∧
    (∀ (o : Owed) (kind : BusKind), c.stores[i]? = some o → o.error = some kind → c.waiting ≠ .loadHeld → c.run = .running →
      s.mayEnter k 5 = true → exec (.storeErrorResponse k i) s = .next ((o.failed.foldl (fun t a => t.busError kind k a) (s.setCore k paid)).inHandler k 5
        (BitVec.ofNat 32 (c.pc.toNat / 4 * 4)) (o.addr.truncate 48))) ∧
    (∀ o : Owed, c.stores[i]? = some o → o.error = none → o.held = [] → c.run = .running →
      (c.waiting = .issuing → exec (.writeResponseReturn k i) s = .next (s.setCore k paid)) ∧
      (c.waiting = .fenceW → paid.storesDone = true → s.hasNext k = true →
        exec (.writeResponseReturn k i) s = .next (s.setCore k { paid with pc := c.pc + 4, waiting := .issuing }))) ∧
    (∀ (l : Load) (bs : List Byte), c.loads[i]? = some l → l.result = .host → (∀ p ∈ hostPages l.addr.toNat l.size, p ∉ s.ep.atsWaiting) →
      s.ep.invals = [] → exec (.hostReadCompletion k i (some bs) false) s =
        .next (s.setCore k { c with loads := c.loads.set i { l with result := .data (BitVec.ofNat 512 (ofLe (bs.take l.size))) } }))

/-- R54: the watchdog warns at half its limit and takes WATCHDOG at the limit, counting again from there. R46: `TIMER` is set while
`SYS_ELAPSED` has reached `STC_TIMER_CMP`. -/
def Obligations.WatchdogAndTimer : Prop :=
  ∀ (s : State) (k : Nat),
    let c := s.core k
    let limit := c.wdogLimit.toNat
    let reached (us : Nat) : Prop := c.wdogStart.toNat + us * 1000 ≤ s.elapsed.toNat
    (c.run = .running → limit ≠ 0 →
      (c.wdogWarned = false → reached (if limit / 2 = 0 then limit else limit / 2) →
        exec (.watchdogWarn k) s = .next (s.setCore k { c with wdogWarned := true, irqPend := c.irqPend ||| 0x10000 })) ∧
      (c.waiting ≠ .loadHeld → reached limit → s.mayEnter k 7 = true → c.wdogWarned = true → ∃ t : State, exec (.watchdogExpiry k) s = .next t ∧
        t.core k = ((s.setCore k { c with wdogStart := s.elapsed, wdogWarned := false }).inHandler k 7 (BitVec.ofNat 32 (c.pc.toNat / 4 * 4)) 0).core k ∧
        (k < 96 → t.regs = (s.setRegBit (rStcClFault (k / 8)) (8 + k % 8)).regs) ∧ (∀ j, j ≠ k → t.core j = s.core j))) ∧
    (isEngine k = true →
      (c.timerCmp.toNat ≤ s.elapsed.toNat → exec (.timerMatch k) s = .next (s.setCore k { c with irqPend := c.irqPend ||| 0x40000 })) ∧
      (s.elapsed.toNat < c.timerCmp.toNat → exec (.timerMatch k) s = .next s))

/-- R56 to R58: a write of 1 to a `RUN` bit starts the core from offset 0 with its control registers at reset values and its general,
vector and predicate registers kept; a write of 0 stops it, at once where nothing is outstanding and else when the last access has
completed. A doorbell sets `DOORBELL` of each core rung that is not fenced. -/
def Obligations.StartsStopsAndDoorbells : Prop :=
  (∀ (s : State) (k : Nat), k < 96 →
    let c := s.core k
    (s.coreFenced k = true ∨ s.regBit (rStcClCtl (k / 8)) (k % 8) = true → exec (.runCore k) s = .next s) ∧
    (s.coreFenced k = false → s.regBit (rStcClCtl (k / 8)) (k % 8) = false → c.run = .stopped → ∃ t : State, exec (.runCore k) s = .next t ∧
      (∀ j, j ≠ k → t.core j = s.core j) ∧ t.regs = (s.setRegBit (rStcClCtl (k / 8)) (k % 8)).regs ∧
      let r := t.core k
      r.run = .running ∧ r.pc = 0 ∧ r.g = c.g ∧ r.v = c.v ∧ r.p = c.p ∧ r.enqs = c.enqs ∧ r.ie = false ∧ r.inExc = false ∧ r.epc = 0 ∧
      r.cause = 0 ∧ r.faultAddr = 0 ∧ r.vbase = 0 ∧ r.irqPend = 0 ∧ r.irqMask = 0 ∧ r.wdogLimit = 0 ∧ r.timerCmp = 0xFFFFFFFFFFFFFFFF ∧
      r.barTimeout = 0x3E8) ∧
    (s.regBit (rStcClCtl (k / 8)) (k % 8) = true → c.run = .running → ∃ t : State, exec (.stopCore k) s = .next t ∧
      (∀ j, j ≠ k → t.core j = s.core j) ∧ t.regs = (s.clearRegBit (rStcClCtl (k / 8)) (k % 8)).regs ∧
      (c.loads = [] → c.stores = [] → t.core k = { c with run := .stopped, waiting := .issuing }) ∧
      (c.loads ≠ [] ∨ c.stores ≠ [] → t.core k = { c with run := .stopping false, waiting := .issuing })) ∧
    (c.run = .stopping false → c.loads = [] → c.stores = [] → exec (.coreStopComplete k) s = .next (s.setCore k { c with run := .stopped }))) ∧
  (∀ (s : State) (cl : Nat) (ring : BitVec 8), cl < 12 → ∃ t : State, exec (.ringDoorbell cl ring) s = .next t ∧ t = { s with cores := t.cores } ∧
    ∀ j, t.core j = if j / 8 = cl ∧ ring.getLsbD (j % 8) = true ∧ s.coreFenced j = false
      then { s.core j with irqPend := (s.core j).irqPend ||| 0x20000 } else s.core j)

/-! ### Registers (R7 to R10, R482, R586) -/

/-- R8 for the registers of two words that commands reach: the low half's read returns bits [31:0] and leaves bits [63:32] of the same value
in the requester's read shadow, which the read of the high half returns; without the shadow's tag it returns the live high half. A low half
written is only held; the write of the high half puts both into effect. -/
def Obligations.WideRegisterHalves : Prop :=
  ∀ (s : State) (src a : Nat) (v w : Word32), isHalf false a = true → isHalf true (a + 4) = true → s.reachesRegs src = true →
    let x := s.live64 a
    (∃ t : State, exec (.readLowHalf src a) s = .next t ∧ t = { s with shadows := t.shadows, replies := t.replies } ∧
      t.replies = (s.replyTo src a (leBytes 4 (x % 2 ^ 32)) false).replies ∧
      ∀ u : State, u.shadows = t.shadows → u.reachesRegs src = true →
        exec (.readHighHalf src (a + 4)) u = .next (u.replyTo src (a + 4) (leBytes 4 (x / 2 ^ 32 % 2 ^ 32)) false)) ∧
    ((s.shadow src).tag ≠ a + 1 → exec (.readHighHalf src (a + 4)) s = .next (s.replyTo src (a + 4) (leBytes 4 (x / 2 ^ 32 % 2 ^ 32)) false)) ∧
    (∃ t : State, exec (.writeLowHalf src a v) s = .next t ∧ t = { s with holds := t.holds } ∧
      ∀ (u : State) (r : RegRow) (hi : Bool), u.holds = t.holds → u.reachesRegs src = true → regAt (a + 4) = some (r, hi) → u.mayWrite r.writer src = true →
        exec (.writeHighHalf src (a + 4) w) u = .next (u.write64 r a (v.toNat + 2 ^ 32 * w.toNat))) ∧
    (∀ (r : RegRow) (hi : Bool), (s.hold src).tag ≠ a + 1 → regAt (a + 4) = some (r, hi) → s.mayWrite r.writer src = true →
      exec (.writeHighHalf src (a + 4) w) s = .next (s.write64 r a (x % 2 ^ 32 + 2 ^ 32 * w.toNat)))

/-- R7, R9, R10 and R586: an aligned write of 32 bits changes each bit as its access code says (RW takes the value, W1C is cleared by 1,
W1S is set by 1, the others stay) and nothing else; of the low half of a 64-bit register it is held (R8); it is discarded where no register
lies, from a requester the register does not take, and where it is not aligned. Part of a word is read as its bytes and never written. Writes of configuration space keep a BAR's read-only bits
(R482). -/
def Obligations.RegisterAccess : Prop :=
  ∀ (s : State) (src a : Nat) (v : Word32), a < configBase → s.reachesRegs src = true →
    (a % 4 ≠ 0 → exec (.registerWrite src a v) s = .next s) ∧
    (a % 4 = 0 → s.deepWrite src a v.toNat = none →
      (regAt a = none → exec (.registerWrite src a v) s = .next s) ∧
      (∀ r, regAt a = some (r, false) → r.wide = true → exec (.registerWrite src a v) s = .next (s.setHold src a v.toNat)) ∧
      (∀ r hi, regAt a = some (r, hi) → (r.wide = true → hi = true) → s.mayWrite r.writer src = false →
        exec (.registerWrite src a v) s = .next s) ∧
      (∀ r hi, regAt a = some (r, hi) → s.mayWrite r.writer src = true → r.wide = false → s.writeSpecial src a v.toNat = none →
        ∃ t : State, exec (.registerWrite src a v) s = .next t ∧ t = { s with regs := t.regs } ∧ (∀ b, b ≠ a → t.reg b = s.reg b) ∧
          ∀ n, n < 32 → (t.reg a).testBit n =
            if (halfOf hi r.w1s).testBit n && v.toNat.testBit n then true
            else if (halfOf hi r.w1c).testBit n && v.toNat.testBit n then false
            else if (halfOf hi r.rw).testBit n then v.toNat.testBit n else (s.reg a).testBit n)) ∧
    (∀ bs : List Byte, (∀ w, w % 4 = 0 → a ≤ w → a + bs.length < w + 4) → exec (.unalignedRegisterAccess src a bs.length (some bs)) s = .next s) ∧
    (∀ n, 0 < n → a % 4 + n ≤ 4 → exec (.unalignedRegisterAccess src a n none) s =
      .next ((s.readReg src (a / 4 * 4)).2.replyTo src a (slice (leBytes 4 (s.readReg src (a / 4 * 4)).1) (a % 4) n) false)) ∧
    (∀ i, i < 512 → ∃ t : State, exec (.trimBankWrite src i v) s = .next t ∧ t = { s with regs := t.regs, hlt := { s.hlt with trimWritten := true } } ∧
      t.reg (rTrimBank i) = v.toNat ∧ ∀ b, b ≠ rTrimBank i → t.reg b = s.reg b) ∧
    (s.ep.linkUp = true →
      (∃ t : State, exec (.registerWrite srcHost (configBase + 0x10) v) s = .next t ∧ t.configWord 0x10 = v.toNat / 2 ^ 28 * 2 ^ 28 + 4) ∧
      (∃ t : State, exec (.registerWrite srcHost (configBase + 0x18) v) s = .next t ∧ t.configWord 0x18 = v.toNat / 2 ^ 16 * 2 ^ 16 + 4))

/-- R30 and R31, and the fences of the chapters (R57 to R60, R113, R176, R221, R259, R281, R310, R411, R413): a fence by the governor or the
head host sets the unit's fence bit, nothing stays queued to it, what was queued ends with FENCED, and so does what it had in service without
an ending; contexts of coder lanes and cipher units are reset. A fenced core or sequencer runs no more, a fenced cluster's clock stops. After
any fence by the governor custody goes where the units left do not cover the smallest working set. Other requesters fence nothing. -/
def Obligations.Fencing : Prop :=
  ∀ (s : State) (src u : Nat),
    let orders := src = srcGovernor ∨ src = srcHost
    let fences (c : Instr) (cls : Nat) (more : State → Prop) : Prop :=
      (¬ orders → exec c s = .next s) ∧
      (orders → ∃ t : State, exec c s = .next (t.afterFence src) ∧ s.fencedUnit cls u t ∧ more t)
    let lanes (cls : Nat) (t : State) : Prop := ∀ q, q < 4 → Sparse.get CoderCtx.reset (4 * unitKey cls u + q) t.coderCtx = CoderCtx.reset
    (s.afterFence srcHost = s ∧ (s.holdsCustody = false ∨ s.workingSet = true → s.afterFence srcGovernor = s) ∧
      (s.holdsCustody = true → s.workingSet = false → s.afterFence srcGovernor = s.releaseCustody causeWorkingSet)) ∧
    (u < 1024 → fences (.dmaChFence src u) clsDma fun _ => True) ∧
    (u < 16 → (¬ orders → exec (.dmaEngFence src u) s = .next s) ∧
      (orders → ∃ t : State, exec (.dmaEngFence src u) s = .next (t.afterFence src) ∧ ∀ ch, ch < 64 → s.fencedUnit clsDma (64 * u + ch) t)) ∧
    (u < 32 → fences (.cmpLaneFence src u) clsCoder (lanes clsCoder)) ∧ (u < 48 → fences (.cmpDecFence src u) clsDecoder (lanes clsDecoder)) ∧
    (u < 32 → fences (.dgtUnitFence src u) clsDigest fun _ => True) ∧
    (u < 128 → fences (.cphUnitFence src u) clsCipher fun t =>
      ∀ j, j < 2 → Sparse.get CipherCtx.free (2 * u + j) t.cipherCtx = CipherCtx.free) ∧
    (u < 4 → fences (.catAssistFence src u) clsCatalogue fun _ => True) ∧ (u < 8 → fences (.parEngFence src u) clsParity fun _ => True) ∧
    (u < 8 → fences (.medSeqFence src u) clsSequencer fun t => (t.core (116 + u)).run = .dead) ∧
    (u < 96 → (¬ orders → exec (.coreFence src u) s = .next s) ∧
      (orders → ∃ t : State, t = (s.loseCores [u]).markFenced u ∧
        exec (.coreFence src u) s = .next (((t.afterCores s.supervisorCore).settleBarriers (u / 8)).afterFence src) ∧
        t.coreFenced u = true ∧ t.regBit (rStcClCtl (u / 8)) (u % 8) = false ∧ (t.core u).run = .dead ∧
        ∀ j, j ≠ u → t.core j = (s.loseCores [u]).core j)) ∧
    (u < 12 → (¬ orders → exec (.clusterFence src u) s = .next s) ∧
      (orders → ∃ t : State, exec (.clusterFence src u) s = .next ((t.afterCores s.supervisorCore).afterFence src) ∧ t.clusterFenced u = true ∧
        ∀ n, n < 8 → t.coreFenced (8 * u + n) = true ∧ (t.core (8 * u + n)).run = .dead ∧ (t.core (8 * u + n)).clockHeld ≠ none)) ∧
    (u < 4 → (¬ orders → exec (.cxlPortFence src u) s = .next s) ∧
      (orders → ∃ t : State, exec (.cxlPortFence src u) s = .next (t.afterFence src) ∧ t.regBit (rCxlPortFence u) 0 = true ∧
        t = ((s.dropNodes u).setRegBit (rCxlPortFence u) 0).dropTierOne u)) ∧
    (u < s.ethPorts → (¬ orders → exec (.ethPortFence src u) s = .next s) ∧
      (orders → ∃ t : State, exec (.ethPortFence src u) s = .next ((t.endConns fun q => q == u).afterFence src) ∧
        t.regBit (rEthPortFence u) 0 = true ∧ t = s.setRegBit (rEthPortFence u) 0)) ∧
    (u < 12 → (¬ orders → exec (.medBlkFence src u) s = .next s) ∧
      (orders → exec (.medBlkFence src u) s = .next ((s.fenceBlock u).afterFence src))) ∧
    (0 < u → u < 256 → (¬ orders → exec (.lpdFence src u) s = .next s) ∧
      (orders → ∃ t : State, exec (.lpdFence src u) s = .next (t.afterChannelFence src (s.holdsRegions u)) ∧ t.reg rLpdFence = s.reg rLpdFence ||| u ∧
        t.afterChannelFence srcHost (s.holdsRegions u) = t))

/-! ### Engine units (R29, R90 to R113 and the class chapters) -/

/-- R93 to R95 and R98: the command of a queue whose record is due, the oldest one once it has ended, is reported by a record of 32 bytes at its
COMPLETION_ADDR, holding its sequence number, tag, status, queue, bytes and detail, and leaves the unit; with IRQ the source it names becomes
pending at the engine it names; an address no record may have, or one that cannot be written, makes an orphan. A bus error ends the COPY or
FILL that a channel executes with BUS_ERROR and the bytes it had written (R107). A known-answer test runs on an idle unit, which takes no
command meanwhile; a unit that fails it is fenced (R457). That a test is two commands is the model's choice (log entry 154). -/
def Obligations.EngineRecordsAndErrors : Prop :=
  ∀ (s : State) (cls u q : Nat) (c : Cmd), u < classUnits cls →
    let a := completionAddr c.block
    let o := exec (.engineCommandComplete cls u q) s
    let record (status : Nat) : List Byte := leBytes 8 c.seq.toNat ++ leBytes 4 (tagOf c.block) ++ leBytes 2 status ++
      leBytes 2 (c.queue + 4 * u + 4096 * cls) ++ leBytes 8 c.bytes ++ leBytes 8 c.detail
    (∀ x : Cmd, (s.unit cls u).oldest q = some x →
      (x.stop = 0 → x.done = true → s.dueRecord cls u q = some (x, s)) ∧ (x.stop = 0 → x.done = false → s.dueRecord cls u q = none) ∧
      (x.stop ≠ 0 → x.done = true → s.dueRecord cls u q = some ({ x with status := x.stop, detail := endedDetail cls x }, s))) ∧
    (∀ (x : Cmd) (e : EngUnit), q ≤ 3 → s.nextCommand cls u = some (x, e) → opcodeAssigned cls (opcodeOf x.block) = false →
      let t := (s.setUnit cls u e).serve cls u (x.finish stBadCommand)
      o = .next ((t.reportNext cls u q).healAfter cls u q t)) ∧
    (∀ t : State, q ≤ 3 → (∀ x e, s.nextCommand cls u = some (x, e) → opcodeAssigned cls (opcodeOf x.block) = true) →
      s.headerMisses cls u q = [] → s.dueRecord cls u q = some (c, t) → (cls = clsCatalogue → c.status ≠ stNodeCorrupt) →
      let gone := t.modUnit cls u (EngUnit.drop c)
      (goodCompletionAddr a = true → t.writeFault a (List.replicate 32 true) = none →
        ∃ r : State, o = .next (r.afterRecord cls u c) ∧ r.unit cls u = (t.unit cls u).drop c ∧
          (∀ x, r.byte x = if a ≤ x ∧ x < a + 32 then (record c.status).getD (x - a) 0 else t.byte x) ∧
          (irqOf c.block = false → r.cores = t.cores) ∧
          (irqOf c.block = true → isEngine (notifyOf c.block) = true → ∀ j, r.core j = if j = notifyOf c.block
            then { t.core j with irqPend := (t.core j).irqPend ||| BitVec.ofNat 32 (2 ^ sourceOf c.block) } else t.core j)) ∧
      (goodCompletionAddr a = false → o = .next ((gone.orphan cls (record stBadCommand)).afterRecord cls u c)) ∧
      (∀ k, goodCompletionAddr a = true → t.writeFault a (List.replicate 32 true) = some k →
        o = .next (((gone.busError k (engineSource cls u) a).orphan cls (record stBusError)).afterRecord cls u c))) ∧
    (∀ kind addr : Nat, cls = clsDma → (s.unit cls u).service.find? Cmd.live = some c → opcodeOf c.block ≠ 3 → c.job = none →
      let p := (s.engineError cls u (busKindOf kind, addr)).transferPart u (opcodeOf c.block == 2) c.block
      becomes cls u { c.finish stBusError with bytes := p.1 } p.2 (exec (.engineBusError cls u kind addr) s)) ∧
    (testedClass cls = true → s.unitFenced cls u = false →
      (s.unitIdle cls u = true → (s.unit cls u).testing = false → ∀ pass, ∃ t : State, exec (.knownAnswerTest cls u pass) s = .next t ∧
        t = { s with units := t.units } ∧ t.unit cls u = { s.unit cls u with testing := true } ∧ t.nextCommand cls u = none) ∧
      ((s.unit cls u).testing = true → ∀ pass, ∃ t : State,
        t = { s with units := t.units, twn := { s.twn with katRun := s.twn.katRun + 1, katFailed := s.twn.katFailed + if pass then 0 else 1 } } ∧
        t.unit cls u = { s.unit cls u with testing := false } ∧
        exec (.knownAnswerTest cls u pass) s = .next (if pass then t else (t.fenceUnit cls u).afterFence srcGovernor)))

/-- R102 to R112: a DMA channel takes a COPY, FILL or CHAIN; bad operands end it with BAD_COMMAND, and else the transfer's status and bytes
become the command's when its accesses are made. A transfer of one access moves exactly its bytes. A chain goes on with the descriptor in
service, writes each ended descriptor's header and goes on to the next. An abort ends everything with ABORTED, or is done at once where there
is nothing to end. That a command is taken in one event and makes its accesses in the next is the model's choice (log entry 154). -/
def Obligations.DmaCommands : Prop :=
  ∀ (s : State) (u : Nat) (c : Cmd) (e : EngUnit), u < 1024 →
    let s1 := s.setUnit clsDma u e
    let b := c.block
    (∀ fill : Bool,
      let op := if fill then 2 else 1
      let o := if fill then exec (.dmaFill u) s else exec (.dmaCopy u) s
      (s.takes clsDma u op c e →
        ((badCommon b || badTransfer fill b) = true → serves clsDma u (c.finish stBadCommand) s1 o) ∧
        ((badCommon b || badTransfer fill b) = false → serves clsDma u c s1 o)) ∧
      (s.runs clsDma u op c →
        (transferMisses fill b s ≠ [] → o = .next (s.askTranslations (transferMisses fill b s))) ∧
        (transferMisses fill b s = [] →
          becomes clsDma u { c.finish (s.transfer u fill b).1 with bytes := (s.transfer u fill b).2.1 } (s.transfer u fill b).2.2 o))) ∧
    (bodyCnt1 b = 1 → bodyCnt2 b = 1 → bodyExpect b = bodyLen0 b → bodyDst b % 64 + bodyLen0 b ≤ 64 →
      s.route (bodyDst b) (bodyLen0 b) = .mem → s.writeFault (bodyDst b) (List.replicate (bodyLen0 b) true) = none →
      let moved (fill : Bool) (v : Nat → Byte) : Prop :=
        (s.transfer u fill b).1 = stOk ∧ (s.transfer u fill b).2.1 = bodyLen0 b ∧
        ∀ x, (s.transfer u fill b).2.2.byte x = if bodyDst b ≤ x ∧ x < bodyDst b + bodyLen0 b then v x else s.byte x
      (badBody true b = false → moved true fun x => BitVec.ofNat 8 (bodySrc b / 2 ^ (8 * (x % 8)))) ∧
      (badBody false b = false → bodySrc b % 64 + bodyLen0 b ≤ 64 → runOverlaps (bodyLen0 b) (bodySrc b, bodyDst b) = false →
        s.route (bodySrc b) (bodyLen0 b) = .mem → s.readFault (bodySrc b) (bodyLen0 b) = none → moved false fun x => s.byte (bodySrc b + (x - bodyDst b)))) ∧
    (s.takes clsDma u 3 c e →
      ((badCommon b || badChain b) = true → serves clsDma u (c.finish stBadCommand) s1 (exec (.dmaChain u) s)) ∧
      ((badCommon b || badChain b) = false → serves clsDma u c s1 (exec (.dmaChain u) s))) ∧
    (s.runs clsDma u 3 c → c.descEnd = none →
      (chainMisses c s = [] → c.desc = none →
        (∀ (bs : List Byte) (t : State), s.busRead (engineSource clsDma u) c.descAddr 64 = (none, bs, t) →
          let d : Vec := BitVec.ofNat 512 (ofLe bs)
          becomes clsDma u (if badDescriptor d then c.endDescriptor stBadCommand 0 else { c with desc := some d }) t (exec (.dmaChain u) s)) ∧
        (∀ (k : BusKind) (bs : List Byte) (t : State), s.busRead (engineSource clsDma u) c.descAddr 64 = (some k, bs, t) →
          becomes clsDma u (c.endDescriptor stBusError 0) (t.engineError clsDma u (k, c.descAddr)) (exec (.dmaChain u) s))) ∧
      (∀ d : Vec, chainMisses c s = [] → c.desc = some d →
        let r := s.transfer u (descFill d) d
        becomes clsDma u (c.endDescriptor r.1 r.2.1) r.2.2 (exec (.dmaChain u) s))) ∧
    (∀ st n : Nat, s.executing clsDma u 3 = some c → c.descEnd = some (st, n) → s.hostMisses c.descAddr 16 true = [] →
      ∃ (x : Cmd) (t : State), becomes clsDma u x t (exec (.descriptorComplete u) s) ∧ x.index = c.index + 1 ∧ x.bytes = c.bytes + n ∧
        x.desc = none ∧ x.descEnd = none ∧ (x.done = true ↔ c.done = true ∨ chainCount b ≤ c.index + 1) ∧
        (st ≠ stOk → x.bad = c.bad + 1 ∧ (c.bad = 0 → x.firstBad = c.index))) ∧
    ((s.unit clsDma u).abortable = 0 → s.reg (rDmaChAbortResult u) % 4 ≠ 1 → ∃ t : State, exec (.dmaChAbort u) s = .next t ∧
      t.reg (rDmaChAbortResult u) = 2 ∧ t = { s with regs := t.regs }) ∧
    ((s.unit clsDma u).abortable ≠ 0 → ∃ t : State, exec (.dmaChAbort u) s = .next t ∧ t.reg (rDmaChAbortResult u) % 4 = 1 ∧
      (t.unit clsDma u).queued = 0 ∧ (t.unit clsDma u).suspended = [] ∧ ∀ x ∈ (t.unit clsDma u).service, x.stop ≠ 0)

/-- R153 to R175: a coder lane takes an ENCODE or a DECODE into analysis, loads its context image and input, passes it on from stage to stage
while the next is free, verifies what it coded and releases it; a decoder lane takes a DECODE, loads its image and decodes it from the context it
starts with: the whole output is written, and the command ends OK with its length or with the status that decoding gave. Bad operands end the
command with BAD_COMMAND, a failed load or read with its status. -/
def Obligations.LaneCommands : Prop :=
  (∀ (s : State) (cls u op : Nat) (c : Cmd) (e : EngUnit), (cls = clsCoder ∧ u < 32 ∧ (op = 1 ∨ op = 2)) ∨ (cls = clsDecoder ∧ u < 48 ∧ op = 2) →
      let b := c.block
      let bad := badCommon b || if op = 1 then badEncode b else badDecode b
      let o := if op = 1 then exec (.cmpEncode u) s else exec (.cmpDecode cls u) s
      (cls = clsDecoder → s.decoding u = none) →
      (s.takes cls u op c e →
        (bad = true → serves cls u (c.finish stBadCommand) (s.setUnit cls u e) o) ∧
        (bad = false → serves cls u { c with job := some LaneJob.start } (s.setUnit cls u e) o)) ∧
      (∀ j : LaneJob, s.takesNext cls u op = false → s.awaitingReads cls u op = some (c, j) →
        (op = 1 → s.spanMisses (laneSrc b) (laneSrcLen b) false = []) →
        (∃ (x : LaneJob) (t : State), becomes cls u { c with job := some x } t o ∧ x.ready = true ∧ x.stage = j.stage ∧
          (op = 1 → loadCtxOf b = false → j.failed = 0 → ∀ (bs : List Byte) (r : State),
            s.readSpan (engineSource cls u) (laneSrc b) (laneSrcLen b) = (none, bs, r) → x = { j with input := bs, ready := true } ∧ t = r) ∧
          (op = 2 → loadCtxOf b = false → x = { j with ready := true } ∧ t = s))) ∧
      (∀ j : LaneJob, cls = clsCoder →
        let finishes (stage : Nat) (sound : Bool) (t : State) : Prop := exec (.coderStageComplete u stage sound) s = .next t
        (s.inStage u 0 = some (c, j) → ∀ sound,
          (j.ready = false → finishes 0 sound s) ∧
          (j.ready = true → j.failed ≠ 0 → finishes 0 sound (s.endLane clsCoder u (c.finish j.failed) j)) ∧
          (j.ready = true → j.failed = 0 → (s.inStage u 1).isSome = true → finishes 0 sound s) ∧
          (j.ready = true → j.failed = 0 → s.inStage u 1 = none →
            (isEncode b = false → finishes 0 sound (s.putCommand clsCoder u { c with job := some { j with stage := 1 } })) ∧
            (∀ ctx, isEncode b = true → s.startCtx clsCoder u c j = some ctx →
              finishes 0 sound (s.putCommand clsCoder u { c with job := some { codeJob b j ctx none with stage := 1 } })))) ∧
        (s.inStage u 1 = some (c, j) → ∀ sound,
          (s.inStage u 2 = none → finishes 1 sound (s.putCommand clsCoder u { c with job := some { j with stage := 2 } })) ∧
          ((s.inStage u 2).isSome = true → finishes 1 sound s)) ∧
        (s.inStage u 2 = some (c, j) → ∀ sound,
          ((s.inStage u 3).isSome = true → finishes 2 sound s) ∧
          (s.inStage u 3 = none →
            (isEncode b = false → finishes 2 sound (s.finishDecode clsCoder u c j)) ∧
            (isEncode b = true → j.verdict = none → ∃ (x : LaneJob) (t : State), finishes 2 sound (t.putCommand clsCoder u { c with job := some x }) ∧
              x = { j with verdict := some (sound && verifies j), stage := if saveCtxOf b then 2 else 3 } ∧ t = { s with regs := t.regs }) ∧
            (isEncode b = true → j.verdict.isSome = true → s.spanMisses (laneDst b) (laneSrcLen b + 24) true = [] → finishes 2 sound (s.release u c j)))) ∧
        (s.inStage u 3 = some (c, j) → s.spanMisses (laneDst b) (laneSrcLen b + 24) true = [] → ∀ sound, finishes 3 sound (s.release u c j)))) ∧
  ∀ (s : State) (u : Nat) (c : Cmd) (j : LaneJob), u < 48 → s.decoding u = some (c, j) →
    let o := exec (.cmpDecode clsDecoder u) s
    let b := c.block
    (j.failed ≠ 0 → o = .next (s.endLane clsDecoder u (c.finish j.failed) j)) ∧
    (∀ (ctx : CoderCtx) (bs : List Byte) (t : State), j.failed = 0 → s.startCtx clsDecoder u c j = some ctx → decodeMisses b s = [] →
      s.readSpan (engineSource clsDecoder u) (laneSrc b) (laneSrcLen b) = (none, bs, t) →
      let r := decodeFolio bs (laneSrcLen b) (laneLen2 b) ctx
      let w := t.writeSpan (engineSource clsDecoder u) (laneDst b) (decodeOutput b r)
      ∃ (x : Cmd) (v : State), o = .next (v.endLane clsDecoder u x { j with after := r.after }) ∧ x.bytes = w.2.1 ∧ x.done = true ∧
        (w.1 = none → r.status ≠ stOk → x.status = r.status) ∧ (w.1 = none → saveCtxOf b = false → x.status = r.status) ∧
        (w.1.isSome = true → x.status = stBusError))

/-- R206 to R219: a digest unit reads the source and writes SHAKE256 or KMAC256 of it, ends a keyed command of an empty slot with KEY_EMPTY and
one of bad operands with BAD_COMMAND, keeps the key it read when it took the command, and runs FINGERPRINT and VERIFY block by block. The
keeper loads and clears the slots. -/
def Obligations.DigestCommands : Prop :=
  ∀ (s : State) (u : Nat) (c : Cmd) (e : EngUnit), u < 32 →
    let s1 := s.setUnit clsDigest u e
    let b := c.block
    let src := engineSource clsDigest u
    let key := s.digestKey (dgtSlot b)
    let message (f : List Byte → List Byte) (o : Host.Outcome State Fault Refusal) : Prop :=
      messageMisses c s = [] → ∀ (m : List Byte) (s2 : State), s.readSpan src (dgtSrc b) (dgtSrcLen b) = (none, m, s2) →
        let s3 := s2.countMessage u m.length 0
        let w := s3.writeSpan src (dgtDst b) (f m)
        (s3.spanWriteFault (dgtDst b) (dgtOutLen b) = none → becomes clsDigest u { c.finish stOk with bytes := w.2.1 } (w.2.2.countMessage u 0 1) o) ∧
        (∀ err, s3.spanWriteFault (dgtDst b) (dgtOutLen b) = some err → becomes clsDigest u (c.finish stBusError) (s3.engineError clsDigest u err) o)
    let keyed (bad : Bool) (o : Host.Outcome State Fault Refusal) : Prop :=
      ((badCommon b || bad) = true → serves clsDigest u (c.finish stBadCommand) s1 o) ∧
      ((badCommon b || bad) = false → key = [] → serves clsDigest u (c.finish stKeyEmpty) s1 o) ∧
      ((badCommon b || bad) = false → key ≠ [] → serves clsDigest u { c with key := key } s1 o)
    (s.takes clsDigest u 1 c e →
      ((badCommon b || badShake b) = true → serves clsDigest u (c.finish stBadCommand) s1 (exec (.dgtShake256 u) s)) ∧
      ((badCommon b || badShake b) = false → serves clsDigest u c s1 (exec (.dgtShake256 u) s))) ∧
    (s.takes clsDigest u 2 c e → keyed (badKmac b) (exec (.dgtKmac256 u) s)) ∧
    (s.takes clsDigest u 3 c e → keyed (badBlocks false 64 b) (exec (.dgtFingerprint u) s)) ∧
    (∀ fm fn, s.takes clsDigest u 4 c e → keyed (badBlocks true 8 b) (exec (.dgtVerify u fm fn) s)) ∧
    (s.runs clsDigest u 1 c → message (shake256 (dgtOutLen b)) (exec (.dgtShake256 u) s)) ∧
    (s.runs clsDigest u 2 c → message (fun m => kmac256 c.key m (dgtOutLen b) (dgtS b)) (exec (.dgtKmac256 u) s)) ∧
    (s.runs clsDigest u 3 c → blockMisses false c s = [] →
      let r := s.fingerprintBlocks u (dgtCount b) 0 c
      becomes clsDigest u r.1 r.2 (exec (.dgtFingerprint u) s)) ∧
    (∀ fm fn, s.runs clsDigest u 4 c → blockMisses true c s = [] →
      let r := s.verifyBlocks u fm fn (dgtCount b) 0 c
      becomes clsDigest u r.1 r.2 (exec (.dgtVerify u fm fn) s)) ∧
    (∀ (slot : Nat) (k : List Byte), slot < 4160 →
      (k.length = 32 → ∃ t : State, exec (.digestSlotLoad slot (some k)) s = .next t ∧ t.digestKey slot = k ∧ ∀ j, j ≠ slot → t.digestKey j = s.digestKey j) ∧
      (∃ t : State, exec (.digestSlotLoad slot none) s = .next t ∧ t.digestKey slot = [] ∧ ∀ j, j ≠ slot → t.digestKey j = s.digestKey j))

/-- R240 to R261: a cipher unit judges a command and its slot when it takes it and keeps the key, then works through it block by block, after the
initial counter block of a CTR; at a block boundary a command of a lower queue gives way to queue 0 and resumes after it. The keeper loads,
retires and clears the slots, a data slot only once the owner secret is accepted (R258). -/
def Obligations.CipherCommands : Prop :=
  ∀ (s : State) (u : Nat), u < 128 →
    let run (op n : Nat) (s : State) : Host.Outcome State Fault Refusal :=
      match op with | 1 => exec (.cphEncrypt u n) s | 2 => exec (.cphDecrypt u n) s | _ => exec (.cphCtr u n) s
    (∀ (op : Nat) (c : Cmd) (e : EngUnit), 1 ≤ op → op ≤ 3 → s.cphCommand u = none → s.takes clsCipher u op c e →
      let s1 := s.setUnit clsCipher u e
      let slot := s.cslot (cphSlot c.block)
      let bad := badCommon c.block || badCipherOp op c.block
      (bad = true → serves clsCipher u (c.finish stBadCommand) s1 (run op 0 s)) ∧
      (bad = false → slot.refuse op (cphHalfB c.block) ≠ 0 → serves clsCipher u (c.finish (slot.refuse op (cphHalfB c.block))) s1 (run op 0 s)) ∧
      (bad = false → slot.refuse op (cphHalfB c.block) = 0 → serves clsCipher u c
        (s1.setCphCtx u 0 { halfA := slot.halfA, halfB := slot.halfB, counter := [], sinceResume := 0, resumed := false }) (run op 0 s))) ∧
    (∀ (op n : Nat) (c : Cmd), 1 ≤ op → op ≤ 3 → s.cphCommand u = some c → opcodeOf c.block = op → s.suspendDue u c = false →
      s.blockMissesOf u op c = [] →
      let t := if s.needsIcb u op then s.readIcb u c else if c.index = cphBlocks c.block then s.tagBlock u c else s.dataBlock u op c
      ((t.cphCommand u).isSome = true → run op (n + 1) s = run op n t) ∧ ((t.cphCommand u).isSome = false → run op (n + 1) s = .next t)) ∧
    (∀ c : Cmd, s.cphCommand u = some c → s.suspendDue u c = true → ∃ t : State, exec (.cipherSuspend u) s = .next t ∧
      (t.unit clsCipher u).service = (s.unit clsCipher u).service.drop 1 ∧
      (t.unit clsCipher u).suspended = [{ c with detail := if c.detail % 256 = 255 then c.detail else c.detail + 1 }] ∧
      t.cphCtx u 1 = s.cphCtx u 0 ∧ t.cphCtx u 0 = CipherCtx.free) ∧
    (s.resumeDue u = true → ∃ t : State, exec (.cipherResume u) s = .next t ∧ (t.unit clsCipher u).service = (s.unit clsCipher u).suspended ∧
      (t.unit clsCipher u).suspended = [] ∧ t.cphCtx u 0 = { s.cphCtx u 1 with sinceResume := 0, resumed := true } ∧ t.cphCtx u 1 = CipherCtx.free) ∧
    (∀ (slot : Nat), slot < 4096 →
      (∀ (a b : List Byte) (limit : Nat) (ro : Bool), goodHalves a b = true →
        (4032 ≤ slot ∨ s.kpr.owner = .accepted → ∃ t : State, exec (.keySlotLoad slot a b limit ro) s = .next t ∧
          t.cslot slot = { halfA := a, halfB := b, state := if ro then .readOnly else .loaded, use := 0, limit := limit % 2 ^ 48 } ∧
          ∀ j, j ≠ slot → t.cslot j = s.cslot j) ∧
        (slot < 4032 → s.kpr.owner ≠ .accepted → exec (.keySlotLoad slot a b limit ro) s = .next s)) ∧
      ((s.cslot slot).state ≠ .empty → ∃ t : State, exec (.keySlotRetire slot) s = .next t ∧ t.cslot slot = { s.cslot slot with state := .readOnly } ∧
        ∀ j, j ≠ slot → t.cslot j = s.cslot j) ∧
      (∃ t : State, exec (.keySlotClear slot) s = .next t ∧ t.cslot slot = CSlot.empty ∧ ∀ j, j ≠ slot → t.cslot j = s.cslot j))

/-- R275 to R281 and R306 to R310: a catalogue assist and a parity engine take a command of their opcodes; bad operands end it with
BAD_COMMAND. WALK and FIND end as their search stopped, PROBE and SCORE with what they computed from the bytes read; a parity command reads
its member table, refuses a bad one, and works line by line. -/
def Obligations.CatalogueAndParityCommands : Prop :=
  ∀ (s : State) (u : Nat) (c : Cmd) (e : EngUnit),
    let b := c.block
    let src := engineSource clsCatalogue u
    (∀ op : Nat, u < 4 → 1 ≤ op → op ≤ 4 → s.takes clsCatalogue u op c e →
      let o := match op with | 1 => exec (.catWalk u) s | 2 => exec (.catFind u) s | 3 => exec (.catProbe u) s | _ => exec (.catScore u) s
      let bad := badCommon b || match op with | 1 => badWalk b | 2 => badFind b | 3 => badProbe b | _ => badScore b
      (bad = true → serves clsCatalogue u (c.finish stBadCommand) (s.setUnit clsCatalogue u e) o) ∧
      (bad = false → serves clsCatalogue u c (s.setUnit clsCatalogue u e) o)) ∧
    (u < 4 → s.runs clsCatalogue u 1 c → walkMisses c s = [] →
      let w := s.walkOf b
      let r := (s.countNodes u w.cache.length).writeSpan src (catDst b) (w.results.flatMap id)
      let x := r.2.2.endSearch u w.stop w.node { c with bytes := r.2.1, detail := w.cache.length }
      r.1 = none → becomes clsCatalogue u x.1 x.2 (exec (.catWalk u) s)) ∧
    (u < 4 → s.runs clsCatalogue u 2 c → findMisses c s = [] →
      let f := s.findOf b
      let t := s.countNodes u f.2.2.length
      (∀ (l : List Byte) (i : Nat), f.1 = .node l → leafRecord l (le b 32 8) = some i → goodCheck (slice l (64 + 384 * i) 384) = true →
        let r := t.writeSpan src (catDst b) (slice l (64 + 384 * i) 384)
        r.1 = none → becomes clsCatalogue u { c.finish stOk with bytes := r.2.1, detail := (le b 32 8 - recordFirst l i) % 8 } r.2.2 (exec (.catFind u) s)) ∧
      (∀ l : List Byte, f.1 = .node l → leafRecord l (le b 32 8) = none → becomes clsCatalogue u (c.finish stNotFound) t (exec (.catFind u) s))) ∧
    (u < 4 → s.runs clsCatalogue u 3 c → probeMisses c s = [] → ∀ (bs : List Byte) (t : State), s.readSpan src (probeAddr b) 4096 = (none, bs, t) →
      let p := probeBucket bs (le b 16 32) (le b 60 4)
      becomes clsCatalogue u { c.finish stOk with detail := p.1.getD 0 + (if p.1.isSome then 64 else 0) + p.2 * 256 } t (exec (.catProbe u) s)) ∧
    (u < 4 → s.runs clsCatalogue u 4 c → scoreMisses c s = [] → ∀ (bs : List Byte) (t : State),
      s.readSpan src (scoreTable b) (32 * scoreCount b) = (none, bs, t) →
      let r := t.writeSpan src (catDst b) (padTo (16 * scoreTopn b) ((scoreAll b bs).1.flatMap Score.bytes))
      r.1 = none → becomes clsCatalogue u { c.finish stOk with bytes := r.2.1, detail := (scoreAll b bs).2 } r.2.2 (exec (.catScore u) s)) ∧
    (∀ op : Nat, 1 ≤ op → op ≤ 3 → u < 8 →
      let o := match op with | 1 => exec (.parGenerate u) s | 2 => exec (.parReconstruct u) s | _ => exec (.parCheck u) s
      (s.takes clsParity u op c e →
        ((badCommon b || badParity op b) = true → serves clsParity u (c.finish stBadCommand) (s.setUnit clsParity u e) o) ∧
        ((badCommon b || badParity op b) = false → serves clsParity u c (s.setUnit clsParity u e) o)) ∧
      (s.runs clsParity u op c → parMisses op c s = [] → ∀ (bs : List Byte) (t : State),
        s.readSpan (engineSource clsParity u) (parTable b) (8 * (parD b + 2)) = (none, bs, t) →
        (goodTable (tableEntries bs) = false → becomes clsParity u (c.finish stBadCommand) t o) ∧
        (goodTable (tableEntries bs) = true →
          let r := t.parLines u op (tableEntries bs) (parLen b / 64) 0 c
          let x := r.2.2.closeParity u op r.1 r.2.1
          becomes clsParity u x.1 x.2 o)))

/-- R392 and R405 to R410: a sequencer writes a command's 64 bytes into a free entry of its carrier's ring and keeps it in service; while the
ring has no room the command waits, and bad operands end it with BAD_COMMAND. A completion that the carrier has posted is taken at its
message interrupt. -/
def Obligations.SequencerCommands : Prop :=
  ∀ (s : State) (u : Nat) (c : Cmd) (e : EngUnit) (slot : Nat), u < 8 → s.nextCommand clsSequencer u = some (c, e) → badCommon c.block = false →
    s.slotOf (medCarrier c.block) = some slot →
    let b := c.block
    let s1 := s.setUnit clsSequencer u e
    let issues (o : Host.Outcome State Fault Refusal) : Prop :=
      (badMedia b = true → serves clsSequencer u (c.finish stBadCommand) s1 o) ∧
      (badMedia b = false → (s.car slot).sequencer = u → (s.car slot).inService = true →
        (((s.car slot).port s.ownPort).room c.queue = false → o = .next s) ∧
        (((s.car slot).port s.ownPort).room c.queue = true →
          serves clsSequencer u { c with since := s.elapsed } (s1.submit slot c.queue (carrierEntry (opcodeOf b) (cmdId c) b (medArg2 b))) o))
    (opcodeOf b = 1 → issues (exec (.seqIdentify u) s)) ∧ (opcodeOf b = 2 → issues (exec (.seqProgram u) s)) ∧
    (opcodeOf b = 3 → issues (exec (.seqRead u) s)) ∧ (opcodeOf b = 4 → issues (exec (.seqErase u) s)) ∧
    (opcodeOf b = 5 → issues (exec (.seqSetMode u) s)) ∧ (opcodeOf b = 6 → issues (exec (.seqReadRetry u) s)) ∧
    (opcodeOf b = 7 → issues (exec (.seqHealth u) s)) ∧ (opcodeOf b = 8 → medArg0 b ≠ 2 → issues (exec (.seqOwnershipTake u) s)) ∧
    (opcodeOf b = 8 → medArg0 b = 2 → issues (exec (.seqOwnershipReturn u) s)) ∧ (opcodeOf b = 9 → issues (exec (.seqLabel u) s)) ∧
    (opcodeOf b = 10 → issues (exec (.seqRetire u) s))

/-! ### Carriers (R386 to R413) -/

/-- R394 to R402: the first command that a carrier may run has its effect: a command that breaks the carrier's checks ends with its status
and does nothing else; PROGRAM writes the next page group of the erase group and moves its write pointer; READ and READ_RETRY return the
bytes written; ERASE empties the erase group and counts, or retires it; SET_MODE, OWNERSHIP, LABEL and RETIRE change what they name. -/
def Obligations.CarrierCommands : Prop :=
  ∀ (s : State) (slot i : Nat) (x : CCmd), (s.car slot).fetched[i]? = some x →
    let c := s.car slot
    let e := c.group x.egroup
    let runs (want : CCmd → Bool) : Prop := runnable want [] c.fetched 0 = some i
    let good : Prop := c.refuses x = 0
    let ends (o : Host.Outcome State Fault Refusal) (st bytes info : Nat) (f : Carrier → Carrier) : Prop :=
      o = .next (s.modCar slot fun c => (f c).decide i st bytes info)
    let refused (o : Host.Outcome State Fault Refusal) : Prop := c.refuses x ≠ 0 → ends o (c.refuses x) 0 0 id
    let sends (o : Host.Outcome State Fault Refusal) (bs : List Byte) (info : Nat) : Prop := o = .next (s.sendData slot i x bs info)
    let reads (o : Option Nat → Host.Outcome State Fault Refusal) : Prop :=
      refused (o none) ∧
      (good → c.pages x.egroup * 65536 < x.arg0 + x.len → ends (o none) csRange 0 0 id) ∧
      (good → x.arg0 + x.len ≤ c.pages x.egroup * 65536 → e.erasePending = true ∨ min e.wp x.wpAtFetch * 65536 < x.arg0 + x.len → ends (o none) csUnwritten 0 0 id) ∧
      (good → x.arg0 + x.len ≤ c.pages x.egroup * 65536 → e.erasePending = false → x.arg0 + x.len ≤ min e.wp x.wpAtFetch * 65536 →
        (e.firstFailed x.arg0 x.len = none → sends (o none) (c.read x.egroup x.arg0 x.len) 0) ∧
        (∀ b, e.firstFailed x.arg0 x.len = some b → ∃ (t : State) (n : Nat), o none = .next t ∧ n ≤ x.len ∧
          (t.car slot).fetched[i]? = some { x with outcome := some (csUncorrectable, n, b) }))
    (runs (fun x => x.opcode == 1) → x.opcode = 1 → refused (exec (.carrierIdentify slot) s) ∧ (good → sends (exec (.carrierIdentify slot) s) (c.identifyPage x.port) 0)) ∧
    (runs (fun x => x.opcode == 2) → x.opcode = 2 → x.port = s.ownPort →
      let o (ok : Bool) := exec (.carrierProgram slot ok []) s
      (∀ ok, c.refuses x ≠ 0 → ends (o ok) (c.refuses x) 0 e.wp id) ∧
      (∀ ok, good → e.erasePending = true → ends (o ok) csNotErased 0 e.wp id) ∧
      (∀ ok, good → e.erasePending = false → x.page ≠ e.wp → ends (o ok) csOrder 0 e.wp id) ∧
      (∀ ok, good → e.erasePending = false → x.page = e.wp → c.pages x.egroup ≤ x.page → ends (o ok) csRange 0 e.wp id) ∧
      (good → e.erasePending = false → x.page = e.wp → x.page < c.pages x.egroup → s.portPasses slot x.addr 65536 false = true →
        (∃ t : State, o true = .next t ∧ ((t.car slot).group x.egroup).wp = e.wp + 1 ∧
          (t.car slot).read x.egroup (x.page * 65536) 65536 = s.bytes x.addr 65536 ∧
          (t.car slot).fetched[i]? = some { x with outcome := some (csOk, 65536, e.wp + 1) }) ∧
        (∃ t : State, o false = .next t ∧ (t.car slot).group x.egroup = { e with wp := e.wp + 1, failed := e.failed ++ [e.wp] } ∧
          (t.car slot).data = c.data ∧ (t.car slot).fetched[i]? = some { x with outcome := some (csProgramFailed, 65536, e.wp + 1) }))) ∧
    (runs (fun x => x.opcode == 3) → x.opcode = 3 → reads fun bad => exec (.carrierRead slot bad) s) ∧
    (runs (fun x => x.opcode == 6) → x.opcode = 6 → reads fun bad => exec (.carrierReadRetry slot bad) s) ∧
    (runs (fun x => x.opcode == 4) → x.opcode = 4 → ∀ ok : Bool, refused (exec (.carrierErase slot ok) s) ∧
      (good → ∃ t : State, exec (.carrierErase slot ok) s = .next t ∧
        let r := (t.car slot).group x.egroup
        (ok = true → r.wp = 0 ∧ r.slc = false ∧ r.erasePending = false ∧ r.failed = [] ∧ r.qlcErases + r.slcErases = e.qlcErases + e.slcErases + 1 ∧
          ∀ k, k < 2 ^ 32 → (t.car slot).read x.egroup k 1 = [0]) ∧
        (ok = false → r = { e with retired := true } ∧ (t.car slot).data = c.data))) ∧
    (runs (fun x => x.opcode == 5) → x.opcode = 5 → refused (exec (.carrierSetMode slot) s) ∧
      (good → e.erasePending = true ∨ e.wp ≠ 0 → ends (exec (.carrierSetMode slot) s) csNotErased 0 0 id) ∧
      (good → e.erasePending = false → e.wp = 0 →
        ends (exec (.carrierSetMode slot) s) csOk 0 0 (Carrier.modGroup x.egroup fun g => { g with slc := x.arg0 == 1 }))) ∧
    (∀ temp, runs (fun x => x.opcode == 7) → x.opcode = 7 → refused (exec (.carrierHealth slot temp) s) ∧
      (good → sends (exec (.carrierHealth slot temp) s) (c.healthPage x.arg0 x.len (leAt x.bytes 32 4) temp).1 (c.healthPage x.arg0 x.len (leAt x.bytes 32 4) temp).2)) ∧
    (x.opcode = 8 →
      let owns (o : Host.Outcome State Fault Refusal) (owner : Nat) : Prop := refused o ∧
        (good → leAt x.bytes 32 8 ≤ c.epoch → ends o csEpochStale 0 c.owner id) ∧
        (good → c.epoch < leAt x.bytes 32 8 → ends o csOk 0 owner fun c => { c with owner := owner, epoch := leAt x.bytes 32 8 })
      (x.arg0 = 1 → runs (fun x => x.opcode == 8 && x.arg0 != 2) → owns (exec (.carrierOwnershipTake slot) s) (x.port + 1)) ∧
      (x.arg0 = 2 → runs (fun x => x.opcode == 8 && x.arg0 == 2) → owns (exec (.carrierOwnershipReturn slot) s) 0)) ∧
    (runs (fun x => x.opcode == 9) → x.opcode = 9 → refused (exec (.carrierLabel slot) s) ∧
      let may := x.arg0 = 1 ∨ c.blank = true ∨ (c.arrayId = slice x.bytes 32 16 ∧ c.number = leAt x.bytes 48 2)
      (good → may → ends (exec (.carrierLabel slot) s) csOk 0 0 (Carrier.label (x.arg0 == 1) (slice x.bytes 32 16) (leAt x.bytes 48 2))) ∧
      (good → ¬ may → ends (exec (.carrierLabel slot) s) csLabelled 0 0 id)) ∧
    (runs (fun x => x.opcode == 10) → x.opcode = 10 → refused (exec (.carrierRetire slot) s) ∧
      (good → ends (exec (.carrierRetire slot) s) csOk 0 0 (Carrier.modGroup x.egroup fun g => { g with retired := true })))

/-- R388 to R393, R400 and R409 to R413: a port is enabled with its rings and reset; a doorbell lets the carrier fetch one entry; the
completion index releases slots; a command that has had its effect is completed by an entry of 32 bytes, and a message interrupt wakes the
sequencer; a carrier whose link is up and whose label fits enters service, and leaves it on a lost link, a fatal state or a timeout. -/
def Obligations.CarrierPorts : Prop :=
  ∀ (s : State) (slot : Nat), slot < 96 →
    let c := s.car slot
    let own := c.port s.ownPort
    let lost (t : State) (port : Nat) : State := (t.dropPort slot port).modPort slot port fun _ => CPort.reset
    (∀ (port cplBase cplSize : Nat) (subBase subSize : List Nat), port < 2 → (c.port port).linkUp = true → (c.port port).enable = false →
      ringSize cplSize = true → cplBase % 4096 = 0 → subBase.length = 4 → subSize.length = 4 → subSize.all ringSize = true →
      subBase.all (fun a => a % 4096 == 0) = true → exec (.carrierEnable slot port cplBase cplSize subBase subSize) s =
        .next (s.modPort slot port fun p => { p with enable := true, ready := true, cplBase := cplBase, cplSize := cplSize, subBase := subBase, subSize := subSize })) ∧
    (∀ port, port < 2 → ∃ t : State, exec (.carrierReset slot port) s = .next t ∧
      let p := (t.car slot).port port
      p.enable = false ∧ p.ready = false ∧ p.subTail = [0, 0, 0, 0] ∧ p.subHead = [0, 0, 0, 0] ∧ p.cplHead = 0 ∧ p.cplTail = 0 ∧
      ∀ x ∈ (t.car slot).fetched, x.port ≠ port) ∧
    (∀ r, own.ready = true → own.linkUp = true → own.nextRing = some r →
      let a := own.subBase.getD r 0 + 64 * own.subHead.getD r 0
      s.portPasses slot a 64 false = true → exec (.carrierSubTail slot s.ownPort r []) s =
        .next ((s.correct a 64).modCar slot (Carrier.take s.ownPort r ((own.subHead.getD r 0 + 1) % max 1 (own.subSize.getD r 0)) (s.bytes a 64)))) ∧
    (∀ (ring : Nat) (entry : List Byte), c.ident.level ≠ 0 → ring ≤ 3 → exec (.carrierSubTail slot (1 - s.ownPort) ring entry) s =
      .next (s.modCar slot (Carrier.take (1 - s.ownPort) ring ((c.port (1 - s.ownPort)).subHead.getD ring 0 + 1) entry))) ∧
    (∀ port head, port < 2 → exec (.carrierCplHead slot port head) s =
      .next (s.modPort slot port fun p => p.release (if port = s.ownPort then p.readAt else head % max 1 p.cplSize))) ∧
    (∀ (i : Nat) (x : CCmd) (st bytes info : Nat), c.fetched[i]? = some x → x.outcome = some (st, bytes, info) → x.port = s.ownPort →
      own.cplHeld < own.cplSize → own.ready = true → s.portPasses slot (own.cplBase + 32 * own.cplTail) (completionEntry x st bytes info own.phase).length true = true →
      let entry := completionEntry x st bytes info own.phase
      ∃ t : State, exec (.carrierCommandComplete slot i none) s = .next t ∧ (t.car slot).fetched = c.fetched.eraseIdx i ∧
        (∀ a, t.byte a = if own.cplBase + 32 * own.cplTail ≤ a ∧ a < own.cplBase + 32 * own.cplTail + entry.length
          then entry.getD (a - (own.cplBase + 32 * own.cplTail)) 0 else s.byte a) ∧
        ((t.car slot).port s.ownPort).msiOwed = true ∧ ((t.car slot).port s.ownPort).cplHeld = own.cplHeld + 1) ∧
    (∀ (i : Nat) (x : CCmd) (r : Nat × Nat × Nat), c.fetched[i]? = some x → x.outcome = some r → x.port ≠ s.ownPort →
      exec (.carrierCommandComplete slot i none) s = .next (s.modCar slot fun c => { c with fetched := c.fetched.eraseIdx i })) ∧
    (own.msiOwed = true → (own.lastMsi = 0 ∨ own.lastMsi.toNat + 2000 ≤ s.elapsed.toNat) → exec (.carrierMsi slot) s =
      .next (((s.modPort slot s.ownPort fun p => { p with msiOwed := false, lastMsi := s.elapsed }).modCore (116 + c.sequencer)
        fun k => { k with irqPend := k.irqPend ||| 0x20000 }).takeEntries slot own.cplHeld)) ∧
    ((∀ port, port < 2 → exec (.carrierPortLoss slot port false) s = .next (lost s port)) ∧
      (∀ port, port < 2 → exec (.carrierPortLoss slot port true) s = .next ((lost (lost s 0) 1).modCar slot fun c => { c with powerLosses := c.powerLosses + 1 }))) ∧
    (∀ (width : Nat) (ident : CarrierIdent) (array : List Byte) (number : Nat) (agrees : Bool), s.releasePerst = s → s.slotUsable slot = true → own.linkUp = false →
      (ident.level ≠ 1 → exec (.carrierLinkUp slot width ident array number agrees) s = .next (s.linkCarrier slot width ident array number)) ∧
      (ident.level = 1 → s.hlt.mode ≠ .paired ∨ agrees = true → number = 0xFFFF ∨ padTo 16 array = s.arrayId →
        let u := s.linkCarrier slot width ident array number
        exec (.carrierLinkUp slot width ident array number agrees) s =
          .next (((u.modCar slot fun c => { c with inService := true }).autoLabel slot).takeJoined slot))) ∧
    (own.linkUp = false → own.fatal = false → exec (.carrierOutOfService slot false) s = .next (s.carrierLeaves slot 3)) ∧
    (own.linkUp = true → exec (.carrierOutOfService slot true) s = .next ((s.modPort slot s.ownPort fun p => { p with fatal := true }).carrierLeaves slot 1)) ∧
    (s.timedOut slot = true → exec (.carrierCommandTimeout slot) s = .next ((s.bump (rMedCar c.number + 0x10) 1).carrierLeaves slot 1)) ∧
    (∀ r, s.eraseOut.find? (fun r => decide (100000000 ≤ s.elapsed.toNat - r.sentAt.toNat)) = some r → ∃ t : State,
      exec .eraseRequestRepeat s = .next (t.tellPartner msgErase r.bytes) ∧ t = { s with eraseOut := mapWhere r.same (fun x => { x with sentAt := s.elapsed }) s.eraseOut })


/-! ### The ledger, placement and the media (R115 to R149, R213 to R237, R289 to R360) -/

/-- R125 to R131: the open cycle closes when it may, and with a partner its record is kept and mirrored and the next cycle opens; the
partner's record is answered by the checks of R128 in their order, and applied whole or not at all; a confirm makes the cycle durable, a
refusal has its action, and a record unanswered for the confirm timeout is sent again and the delay reported. -/
def Obligations.LedgerCycles : Prop :=
  ∀ s : State,
    (s.mayClose = true → exec .ledgerCycleClose s = .next s.closeCycle.cycleOpened ∧
      (s.alone s.acc.openCycle = false → ∀ g, s.acc.segment = some g → g.used + (s.openRecord.2.take 64 ++ s.openRecord.1.items.flatMap (padTo 32)).length ≤ segmentBytes →
        let t := s.closeCycle
        t.acc.own = s.acc.own ++ [s.openRecord.1] ∧ t.acc.openCycle = s.acc.openCycle + 1 ∧ t.acc.openedAt = s.elapsed ∧
        t.acc.openEntries = s.acc.openEntries.drop 16384 ∧ t.acc.openFreed = s.acc.openFreed.drop 16384 ∧
        t.sent = s.sent ++ [.mirror (ledgerOff s.acc.openCycle) s.openRecord.2 true])) ∧
    (∀ slot, slot < 8 → s.withPartner = true → s.twn.linkUp = true →
      let b := s.arrivedRecord slot
      let r := recordOf b s.elapsed
      let answers (t : State) (type reason index : Nat) : Prop := exec (.ledgerRecord slot) s = .next (t.answerRecord type reason index r.cycle r.check)
      let sound := leAt b 28 4 = 64 + 16 * r.entries.length + 8 * r.freed.length + 32 * r.items.length ∧ ledgerCheck b = r.check
      let near := s.kpr.level ≤ leAt b 2 2 + 1 ∧ leAt b 2 2 ≤ s.kpr.level + 1
      (¬ sound → answers s 3 2 0) ∧
      (sound → let n := s.noteReceived r.cycle;
        r.cycle ≤ n.acc.received ∧ (¬ near → answers n 3 3 0) ∧
        (near → r.cycle ≤ s.acc.last → Sparse.get 0 r.cycle s.acc.checks = r.check → answers n 2 0 0) ∧
        (near → r.cycle ≤ s.acc.last → Sparse.get 0 r.cycle s.acc.checks ≠ r.check → answers n.noteDiffering 3 2 0) ∧
        (near → s.acc.last + 1 < r.cycle → answers n 3 4 0) ∧
        (∀ i, near → r.cycle = s.acc.last + 1 → s.missingEntry r.entries = some i → answers n 3 1 i) ∧
        (near → r.cycle = s.acc.last + 1 → s.missingEntry r.entries = none →
          answers (n.takeRecord r (b.take 64)) 2 0 0 ∧ (n.takeRecord r (b.take 64)).acc.last = r.cycle))) ∧
    (∀ (slot : Nat) (r : CycleRec), slot < 8 → s.basesSet = true → s.answered slot 2 = some r →
      exec (.ledgerConfirm slot) s = .next (s.confirmCycle r.cycle).handOver) ∧
    (∀ (slot : Nat) (r : CycleRec), slot < 8 → s.basesSet = true → s.answered slot 3 = some r →
      let ans := s.arrivedAnswer slot
      let does (u : State) : Prop := exec (.ledgerRefuse slot) s = .next u
      (leAt ans 2 2 = 1 → does (((r.entries.drop (leAt ans 4 4)).foldl (fun t e => t.mirrorEntry e.1) s).resend r.cycle)) ∧
      (leAt ans 2 2 = 2 → does (s.resend r.cycle)) ∧
      (leAt ans 2 2 = 4 → does ((s.acc.own.filter fun r => ! r.confirmed && decide (s.acc.heldBy < r.cycle)).foldl (fun t r => t.resend r.cycle) s)) ∧
      (leAt ans 2 2 = 3 → ∃ t : State, exec (.ledgerRefuse slot) s = .next t ∧ t.acc.running = false)) ∧
    (∀ r, s.withPartner = true → s.overdue = some r → exec .confirmTimeout s =
      .next (({ s with twn := { s.twn with unclean := s.twn.unclean ||| 0x20 } }).resend r.cycle))

/-- R118, R141, R213 to R237, R289, R331 and R346: space that returns lets the command held longest go on; the lowest confirmed entry is
placed, its tier-2 reads ending by their results or their deadline; held folios are sent again once a write slot is there; an aged row is
padded and written; a cycle with its lists at hand is applied; a checkpoint whose pages are written gets its header; a quire is opened
for a purpose that has none, and a key generation that is due is first recorded and, once the journal holds it, taken into use. -/
def Obligations.PlacementCommands : Prop :=
  ∀ (s : State) (seen : Seen) (fails : List (List Nat)),
    (∀ (c cid : Nat) (rest : List (Nat × Nat)) (n : NCmd), s.acc.held = (c, cid) :: rest → s.ncmd c cid = some n →
      s.mayAllocate (if n.opcode = 1 then min 512 (n.nblk - n.next) else 0) = true →
      exec .bufferSpaceReturn s = .next (({ s with acc := { s.acc with held := rest } } : State).goOn c cid)) ∧
    (s.mayPlace = true →
      (let u := s.startOver;
        (u.waitingEntry = none → ∀ base h, u.nextToPlace = some (base, h) → exec (.placeEntry seen fails) s = .next (u.place seen fails none base h)) ∧
        (∀ base h at_, u.waitingEntry = some (base, h, at_) → exec (.placeEntry seen fails) s = .next (u.place seen fails (some true) base h)) ∧
        (s.acc.restart = false → u = s)) ∧
      (∀ base h at_, s.waitingEntry = some (base, h, at_) → s.settingAt 0x0202 0 200000 at_ ≤ s.elapsed.toNat - at_.toNat →
        exec (.tier2Deadline seen fails) s = .next (s.place seen fails (some false) base h)) ∧
      (∀ base h r, (Sparse.get Namespace.none h.nsid s.cat.namespaces).size = 0 → s.place seen fails r base h = s.noteFreed h.no) ∧
      (∀ base h r, (Sparse.get Namespace.none h.nsid s.cat.namespaces).size ≠ 0 → h.noData = false → s.digestKey h.domain = [] →
        s.place seen fails r base h = s.useDigest 1 64 h.nblk) ∧
      (∀ domain, (s.writeSlot domain).isSome = true → exec (.heldFoliosResend domain fails) s =
        .next ((s.acc.spent.filter fun f => f.domain == domain).foldl (fun (p : Press) f => p.takeFolio f)
          (Press.mk { s with acc := { s.acc with spent := s.acc.spent.filter fun f => f.domain != domain } } fails)).s) ∧
      (∀ domain, domain < 4096 → s.generationDue domain = true → 
        (s.pendingGen domain = none → ∃ t : State, exec (.newKeyGeneration domain) s = .next t ∧ t.deltas = s.deltas ++ [itemKeyGen domain (s.nextGen domain)] ∧
          t.cipherSlots = s.cipherSlots) ∧
        (∀ g, s.pendingGen domain = some g → exec (.newKeyGeneration domain) s =
          .next (if s.genJournalled domain g = true then s.takeGeneration domain g else s)))) ∧
    (s.managesMedia = true →
      (∀ (q : Nat) (failed : List Nat) (r : OpenRow), r ∈ s.acc.rows → r.quire = q → s.padAge r.since ≤ s.elapsed.toNat - r.since.toNat →
        exec (.rowPadAgeExpiry q failed) s = .next (((Press.mk s [failed]).drainWaiting.writeRow q).s)) ∧
      (∀ purpose failed, purpose ≤ 6 → purpose ≠ 5 →
        let u := failed.foldl (fun t g => t.failErase (s.mediaQueue purpose) g) s;
        ((u.targetFor purpose).isSome = true ∨ u.opening purpose = true → exec (.quireOpen ⟨purpose, failed⟩) s = .next u) ∧
        ((u.targetFor purpose).isSome = false → u.opening purpose = false →
          exec (.quireOpen ⟨purpose, failed⟩) s = .next (u.openQuire purpose u.dataWidth [])))) ∧
    (∀ lists, s.acc.running = true → s.basesSet = true → s.cycleLists = some lists →
      exec (.applyCycle seen) s = .next (((s.applyNext seen lists).completeJoin).noteDrained)) ∧
    (∀ (bad : List Nat) (rows : List (List Nat)) (partnerHas : Bool) (c : Checkpoint) (q : Nat), s.hlt.mode ≠ .safe → s.basesSet = true →
      s.med.writing = some c → c.own ≠ [] → (∀ x ∈ c.dumpRes ++ c.own ++ c.second.toList, (s.quire x).state ≠ 0) → s.pageQuire c = some q →
      let w := (Press.mk s rows).writeCheckpoint q c
      let u : State := { w.2.2.s with med := { w.2.2.s.med with writing := some w.2.1 } }
      let good := u.serviceNumbers.filter fun n => ! bad.contains n
      let c' := { w.2.1 with copies := good.length }
      w.1 = true → u.kpr.level = u.kpr.committed → u.serviceNumbers ≠ [] → min 3 u.serviceNumbers.length ≤ good.length →
      exec (.checkpointHeaderWrite ⟨bad, rows⟩ partnerHas) s = .next (State.noteDrained
        (((u.writeAnchors c'.header fun n => ! bad.contains n).checkpointDone c').freeCovered partnerHas)))

/-- R291 to R322, R345, R349 and R481: with no rebuild due folding takes its quires, with no folding due weeding does, and wear leveling
comes last; a freed quire's groups are erased or their erases asked for; the first quire in line begins its rebuild or its relocation; the conservation
pass takes reported rows first and goes on from its position; a reshape moves its boundary by one step; and a LOST folio of this head is
repaired. -/
def Obligations.MediaCommands : Prop :=
  ∀ (s : State) (seen : Seen) (fails : List (List Nat)), s.managesMedia = true →
    (let t := s.judgeFolding;
      (t.rebuildDue = true → exec (.foldStart seen fails) s = .next t) ∧
      (t.rebuildDue = false → exec (.foldStart seen fails) s = .next (((Press.mk t fails).drainWaiting.fold seen 4).s))) ∧
    (let t := s.judgeFolding.judgeWeeding;
      (t.rebuildDue = true ∨ t.foldDue = true → exec (.weedingStart seen fails) s = .next t) ∧
      (t.rebuildDue = false → t.foldDue = false → exec (.weedingStart seen fails) s = .next (((Press.mk t fails).drainWaiting.weed seen 4).s))) ∧
    (let t := s.judgeFolding.judgeWeeding.judgeLeveling;
      (t.rebuildDue = true ∨ t.foldDue = true ∨ t.weedDue = true → exec (.wearLevelStart seen fails) s = .next t) ∧
      (∀ q, t.rebuildDue = false → t.foldDue = false → t.weedDue = false → t.med.leveling = true → t.relocations 3 = 0 → t.levelNext = some q →
        exec (.wearLevelStart seen fails) s = .next (((Press.mk t fails).drainWaiting.relocate seen [] q 3).s))) ∧
    (∀ (q : Nat) (failed : List Nat), s.eraseReady q = true → s.ownsQuire q = true → exec (.eraseAfterFree q failed) s =
      .next ((s.quire q).targets.foldl (fun t g => t.eraseOne q g.carrier g.egroup (! failed.contains g.position))
        ((s.quire q).pos.zipIdx.foldl (fun t g => t.eraseOne q g.1.1 g.1.2 (! failed.contains g.2)) s))) ∧
    (let t := s.stopRebuilds.eraseGivenUp
      let does (u : State) : Prop := exec (.rebuildBegin seen fails) s = .next u
      (t.rebuildNext = none → t.rebuildQuires = [] → does t) ∧
      (∀ q, t.rebuildNext = some q → (t.quire q).validBytes = 0 ∨ t.prefersRelocation seen q = true → does (((Press.mk t fails).drainWaiting.recover seen q).s)) ∧
      (∀ q u, t.rebuildNext = some q → (t.quire q).validBytes ≠ 0 → t.prefersRelocation seen q = false → t.startRebuilds q = (true, u) → does u) ∧
      (∀ q rest u, t.rebuildNext = none → t.rebuildQuires = q :: rest → t.advanceQuire seen (fails.headD []) q = (true, u) → does u) ∧
      ∀ q p u, t.startRebuild q p = some u → ∃ g, t.rebuildGroup q = some g ∧ u.deltas = t.deltas ++ [itemRebuildStart q p g.1 g.2] ∧
        ({ quire := q, position := p, carrier := g.1, egroup := g.2, row := 0 } : Rebuild) ∈ u.med.rebuilds) ∧
    (∀ f, s.basesSet = true → s.kpr.owner = .accepted → (s.cat.record f).lost = true → ((s.cat.record f).keyGen % 2 = s.headNo ∨ s.soloMode = true) →
      exec (.lostRepair f seen fails) s = .next (s.repairSuffix seen fails f)) ∧
    (s.basesSet = true →
      (∀ q row rest, s.med.reports = (q, row) :: rest → (s.quire q).state = 1 ∨ (s.quire q).state = 2 ∨ (s.quire q).state = 3 →
        exec (.conservationRow seen fails) s =
          .next (((Press.mk { s with med := { s.med with reports := rest } } fails).drainWaiting.conserve seen q row).s)) ∧
      (∀ q row, s.med.reports = [] → s.nextRow = some (q, row) → exec (.conservationRow seen fails) s =
        .next (((Press.mk { s with med := { s.med with conserveQuire := q, conserveRow := row + 1 } } fails).drainWaiting.conserve seen q row).s))) ∧
    (s.reshaping = true → s.reshapeQueued = false →
      let does (u : State) : Prop := exec (.reshapeStep seen fails) s = .next u
      (s.med.reshapeCancel = true → s.relocations 4 ≠ 0 → does s) ∧
      (s.med.reshapeCancel = true → s.relocations 4 = 0 →
        does (({ s with med := { s.med with reshapeCancel := false } } : State).queueItems [s.planItem (leAt s.cat.reshape 4 4) 0])) ∧
      (s.med.reshapeCancel = false → s.boundaryQuire = none → s.ownsQuire 0 = true → does (s.queueItems [s.planItem (leAt s.cat.reshape 12 4) 0])) ∧
      (∀ q x, s.med.reshapeCancel = false → s.boundaryQuire = some (q, x) → s.ownsQuire q = true →
        (x.state = 5 ∨ s.conforms x = true → does (s.queueItems [s.planItem (q + 1) 1])) ∧
        (x.state = 1 → s.conforms x = false → s.closing q = false → does (s.queueItems [itemClosed q x.rowsDone])) ∧
        (x.state ≠ 1 → x.state ≠ 5 → s.conforms x = false → s.movable q x = true → s.relocations 4 < 2 →
          does (((Press.mk s fails).drainWaiting.relocate seen [] q 4).s))))


/-! ### The namespace service (R366 to R385) -/

/-- R366, R367, R376, R377, R380 and R385: a connection is initialised on an open port and takes a queue by its Connect command, whose
controller has the lowest free number; the properties read as the standard gives them, and a write of CC that clears EN or asks for a
shutdown ends the controller's queues; a queue ends by its Disconnect, by its connection, by H2CTermReq and by a PDU that is not valid; a
controller whose keep-alive time passes is reset; and the ports' links come up and go down. -/
def Obligations.ConnectionsAndControllers : Prop :=
  ∀ s : State,
    (∀ (c port r2t : Nat) (h d u : Bool), (∀ p ∈ s.svc.conns, p.1 ≠ c) → c < 65536 → s.portOpen port = true →
      (u = true → exec (.icreq c port r2t h d u) s = .next (((s.countRx port).setConn c { Conn.none with port := port }).terminate c 6)) ∧
      (u = false →
        let digests := s.setting 0x0605 0 1 == 1
        let x : Conn := { Conn.none with port := port, ready := true, hdgst := h && digests, ddgst := d && digests, maxR2t := r2t, depth := 1 }
        exec (.icreq c port r2t h d u) s = .next (((s.countRx port).setConn c x).sendPdu c 1 (zeros 3 ++
          leBytes 1 ((if x.hdgst then 1 else 0) + if x.ddgst then 2 else 0) ++ leBytes 4 131072 ++ zeros 112) []))) ∧
    (∀ c, s.svc.conns.any (fun p => p.1 == c) = true → exec (.h2cTermReq c) s = .next ((s.heardPdu c).closeConn c) ∧
      ((s.conn c).ended = false → exec (.connectionEnd c) s = .next (s.endConn c) ∧
        exec (.invalidPduType c) s = .next (((s.heardPdu c).nvtError 0x102 c).terminate c 2))) ∧
    (∀ (c cid sqsize cntlid kato : Nat) (host sub : List Byte), (s.conn c).ready = true → (s.conn c).ended = false →
      let w := s.heardPdu c
      ((w.conn c).ctrl ≠ none → ∀ qid, exec (.nvmeConnect c cid qid sqsize cntlid kato host sub) s = .next (w.respond c cid 0 nsSequence)) ∧
      ((w.conn c).ctrl = none → sub ≠ w.settingData 0x0603 0 → ∀ qid,
        exec (.nvmeConnect c cid qid sqsize cntlid kato host sub) s = .next (w.respond c cid 0 nsConnectInvalid)) ∧
      ((w.conn c).ctrl = none → sub = w.settingData 0x0603 0 → sub ≠ [] →
        (∀ n, w.freeCtrl = some n → sqsize ≤ 31 → cntlid = 0xFFFF →
          let id := w.ctrlId n
          let t : State := { w with svc := { w.svc with ctrls := w.svc.ctrls ++ [(id, w.newCtrl host kato)] } }
          exec (.nvmeConnect c cid 0 sqsize cntlid kato host sub) s =
            .next ((t.modConn c fun x => { x with ctrl := some id, qid := 0, depth := 32 }).respond c cid id nsSuccess)) ∧
        (w.freeCtrl = none → exec (.nvmeConnect c cid 0 sqsize cntlid kato host sub) s = .next (w.respond c cid 0 nsConnectInvalid)) ∧
        (∀ qid k, qid ≠ 0 → qid ≤ 65535 → w.ctrl cntlid = some k → k.nqn = host → k.ready = true → sqsize ≤ 4095 →
          (∀ p ∈ w.svc.conns, ¬ (p.2.ctrl = some cntlid ∧ p.2.qid = qid)) →
          exec (.nvmeConnect c cid qid sqsize cntlid kato host sub) s =
            .next ((w.modConn c fun x => { x with ctrl := some cntlid, qid := qid, depth := sqsize + 1 }).respond c cid cntlid nsSuccess)))) ∧
    (∀ (c cid id : Nat) (k : Ctrl), s.delivers c = true → (s.conn c).ctrl = some id → s.ctrl id = some k →
      let w := s.heardPdu c
      let get (off v : Nat) : Prop := exec (.propertyGet c cid off) s = .next (w.respond c cid v nsSuccess)
      get 0 (4095 + 2 ^ 16 + Config.capTimeout % 256 * 2 ^ 24 + 2 ^ 37) ∧ get 8 0x00020000 ∧ get 0x14 k.cc ∧
      get 0x1C ((if k.ready then 1 else 0) + k.shst * 4) ∧
      (∀ v, k.cc % 2 = 1 → v % 2 = 0 → exec (.propertySet c cid 0x14 v) s = .next (w.endCtrl id false)) ∧
      (∀ v, ¬ (k.cc % 2 = 1 ∧ v % 2 = 0) → v / 2 ^ 14 % 4 ≠ 0 →
        exec (.propertySet c cid 0x14 v) s = .next ((w.modCtrl id fun k => { k with cc := v, shst := 2 }).endCtrl id false)) ∧
      (∀ v, ¬ (k.cc % 2 = 1 ∧ v % 2 = 0) → v / 2 ^ 14 % 4 = 0 → exec (.propertySet c cid 0x14 v) s =
        .next ((w.modCtrl id fun k => { k with cc := v, ready := v % 2 == 1 }).respond c cid 0 nsSuccess)) ∧
      (∀ off v, off ≠ 0x14 → exec (.propertySet c cid off v) s = .next (w.respond c cid 0 nsInvalidField)) ∧
      exec (.nvmeDisconnect c cid) s = .next ((w.respond c cid 0 nsSuccess).endConn c) ∧
      exec (.invalidCommandOpcode c cid) s = .next (w.respond c cid 0 nsInvalidOpcode)) ∧
    (∀ (id : Nat) (k : Ctrl), s.ctrl id = some k → k.kato ≠ 0 → k.keepAliveTime ≤ s.elapsed.toNat - k.aliveAt.toNat →
      exec (.keepAliveExpiry id) s = .next (s.endCtrl id true)) ∧
    (∀ since, s.svc.changeSince = some since → s.anaTime since ≤ s.elapsed.toNat - since.toNat → s.holdsCustody = false →
      exec .anaTransitionTimeExpiry s = .next ({ s with svc := { s.svc with changeSince := none } }.anaChange)) ∧
    (∀ p, p < s.ethPorts →
      (∃ t : State, exec (.ethLinkChange p false) s = .next t ∧ t.reg (rEthPort p) = 0 ∧ Sparse.get 0 p t.svc.mtus = 0) ∧
      (s.hlt.mode ≠ .safe → s.pwr.clkEth = true → s.regBit (rEthPortFence p) 0 = false → ∃ t : State,
        exec (.ethLinkChange p true) s = .next t ∧ t.reg (rEthPort p) = 1 + 4 * (s.reg rEthMode % 4 + 1) ∧
        Sparse.get 0 p t.svc.mtus = s.setting 0x0601 0 9000) ∧
      (s.hlt.mode = .safe ∨ s.regBit (rEthPortFence p) 0 = true → exec (.ethLinkChange p true) s = .next s))

/-- R368 to R375, R381 and R382: an admin command on the admin queue of a ready controller returns the data of its identifier, sets or
returns a feature, waits for an event or takes one that is posted, and completes; Namespace Management checks the host and the operands,
queues the item and completes once its cycle is durable. On an I/O queue it is an opcode the queue does not execute. -/
def Obligations.AdminCommands : Prop :=
  ∀ (s : State) (c cid id : Nat), s.delivers c = true → (s.conn c).ctrl = some id →
    let w := s.heardPdu c
    ((s.conn c).qid ≠ 0 → exec (.keepAlive c cid) s = .next (w.respond c cid 0 nsInvalidOpcode)) ∧
    (∀ k, (s.conn c).qid = 0 → w.ctrl id = some k →
      let answers (o : Host.Outcome State Fault Refusal) (dw0 st : Nat) : Prop := o = .next (w.respond c cid dw0 st)
      (k.ready = false → answers (exec (.keepAlive c cid) s) 0 nsSequence) ∧
      (k.ready = true →
        (∀ cns ns b, w.identify id cns ns = .ok b → exec (.nvmeIdentify c cid cns ns) s = .next ((w.replyData c cid b).takeFrees 4096)) ∧
        (∀ cns ns st, w.identify id cns ns = .error st → answers (exec (.nvmeIdentify c cid cns ns) s) 0 st) ∧
        (∀ lid off len rae b, w.logPage id lid = some b → off ≤ b.length → (lid = 0xC4 → off = 0) → exec (.getLogPage c cid lid off len rae) s =
          .next ((if lid = 0xC4 ∧ ¬ rae then (w.replyData c cid (slice b off len)).modCtrl id (Ctrl.haveRead (w.unread k))
            else w.replyData c cid (slice b off len)).takeFrees 512)) ∧
        (∀ lid off len rae, w.logPage id lid = none → answers (exec (.getLogPage c cid lid off len rae) s) 0 nsInvalidField) ∧
        (∀ v, v % 65536 ≠ 65535 → v / 65536 % 65536 ≠ 65535 → exec (.setFeatures c cid 0x07 v) s =
          .next ((w.modCtrl id fun k => { k with queues := v % 2 ^ 32 }).respond c cid (v % 2 ^ 32) nsSuccess)) ∧
        (∀ v, exec (.setFeatures c cid 0x0B v) s = .next ((w.modCtrl id fun k => { k with aerConfig := v % 2 ^ 32 }).respond c cid 0 nsSuccess)) ∧
        (∀ v, exec (.setFeatures c cid 0x0F v) s =
          .next ((w.modCtrl id fun k => { k with kato := v % 2 ^ 32, aliveAt := w.elapsed }).respond c cid 0 nsSuccess)) ∧
        answers (exec (.getFeatures c cid 0x07) s) k.queues nsSuccess ∧ answers (exec (.getFeatures c cid 0x0B) s) k.aerConfig nsSuccess ∧
        answers (exec (.getFeatures c cid 0x0F) s) k.kato nsSuccess ∧
        (∀ fid v, fid ≠ 0x07 → fid ≠ 0x0B → fid ≠ 0x0F →
          answers (exec (.getFeatures c cid fid) s) 0 nsInvalidField ∧ answers (exec (.setFeatures c cid fid v) s) 0 nsInvalidField) ∧
        (∀ e rest, k.events = e :: rest → exec (.asynchronousEventRequest c cid) s =
          .next ((w.modCtrl id fun k => { k with events := rest }).respond c cid e nsSuccess)) ∧
        (k.events = [] → k.aers.length < 16 → exec (.asynchronousEventRequest c cid) s = .next (w.modCtrl id fun k => { k with aers := k.aers ++ [cid] })) ∧
        exec (.keepAlive c cid) s = .next ((w.modCtrl id fun k => { k with aliveAt := w.elapsed }).respond c cid 0 nsSuccess) ∧
        answers (exec (.nvmeAbort c cid) s) 1 nsSuccess ∧
        (∀ nsze ncap flbas group profile domain,
          let create := exec (.namespaceCreate c cid nsze ncap flbas group profile domain) s
          (w.mayManage id = false → answers create 0 nsDenied) ∧
          (w.mayManage id = true →
            let good := nsze ≠ 0 ∧ nsze ≤ 2 ^ 44 ∧ ncap = nsze ∧ flbas = 0 ∧ (group = w.anaGroup false ∨ group = w.anaGroup true) ∧ profile ≤ 2 ∧ domain ≤ 4095
            (¬ good → answers create 0 nsInvalidField) ∧ (good → w.freeNsid = none → answers create 0 nsNoNsid) ∧
            (∀ n, good → w.freeNsid = some n → ∃ t : State, create = .next t ∧ t.deltas = w.deltas ++ [itemNamespace 1 profile n domain nsze] ∧
              t.acc.answers = w.acc.answers ++ [(t.itemCycle, .capsule c cid n)] ∧ (n ∈ t.svc.groups ↔ group = w.anaGroup true)))) ∧
        (∀ ns, let delete := exec (.namespaceDelete c cid ns) s
          (w.mayManage id = false → answers delete 0 nsDenied) ∧
          (w.mayManage id = true → ns = 0xFFFFFFFF → answers delete 0 nsInvalidField) ∧
          (w.mayManage id = true → ns ≠ 0xFFFFFFFF → w.namespace? ns = none → answers delete 0 nsInvalidNs) ∧
          (w.mayManage id = true → ns ≠ 0xFFFFFFFF → (w.namespace? ns).isSome = true →
            delete = .next (w.queueAnswered [itemNamespace 2 0 ns 0 0] (.capsule c cid 0))))))

/-- R115 to R121, R368, R372, R373, R378 to R380: an I/O command whose namespace, group and range are good is begun; a Read sends its
blocks and completes, or waits for the owner secret; Write, Write Zeroes and Dataset Management become entries; a Flush waits for the
writes before it; a namespace that is not there, or in a group of the other head, answers so; and data of a write is checked against what
was asked for and taken into its entry. -/
def Obligations.InputOutputCommands : Prop :=
  ∀ (s : State) (c cid id ns : Nat) (k : Ctrl), s.delivers c = true → (s.conn c).ctrl = some id → (s.conn c).qid ≠ 0 →
    s.ctrl id = some k → k.ready = true →
    let w := s.heardPdu c
    let passes (reads : Bool) : Prop := w.ioRefusal id ns reads = none ∧ ns ∉ k.flagged
    let answers (o : Host.Outcome State Fault Refusal) (st : Nat) : Prop := o = .next (w.respond c cid 0 st)
    (∀ st slba nblk deac, w.ioRefusal id ns false = some st → answers (exec (.writeZeroes c cid ns slba nblk deac) s) st) ∧
    (∀ slba nblk deac, w.ioRefusal id ns false = none → ns ∈ k.flagged →
      exec (.writeZeroes c cid ns slba nblk deac) s = .next ((w.announce id ns).respond c cid 0 nsDeferred)) ∧
    (∀ reads, w.namespace? ns = none → w.ioRefusal id ns reads = some nsInvalidNs) ∧
    (∀ slba nblk seen, s.ncmd c cid = none → passes true →
      let read := exec (.nvmeRead c cid ns slba nblk seen) s
      (nblk = 0 ∨ 1024 < nblk → answers read nsInvalidField) ∧
      (nblk ≠ 0 → nblk ≤ 1024 → w.inRange ns slba nblk = false → answers read nsRange) ∧
      (nblk ≠ 0 → nblk ≤ 1024 → w.inRange ns slba nblk = true → w.kpr.owner = .accepted →
        read = .next ((w.addCmd c (NCmd.start cid 2 ns slba nblk)).serveRead c cid ns slba nblk seen)) ∧
      (∀ i, nblk ≤ 1024 → w.inRange ns slba nblk = true → w.kpr.owner ≠ .accepted → i < nblk → w.needsFlash ns (slba + i) = true →
        read = .next (w.addCmd c (NCmd.start cid 2 ns slba nblk)))) ∧
    (w.basesSet = true → passes false →
      (∀ slba nblk sgl ok fails, nblk ≠ 0 → nblk ≤ 1024 →
        (w.inRange ns slba nblk = false → answers (exec (.nvmeWrite c cid ns slba nblk none sgl ok fails) s) nsRange) ∧
        (w.inRange ns slba nblk = true →
          exec (.nvmeWrite c cid ns slba nblk none sgl ok fails) s = .next ((w.addCmd c (NCmd.start cid 1 ns slba nblk)).goOn c cid) ∧
          (∀ b : List Byte, b.length ≠ sgl ∨ b.length ≠ 4096 * nblk ∨ 8192 < b.length →
            exec (.nvmeWrite c cid ns slba nblk (some b) sgl ok fails) s = .next ((w.nvtError 2 c).respond c cid 0 nsSglLength)) ∧
          (∀ b : List Byte, b.length = sgl → b.length = 4096 * nblk → b.length ≤ 8192 →
            (ok = false → exec (.nvmeWrite c cid ns slba nblk (some b) sgl ok fails) s = .next ((w.nvtError 0x101 c).respond c cid 0 nsDataDigest)) ∧
            (ok = true → exec (.nvmeWrite c cid ns slba nblk (some b) sgl ok fails) s =
              .next ((w.addCmd c { NCmd.start cid 1 ns slba nblk with capsule := b, fails := fails }).goOn c cid))))) ∧
      (∀ slba nblk deac, nblk ≠ 0 → nblk ≤ 65536 → w.inRange ns slba nblk = true → exec (.writeZeroes c cid ns slba nblk deac) s =
        .next ((w.addCmd c { NCmd.start cid 8 ns slba nblk with unmap := deac }).goOn c cid)) ∧
      (∀ ranges : List (Nat × Nat), ranges ≠ [] → ranges.length ≤ 256 → (∀ r ∈ ranges, w.inRange ns r.1 r.2 = true) →
        answers (exec (.datasetManagement c cid ns false ranges) s) nsSuccess ∧
        exec (.datasetManagement c cid ns true ranges) s =
          .next ((w.addCmd c { NCmd.start cid 9 ns 0 0 with unmap := true, ranges := ranges }).goOn c cid))) ∧
    (ns = 0xFFFFFFFF ∨ passes false → exec (.nvmeFlush c cid ns) s = .next (w.flush c cid ns)) ∧
    (∀ (tag off fails : Nat) (data : List Byte) (last : Bool), (s.conn c).ready = true → (s.conn c).ended = false →
      let pdu (pl hd dd : Bool) := exec (.h2cData c tag off data last pl hd dd fails) s
      (∀ pl dd, pdu pl false dd = .next ((w.nvtError 0x100 c).terminate c 3)) ∧ (∀ dd, pdu false true dd = .next ((w.nvtError 2 c).terminate c 1)) ∧
      (∀ dd, 131072 < data.length → pdu true true dd = .next ((w.nvtError 0x103 c).terminate c 5)) ∧
      (data.length ≤ 131072 →
        (∀ dd, w.dataFor c tag = none → pdu true true dd = .next ((w.nvtError 2 c).terminate c 4)) ∧
        (∀ n no h, w.dataFor c tag = some (n, no, h) →
          let base := 4096 * (h.slba - n.slba)
          let got := ((w.ringEntry no).map RingEntry.received).getD 0
          (∀ dd, off < base ∨ base + 4096 * h.nblk < off + data.length → pdu true true dd = .next ((w.nvtError 2 c).terminate c 4)) ∧
          (base ≤ off → off + data.length ≤ base + 4096 * h.nblk →
            (last = true → got + data.length < 4096 * h.nblk → ∀ dd, pdu true true dd = .next ((w.nvtError 2 c).terminate c 4)) ∧
            (last = false → pdu true true false = .next ((w.nvtError 0x101 c).failWrite c n.cid nsDataDigest)) ∧
            (last = false → got + data.length < 4096 * h.nblk → pdu true true true = .next (w.intake no h (off - base) data)) ∧
            (4096 * h.nblk ≤ got + data.length → pdu true true true = .next ((w.intake no h (off - base) data).dataWhole c n.cid no fails))))))


/-! ### The Avenfy transport (R414 to R440) -/

/-- R416, R417, R420 to R424, R426, R430 to R434 and R436: a packet of a queue pair on chip is taken by its OPCODE: a WRITE is placed in
its region or refused, a write-last and an ordered READ_REQ wait for their turn, a READ_RESP is placed at the request's local address, an
ACK and a NAK answer PSNs, a CNP halves the rate; a packet outside the window, of another connection or of no queue pair is dropped and
counted, and one whose context is not on chip waits for it. -/
def Obligations.PacketsReceived : Prop :=
  ∀ (s : State) (path q psn conn : Nat),
    let r := s.countRx (path - 1)
    let x := s.qp q
    let write (key off : Nat) (data : List Byte) (last fin : Bool) := exec (.atpWrite path q psn key off conn data last fin false) s
    (s.ethPorts < path → exec (.atpCnp path q conn) s = .next s) ∧
    (path ≠ 0 → path ≤ s.ethPorts → r.reg rAtpQpMax ≤ q → exec (.atpCnp path q conn) s = .next (r.bump rAtpDropQp 1)) ∧
    (path = 0 → s.twn.strapConflict = true → exec (.atpCnp path q conn) s = .next s.discardFrame) ∧
    (path ≠ 0 → path ≤ s.ethPorts → q < r.reg rAtpQpMax → s.atp.cached.contains q = false →
      exec (.atpCnp path q conn) s = .next (r.rxWait q (RxPkt.of 6 path 0 conn))) ∧
    (path ≠ 0 → path ≤ s.ethPorts → q < r.reg rAtpQpMax → s.atp.cached.contains q = true →
      (x.active = false ∨ x.conn ≠ conn → exec (.atpCnp path q conn) s = .next (r.bump rAtpDropQp 1)) ∧
      (x.active = true → x.conn = conn →
        let u := r.touchQp q
        let d := psnFrom x.expect psn
        let received := x.got.any (fun g => g.1 == psn) = true ∨ x.heldPkts.any (fun h => h.psn == psn) = true
        let turn (t : State) : State := let t := t.runHeld q ((t.qp q).heldPkts.length); if x.gapBelow psn = true then t.sendAck q false else t
        let pkt (op : Nat) : RxPkt := RxPkt.of op path psn conn
        (d < x.window → ¬ received → ∀ key off data fin,
          (∀ why, u.regionRefusal q key off data.length true = some why → write key off data false fin =
            .next (turn (((u.nak q psn why).modQp q fun x => { x with refusedSince := true }).gotPsns q [psn] false))) ∧
          (u.regionRefusal q key off data.length true = none →
            let w := u.placeData key off data
            write key off data false fin = .next (turn (if w.1 = true then (w.2.gotPsns q [psn] true).notePlaced q fin else w.2))) ∧
          write key off data true fin = .next (turn (u.modQp q fun x => { x with heldPkts := x.heldPkts ++
            [{ pkt 1 with last := true, fin := fin, key := key, offset := off, data := data }] }))) ∧
        (x.window ≤ d → psnBelow psn x.expect = false → ∀ key off data last fin, write key off data last fin = .next (u.bump rAtpDropWindow 1)) ∧
        (x.window ≤ d → psnBelow psn x.expect = true → ∀ key off data last fin, write key off data last fin = .next (u.sendAck q false)) ∧
        (∀ key off n,
          let p : RxPkt := { pkt 2 with key := key, offset := off, aux := n }
          (d < x.window → ¬ received →
            exec (.atpReadReq path q psn key off conn n true false) s = .next (turn (u.rxRead q { p with relaxed := true } true)) ∧
            exec (.atpReadReq path q psn key off conn n false false) s =
              .next (turn (u.modQp q fun x => { x with heldPkts := x.heldPkts ++ [p] })) ∧
            ∀ fin, exec (.atpRepeat path q psn key off conn n fin false) s =
              .next (turn (u.rxRepeat q { pkt 7 with fin := fin, key := key, offset := off, aux := n }))) ∧
          (x.window ≤ d → psnBelow psn x.expect = true → ∀ relaxed,
            exec (.atpReadReq path q psn key off conn n relaxed false) s = .next (u.rxRead q { p with relaxed := relaxed } false)) ∧
          (u.regionRefusal q key off n false = none → u.rxRead q p false = u.readResponses q p)) ∧
        (∀ (r : WorkReq) (data : List Byte), x.reqOf psn = some r → r.op = 3 → x.psns.any (fun y => y.psn == psn && y.state == .sent) = true →
          let o := psnFrom r.first psn * x.payload
          let w := u.writeSpan srcAtp (r.localAddr + o) data
          (data.length ≠ min x.payload (r.len - o) → exec (.atpReadResp path q psn conn data false) s =
            .next (((u.markReq q r.seq stLengthMismatch).answerPsns q (fun n => decide (psnFrom r.first n < r.count)) false).pump q)) ∧
          (data.length = min x.payload (r.len - o) → w.1 = none → exec (.atpReadResp path q psn conn data false) s =
            .next ((w.2.2.answerPsns q (fun n => n == psn) true).pump q))) ∧
        (∀ base bitmap, exec (.atpAck path q psn base conn bitmap) s = .next (u.rxAck q { pkt 4 with offset := base, data := padTo 32 bitmap })) ∧
        (∀ (r : WorkReq) (reason : Nat), x.psns.any (fun y => y.psn == psn && y.state != .unsent) = true → x.reqOf psn = some r →
          exec (.atpNak path q psn conn reason) s =
            .next (((u.markReq q r.seq (0xFF + reason)).answerPsns q (fun n => n == psn) false).pump q)) ∧
        (x.cc = true → exec (.atpCnp path q conn) s = .next (u.modQp q fun x => { x with rate := max 1000 (x.rate / 2), rateAt := s.elapsed })) ∧
        (x.cc = false → exec (.atpCnp path q conn) s = .next u))) ∧
    (∀ st, path ≤ s.ethPorts →
      let b := (if path = 0 then s else r).bump rAtpRxBad 1
      (st ≠ 2 → st ≠ 0x105 → exec (.badAvenfyPacket path q st) s = .next b) ∧
      (st = 2 ∨ st = 0x105 → b.regBit rAtpErrStatus 0 = false → ∃ t : State, exec (.badAvenfyPacket path q st) s = .next (t.raiseVector 6) ∧
        t.reg rAtpErrQp = q % 2 ^ 20 + path % 256 * 2 ^ 20 ∧ t.regBit rAtpErrStatus 0 = true))

/-- R425, R428 to R438: a region becomes current when it is synchronised, and is revoked and freed; a queue pair comes into service,
drains and is reset; a request of its ring is checked and becomes PSNs that are sent as the window permits, and its completion writes its
record; the repeat timer, the acknowledgement delay and the rate increase act when they are due; and a context load or the write-back
before it completes. -/
def Obligations.QueuePairsAndRequests : Prop :=
  ∀ (s : State) (q : Nat),
    let x := s.qp q
    (∀ index, s.reg64 rAtpRegionBase ≠ 0 → s.atp.zeroed = true → index % 2 ^ 20 ≠ 0 →
      let e := s.bytes (s.regionEntryAddr (index % 2 ^ 20)) 64
      ¬ (regState e = 1 ∧ hostBase ≤ regBase e) → exec (.atpRegionSync index) s =
        .next { s with atp := { s.atp with regions := Sparse.set [] (index % 2 ^ 20) e s.atp.regions } }) ∧
    (∀ key, key < 2 ^ 32 → regState (s.region (key / 4096)) = 1 → regGen (s.region (key / 4096)) = key % 4096 →
      exec (.atpRevoke key) s = .next (s.putRegion (key / 4096) (regWithState 2 (s.region (key / 4096))))) ∧
    (∀ index, regState (s.region index) = 2 → exec (.revocationComplete index) s = .next (s.putRegion index (regWithState 0 (s.region index)))) ∧
    (∀ setup, s.reg rAtpQpMax ≤ q ∨ x.state ≠ 0 → s.readyQp q setup = s) ∧
    (∀ setup : List Byte, q < s.reg rAtpQpMax → x.state = 0 → leAt setup 6 1 / 2 % 2 = 0 → s.atp.cached.contains q = true →
      ∃ t : State, exec (.qpReady q (some setup)) s = .next t ∧ (t.qp q).setup = padTo 128 setup ∧ (t.qp q).state = 1 ∧
        (t.qp q).nextPsn = leAt setup 12 4 ∧ (t.qp q).expect = leAt setup 16 4 ∧ (t.qp q).rate ≠ 0) ∧
    (x.state = 1 → exec (.qpDrain q) s = .next ((s.putQpState q 2).settleDrain q)) ∧
    (x.state ≠ 0 → ∃ t : State, exec (.qpReset q) s = .next t ∧ (t.qp q).state = 0 ∧ (t.qp q).heldPkts = [] ∧ (t.qp q).got = [] ∧
      (t.qp q).psns = []) ∧
    (s.atp.cached.contains q = true → x.active = true → x.posted ≠ 0 →
      let slot := x.ringBase + 64 * (x.taken % max 1 x.ringSize)
      let b := s.nextBlock q
      s.hostMisses slot 64 false = [] → s.readFault slot 64 = none →
      let does (u : State) : Prop :=
        (opcodeOf b = 1 → exec (.wrWrite q) s = .next u) ∧ (opcodeOf b = 2 → exec (.wrWriteLast q) s = .next u) ∧
        (opcodeOf b = 3 → exec (.wrRead q) s = .next u) ∧ (opcodeOf b = 7 → exec (.wrRepeat q) s = .next u)
      (badRequest b x.payload = true → does (s.takeEnded q stBadCommand)) ∧
      (badRequest b x.payload = false →
        let fetch := if opcodeOf b = 1 ∨ opcodeOf b = 2 then le b 28 4 else 0
        let r := s.readSpan srcAtp (le b 16 8 % 2 ^ 48) fetch
        s.spanMisses (le b 16 8 % 2 ^ 48) fetch false = [] → r.1 = none →
        let n := if opcodeOf b = 1 ∨ opcodeOf b = 3 then (le b 28 4 + x.payload - 1) / x.payload else 1
        does ((r.2.2.modQp q fun x =>
          { x with taken := x.taken + 1, nextPsn := (x.nextPsn + n) % 2 ^ 32,
                   reqs := x.reqs ++ [{ seq := x.taken + 1, block := b, first := x.nextPsn, count := n, data := r.2.1, status := 0, moved := 0, ended := false }],
                   psns := x.psns ++ (List.range n).map fun i => { psn := (x.nextPsn + i) % 2 ^ 32, state := .unsent, again := none } }).pump q))) ∧
    (∀ r rest, x.reqs = r :: rest → x.complete r = true → irqOf r.block = false → exec (.workRequestComplete q) s =
      .next (((s.modQp q fun x => { x with reqs := rest }).deliverRecord (some (completionAddr r.block)) (requestRecord q r) []).settleDrain q)) ∧
    (∀ since p, x.timer = some since → x.psns.find? (fun p => p.state == .sent) = some p → x.rto ≤ s.elapsed.toNat - since.toNat → x.active = true →
      let t := (s.modQp q fun x => { x with rto := min 64000000 (2 * x.rto), retries := x.retries + 1, timer := some s.elapsed }).sendPsn q p.psn true
      (x.limit ≤ x.retries + 1 → exec (.repeatTimerExpiry q) s = .next (t.errorQp q)) ∧
      (x.retries + 1 < x.limit → exec (.repeatTimerExpiry q) s = .next t)) ∧
    (∀ due, x.ackDue = some due → x.active = true → 4000 ≤ s.elapsed.toNat - due.toNat → exec (.ackDelayExpiry q) s = .next (s.sendAck q false)) ∧
    (x.active = true → x.cc = true → 55000 ≤ s.elapsed.toNat - x.rateAt.toNat → exec (.rateIncreaseExpiry q) s =
      .next (s.modQp q fun x => { x with rate := min s.lineRate (x.rate + s.lineRate / 20), rateAt := s.elapsed })) ∧
    (∀ l, s.atp.loads.find? (fun l => l.qp == q && l.victim.isNone) = some l →
      exec (.contextLoadComplete q none) s = .next (s.loadFailed l) ∧
      (∀ image, l.ready = false → exec (.contextLoadComplete q (some image)) s = .next (l.packets.foldl (fun t p => t.rxOnChip q p)
        (({ s with atp := { s.atp with loads := s.atp.loads.filter (fun x => x.qp != q), cached := s.atp.cached.filter (fun x => x != q) ++ [q] } } : State).modQp q
          fun x => { x with loadFails := 0 })))) ∧
    (∀ l, s.atp.loads.find? (fun l => l.qp == q && l.victim.isSome) = some l →
      exec (.evictionWriteBackComplete q false) s = .next (s.loadFailed l) ∧
      ∀ v, l.victim = some v →
        let t := s.writeImage v
        exec (.evictionWriteBackComplete q true) s =
          .next { t with atp := { t.atp with loads := mapWhere (fun x => x.qp == q) (fun x => { x with victim := none }) t.atp.loads } })


/-! ### Twin heads and custody (R441 to R463) -/

/-- R441 to R443, R457, R458, R492 and R563: a frame that passes its checks is taken in; one of a head that reads the same strap, and from
then on every frame, is discarded and counted; a heartbeat brings the link up and a report tells of the partner; heartbeats and reports go
out at their intervals; a missed interval is counted, and the link is lost, loses lanes and comes back from a retrain. -/
def Obligations.TwinFrames : Prop :=
  ∀ s : State,
    exec .twinFrameBad s = .next (s.bump rTwnFrameBad 1) ∧
    (s.twn.strapConflict = true → ∀ b, exec (.heartbeat b) s = .next s.discardFrame ∧ exec (.healthReport b) s = .next s.discardFrame ∧
      exec (.supervisorMessage b) s = .next s.discardFrame) ∧
    (∀ b : List Byte, b.length = 32 → leAt b 0 1 ≠ 1 ∨ leAt b 28 4 ≠ crc32c (b.take 28) → exec (.heartbeat b) s = .next s.discardFrame) ∧
    (∀ b : List Byte, b.length = 256 → leAt b 0 1 ≠ 2 ∨ leAt b 252 4 ≠ crc32c (b.take 252) → exec (.healthReport b) s = .next s.discardFrame) ∧
    (s.twn.strapConflict = false →
      (∀ b : List Byte, b.length = 32 → leAt b 0 1 = 1 → leAt b 28 4 = crc32c (b.take 28) →
        (leAt b 1 1 = s.headNo → exec (.heartbeat b) s = .next ({ s with twn := { s.twn with strapConflict := true } }.discardFrame)) ∧
        (leAt b 1 1 ≠ s.headNo →
          let lanes := if s.twn.lanes = 0 then 3 else s.twn.lanes
          let w := { s.twn with lastGood := s.elapsed, linkUp := true, lastHeartbeat := s.elapsed, lanes := lanes }
          exec (.heartbeat b) s = .next (({ s with twn := w } : State).heard b s.twn.peer.uncleanRun s.twn.peer.fitRun))) ∧
      (∀ b : List Byte, b.length = 256 → leAt b 0 1 = 2 → leAt b 252 4 = crc32c (b.take 252) → leAt b 1 1 ≠ s.headNo →
        
        (leAt b 136 4 = 0 → exec (.healthReport b) s = .next (s.noteFrame.heard b 0 0)) ∧
        (leAt b 136 4 ≠ 0 → exec (.healthReport b) s =
          .next (s.noteFrame.heard b (s.twn.peer.uncleanRun + 1) (if s.noteFrame.startFit = true then s.twn.peer.fitRun + 1 else 0)))) ∧
      (∀ b, s.supervisorRuns = false → exec (.supervisorMessage b) s = .next s.noteFrame) ∧
      (∀ b, s.supervisorRuns = true → exec (.supervisorMessage b) s = .next (s.noteFrame.heed (leAt b 0 1) (b.drop 1)))) ∧
    (∀ b n m, (s.twn.surrendered = false ∨ s.twn.peerLow = false) → s.hlt.mode ≠ .restore →
      s.heard b n m = { s with twn := { s.twn with peer := Peer.of b n m } }) ∧
    (100000 ≤ s.elapsed.toNat - s.twn.sentAt.toNat → s.twn.retraining = false → ∃ t : State,
      exec .heartbeatSend s = .next (t.emit (.twin 1 t.heartbeatBytes)) ∧ t = { s with twn := { s.twn with sentAt := s.elapsed } }) ∧
    (s.supervisorRuns = true → 100000000 ≤ s.elapsed.toNat - s.twn.reportAt.toNat → ∃ t u : State,
      t = { s with twn := { s.twn with cleanRun := s.nextCleanRun, reportSeq := s.twn.reportSeq + 1 } } ∧
      u = (t.sendTwin 1 t.reportBytes).deliverReport t.reportBytes ∧
      exec .healthReportBuild s = .next (State.offerReady { u with twn := { u.twn with
        reportAt := u.elapsed, lastFences := u.fenceBytes, unclean := 0, katRun := 0, katFailed := 0 } })) ∧
    (100000 ≤ s.elapsed.toNat - s.twn.missedAt.toNat →
      let t : State := { s with twn := { s.twn with missedAt := s.twn.missedAt + 100000 } }
      (s.twn.peer.seen = false ∨ s.twn.lastHeartbeat.toNat < s.twn.missedAt.toNat → exec .heartbeatMissed s = .next (t.bump rTwnHbMissed 1)) ∧
      (s.twn.peer.seen = true → s.twn.missedAt.toNat ≤ s.twn.lastHeartbeat.toNat → exec .heartbeatMissed s = .next t)) ∧
    (s.twn.linkUp = true → s.setting 0x0901 0 5000000 ≤ s.elapsed.toNat - s.twn.lastGood.toNat →
      let t : State := { s with twn := { s.twn with linkUp := false, unclean := s.twn.unclean ||| 0x40 } }
      (s.headNo = 1 ∧ s.holdsCustody = true ∧ s.twn.peerLow = true → exec .twinLinkLoss s = .next (t.releaseCustody causeTwinLost)) ∧
      (¬ (s.headNo = 1 ∧ s.holdsCustody = true ∧ s.twn.peerLow = true) → exec .twinLinkLoss s = .next t)) ∧
    (s.twn.lanes = 1 → exec .twinLaneFailure s = .next { s with twn := { s.twn with lanes := 0, retraining := false } }) ∧
    (1 < s.twn.lanes → exec .twinLaneFailure s =
      .next (({ s with twn := { s.twn with lanes := s.twn.lanes - 1, retraining := true } } : State).bump rTwnRetrains 1)) ∧
    (s.twn.retraining = true → ∃ t : State, exec .twinLinkRetrained s = .next t ∧ t.twn = { s.twn with retraining := false, held := [] } ∧
      t.sent = s.sent ++ s.twn.held.map fun f => .twin f.1 f.2)

/-- R445, R447 to R451, R455 and R456: the partner's line is followed, and a surrender is recognised once it has stayed high for the
whole filter, with a takeover where R449 permits; each cause the governor sees makes it release custody, which leaves no set held, no
ledger running and the mode of R509; and a head starts service alone when its conditions hold. -/
def Obligations.CustodyCommands : Prop :=
  ∀ s : State,
    (∀ cause, s.holdsCustody = true → cause ≠ causeMetadataFault →
      let t := s.releaseCustody cause
      t.twn.drive = false ∧ t.twn.setA = false ∧ t.twn.setB = false ∧ t.twn.govCause = cause ∧ t.acc.running = false ∧
      (cause = causeHandover → t.hlt.mode = .quiesce) ∧
      (cause ≠ causeHandover → s.hlt.mode = .paired ∨ s.hlt.mode = .solo ∨ s.hlt.mode = .quiesce → t.hlt.mode = .safe)) ∧
    (s.twn.peerLow = true → exec (.custodyPeerChange false) s =
      .next (({ s with twn := { s.twn with peerLow := false, peerSince := s.elapsed } } : State).custodyChanged)) ∧
    (s.twn.peerLow = false → exec (.custodyPeerChange true) s = .next s.peerFalls.custodyChanged) ∧
    (s.twn.peerLow = false → s.twn.surrendered = false → s.surrenderFilter ≤ s.elapsed.toNat - s.twn.peerSince.toNat → ∀ seen shows,
      let t := ({ s with twn := { s.twn with surrendered := true, peerHolds := false, cycleF := 0 } } : State).custodyChanged
      (s.mayTake = true → exec (.surrenderRecognised seen shows) s = .next (t.takeOver seen)) ∧
      (s.mayTake = false → s.hlt.mode = .restore → s.twn.phase ≠ .idle →
        exec (.surrenderRecognised seen shows) s = .next (t.standbyLoses seen shows)) ∧
      (s.mayTake = false → s.hlt.mode ≠ .restore ∨ s.twn.phase = .idle → exec (.surrenderRecognised seen shows) s = .next t)) ∧
    (500000 ≤ s.elapsed.toNat - s.twn.aliveAt.toNat → s.holdsCustody = true → exec .supervisorSilent s = .next (s.releaseCustody causeSupervisorSilent)) ∧
    (∀ waits, s.headNo = 1 → s.holdsCustody = true → s.withPartner = true → s.twn.linkUp = true →
      (waits = true ∨ ∃ r ∈ s.acc.own, r.confirmed = false ∧ s.setting 0x0902 0 20000000 ≤ s.elapsed.toNat - r.sentAt.toNat) →
      exec (.confirmStall waits) s = .next (s.releaseCustody causeConfirmStall)) ∧
    (∀ src v, src = srcGovernor ∨ src = srcHost → v % 2 = 1 → exec (.twnRelease src v) s = .next (s.releaseCustody causeHostOrder)) ∧
    (∀ src, src < 96 → exec (.twnGovAlive src) s = .next { s with twn := { s.twn with aliveAt := s.elapsed } }) ∧
    (∀ seen absent, s.maySolo = true → s.setting 0x0903 0 60000000000 ≤ s.elapsed.toNat - s.twn.lastHeartbeat.toNat →
      s.setting 0x0903 0 60000000000 ≤ s.elapsed.toNat - s.hlt.safeAt.toNat → s.twn.peerLow = false →
      s.carriersInService.length ≤ 2 * absent → exec (.partnerWaitExpiry seen absent) s = .next (s.startSolo seen)) ∧
    (∀ seen, s.mayStart = true → exec (.serviceStart seen) s = .next (s.startSolo seen))

/-- R459 to R462: a custody message of the other head that does not repeat the last one answered has its meaning: JOIN is accepted by a
SOLO head of a level that fits, and the state is seeded; the joined head follows the ledger from cycle J and is READY, and failback and
handover name a cycle two ahead; a message with no answer goes out again after 1 ms, and a repeat is answered as the first was. -/
def Obligations.RejoinAndHandover : Prop :=
  ∀ (s : State) (head level : Nat), s.twn.strapConflict = false → head ≠ s.headNo →
    let f := s.noteFrame
    let msg (type reason cycle : Nat) := custodyBytes type head level reason cycle
    let fresh (m : List Byte) : Prop := ∀ a b, s.twn.answered = some (a, b) → a ≠ m
    (∀ answer, s.twn.answered = some (msg cmJoin 0 0, answer) → exec (.twinJoin head level) s = .next (f.sendTwin 3 answer)) ∧
    (fresh (msg cmJoin 0 0) →
      (s.hlt.mode ≠ .solo → exec (.twinJoin head level) s = .next (f.answerCustody (msg cmJoin 0 0) cmJoinRefuse whyNotSolo 0)) ∧
      (s.hlt.mode = .solo → s.levelFits level = false →
        exec (.twinJoin head level) s = .next (f.answerCustody (msg cmJoin 0 0) cmJoinRefuse whyLevel 0)) ∧
      (s.hlt.mode = .solo → s.levelFits level = true →
        exec (.twinJoin head level) s = .next (((f.answerCustody (msg cmJoin 0 0) cmJoinAccept 0 0).tellLevels).beginSeeding))) ∧
    (fresh (msg cmJoinAccept 0 0) → s.twn.phase = .asking → s.hlt.mode = .restore → exec (.twinJoinAccept head level) s =
      .next (({ f.endAwait with twn := { f.endAwait.twn with phase := .loading }, acc := f.acc.fresh, deltas := [] } : State).clearRegions)) ∧
    (∀ why, fresh (msg cmJoinRefuse why 0) → s.twn.phase = .asking → exec (.twinJoinRefuse head level why) s =
      .next { f.endAwait with twn := { f.endAwait.twn with phase := .idle } }) ∧
    (s.hlt.mode = .solo → s.twn.phase = .seeding → s.twn.seedCheckpoint = false → s.med.writing = none →
      let j := s.acc.openCycle + 1
      let w := { s.twn with phase := .joined, cycleJ := BitVec.ofNat 64 j }
      exec .seedingComplete s = .next (({ s with acc := { s.acc with last := j - 1, partner := [] }, twn := w } : State).sendCustody cmJoined j)) ∧
    (∀ cycle shown u, fresh (msg cmJoined 0 cycle) → s.twn.phase = .loading → s.hlt.mode = .restore →
      (f.loadCheckpoint shown).applyMirrored cycle (((f.loadCheckpoint shown).journalHeaders (f.loadCheckpoint shown).mirrorBase).length + 1) = some u →
      exec (.twinJoined head level cycle shown) s = .next (u.followFrom cycle shown)) ∧
    (s.hlt.mode = .solo → s.twn.phase = .joined →
      let c := s.acc.openCycle + 2
      exec (.twinReady head level) s = .next ((((({ f with twn := { f.twn with phase := .failback, cycleF := BitVec.ofNat 64 c } } : State).sendCustody
        cmFailback c).tellShipments).closeShared).ownCarriers false c)) ∧
    (∀ cycle, s.hlt.mode = .restore → s.twn.phase = .joined → s.hlt.restored = true → exec (.twinFailback head level cycle) s =
      .next { f.endAwait with twn := { f.endAwait.twn with phase := .failback, cycleF := BitVec.ofNat 64 cycle } }) ∧
    (∀ cycle, fresh (msg cmHandover 0 cycle) →
      (s.hlt.mode = .paired → 0 < s.twn.cleanRun → s.twn.phase = .idle →
        exec (.twinHandover head level cycle) s = .next (f.answerCustody (msg cmHandover 0 cycle) cmHandoverAccept 0 0)) ∧
      (¬ (s.hlt.mode = .paired ∧ 0 < s.twn.cleanRun ∧ s.twn.phase = .idle) →
        exec (.twinHandover head level cycle) s = .next (f.answerCustody (msg cmHandover 0 cycle) cmHandoverRefuse whyNotClean 0))) ∧
    (s.twn.phase = .handingOver → exec (.twinHandoverAccept head level) s =
        .next (({ f.endAwait with twn := { f.endAwait.twn with phase := .handAccepted } } : State).endHandoverCommand crOk s.twn.cycleH.toNat) ∧
      ∀ why, exec (.twinHandoverRefuse head level why) s = .next f.cancelHandover.cancelActivation) ∧
    (∀ m, s.twn.awaiting = some m → 1000000 ≤ s.elapsed.toNat - s.twn.awaitingAt.toNat →
      (leAt m 8 8 = 0 ∨ s.acc.openCycle < leAt m 8 8 → exec .custodyMessageRepeat s =
        .next { s.sendTwin 3 m with twn := { (s.sendTwin 3 m).twn with awaitingAt := s.elapsed } }) ∧
      (leAt m 8 8 ≠ 0 → leAt m 8 8 ≤ s.acc.openCycle → s.twn.phase ≠ .handingOver → exec .custodyMessageRepeat s = .next s.endAwait))


/-! ### Snapshots, streams and the stack; the endpoint and its control rings (R465 to R496, R565) -/

/-- R469, R473 to R476, R478, R479 and R565: an order whose point is reached queues its SNAPSHOT item; a stream message of the format whose
tag holds is taken in SEQ order, one whose tag fails is asked for again and counted, and one not of the format is passed over; its blocks are
claimed of the peer's slot first, and a claim refused leaves it unopened; a repair
request is answered from the view it names; a ship interval orders a replication view; and the registrar's pulse, the edges of
`STACK_SYNC` and their absence have their effects. -/
def Obligations.StreamsAndStack : Prop :=
  ∀ (s : State) (peer : Nat) (msg : List Byte),
    (s.openMessage peer 5 msg = .malformed → exec (.streamAck peer msg) s = .next s) ∧
    (∀ ok w, s.openMessage peer 5 msg ≠ .malformed → s.useGcm peer (msg.length - 80) = (ok, w) →
      (ok = false → exec (.streamAck peer msg) s = .next w) ∧
      (ok = true → s.openMessage peer 5 msg = .untrusted → ∃ u, u < 128 ∧
        exec (.streamAck peer msg) s = .next ((w.takeFree.bump (rCphUnit u + 0x14) 1).emit (.streamRepeat peer (msgStream msg) (msgSeq msg))))) ∧
    (∀ w h p, s.useGcm peer (msg.length - 80) = (true, w) →
      (s.openMessage peer 1 msg = .good h p → p.length = 128 → msgSeq h = 1 → w.holdsNs (leAt p 16 4) = true → ∃ t : State,
        exec (.streamBegin peer msg) s = .next t ∧ leAt p 16 4 ∈ t.snp.replicas ∧ ∃ x ∈ t.snp.inbound, x.peer = peer ∧ x.stream = msgStream h ∧
          x.nsid = leAt p 16 4 ∧ x.seq = 1 ∧ x.groups = 0 ∧ x.ended = false ∧ x.label = slice p 96 32) ∧
      (∀ x, s.openMessage peer 2 msg = .good h p → w.inbound peer (msgStream h) = some x →
        let masks := msgArg1 h
        let n := countOnes 8 (masks % 256)
        let d := decodeFolio (p.drop (32 * n)) (p.drop (32 * n)).length (4096 * n) x.chain
        let w' := if n = 0 then w else w.useDecoder 2 1 d.out.length
        (msgSeq h ≠ x.seq + 1 → exec (.streamGroup peer msg) s = .next w) ∧
        (msgSeq h = x.seq + 1 → x.ended = false → w.holdsNs x.nsid = true → w.mayAllocate (8 * n) = true → w.openRoom 8 = true →
          w.canReserve (8 * n) = true → (n = 0 ∨ d.status = 0) →
          let t := (groupWrites (msgArg0 h) masks d.out).foldl (fun t y => t.innerWrite x.nsid y) w'
          let u := if masks / 2 ^ 24 % 256 = 0 then t else t.queueItems [itemMap 4 (masks / 2 ^ 24 % 256) x.nsid (groupOf (msgArg0 h)) 0]
          exec (.streamGroup peer msg) s =
            .next (u.setInbound { x with seq := x.seq + 1, groups := x.groups + 1, chain := if n = 0 then x.chain else d.after }))) ∧
      (∀ x, s.openMessage peer 4 msg = .good h p → w.inbound peer (msgStream h) = some x → msgSeq h = x.seq + 1 → x.ended = false →
        msgArg0 h + p.length ≤ msgArg1 h → exec (.streamSeal peer msg) s =
          .next (w.setInbound { x with seq := x.seq + 1, manifest := patch (padTo (msgArg1 h) x.manifest) (msgArg0 h) p })) ∧
      (∀ x, s.openMessage peer 3 msg = .good h p → w.inbound peer (msgStream h) = some x → msgSeq h = x.seq + 1 → x.ended = false →
        msgArg0 h = x.groups → w.holdsNs x.nsid = true → w.viewRoom x.nsid = true → exec (.streamEnd peer msg) s =
          .next ((w.orderSnapshot x.nsid x.label 2 none none (some (peer, x.stream, msgSeq h))).setInbound { x with seq := x.seq + 1, ended := true })) ∧
      (∀ x, s.openMessage peer 5 msg = .good h p → w.snp.shipments.find? (fun x => x.peer == peer && x.stream == msgStream h) = some x →
        msgArg1 h ≠ 0 → x.endSeq ≤ msgArg0 h → x.dropBase = false → x.reply = none →
        let l := w.snp.shipments.filter fun y => y.stream != x.stream
        exec (.streamAck peer msg) s = .next (({ w with snp := { w.snp with shipments := l, peerViews := w.snp.peerViews ++ [(peer, x.view, msgArg1 h)] } } :
          State).tellPartner msgShipped (leBytes 4 x.view ++ leBytes 4 peer))) ∧
      (∀ seen, s.openMessage peer 6 msg = .good h p →
        let answer (t : State) (why : Nat) (d : List Byte) : Prop :=
          exec (.repairReq peer msg seen) s = .next (t.sendStream peer 7 (msgStream h) (msgSeq h) (msgArg0 h) why d)
        (w.cat.viewNo (msgArg1 h) = none → answer w 2 []) ∧
        (∀ v, w.cat.viewNo (msgArg1 h) = some v → v.nsid = leAt p 0 4 → v.deleting = false →
          (∀ d, (w.viewBlock seen v.root (msgArg0 h)).1 = .ok d → answer (w.viewBlock seen v.root (msgArg0 h)).2 0 d) ∧
          ((w.viewBlock seen v.root (msgArg0 h)).1 = .zero → answer (w.viewBlock seen v.root (msgArg0 h)).2 0 (zeros 4096)))) ∧
      (∀ stream cid, s.openMessage peer 7 msg = .good h p →
        w.snp.repairs.find? (fun x => x.1 == msgStream h && x.2.2 == peer) = some (stream, cid, peer) →
        let domain := ((w.cat.firstOf cid).map fun f => (w.cat.record f).domain).getD 0
        let good := msgArg1 h = 0 ∧ p.length = 4096 ∧ fingerprint (w.digestKey domain) p = w.cat.digestOf cid
        ∃ t : State, exec (.repairResp peer msg) s = .next t ∧ (∀ x ∈ t.snp.repairs, x.1 ≠ stream) ∧
          (good → Sparse.get [] cid t.snp.repairBlocks = p) ∧ (¬ good → (peer, cid) ∈ t.snp.repairFailed))) ∧
    (∀ ns (o : SnapOrder), s.snp.orders.find? (fun o => o.nsid == ns && ! o.queued) = some o → s.holdsNs ns = true → s.pointReached ns o.n = true →
      ∃ t : State, exec (.snapshotItemQueue ns) s = .next t ∧ t.deltas = s.deltas ++ itemsSnapshot ns o.n o.label) ∧
    (∀ ns, s.holdsNs ns = true → s.viewRoom ns = true → (s.streamKey peer).isSome = true → (∀ x ∈ s.snp.shipments ++ s.snp.restarts, x.nsid ≠ ns) →
      (∀ o ∈ s.snp.orders, o.nsid ≠ ns) → ∃ t : State, exec (.shipInterval ns peer) s = .next t ∧
        t.snp.orders = (s.orderSnapshot ns (zeros 32) 2 none (some peer) none).snp.orders ∧ Sparse.get 0 ns t.snp.shippedAt = s.elapsed) ∧
    (s.snp.registrar = true → 1000000 ≤ s.elapsed.toNat - s.snp.lastPulse.toNat →
      exec .stackSyncPulse s = .next { s with snp := { s.snp with lastPulse := s.elapsed } }) ∧
    (∀ high, (high < 2000 → exec (.stackSyncEdge high) s = .next s) ∧
      (2000 ≤ high → s.reg64 rStkSyncCount < 2 ^ 64 - 1 → ∃ t : State, exec (.stackSyncEdge high) s = .next t ∧
        t.reg64 rStkSyncCount = s.reg64 rStkSyncCount + 1 ∧ t.snp.lastEdge = s.elapsed)) ∧
    (s.headNo = 1 → s.pairNo = 0 → s.hlt.mode ≠ .safe → 10000000 ≤ s.elapsed.toNat - s.snp.lastEdge.toNat → 0 < s.twn.peer.uncleanRun →
      exec .stackSyncSilence s = .next s.takeRegistrar)

/-- R480 to R489, R494 and R496: the head host's resets clear the endpoint and train it again; BAR4 reads and writes LPDDR through its window
or answer unsupported request, and the MSI-X table is written through BAR2; a vector of `EP_MSIX_SEND` fires; invalidations and translation
completions change the translation cache; and a control ring's doorbell brings its commands. -/
def Obligations.HostEndpoint : Prop :=
  ∀ s : State,
    (let t : State := { s with pin := { s.pin with perstLow := true } };
      exec (.perstN true) s = .next t.endpointReset ∧ t.endpointReset.ep = Endpoint.cold) ∧
    (let t : State := { s with pin := { s.pin with perstLow := false } };
      (s.pin.perstLow = true → exec (.perstN false) s = .next t.trainEndpoint) ∧ (s.pin.perstLow = false → exec (.perstN false) s = .next t)) ∧
    (s.ep.linkUp = true → exec (.hostLinkDown false) s = .next s.endpointReset ∧ exec (.hostLinkDown true) s = .next s.endpointReset.trainEndpoint) ∧
    (s.barsOpen = true →
      (∀ o n, (s.inLpddr (s.bar4Address o) n = false → exec (.bar4Read o n) s = .next ((s.bump rEpBar4Ur 1).replyHost o [] true)) ∧
        (s.inLpddr (s.bar4Address o) n = true → s.touchesDamage (s.bar4Address o) n = true →
          exec (.bar4Read o n) s = .next (((s.countDamage (s.bar4Address o)).bump rEpBar4Ur 1).replyHost o [] true)) ∧
        (s.inLpddr (s.bar4Address o) n = true → s.touchesDamage (s.bar4Address o) n = false →
          exec (.bar4Read o n) s = .next ((s.correct (s.bar4Address o) n).replyHost o (s.bytes (s.bar4Address o) n) false))) ∧
      (∀ o (bs : List (Bool × Byte)), (s.inLpddr (s.bar4Address o) bs.length = false → exec (.bar4Write o bs) s = .next (s.bump rEpBar4Ur 1)) ∧
        (s.inLpddr (s.bar4Address o) bs.length = true → s.mergesDamage (s.bar4Address o) (bs.map (·.1)) = false →
          exec (.bar4Write o bs) s = .next (s.performWrite (s.bar4Address o) bs) ∧
          ∀ a, a < s.bar4Address o ∨ s.bar4Address o + bs.length ≤ a → (s.performWrite (s.bar4Address o) bs).byte a = s.byte a)) ∧
      (∀ o v, o % 4 = 0 → o < 0x8000 → exec (.msixEntryWrite o v) s = .next (({ s with ep := { s.ep with
        msix := Sparse.modify MsixEntry.reset (o / 16) (MsixEntry.put (o % 16 / 4) v) s.ep.msix } } : State).settleVector (o / 16))) ∧
      (∀ o v, o % 4 ≠ 0 ∨ 0x8000 ≤ o → exec (.msixEntryWrite o v) s = .next s)) ∧
    (∀ v : Word32, (16 ≤ v.toNat % 2048 → exec (.epMsixSend v) s = .next (s.raiseVector (v.toNat % 2048))) ∧
      (v.toNat % 2048 < 16 → exec (.epMsixSend v) s = .next s)) ∧
    (∀ page pages, s.ep.linkUp = true → s.ep.invals.length < 32 →
      let l := s.ep.atc.filter fun t => ! (decide (page ≤ t.page) && decide (t.page < page + pages))
      exec (.atsInvalidateRequest page pages) s = .next ((({ s with ep := { s.ep with atc := l, invals := s.ep.invals ++ [(page, pages)] } } : State).revokeRange
        (hostBase + 4096 * page) (4096 * pages)).settleInval (page, pages))) ∧
    (∀ page ok read write, page ∈ s.ep.atsWaiting → (∀ r ∈ s.ep.invals, ¬ (r.1 ≤ page ∧ page < r.1 + r.2)) →
      let t : State := { s with ep := { s.ep with atsWaiting := s.ep.atsWaiting.erase page } }
      (ok = false ∨ (read = false ∧ write = false) → exec (.translationCompletion page ok read write) s = .next (t.failTranslation page)) ∧
      (ok = true → write = true ∨ (read = true ∧ t.lacksWrite page = false) → s.ep.atc.length < 8192 →
        exec (.translationCompletion page ok read write) s = .next (State.resumeAllStores { t with ep := { t.ep with
          atc := s.ep.atc ++ [{ page := page, read := read, write := write }] } }))) ∧
    (∀ r tail cmds, r < 4 → s.cringEnabled r = true → s.ep.linkUp = true →
      let at_ := tail % s.cringSize r
      (s.supervisorRuns = false → exec (.epCrTail r tail cmds) s = .next (s.modCring r fun x => { x with tail := at_, heldTail := some at_ })) ∧
      (s.supervisorRuns = true →
        let n := (at_ + s.cringSize r - (s.cring r).subHead) % s.cringSize r
        let new := (List.range n).map fun i => padTo 64 (cmds.getD i [])
        exec (.epCrTail r tail cmds) s =
          .next ((s.modCring r fun x => { x with tail := at_, subHead := at_, heldTail := none, fetched := x.fetched ++ new }).sweepRing r n))) ∧
    (∀ r, r < 4 → s.cringEnabled r = true → exec (.epCrDisable r) s =
      .next (((s.clearRegBit (rEpCr r + 0x10) 0).modCring r fun x => { x with stopping := true }).settleRing r))

/-- R491 to R495 and R469 to R473, R322 to R324, R388, R455, R461 and R479: the command in front of a control ring that is served is
checked and ends with its status, or waits for what it ordered: settings, statistics, snapshots, deletion, seals, shipments, reshapes,
service, handover, labels, stack snapshots and the health ring. -/
def Obligations.ControlRingCommands : Prop :=
  ∀ (s : State) (r : Nat) (c : List Byte) (rest : List (List Byte)), (s.cring r).fetched = c :: rest → r < 4 → s.supervisorRuns = true →
    (s.cring r).busy = false → badRingCommand c = false →
    let ends (o : Host.Outcome State Fault Refusal) (t : State) (st res : Nat) : Prop := o = .next (t.crComplete r st res 0)
    let waits (o : Host.Outcome State Fault Refusal) (t : State) : Prop := o = .next (t.ringWait r)
    let a0 := ringArg0 c
    let op (n : Nat) : Prop := leAt c 0 2 = n
    (∀ data, op 1 → s.ringData c data = none → ends (exec (.crSettings r data) s) s crDataFault 0) ∧
    (∀ data d, op 1 → s.ringData c data = some d →
      (65536 ≤ a0 → ends (exec (.crSettings r data) s) s crUnknown 0) ∧
      (∀ st t, a0 < 65536 → s.setOne r a0 (ringArg1 c) (ringArg2 c) d = .ends st t → ends (exec (.crSettings r data) s) t st 0) ∧
      (∀ t, a0 < 65536 → s.setOne r a0 (ringArg1 c) (ringArg2 c) d = .waits t → waits (exec (.crSettings r data) s) t)) ∧
    (∀ l : List Nat, op 2 → (a0 = 1 ∧ l = s.acc.stats) ∨ (a0 = 2 ∧ l = s.med.conserveStats) →
      let b := (l.flatMap (leBytes 8)).take (ringDataLen c)
      let w := s.hostWrite 0 (ringDataAddr c) b
      (w.1 = true → ends (exec (.crStatistics r) s) w.2 crOk b.length) ∧ (w.1 = false → ends (exec (.crStatistics r) s) w.2 crDataFault 0)) ∧
    (∀ data d, op 3 → s.ringData c data = some d → d.length = 32 → s.holdsNs a0 = true → s.viewRoom a0 = true →
      waits (exec (.crSnapshot r data) s) (s.orderSnapshot a0 d 1 (some r) none none)) ∧
    (op 4 → s.cat.viewNo a0 = none → ends (exec (.crViewDelete r) s) s crRefused 0) ∧
    (∀ v, op 4 → s.cat.viewNo a0 = some v → v.kind ≠ 0 → v.deleting = false → s.holdsNs v.nsid = true → s.shipping v.view = false →
      s.sealing v.view = false →
      s.viewItemQueued 2 v.view = false → waits (exec (.crViewDelete r) s) (s.queueAnswered [itemView 2 v.view 0] (.ring r 0))) ∧
    (∀ v, op 5 → s.cat.viewNo a0 = some v → v.kind ≠ 0 → v.deleting = false → v.isSealed = false → s.holdsNs v.nsid = true →
      s.sealing v.view = false → s.viewItemQueued 2 v.view = false → waits (exec (.crSeal r) s) (s.startSeal v (some r))) ∧
    (∀ v seen, op 6 → s.cat.viewNo (ringArg1 c / 2 ^ 32) = some v → v.kind ≠ 0 → v.deleting = false → v.nsid = a0 → ringArg1 c % 2 ^ 32 = 0 →
      s.holdsNs a0 = true → (s.streamKey (ringArg2 c)).isSome = true →
      waits (exec (.crShip r seen) s) (s.ship seen v 0 (ringArg2 c) (some r) false)) ∧
    (∀ data d, op 7 → s.ringData c data = some d →
      let left := (s.serviceNumbers.filter fun n => ofLe d / 2 ^ n % 2 = 0).length
      (a0 < 4 ∨ 32 < a0 ∨ d.length ≠ 12 → ends (exec (.crReshape r data) s) s crOutOfRange 0) ∧
      (4 ≤ a0 → a0 ≤ 32 → d.length = 12 → s.reshaping = false → s.reshapeQueued = false → a0 + 2 ≤ left → 6 ≤ left → s.managesMedia = true →
        waits (exec (.crReshape r data) s) (s.queueAnswered [itemReshape 1 a0 1 (s.med.quireHigh + 1) (ofLe d)] (.ring r 0)))) ∧
    (op 8 → (s.reshaping = true → ends (exec (.crReshapeCancel r) s) { s with med := { s.med with reshapeCancel := true } } crOk 0) ∧
      (s.reshaping = false → ends (exec (.crReshapeCancel r) s) s crRefused 0)) ∧
    (∀ seen, op 9 → (a0 % 2 = 1 → s.maySolo = true → ends (exec (.crSolo r seen) s) (s.startSolo seen) crOk 0) ∧
      (a0 % 2 = 0 ∨ s.maySolo = false → ends (exec (.crSolo r seen) s) s crRefused 0)) ∧
    (op 10 → (s.hlt.mode = .paired → s.twn.phase = .idle → waits (exec (.crHandover r) s) s.startHandover) ∧
      (s.hlt.mode ≠ .paired ∨ s.twn.phase ≠ .idle → ends (exec (.crHandover r) s) s crRefused 0)) ∧
    (∀ slot agreed, op 11 →
      let x := s.car slot
      let force := ringArg1 c % 2 == 1
      (96 ≤ a0 → ends (exec (.crLabel r slot agreed) s) s crOutOfRange 0) ∧
      (a0 < 96 → slot < 96 → (x.port s.ownPort).linkUp = true → x.ident.level = 1 → s.kpr.arrayId.isSome = true → s.numberFree a0 = true →
        x.blank = true ∨ (force = true ∧ x.arrayId ≠ s.arrayId) →
        ends (exec (.crLabel r slot agreed) s) ((s.modCar slot (Carrier.label force s.arrayId a0)).admitCarrier slot agreed) crOk 0)) ∧
    (∀ data d, op 12 → s.ringData c data = some d →
      (s.snp.registrar = false → ends (exec (.crStackSnapshot r data) s) s crRefused 0) ∧
      (s.snp.registrar = true → d.length % 4 = 0 → s.reg64 rStkSyncCount < a0 → ends (exec (.crStackSnapshot r data) s)
        (({ s with snp := { s.snp with stackOrders := s.snp.stackOrders ++ (pieces 4 d).map fun b => (a0, ofLe b) } } : State).tellPartner
          msgStackOrder (leBytes 8 a0 ++ d)) crOk 0)) ∧
    (op 13 → (a0 % 4096 ≠ 0 → ends (exec (.crHealthRing r) s) s crOutOfRange 0) ∧
      (a0 = 0 → ends (exec (.crHealthRing r) s) { s with ep := { s.ep with healthRing := 0, healthSlot := 0 } } crOk 0) ∧
      (a0 % 4096 = 0 → a0 ≠ 0 → s.twn.reportsHeld = [] → ∃ t : State, ends (exec (.crHealthRing r) s) t crOk 0 ∧ t.ep.healthRing = a0 ∧ t.ep.healthSlot = 0))


/-! ### Modes, security, firmware update, power and test access (R496 to R584) -/

/-- R502, R504 to R511, R519 and R523 to R530, R551: a mode command is checked in the order of R504 and proceeds only with OK; LPDDR channels
are trained in SAFE; a mailbox command of the right length has its effect and ends with its result; and an alarm of the keeper clears what
it guards at once, and ends once its condition is gone. -/
def Obligations.ModesAndSecurity : Prop :=
  ∀ s : State,
    (∀ src, (src = srcHost ∨ s.supervisorCore = some src) → s.hlt.cmdBusy = false →
      let decided (op r : Nat) : State := { s with hlt := { s.hlt with cmdBusy := false, cmdOp := op, cmdResult := r } }
      (∀ found seen shows, s.hltResult 1 false ≠ hltOk →
        exec (.hltRestore src found seen shows) s = .next (decided 1 (s.hltResult 1 false))) ∧
      (∀ found seen shows, s.hltResult 1 false = hltOk → exec (.hltRestore src found seen shows) s =
        .next ((found.foldl (fun (t : State) c => t.carrierUp c.slot c.width c.ident c.array c.number c.agreed)
          (((decided 1 hltOk).setMode .restore .none).releasePerst)).beginRestore seen shows)) ∧
      (∀ anchors seen, s.hltResult 2 anchors = hltOk → ∃ t : State, t = (decided 2 hltOk).drawArray.labelBlank ∧
        exec (.hltCreateArray src anchors seen) s = .next ((((t.loadCheckpoint t.firstCheckpoint).clearRegions).replay seen
          { checkpoint := none, dump := none, ownDump := false, table := true } t.firstCheckpoint true).writeFirst t.firstCheckpoint)) ∧
      (s.hltResult 3 false = hltOk → exec (.hltQuiesce src) s = .next (decided 3 hltOk).quiesce) ∧
      (s.hltResult 4 false = hltOk → exec (.hltResume src) s = .next ((decided 4 hltOk).setMode .solo .none)) ∧
      (s.hltResult 5 false = hltOk → ∀ seen shows, ∃ t : State, t = { decided 5 hltOk with hlt := { (decided 5 hltOk).hlt with kept := false } } ∧
        exec (.hltRejoin src seen shows) s = .next ((t.setMode .restore .none).beginRestore seen shows))) ∧
    (∀ op anchors, (s.modePermits op = false → s.hltResult op anchors = hltWrongMode) ∧
      (s.modePermits op = true → s.hlt.imageOk = false → s.hltResult op anchors = hltNoImage) ∧
      (s.modePermits op = true → s.hlt.imageOk = true → s.hlt.fuseOk = false → s.hltResult op anchors = hltTrimInvalid)) ∧
    (∀ mask, mask % 4 = 3 → s.hlt.training = 0 → s.hlt.mode = .safe → exec (.lpddrTrainStart mask) s =
      .next { s.setReg rLpdCtl (mask % 256) with hlt := { s.hlt with training := BitVec.ofNat 8 mask } }) ∧
    (∀ failed, s.hlt.training ≠ 0 → ∃ t : State, exec (.lpddrTrainComplete failed) s = .next t ∧ t.hlt.training = 0 ∧
      t.hlt.trained = (s.hlt.trained ||| s.hlt.training) &&& ~~~ (s.hlt.training &&& failed) ∧
      t.hlt.trainFailed = (s.hlt.trainFailed &&& ~~~ s.hlt.training) ||| (s.hlt.training &&& failed)) ∧
    (s.kpr.mbBusy = false →
      let done (o : Host.Outcome State Fault Refusal) (op len : Nat) (r : MbEnd) : Prop :=
        o = .next { r.s with kpr := { r.s.kpr with mbBusy := true, mbOp := op, mbLen := len, mbPending := some (r.result, r.resp) } }
      (∀ len, len ≠ 0 → done (exec (.secIdentity srcHost len) s) 1 len ⟨mbLength, [], s⟩) ∧
      done (exec (.secIdentity srcHost 0) s) 1 0 ⟨mbOk, padTo 256 s.kpr.certificate, s⟩ ∧
      done (exec (.secAttest srcHost 32) s) 2 32 (s.attestCommand (s.mbBytes 32)) ∧
      (s.kpr.tampered = true → s.attestCommand (s.mbBytes 32) = ⟨mbNotAllowed, [], s⟩) ∧
      (s.kpr.tampered = false → (s.attestCommand (s.mbBytes 32)).resp = s.attestReport (s.mbBytes 32) ++
        edSign s.kpr.seed (ascii "TKAT") (s.attestReport (s.mbBytes 32))) ∧
      done (exec (.secOwnerShare srcHost 64) s) 3 64 (s.ownerShareCommand (s.mbBytes 64)) ∧
      (slice (s.mbBytes 64) 2 6 = zeros 6 → s.kpr.tampered = true ∨ s.kpr.alarms ≠ [] →
        s.ownerShareCommand (s.mbBytes 64) = ⟨mbNotAllowed, [], s.zeroMailbox⟩) ∧
      done (exec (.secKeyInput srcHost 40) s) 4 40 (s.keyInputCommand (s.mbBytes 40)) ∧
      (slice (s.mbBytes 40) 3 5 = zeros 5 → s.kpr.owner = .none → s.keyInputCommand (s.mbBytes 40) = ⟨mbNotAllowed, [], s⟩) ∧
      (∀ a, s.kpr.arrayId = some a → done (exec (.secArrayInfo srcHost 0) s) 5 0 ⟨mbOk, padTo 16 a ++ padTo 8 s.kpr.keyCheck, s⟩) ∧
      (s.kpr.arrayId = none → done (exec (.secArrayInfo srcHost 0) s) 5 0 ⟨mbNotAllowed, [], s⟩) ∧
      done (exec (.secZeroise srcHost 0) s) 6 0 ⟨mbOk, [], s.keeperAlarm alarmZeroise⟩) ∧
    (∀ r, s.kpr.mbPending = some r → ∃ t : State, exec .mailboxCommandComplete s = .next t ∧ t.kpr.mbBusy = false ∧ t.kpr.mbDone = true ∧
      t.kpr.mbResult = r.1 ∧ t.kpr.mbRespLen = r.2.length) ∧
    (∀ code, 1 ≤ code → code ≤ 6 → exec (.keeperAlarm code) s = .next (s.keeperAlarm code) ∧
      (s.pwr.phase = .dump → code ≠ alarmLid → s.keeperAlarm code = { s with kpr := { s.kpr with heldAlarms := s.kpr.heldAlarms ++ [code] } }) ∧
      (s.pwr.phase ≠ .dump → s.pwr.phase ≠ .close →
        let t := s.keeperAlarm code
        t.kpr.os = [] ∧ t.kpr.km = [] ∧ t.kpr.shares = [] ∧ t.kpr.owner = .none ∧ t.digestKeys = [] ∧ t.cipherSlots = [] ∧ t.kpr.lastAlarm = code ∧
        t.kpr.tampered = (s.kpr.tampered || code == alarmLid) ∧ t.kpr.arrayId = s.kpr.arrayId ∧ t.kpr.keyCheck = s.kpr.keyCheck ∧
        code ∈ t.kpr.alarms)) ∧
    (∀ code, code ≠ alarmLid → s.passed s.kpr.alarmClearAt 1000000000 = true → exec (.alarmEnd code true) s =
      .next { s with kpr := { s.kpr with alarms := s.kpr.alarms.filter fun a => a != code } }) ∧
    (∀ passes, exec (.alarmEnd alarmLid passes) s = .next s) ∧
    (∀ i dest, s.supervisorRuns = true → i < (s.kpr.slotOf s.hlt.slot).sections →
      let x := s.kpr.slotOf s.hlt.slot
      let l := s.loadSection dest (x.sectionBytes (x.section i))
      let t (ok : Bool) : State := { l.2 with kpr := { l.2.kpr with sectionReport := some (i, ok) } }
      (x.sectionGood (x.section i) = true → exec (.sectionLoad i dest) s = .next (t l.1)) ∧
      (x.sectionGood (x.section i) = false → exec (.sectionLoad i dest) s = .next (t false).beginFallback) ∧
      (inUnitStore dest (x.sectionBytes (x.section i)).length = true → l = (true, s.putBytes dest (x.sectionBytes (x.section i)))) ∧
      (∀ k a t', inUnitStore dest (x.sectionBytes (x.section i)).length = false →
        s.writeSpan 0x60 dest (x.sectionBytes (x.section i)) = (some (k, a), t') → l = (false, t'.2.busError k 0x60 a)))

/-- R538 to R544 and R552: a slot command of the head host is refused by a guard input or for a protected slot, and else erases, writes or
verifies the slot, or schedules or cancels an activation; its result is reported when it ends; a trial is confirmed, or falls back when its
window passes, and the other image is activated 1 s later. -/
def Obligations.FirmwareUpdate : Prop :=
  ∀ (s : State) (slot : Nat), slot = 1 ∨ slot = 2 →
    (s.kpr.updBusy = false →
      let at_ (op n : Nat) : State := { s with kpr := { s.kpr with updOp := op, updSlot := n } }
      let ends (o : Host.Outcome State Fault Refusal) (op r : Nat) : Prop := o = .next ((at_ op slot).updEnds r)
      (s.guarded = true → ends (exec (.updErase srcHost slot) s) 1 updGuard ∧ ends (exec (.updWrite srcHost slot) s) 2 updGuard ∧
        ends (exec (.updSchedule srcHost slot) s) 4 updGuard) ∧
      (s.slotProtected slot = true → ends (exec (.updVerify srcHost slot) s) 3 updProtected ∧
        (s.guarded = false → ends (exec (.updErase srcHost slot) s) 1 updProtected ∧ ends (exec (.updWrite srcHost slot) s) 2 updProtected)) ∧
      (s.guarded = false → s.slotProtected slot = false →
        exec (.updErase srcHost slot) s = .next (((at_ 1 slot).modSlot slot fun _ => { image := [], result := updBlank }).updTakes (some updOk)) ∧
        (0x4000000 < s.reg rUpdAddr + 256 → ends (exec (.updWrite srcHost slot) s) 2 updOutOfRange) ∧
        (s.reg rUpdAddr + 256 ≤ 0x4000000 → ∃ t : State, exec (.updWrite srcHost slot) s = .next t ∧ t.kpr.updBusy = true ∧
          t.kpr.slotOf slot = { (s.kpr.slotOf slot).put (s.reg rUpdAddr) s.updPage with result := updNotVerified })) ∧
      (s.slotProtected slot = false → exec (.updVerify srcHost slot) s =
        .next (((at_ 3 slot).modSlot slot fun x => { x with result := (at_ 3 slot).kpr.verifyImage ((at_ 3 slot).kpr.slotOf slot) }).updTakes
          (some ((at_ 3 slot).kpr.verifyImage ((at_ 3 slot).kpr.slotOf slot))))) ∧
      (s.guarded = false →
        ((s.kpr.slotOf slot).result ≠ 0 → ends (exec (.updSchedule srcHost slot) s) 4 updNotVerified) ∧
        ((s.kpr.slotOf slot).result = 0 → s.levelMayRun (s.kpr.slotOf slot).level = false → ends (exec (.updSchedule srcHost slot) s) 4 updLevel) ∧
        ((s.kpr.slotOf slot).result = 0 → s.levelMayRun (s.kpr.slotOf slot).level = true →
          (s.hlt.mode = .paired → 0 < s.twn.cleanRun → s.twn.linkUp = true → exec (.updSchedule srcHost slot) s =
            .next (((at_ 4 slot).tellPartner msgSchedule (leBytes 1 slot ++ leBytes 8 (s.reg64 rUpdActCycle))).updTakes none)) ∧
          (s.hlt.mode = .quiesce → s.hlt.drained = true → s.reg64 rUpdActCycle < s.acc.openCycle + 4 → ends (exec (.updSchedule srcHost slot) s) 4 updCycle) ∧
          (s.hlt.mode ≠ .quiesce → s.hlt.mode ≠ .paired → ends (exec (.updSchedule srcHost slot) s) 4 updNotPaired))) ∧
      (s.kpr.scheduled = none → exec (.updCancel srcHost) s = .next ((at_ 5 0).updEnds updOk)) ∧
      (∀ n a, s.kpr.scheduled = some (n, a) →
        (s.kpr.handoverSent = true → exec (.updCancel srcHost) s = .next ((at_ 5 0).updEnds updTooLate)) ∧
        (s.kpr.handoverSent = false → s.hlt.mode ≠ .quiesce → ∃ t : State, exec (.updCancel srcHost) s = .next t ∧ t.kpr.scheduled = none ∧
          t.kpr.updResult = updOk))) ∧
    (∀ r, s.kpr.updBusy = true → s.kpr.updPending = some r →
      exec (.updCommandComplete []) s = .next { s with kpr := { s.kpr with updBusy := false, updPending := none, updResult := r } }) ∧
    (∀ src, src < 96 → s.kpr.trial = true → s.kpr.fallbackAt = none → exec (.healthConfirm src 0x4B4F4348) s = .next s.confirmTrial ∧
      s.confirmTrial.kpr.trial = false ∧ s.confirmTrial.kpr.confirmed = true ∧
      s.confirmTrial.kpr.svnFloor = max s.kpr.svnFloor (s.kpr.slotOf s.hlt.slot).svn) ∧
    (∀ src v, v ≠ (0x4B4F4348 : Word32) ∨ s.kpr.trial = false → exec (.healthConfirm src v) s = .next s) ∧
    (s.kpr.trial = true → s.passed s.kpr.trialStart (s.setting 0x0B00 0 600000000000) = true → exec .confirmWindowExpiry s = .next s.beginFallback) ∧
    (s.kpr.fallbackAt = none → s.hlt.slot ≠ 0 → s.hlt.mode ≠ .paired →
      s.beginFallback = { s with kpr := { s.kpr.append (otherSlot s.hlt.slot) 2 0 with fallbackAt := some s.elapsed } }) ∧
    (∀ since, s.kpr.fallbackAt = some since → s.passed since 1000000000 = true → exec .fallbackActivation s = .next s.activateImage) ∧
    (∀ i, i < 3 →
      exec (.guardInputChange i true) s = .next { s with kpr := { s.kpr with guards := s.kpr.guards ||| BitVec.ofNat 3 (2 ^ i) } } ∧
      exec (.guardInputChange i false) s = .next { s with kpr := { s.kpr with guards := s.kpr.guards &&& ~~~ BitVec.ofNat 3 (2 ^ i) } })

/-- R292, R330, R331, R496, R513, R561, R566 to R568, R571 to R578 and R584: a cold start ends in SAFE with its straps, fuses
and supplies; the other starts and resets run; supplies and the hold-up are followed;
a power loss releases custody and drains, dumps and closes at its times; reference clocks go and come back; a temperature sample has the
action of the highest threshold it crosses; CXL links come up and go down; and the test access port takes its instructions. -/
def Obligations.PowerClocksAndPins : Prop :=
  ∀ s : State,
    (∀ head fuses vin vhold, ∃ t : State, exec (.coldStart head fuses vin vhold) s = .next t ∧ t.elapsed = 0 ∧ t.hlt.mode = .safe ∧ t.hlt.safeCause = 0 ∧
      t.hlt.head = head ∧ t.hlt.fuseOk = fuses.isSome ∧ t.pwr.vinMv = vin ∧ t.pwr.vholdMv = vhold ∧ t.pwr.phase = .none ∧
      (t.pwr.holdupReady = true ↔ 10000 ≤ vhold) ∧ t.twn.drive = false ∧ t.acc.running = false ∧ t.pending = s.pending ∧
      ∀ l i, fuses = some l → i < 512 → t.reg (rTrimBank i) = (l.getD i 0).toNat) ∧
    (s.pwr.phase = .standby → s.pwr.vinGood = true → exec .powerReturn s = .next ((s.unitsReset .power).boot 1)) ∧
    (∀ src (v : Word32), src = srcHost ∨ (0x60 ≤ src ∧ src < 0x64) →
      (v.toNat / 65536 = 0x5A5A → v.toNat % 2 = 1 → exec (.warmReset src v) s = .next (s.warmStart causeHostOrder 3)) ∧
      (v.toNat / 65536 ≠ 0x5A5A ∨ v.toNat % 2 = 0 → exec (.warmReset src v) s = .next s)) ∧
    (let pin (low : Bool) : State := { s with pin := { s.pin with warmLow := low } };
      (s.pin.warmLow = false → exec (.warmResetN true) s = .next ((pin true).warmStart causeHostOrder 2)) ∧
      exec (.warmResetN false) s = .next (pin false)) ∧
    (∀ cause why, s.pwr.phase ≠ .none → s.warmStart cause why = s) ∧
    (∀ mv, 5800 ≤ mv → mv ≤ 41000 → exec (.vinGood mv) s = .next { s with pwr := { s.pwr with vinMv := mv, vinGood := true, vinCut := false } }) ∧
    (∀ mv, 42000 < mv → exec (.vinOvervoltage mv) s = .next { s with pwr := { s.pwr with vinMv := mv, vinCut := true } }) ∧
    (∀ mv, ∃ t : State, exec (.holdupReadyChange mv) s = .next t ∧ t.pwr.vholdMv = mv ∧ (10000 ≤ mv → t.pwr.holdupReady = true) ∧
      (mv ≤ 9500 → t.pwr.holdupReady = false ∧ t.twn.unclean = s.twn.unclean ||| 0x10) ∧ (9500 < mv → mv < 10000 → t.pwr.holdupReady = s.pwr.holdupReady)) ∧
    (∀ vin vhold, vin < 5200 → vhold < 5200 → ∃ t : State, exec (.islandSupplyFail vin vhold) s = .next t ∧ t.pwr.island = false ∧
      t.pwr.vinGood = false ∧ t.pwr.holdupReady = false) ∧
    (∀ vin, s.pwr.phase = .none → 6000 ≤ s.pwr.vholdMv → vin < 5600 ∨ s.pwr.vinCut = true → ∃ t : State, exec (.powerLossReport vin) s = .next t ∧
      t.pwr.phase = .drain ∧ t.pwr.loss = true ∧ t.pwr.vinGood = false ∧ t.pwr.lossAt = s.elapsed ∧ t.acc.running = false ∧ t.twn.linkUp = false ∧
      t.ep.linkUp = false) ∧
    (s.pwr.phase = .drain → s.passed s.pwr.lossAt 50000000 = true →
      (s.mayDump = true →
        let u := s.writeDump.programDumpRows
        exec .dumpPhase s = .next { u with pwr := { u.pwr with phase := .dump } } ∧ s.dumpNow ∈ s.writeDump.med.dumps ∧
          s.writeDump.pwr.dumpSeq = BitVec.ofNat 64 s.dumpNow.seq) ∧
      (s.mayDump = false → exec .dumpPhase s = .next s.standby)) ∧
    (s.pwr.phase = .dump → s.passed s.pwr.lossAt 790000000 = true → ∃ t : State, exec .dumpClose s = .next t ∧ t.pwr.phase = .standby ∧
      t.pending = s.pending) ∧
    (exec (.refclkLoss .pcieHost) s = .next { s.endpointReset with pwr := { s.endpointReset.pwr with clkHost := false } } ∧
      exec (.refclkLoss .pcieMedia) s = .next s.loseMediaClock ∧ s.loseMediaClock.pwr.clkMed = false ∧ s.loseMediaClock.pin.medPerst = 0xFFF ∧
      exec (.refclkLoss .pcieCxl) s = .next s.loseCxlClock ∧ exec (.refclkLoss .ethernet) s = .next s.loseEthernetClock ∧
      exec (.refclkLoss .crystal) s = .next (({ s with pwr := { s.pwr with crystal := false } } : State).keeperAlarm alarmClock)) ∧
    (∃ t : State, exec (.refclkReturn .ethernet) s = .next t ∧ t.pwr.clkEth = true) ∧
    (s.pwr.clkHost = false → exec (.refclkReturn .pcieHost) s = .next ({ s with pwr := { s.pwr with clkHost := true } } : State).trainEndpoint) ∧
    (∀ raw, let new := s.dieTemperature raw
      ∃ t : State, t.pwr.temp = new ∧ t.acc = s.acc ∧
        (s.pwr.temp < 125 → 125 ≤ new → exec (.thermalSample raw) s = .next (t.keeperAlarm alarmTemperature)) ∧
        (s.pwr.temp < 115 → 115 ≤ new → new < 125 → exec (.thermalSample raw) s = .next (t.releaseCustody causeThermal)) ∧
        (s.pwr.temp < 105 → 105 ≤ new → new < 115 → exec (.thermalSample raw) s = .next t.beginThrottle) ∧
        (new ≤ s.pwr.temp → exec (.thermalSample raw) s = .next t.endThrottle)) ∧
    (∀ p, p < 4 →
      let u := s.releasePerst
      (∀ gib err, u.hlt.mode ≠ .safe → u.pwr.clkCxl = true → p < u.cxlPorts → u.pin.cxlPerst.getLsbD p = false → u.regBit (rCxlPortFence p) 0 = false →
        exec (.cxlLinkChange p true gib err) s = .next ((u.setReg (rCxlPort p) (1 + 4 * u.cxlWidth)).setReg (rCxlPortCapacity p) (min 1024 gib))) ∧
      (∀ gib, u.regBit (rCxlPort p) 0 = true → exec (.cxlLinkChange p false gib false) s = .next (u.cxlDown p) ∧
        exec (.cxlLinkChange p false gib true) s = .next ((u.cxlDown p).bump (rCxlPort p + 0x10) 1))) ∧
    (let tap (j : Jtag) : State := { s with pin := { s.pin with jtag := j } };
      exec .jtagBypass s = .next (tap .bypass) ∧
      (∃ t : State, exec .jtagIdcode s = .next t ∧ t.pin.jtag = .idcode ∧ t.pin.tdo / 2 ^ 12 = 0x18640 ∧ t.pin.tdo % 2 = 1) ∧
      (∀ cells, ∃ t : State, exec (.jtagSamplePreload cells) s = .next t ∧ t.pin.jtag = .samplePreload ∧ t.pin.cells = cells) ∧
      (s.hlt.mode = .safe → s.twn.drive = false → exec .jtagExtest s = .next (tap .extest) ∧ exec .jtagHighz s = .next (tap .highz)) ∧
      (s.hlt.mode ≠ .safe ∨ s.twn.drive = true → exec .jtagExtest s = .next (tap .bypass) ∧ exec .jtagHighz s = .next (tap .bypass)))
end

