-- ==== Sys2Proof/Laws/Bits.lean ====
section
/-! SUPPORT. Bytes of numbers and elements of vectors, one at a time. -/

namespace Sys2Proof.Machine

/-- Byte `i` of the number that a byte string spells. -/
theorem ofLe_byte (bs : List Byte) (i : Nat) : ofLe bs / 2 ^ (8 * i) % 256 = (bs.getD i 0).toNat := by
  induction bs generalizing i with
  | nil => simp [ofLe]
  | cons b t ih =>
    have hb := b.isLt
    cases i with
    | zero => simp [ofLe]; omega
    | succ n =>
      have : (2 : Nat) ^ (8 * (n + 1)) = 256 * 2 ^ (8 * n) := by rw [Nat.mul_succ, pow_add]; norm_num [Nat.mul_comm]
      rw [this, ← Nat.div_div_eq_div_mul]
      have : ofLe (b :: t) / 256 = ofLe t := by simp only [ofLe]; omega
      rw [this, ih]; simp

/-- Byte `i` of the `n` bytes of a number. -/
theorem leBytes_getD (n v i : Nat) (h : i < n) : ((leBytes n v).getD i 0).toNat = v / 2 ^ (8 * i) % 256 := by
  induction n generalizing v i with
  | zero => omega
  | succ n ih =>
    cases i with
    | zero => simp [leBytes]
    | succ i =>
      have : (2 : Nat) ^ (8 * (i + 1)) = 256 * 2 ^ (8 * i) := by rw [Nat.mul_succ, pow_add]; norm_num [Nat.mul_comm]
      rw [this, ← Nat.div_div_eq_div_mul]
      simpa [leBytes] using ih (v / 256) i (by omega)

theorem leBytes_length (n v : Nat) : (leBytes n v).length = n := by
  induction n generalizing v with
  | zero => rfl
  | succ n ih => simp [leBytes, ih]

/-- Element `e` of a number made of elements. -/
theorem elemsFrom_elem (eb : Nat) (f : Nat → Nat) (n e0 e : Nat) (he : e < n) :
    elemsFrom eb f n e0 / 2 ^ (8 * eb * e) % 2 ^ (8 * eb) = f (e0 + e) % 2 ^ (8 * eb) := by
  induction n generalizing e0 e with
  | zero => omega
  | succ n ih =>
    simp only [elemsFrom]
    have hp : 0 < 2 ^ (8 * eb) := by positivity
    have hm := Nat.mod_lt (f e0) hp
    cases e with
    | zero => simp [Nat.add_mul_mod_self_left]
    | succ e =>
      have : (2 : Nat) ^ (8 * eb * (e + 1)) = 2 ^ (8 * eb) * 2 ^ (8 * eb * e) := by rw [Nat.mul_succ, pow_add, Nat.mul_comm]
      rw [this, ← Nat.div_div_eq_div_mul, Nat.add_mul_div_left _ _ hp, Nat.div_eq_of_lt hm, Nat.zero_add, ih (e0 + 1) e (by omega)]
      congr 2; omega

theorem elemsFrom_lt (eb : Nat) (f : Nat → Nat) (n e0 : Nat) : elemsFrom eb f n e0 < 2 ^ (8 * eb * n) := by
  induction n generalizing e0 with
  | zero => simp [elemsFrom]
  | succ n ih =>
    simp only [elemsFrom]
    have hm := Nat.mod_lt (f e0) (show 0 < 2 ^ (8 * eb) by positivity)
    have := ih (e0 + 1)
    have : (2 : Nat) ^ (8 * eb * (n + 1)) = 2 ^ (8 * eb) * 2 ^ (8 * eb * n) := by rw [Nat.mul_succ, pow_add, Nat.mul_comm]
    rw [this]
    calc _ < 2 ^ (8 * eb) + 2 ^ (8 * eb) * elemsFrom eb f n (e0 + 1) := by omega
      _ = 2 ^ (8 * eb) * (elemsFrom eb f n (e0 + 1) + 1) := by ring
      _ ≤ _ := Nat.mul_le_mul_left _ (by omega)

/-- Element `e` of a vector register whose elements are given, for the element sizes of R34 and R76. -/
theorem elem_vecOf (eb : Nat) (f : Nat → Nat) (e : Nat) (he : e < 64 / eb) : elem eb (vecOf eb f) e = f e % 2 ^ (8 * eb) := by
  have h512 : 8 * eb * elemCount eb ≤ 512 := by
    simp only [elemCount]; have := Nat.div_mul_le_self 64 eb; nlinarith
  have hl : elemsFrom eb f (elemCount eb) 0 < 2 ^ 512 := lt_of_lt_of_le (elemsFrom_lt ..) (Nat.pow_le_pow_right (Nat.succ_pos 1) h512)
  simp only [elem, vecOf, BitVec.toNat_ofNat, Nat.mod_eq_of_lt hl]
  simpa using elemsFrom_elem eb f (elemCount eb) 0 e he

theorem elem_lt (eb : Nat) (v : Vec) (e : Nat) : elem eb v e < 2 ^ (8 * eb) := Nat.mod_lt _ (by positivity)

/-- Element `e` of a destination merged under a predicate (R34). -/
theorem elem_vecMerge (eb : Nat) (p : Word64) (old : Vec) (f : Nat → Nat) (e : Nat) (he : e < 64 / eb) :
    elem eb (vecMerge eb p old f) e = if p.getLsbD (eb * e) then f e % 2 ^ (8 * eb) else elem eb old e := by
  simp only [vecMerge, elem_vecOf eb _ e he, elemActive]
  split
  · simp_all
  · simp_all [Nat.mod_eq_of_lt (elem_lt eb old e)]

/-- The bit that a sum of distinct powers of two holds. -/
theorem foldl_bits (f : Nat → Bool) (n m : Nat) :
    ((List.range n).foldl (fun acc i => acc + (if f i then 2 ^ i else 0)) 0).testBit m = (decide (m < n) && f m) ∧
    (List.range n).foldl (fun acc i => acc + (if f i then 2 ^ i else 0)) 0 < 2 ^ n := by
  induction n with
  | zero => simp
  | succ n ih =>
    obtain ⟨h1, h2⟩ := ih
    rw [List.range_succ, List.foldl_append]
    simp only [List.foldl_cons, List.foldl_nil]
    generalize (List.range n).foldl (fun acc i => acc + (if f i then 2 ^ i else 0)) 0 = a at *
    by_cases hf : f n = true
    · simp only [hf, if_true]
      constructor
      · rw [Nat.add_comm]
        rcases Nat.lt_trichotomy m n with h | h | h
        · rw [Nat.testBit_two_pow_add_gt h, h1]; simp [h, Nat.lt_succ_of_lt h]
        · subst h; rw [Nat.testBit_two_pow_add_eq, h1]; simp [hf]
        · have : 2 ^ n + a < 2 ^ m := lt_of_lt_of_le (by rw [pow_succ]; omega) (Nat.pow_le_pow_right (by decide) h)
          rw [Nat.testBit_lt_two_pow this]; simp; omega
      · rw [pow_succ]; omega
    · simp only [hf]
      constructor
      · rcases Nat.lt_trichotomy m n with h | h | h
        · simp [h1, h, Nat.lt_succ_of_lt h]
        · subst h; simp [h1, hf]
        · simp [h1, Nat.not_lt.mpr (Nat.le_of_lt h), Nat.not_le.mpr h]
      · rw [pow_succ]; simp; omega

/-- The bits that a vector compare writes (R77). -/
theorem cmpPredicate_bit (eb : Nat) (p old : Word64) (f : Nat → Bool) (n : Nat) (hn : n < 64) :
    (cmpPredicate eb p old f).getLsbD n = if p.getLsbD (eb * (n / eb)) then f (n / eb) else old.getLsbD n := by
  have h := foldl_bits (fun n => if elemActive eb p (n / eb) then f (n / eb) else old.getLsbD n) 64 n
  simp only [cmpPredicate, BitVec.getLsbD_ofNat, hn, decide_true, Bool.true_and]
  rw [h.1]
  simp [hn, elemActive]

/-- The 1 bits of a number, counted (R68, R79). -/
theorem countOnes_filter (w x : Nat) : countOnes w x = ((List.range w).filter fun i => x.testBit i).length := by
  induction w generalizing x with
  | zero => rfl
  | succ n ih =>
    simp only [countOnes, ih, List.range_succ_eq_map, List.filter_cons, List.filter_map]
    have : ((fun i => x.testBit i) ∘ Nat.succ) = fun i => (x / 2).testBit i := by funext i; simp [Nat.testBit_succ]
    rw [this]
    by_cases h : x % 2 = 1
    · simp [h]; omega
    · have : x % 2 = 0 := by omega
      simp [this]

/-- The leading zero bits of a number of `w` bits (R68). -/
theorem leadingZeros_spec (w x : Nat) (h : x < 2 ^ w) :
    leadingZeros w x ≤ w ∧ x < 2 ^ (w - leadingZeros w x) ∧ (leadingZeros w x < w → 2 ^ (w - 1 - leadingZeros w x) ≤ x) := by
  induction w with
  | zero => simp [leadingZeros] at *; omega
  | succ n ih =>
    simp only [leadingZeros]
    have h2 : x / 2 ^ n < 2 := by rw [Nat.div_lt_iff_lt_mul (by positivity)]; rw [pow_succ] at h; omega
    have hm := Nat.div_add_mod x (2 ^ n)
    have hl := Nat.mod_lt x (show 0 < 2 ^ n by positivity)
    generalize x / 2 ^ n = q at *
    have hq : q = 0 ∨ q = 1 := by omega
    rcases hq with rfl | rfl
    · have hx : x < 2 ^ n := by omega
      obtain ⟨a, b, c⟩ := ih hx
      have h1 : n + 1 - (1 + leadingZeros n x) = n - leadingZeros n x := by omega
      have h3 : n - (1 + leadingZeros n x) = n - 1 - leadingZeros n x := by omega
      refine ⟨by simp; omega, by simpa [h1] using b, ?_⟩
      intro hl
      simp only [Nat.zero_mod] at hl
      simpa [h3] using c (by simp at hl; omega)
    · exact ⟨by simp, by simpa using h, fun _ => by simp; omega⟩

/-- The trailing zero bits of a number of `w` bits (R68). -/
theorem trailingZeros_spec (w x : Nat) (h : x < 2 ^ w) :
    trailingZeros w x ≤ w ∧ (x = 0 → trailingZeros w x = w) ∧
      (x ≠ 0 → x % 2 ^ trailingZeros w x = 0 ∧ x / 2 ^ trailingZeros w x % 2 = 1) := by
  induction w generalizing x with
  | zero => simp [trailingZeros] at *; omega
  | succ n ih =>
    simp only [trailingZeros]
    split
    · rename_i h1; exact ⟨by omega, by intro h; subst h; simp at h1, fun _ => ⟨by simp [Nat.mod_one], by simpa using h1⟩⟩
    · rename_i h1
      obtain ⟨a, b, c⟩ := ih (x / 2) (by rw [pow_succ] at h; omega)
      refine ⟨by omega, fun h0 => by rw [b (by omega)]; omega, fun h0 => ?_⟩
      obtain ⟨d, e⟩ := c (by omega)
      constructor
      · rw [pow_add, pow_one, Nat.mod_mul, d]; omega
      · rw [pow_add, pow_one, ← Nat.div_div_eq_div_mul]; exact e

/-- The byte swap of R68, byte by byte. -/
theorem bswap64_byte (x : Word64) (i : Nat) (hi : i < 8) : (bswap64 x).extractLsb' (8 * i) 8 = x.extractLsb' (8 * (7 - i)) 8 := by
  apply BitVec.eq_of_toNat_eq
  have hl : ofLe (leBytes 8 x.toNat).reverse < 2 ^ 64 := by
    have : ∀ bs : List Byte, ofLe bs < 2 ^ (8 * bs.length) := by
      intro bs
      induction bs with
      | nil => simp [ofLe]
      | cons b t ih =>
        have := b.isLt
        simp only [ofLe, List.length_cons, Nat.mul_succ, pow_add]; omega
    simpa [leBytes_length] using this (leBytes 8 x.toNat).reverse
  simp only [bswap64, BitVec.extractLsb'_toNat, BitVec.toNat_ofNat, Nat.mod_eq_of_lt hl, Nat.shiftRight_eq_div_pow]
  norm_num
  rw [ofLe_byte]
  have : (leBytes 8 x.toNat).reverse.getD i 0 = (leBytes 8 x.toNat).getD (7 - i) 0 := by
    rw [List.getD_eq_getElem _ _ (by simp [leBytes_length, hi]), List.getD_eq_getElem _ _ (by simp [leBytes_length]; omega)]
    simp [leBytes_length]
  rw [this, leBytes_getD _ _ _ (by omega)]

end Sys2Proof.Machine
end

