-- ==== Sys2Proof/Laws/Sparse.lean ====
section
/-! SUPPORT. Reading a table after it is written: the key written holds the new value, every other key holds what it held. Nothing here
needs the table to be canonical. -/

namespace Sys2Proof

@[simp] theorem Sparse.get_erase_same {α : Type} (d : α) (k : Nat) (m : Sparse α) : Sparse.get d k (Sparse.erase k m) = d := by
  induction m with
  | nil => rfl
  | cons x t ih =>
    obtain ⟨j, w⟩ := x
    by_cases h : j = k <;> simp_all [Sparse.erase, Sparse.filter, Sparse.get]

theorem Sparse.get_erase_other {α : Type} (d : α) (k j : Nat) (m : Sparse α) (h : j ≠ k) :
    Sparse.get d j (Sparse.erase k m) = Sparse.get d j m := by
  induction m with
  | nil => rfl
  | cons x t ih =>
    obtain ⟨i, w⟩ := x
    by_cases hi : i = k
    · subst hi; simp_all [Sparse.erase, Sparse.filter, Sparse.get, Ne.symm h]
    · by_cases hj : i = j <;> simp_all [Sparse.erase, Sparse.filter, Sparse.get]

theorem Sparse.get_insert_same {α : Type} (d : α) (k : Nat) (v : α) (m : Sparse α) :
    Sparse.get d k (Sparse.insert k v (Sparse.erase k m)) = v := by
  induction m with
  | nil => simp [Sparse.erase, Sparse.filter, Sparse.insert, Sparse.get]
  | cons x t ih =>
    obtain ⟨j, w⟩ := x
    by_cases h : j = k
    · simpa [Sparse.erase, Sparse.filter, h] using ih
    · by_cases h1 : k < j <;> simp_all [Sparse.erase, Sparse.filter, Sparse.insert, Sparse.get, Nat.not_lt.mpr]

theorem Sparse.get_insert_other {α : Type} (d : α) (k j : Nat) (v : α) (m : Sparse α) (h : j ≠ k) :
    Sparse.get d j (Sparse.insert k v m) = Sparse.get d j m := by
  induction m with
  | nil => simp [Sparse.insert, Sparse.get, Ne.symm h]
  | cons x t ih =>
    obtain ⟨i, w⟩ := x
    by_cases h1 : k < i <;> simp_all [Sparse.insert, Sparse.get, Ne.symm h, Nat.not_lt.mpr]

theorem Sparse.erase_insert {α : Type} (k : Nat) (v : α) (m : Sparse α) : Sparse.erase k (Sparse.insert k v m) = Sparse.erase k m := by
  induction m with
  | nil => simp [Sparse.insert, Sparse.erase, Sparse.filter]
  | cons x t ih =>
    obtain ⟨i, w⟩ := x
    by_cases h1 : k < i <;> by_cases h2 : i = k <;> simp_all [Sparse.insert, Sparse.erase, Sparse.filter, Nat.not_lt.mpr]

theorem Sparse.erase_erase {α : Type} (k : Nat) (m : Sparse α) : Sparse.erase k (Sparse.erase k m) = Sparse.erase k m := by
  induction m with
  | nil => rfl
  | cons x t ih =>
    obtain ⟨j, w⟩ := x
    by_cases h : j = k <;> simp_all [Sparse.erase, Sparse.filter]

/-- The key written holds the value written. -/
@[simp] theorem Sparse.get_set_same {α : Type} [DecidableEq α] (d : α) (k : Nat) (v : α) (m : Sparse α) :
    Sparse.get d k (Sparse.set d k v m) = v := by
  simp only [Sparse.set]
  split
  · simp [*]
  · exact Sparse.get_insert_same d k v m

/-- Every key but the one written holds what it held. -/
theorem Sparse.get_set_other {α : Type} [DecidableEq α] (d : α) (k j : Nat) (v : α) (m : Sparse α) (h : j ≠ k) :
    Sparse.get d j (Sparse.set d k v m) = Sparse.get d j m := by
  simp only [Sparse.set]
  split
  · exact Sparse.get_erase_other d k j m h
  · rw [Sparse.get_insert_other d k j v _ h, Sparse.get_erase_other d k j m h]

/-- A second write to a key replaces the first. -/
@[simp] theorem Sparse.set_set {α : Type} [DecidableEq α] (d : α) (k : Nat) (v w : α) (m : Sparse α) :
    Sparse.set d k w (Sparse.set d k v m) = Sparse.set d k w m := by
  have : Sparse.erase k (Sparse.set d k v m) = Sparse.erase k m := by
    simp only [Sparse.set]
    split
    · exact Sparse.erase_erase k m
    · rw [Sparse.erase_insert, Sparse.erase_erase]
  generalize Sparse.set d k v m = u at *
  simp only [Sparse.set, this]

/-- Reading any key after a write. -/
theorem Sparse.get_set {α : Type} [DecidableEq α] (d : α) (k j : Nat) (v : α) (m : Sparse α) :
    Sparse.get d j (Sparse.set d k v m) = if j = k then v else Sparse.get d j m := by
  split
  · subst j; exact Sparse.get_set_same d k v m
  · exact Sparse.get_set_other d k j v m ‹_›

end Sys2Proof
end

