-- ==== Sys2Proof/Laws/State.lean ====
section
/-! SUPPORT. What each small update of the state leaves: one lemma per field and update, so that no proof unfolds a record update. -/

namespace Sys2Proof.Machine

variable (s : State)

@[simp] theorem State.takeFree_elapsed : s.takeFree.elapsed = s.elapsed := rfl
@[simp] theorem State.takeFree_regs : s.takeFree.regs = s.regs := rfl
@[simp] theorem State.takeFree_shadows : s.takeFree.shadows = s.shadows := rfl
@[simp] theorem State.takeFree_holds : s.takeFree.holds = s.holds := rfl
@[simp] theorem State.takeFree_replies : s.takeFree.replies = s.replies := rfl
@[simp] theorem State.takeFree_mem : s.takeFree.mem = s.mem := rfl
@[simp] theorem State.takeFree_damaged : s.takeFree.damaged = s.damaged := rfl
@[simp] theorem State.takeFree_weak : s.takeFree.weak = s.weak := rfl
@[simp] theorem State.takeFree_roles : s.takeFree.roles = s.roles := rfl
@[simp] theorem State.takeFree_cores : s.takeFree.cores = s.cores := rfl
@[simp] theorem State.takeFree_units : s.takeFree.units = s.units := rfl
@[simp] theorem State.takeFree_coderCtx : s.takeFree.coderCtx = s.coderCtx := rfl
@[simp] theorem State.takeFree_rawForced : s.takeFree.rawForced = s.rawForced := rfl
@[simp] theorem State.takeFree_digestKeys : s.takeFree.digestKeys = s.digestKeys := rfl
@[simp] theorem State.takeFree_mismatches : s.takeFree.mismatches = s.mismatches := rfl
@[simp] theorem State.takeFree_mismatchTimes : s.takeFree.mismatchTimes = s.mismatchTimes := rfl
@[simp] theorem State.takeFree_cipherSlots : s.takeFree.cipherSlots = s.cipherSlots := rfl
@[simp] theorem State.takeFree_cipherCtx : s.takeFree.cipherCtx = s.cipherCtx := rfl
@[simp] theorem State.takeFree_carriers : s.takeFree.carriers = s.carriers := rfl
@[simp] theorem State.takeFree_eraseOut : s.takeFree.eraseOut = s.eraseOut := rfl
@[simp] theorem State.takeFree_eraseIn : s.takeFree.eraseIn = s.eraseIn := rfl
@[simp] theorem State.takeFree_quires : s.takeFree.quires = s.quires := rfl
@[simp] theorem State.takeFree_deltas : s.takeFree.deltas = s.deltas := rfl
@[simp] theorem State.takeFree_acc : s.takeFree.acc = s.acc := rfl
@[simp] theorem State.takeFree_cat : s.takeFree.cat = s.cat := rfl
@[simp] theorem State.takeFree_med : s.takeFree.med = s.med := rfl
@[simp] theorem State.takeFree_atp : s.takeFree.atp = s.atp := rfl
@[simp] theorem State.takeFree_snp : s.takeFree.snp = s.snp := rfl
@[simp] theorem State.takeFree_svc : s.takeFree.svc = s.svc := rfl
@[simp] theorem State.takeFree_hlt : s.takeFree.hlt = s.hlt := rfl
@[simp] theorem State.takeFree_pwr : s.takeFree.pwr = s.pwr := rfl
@[simp] theorem State.takeFree_twn : s.takeFree.twn = s.twn := rfl
@[simp] theorem State.takeFree_kpr : s.takeFree.kpr = s.kpr := rfl
@[simp] theorem State.takeFree_pin : s.takeFree.pin = s.pin := rfl
@[simp] theorem State.takeFree_ep : s.takeFree.ep = s.ep := rfl
@[simp] theorem State.takeFree_settings : s.takeFree.settings = s.settings := rfl
@[simp] theorem State.takeFree_settingLog : s.takeFree.settingLog = s.settingLog := rfl
@[simp] theorem State.takeFree_sent : s.takeFree.sent = s.sent := rfl
@[simp] theorem State.takeFree_pending : s.takeFree.pending = s.pending := rfl

@[simp] theorem State.takeFrees_elapsed (n : Nat) : (s.takeFrees n).elapsed = s.elapsed := rfl
@[simp] theorem State.takeFrees_regs (n : Nat) : (s.takeFrees n).regs = s.regs := rfl
@[simp] theorem State.takeFrees_shadows (n : Nat) : (s.takeFrees n).shadows = s.shadows := rfl
@[simp] theorem State.takeFrees_holds (n : Nat) : (s.takeFrees n).holds = s.holds := rfl
@[simp] theorem State.takeFrees_replies (n : Nat) : (s.takeFrees n).replies = s.replies := rfl
@[simp] theorem State.takeFrees_mem (n : Nat) : (s.takeFrees n).mem = s.mem := rfl
@[simp] theorem State.takeFrees_damaged (n : Nat) : (s.takeFrees n).damaged = s.damaged := rfl
@[simp] theorem State.takeFrees_weak (n : Nat) : (s.takeFrees n).weak = s.weak := rfl
@[simp] theorem State.takeFrees_roles (n : Nat) : (s.takeFrees n).roles = s.roles := rfl
@[simp] theorem State.takeFrees_cores (n : Nat) : (s.takeFrees n).cores = s.cores := rfl
@[simp] theorem State.takeFrees_units (n : Nat) : (s.takeFrees n).units = s.units := rfl
@[simp] theorem State.takeFrees_coderCtx (n : Nat) : (s.takeFrees n).coderCtx = s.coderCtx := rfl
@[simp] theorem State.takeFrees_rawForced (n : Nat) : (s.takeFrees n).rawForced = s.rawForced := rfl
@[simp] theorem State.takeFrees_digestKeys (n : Nat) : (s.takeFrees n).digestKeys = s.digestKeys := rfl
@[simp] theorem State.takeFrees_mismatches (n : Nat) : (s.takeFrees n).mismatches = s.mismatches := rfl
@[simp] theorem State.takeFrees_mismatchTimes (n : Nat) : (s.takeFrees n).mismatchTimes = s.mismatchTimes := rfl
@[simp] theorem State.takeFrees_cipherSlots (n : Nat) : (s.takeFrees n).cipherSlots = s.cipherSlots := rfl
@[simp] theorem State.takeFrees_cipherCtx (n : Nat) : (s.takeFrees n).cipherCtx = s.cipherCtx := rfl
@[simp] theorem State.takeFrees_carriers (n : Nat) : (s.takeFrees n).carriers = s.carriers := rfl
@[simp] theorem State.takeFrees_eraseOut (n : Nat) : (s.takeFrees n).eraseOut = s.eraseOut := rfl
@[simp] theorem State.takeFrees_eraseIn (n : Nat) : (s.takeFrees n).eraseIn = s.eraseIn := rfl
@[simp] theorem State.takeFrees_quires (n : Nat) : (s.takeFrees n).quires = s.quires := rfl
@[simp] theorem State.takeFrees_deltas (n : Nat) : (s.takeFrees n).deltas = s.deltas := rfl
@[simp] theorem State.takeFrees_acc (n : Nat) : (s.takeFrees n).acc = s.acc := rfl
@[simp] theorem State.takeFrees_cat (n : Nat) : (s.takeFrees n).cat = s.cat := rfl
@[simp] theorem State.takeFrees_med (n : Nat) : (s.takeFrees n).med = s.med := rfl
@[simp] theorem State.takeFrees_atp (n : Nat) : (s.takeFrees n).atp = s.atp := rfl
@[simp] theorem State.takeFrees_snp (n : Nat) : (s.takeFrees n).snp = s.snp := rfl
@[simp] theorem State.takeFrees_svc (n : Nat) : (s.takeFrees n).svc = s.svc := rfl
@[simp] theorem State.takeFrees_hlt (n : Nat) : (s.takeFrees n).hlt = s.hlt := rfl
@[simp] theorem State.takeFrees_pwr (n : Nat) : (s.takeFrees n).pwr = s.pwr := rfl
@[simp] theorem State.takeFrees_twn (n : Nat) : (s.takeFrees n).twn = s.twn := rfl
@[simp] theorem State.takeFrees_kpr (n : Nat) : (s.takeFrees n).kpr = s.kpr := rfl
@[simp] theorem State.takeFrees_pin (n : Nat) : (s.takeFrees n).pin = s.pin := rfl
@[simp] theorem State.takeFrees_ep (n : Nat) : (s.takeFrees n).ep = s.ep := rfl
@[simp] theorem State.takeFrees_settings (n : Nat) : (s.takeFrees n).settings = s.settings := rfl
@[simp] theorem State.takeFrees_settingLog (n : Nat) : (s.takeFrees n).settingLog = s.settingLog := rfl
@[simp] theorem State.takeFrees_sent (n : Nat) : (s.takeFrees n).sent = s.sent := rfl
@[simp] theorem State.takeFrees_pending (n : Nat) : (s.takeFrees n).pending = s.pending := rfl

@[simp] theorem State.setReg_free (a v : Nat) : (s.setReg a v).free = s.free := rfl
@[simp] theorem State.setReg_elapsed (a v : Nat) : (s.setReg a v).elapsed = s.elapsed := rfl
@[simp] theorem State.setReg_shadows (a v : Nat) : (s.setReg a v).shadows = s.shadows := rfl
@[simp] theorem State.setReg_holds (a v : Nat) : (s.setReg a v).holds = s.holds := rfl
@[simp] theorem State.setReg_replies (a v : Nat) : (s.setReg a v).replies = s.replies := rfl
@[simp] theorem State.setReg_mem (a v : Nat) : (s.setReg a v).mem = s.mem := rfl
@[simp] theorem State.setReg_damaged (a v : Nat) : (s.setReg a v).damaged = s.damaged := rfl
@[simp] theorem State.setReg_weak (a v : Nat) : (s.setReg a v).weak = s.weak := rfl
@[simp] theorem State.setReg_roles (a v : Nat) : (s.setReg a v).roles = s.roles := rfl
@[simp] theorem State.setReg_cores (a v : Nat) : (s.setReg a v).cores = s.cores := rfl
@[simp] theorem State.setReg_units (a v : Nat) : (s.setReg a v).units = s.units := rfl
@[simp] theorem State.setReg_coderCtx (a v : Nat) : (s.setReg a v).coderCtx = s.coderCtx := rfl
@[simp] theorem State.setReg_rawForced (a v : Nat) : (s.setReg a v).rawForced = s.rawForced := rfl
@[simp] theorem State.setReg_digestKeys (a v : Nat) : (s.setReg a v).digestKeys = s.digestKeys := rfl
@[simp] theorem State.setReg_mismatches (a v : Nat) : (s.setReg a v).mismatches = s.mismatches := rfl
@[simp] theorem State.setReg_mismatchTimes (a v : Nat) : (s.setReg a v).mismatchTimes = s.mismatchTimes := rfl
@[simp] theorem State.setReg_cipherSlots (a v : Nat) : (s.setReg a v).cipherSlots = s.cipherSlots := rfl
@[simp] theorem State.setReg_cipherCtx (a v : Nat) : (s.setReg a v).cipherCtx = s.cipherCtx := rfl
@[simp] theorem State.setReg_carriers (a v : Nat) : (s.setReg a v).carriers = s.carriers := rfl
@[simp] theorem State.setReg_eraseOut (a v : Nat) : (s.setReg a v).eraseOut = s.eraseOut := rfl
@[simp] theorem State.setReg_eraseIn (a v : Nat) : (s.setReg a v).eraseIn = s.eraseIn := rfl
@[simp] theorem State.setReg_quires (a v : Nat) : (s.setReg a v).quires = s.quires := rfl
@[simp] theorem State.setReg_deltas (a v : Nat) : (s.setReg a v).deltas = s.deltas := rfl
@[simp] theorem State.setReg_acc (a v : Nat) : (s.setReg a v).acc = s.acc := rfl
@[simp] theorem State.setReg_cat (a v : Nat) : (s.setReg a v).cat = s.cat := rfl
@[simp] theorem State.setReg_med (a v : Nat) : (s.setReg a v).med = s.med := rfl
@[simp] theorem State.setReg_atp (a v : Nat) : (s.setReg a v).atp = s.atp := rfl
@[simp] theorem State.setReg_snp (a v : Nat) : (s.setReg a v).snp = s.snp := rfl
@[simp] theorem State.setReg_svc (a v : Nat) : (s.setReg a v).svc = s.svc := rfl
@[simp] theorem State.setReg_hlt (a v : Nat) : (s.setReg a v).hlt = s.hlt := rfl
@[simp] theorem State.setReg_pwr (a v : Nat) : (s.setReg a v).pwr = s.pwr := rfl
@[simp] theorem State.setReg_twn (a v : Nat) : (s.setReg a v).twn = s.twn := rfl
@[simp] theorem State.setReg_kpr (a v : Nat) : (s.setReg a v).kpr = s.kpr := rfl
@[simp] theorem State.setReg_pin (a v : Nat) : (s.setReg a v).pin = s.pin := rfl
@[simp] theorem State.setReg_ep (a v : Nat) : (s.setReg a v).ep = s.ep := rfl
@[simp] theorem State.setReg_settings (a v : Nat) : (s.setReg a v).settings = s.settings := rfl
@[simp] theorem State.setReg_settingLog (a v : Nat) : (s.setReg a v).settingLog = s.settingLog := rfl
@[simp] theorem State.setReg_sent (a v : Nat) : (s.setReg a v).sent = s.sent := rfl
@[simp] theorem State.setReg_pending (a v : Nat) : (s.setReg a v).pending = s.pending := rfl

@[simp] theorem State.setReg64_free (a v : Nat) : (s.setReg64 a v).free = s.free := rfl
@[simp] theorem State.setReg64_elapsed (a v : Nat) : (s.setReg64 a v).elapsed = s.elapsed := rfl
@[simp] theorem State.setReg64_shadows (a v : Nat) : (s.setReg64 a v).shadows = s.shadows := rfl
@[simp] theorem State.setReg64_holds (a v : Nat) : (s.setReg64 a v).holds = s.holds := rfl
@[simp] theorem State.setReg64_replies (a v : Nat) : (s.setReg64 a v).replies = s.replies := rfl
@[simp] theorem State.setReg64_mem (a v : Nat) : (s.setReg64 a v).mem = s.mem := rfl
@[simp] theorem State.setReg64_damaged (a v : Nat) : (s.setReg64 a v).damaged = s.damaged := rfl
@[simp] theorem State.setReg64_weak (a v : Nat) : (s.setReg64 a v).weak = s.weak := rfl
@[simp] theorem State.setReg64_roles (a v : Nat) : (s.setReg64 a v).roles = s.roles := rfl
@[simp] theorem State.setReg64_cores (a v : Nat) : (s.setReg64 a v).cores = s.cores := rfl
@[simp] theorem State.setReg64_units (a v : Nat) : (s.setReg64 a v).units = s.units := rfl
@[simp] theorem State.setReg64_coderCtx (a v : Nat) : (s.setReg64 a v).coderCtx = s.coderCtx := rfl
@[simp] theorem State.setReg64_rawForced (a v : Nat) : (s.setReg64 a v).rawForced = s.rawForced := rfl
@[simp] theorem State.setReg64_digestKeys (a v : Nat) : (s.setReg64 a v).digestKeys = s.digestKeys := rfl
@[simp] theorem State.setReg64_mismatches (a v : Nat) : (s.setReg64 a v).mismatches = s.mismatches := rfl
@[simp] theorem State.setReg64_mismatchTimes (a v : Nat) : (s.setReg64 a v).mismatchTimes = s.mismatchTimes := rfl
@[simp] theorem State.setReg64_cipherSlots (a v : Nat) : (s.setReg64 a v).cipherSlots = s.cipherSlots := rfl
@[simp] theorem State.setReg64_cipherCtx (a v : Nat) : (s.setReg64 a v).cipherCtx = s.cipherCtx := rfl
@[simp] theorem State.setReg64_carriers (a v : Nat) : (s.setReg64 a v).carriers = s.carriers := rfl
@[simp] theorem State.setReg64_eraseOut (a v : Nat) : (s.setReg64 a v).eraseOut = s.eraseOut := rfl
@[simp] theorem State.setReg64_eraseIn (a v : Nat) : (s.setReg64 a v).eraseIn = s.eraseIn := rfl
@[simp] theorem State.setReg64_quires (a v : Nat) : (s.setReg64 a v).quires = s.quires := rfl
@[simp] theorem State.setReg64_deltas (a v : Nat) : (s.setReg64 a v).deltas = s.deltas := rfl
@[simp] theorem State.setReg64_acc (a v : Nat) : (s.setReg64 a v).acc = s.acc := rfl
@[simp] theorem State.setReg64_cat (a v : Nat) : (s.setReg64 a v).cat = s.cat := rfl
@[simp] theorem State.setReg64_med (a v : Nat) : (s.setReg64 a v).med = s.med := rfl
@[simp] theorem State.setReg64_atp (a v : Nat) : (s.setReg64 a v).atp = s.atp := rfl
@[simp] theorem State.setReg64_snp (a v : Nat) : (s.setReg64 a v).snp = s.snp := rfl
@[simp] theorem State.setReg64_svc (a v : Nat) : (s.setReg64 a v).svc = s.svc := rfl
@[simp] theorem State.setReg64_hlt (a v : Nat) : (s.setReg64 a v).hlt = s.hlt := rfl
@[simp] theorem State.setReg64_pwr (a v : Nat) : (s.setReg64 a v).pwr = s.pwr := rfl
@[simp] theorem State.setReg64_twn (a v : Nat) : (s.setReg64 a v).twn = s.twn := rfl
@[simp] theorem State.setReg64_kpr (a v : Nat) : (s.setReg64 a v).kpr = s.kpr := rfl
@[simp] theorem State.setReg64_pin (a v : Nat) : (s.setReg64 a v).pin = s.pin := rfl
@[simp] theorem State.setReg64_ep (a v : Nat) : (s.setReg64 a v).ep = s.ep := rfl
@[simp] theorem State.setReg64_settings (a v : Nat) : (s.setReg64 a v).settings = s.settings := rfl
@[simp] theorem State.setReg64_settingLog (a v : Nat) : (s.setReg64 a v).settingLog = s.settingLog := rfl
@[simp] theorem State.setReg64_sent (a v : Nat) : (s.setReg64 a v).sent = s.sent := rfl
@[simp] theorem State.setReg64_pending (a v : Nat) : (s.setReg64 a v).pending = s.pending := rfl

@[simp] theorem State.bump_free (a n : Nat) : (s.bump a n).free = s.free := rfl
@[simp] theorem State.bump_elapsed (a n : Nat) : (s.bump a n).elapsed = s.elapsed := rfl
@[simp] theorem State.bump_shadows (a n : Nat) : (s.bump a n).shadows = s.shadows := rfl
@[simp] theorem State.bump_holds (a n : Nat) : (s.bump a n).holds = s.holds := rfl
@[simp] theorem State.bump_replies (a n : Nat) : (s.bump a n).replies = s.replies := rfl
@[simp] theorem State.bump_mem (a n : Nat) : (s.bump a n).mem = s.mem := rfl
@[simp] theorem State.bump_damaged (a n : Nat) : (s.bump a n).damaged = s.damaged := rfl
@[simp] theorem State.bump_weak (a n : Nat) : (s.bump a n).weak = s.weak := rfl
@[simp] theorem State.bump_roles (a n : Nat) : (s.bump a n).roles = s.roles := rfl
@[simp] theorem State.bump_cores (a n : Nat) : (s.bump a n).cores = s.cores := rfl
@[simp] theorem State.bump_units (a n : Nat) : (s.bump a n).units = s.units := rfl
@[simp] theorem State.bump_coderCtx (a n : Nat) : (s.bump a n).coderCtx = s.coderCtx := rfl
@[simp] theorem State.bump_rawForced (a n : Nat) : (s.bump a n).rawForced = s.rawForced := rfl
@[simp] theorem State.bump_digestKeys (a n : Nat) : (s.bump a n).digestKeys = s.digestKeys := rfl
@[simp] theorem State.bump_mismatches (a n : Nat) : (s.bump a n).mismatches = s.mismatches := rfl
@[simp] theorem State.bump_mismatchTimes (a n : Nat) : (s.bump a n).mismatchTimes = s.mismatchTimes := rfl
@[simp] theorem State.bump_cipherSlots (a n : Nat) : (s.bump a n).cipherSlots = s.cipherSlots := rfl
@[simp] theorem State.bump_cipherCtx (a n : Nat) : (s.bump a n).cipherCtx = s.cipherCtx := rfl
@[simp] theorem State.bump_carriers (a n : Nat) : (s.bump a n).carriers = s.carriers := rfl
@[simp] theorem State.bump_eraseOut (a n : Nat) : (s.bump a n).eraseOut = s.eraseOut := rfl
@[simp] theorem State.bump_eraseIn (a n : Nat) : (s.bump a n).eraseIn = s.eraseIn := rfl
@[simp] theorem State.bump_quires (a n : Nat) : (s.bump a n).quires = s.quires := rfl
@[simp] theorem State.bump_deltas (a n : Nat) : (s.bump a n).deltas = s.deltas := rfl
@[simp] theorem State.bump_acc (a n : Nat) : (s.bump a n).acc = s.acc := rfl
@[simp] theorem State.bump_cat (a n : Nat) : (s.bump a n).cat = s.cat := rfl
@[simp] theorem State.bump_med (a n : Nat) : (s.bump a n).med = s.med := rfl
@[simp] theorem State.bump_atp (a n : Nat) : (s.bump a n).atp = s.atp := rfl
@[simp] theorem State.bump_snp (a n : Nat) : (s.bump a n).snp = s.snp := rfl
@[simp] theorem State.bump_svc (a n : Nat) : (s.bump a n).svc = s.svc := rfl
@[simp] theorem State.bump_hlt (a n : Nat) : (s.bump a n).hlt = s.hlt := rfl
@[simp] theorem State.bump_pwr (a n : Nat) : (s.bump a n).pwr = s.pwr := rfl
@[simp] theorem State.bump_twn (a n : Nat) : (s.bump a n).twn = s.twn := rfl
@[simp] theorem State.bump_kpr (a n : Nat) : (s.bump a n).kpr = s.kpr := rfl
@[simp] theorem State.bump_pin (a n : Nat) : (s.bump a n).pin = s.pin := rfl
@[simp] theorem State.bump_ep (a n : Nat) : (s.bump a n).ep = s.ep := rfl
@[simp] theorem State.bump_settings (a n : Nat) : (s.bump a n).settings = s.settings := rfl
@[simp] theorem State.bump_settingLog (a n : Nat) : (s.bump a n).settingLog = s.settingLog := rfl
@[simp] theorem State.bump_sent (a n : Nat) : (s.bump a n).sent = s.sent := rfl
@[simp] theorem State.bump_pending (a n : Nat) : (s.bump a n).pending = s.pending := rfl

@[simp] theorem State.setRegBit_free (a i : Nat) : (s.setRegBit a i).free = s.free := rfl
@[simp] theorem State.setRegBit_elapsed (a i : Nat) : (s.setRegBit a i).elapsed = s.elapsed := rfl
@[simp] theorem State.setRegBit_shadows (a i : Nat) : (s.setRegBit a i).shadows = s.shadows := rfl
@[simp] theorem State.setRegBit_holds (a i : Nat) : (s.setRegBit a i).holds = s.holds := rfl
@[simp] theorem State.setRegBit_replies (a i : Nat) : (s.setRegBit a i).replies = s.replies := rfl
@[simp] theorem State.setRegBit_mem (a i : Nat) : (s.setRegBit a i).mem = s.mem := rfl
@[simp] theorem State.setRegBit_damaged (a i : Nat) : (s.setRegBit a i).damaged = s.damaged := rfl
@[simp] theorem State.setRegBit_weak (a i : Nat) : (s.setRegBit a i).weak = s.weak := rfl
@[simp] theorem State.setRegBit_roles (a i : Nat) : (s.setRegBit a i).roles = s.roles := rfl
@[simp] theorem State.setRegBit_cores (a i : Nat) : (s.setRegBit a i).cores = s.cores := rfl
@[simp] theorem State.setRegBit_units (a i : Nat) : (s.setRegBit a i).units = s.units := rfl
@[simp] theorem State.setRegBit_coderCtx (a i : Nat) : (s.setRegBit a i).coderCtx = s.coderCtx := rfl
@[simp] theorem State.setRegBit_rawForced (a i : Nat) : (s.setRegBit a i).rawForced = s.rawForced := rfl
@[simp] theorem State.setRegBit_digestKeys (a i : Nat) : (s.setRegBit a i).digestKeys = s.digestKeys := rfl
@[simp] theorem State.setRegBit_mismatches (a i : Nat) : (s.setRegBit a i).mismatches = s.mismatches := rfl
@[simp] theorem State.setRegBit_mismatchTimes (a i : Nat) : (s.setRegBit a i).mismatchTimes = s.mismatchTimes := rfl
@[simp] theorem State.setRegBit_cipherSlots (a i : Nat) : (s.setRegBit a i).cipherSlots = s.cipherSlots := rfl
@[simp] theorem State.setRegBit_cipherCtx (a i : Nat) : (s.setRegBit a i).cipherCtx = s.cipherCtx := rfl
@[simp] theorem State.setRegBit_carriers (a i : Nat) : (s.setRegBit a i).carriers = s.carriers := rfl
@[simp] theorem State.setRegBit_eraseOut (a i : Nat) : (s.setRegBit a i).eraseOut = s.eraseOut := rfl
@[simp] theorem State.setRegBit_eraseIn (a i : Nat) : (s.setRegBit a i).eraseIn = s.eraseIn := rfl
@[simp] theorem State.setRegBit_quires (a i : Nat) : (s.setRegBit a i).quires = s.quires := rfl
@[simp] theorem State.setRegBit_deltas (a i : Nat) : (s.setRegBit a i).deltas = s.deltas := rfl
@[simp] theorem State.setRegBit_acc (a i : Nat) : (s.setRegBit a i).acc = s.acc := rfl
@[simp] theorem State.setRegBit_cat (a i : Nat) : (s.setRegBit a i).cat = s.cat := rfl
@[simp] theorem State.setRegBit_med (a i : Nat) : (s.setRegBit a i).med = s.med := rfl
@[simp] theorem State.setRegBit_atp (a i : Nat) : (s.setRegBit a i).atp = s.atp := rfl
@[simp] theorem State.setRegBit_snp (a i : Nat) : (s.setRegBit a i).snp = s.snp := rfl
@[simp] theorem State.setRegBit_svc (a i : Nat) : (s.setRegBit a i).svc = s.svc := rfl
@[simp] theorem State.setRegBit_hlt (a i : Nat) : (s.setRegBit a i).hlt = s.hlt := rfl
@[simp] theorem State.setRegBit_pwr (a i : Nat) : (s.setRegBit a i).pwr = s.pwr := rfl
@[simp] theorem State.setRegBit_twn (a i : Nat) : (s.setRegBit a i).twn = s.twn := rfl
@[simp] theorem State.setRegBit_kpr (a i : Nat) : (s.setRegBit a i).kpr = s.kpr := rfl
@[simp] theorem State.setRegBit_pin (a i : Nat) : (s.setRegBit a i).pin = s.pin := rfl
@[simp] theorem State.setRegBit_ep (a i : Nat) : (s.setRegBit a i).ep = s.ep := rfl
@[simp] theorem State.setRegBit_settings (a i : Nat) : (s.setRegBit a i).settings = s.settings := rfl
@[simp] theorem State.setRegBit_settingLog (a i : Nat) : (s.setRegBit a i).settingLog = s.settingLog := rfl
@[simp] theorem State.setRegBit_sent (a i : Nat) : (s.setRegBit a i).sent = s.sent := rfl
@[simp] theorem State.setRegBit_pending (a i : Nat) : (s.setRegBit a i).pending = s.pending := rfl

@[simp] theorem State.clearRegBit_free (a i : Nat) : (s.clearRegBit a i).free = s.free := rfl
@[simp] theorem State.clearRegBit_elapsed (a i : Nat) : (s.clearRegBit a i).elapsed = s.elapsed := rfl
@[simp] theorem State.clearRegBit_shadows (a i : Nat) : (s.clearRegBit a i).shadows = s.shadows := rfl
@[simp] theorem State.clearRegBit_holds (a i : Nat) : (s.clearRegBit a i).holds = s.holds := rfl
@[simp] theorem State.clearRegBit_replies (a i : Nat) : (s.clearRegBit a i).replies = s.replies := rfl
@[simp] theorem State.clearRegBit_mem (a i : Nat) : (s.clearRegBit a i).mem = s.mem := rfl
@[simp] theorem State.clearRegBit_damaged (a i : Nat) : (s.clearRegBit a i).damaged = s.damaged := rfl
@[simp] theorem State.clearRegBit_weak (a i : Nat) : (s.clearRegBit a i).weak = s.weak := rfl
@[simp] theorem State.clearRegBit_roles (a i : Nat) : (s.clearRegBit a i).roles = s.roles := rfl
@[simp] theorem State.clearRegBit_cores (a i : Nat) : (s.clearRegBit a i).cores = s.cores := rfl
@[simp] theorem State.clearRegBit_units (a i : Nat) : (s.clearRegBit a i).units = s.units := rfl
@[simp] theorem State.clearRegBit_coderCtx (a i : Nat) : (s.clearRegBit a i).coderCtx = s.coderCtx := rfl
@[simp] theorem State.clearRegBit_rawForced (a i : Nat) : (s.clearRegBit a i).rawForced = s.rawForced := rfl
@[simp] theorem State.clearRegBit_digestKeys (a i : Nat) : (s.clearRegBit a i).digestKeys = s.digestKeys := rfl
@[simp] theorem State.clearRegBit_mismatches (a i : Nat) : (s.clearRegBit a i).mismatches = s.mismatches := rfl
@[simp] theorem State.clearRegBit_mismatchTimes (a i : Nat) : (s.clearRegBit a i).mismatchTimes = s.mismatchTimes := rfl
@[simp] theorem State.clearRegBit_cipherSlots (a i : Nat) : (s.clearRegBit a i).cipherSlots = s.cipherSlots := rfl
@[simp] theorem State.clearRegBit_cipherCtx (a i : Nat) : (s.clearRegBit a i).cipherCtx = s.cipherCtx := rfl
@[simp] theorem State.clearRegBit_carriers (a i : Nat) : (s.clearRegBit a i).carriers = s.carriers := rfl
@[simp] theorem State.clearRegBit_eraseOut (a i : Nat) : (s.clearRegBit a i).eraseOut = s.eraseOut := rfl
@[simp] theorem State.clearRegBit_eraseIn (a i : Nat) : (s.clearRegBit a i).eraseIn = s.eraseIn := rfl
@[simp] theorem State.clearRegBit_quires (a i : Nat) : (s.clearRegBit a i).quires = s.quires := rfl
@[simp] theorem State.clearRegBit_deltas (a i : Nat) : (s.clearRegBit a i).deltas = s.deltas := rfl
@[simp] theorem State.clearRegBit_acc (a i : Nat) : (s.clearRegBit a i).acc = s.acc := rfl
@[simp] theorem State.clearRegBit_cat (a i : Nat) : (s.clearRegBit a i).cat = s.cat := rfl
@[simp] theorem State.clearRegBit_med (a i : Nat) : (s.clearRegBit a i).med = s.med := rfl
@[simp] theorem State.clearRegBit_atp (a i : Nat) : (s.clearRegBit a i).atp = s.atp := rfl
@[simp] theorem State.clearRegBit_snp (a i : Nat) : (s.clearRegBit a i).snp = s.snp := rfl
@[simp] theorem State.clearRegBit_svc (a i : Nat) : (s.clearRegBit a i).svc = s.svc := rfl
@[simp] theorem State.clearRegBit_hlt (a i : Nat) : (s.clearRegBit a i).hlt = s.hlt := rfl
@[simp] theorem State.clearRegBit_pwr (a i : Nat) : (s.clearRegBit a i).pwr = s.pwr := rfl
@[simp] theorem State.clearRegBit_twn (a i : Nat) : (s.clearRegBit a i).twn = s.twn := rfl
@[simp] theorem State.clearRegBit_kpr (a i : Nat) : (s.clearRegBit a i).kpr = s.kpr := rfl
@[simp] theorem State.clearRegBit_pin (a i : Nat) : (s.clearRegBit a i).pin = s.pin := rfl
@[simp] theorem State.clearRegBit_ep (a i : Nat) : (s.clearRegBit a i).ep = s.ep := rfl
@[simp] theorem State.clearRegBit_settings (a i : Nat) : (s.clearRegBit a i).settings = s.settings := rfl
@[simp] theorem State.clearRegBit_settingLog (a i : Nat) : (s.clearRegBit a i).settingLog = s.settingLog := rfl
@[simp] theorem State.clearRegBit_sent (a i : Nat) : (s.clearRegBit a i).sent = s.sent := rfl
@[simp] theorem State.clearRegBit_pending (a i : Nat) : (s.clearRegBit a i).pending = s.pending := rfl

@[simp] theorem State.emit_free (m : Msg) : (s.emit m).free = s.free := rfl
@[simp] theorem State.emit_elapsed (m : Msg) : (s.emit m).elapsed = s.elapsed := rfl
@[simp] theorem State.emit_regs (m : Msg) : (s.emit m).regs = s.regs := rfl
@[simp] theorem State.emit_shadows (m : Msg) : (s.emit m).shadows = s.shadows := rfl
@[simp] theorem State.emit_holds (m : Msg) : (s.emit m).holds = s.holds := rfl
@[simp] theorem State.emit_replies (m : Msg) : (s.emit m).replies = s.replies := rfl
@[simp] theorem State.emit_mem (m : Msg) : (s.emit m).mem = s.mem := rfl
@[simp] theorem State.emit_damaged (m : Msg) : (s.emit m).damaged = s.damaged := rfl
@[simp] theorem State.emit_weak (m : Msg) : (s.emit m).weak = s.weak := rfl
@[simp] theorem State.emit_roles (m : Msg) : (s.emit m).roles = s.roles := rfl
@[simp] theorem State.emit_cores (m : Msg) : (s.emit m).cores = s.cores := rfl
@[simp] theorem State.emit_units (m : Msg) : (s.emit m).units = s.units := rfl
@[simp] theorem State.emit_coderCtx (m : Msg) : (s.emit m).coderCtx = s.coderCtx := rfl
@[simp] theorem State.emit_rawForced (m : Msg) : (s.emit m).rawForced = s.rawForced := rfl
@[simp] theorem State.emit_digestKeys (m : Msg) : (s.emit m).digestKeys = s.digestKeys := rfl
@[simp] theorem State.emit_mismatches (m : Msg) : (s.emit m).mismatches = s.mismatches := rfl
@[simp] theorem State.emit_mismatchTimes (m : Msg) : (s.emit m).mismatchTimes = s.mismatchTimes := rfl
@[simp] theorem State.emit_cipherSlots (m : Msg) : (s.emit m).cipherSlots = s.cipherSlots := rfl
@[simp] theorem State.emit_cipherCtx (m : Msg) : (s.emit m).cipherCtx = s.cipherCtx := rfl
@[simp] theorem State.emit_carriers (m : Msg) : (s.emit m).carriers = s.carriers := rfl
@[simp] theorem State.emit_eraseOut (m : Msg) : (s.emit m).eraseOut = s.eraseOut := rfl
@[simp] theorem State.emit_eraseIn (m : Msg) : (s.emit m).eraseIn = s.eraseIn := rfl
@[simp] theorem State.emit_quires (m : Msg) : (s.emit m).quires = s.quires := rfl
@[simp] theorem State.emit_deltas (m : Msg) : (s.emit m).deltas = s.deltas := rfl
@[simp] theorem State.emit_acc (m : Msg) : (s.emit m).acc = s.acc := rfl
@[simp] theorem State.emit_cat (m : Msg) : (s.emit m).cat = s.cat := rfl
@[simp] theorem State.emit_med (m : Msg) : (s.emit m).med = s.med := rfl
@[simp] theorem State.emit_atp (m : Msg) : (s.emit m).atp = s.atp := rfl
@[simp] theorem State.emit_snp (m : Msg) : (s.emit m).snp = s.snp := rfl
@[simp] theorem State.emit_svc (m : Msg) : (s.emit m).svc = s.svc := rfl
@[simp] theorem State.emit_hlt (m : Msg) : (s.emit m).hlt = s.hlt := rfl
@[simp] theorem State.emit_pwr (m : Msg) : (s.emit m).pwr = s.pwr := rfl
@[simp] theorem State.emit_twn (m : Msg) : (s.emit m).twn = s.twn := rfl
@[simp] theorem State.emit_kpr (m : Msg) : (s.emit m).kpr = s.kpr := rfl
@[simp] theorem State.emit_pin (m : Msg) : (s.emit m).pin = s.pin := rfl
@[simp] theorem State.emit_ep (m : Msg) : (s.emit m).ep = s.ep := rfl
@[simp] theorem State.emit_settings (m : Msg) : (s.emit m).settings = s.settings := rfl
@[simp] theorem State.emit_settingLog (m : Msg) : (s.emit m).settingLog = s.settingLog := rfl
@[simp] theorem State.emit_pending (m : Msg) : (s.emit m).pending = s.pending := rfl

@[simp] theorem State.setCore_free (k : Nat) (c : Core) : (s.setCore k c).free = s.free := rfl
@[simp] theorem State.setCore_elapsed (k : Nat) (c : Core) : (s.setCore k c).elapsed = s.elapsed := rfl
@[simp] theorem State.setCore_regs (k : Nat) (c : Core) : (s.setCore k c).regs = s.regs := rfl
@[simp] theorem State.setCore_shadows (k : Nat) (c : Core) : (s.setCore k c).shadows = s.shadows := rfl
@[simp] theorem State.setCore_holds (k : Nat) (c : Core) : (s.setCore k c).holds = s.holds := rfl
@[simp] theorem State.setCore_replies (k : Nat) (c : Core) : (s.setCore k c).replies = s.replies := rfl
@[simp] theorem State.setCore_mem (k : Nat) (c : Core) : (s.setCore k c).mem = s.mem := rfl
@[simp] theorem State.setCore_damaged (k : Nat) (c : Core) : (s.setCore k c).damaged = s.damaged := rfl
@[simp] theorem State.setCore_weak (k : Nat) (c : Core) : (s.setCore k c).weak = s.weak := rfl
@[simp] theorem State.setCore_roles (k : Nat) (c : Core) : (s.setCore k c).roles = s.roles := rfl
@[simp] theorem State.setCore_units (k : Nat) (c : Core) : (s.setCore k c).units = s.units := rfl
@[simp] theorem State.setCore_coderCtx (k : Nat) (c : Core) : (s.setCore k c).coderCtx = s.coderCtx := rfl
@[simp] theorem State.setCore_rawForced (k : Nat) (c : Core) : (s.setCore k c).rawForced = s.rawForced := rfl
@[simp] theorem State.setCore_digestKeys (k : Nat) (c : Core) : (s.setCore k c).digestKeys = s.digestKeys := rfl
@[simp] theorem State.setCore_mismatches (k : Nat) (c : Core) : (s.setCore k c).mismatches = s.mismatches := rfl
@[simp] theorem State.setCore_mismatchTimes (k : Nat) (c : Core) : (s.setCore k c).mismatchTimes = s.mismatchTimes := rfl
@[simp] theorem State.setCore_cipherSlots (k : Nat) (c : Core) : (s.setCore k c).cipherSlots = s.cipherSlots := rfl
@[simp] theorem State.setCore_cipherCtx (k : Nat) (c : Core) : (s.setCore k c).cipherCtx = s.cipherCtx := rfl
@[simp] theorem State.setCore_carriers (k : Nat) (c : Core) : (s.setCore k c).carriers = s.carriers := rfl
@[simp] theorem State.setCore_eraseOut (k : Nat) (c : Core) : (s.setCore k c).eraseOut = s.eraseOut := rfl
@[simp] theorem State.setCore_eraseIn (k : Nat) (c : Core) : (s.setCore k c).eraseIn = s.eraseIn := rfl
@[simp] theorem State.setCore_quires (k : Nat) (c : Core) : (s.setCore k c).quires = s.quires := rfl
@[simp] theorem State.setCore_deltas (k : Nat) (c : Core) : (s.setCore k c).deltas = s.deltas := rfl
@[simp] theorem State.setCore_acc (k : Nat) (c : Core) : (s.setCore k c).acc = s.acc := rfl
@[simp] theorem State.setCore_cat (k : Nat) (c : Core) : (s.setCore k c).cat = s.cat := rfl
@[simp] theorem State.setCore_med (k : Nat) (c : Core) : (s.setCore k c).med = s.med := rfl
@[simp] theorem State.setCore_atp (k : Nat) (c : Core) : (s.setCore k c).atp = s.atp := rfl
@[simp] theorem State.setCore_snp (k : Nat) (c : Core) : (s.setCore k c).snp = s.snp := rfl
@[simp] theorem State.setCore_svc (k : Nat) (c : Core) : (s.setCore k c).svc = s.svc := rfl
@[simp] theorem State.setCore_hlt (k : Nat) (c : Core) : (s.setCore k c).hlt = s.hlt := rfl
@[simp] theorem State.setCore_pwr (k : Nat) (c : Core) : (s.setCore k c).pwr = s.pwr := rfl
@[simp] theorem State.setCore_twn (k : Nat) (c : Core) : (s.setCore k c).twn = s.twn := rfl
@[simp] theorem State.setCore_kpr (k : Nat) (c : Core) : (s.setCore k c).kpr = s.kpr := rfl
@[simp] theorem State.setCore_pin (k : Nat) (c : Core) : (s.setCore k c).pin = s.pin := rfl
@[simp] theorem State.setCore_ep (k : Nat) (c : Core) : (s.setCore k c).ep = s.ep := rfl
@[simp] theorem State.setCore_settings (k : Nat) (c : Core) : (s.setCore k c).settings = s.settings := rfl
@[simp] theorem State.setCore_settingLog (k : Nat) (c : Core) : (s.setCore k c).settingLog = s.settingLog := rfl
@[simp] theorem State.setCore_sent (k : Nat) (c : Core) : (s.setCore k c).sent = s.sent := rfl
@[simp] theorem State.setCore_pending (k : Nat) (c : Core) : (s.setCore k c).pending = s.pending := rfl

@[simp] theorem State.modCore_free (k : Nat) (f : Core → Core) : (s.modCore k f).free = s.free := rfl
@[simp] theorem State.modCore_elapsed (k : Nat) (f : Core → Core) : (s.modCore k f).elapsed = s.elapsed := rfl
@[simp] theorem State.modCore_regs (k : Nat) (f : Core → Core) : (s.modCore k f).regs = s.regs := rfl
@[simp] theorem State.modCore_shadows (k : Nat) (f : Core → Core) : (s.modCore k f).shadows = s.shadows := rfl
@[simp] theorem State.modCore_holds (k : Nat) (f : Core → Core) : (s.modCore k f).holds = s.holds := rfl
@[simp] theorem State.modCore_replies (k : Nat) (f : Core → Core) : (s.modCore k f).replies = s.replies := rfl
@[simp] theorem State.modCore_mem (k : Nat) (f : Core → Core) : (s.modCore k f).mem = s.mem := rfl
@[simp] theorem State.modCore_damaged (k : Nat) (f : Core → Core) : (s.modCore k f).damaged = s.damaged := rfl
@[simp] theorem State.modCore_weak (k : Nat) (f : Core → Core) : (s.modCore k f).weak = s.weak := rfl
@[simp] theorem State.modCore_roles (k : Nat) (f : Core → Core) : (s.modCore k f).roles = s.roles := rfl
@[simp] theorem State.modCore_units (k : Nat) (f : Core → Core) : (s.modCore k f).units = s.units := rfl
@[simp] theorem State.modCore_coderCtx (k : Nat) (f : Core → Core) : (s.modCore k f).coderCtx = s.coderCtx := rfl
@[simp] theorem State.modCore_rawForced (k : Nat) (f : Core → Core) : (s.modCore k f).rawForced = s.rawForced := rfl
@[simp] theorem State.modCore_digestKeys (k : Nat) (f : Core → Core) : (s.modCore k f).digestKeys = s.digestKeys := rfl
@[simp] theorem State.modCore_mismatches (k : Nat) (f : Core → Core) : (s.modCore k f).mismatches = s.mismatches := rfl
@[simp] theorem State.modCore_mismatchTimes (k : Nat) (f : Core → Core) : (s.modCore k f).mismatchTimes = s.mismatchTimes := rfl
@[simp] theorem State.modCore_cipherSlots (k : Nat) (f : Core → Core) : (s.modCore k f).cipherSlots = s.cipherSlots := rfl
@[simp] theorem State.modCore_cipherCtx (k : Nat) (f : Core → Core) : (s.modCore k f).cipherCtx = s.cipherCtx := rfl
@[simp] theorem State.modCore_carriers (k : Nat) (f : Core → Core) : (s.modCore k f).carriers = s.carriers := rfl
@[simp] theorem State.modCore_eraseOut (k : Nat) (f : Core → Core) : (s.modCore k f).eraseOut = s.eraseOut := rfl
@[simp] theorem State.modCore_eraseIn (k : Nat) (f : Core → Core) : (s.modCore k f).eraseIn = s.eraseIn := rfl
@[simp] theorem State.modCore_quires (k : Nat) (f : Core → Core) : (s.modCore k f).quires = s.quires := rfl
@[simp] theorem State.modCore_deltas (k : Nat) (f : Core → Core) : (s.modCore k f).deltas = s.deltas := rfl
@[simp] theorem State.modCore_acc (k : Nat) (f : Core → Core) : (s.modCore k f).acc = s.acc := rfl
@[simp] theorem State.modCore_cat (k : Nat) (f : Core → Core) : (s.modCore k f).cat = s.cat := rfl
@[simp] theorem State.modCore_med (k : Nat) (f : Core → Core) : (s.modCore k f).med = s.med := rfl
@[simp] theorem State.modCore_atp (k : Nat) (f : Core → Core) : (s.modCore k f).atp = s.atp := rfl
@[simp] theorem State.modCore_snp (k : Nat) (f : Core → Core) : (s.modCore k f).snp = s.snp := rfl
@[simp] theorem State.modCore_svc (k : Nat) (f : Core → Core) : (s.modCore k f).svc = s.svc := rfl
@[simp] theorem State.modCore_hlt (k : Nat) (f : Core → Core) : (s.modCore k f).hlt = s.hlt := rfl
@[simp] theorem State.modCore_pwr (k : Nat) (f : Core → Core) : (s.modCore k f).pwr = s.pwr := rfl
@[simp] theorem State.modCore_twn (k : Nat) (f : Core → Core) : (s.modCore k f).twn = s.twn := rfl
@[simp] theorem State.modCore_kpr (k : Nat) (f : Core → Core) : (s.modCore k f).kpr = s.kpr := rfl
@[simp] theorem State.modCore_pin (k : Nat) (f : Core → Core) : (s.modCore k f).pin = s.pin := rfl
@[simp] theorem State.modCore_ep (k : Nat) (f : Core → Core) : (s.modCore k f).ep = s.ep := rfl
@[simp] theorem State.modCore_settings (k : Nat) (f : Core → Core) : (s.modCore k f).settings = s.settings := rfl
@[simp] theorem State.modCore_settingLog (k : Nat) (f : Core → Core) : (s.modCore k f).settingLog = s.settingLog := rfl
@[simp] theorem State.modCore_sent (k : Nat) (f : Core → Core) : (s.modCore k f).sent = s.sent := rfl
@[simp] theorem State.modCore_pending (k : Nat) (f : Core → Core) : (s.modCore k f).pending = s.pending := rfl

@[simp] theorem State.setByte_free (a : Nat) (b : Byte) : (s.setByte a b).free = s.free := rfl
@[simp] theorem State.setByte_elapsed (a : Nat) (b : Byte) : (s.setByte a b).elapsed = s.elapsed := rfl
@[simp] theorem State.setByte_regs (a : Nat) (b : Byte) : (s.setByte a b).regs = s.regs := rfl
@[simp] theorem State.setByte_shadows (a : Nat) (b : Byte) : (s.setByte a b).shadows = s.shadows := rfl
@[simp] theorem State.setByte_holds (a : Nat) (b : Byte) : (s.setByte a b).holds = s.holds := rfl
@[simp] theorem State.setByte_replies (a : Nat) (b : Byte) : (s.setByte a b).replies = s.replies := rfl
@[simp] theorem State.setByte_damaged (a : Nat) (b : Byte) : (s.setByte a b).damaged = s.damaged := rfl
@[simp] theorem State.setByte_weak (a : Nat) (b : Byte) : (s.setByte a b).weak = s.weak := rfl
@[simp] theorem State.setByte_roles (a : Nat) (b : Byte) : (s.setByte a b).roles = s.roles := rfl
@[simp] theorem State.setByte_cores (a : Nat) (b : Byte) : (s.setByte a b).cores = s.cores := rfl
@[simp] theorem State.setByte_units (a : Nat) (b : Byte) : (s.setByte a b).units = s.units := rfl
@[simp] theorem State.setByte_coderCtx (a : Nat) (b : Byte) : (s.setByte a b).coderCtx = s.coderCtx := rfl
@[simp] theorem State.setByte_rawForced (a : Nat) (b : Byte) : (s.setByte a b).rawForced = s.rawForced := rfl
@[simp] theorem State.setByte_digestKeys (a : Nat) (b : Byte) : (s.setByte a b).digestKeys = s.digestKeys := rfl
@[simp] theorem State.setByte_mismatches (a : Nat) (b : Byte) : (s.setByte a b).mismatches = s.mismatches := rfl
@[simp] theorem State.setByte_mismatchTimes (a : Nat) (b : Byte) : (s.setByte a b).mismatchTimes = s.mismatchTimes := rfl
@[simp] theorem State.setByte_cipherSlots (a : Nat) (b : Byte) : (s.setByte a b).cipherSlots = s.cipherSlots := rfl
@[simp] theorem State.setByte_cipherCtx (a : Nat) (b : Byte) : (s.setByte a b).cipherCtx = s.cipherCtx := rfl
@[simp] theorem State.setByte_carriers (a : Nat) (b : Byte) : (s.setByte a b).carriers = s.carriers := rfl
@[simp] theorem State.setByte_eraseOut (a : Nat) (b : Byte) : (s.setByte a b).eraseOut = s.eraseOut := rfl
@[simp] theorem State.setByte_eraseIn (a : Nat) (b : Byte) : (s.setByte a b).eraseIn = s.eraseIn := rfl
@[simp] theorem State.setByte_quires (a : Nat) (b : Byte) : (s.setByte a b).quires = s.quires := rfl
@[simp] theorem State.setByte_deltas (a : Nat) (b : Byte) : (s.setByte a b).deltas = s.deltas := rfl
@[simp] theorem State.setByte_acc (a : Nat) (b : Byte) : (s.setByte a b).acc = s.acc := rfl
@[simp] theorem State.setByte_cat (a : Nat) (b : Byte) : (s.setByte a b).cat = s.cat := rfl
@[simp] theorem State.setByte_med (a : Nat) (b : Byte) : (s.setByte a b).med = s.med := rfl
@[simp] theorem State.setByte_atp (a : Nat) (b : Byte) : (s.setByte a b).atp = s.atp := rfl
@[simp] theorem State.setByte_snp (a : Nat) (b : Byte) : (s.setByte a b).snp = s.snp := rfl
@[simp] theorem State.setByte_svc (a : Nat) (b : Byte) : (s.setByte a b).svc = s.svc := rfl
@[simp] theorem State.setByte_hlt (a : Nat) (b : Byte) : (s.setByte a b).hlt = s.hlt := rfl
@[simp] theorem State.setByte_pwr (a : Nat) (b : Byte) : (s.setByte a b).pwr = s.pwr := rfl
@[simp] theorem State.setByte_twn (a : Nat) (b : Byte) : (s.setByte a b).twn = s.twn := rfl
@[simp] theorem State.setByte_kpr (a : Nat) (b : Byte) : (s.setByte a b).kpr = s.kpr := rfl
@[simp] theorem State.setByte_pin (a : Nat) (b : Byte) : (s.setByte a b).pin = s.pin := rfl
@[simp] theorem State.setByte_ep (a : Nat) (b : Byte) : (s.setByte a b).ep = s.ep := rfl
@[simp] theorem State.setByte_settings (a : Nat) (b : Byte) : (s.setByte a b).settings = s.settings := rfl
@[simp] theorem State.setByte_settingLog (a : Nat) (b : Byte) : (s.setByte a b).settingLog = s.settingLog := rfl
@[simp] theorem State.setByte_sent (a : Nat) (b : Byte) : (s.setByte a b).sent = s.sent := rfl
@[simp] theorem State.setByte_pending (a : Nat) (b : Byte) : (s.setByte a b).pending = s.pending := rfl

@[simp] theorem State.setShadow_free (i a v : Nat) : (s.setShadow i a v).free = s.free := rfl
@[simp] theorem State.setShadow_elapsed (i a v : Nat) : (s.setShadow i a v).elapsed = s.elapsed := rfl
@[simp] theorem State.setShadow_regs (i a v : Nat) : (s.setShadow i a v).regs = s.regs := rfl
@[simp] theorem State.setShadow_holds (i a v : Nat) : (s.setShadow i a v).holds = s.holds := rfl
@[simp] theorem State.setShadow_replies (i a v : Nat) : (s.setShadow i a v).replies = s.replies := rfl
@[simp] theorem State.setShadow_mem (i a v : Nat) : (s.setShadow i a v).mem = s.mem := rfl
@[simp] theorem State.setShadow_damaged (i a v : Nat) : (s.setShadow i a v).damaged = s.damaged := rfl
@[simp] theorem State.setShadow_weak (i a v : Nat) : (s.setShadow i a v).weak = s.weak := rfl
@[simp] theorem State.setShadow_roles (i a v : Nat) : (s.setShadow i a v).roles = s.roles := rfl
@[simp] theorem State.setShadow_cores (i a v : Nat) : (s.setShadow i a v).cores = s.cores := rfl
@[simp] theorem State.setShadow_units (i a v : Nat) : (s.setShadow i a v).units = s.units := rfl
@[simp] theorem State.setShadow_coderCtx (i a v : Nat) : (s.setShadow i a v).coderCtx = s.coderCtx := rfl
@[simp] theorem State.setShadow_rawForced (i a v : Nat) : (s.setShadow i a v).rawForced = s.rawForced := rfl
@[simp] theorem State.setShadow_digestKeys (i a v : Nat) : (s.setShadow i a v).digestKeys = s.digestKeys := rfl
@[simp] theorem State.setShadow_mismatches (i a v : Nat) : (s.setShadow i a v).mismatches = s.mismatches := rfl
@[simp] theorem State.setShadow_mismatchTimes (i a v : Nat) : (s.setShadow i a v).mismatchTimes = s.mismatchTimes := rfl
@[simp] theorem State.setShadow_cipherSlots (i a v : Nat) : (s.setShadow i a v).cipherSlots = s.cipherSlots := rfl
@[simp] theorem State.setShadow_cipherCtx (i a v : Nat) : (s.setShadow i a v).cipherCtx = s.cipherCtx := rfl
@[simp] theorem State.setShadow_carriers (i a v : Nat) : (s.setShadow i a v).carriers = s.carriers := rfl
@[simp] theorem State.setShadow_eraseOut (i a v : Nat) : (s.setShadow i a v).eraseOut = s.eraseOut := rfl
@[simp] theorem State.setShadow_eraseIn (i a v : Nat) : (s.setShadow i a v).eraseIn = s.eraseIn := rfl
@[simp] theorem State.setShadow_quires (i a v : Nat) : (s.setShadow i a v).quires = s.quires := rfl
@[simp] theorem State.setShadow_deltas (i a v : Nat) : (s.setShadow i a v).deltas = s.deltas := rfl
@[simp] theorem State.setShadow_acc (i a v : Nat) : (s.setShadow i a v).acc = s.acc := rfl
@[simp] theorem State.setShadow_cat (i a v : Nat) : (s.setShadow i a v).cat = s.cat := rfl
@[simp] theorem State.setShadow_med (i a v : Nat) : (s.setShadow i a v).med = s.med := rfl
@[simp] theorem State.setShadow_atp (i a v : Nat) : (s.setShadow i a v).atp = s.atp := rfl
@[simp] theorem State.setShadow_snp (i a v : Nat) : (s.setShadow i a v).snp = s.snp := rfl
@[simp] theorem State.setShadow_svc (i a v : Nat) : (s.setShadow i a v).svc = s.svc := rfl
@[simp] theorem State.setShadow_hlt (i a v : Nat) : (s.setShadow i a v).hlt = s.hlt := rfl
@[simp] theorem State.setShadow_pwr (i a v : Nat) : (s.setShadow i a v).pwr = s.pwr := rfl
@[simp] theorem State.setShadow_twn (i a v : Nat) : (s.setShadow i a v).twn = s.twn := rfl
@[simp] theorem State.setShadow_kpr (i a v : Nat) : (s.setShadow i a v).kpr = s.kpr := rfl
@[simp] theorem State.setShadow_pin (i a v : Nat) : (s.setShadow i a v).pin = s.pin := rfl
@[simp] theorem State.setShadow_ep (i a v : Nat) : (s.setShadow i a v).ep = s.ep := rfl
@[simp] theorem State.setShadow_settings (i a v : Nat) : (s.setShadow i a v).settings = s.settings := rfl
@[simp] theorem State.setShadow_settingLog (i a v : Nat) : (s.setShadow i a v).settingLog = s.settingLog := rfl
@[simp] theorem State.setShadow_sent (i a v : Nat) : (s.setShadow i a v).sent = s.sent := rfl
@[simp] theorem State.setShadow_pending (i a v : Nat) : (s.setShadow i a v).pending = s.pending := rfl

@[simp] theorem State.setHold_free (i a v : Nat) : (s.setHold i a v).free = s.free := rfl
@[simp] theorem State.setHold_elapsed (i a v : Nat) : (s.setHold i a v).elapsed = s.elapsed := rfl
@[simp] theorem State.setHold_regs (i a v : Nat) : (s.setHold i a v).regs = s.regs := rfl
@[simp] theorem State.setHold_shadows (i a v : Nat) : (s.setHold i a v).shadows = s.shadows := rfl
@[simp] theorem State.setHold_replies (i a v : Nat) : (s.setHold i a v).replies = s.replies := rfl
@[simp] theorem State.setHold_mem (i a v : Nat) : (s.setHold i a v).mem = s.mem := rfl
@[simp] theorem State.setHold_damaged (i a v : Nat) : (s.setHold i a v).damaged = s.damaged := rfl
@[simp] theorem State.setHold_weak (i a v : Nat) : (s.setHold i a v).weak = s.weak := rfl
@[simp] theorem State.setHold_roles (i a v : Nat) : (s.setHold i a v).roles = s.roles := rfl
@[simp] theorem State.setHold_cores (i a v : Nat) : (s.setHold i a v).cores = s.cores := rfl
@[simp] theorem State.setHold_units (i a v : Nat) : (s.setHold i a v).units = s.units := rfl
@[simp] theorem State.setHold_coderCtx (i a v : Nat) : (s.setHold i a v).coderCtx = s.coderCtx := rfl
@[simp] theorem State.setHold_rawForced (i a v : Nat) : (s.setHold i a v).rawForced = s.rawForced := rfl
@[simp] theorem State.setHold_digestKeys (i a v : Nat) : (s.setHold i a v).digestKeys = s.digestKeys := rfl
@[simp] theorem State.setHold_mismatches (i a v : Nat) : (s.setHold i a v).mismatches = s.mismatches := rfl
@[simp] theorem State.setHold_mismatchTimes (i a v : Nat) : (s.setHold i a v).mismatchTimes = s.mismatchTimes := rfl
@[simp] theorem State.setHold_cipherSlots (i a v : Nat) : (s.setHold i a v).cipherSlots = s.cipherSlots := rfl
@[simp] theorem State.setHold_cipherCtx (i a v : Nat) : (s.setHold i a v).cipherCtx = s.cipherCtx := rfl
@[simp] theorem State.setHold_carriers (i a v : Nat) : (s.setHold i a v).carriers = s.carriers := rfl
@[simp] theorem State.setHold_eraseOut (i a v : Nat) : (s.setHold i a v).eraseOut = s.eraseOut := rfl
@[simp] theorem State.setHold_eraseIn (i a v : Nat) : (s.setHold i a v).eraseIn = s.eraseIn := rfl
@[simp] theorem State.setHold_quires (i a v : Nat) : (s.setHold i a v).quires = s.quires := rfl
@[simp] theorem State.setHold_deltas (i a v : Nat) : (s.setHold i a v).deltas = s.deltas := rfl
@[simp] theorem State.setHold_acc (i a v : Nat) : (s.setHold i a v).acc = s.acc := rfl
@[simp] theorem State.setHold_cat (i a v : Nat) : (s.setHold i a v).cat = s.cat := rfl
@[simp] theorem State.setHold_med (i a v : Nat) : (s.setHold i a v).med = s.med := rfl
@[simp] theorem State.setHold_atp (i a v : Nat) : (s.setHold i a v).atp = s.atp := rfl
@[simp] theorem State.setHold_snp (i a v : Nat) : (s.setHold i a v).snp = s.snp := rfl
@[simp] theorem State.setHold_svc (i a v : Nat) : (s.setHold i a v).svc = s.svc := rfl
@[simp] theorem State.setHold_hlt (i a v : Nat) : (s.setHold i a v).hlt = s.hlt := rfl
@[simp] theorem State.setHold_pwr (i a v : Nat) : (s.setHold i a v).pwr = s.pwr := rfl
@[simp] theorem State.setHold_twn (i a v : Nat) : (s.setHold i a v).twn = s.twn := rfl
@[simp] theorem State.setHold_kpr (i a v : Nat) : (s.setHold i a v).kpr = s.kpr := rfl
@[simp] theorem State.setHold_pin (i a v : Nat) : (s.setHold i a v).pin = s.pin := rfl
@[simp] theorem State.setHold_ep (i a v : Nat) : (s.setHold i a v).ep = s.ep := rfl
@[simp] theorem State.setHold_settings (i a v : Nat) : (s.setHold i a v).settings = s.settings := rfl
@[simp] theorem State.setHold_settingLog (i a v : Nat) : (s.setHold i a v).settingLog = s.settingLog := rfl
@[simp] theorem State.setHold_sent (i a v : Nat) : (s.setHold i a v).sent = s.sent := rfl
@[simp] theorem State.setHold_pending (i a v : Nat) : (s.setHold i a v).pending = s.pending := rfl

@[simp] theorem State.setUnit_free (c u : Nat) (e : EngUnit) : (s.setUnit c u e).free = s.free := rfl
@[simp] theorem State.setUnit_elapsed (c u : Nat) (e : EngUnit) : (s.setUnit c u e).elapsed = s.elapsed := rfl
@[simp] theorem State.setUnit_regs (c u : Nat) (e : EngUnit) : (s.setUnit c u e).regs = s.regs := rfl
@[simp] theorem State.setUnit_shadows (c u : Nat) (e : EngUnit) : (s.setUnit c u e).shadows = s.shadows := rfl
@[simp] theorem State.setUnit_holds (c u : Nat) (e : EngUnit) : (s.setUnit c u e).holds = s.holds := rfl
@[simp] theorem State.setUnit_replies (c u : Nat) (e : EngUnit) : (s.setUnit c u e).replies = s.replies := rfl
@[simp] theorem State.setUnit_mem (c u : Nat) (e : EngUnit) : (s.setUnit c u e).mem = s.mem := rfl
@[simp] theorem State.setUnit_damaged (c u : Nat) (e : EngUnit) : (s.setUnit c u e).damaged = s.damaged := rfl
@[simp] theorem State.setUnit_weak (c u : Nat) (e : EngUnit) : (s.setUnit c u e).weak = s.weak := rfl
@[simp] theorem State.setUnit_roles (c u : Nat) (e : EngUnit) : (s.setUnit c u e).roles = s.roles := rfl
@[simp] theorem State.setUnit_cores (c u : Nat) (e : EngUnit) : (s.setUnit c u e).cores = s.cores := rfl
@[simp] theorem State.setUnit_coderCtx (c u : Nat) (e : EngUnit) : (s.setUnit c u e).coderCtx = s.coderCtx := rfl
@[simp] theorem State.setUnit_rawForced (c u : Nat) (e : EngUnit) : (s.setUnit c u e).rawForced = s.rawForced := rfl
@[simp] theorem State.setUnit_digestKeys (c u : Nat) (e : EngUnit) : (s.setUnit c u e).digestKeys = s.digestKeys := rfl
@[simp] theorem State.setUnit_mismatches (c u : Nat) (e : EngUnit) : (s.setUnit c u e).mismatches = s.mismatches := rfl
@[simp] theorem State.setUnit_mismatchTimes (c u : Nat) (e : EngUnit) : (s.setUnit c u e).mismatchTimes = s.mismatchTimes := rfl
@[simp] theorem State.setUnit_cipherSlots (c u : Nat) (e : EngUnit) : (s.setUnit c u e).cipherSlots = s.cipherSlots := rfl
@[simp] theorem State.setUnit_cipherCtx (c u : Nat) (e : EngUnit) : (s.setUnit c u e).cipherCtx = s.cipherCtx := rfl
@[simp] theorem State.setUnit_carriers (c u : Nat) (e : EngUnit) : (s.setUnit c u e).carriers = s.carriers := rfl
@[simp] theorem State.setUnit_eraseOut (c u : Nat) (e : EngUnit) : (s.setUnit c u e).eraseOut = s.eraseOut := rfl
@[simp] theorem State.setUnit_eraseIn (c u : Nat) (e : EngUnit) : (s.setUnit c u e).eraseIn = s.eraseIn := rfl
@[simp] theorem State.setUnit_quires (c u : Nat) (e : EngUnit) : (s.setUnit c u e).quires = s.quires := rfl
@[simp] theorem State.setUnit_deltas (c u : Nat) (e : EngUnit) : (s.setUnit c u e).deltas = s.deltas := rfl
@[simp] theorem State.setUnit_acc (c u : Nat) (e : EngUnit) : (s.setUnit c u e).acc = s.acc := rfl
@[simp] theorem State.setUnit_cat (c u : Nat) (e : EngUnit) : (s.setUnit c u e).cat = s.cat := rfl
@[simp] theorem State.setUnit_med (c u : Nat) (e : EngUnit) : (s.setUnit c u e).med = s.med := rfl
@[simp] theorem State.setUnit_atp (c u : Nat) (e : EngUnit) : (s.setUnit c u e).atp = s.atp := rfl
@[simp] theorem State.setUnit_snp (c u : Nat) (e : EngUnit) : (s.setUnit c u e).snp = s.snp := rfl
@[simp] theorem State.setUnit_svc (c u : Nat) (e : EngUnit) : (s.setUnit c u e).svc = s.svc := rfl
@[simp] theorem State.setUnit_hlt (c u : Nat) (e : EngUnit) : (s.setUnit c u e).hlt = s.hlt := rfl
@[simp] theorem State.setUnit_pwr (c u : Nat) (e : EngUnit) : (s.setUnit c u e).pwr = s.pwr := rfl
@[simp] theorem State.setUnit_twn (c u : Nat) (e : EngUnit) : (s.setUnit c u e).twn = s.twn := rfl
@[simp] theorem State.setUnit_kpr (c u : Nat) (e : EngUnit) : (s.setUnit c u e).kpr = s.kpr := rfl
@[simp] theorem State.setUnit_pin (c u : Nat) (e : EngUnit) : (s.setUnit c u e).pin = s.pin := rfl
@[simp] theorem State.setUnit_ep (c u : Nat) (e : EngUnit) : (s.setUnit c u e).ep = s.ep := rfl
@[simp] theorem State.setUnit_settings (c u : Nat) (e : EngUnit) : (s.setUnit c u e).settings = s.settings := rfl
@[simp] theorem State.setUnit_settingLog (c u : Nat) (e : EngUnit) : (s.setUnit c u e).settingLog = s.settingLog := rfl
@[simp] theorem State.setUnit_sent (c u : Nat) (e : EngUnit) : (s.setUnit c u e).sent = s.sent := rfl
@[simp] theorem State.setUnit_pending (c u : Nat) (e : EngUnit) : (s.setUnit c u e).pending = s.pending := rfl

@[simp] theorem State.modUnit_free (c u : Nat) (f : EngUnit → EngUnit) : (s.modUnit c u f).free = s.free := rfl
@[simp] theorem State.modUnit_elapsed (c u : Nat) (f : EngUnit → EngUnit) : (s.modUnit c u f).elapsed = s.elapsed := rfl
@[simp] theorem State.modUnit_regs (c u : Nat) (f : EngUnit → EngUnit) : (s.modUnit c u f).regs = s.regs := rfl
@[simp] theorem State.modUnit_shadows (c u : Nat) (f : EngUnit → EngUnit) : (s.modUnit c u f).shadows = s.shadows := rfl
@[simp] theorem State.modUnit_holds (c u : Nat) (f : EngUnit → EngUnit) : (s.modUnit c u f).holds = s.holds := rfl
@[simp] theorem State.modUnit_replies (c u : Nat) (f : EngUnit → EngUnit) : (s.modUnit c u f).replies = s.replies := rfl
@[simp] theorem State.modUnit_mem (c u : Nat) (f : EngUnit → EngUnit) : (s.modUnit c u f).mem = s.mem := rfl
@[simp] theorem State.modUnit_damaged (c u : Nat) (f : EngUnit → EngUnit) : (s.modUnit c u f).damaged = s.damaged := rfl
@[simp] theorem State.modUnit_weak (c u : Nat) (f : EngUnit → EngUnit) : (s.modUnit c u f).weak = s.weak := rfl
@[simp] theorem State.modUnit_roles (c u : Nat) (f : EngUnit → EngUnit) : (s.modUnit c u f).roles = s.roles := rfl
@[simp] theorem State.modUnit_cores (c u : Nat) (f : EngUnit → EngUnit) : (s.modUnit c u f).cores = s.cores := rfl
@[simp] theorem State.modUnit_coderCtx (c u : Nat) (f : EngUnit → EngUnit) : (s.modUnit c u f).coderCtx = s.coderCtx := rfl
@[simp] theorem State.modUnit_rawForced (c u : Nat) (f : EngUnit → EngUnit) : (s.modUnit c u f).rawForced = s.rawForced := rfl
@[simp] theorem State.modUnit_digestKeys (c u : Nat) (f : EngUnit → EngUnit) : (s.modUnit c u f).digestKeys = s.digestKeys := rfl
@[simp] theorem State.modUnit_mismatches (c u : Nat) (f : EngUnit → EngUnit) : (s.modUnit c u f).mismatches = s.mismatches := rfl
@[simp] theorem State.modUnit_mismatchTimes (c u : Nat) (f : EngUnit → EngUnit) : (s.modUnit c u f).mismatchTimes = s.mismatchTimes := rfl
@[simp] theorem State.modUnit_cipherSlots (c u : Nat) (f : EngUnit → EngUnit) : (s.modUnit c u f).cipherSlots = s.cipherSlots := rfl
@[simp] theorem State.modUnit_cipherCtx (c u : Nat) (f : EngUnit → EngUnit) : (s.modUnit c u f).cipherCtx = s.cipherCtx := rfl
@[simp] theorem State.modUnit_carriers (c u : Nat) (f : EngUnit → EngUnit) : (s.modUnit c u f).carriers = s.carriers := rfl
@[simp] theorem State.modUnit_eraseOut (c u : Nat) (f : EngUnit → EngUnit) : (s.modUnit c u f).eraseOut = s.eraseOut := rfl
@[simp] theorem State.modUnit_eraseIn (c u : Nat) (f : EngUnit → EngUnit) : (s.modUnit c u f).eraseIn = s.eraseIn := rfl
@[simp] theorem State.modUnit_quires (c u : Nat) (f : EngUnit → EngUnit) : (s.modUnit c u f).quires = s.quires := rfl
@[simp] theorem State.modUnit_deltas (c u : Nat) (f : EngUnit → EngUnit) : (s.modUnit c u f).deltas = s.deltas := rfl
@[simp] theorem State.modUnit_acc (c u : Nat) (f : EngUnit → EngUnit) : (s.modUnit c u f).acc = s.acc := rfl
@[simp] theorem State.modUnit_cat (c u : Nat) (f : EngUnit → EngUnit) : (s.modUnit c u f).cat = s.cat := rfl
@[simp] theorem State.modUnit_med (c u : Nat) (f : EngUnit → EngUnit) : (s.modUnit c u f).med = s.med := rfl
@[simp] theorem State.modUnit_atp (c u : Nat) (f : EngUnit → EngUnit) : (s.modUnit c u f).atp = s.atp := rfl
@[simp] theorem State.modUnit_snp (c u : Nat) (f : EngUnit → EngUnit) : (s.modUnit c u f).snp = s.snp := rfl
@[simp] theorem State.modUnit_svc (c u : Nat) (f : EngUnit → EngUnit) : (s.modUnit c u f).svc = s.svc := rfl
@[simp] theorem State.modUnit_hlt (c u : Nat) (f : EngUnit → EngUnit) : (s.modUnit c u f).hlt = s.hlt := rfl
@[simp] theorem State.modUnit_pwr (c u : Nat) (f : EngUnit → EngUnit) : (s.modUnit c u f).pwr = s.pwr := rfl
@[simp] theorem State.modUnit_twn (c u : Nat) (f : EngUnit → EngUnit) : (s.modUnit c u f).twn = s.twn := rfl
@[simp] theorem State.modUnit_kpr (c u : Nat) (f : EngUnit → EngUnit) : (s.modUnit c u f).kpr = s.kpr := rfl
@[simp] theorem State.modUnit_pin (c u : Nat) (f : EngUnit → EngUnit) : (s.modUnit c u f).pin = s.pin := rfl
@[simp] theorem State.modUnit_ep (c u : Nat) (f : EngUnit → EngUnit) : (s.modUnit c u f).ep = s.ep := rfl
@[simp] theorem State.modUnit_settings (c u : Nat) (f : EngUnit → EngUnit) : (s.modUnit c u f).settings = s.settings := rfl
@[simp] theorem State.modUnit_settingLog (c u : Nat) (f : EngUnit → EngUnit) : (s.modUnit c u f).settingLog = s.settingLog := rfl
@[simp] theorem State.modUnit_sent (c u : Nat) (f : EngUnit → EngUnit) : (s.modUnit c u f).sent = s.sent := rfl
@[simp] theorem State.modUnit_pending (c u : Nat) (f : EngUnit → EngUnit) : (s.modUnit c u f).pending = s.pending := rfl

@[simp] theorem State.modCar_free (i : Nat) (f : Carrier → Carrier) : (s.modCar i f).free = s.free := rfl
@[simp] theorem State.modCar_elapsed (i : Nat) (f : Carrier → Carrier) : (s.modCar i f).elapsed = s.elapsed := rfl
@[simp] theorem State.modCar_regs (i : Nat) (f : Carrier → Carrier) : (s.modCar i f).regs = s.regs := rfl
@[simp] theorem State.modCar_shadows (i : Nat) (f : Carrier → Carrier) : (s.modCar i f).shadows = s.shadows := rfl
@[simp] theorem State.modCar_holds (i : Nat) (f : Carrier → Carrier) : (s.modCar i f).holds = s.holds := rfl
@[simp] theorem State.modCar_replies (i : Nat) (f : Carrier → Carrier) : (s.modCar i f).replies = s.replies := rfl
@[simp] theorem State.modCar_mem (i : Nat) (f : Carrier → Carrier) : (s.modCar i f).mem = s.mem := rfl
@[simp] theorem State.modCar_damaged (i : Nat) (f : Carrier → Carrier) : (s.modCar i f).damaged = s.damaged := rfl
@[simp] theorem State.modCar_weak (i : Nat) (f : Carrier → Carrier) : (s.modCar i f).weak = s.weak := rfl
@[simp] theorem State.modCar_roles (i : Nat) (f : Carrier → Carrier) : (s.modCar i f).roles = s.roles := rfl
@[simp] theorem State.modCar_cores (i : Nat) (f : Carrier → Carrier) : (s.modCar i f).cores = s.cores := rfl
@[simp] theorem State.modCar_units (i : Nat) (f : Carrier → Carrier) : (s.modCar i f).units = s.units := rfl
@[simp] theorem State.modCar_coderCtx (i : Nat) (f : Carrier → Carrier) : (s.modCar i f).coderCtx = s.coderCtx := rfl
@[simp] theorem State.modCar_rawForced (i : Nat) (f : Carrier → Carrier) : (s.modCar i f).rawForced = s.rawForced := rfl
@[simp] theorem State.modCar_digestKeys (i : Nat) (f : Carrier → Carrier) : (s.modCar i f).digestKeys = s.digestKeys := rfl
@[simp] theorem State.modCar_mismatches (i : Nat) (f : Carrier → Carrier) : (s.modCar i f).mismatches = s.mismatches := rfl
@[simp] theorem State.modCar_mismatchTimes (i : Nat) (f : Carrier → Carrier) : (s.modCar i f).mismatchTimes = s.mismatchTimes := rfl
@[simp] theorem State.modCar_cipherSlots (i : Nat) (f : Carrier → Carrier) : (s.modCar i f).cipherSlots = s.cipherSlots := rfl
@[simp] theorem State.modCar_cipherCtx (i : Nat) (f : Carrier → Carrier) : (s.modCar i f).cipherCtx = s.cipherCtx := rfl
@[simp] theorem State.modCar_eraseOut (i : Nat) (f : Carrier → Carrier) : (s.modCar i f).eraseOut = s.eraseOut := rfl
@[simp] theorem State.modCar_eraseIn (i : Nat) (f : Carrier → Carrier) : (s.modCar i f).eraseIn = s.eraseIn := rfl
@[simp] theorem State.modCar_quires (i : Nat) (f : Carrier → Carrier) : (s.modCar i f).quires = s.quires := rfl
@[simp] theorem State.modCar_deltas (i : Nat) (f : Carrier → Carrier) : (s.modCar i f).deltas = s.deltas := rfl
@[simp] theorem State.modCar_acc (i : Nat) (f : Carrier → Carrier) : (s.modCar i f).acc = s.acc := rfl
@[simp] theorem State.modCar_cat (i : Nat) (f : Carrier → Carrier) : (s.modCar i f).cat = s.cat := rfl
@[simp] theorem State.modCar_med (i : Nat) (f : Carrier → Carrier) : (s.modCar i f).med = s.med := rfl
@[simp] theorem State.modCar_atp (i : Nat) (f : Carrier → Carrier) : (s.modCar i f).atp = s.atp := rfl
@[simp] theorem State.modCar_snp (i : Nat) (f : Carrier → Carrier) : (s.modCar i f).snp = s.snp := rfl
@[simp] theorem State.modCar_svc (i : Nat) (f : Carrier → Carrier) : (s.modCar i f).svc = s.svc := rfl
@[simp] theorem State.modCar_hlt (i : Nat) (f : Carrier → Carrier) : (s.modCar i f).hlt = s.hlt := rfl
@[simp] theorem State.modCar_pwr (i : Nat) (f : Carrier → Carrier) : (s.modCar i f).pwr = s.pwr := rfl
@[simp] theorem State.modCar_twn (i : Nat) (f : Carrier → Carrier) : (s.modCar i f).twn = s.twn := rfl
@[simp] theorem State.modCar_kpr (i : Nat) (f : Carrier → Carrier) : (s.modCar i f).kpr = s.kpr := rfl
@[simp] theorem State.modCar_pin (i : Nat) (f : Carrier → Carrier) : (s.modCar i f).pin = s.pin := rfl
@[simp] theorem State.modCar_ep (i : Nat) (f : Carrier → Carrier) : (s.modCar i f).ep = s.ep := rfl
@[simp] theorem State.modCar_settings (i : Nat) (f : Carrier → Carrier) : (s.modCar i f).settings = s.settings := rfl
@[simp] theorem State.modCar_settingLog (i : Nat) (f : Carrier → Carrier) : (s.modCar i f).settingLog = s.settingLog := rfl
@[simp] theorem State.modCar_sent (i : Nat) (f : Carrier → Carrier) : (s.modCar i f).sent = s.sent := rfl
@[simp] theorem State.modCar_pending (i : Nat) (f : Carrier → Carrier) : (s.modCar i f).pending = s.pending := rfl

@[simp] theorem State.modQp_free (q : Nat) (f : QPair → QPair) : (s.modQp q f).free = s.free := rfl
@[simp] theorem State.modQp_elapsed (q : Nat) (f : QPair → QPair) : (s.modQp q f).elapsed = s.elapsed := rfl
@[simp] theorem State.modQp_regs (q : Nat) (f : QPair → QPair) : (s.modQp q f).regs = s.regs := rfl
@[simp] theorem State.modQp_shadows (q : Nat) (f : QPair → QPair) : (s.modQp q f).shadows = s.shadows := rfl
@[simp] theorem State.modQp_holds (q : Nat) (f : QPair → QPair) : (s.modQp q f).holds = s.holds := rfl
@[simp] theorem State.modQp_replies (q : Nat) (f : QPair → QPair) : (s.modQp q f).replies = s.replies := rfl
@[simp] theorem State.modQp_mem (q : Nat) (f : QPair → QPair) : (s.modQp q f).mem = s.mem := rfl
@[simp] theorem State.modQp_damaged (q : Nat) (f : QPair → QPair) : (s.modQp q f).damaged = s.damaged := rfl
@[simp] theorem State.modQp_weak (q : Nat) (f : QPair → QPair) : (s.modQp q f).weak = s.weak := rfl
@[simp] theorem State.modQp_roles (q : Nat) (f : QPair → QPair) : (s.modQp q f).roles = s.roles := rfl
@[simp] theorem State.modQp_cores (q : Nat) (f : QPair → QPair) : (s.modQp q f).cores = s.cores := rfl
@[simp] theorem State.modQp_units (q : Nat) (f : QPair → QPair) : (s.modQp q f).units = s.units := rfl
@[simp] theorem State.modQp_coderCtx (q : Nat) (f : QPair → QPair) : (s.modQp q f).coderCtx = s.coderCtx := rfl
@[simp] theorem State.modQp_rawForced (q : Nat) (f : QPair → QPair) : (s.modQp q f).rawForced = s.rawForced := rfl
@[simp] theorem State.modQp_digestKeys (q : Nat) (f : QPair → QPair) : (s.modQp q f).digestKeys = s.digestKeys := rfl
@[simp] theorem State.modQp_mismatches (q : Nat) (f : QPair → QPair) : (s.modQp q f).mismatches = s.mismatches := rfl
@[simp] theorem State.modQp_mismatchTimes (q : Nat) (f : QPair → QPair) : (s.modQp q f).mismatchTimes = s.mismatchTimes := rfl
@[simp] theorem State.modQp_cipherSlots (q : Nat) (f : QPair → QPair) : (s.modQp q f).cipherSlots = s.cipherSlots := rfl
@[simp] theorem State.modQp_cipherCtx (q : Nat) (f : QPair → QPair) : (s.modQp q f).cipherCtx = s.cipherCtx := rfl
@[simp] theorem State.modQp_carriers (q : Nat) (f : QPair → QPair) : (s.modQp q f).carriers = s.carriers := rfl
@[simp] theorem State.modQp_eraseOut (q : Nat) (f : QPair → QPair) : (s.modQp q f).eraseOut = s.eraseOut := rfl
@[simp] theorem State.modQp_eraseIn (q : Nat) (f : QPair → QPair) : (s.modQp q f).eraseIn = s.eraseIn := rfl
@[simp] theorem State.modQp_quires (q : Nat) (f : QPair → QPair) : (s.modQp q f).quires = s.quires := rfl
@[simp] theorem State.modQp_deltas (q : Nat) (f : QPair → QPair) : (s.modQp q f).deltas = s.deltas := rfl
@[simp] theorem State.modQp_acc (q : Nat) (f : QPair → QPair) : (s.modQp q f).acc = s.acc := rfl
@[simp] theorem State.modQp_cat (q : Nat) (f : QPair → QPair) : (s.modQp q f).cat = s.cat := rfl
@[simp] theorem State.modQp_med (q : Nat) (f : QPair → QPair) : (s.modQp q f).med = s.med := rfl
@[simp] theorem State.modQp_snp (q : Nat) (f : QPair → QPair) : (s.modQp q f).snp = s.snp := rfl
@[simp] theorem State.modQp_svc (q : Nat) (f : QPair → QPair) : (s.modQp q f).svc = s.svc := rfl
@[simp] theorem State.modQp_hlt (q : Nat) (f : QPair → QPair) : (s.modQp q f).hlt = s.hlt := rfl
@[simp] theorem State.modQp_pwr (q : Nat) (f : QPair → QPair) : (s.modQp q f).pwr = s.pwr := rfl
@[simp] theorem State.modQp_twn (q : Nat) (f : QPair → QPair) : (s.modQp q f).twn = s.twn := rfl
@[simp] theorem State.modQp_kpr (q : Nat) (f : QPair → QPair) : (s.modQp q f).kpr = s.kpr := rfl
@[simp] theorem State.modQp_pin (q : Nat) (f : QPair → QPair) : (s.modQp q f).pin = s.pin := rfl
@[simp] theorem State.modQp_ep (q : Nat) (f : QPair → QPair) : (s.modQp q f).ep = s.ep := rfl
@[simp] theorem State.modQp_settings (q : Nat) (f : QPair → QPair) : (s.modQp q f).settings = s.settings := rfl
@[simp] theorem State.modQp_settingLog (q : Nat) (f : QPair → QPair) : (s.modQp q f).settingLog = s.settingLog := rfl
@[simp] theorem State.modQp_sent (q : Nat) (f : QPair → QPair) : (s.modQp q f).sent = s.sent := rfl
@[simp] theorem State.modQp_pending (q : Nat) (f : QPair → QPair) : (s.modQp q f).pending = s.pending := rfl

@[simp] theorem State.modCtrl_free (i : Nat) (f : Ctrl → Ctrl) : (s.modCtrl i f).free = s.free := rfl
@[simp] theorem State.modCtrl_elapsed (i : Nat) (f : Ctrl → Ctrl) : (s.modCtrl i f).elapsed = s.elapsed := rfl
@[simp] theorem State.modCtrl_regs (i : Nat) (f : Ctrl → Ctrl) : (s.modCtrl i f).regs = s.regs := rfl
@[simp] theorem State.modCtrl_shadows (i : Nat) (f : Ctrl → Ctrl) : (s.modCtrl i f).shadows = s.shadows := rfl
@[simp] theorem State.modCtrl_holds (i : Nat) (f : Ctrl → Ctrl) : (s.modCtrl i f).holds = s.holds := rfl
@[simp] theorem State.modCtrl_replies (i : Nat) (f : Ctrl → Ctrl) : (s.modCtrl i f).replies = s.replies := rfl
@[simp] theorem State.modCtrl_mem (i : Nat) (f : Ctrl → Ctrl) : (s.modCtrl i f).mem = s.mem := rfl
@[simp] theorem State.modCtrl_damaged (i : Nat) (f : Ctrl → Ctrl) : (s.modCtrl i f).damaged = s.damaged := rfl
@[simp] theorem State.modCtrl_weak (i : Nat) (f : Ctrl → Ctrl) : (s.modCtrl i f).weak = s.weak := rfl
@[simp] theorem State.modCtrl_roles (i : Nat) (f : Ctrl → Ctrl) : (s.modCtrl i f).roles = s.roles := rfl
@[simp] theorem State.modCtrl_cores (i : Nat) (f : Ctrl → Ctrl) : (s.modCtrl i f).cores = s.cores := rfl
@[simp] theorem State.modCtrl_units (i : Nat) (f : Ctrl → Ctrl) : (s.modCtrl i f).units = s.units := rfl
@[simp] theorem State.modCtrl_coderCtx (i : Nat) (f : Ctrl → Ctrl) : (s.modCtrl i f).coderCtx = s.coderCtx := rfl
@[simp] theorem State.modCtrl_rawForced (i : Nat) (f : Ctrl → Ctrl) : (s.modCtrl i f).rawForced = s.rawForced := rfl
@[simp] theorem State.modCtrl_digestKeys (i : Nat) (f : Ctrl → Ctrl) : (s.modCtrl i f).digestKeys = s.digestKeys := rfl
@[simp] theorem State.modCtrl_mismatches (i : Nat) (f : Ctrl → Ctrl) : (s.modCtrl i f).mismatches = s.mismatches := rfl
@[simp] theorem State.modCtrl_mismatchTimes (i : Nat) (f : Ctrl → Ctrl) : (s.modCtrl i f).mismatchTimes = s.mismatchTimes := rfl
@[simp] theorem State.modCtrl_cipherSlots (i : Nat) (f : Ctrl → Ctrl) : (s.modCtrl i f).cipherSlots = s.cipherSlots := rfl
@[simp] theorem State.modCtrl_cipherCtx (i : Nat) (f : Ctrl → Ctrl) : (s.modCtrl i f).cipherCtx = s.cipherCtx := rfl
@[simp] theorem State.modCtrl_carriers (i : Nat) (f : Ctrl → Ctrl) : (s.modCtrl i f).carriers = s.carriers := rfl
@[simp] theorem State.modCtrl_eraseOut (i : Nat) (f : Ctrl → Ctrl) : (s.modCtrl i f).eraseOut = s.eraseOut := rfl
@[simp] theorem State.modCtrl_eraseIn (i : Nat) (f : Ctrl → Ctrl) : (s.modCtrl i f).eraseIn = s.eraseIn := rfl
@[simp] theorem State.modCtrl_quires (i : Nat) (f : Ctrl → Ctrl) : (s.modCtrl i f).quires = s.quires := rfl
@[simp] theorem State.modCtrl_deltas (i : Nat) (f : Ctrl → Ctrl) : (s.modCtrl i f).deltas = s.deltas := rfl
@[simp] theorem State.modCtrl_acc (i : Nat) (f : Ctrl → Ctrl) : (s.modCtrl i f).acc = s.acc := rfl
@[simp] theorem State.modCtrl_cat (i : Nat) (f : Ctrl → Ctrl) : (s.modCtrl i f).cat = s.cat := rfl
@[simp] theorem State.modCtrl_med (i : Nat) (f : Ctrl → Ctrl) : (s.modCtrl i f).med = s.med := rfl
@[simp] theorem State.modCtrl_atp (i : Nat) (f : Ctrl → Ctrl) : (s.modCtrl i f).atp = s.atp := rfl
@[simp] theorem State.modCtrl_snp (i : Nat) (f : Ctrl → Ctrl) : (s.modCtrl i f).snp = s.snp := rfl
@[simp] theorem State.modCtrl_hlt (i : Nat) (f : Ctrl → Ctrl) : (s.modCtrl i f).hlt = s.hlt := rfl
@[simp] theorem State.modCtrl_pwr (i : Nat) (f : Ctrl → Ctrl) : (s.modCtrl i f).pwr = s.pwr := rfl
@[simp] theorem State.modCtrl_twn (i : Nat) (f : Ctrl → Ctrl) : (s.modCtrl i f).twn = s.twn := rfl
@[simp] theorem State.modCtrl_kpr (i : Nat) (f : Ctrl → Ctrl) : (s.modCtrl i f).kpr = s.kpr := rfl
@[simp] theorem State.modCtrl_pin (i : Nat) (f : Ctrl → Ctrl) : (s.modCtrl i f).pin = s.pin := rfl
@[simp] theorem State.modCtrl_ep (i : Nat) (f : Ctrl → Ctrl) : (s.modCtrl i f).ep = s.ep := rfl
@[simp] theorem State.modCtrl_settings (i : Nat) (f : Ctrl → Ctrl) : (s.modCtrl i f).settings = s.settings := rfl
@[simp] theorem State.modCtrl_settingLog (i : Nat) (f : Ctrl → Ctrl) : (s.modCtrl i f).settingLog = s.settingLog := rfl
@[simp] theorem State.modCtrl_sent (i : Nat) (f : Ctrl → Ctrl) : (s.modCtrl i f).sent = s.sent := rfl
@[simp] theorem State.modCtrl_pending (i : Nat) (f : Ctrl → Ctrl) : (s.modCtrl i f).pending = s.pending := rfl

@[simp] theorem State.repair_free (a : Nat) (en : List Bool) : (s.repair a en).free = s.free := rfl
@[simp] theorem State.repair_elapsed (a : Nat) (en : List Bool) : (s.repair a en).elapsed = s.elapsed := rfl
@[simp] theorem State.repair_regs (a : Nat) (en : List Bool) : (s.repair a en).regs = s.regs := rfl
@[simp] theorem State.repair_shadows (a : Nat) (en : List Bool) : (s.repair a en).shadows = s.shadows := rfl
@[simp] theorem State.repair_holds (a : Nat) (en : List Bool) : (s.repair a en).holds = s.holds := rfl
@[simp] theorem State.repair_replies (a : Nat) (en : List Bool) : (s.repair a en).replies = s.replies := rfl
@[simp] theorem State.repair_mem (a : Nat) (en : List Bool) : (s.repair a en).mem = s.mem := rfl
@[simp] theorem State.repair_cores (a : Nat) (en : List Bool) : (s.repair a en).cores = s.cores := rfl
@[simp] theorem State.repair_units (a : Nat) (en : List Bool) : (s.repair a en).units = s.units := rfl
@[simp] theorem State.repair_coderCtx (a : Nat) (en : List Bool) : (s.repair a en).coderCtx = s.coderCtx := rfl
@[simp] theorem State.repair_rawForced (a : Nat) (en : List Bool) : (s.repair a en).rawForced = s.rawForced := rfl
@[simp] theorem State.repair_digestKeys (a : Nat) (en : List Bool) : (s.repair a en).digestKeys = s.digestKeys := rfl
@[simp] theorem State.repair_mismatches (a : Nat) (en : List Bool) : (s.repair a en).mismatches = s.mismatches := rfl
@[simp] theorem State.repair_mismatchTimes (a : Nat) (en : List Bool) : (s.repair a en).mismatchTimes = s.mismatchTimes := rfl
@[simp] theorem State.repair_cipherSlots (a : Nat) (en : List Bool) : (s.repair a en).cipherSlots = s.cipherSlots := rfl
@[simp] theorem State.repair_cipherCtx (a : Nat) (en : List Bool) : (s.repair a en).cipherCtx = s.cipherCtx := rfl
@[simp] theorem State.repair_carriers (a : Nat) (en : List Bool) : (s.repair a en).carriers = s.carriers := rfl
@[simp] theorem State.repair_eraseOut (a : Nat) (en : List Bool) : (s.repair a en).eraseOut = s.eraseOut := rfl
@[simp] theorem State.repair_eraseIn (a : Nat) (en : List Bool) : (s.repair a en).eraseIn = s.eraseIn := rfl
@[simp] theorem State.repair_quires (a : Nat) (en : List Bool) : (s.repair a en).quires = s.quires := rfl
@[simp] theorem State.repair_deltas (a : Nat) (en : List Bool) : (s.repair a en).deltas = s.deltas := rfl
@[simp] theorem State.repair_acc (a : Nat) (en : List Bool) : (s.repair a en).acc = s.acc := rfl
@[simp] theorem State.repair_cat (a : Nat) (en : List Bool) : (s.repair a en).cat = s.cat := rfl
@[simp] theorem State.repair_med (a : Nat) (en : List Bool) : (s.repair a en).med = s.med := rfl
@[simp] theorem State.repair_atp (a : Nat) (en : List Bool) : (s.repair a en).atp = s.atp := rfl
@[simp] theorem State.repair_snp (a : Nat) (en : List Bool) : (s.repair a en).snp = s.snp := rfl
@[simp] theorem State.repair_svc (a : Nat) (en : List Bool) : (s.repair a en).svc = s.svc := rfl
@[simp] theorem State.repair_hlt (a : Nat) (en : List Bool) : (s.repair a en).hlt = s.hlt := rfl
@[simp] theorem State.repair_pwr (a : Nat) (en : List Bool) : (s.repair a en).pwr = s.pwr := rfl
@[simp] theorem State.repair_twn (a : Nat) (en : List Bool) : (s.repair a en).twn = s.twn := rfl
@[simp] theorem State.repair_kpr (a : Nat) (en : List Bool) : (s.repair a en).kpr = s.kpr := rfl
@[simp] theorem State.repair_pin (a : Nat) (en : List Bool) : (s.repair a en).pin = s.pin := rfl
@[simp] theorem State.repair_ep (a : Nat) (en : List Bool) : (s.repair a en).ep = s.ep := rfl
@[simp] theorem State.repair_settings (a : Nat) (en : List Bool) : (s.repair a en).settings = s.settings := rfl
@[simp] theorem State.repair_settingLog (a : Nat) (en : List Bool) : (s.repair a en).settingLog = s.settingLog := rfl
@[simp] theorem State.repair_sent (a : Nat) (en : List Bool) : (s.repair a en).sent = s.sent := rfl
@[simp] theorem State.repair_pending (a : Nat) (en : List Bool) : (s.repair a en).pending = s.pending := rfl

@[simp] theorem State.takeFree_free : s.takeFree.free = s.free + 1 := rfl
@[simp] theorem State.takeFrees_free (n : Nat) : (s.takeFrees n).free = s.free + n := rfl
@[simp] theorem State.emit_sent (m : Msg) : (s.emit m).sent = s.sent ++ [m] := rfl
theorem State.setReg_regs (a v : Nat) : (s.setReg a v).regs = Sparse.set 0 a (BitVec.ofNat 32 v) s.regs := rfl
theorem State.setCore_cores (k : Nat) (c : Core) : (s.setCore k c).cores = Sparse.set Core.cold k c s.cores := rfl
theorem State.setByte_mem (a : Nat) (b : Byte) : (s.setByte a b).mem = Sparse.set 0 a b s.mem := rfl

end Sys2Proof.Machine
end

