-- ==== Sys2Proof/Laws/Cores.lean ====
section
/-! SUPPORT. What the frame of an instruction does, once: an engine that executes runs the instruction's body on the state of the fetch, and
one with a next instruction goes on there. -/

namespace Sys2Proof.Machine

variable (s : State) (k : Nat)

@[simp] theorem State.core_setCore_same (c : Core) : (s.setCore k c).core k = c := by simp [State.core, State.setCore]
theorem State.core_setCore_other (j : Nat) (c : Core) (h : j ≠ k) : (s.setCore k c).core j = s.core j := by
  simp [State.core, State.setCore, Sparse.get_set_other _ _ _ _ _ h]
@[simp] theorem State.setCore_setCore (c d : Core) : (s.setCore k c).setCore k d = s.setCore k d := by simp [State.setCore]

theorem State.countCorrected_cores (a : Nat) : (s.countCorrected a).cores = s.cores := by
  unfold State.countCorrected
  split
  · rfl
  · split
    · split <;> rfl
    · rfl

/-- Counting a corrected access leaves the engines alone. -/
theorem State.correct_cores (a n : Nat) : (s.correct a n).cores = s.cores := by
  unfold State.correct; split
  · exact s.countCorrected_cores a
  · rfl

@[simp] theorem State.core_fetched (j : Nat) : (s.fetched k).core j = s.core j := by
  simp only [State.core, State.fetched, State.correct_cores]

theorem State.executes_iff (g : InstrGroup) (gs vs : List (BitVec 5)) :
    s.executes k g gs vs = true ↔ s.issues k gs vs = true ∧ s.fetchDamaged k = false ∧ lacks k g = false := by
  simp [State.executes, and_assoc]

/-- An engine that executes is running, waits for nothing, and takes no interrupt. -/
theorem State.executes_issuing {s : State} {k : Nat} {g : InstrGroup} {gs vs : List (BitVec 5)} (h : s.executes k g gs vs = true) :
    (s.core k).waiting = .issuing ∧ (s.core k).run = .running ∧ (s.core k).interruptDue = false ∧ isEngine k = true := by
  simp only [State.executes, State.issues, Bool.and_eq_true, beq_iff_eq, Bool.not_eq_true'] at h
  obtain ⟨⟨⟨⟨⟨⟨⟨h1, h2⟩, h3⟩, h4⟩, -⟩, -⟩, -⟩, -⟩ := h
  exact ⟨h3, h2, h4, h1⟩

/-- An engine that executes runs the body of the instruction on the state of the fetch. -/
theorem State.instr_executes {s : State} {k : Nat} {g : InstrGroup} {gs vs : List (BitVec 5)} (body : State → State)
    (h : s.executes k g gs vs = true) : s.instr k g gs vs body = body (s.fetched k) := by
  obtain ⟨h1, h2, h3⟩ := (State.executes_iff s k g gs vs).1 h
  simp [State.instr, State.fetched, h1, h2, h3]

/-- An engine that does not issue does nothing. -/
theorem State.instr_waits {s : State} {k : Nat} {g : InstrGroup} {gs vs : List (BitVec 5)} (body : State → State)
    (h : s.issues k gs vs = false) : s.instr k g gs vs body = s := by simp [State.instr, h]

/-- An engine whose pc can move on goes to the next instruction. -/
theorem State.advance_hasNext {s : State} {k : Nat} (h : s.hasNext k = true) :
    s.advance k = s.setCore k { s.core k with pc := (s.core k).pc + 4, waiting := .issuing } := by
  have hp : BitVec.ofNat 18 ((s.core k).pc.toNat + 4) = (s.core k).pc + 4 := by
    apply BitVec.eq_of_toNat_eq; simp
  simp only [State.hasNext] at h
  simp [State.advance, State.jump, h, State.setPc, State.modCore, hp]

theorem State.hasNext_setCore {s : State} {k : Nat} {c : Core} (h : s.hasNext k = true) (hc : c.pc = (s.core k).pc) :
    (s.setCore k c).hasNext k = true := by
  simpa [State.hasNext, hc] using h

@[simp] theorem State.hasNext_fetched : (s.fetched k).hasNext k = s.hasNext k := by simp [State.hasNext]

/-- After the fetch a change of registers, then the next instruction. -/
theorem State.modCore_advance {s : State} {k : Nat} (f : Core → Core) (h : s.hasNext k = true) (hp : (f (s.core k)).pc = (s.core k).pc)
    (hw : (f (s.core k)).waiting = .issuing) : ((s.fetched k).modCore k f).advance k = s.retired k f := by
  have h' : (s.fetched k).hasNext k = true := by simpa using h
  have hp' : (f ((s.fetched k).core k)).pc = ((s.fetched k).core k).pc := by simpa using hp
  rw [State.modCore, State.advance_hasNext (State.hasNext_setCore h' hp')]
  simp only [State.core_setCore_same, State.setCore_setCore, State.retired, State.core_fetched, hp]
  congr 1
  cases hc : f (s.core k)
  simp_all

theorem Core.setG_pc (d : BitVec 5) (v : Word64) (c : Core) : (c.setG d v).pc = c.pc := by simp only [Core.setG]; split <;> rfl
theorem Core.setG_waiting (d : BitVec 5) (v : Word64) (c : Core) : (c.setG d v).waiting = c.waiting := by simp only [Core.setG]; split <;> rfl
theorem Core.setP_pc (d : BitVec 3) (v : Word64) (c : Core) : (c.setP d v).pc = c.pc := by simp only [Core.setP]; split <;> rfl
theorem Core.setP_waiting (d : BitVec 3) (v : Word64) (c : Core) : (c.setP d v).waiting = c.waiting := by simp only [Core.setP]; split <;> rfl
theorem Core.putG_pc (d : BitVec 5) (v : Word64) (c : Core) : (c.putG d v).pc = c.pc := by rw [Core.putG, Core.setG_pc]; rfl
theorem Core.putG_waiting (d : BitVec 5) (v : Word64) (c : Core) : (c.putG d v).waiting = c.waiting := by rw [Core.putG, Core.setG_waiting]; rfl

theorem State.retireG_retired {s : State} {k : Nat} (d : BitVec 5) (v : Word64) (h : s.hasNext k = true) (hw : (s.core k).waiting = .issuing) :
    (s.fetched k).retireG k d v = s.retired k (Core.putG d v) :=
  State.modCore_advance _ h (Core.putG_pc ..) (by rw [Core.putG_waiting, hw])
theorem State.retireP_retired {s : State} {k : Nat} (d : BitVec 3) (v : Word64) (h : s.hasNext k = true) (hw : (s.core k).waiting = .issuing) :
    (s.fetched k).retireP k d v = s.retired k (Core.setP d v) :=
  State.modCore_advance _ h (Core.setP_pc ..) (by rw [Core.setP_waiting, hw])
theorem State.retireV_retired {s : State} {k : Nat} (d : BitVec 5) (v : Vec) (h : s.hasNext k = true) (hw : (s.core k).waiting = .issuing) :
    (s.fetched k).retireV k d v = s.retired k (Core.putV d v) := State.modCore_advance _ h rfl hw

end Sys2Proof.Machine
end

