-- ==== Sys2Proof/Laws/Kept.lean ====
section
/-! SUPPORT. What every operation of the machine keeps: `SYS_ELAPSED`, the waiting commands, and the canonical form of memory, of
the register image and of the tables of engines and units. -/

namespace Sys2Proof.Machine

/-- A canonical table may start at a lower key. -/
theorem wfFrom_mono {α : Type} [DecidableEq α] (d : α) (a b : Nat) (m : Sparse α) (hab : a ≤ b) (h : Sparse.wfFrom d b m = true) :
    Sparse.wfFrom d a m = true := by
  cases m with
  | nil => rfl
  | cons y t =>
    obtain ⟨j, w⟩ := y
    simp only [Sparse.wfFrom, Bool.and_eq_true, decide_eq_true_eq] at h ⊢
    exact ⟨⟨by omega, h.1.2⟩, h.2⟩

theorem filter_wf {α : Type} [DecidableEq α] (d : α) (lo : Nat) (p : Nat → α → Bool) (m : Sparse α) (h : Sparse.wfFrom d lo m = true) :
    Sparse.wfFrom d lo (Sparse.filter p m) = true := by
  induction m generalizing lo with
  | nil => rfl
  | cons x t ih =>
    obtain ⟨j, w⟩ := x
    simp only [Sparse.wfFrom, Bool.and_eq_true, decide_eq_true_eq] at h
    simp only [Sparse.filter]
    split
    · simp only [Sparse.wfFrom, Bool.and_eq_true, decide_eq_true_eq]
      exact ⟨h.1, ih (j + 1) h.2⟩
    · exact wfFrom_mono d lo (j + 1) _ (by omega) (ih (j + 1) h.2)

theorem insert_wf {α : Type} [DecidableEq α] (d : α) (k lo : Nat) (v : α) (m : Sparse α) (hk : lo ≤ k) (hv : v ≠ d)
    (hm : Sparse.get d k m = d) (h : Sparse.wfFrom d lo m = true) : Sparse.wfFrom d lo (Sparse.insert k v m) = true := by
  induction m generalizing lo with
  | nil => simp [Sparse.insert, Sparse.wfFrom, hk, hv]
  | cons x t ih =>
    obtain ⟨j, w⟩ := x
    simp only [Sparse.wfFrom, Bool.and_eq_true, decide_eq_true_eq] at h
    have hj : j ≠ k := by
      intro e
      simp [Sparse.get, e] at hm
      exact h.1.2 hm
    simp only [Sparse.insert]
    split
    · simp only [Sparse.wfFrom, Bool.and_eq_true, decide_eq_true_eq]
      exact ⟨⟨hk, hv⟩, ⟨by omega, h.1.2⟩, h.2⟩
    · simp only [Sparse.wfFrom, Bool.and_eq_true, decide_eq_true_eq]
      exact ⟨h.1, ih (j + 1) (by omega) (by simpa [Sparse.get, hj] using hm) h.2⟩

theorem set_wf {α : Type} [DecidableEq α] (d : α) (k lo : Nat) (v : α) (m : Sparse α) (hk : lo ≤ k) (h : Sparse.wfFrom d lo m = true) :
    Sparse.wfFrom d lo (Sparse.set d k v m) = true := by
  have he : Sparse.wfFrom d lo (Sparse.erase k m) = true := filter_wf d lo _ m h
  simp only [Sparse.set]
  split
  · exact he
  · exact insert_wf d k lo v _ hk ‹_› (by simp) he

/-- Against the state `s`: the clock and the waiting commands are the same, and each table given is canonical where that of `s` is. -/
def Keeps (s : State) (e : Word64) (p : List Instr) (m : Sparse Byte) (r : Sparse Word32) (c : Sparse Core) (u : Sparse EngUnit) : Prop :=
  e = s.elapsed ∧ p = s.pending ∧ (Sparse.wf 0 s.mem = true → Sparse.wf 0 m = true) ∧ (Sparse.wf 0 s.regs = true → Sparse.wf 0 r = true)
    ∧ (Sparse.wf Core.cold s.cores = true → Sparse.wf Core.cold c = true)
    ∧ (Sparse.wf EngUnit.idle s.units = true → Sparse.wf EngUnit.idle u = true)

/-- The state `t` keeps what `Keeps` says of `s`. -/
def Kept (s t : State) : Prop := Keeps s t.elapsed t.pending t.mem t.regs t.cores t.units

theorem Kept_refl (s : State) : Kept s s := ⟨rfl, rfl, id, id, id, id⟩

variable {s t : State} {e : Word64} {p : List Instr} {m : Sparse Byte} {r : Sparse Word32} {c : Sparse Core} {u : Sparse EngUnit}

theorem Keeps_of (h : Kept s t) : Keeps s t.elapsed t.pending t.mem t.regs t.cores t.units := h

theorem Kept_mk_iff {free elapsed regs shadows holds replies mem damaged weak cores roles units coderCtx rawForced digestKeys mismatches mismatchTimes cipherSlots cipherCtx carriers eraseOut eraseIn quires deltas acc cat med atp snp svc hlt pwr twn kpr pin ep settings settingLog sent pending} :
    Kept s (State.mk free elapsed regs shadows holds replies mem damaged weak cores roles units coderCtx rawForced digestKeys mismatches mismatchTimes cipherSlots cipherCtx carriers eraseOut eraseIn quires deltas acc cat med atp snp svc hlt pwr twn kpr pin ep settings settingLog sent pending) ↔ Keeps s elapsed pending mem regs cores units := ⟨fun h => h, fun h => h⟩

theorem Keeps_setMem (a : Nat) (v : Byte) (h : Keeps s e p m r c u) : Keeps s e p (Sparse.set 0 a v m) r c u :=
  ⟨h.1, h.2.1, fun x => set_wf 0 a 0 v m (by omega) (h.2.2.1 x), h.2.2.2⟩
theorem Keeps_setRegs (a : Nat) (v : Word32) (h : Keeps s e p m r c u) : Keeps s e p m (Sparse.set 0 a v r) c u :=
  ⟨h.1, h.2.1, h.2.2.1, fun x => set_wf 0 a 0 v r (by omega) (h.2.2.2.1 x), h.2.2.2.2⟩
theorem Keeps_setCores (a : Nat) (v : Core) (h : Keeps s e p m r c u) : Keeps s e p m r (Sparse.set Core.cold a v c) u :=
  ⟨h.1, h.2.1, h.2.2.1, h.2.2.2.1, fun x => set_wf Core.cold a 0 v c (by omega) (h.2.2.2.2.1 x), h.2.2.2.2.2⟩
theorem Keeps_setUnits (a : Nat) (v : EngUnit) (h : Keeps s e p m r c u) : Keeps s e p m r c (Sparse.set EngUnit.idle a v u) :=
  ⟨h.1, h.2.1, h.2.2.1, h.2.2.2.1, h.2.2.2.2.1, fun x => set_wf EngUnit.idle a 0 v u (by omega) (h.2.2.2.2.2 x)⟩
theorem Keeps_filterMem (f : Nat → Byte → Bool) (h : Keeps s e p m r c u) : Keeps s e p (Sparse.filter f m) r c u :=
  ⟨h.1, h.2.1, fun x => filter_wf 0 0 f m (h.2.2.1 x), h.2.2.2⟩
theorem Keeps_filterRegs (f : Nat → Word32 → Bool) (h : Keeps s e p m r c u) : Keeps s e p m (Sparse.filter f r) c u :=
  ⟨h.1, h.2.1, h.2.2.1, fun x => filter_wf 0 0 f r (h.2.2.2.1 x), h.2.2.2.2⟩
theorem Keeps_foldMem {α : Type} (l : List α) (f : α → Nat) (g : α → Byte) (h : Keeps s e p m r c u) :
    Keeps s e p (l.foldl (fun m x => Sparse.set 0 (f x) (g x) m) m) r c u := by
  induction l generalizing m with
  | nil => exact h
  | cons x t ih => exact ih (Keeps_setMem _ _ h)

theorem Kept_ite (c : Prop) [Decidable c] (A B : State) (hA : c → Kept s A) (hB : ¬ c → Kept s B) : Kept s (if c then A else B) := by
  split
  · exact hA ‹_›
  · exact hB ‹_›
theorem Kept_iteP {Y : Type} (π : Y → State) (c : Prop) [Decidable c] (A B : Y) (hA : c → Kept s (π A)) (hB : ¬ c → Kept s (π B)) :
    Kept s (π (if c then A else B)) := by
  split
  · exact hA ‹_›
  · exact hB ‹_›
theorem Kept_ite2 {X : Type} (c : Prop) [Decidable c] (A B : X × State) (hA : c → Kept s A.2) (hB : ¬ c → Kept s B.2) :
    Kept s (if c then A else B).2 := Kept_iteP (·.2) c A B hA hB
theorem Kept_foldlP {X Y : Type} (π : Y → State) (f : Y → X → Y) (l : List X) (t : Y) (h0 : Kept s (π t))
    (h : ∀ u x, Kept s (π u) → Kept s (π (f u x))) : Kept s (π (l.foldl f t)) := by
  induction l generalizing t with
  | nil => exact h0
  | cons x l ih => exact ih _ (h _ _ h0)
theorem Kept_foldl {X : Type} (f : State → X → State) (l : List X) (t : State) (h0 : Kept s t)
    (h : ∀ u x, Kept s u → Kept s (f u x)) : Kept s (l.foldl f t) := Kept_foldlP id f l t h0 h
theorem Kept_foldl2 {X Y : Type} (f : Y × State → X → Y × State) (l : List X) (t : Y × State) (h0 : Kept s t.2)
    (h : ∀ u x, Kept s u.2 → Kept s (f u x).2) : Kept s (l.foldl f t).2 := Kept_foldlP (·.2) f l t h0 h
theorem Kept_foldl22 {X Y Z : Type} (f : Y × Z × State → X → Y × Z × State) (l : List X) (t : Y × Z × State) (h0 : Kept s t.2.2)
    (h : ∀ u x, Kept s u.2.2 → Kept s (f u x).2.2) : Kept s (l.foldl f t).2.2 := Kept_foldlP (·.2.2) f l t h0 h
theorem Kept_snd {X : Type} {q : X × State} {a : X} {u : State} (e : q = (a, u)) (h : Kept s q.2) : Kept s u := by subst e; exact h
theorem Kept_snd2 {X Y : Type} {q : X × Y × State} {a : X} {b : Y} {u : State} (e : q = (a, b, u)) (h : Kept s q.2.2) : Kept s u := by
  subst e; exact h

end Sys2Proof.Machine
end

