-- ==== Sys2Proof/Laws/KeptOps.lean ====
section
/-! SUPPORT. `Kept` of the named operations, queues, regions, hosts, rings, roles, the governor, fences, engines and transport queues. -/

set_option maxRecDepth 10000

namespace Sys2Proof.Machine

/-! ### Ops -/

theorem takeFree_kept {s0 : State} (s : State) (hK : Kept s0 s) : Kept s0 (State.takeFree s) := by
  unfold State.takeFree
  with_reducible repeat' (first | assumption | apply Keeps_of | simp only [Kept_mk_iff])

theorem takeFrees_kept {s0 : State} (n : Nat) (s : State) (hK : Kept s0 s) : Kept s0 (State.takeFrees n s) := by
  unfold State.takeFrees
  with_reducible repeat' (first | assumption | apply Keeps_of | simp only [Kept_mk_iff])

theorem setReg_kept {s0 : State} (a v : Nat) (s : State) (hK : Kept s0 s) : Kept s0 (State.setReg a v s) := by
  unfold State.setReg
  with_reducible repeat' (first | assumption | apply Keeps_of | apply Keeps_setRegs | simp only [Kept_mk_iff])

theorem setReg64_kept {s0 : State} (a v : Nat) (s : State) (hK : Kept s0 s) : Kept s0 (State.setReg64 a v s) := by
  unfold State.setReg64
  with_reducible repeat' (first | assumption | apply setReg_kept)

theorem bump_kept {s0 : State} (a n : Nat) (s : State) (hK : Kept s0 s) : Kept s0 (State.bump a n s) := by
  unfold State.bump
  with_reducible repeat' (first | assumption | apply setReg_kept)

theorem bump64_kept {s0 : State} (a n : Nat) (s : State) (hK : Kept s0 s) : Kept s0 (State.bump64 a n s) := by
  unfold State.bump64
  with_reducible repeat' (first | assumption | apply setReg64_kept)

theorem setRegBit_kept {s0 : State} (a i : Nat) (s : State) (hK : Kept s0 s) : Kept s0 (State.setRegBit a i s) := by
  unfold State.setRegBit
  with_reducible repeat' (first | assumption | apply setReg_kept)

theorem clearRegBit_kept {s0 : State} (a i : Nat) (s : State) (hK : Kept s0 s) : Kept s0 (State.clearRegBit a i s) := by
  unfold State.clearRegBit
  with_reducible repeat' (first | assumption | apply setReg_kept)

theorem emit_kept {s0 : State} (m : Msg) (s : State) (hK : Kept s0 s) : Kept s0 (State.emit m s) := by
  unfold State.emit
  with_reducible repeat' (first | assumption | apply Keeps_of | simp only [Kept_mk_iff])

theorem raiseVector_kept {s0 : State} (v : Nat) (s : State) (hK : Kept s0 s) : Kept s0 (State.raiseVector v s) := by
  unfold State.raiseVector
  with_reducible repeat' (first | assumption | intro _ | apply emit_kept | apply Kept_ite | apply Keeps_of | simp only [Kept_mk_iff])

theorem setCore_kept {s0 : State} (k : Nat) (c : Core) (s : State) (hK : Kept s0 s) : Kept s0 (State.setCore k c s) := by
  unfold State.setCore
  with_reducible repeat' (first | assumption | apply Keeps_of | apply Keeps_setCores | simp only [Kept_mk_iff])

theorem modCore_kept {s0 : State} (k : Nat) (f : Core → Core) (s : State) (hK : Kept s0 s) : Kept s0 (State.modCore k f s) := by
  unfold State.modCore
  with_reducible repeat' (first | assumption | apply setCore_kept)

theorem setByte_kept {s0 : State} (a : Nat) (b : Byte) (s : State) (hK : Kept s0 s) : Kept s0 (State.setByte a b s) := by
  unfold State.setByte
  with_reducible repeat' (first | assumption | apply Keeps_of | apply Keeps_setMem | simp only [Kept_mk_iff])

theorem putBytes_kept {s0 : State} (a : Nat) (x0 : List Byte) (x1 : State) (hK : Kept s0 x1) : Kept s0 (State.putBytes a x0 x1) := by
  revert hK
  fun_induction State.putBytes <;> intro hK <;> (with_reducible repeat' (first | assumption | apply setByte_kept | apply_assumption))

theorem putMasked_kept {s0 : State} (a : Nat) (x0 : List (Bool × Byte)) (x1 : State) (hK : Kept s0 x1) : Kept s0 (State.putMasked a x0 x1) := by
  revert hK
  fun_induction State.putMasked <;> intro hK <;> (with_reducible repeat' (first
    | assumption | intro _ | apply setByte_kept | apply Kept_ite | apply_assumption))

theorem repair_kept {s0 : State} (a : Nat) (en : List Bool) (s : State) (hK : Kept s0 s) : Kept s0 (State.repair a en s) := by
  unfold State.repair
  with_reducible repeat' (first | assumption | apply Keeps_of | simp only [Kept_mk_iff])

theorem askTranslations_kept {s0 : State} (ps : List Nat) (s : State) (hK : Kept s0 s) : Kept s0 (State.askTranslations ps s) := by
  unfold State.askTranslations
  with_reducible repeat' (first
    | assumption | intro _ | apply bump_kept | apply emit_kept | apply Kept_ite | apply Keeps_of | apply Kept_foldl | simp only [Kept_mk_iff])

theorem dropFailed_kept {s0 : State} (ps : List Nat) (s : State) (hK : Kept s0 s) : Kept s0 (State.dropFailed ps s) := by
  unfold State.dropFailed
  with_reducible repeat' (first | assumption | apply Keeps_of | simp only [Kept_mk_iff])

theorem captureError_kept {s0 : State} (kind : BusKind) (src addr : Nat) (s : State) (hK : Kept s0 s) : Kept s0 (State.captureError kind src addr
    s) := by
  unfold State.captureError
  with_reducible repeat' (first
    | assumption | intro _ | apply setReg_kept | apply setReg64_kept | apply bump_kept | apply setRegBit_kept | apply raiseVector_kept
    | apply Kept_ite)

theorem countDamage_kept {s0 : State} (a : Nat) (s : State) (hK : Kept s0 s) : Kept s0 (State.countDamage a s) := by
  unfold State.countDamage
  with_reducible repeat' (first
    | assumption | intro _ | apply setReg_kept | apply bump_kept | apply Kept_ite | apply Keeps_of | split | simp only [Kept_mk_iff])

theorem countCorrected_kept {s0 : State} (a : Nat) (s : State) (hK : Kept s0 s) : Kept s0 (State.countCorrected a s) := by
  unfold State.countCorrected
  with_reducible repeat' (first | assumption | intro _ | apply setReg_kept | apply bump_kept | apply Kept_ite | split)

theorem correct_kept {s0 : State} (a n : Nat) (s : State) (hK : Kept s0 s) : Kept s0 (State.correct a n s) := by
  unfold State.correct
  with_reducible repeat' (first | assumption | intro _ | apply countCorrected_kept | apply Kept_ite)

theorem busError_kept {s0 : State} (kind : BusKind) (src addr : Nat) (s : State) (hK : Kept s0 s) : Kept s0 (State.busError kind src addr s) := by
  unfold State.busError
  with_reducible repeat' (first | assumption | intro _ | apply captureError_kept | apply countDamage_kept | apply Kept_ite)

theorem correctMerge_kept {s0 : State} (a : Nat) (en : List Bool) (s : State) (hK : Kept s0 s) : Kept s0 (State.correctMerge a en s) := by
  unfold State.correctMerge
  with_reducible repeat' (first | assumption | intro _ | apply countCorrected_kept | apply Kept_ite)

theorem performWrite_kept {s0 : State} (a : Nat) (bs : List (Bool × Byte)) (s : State) (hK : Kept s0 s) : Kept s0 (State.performWrite a bs s) := by
  unfold State.performWrite
  with_reducible repeat' (first | assumption | apply putMasked_kept | apply repair_kept | apply correctMerge_kept)

/-! ### Queues -/

theorem setUnit_kept {s0 : State} (cls u : Nat) (e : EngUnit) (s : State) (hK : Kept s0 s) : Kept s0 (State.setUnit cls u e s) := by
  unfold State.setUnit
  with_reducible repeat' (first | assumption | apply Keeps_of | apply Keeps_setUnits | simp only [Kept_mk_iff])

theorem modUnit_kept {s0 : State} (cls u : Nat) (f : EngUnit → EngUnit) (s : State) (hK : Kept s0 s) : Kept s0 (State.modUnit cls u f s) := by
  unfold State.modUnit
  with_reducible repeat' (first | assumption | apply setUnit_kept)

theorem accept_kept {s0 : State} (cls u q : Nat) (block : Vec) (s : State) (hK : Kept s0 s) : Kept s0 (State.accept cls u q block s).2 := by
  unfold State.accept
  with_reducible repeat' (first | assumption | intro _ | apply setReg64_kept | apply modUnit_kept | apply Kept_ite2)

theorem orphan_kept {s0 : State} (cls : Nat) (rec : List Byte) (s : State) (hK : Kept s0 s) : Kept s0 (State.orphan cls rec s) := by
  unfold State.orphan
  with_reducible repeat' (first | assumption | intro _ | apply setReg_kept | apply bump_kept | apply Kept_foldl)

theorem notifyCq_kept {s0 : State} (k n : Nat) (s : State) (hK : Kept s0 s) : Kept s0 (State.notifyCq k n s) := by
  unfold State.notifyCq
  with_reducible repeat' (first | assumption | intro _ | apply modCore_kept | apply Kept_ite)

theorem writeRecord_kept {s0 : State} (cls u : Nat) (c : Cmd) (s : State) (hK : Kept s0 s) : Kept s0 (State.writeRecord cls u c s) := by
  unfold State.writeRecord
  with_reducible repeat' (first
    | assumption | intro _ | apply busError_kept | apply performWrite_kept | apply orphan_kept | apply notifyCq_kept | apply Kept_ite | split)

theorem putCommand_kept {s0 : State} (cls u : Nat) (c : Cmd) (s : State) (hK : Kept s0 s) : Kept s0 (State.putCommand cls u c s) := by
  unfold State.putCommand
  with_reducible repeat' (first | assumption | apply modUnit_kept)

/-! ### Regions -/

theorem giveSetting_kept {s0 : State} (id index v : Nat) (s : State) (hK : Kept s0 s) : Kept s0 (State.giveSetting id index v s) := by
  unfold State.giveSetting
  with_reducible repeat' (first | assumption | apply Keeps_of | simp only [Kept_mk_iff])

theorem sendMirror_kept {s0 : State} (no off : Nat) (bytes : List Byte) (last : Bool) (s : State) (hK : Kept s0 s) : Kept s0 (State.sendMirror no
    off bytes last s) := by
  unfold State.sendMirror
  with_reducible repeat' (first | assumption | intro _ | apply emit_kept | apply Kept_ite)

theorem putHeader_kept {s0 : State} (base : Nat) (h : Header) (s : State) (hK : Kept s0 s) : Kept s0 (State.putHeader base h s) := by
  unfold State.putHeader
  with_reducible repeat' (first | assumption | apply performWrite_kept)

theorem modHeader_kept {s0 : State} (base no : Nat) (f : Header → Header) (s : State) (hK : Kept s0 s) : Kept s0 (State.modHeader base no f s) := by
  unfold State.modHeader
  with_reducible repeat' (first | assumption | apply putHeader_kept | split)

theorem modRing_kept {s0 : State} (no : Nat) (f : RingEntry → RingEntry) (s : State) (hK : Kept s0 s) : Kept s0 (State.modRing no f s) := by
  unfold State.modRing
  with_reducible repeat' (first | assumption | apply Keeps_of | simp only [Kept_mk_iff])

theorem allocate_kept {s0 : State} (h : Header) (slots : Nat) (cmd : Option (Nat × Nat)) (unmap : Bool) (reserved : Nat) (s : State) (hK : Kept s0
    s) : Kept s0 (State.allocate h slots cmd unmap reserved s).2 := by
  unfold State.allocate
  with_reducible repeat' (first | assumption | apply putHeader_kept | apply Keeps_of | split | simp only [Kept_mk_iff])

theorem freeEntry_kept {s0 : State} (no : Nat) (s : State) (hK : Kept s0 s) : Kept s0 (State.freeEntry no s) := by
  unfold State.freeEntry
  with_reducible repeat' (first | assumption | apply modHeader_kept | apply modRing_kept | apply Keeps_of | split | simp only [Kept_mk_iff])

/-! ### Hosts -/

theorem setConn_kept {s0 : State} (c : Nat) (x : Conn) (s : State) (hK : Kept s0 s) : Kept s0 (State.setConn c x s) := by
  unfold State.setConn
  with_reducible repeat' (first | assumption | apply Keeps_of | simp only [Kept_mk_iff])

theorem modConn_kept {s0 : State} (c : Nat) (f : Conn → Conn) (s : State) (hK : Kept s0 s) : Kept s0 (State.modConn c f s) := by
  unfold State.modConn
  with_reducible repeat' (first | assumption | apply setConn_kept)

theorem modCtrl_kept {s0 : State} (id : Nat) (f : Ctrl → Ctrl) (s : State) (hK : Kept s0 s) : Kept s0 (State.modCtrl id f s) := by
  unfold State.modCtrl
  with_reducible repeat' (first | assumption | apply Keeps_of | simp only [Kept_mk_iff])

theorem countTx_kept {s0 : State} (p n : Nat) (s : State) (hK : Kept s0 s) : Kept s0 (State.countTx p n s) := by
  unfold State.countTx
  with_reducible repeat' (first | assumption | apply takeFree_kept | apply bump64_kept)

theorem countRx_kept {s0 : State} (p : Nat) (s : State) (hK : Kept s0 s) : Kept s0 (State.countRx p s) := by
  unfold State.countRx
  with_reducible repeat' (first | assumption | apply takeFree_kept | apply bump64_kept)

theorem heardPdu_kept {s0 : State} (c : Nat) (s : State) (hK : Kept s0 s) : Kept s0 (State.heardPdu c s) := by
  unfold State.heardPdu
  with_reducible repeat' (first | assumption | apply countRx_kept)

theorem sendPdu_kept {s0 : State} (c type : Nat) (psh data : List Byte) (s : State) (hK : Kept s0 s) : Kept s0 (State.sendPdu c type psh data s)
    := by
  unfold State.sendPdu
  with_reducible repeat' (first | assumption | apply emit_kept | apply countTx_kept)

theorem capsule_kept {s0 : State} (c cid dw0 status : Nat) (s : State) (hK : Kept s0 s) : Kept s0 (State.capsule c cid dw0 status s) := by
  unfold State.capsule
  with_reducible repeat' (first
    | assumption | intro _ | apply takeFree_kept | apply bump64_kept | apply modConn_kept | apply sendPdu_kept | apply Kept_ite)

theorem respond_kept {s0 : State} (c cid dw0 status : Nat) (s : State) (hK : Kept s0 s) : Kept s0 (State.respond c cid dw0 status s) := by
  unfold State.respond
  with_reducible repeat' (first | assumption | intro _ | apply capsule_kept | apply Kept_foldl)

theorem postEvent_kept {s0 : State} (id event : Nat) (s : State) (hK : Kept s0 s) : Kept s0 (State.postEvent id event s) := by
  unfold State.postEvent
  with_reducible repeat' (first | assumption | apply modCtrl_kept | apply respond_kept | split)

theorem anaChange_kept {s0 : State} (s : State) (hK : Kept s0 s) : Kept s0 (State.anaChange s) := by
  unfold State.anaChange
  with_reducible repeat' (first
    | assumption | intro _ | apply postEvent_kept | apply Kept_ite | apply Keeps_of | apply Kept_foldl | simp only [Kept_mk_iff])

theorem endQueue_kept {s0 : State} (c : Nat) (s : State) (hK : Kept s0 s) : Kept s0 (State.endQueue c s) := by
  unfold State.endQueue
  with_reducible repeat' (first
    | assumption | intro _ | apply freeEntry_kept | apply setConn_kept | apply modConn_kept | apply Kept_ite | apply Keeps_of | apply Kept_foldl
    | simp only [Kept_mk_iff])

theorem endConn_kept {s0 : State} (c : Nat) (s : State) (hK : Kept s0 s) : Kept s0 (State.endConn c s) := by
  unfold State.endConn
  with_reducible repeat' (first | assumption | intro _ | apply endQueue_kept | apply Kept_ite | apply Keeps_of | split | simp only [Kept_mk_iff])

theorem closeConn_kept {s0 : State} (c : Nat) (s : State) (hK : Kept s0 s) : Kept s0 (State.closeConn c s) := by
  unfold State.closeConn
  with_reducible repeat' (first | assumption | apply emit_kept | apply endConn_kept)

theorem endTeardowns_kept {s0 : State} (s : State) (hK : Kept s0 s) : Kept s0 (State.endTeardowns s) := by
  unfold State.endTeardowns
  with_reducible repeat' (first | assumption | apply Keeps_of | simp only [Kept_mk_iff])

theorem endReads_kept {s0 : State} (s : State) (hK : Kept s0 s) : Kept s0 (State.endReads s) := by
  unfold State.endReads
  with_reducible repeat' (first | assumption | intro _ | apply respond_kept | apply Kept_foldl)

theorem endConns_kept {s0 : State} (p : Nat → Bool) (s : State) (hK : Kept s0 s) : Kept s0 (State.endConns p s) := by
  unfold State.endConns
  with_reducible repeat' (first | assumption | intro _ | apply endConn_kept | apply Kept_foldl)

/-! ### Rings -/

theorem modCring_kept {s0 : State} (r : Nat) (f : Ring → Ring) (s : State) (hK : Kept s0 s) : Kept s0 (State.modCring r f s) := by
  unfold State.modCring
  with_reducible repeat' (first | assumption | apply Keeps_of | simp only [Kept_mk_iff])

theorem hostWrite_kept {s0 : State} (src bus : Nat) (bs : List Byte) (s : State) (hK : Kept s0 s) : Kept s0 (State.hostWrite src bus bs s).2 := by
  unfold State.hostWrite
  with_reducible repeat' (first | assumption | apply busError_kept | apply performWrite_kept | split | simp only [Kept_mk_iff])

theorem settleRing_kept {s0 : State} (r : Nat) (s : State) (hK : Kept s0 s) : Kept s0 (State.settleRing r s) := by
  unfold State.settleRing
  with_reducible repeat' (first | assumption | intro _ | apply modCring_kept | apply Kept_ite)

theorem disableRing_kept {s0 : State} (r : Nat) (s : State) (hK : Kept s0 s) : Kept s0 (State.disableRing r s) := by
  unfold State.disableRing
  with_reducible repeat' (first | assumption | intro _ | apply clearRegBit_kept | apply modCring_kept | apply settleRing_kept | apply Kept_ite)

theorem crEnd_kept {s0 : State} (r status res0 res1 : Nat) (s : State) (hK : Kept s0 s) : Kept s0 (State.crEnd r status res0 res1 s) := by
  unfold State.crEnd
  with_reducible repeat' (first
    | assumption | apply raiseVector_kept | apply modCring_kept | apply hostWrite_kept | apply settleRing_kept | split | simp only [Kept_mk_iff])

theorem sweepRing_kept {s0 : State} (r : Nat) (x0 : Nat) (x1 : State) (hK : Kept s0 x1) : Kept s0 (State.sweepRing r x0 x1) := by
  revert hK
  fun_induction State.sweepRing <;> intro hK <;> (with_reducible repeat' (first | assumption | apply crEnd_kept | apply_assumption))

theorem crComplete_kept {s0 : State} (r status res0 res1 : Nat) (s : State) (hK : Kept s0 s) : Kept s0 (State.crComplete r status res0 res1 s) := by
  unfold State.crComplete
  with_reducible repeat' (first | assumption | apply crEnd_kept | apply sweepRing_kept)

theorem crFinish_kept {s0 : State} (r status res0 : Nat) (s : State) (hK : Kept s0 s) : Kept s0 (State.crFinish r status res0 s) := by
  unfold State.crFinish
  with_reducible repeat' (first | assumption | intro _ | apply crComplete_kept | apply Kept_ite)

theorem interruptRing_kept {s0 : State} (r : Nat) (x0 : Nat) (x1 : State) (hK : Kept s0 x1) : Kept s0 (State.interruptRing r x0 x1) := by
  revert hK
  fun_induction State.interruptRing <;> intro hK <;> (with_reducible repeat' (first | assumption | apply crComplete_kept | apply_assumption))

theorem forgetRings_kept {s0 : State} (s : State) (hK : Kept s0 s) : Kept s0 (State.forgetRings s) := by
  unfold State.forgetRings
  with_reducible repeat' (first | assumption | apply Keeps_of | simp only [Kept_mk_iff])

theorem interruptRings_kept {s0 : State} (s : State) (hK : Kept s0 s) : Kept s0 (State.interruptRings s) := by
  unfold State.interruptRings
  with_reducible repeat' (first | assumption | intro _ | apply interruptRing_kept | apply forgetRings_kept | apply Kept_foldl)

theorem dropOrdersOf_kept {s0 : State} (gone : Nat → Bool) (s : State) (hK : Kept s0 s) : Kept s0 (State.dropOrdersOf gone s) := by
  unfold State.dropOrdersOf
  with_reducible repeat' (first | assumption | intro _ | apply crFinish_kept | apply Keeps_of | apply Kept_foldl | simp only [Kept_mk_iff])

theorem dropOrders_kept {s0 : State} (s : State) (hK : Kept s0 s) : Kept s0 (State.dropOrders s) := by
  unfold State.dropOrders
  with_reducible repeat' (first
    | assumption | intro _ | apply respond_kept | apply crFinish_kept | apply dropOrdersOf_kept | apply Keeps_of | apply Kept_foldl | split
    | simp only [Kept_mk_iff])

theorem takeShipments_kept {s0 : State} (s : State) (hK : Kept s0 s) : Kept s0 (State.takeShipments s) := by
  unfold State.takeShipments
  with_reducible repeat' (first | assumption | apply Keeps_of | simp only [Kept_mk_iff])

/-! ### Roles -/

theorem assignRoles_kept {s0 : State} (s : State) (hK : Kept s0 s) : Kept s0 (State.assignRoles s) := by
  unfold State.assignRoles
  with_reducible repeat' (first | assumption | apply Keeps_of | simp only [Kept_mk_iff])

theorem failWrite_kept {s0 : State} (c cid st : Nat) (s : State) (hK : Kept s0 s) : Kept s0 (State.failWrite c cid st s) := by
  unfold State.failWrite
  with_reducible repeat' (first
    | assumption | intro _ | apply freeEntry_kept | apply respond_kept | apply Keeps_of | apply Kept_foldl | simp only [Kept_mk_iff])

theorem loseCores_kept {s0 : State} (ks : List Nat) (s : State) (hK : Kept s0 s) : Kept s0 (State.loseCores ks s) := by
  unfold State.loseCores
  with_reducible repeat' (first
    | assumption | intro _ | apply failWrite_kept | apply Kept_ite | apply Keeps_of | apply Kept_foldl | simp only [Kept_mk_iff])

/-! ### Dump -/

theorem writeDump_kept {s0 : State} (s : State) (hK : Kept s0 s) : Kept s0 (State.writeDump s) := by
  unfold State.writeDump
  with_reducible repeat' (first | assumption | apply Keeps_of | simp only [Kept_mk_iff])

theorem dumpIfDue_kept {s0 : State} (s : State) (hK : Kept s0 s) : Kept s0 (State.dumpIfDue s) := by
  unfold State.dumpIfDue
  with_reducible repeat' (first | assumption | intro _ | apply writeDump_kept | apply Kept_ite)

/-! ### Governor -/

theorem putMode_kept {s0 : State} (m : Mode) (f : QForm) (s : State) (hK : Kept s0 s) : Kept s0 (State.putMode m f s) := by
  unfold State.putMode
  with_reducible repeat' (first | assumption | apply Keeps_of | simp only [Kept_mk_iff])

theorem setMode_kept {s0 : State} (m : Mode) (f : QForm) (s : State) (hK : Kept s0 s) : Kept s0 (State.setMode m f s) := by
  unfold State.setMode
  with_reducible repeat' (first | assumption | intro _ | apply raiseVector_kept | apply putMode_kept | apply Kept_ite)

theorem linksDown_kept {s0 : State} (s : State) (hK : Kept s0 s) : Kept s0 (State.linksDown s) := by
  unfold State.linksDown
  with_reducible repeat' (first
    | assumption | intro _ | apply clearRegBit_kept | apply endConns_kept | apply Keeps_of | apply Kept_foldl | simp only [Kept_mk_iff])

theorem releasePerst_kept {s0 : State} (s : State) (hK : Kept s0 s) : Kept s0 (State.releasePerst s) := by
  unfold State.releasePerst
  with_reducible repeat' (first | assumption | intro _ | apply Kept_ite | apply Keeps_of | simp only [Kept_mk_iff])

theorem cancelActivation_kept {s0 : State} (s : State) (hK : Kept s0 s) : Kept s0 (State.cancelActivation s) := by
  unfold State.cancelActivation
  with_reducible repeat' (first | assumption | apply Keeps_of | split | simp only [Kept_mk_iff])

theorem modeAfter_kept {s0 : State} (cause : Nat) (s : State) (hK : Kept s0 s) : Kept s0 (State.modeAfter cause s) := by
  unfold State.modeAfter
  with_reducible repeat' (first
    | assumption | intro _ | apply setMode_kept | apply linksDown_kept | apply Kept_ite | apply Keeps_of | simp only [Kept_mk_iff])

theorem dropCustody_kept {s0 : State} (cause : Nat) (s : State) (hK : Kept s0 s) : Kept s0 (State.dropCustody cause s) := by
  unfold State.dropCustody
  with_reducible repeat' (first
    | assumption | apply anaChange_kept | apply endTeardowns_kept | apply endReads_kept | apply dropOrders_kept | apply Keeps_of
    | simp only [Kept_mk_iff])

theorem salvageDump_kept {s0 : State} (cause : Nat) (s : State) (hK : Kept s0 s) : Kept s0 (State.salvageDump cause s) := by
  unfold State.salvageDump
  with_reducible repeat' (first | assumption | intro _ | apply dumpIfDue_kept | apply Kept_ite)

theorem alsoCause_kept {s0 : State} (cause : Nat) (s : State) (hK : Kept s0 s) : Kept s0 (State.alsoCause cause s) := by
  unfold State.alsoCause
  with_reducible repeat' (first | assumption | intro _ | apply Kept_ite | apply Keeps_of | simp only [Kept_mk_iff])

theorem releaseCustody_kept {s0 : State} (cause : Nat) (s : State) (hK : Kept s0 s) : Kept s0 (State.releaseCustody cause s) := by
  unfold State.releaseCustody
  with_reducible repeat' (first
    | assumption | intro _ | apply raiseVector_kept | apply cancelActivation_kept | apply modeAfter_kept | apply dropCustody_kept
    | apply salvageDump_kept | apply alsoCause_kept | apply Kept_ite)

theorem afterFence_kept {s0 : State} (src : Nat) (s : State) (hK : Kept s0 s) : Kept s0 (State.afterFence src s) := by
  unfold State.afterFence
  with_reducible repeat' (first | assumption | intro _ | apply releaseCustody_kept | apply Kept_ite)

theorem stopForFence_kept {s0 : State} (k : Nat) (s : State) (hK : Kept s0 s) : Kept s0 (State.stopForFence k s) := by
  unfold State.stopForFence
  with_reducible repeat' (first | assumption | apply clearRegBit_kept | apply modCore_kept)

theorem recordExpiry_kept {s0 : State} (k : Nat) (s : State) (hK : Kept s0 s) : Kept s0 (State.recordExpiry k s) := by
  unfold State.recordExpiry
  with_reducible repeat' (first | assumption | intro _ | apply setRegBit_kept | apply Kept_ite)

theorem markFenced_kept {s0 : State} (k : Nat) (s : State) (hK : Kept s0 s) : Kept s0 (State.markFenced k s) := by
  unfold State.markFenced
  with_reducible repeat' (first | assumption | apply setRegBit_kept | apply stopForFence_kept | apply recordExpiry_kept)

theorem afterCores_kept {s0 : State} (old : Option Nat) (s : State) (hK : Kept s0 s) : Kept s0 (State.afterCores old s) := by
  unfold State.afterCores
  with_reducible repeat' (first | assumption | intro _ | apply interruptRings_kept | apply assignRoles_kept | apply Kept_ite)

theorem fenceCore_kept {s0 : State} (k : Nat) (s : State) (hK : Kept s0 s) : Kept s0 (State.fenceCore k s) := by
  unfold State.fenceCore
  with_reducible repeat' (first | assumption | apply loseCores_kept | apply markFenced_kept | apply afterCores_kept)

theorem holdClock_kept {s0 : State} (k : Nat) (s : State) (hK : Kept s0 s) : Kept s0 (State.holdClock k s) := by
  unfold State.holdClock
  with_reducible repeat' (first | assumption | apply modCore_kept)

theorem fenceCluster_kept {s0 : State} (c : Nat) (s : State) (hK : Kept s0 s) : Kept s0 (State.fenceCluster c s) := by
  unfold State.fenceCluster
  with_reducible repeat' (first
    | assumption | intro _ | apply setRegBit_kept | apply loseCores_kept | apply markFenced_kept | apply afterCores_kept | apply holdClock_kept
    | apply Kept_foldl)

theorem endUnitService_kept {s0 : State} (cls st : Nat) (s : State) (hK : Kept s0 s) : Kept s0 (State.endUnitService cls st s) := by
  unfold State.endUnitService
  with_reducible repeat' (first | assumption | intro _ | apply modUnit_kept | apply Kept_foldl)

theorem clearKeyUnits_kept {s0 : State} (s : State) (hK : Kept s0 s) : Kept s0 (State.clearKeyUnits s) := by
  unfold State.clearKeyUnits
  with_reducible repeat' (first | assumption | apply bump_kept | apply endUnitService_kept | apply Keeps_of | simp only [Kept_mk_iff])

theorem zeroMailbox_kept {s0 : State} (s : State) (hK : Kept s0 s) : Kept s0 (State.zeroMailbox s) := by
  unfold State.zeroMailbox
  with_reducible repeat' (first | assumption | intro _ | apply setReg_kept | apply Kept_foldl)

theorem alarmNow_kept {s0 : State} (code : Nat) (s : State) (hK : Kept s0 s) : Kept s0 (State.alarmNow code s) := by
  unfold State.alarmNow
  with_reducible repeat' (first
    | assumption | apply releaseCustody_kept | apply clearKeyUnits_kept | apply zeroMailbox_kept | apply Keeps_of | split | simp only [Kept_mk_iff])

theorem keeperAlarm_kept {s0 : State} (code : Nat) (s : State) (hK : Kept s0 s) : Kept s0 (State.keeperAlarm code s) := by
  unfold State.keeperAlarm
  with_reducible repeat' (first | assumption | intro _ | apply alarmNow_kept | apply Kept_ite | apply Keeps_of | simp only [Kept_mk_iff])

/-! ### Fence -/

theorem setCar_kept {s0 : State} (slot : Nat) (c : Carrier) (s : State) (hK : Kept s0 s) : Kept s0 (State.setCar slot c s) := by
  unfold State.setCar
  with_reducible repeat' (first | assumption | apply Keeps_of | simp only [Kept_mk_iff])

theorem modCar_kept {s0 : State} (slot : Nat) (f : Carrier → Carrier) (s : State) (hK : Kept s0 s) : Kept s0 (State.modCar slot f s) := by
  unfold State.modCar
  with_reducible repeat' (first | assumption | apply setCar_kept)

theorem dropPort_kept {s0 : State} (slot port : Nat) (s : State) (hK : Kept s0 s) : Kept s0 (State.dropPort slot port s) := by
  unfold State.dropPort
  with_reducible repeat' (first | assumption | intro _ | apply takeFree_kept | apply modCar_kept | apply Kept_foldl)

theorem resetCarrierPort_kept {s0 : State} (slot port : Nat) (s : State) (hK : Kept s0 s) : Kept s0 (State.resetCarrierPort slot port s) := by
  unfold State.resetCarrierPort
  with_reducible repeat' (first | assumption | apply modCar_kept | apply dropPort_kept)

theorem reassignCarriers_kept {s0 : State} (seq : Nat) (s : State) (hK : Kept s0 s) : Kept s0 (State.reassignCarriers seq s) := by
  unfold State.reassignCarriers
  with_reducible repeat' (first | assumption | intro _ | apply modCar_kept | apply resetCarrierPort_kept | apply Kept_foldl)

theorem endCommands_kept {s0 : State} (cls u st : Nat) (ab : Bool) (s : State) (hK : Kept s0 s) : Kept s0 (State.endCommands cls u st ab s) := by
  unfold State.endCommands
  with_reducible repeat' (first | assumption | apply modUnit_kept)

theorem abortChannel_kept {s0 : State} (u : Nat) (s : State) (hK : Kept s0 s) : Kept s0 (State.abortChannel u s) := by
  unfold State.abortChannel
  with_reducible repeat' (first | assumption | intro _ | apply setReg_kept | apply endCommands_kept | apply Kept_ite)

theorem endFenced_kept {s0 : State} (cls u : Nat) (s : State) (hK : Kept s0 s) : Kept s0 (State.endFenced cls u s) := by
  unfold State.endFenced
  with_reducible repeat' (first
    | assumption | intro _ | apply modCore_kept | apply modUnit_kept | apply reassignCarriers_kept | apply endCommands_kept | apply Kept_ite
    | apply Keeps_of | simp only [Kept_mk_iff])

theorem fenceUnit_kept {s0 : State} (cls u : Nat) (s : State) (hK : Kept s0 s) : Kept s0 (State.fenceUnit cls u s) := by
  unfold State.fenceUnit
  with_reducible repeat' (first | assumption | apply setRegBit_kept | apply endFenced_kept)

theorem fenceDmaEngine_kept {s0 : State} (e : Nat) (s : State) (hK : Kept s0 s) : Kept s0 (State.fenceDmaEngine e s) := by
  unfold State.fenceDmaEngine
  with_reducible repeat' (first | assumption | intro _ | apply setRegBit_kept | apply endFenced_kept | apply Kept_foldl)

/-! ### Cores -/

theorem doubleFault_kept {s0 : State} (k : Nat) (s : State) (hK : Kept s0 s) : Kept s0 (State.doubleFault k s) := by
  unfold State.doubleFault
  with_reducible repeat' (first
    | assumption | apply setRegBit_kept | apply modCore_kept | apply afterFence_kept | apply fenceCore_kept | apply keeperAlarm_kept
    | apply fenceUnit_kept | split)

theorem enterException_kept {s0 : State} (k cause epc fault : Nat) (s : State) (hK : Kept s0 s) : Kept s0 (State.enterException k cause epc fault
    s) := by
  unfold State.enterException
  with_reducible repeat' (first | assumption | intro _ | apply modCore_kept | apply doubleFault_kept | apply Kept_ite)

theorem setPc_kept {s0 : State} (k target : Nat) (s : State) (hK : Kept s0 s) : Kept s0 (State.setPc k target s) := by
  unfold State.setPc
  with_reducible repeat' (first | assumption | apply modCore_kept)

theorem leaveBarrier_kept {s0 : State} (k : Nat) (s : State) (hK : Kept s0 s) : Kept s0 (State.leaveBarrier k s) := by
  unfold State.leaveBarrier
  with_reducible repeat' (first | assumption | intro _ | apply enterException_kept | apply setPc_kept | apply Kept_ite)

theorem settleBarrier_kept {s0 : State} (cl : Nat) (mask : BitVec 8) (s : State) (hK : Kept s0 s) : Kept s0 (State.settleBarrier cl mask s) := by
  unfold State.settleBarrier
  with_reducible repeat' (first | assumption | intro _ | apply leaveBarrier_kept | apply Kept_ite | apply Kept_foldl)

theorem settleBarriers_kept {s0 : State} (cl : Nat) (s : State) (hK : Kept s0 s) : Kept s0 (State.settleBarriers cl s) := by
  unfold State.settleBarriers
  with_reducible repeat' (first | assumption | intro _ | apply settleBarrier_kept | apply Kept_foldl)

theorem settleCluster_kept {s0 : State} (k : Nat) (s : State) (hK : Kept s0 s) : Kept s0 (State.settleCluster k s) := by
  unfold State.settleCluster
  with_reducible repeat' (first | assumption | intro _ | apply settleBarriers_kept | apply Kept_ite)

theorem takeException_kept {s0 : State} (k cause epc fault : Nat) (s : State) (hK : Kept s0 s) : Kept s0 (State.takeException k cause epc fault s)
    := by
  unfold State.takeException
  with_reducible repeat' (first | assumption | apply enterException_kept | apply settleCluster_kept)

theorem jump_kept {s0 : State} (k target : Nat) (s : State) (hK : Kept s0 s) : Kept s0 (State.jump k target s) := by
  unfold State.jump
  with_reducible repeat' (first | assumption | intro _ | apply setPc_kept | apply takeException_kept | apply Kept_ite)

theorem advance_kept {s0 : State} (k : Nat) (s : State) (hK : Kept s0 s) : Kept s0 (State.advance k s) := by
  unfold State.advance
  with_reducible repeat' (first | assumption | apply jump_kept)

theorem raise_kept {s0 : State} (k cause fault : Nat) (s : State) (hK : Kept s0 s) : Kept s0 (State.raise k cause fault s) := by
  unfold State.raise
  with_reducible repeat' (first | assumption | apply takeException_kept)

theorem reachBarrier_kept {s0 : State} (k : Nat) (mask : BitVec 8) (s : State) (hK : Kept s0 s) : Kept s0 (State.reachBarrier k mask s) := by
  unfold State.reachBarrier
  with_reducible repeat' (first | assumption | apply modCore_kept | apply settleBarrier_kept)

theorem coreFence_kept {s0 : State} (src k : Nat) (s : State) (hK : Kept s0 s) : Kept s0 (State.coreFence src k s) := by
  unfold State.coreFence
  with_reducible repeat' (first | assumption | apply afterFence_kept | apply fenceCore_kept | apply settleBarriers_kept)

theorem clusterFence_kept {s0 : State} (src c : Nat) (s : State) (hK : Kept s0 s) : Kept s0 (State.clusterFence src c s) := by
  unfold State.clusterFence
  with_reducible repeat' (first | assumption | apply afterFence_kept | apply fenceCluster_kept)

theorem sendEnq_kept {s0 : State} (k : Nat) (gd vs gq : BitVec 5) (s : State) (hK : Kept s0 s) : Kept s0 (State.sendEnq k gd vs gq s) := by
  unfold State.sendEnq
  with_reducible repeat' (first | assumption | intro _ | apply modCore_kept | apply advance_kept | apply Kept_ite)

theorem settleFence_kept {s0 : State} (k : Nat) (s : State) (hK : Kept s0 s) : Kept s0 (State.settleFence k s) := by
  unfold State.settleFence
  with_reducible repeat' (first
    | assumption | intro _ | apply advance_kept | apply reachBarrier_kept | apply sendEnq_kept | apply Kept_ite | split | simp only [Kept_mk_iff])

theorem beginWait_kept {s0 : State} (k : Nat) (w : Waiting) (s : State) (hK : Kept s0 s) : Kept s0 (State.beginWait k w s) := by
  unfold State.beginWait
  with_reducible repeat' (first | assumption | apply modCore_kept | apply settleFence_kept)

theorem runCore_kept {s0 : State} (k : Nat) (s : State) (hK : Kept s0 s) : Kept s0 (State.runCore k s) := by
  unfold State.runCore
  with_reducible repeat' (first | assumption | intro _ | apply setRegBit_kept | apply modCore_kept | apply Kept_ite | split)

theorem completeStop_kept {s0 : State} (k : Nat) (s : State) (hK : Kept s0 s) : Kept s0 (State.completeStop k s) := by
  unfold State.completeStop
  with_reducible repeat' (first | assumption | intro _ | apply modCore_kept | apply Kept_ite | split | simp only [Kept_mk_iff])

theorem stopCore_kept {s0 : State} (k : Nat) (s : State) (hK : Kept s0 s) : Kept s0 (State.stopCore k s) := by
  unfold State.stopCore
  with_reducible repeat' (first
    | assumption | intro _ | apply clearRegBit_kept | apply modCore_kept | apply completeStop_kept | apply Kept_ite | split)

theorem ringDoorbell_kept {s0 : State} (cl : Nat) (ring : Nat) (s : State) (hK : Kept s0 s) : Kept s0 (State.ringDoorbell cl ring s) := by
  unfold State.ringDoorbell
  with_reducible repeat' (first | assumption | intro _ | apply modCore_kept | apply Kept_ite | apply Kept_foldl)

theorem setShadow_kept {s0 : State} (src tag v : Nat) (s : State) (hK : Kept s0 s) : Kept s0 (State.setShadow src tag v s) := by
  unfold State.setShadow
  with_reducible repeat' (first | assumption | apply Keeps_of | simp only [Kept_mk_iff])

theorem setHold_kept {s0 : State} (src tag v : Nat) (s : State) (hK : Kept s0 s) : Kept s0 (State.setHold src tag v s) := by
  unfold State.setHold
  with_reducible repeat' (first | assumption | apply Keeps_of | simp only [Kept_mk_iff])

theorem readLow_kept {s0 : State} (src tag v : Nat) (s : State) (hK : Kept s0 s) : Kept s0 (State.readLow src tag v s).2 := by
  unfold State.readLow
  with_reducible repeat' (first | assumption | apply setShadow_kept)

theorem readCoreReg_kept {s0 : State} (src k num : Nat) (s : State) (hK : Kept s0 s) : Kept s0 (State.readCoreReg src k num s).2 := by
  unfold State.readCoreReg
  with_reducible repeat' (first | assumption | intro _ | apply readLow_kept | apply Kept_ite2)

theorem kickWdog_kept {s0 : State} (k : Nat) (s : State) (hK : Kept s0 s) : Kept s0 (State.kickWdog k s) := by
  unfold State.kickWdog
  with_reducible repeat' (first | assumption | intro _ | apply modCore_kept | apply Kept_ite)

theorem writeCoreReg_kept {s0 : State} (k num v : Nat) (s : State) (hK : Kept s0 s) : Kept s0 (State.writeCoreReg k num v s) := by
  unfold State.writeCoreReg
  with_reducible repeat' (first | assumption | apply modCore_kept | apply setHold_kept | apply kickWdog_kept | split)

theorem instr_kept {s0 : State} (k : Nat) (g : InstrGroup) (gs vs : List (BitVec 5)) (body : State → State) (s : State) (hK : Kept s0 s) (hb0 : ∀
    (a0 : State), Kept s0 a0 → Kept s0 (body a0)) : Kept s0 (State.instr k g gs vs body s) := by
  unfold State.instr
  with_reducible repeat' (first
    | assumption | intro _ | apply hb0 | apply countDamage_kept | apply correct_kept | apply raise_kept | apply Kept_ite)

theorem retireG_kept {s0 : State} (k : Nat) (d : BitVec 5) (v : Word64) (s : State) (hK : Kept s0 s) : Kept s0 (State.retireG k d v s) := by
  unfold State.retireG
  with_reducible repeat' (first | assumption | apply modCore_kept | apply advance_kept)

theorem retireV_kept {s0 : State} (k : Nat) (d : BitVec 5) (v : Vec) (s : State) (hK : Kept s0 s) : Kept s0 (State.retireV k d v s) := by
  unfold State.retireV
  with_reducible repeat' (first | assumption | apply modCore_kept | apply advance_kept)

theorem retireP_kept {s0 : State} (k : Nat) (d : BitVec 3) (v : Word64) (s : State) (hK : Kept s0 s) : Kept s0 (State.retireP k d v s) := by
  unfold State.retireP
  with_reducible repeat' (first | assumption | apply modCore_kept | apply advance_kept)

/-! ### AtpQueues -/

theorem putRegion_kept {s0 : State} (index : Nat) (e : List Byte) (s : State) (hK : Kept s0 s) : Kept s0 (State.putRegion index e s) := by
  unfold State.putRegion
  with_reducible repeat' (first | assumption | apply performWrite_kept | apply Keeps_of | simp only [Kept_mk_iff])

theorem zeroRegions_kept {s0 : State} (s : State) (hK : Kept s0 s) : Kept s0 (State.zeroRegions s) := by
  unfold State.zeroRegions
  with_reducible repeat' (first | assumption | intro _ | apply Kept_ite | apply Keeps_of | apply Keeps_filterMem | simp only [Kept_mk_iff])

theorem syncRegion_kept {s0 : State} (index : Nat) (s : State) (hK : Kept s0 s) : Kept s0 (State.syncRegion index s) := by
  unfold State.syncRegion
  with_reducible repeat' (first | assumption | intro _ | apply askTranslations_kept | apply Kept_ite | apply Keeps_of | simp only [Kept_mk_iff])

theorem revokeKey_kept {s0 : State} (key : Nat) (s : State) (hK : Kept s0 s) : Kept s0 (State.revokeKey key s) := by
  unfold State.revokeKey
  with_reducible repeat' (first | assumption | intro _ | apply putRegion_kept | apply Kept_ite)

theorem revokeRange_kept {s0 : State} (a n : Nat) (s : State) (hK : Kept s0 s) : Kept s0 (State.revokeRange a n s) := by
  unfold State.revokeRange
  with_reducible repeat' (first | assumption | intro _ | apply putRegion_kept | apply Kept_foldl)

theorem freeRegion_kept {s0 : State} (index : Nat) (s : State) (hK : Kept s0 s) : Kept s0 (State.freeRegion index s) := by
  unfold State.freeRegion
  with_reducible repeat' (first | assumption | intro _ | apply putRegion_kept | apply Kept_ite)

theorem modQp_kept {s0 : State} (q : Nat) (f : QPair → QPair) (s : State) (hK : Kept s0 s) : Kept s0 (State.modQp q f s) := by
  unfold State.modQp
  with_reducible repeat' (first | assumption | apply Keeps_of | simp only [Kept_mk_iff])

theorem putQpState_kept {s0 : State} (q st : Nat) (s : State) (hK : Kept s0 s) : Kept s0 (State.putQpState q st s) := by
  unfold State.putQpState
  with_reducible repeat' (first | assumption | apply busError_kept | apply performWrite_kept | apply modQp_kept | split | simp only [Kept_mk_iff])

theorem takeEnded_kept {s0 : State} (q st : Nat) (s : State) (hK : Kept s0 s) : Kept s0 (State.takeEnded q st s) := by
  unfold State.takeEnded
  with_reducible repeat' (first | assumption | apply modQp_kept)

theorem takeAllEnded_kept {s0 : State} (q st : Nat) (x0 : Nat) (x1 : State) (hK : Kept s0 x1) : Kept s0 (State.takeAllEnded q st x0 x1) := by
  revert hK
  fun_induction State.takeAllEnded <;> intro hK <;> (with_reducible repeat' (first | assumption | apply takeEnded_kept | apply_assumption))

theorem endRequests_kept {s0 : State} (q st : Nat) (s : State) (hK : Kept s0 s) : Kept s0 (State.endRequests q st s) := by
  unfold State.endRequests
  with_reducible repeat' (first | assumption | apply modQp_kept | apply takeAllEnded_kept)

theorem resetQp_kept {s0 : State} (q : Nat) (s : State) (hK : Kept s0 s) : Kept s0 (State.resetQp q s) := by
  unfold State.resetQp
  with_reducible repeat' (first | assumption | intro _ | apply modQp_kept | apply putQpState_kept | apply endRequests_kept | apply Kept_ite)

theorem settleDrain_kept {s0 : State} (q : Nat) (s : State) (hK : Kept s0 s) : Kept s0 (State.settleDrain q s) := by
  unfold State.settleDrain
  with_reducible repeat' (first | assumption | intro _ | apply putQpState_kept | apply Kept_ite)

theorem drainQp_kept {s0 : State} (q : Nat) (s : State) (hK : Kept s0 s) : Kept s0 (State.drainQp q s) := by
  unfold State.drainQp
  with_reducible repeat' (first | assumption | intro _ | apply putQpState_kept | apply settleDrain_kept | apply Kept_ite)

theorem endStreams_kept {s0 : State} (q : Nat) (s : State) (hK : Kept s0 s) : Kept s0 (State.endStreams q s) := by
  unfold State.endStreams
  with_reducible repeat' (first | assumption | apply Keeps_of | simp only [Kept_mk_iff])

theorem errorQp_kept {s0 : State} (q : Nat) (s : State) (hK : Kept s0 s) : Kept s0 (State.errorQp q s) := by
  unfold State.errorQp
  with_reducible repeat' (first | assumption | apply putQpState_kept | apply endRequests_kept | apply endStreams_kept)

theorem touchQp_kept {s0 : State} (q : Nat) (s : State) (hK : Kept s0 s) : Kept s0 (State.touchQp q s) := by
  unfold State.touchQp
  with_reducible repeat' (first | assumption | intro _ | apply Kept_ite | apply Keeps_of | simp only [Kept_mk_iff])

theorem startLoad_kept {s0 : State} (q : Nat) (ready : Bool) (s : State) (hK : Kept s0 s) : Kept s0 (State.startLoad q ready s) := by
  unfold State.startLoad
  with_reducible repeat' (first | assumption | intro _ | apply Kept_ite | apply Keeps_of | simp only [Kept_mk_iff])

theorem readyQp_kept {s0 : State} (q : Nat) (setup : List Byte) (s : State) (hK : Kept s0 s) : Kept s0 (State.readyQp q setup s) := by
  unfold State.readyQp
  with_reducible repeat' (first
    | assumption | intro _ | apply modQp_kept | apply putQpState_kept | apply touchQp_kept | apply Kept_ite | apply Keeps_of | split
    | simp only [Kept_mk_iff])

theorem atpDoorbell_kept {s0 : State} (q tail : Nat) (s : State) (hK : Kept s0 s) : Kept s0 (State.atpDoorbell q tail s) := by
  unfold State.atpDoorbell
  with_reducible repeat' (first | assumption | intro _ | apply modQp_kept | apply takeAllEnded_kept | apply startLoad_kept | apply Kept_ite)

theorem atpQpCmd_kept {s0 : State} (q op : Nat) (s : State) (hK : Kept s0 s) : Kept s0 (State.atpQpCmd q op s) := by
  unfold State.atpQpCmd
  with_reducible repeat' (first | assumption | intro _ | apply resetQp_kept | apply drainQp_kept | apply startLoad_kept | apply Kept_ite)

end Sys2Proof.Machine
end

