-- ==== Sys2Proof/Laws/KeptUnits.lean ====
section
/-! SUPPORT. `Kept` of the register file, the bus, engine units, carriers and sequencers. -/

set_option maxRecDepth 10000

namespace Sys2Proof.Machine

/-! ### RegRead -/

theorem readReg_kept {s0 : State} (src a : Nat) (s : State) (hK : Kept s0 s) : Kept s0 (State.readReg src a s).2 := by
  unfold State.readReg
  with_reducible repeat' (first | assumption | intro _ | apply readLow_kept | apply Kept_ite2 | split)

/-! ### RegWrite -/

theorem trainLpddr_kept {s0 : State} (mask : Nat) (s : State) (hK : Kept s0 s) : Kept s0 (State.trainLpddr mask s) := by
  unfold State.trainLpddr
  with_reducible repeat' (first | assumption | intro _ | apply setReg_kept | apply Kept_ite | apply Keeps_of | simp only [Kept_mk_iff])

theorem sendVector_kept {s0 : State} (v : Nat) (s : State) (hK : Kept s0 s) : Kept s0 (State.sendVector v s) := by
  unfold State.sendVector
  with_reducible repeat' (first | assumption | intro _ | apply raiseVector_kept | apply Kept_ite)

theorem writeTrim_kept {s0 : State} (a v : Nat) (s : State) (hK : Kept s0 s) : Kept s0 (State.writeTrim a v s) := by
  unfold State.writeTrim
  with_reducible repeat' (first | assumption | apply setReg_kept | apply Keeps_of | simp only [Kept_mk_iff])

theorem writeRun_kept {s0 : State} (c v : Nat) (s : State) (hK : Kept s0 s) : Kept s0 (State.writeRun c v s) := by
  unfold State.writeRun
  with_reducible repeat' (first | assumption | intro _ | apply runCore_kept | apply stopCore_kept | apply Kept_ite | apply Kept_foldl)

theorem writeBlockMode_kept {s0 : State} (b v : Nat) (s : State) (hK : Kept s0 s) : Kept s0 (State.writeBlockMode b v s) := by
  unfold State.writeBlockMode
  with_reducible repeat' (first
    | assumption | intro _ | apply setReg_kept | apply releasePerst_kept | apply Kept_ite | apply Keeps_of | simp only [Kept_mk_iff])

theorem writeCxlMode_kept {s0 : State} (v : Nat) (s : State) (hK : Kept s0 s) : Kept s0 (State.writeCxlMode v s) := by
  unfold State.writeCxlMode
  with_reducible repeat' (first
    | assumption | intro _ | apply setReg_kept | apply releasePerst_kept | apply Kept_ite | apply Keeps_of | simp only [Kept_mk_iff])

theorem writeEthMode_kept {s0 : State} (v : Nat) (s : State) (hK : Kept s0 s) : Kept s0 (State.writeEthMode v s) := by
  unfold State.writeEthMode
  with_reducible repeat' (first | assumption | intro _ | apply setReg_kept | apply Kept_ite)

theorem writeStkConfig_kept {s0 : State} (v : Nat) (s : State) (hK : Kept s0 s) : Kept s0 (State.writeStkConfig v s) := by
  unfold State.writeStkConfig
  with_reducible repeat' (first | assumption | intro _ | apply setReg_kept | apply Kept_ite)

theorem writeRingCtl_kept {s0 : State} (r v : Nat) (s : State) (hK : Kept s0 s) : Kept s0 (State.writeRingCtl r v s) := by
  unfold State.writeRingCtl
  with_reducible repeat' (first | assumption | intro _ | apply setReg_kept | apply modCring_kept | apply disableRing_kept | apply Kept_ite)

theorem ringDoorbellWrite_kept {s0 : State} (r v : Nat) (s : State) (hK : Kept s0 s) : Kept s0 (State.ringDoorbellWrite r v s) := by
  unfold State.ringDoorbellWrite
  with_reducible repeat' (first | assumption | intro _ | apply modCring_kept | apply Kept_ite)

theorem writeEp_kept {s0 : State} {a v : Nat} {s : State} {u} (hu : (State.writeEp a v s) = some u) (hK : Kept s0 s) : Kept s0 u := by
  unfold State.writeEp at hu
  (try generalize a / 0x100000 = o9 at hu)
  (try dsimp only at hu)
  (repeat' split at hu) <;> (try simp only [Option.some.injEq, reduceCtorEq] at hu) <;> (try subst hu) <;> (with_reducible repeat' (first
    | assumption | apply modCring_kept | apply sendVector_kept | apply writeRingCtl_kept | apply ringDoorbellWrite_kept))

theorem writeStc_kept {s0 : State} {a v : Nat} {s : State} {u} (hu : (State.writeStc a v s) = some u) (hK : Kept s0 s) : Kept s0 u := by
  unfold State.writeStc at hu
  (try generalize a / 0x100000 = o9 at hu)
  (try dsimp only at hu)
  (repeat' split at hu) <;> (try simp only [Option.some.injEq, reduceCtorEq] at hu) <;> (try subst hu) <;> (with_reducible repeat' (first
    | assumption | apply ringDoorbell_kept | apply writeRun_kept))

theorem writeSpecial_kept {s0 : State} {src a v : Nat} {s : State} {u} (hu : State.writeSpecial src a v s = some u) (hK : Kept s0 s) : Kept s0 u
    := by
  unfold State.writeSpecial at hu
  generalize a / 0x100000 = o at hu
  dsimp only at hu
  split at hu
  · split at hu
    · simp only [Option.some.injEq] at hu; subst hu; exact writeTrim_kept _ _ _ hK
    · cases hu
  · split at hu
    · simp only [Option.some.injEq] at hu
      subst hu
      split
      · exact abortChannel_kept _ _ hK
      · exact hK
    · cases hu
  · split at hu
    · simp only [Option.some.injEq] at hu; subst hu; exact writeBlockMode_kept _ _ _ hK
    · cases hu
  · split at hu
    · simp only [Option.some.injEq] at hu; subst hu; exact writeEthMode_kept _ _ hK
    · cases hu
  · split at hu
    · simp only [Option.some.injEq] at hu; subst hu; exact syncRegion_kept _ _ hK
    · split at hu
      · simp only [Option.some.injEq] at hu; subst hu; exact revokeKey_kept _ _ hK
      · cases hu
  · split at hu
    · simp only [Option.some.injEq] at hu; subst hu; exact (Kept_mk_iff.mpr (Keeps_of hK))
    · cases hu
  · exact writeEp_kept hu hK
  · split at hu
    · simp only [Option.some.injEq] at hu; subst hu; exact writeCxlMode_kept _ _ hK
    · cases hu
  · split at hu
    · simp only [Option.some.injEq] at hu; subst hu; exact trainLpddr_kept _ _ hK
    · cases hu
  · exact writeStc_kept hu hK
  · split at hu
    · simp only [Option.some.injEq] at hu; subst hu; exact writeStkConfig_kept _ _ hK
    · cases hu
  · cases hu

theorem write64_kept {s0 : State} (r : RegRow) (a v : Nat) (s : State) (hK : Kept s0 s) : Kept s0 (State.write64 r a v s) := by
  unfold State.write64
  with_reducible repeat' (first
    | assumption | intro _ | apply setReg64_kept | apply zeroRegions_kept | apply atpDoorbell_kept | apply atpQpCmd_kept | apply Kept_ite)

theorem writeReg_kept {s0 : State} (src a v : Nat) (s : State) (hK : Kept s0 s) : Kept s0 (State.writeReg src a v s) := by
  unfold State.writeReg
  with_reducible repeat' (first
    | assumption | intro _ | apply setReg_kept | apply setHold_kept | refine writeSpecial_kept (by assumption) ?_ | apply write64_kept
    | apply Kept_ite | split)

/-! ### Bus -/

theorem readRegBytes_kept {s0 : State} (src a n : Nat) (s : State) (hK : Kept s0 s) : Kept s0 (State.readRegBytes src a n s).2 := by
  unfold State.readRegBytes
  with_reducible repeat' (first | assumption | intro _ | apply readReg_kept | apply Kept_foldl2)

theorem writeRegBytes_kept {s0 : State} (src a : Nat) (bs : List Byte) (s : State) (hK : Kept s0 s) : Kept s0 (State.writeRegBytes src a bs s) := by
  unfold State.writeRegBytes
  with_reducible repeat' (first | assumption | intro _ | apply writeReg_kept | apply Kept_ite | apply Kept_foldl)

theorem busRead_kept {s0 : State} (src a n : Nat) (s : State) (hK : Kept s0 s) : Kept s0 (State.busRead src a n s).2.2 := by
  unfold State.busRead
  with_reducible repeat' (first | assumption | apply correct_kept | apply readRegBytes_kept | split)

theorem busWrite_kept {s0 : State} (src a : Nat) (bs : List (Bool × Byte)) (s : State) (hK : Kept s0 s) : Kept s0 (State.busWrite src a bs s).2 :=
    by
  unfold State.busWrite
  with_reducible repeat' (first | assumption | apply performWrite_kept | apply writeRegBytes_kept | split)

theorem readSpan_kept {s0 : State} (src a n : Nat) (s : State) (hK : Kept s0 s) : Kept s0 (State.readSpan src a n s).2.2 := by
  unfold State.readSpan
  with_reducible repeat' (first | assumption | intro _ | apply busRead_kept | apply Kept_foldl22 | split | refine Kept_snd2 (by assumption) ?_)

theorem writeSpan_kept {s0 : State} (src a : Nat) (bs : List Byte) (s : State) (hK : Kept s0 s) : Kept s0 (State.writeSpan src a bs s).2.2 := by
  unfold State.writeSpan
  with_reducible repeat' (first | assumption | intro _ | apply busWrite_kept | apply Kept_foldl22 | split | refine Kept_snd (by assumption) ?_)

/-! ### Engines -/

theorem serve_kept {s0 : State} (cls u : Nat) (c : Cmd) (s : State) (hK : Kept s0 s) : Kept s0 (State.serve cls u c s) := by
  unfold State.serve
  with_reducible repeat' (first | assumption | apply modUnit_kept)

theorem takeCommandIf_kept {s0 : State} (cls u : Nat) (mine : Vec → Bool) (check : Cmd → State → Cmd × State) (s : State) (hK : Kept s0 s) (hb0 :
    ∀ (a0 : Cmd) (a1 : State), Kept s0 a1 → Kept s0 (check a0 a1).2) : Kept s0 (State.takeCommandIf cls u mine check s) := by
  unfold State.takeCommandIf
  with_reducible repeat' (first | assumption | intro _ | apply hb0 | apply setUnit_kept | apply serve_kept | apply Kept_ite | split)

theorem engineEvent_kept {s0 : State} (cls u op : Nat) (check : Cmd → State → Cmd × State) (misses : Cmd → State → List Nat) (run : Cmd → State →
    Cmd × State) (s : State) (hK : Kept s0 s) (hb0 : ∀ (a0 : Cmd) (a1 : State), Kept s0 a1 → Kept s0 (check a0 a1).2) (hb1 : ∀ (a0 : Cmd) (a1 :
    State), Kept s0 a1 → Kept s0 (run a0 a1).2) : Kept s0 (State.engineEvent cls u op check misses run s) := by
  unfold State.engineEvent
  with_reducible repeat' (first
    | assumption | intro _ | apply hb1 | apply askTranslations_kept | apply putCommand_kept | apply takeCommandIf_kept | apply Kept_ite | split)

theorem checkBlock_kept {s0 : State} (bad : Vec → Bool) (c : Cmd) (s : State) (hK : Kept s0 s) : Kept s0 (checkBlock bad c s).2 := by
  unfold checkBlock
  with_reducible repeat' (first | assumption)

theorem engineError_kept {s0 : State} (cls u : Nat) (e : BusKind × Nat) (s : State) (hK : Kept s0 s) : Kept s0 (State.engineError cls u e s) := by
  unfold State.engineError
  with_reducible repeat' (first | assumption | apply busError_kept)

theorem freeBytes_kept {s0 : State} (n : Nat) (s : State) (hK : Kept s0 s) : Kept s0 (State.freeBytes n s).2 := by
  unfold State.freeBytes
  with_reducible repeat' (first | assumption | apply Keeps_of | simp only [Kept_mk_iff])

theorem setLaneCtx_kept {s0 : State} (cls u q : Nat) (c : CoderCtx) (s : State) (hK : Kept s0 s) : Kept s0 (State.setLaneCtx cls u q c s) := by
  unfold State.setLaneCtx
  with_reducible repeat' (first | assumption | apply Keeps_of | simp only [Kept_mk_iff])

theorem passContext_kept {s0 : State} (cls u : Nat) (c : Cmd) (s : State) (hK : Kept s0 s) : Kept s0 (State.passContext cls u c s) := by
  unfold State.passContext
  with_reducible repeat' (first | assumption | intro _ | apply setLaneCtx_kept | apply Kept_ite | split)

theorem afterRawForced_kept {s0 : State} (u : Nat) (s : State) (hK : Kept s0 s) : Kept s0 (State.afterRawForced u s) := by
  unfold State.afterRawForced
  with_reducible repeat' (first
    | assumption | intro _ | apply afterFence_kept | apply fenceUnit_kept | apply Kept_ite | apply Keeps_of | split | simp only [Kept_mk_iff])

theorem afterCoderRecord_kept {s0 : State} (u : Nat) (c : Cmd) (s : State) (hK : Kept s0 s) : Kept s0 (State.afterCoderRecord u c s) := by
  unfold State.afterCoderRecord
  with_reducible repeat' (first | assumption | intro _ | apply bump64_kept | apply passContext_kept | apply afterRawForced_kept | apply Kept_ite)

theorem afterDecoderRecord_kept {s0 : State} (u : Nat) (c : Cmd) (s : State) (hK : Kept s0 s) : Kept s0 (State.afterDecoderRecord u c s) := by
  unfold State.afterDecoderRecord
  with_reducible repeat' (first | assumption | intro _ | apply bump_kept | apply passContext_kept | apply Kept_ite)

theorem afterDmaRecord_kept {s0 : State} (u : Nat) (c : Cmd) (s : State) (hK : Kept s0 s) : Kept s0 (State.afterDmaRecord u c s) := by
  unfold State.afterDmaRecord
  with_reducible repeat' (first | assumption | intro _ | apply setRegBit_kept | apply Kept_ite)

theorem countMismatch_kept {s0 : State} (u : Nat) (s : State) (hK : Kept s0 s) : Kept s0 (State.countMismatch u s) := by
  unfold State.countMismatch
  with_reducible repeat' (first
    | assumption | intro _ | apply bump_kept | apply afterFence_kept | apply fenceUnit_kept | apply Kept_ite | apply Keeps_of | split
    | simp only [Kept_mk_iff])

theorem afterVerifyBlock_kept {s0 : State} (u : Nat) (c : Cmd) (s : State) (i : Nat) (hK : Kept s0 s) : Kept s0 (State.afterVerifyBlock u c s i)
    := by
  unfold State.afterVerifyBlock
  with_reducible repeat' (first
    | assumption | intro _ | apply afterFence_kept | apply fenceUnit_kept | apply countMismatch_kept | apply Kept_ite | apply Keeps_of | split
    | simp only [Kept_mk_iff])

theorem afterDigestRecord_kept {s0 : State} (u : Nat) (c : Cmd) (s : State) (hK : Kept s0 s) : Kept s0 (State.afterDigestRecord u c s) := by
  unfold State.afterDigestRecord
  with_reducible repeat' (first | assumption | intro _ | apply afterVerifyBlock_kept | apply Kept_ite | apply Kept_foldl)

theorem afterRecord_kept {s0 : State} (cls u : Nat) (c : Cmd) (s : State) (hK : Kept s0 s) : Kept s0 (State.afterRecord cls u c s) := by
  unfold State.afterRecord
  with_reducible repeat' (first
    | assumption | intro _ | apply bump64_kept | apply afterCoderRecord_kept | apply afterDecoderRecord_kept | apply afterDmaRecord_kept
    | apply afterDigestRecord_kept | apply Kept_ite)

theorem reportCommand_kept {s0 : State} (cls u : Nat) (c : Cmd) (s : State) (hK : Kept s0 s) : Kept s0 (State.reportCommand cls u c s) := by
  unfold State.reportCommand
  with_reducible repeat' (first | assumption | apply modUnit_kept | apply writeRecord_kept | apply afterRecord_kept)

theorem takeUnassigned_kept {s0 : State} (cls u : Nat) (s : State) (hK : Kept s0 s) : Kept s0 (State.takeUnassigned cls u s) := by
  unfold State.takeUnassigned
  with_reducible repeat' (first | assumption | intro _ | apply setUnit_kept | apply serve_kept | apply Kept_ite | split)

theorem openCount_kept {s0 : State} (n : Nat) (s : State) (hK : Kept s0 s) : Kept s0 (State.openCount n s).2 := by
  unfold State.openCount
  with_reducible repeat' (first | assumption | apply takeFree_kept)

theorem writeSome_kept {s0 : State} (src a : Nat) (bs : List Byte) (s : State) (hK : Kept s0 s) : Kept s0 (State.writeSome src a bs s).2 := by
  unfold State.writeSome
  with_reducible repeat' (first | assumption | apply writeSpan_kept | apply openCount_kept)

/-! ### Items -/

theorem queueItems_kept {s0 : State} (items : List (List Byte)) (s : State) (hK : Kept s0 s) : Kept s0 (State.queueItems items s) := by
  unfold State.queueItems
  with_reducible repeat' (first | assumption | apply Keeps_of | simp only [Kept_mk_iff])

theorem failPositions_kept {s0 : State} (q : Nat) (ps : List Nat) (cause : Nat) (s : State) (hK : Kept s0 s) : Kept s0 (State.failPositions q ps
    cause s) := by
  unfold State.failPositions
  with_reducible repeat' (first | assumption | intro _ | apply queueItems_kept | apply Kept_ite)

theorem positionsFailed_kept {s0 : State} (carrier cause : Nat) (s : State) (hK : Kept s0 s) : Kept s0 (State.positionsFailed carrier cause s) := by
  unfold State.positionsFailed
  with_reducible repeat' (first | assumption | intro _ | apply failPositions_kept | apply Kept_ite | apply Kept_foldl)

/-! ### Content -/

theorem metadataFault_kept {s0 : State} (s : State) (hK : Kept s0 s) : Kept s0 (State.metadataFault s) := by
  unfold State.metadataFault
  with_reducible repeat' (first | assumption | apply releaseCustody_kept | apply Keeps_of | simp only [Kept_mk_iff])

theorem modEntries_kept {s0 : State} (cid : Nat) (f : DedupEntry → DedupEntry) (s : State) (hK : Kept s0 s) : Kept s0 (State.modEntries cid f s)
    := by
  unfold State.modEntries
  with_reducible repeat' (first | assumption | apply Keeps_of | simp only [Kept_mk_iff])

theorem demote_kept {s0 : State} (e : DedupEntry) (s : State) (hK : Kept s0 s) : Kept s0 (State.demote e s) := by
  unfold State.demote
  with_reducible repeat' (first | assumption | intro _ | apply Kept_ite | apply Keeps_of | simp only [Kept_mk_iff])

theorem insertEntry_kept {s0 : State} (e : DedupEntry) (s : State) (hK : Kept s0 s) : Kept s0 (State.insertEntry e s) := by
  unfold State.insertEntry
  with_reducible repeat' (first | assumption | intro _ | apply demote_kept | apply Kept_ite | apply Keeps_of | split | simp only [Kept_mk_iff])

theorem indexContent_kept {s0 : State} (cid cycle : Nat) (s : State) (hK : Kept s0 s) : Kept s0 (State.indexContent cid cycle s) := by
  unfold State.indexContent
  with_reducible repeat' (first | assumption | intro _ | apply insertEntry_kept | apply Kept_ite | split)

theorem entomb_kept {s0 : State} (cid cycle : Nat) (s : State) (hK : Kept s0 s) : Kept s0 (State.entomb cid cycle s) := by
  unfold State.entomb
  with_reducible repeat' (first | assumption | apply modEntries_kept | apply insertEntry_kept | split)

theorem addValid_kept {s0 : State} (quire n : Nat) (s : State) (hK : Kept s0 s) : Kept s0 (State.addValid quire n s) := by
  unfold State.addValid
  with_reducible repeat' (first | assumption | apply Keeps_of | simp only [Kept_mk_iff])

theorem takeValid_kept {s0 : State} (quire n : Nat) (s : State) (hK : Kept s0 s) : Kept s0 (State.takeValid quire n s) := by
  unfold State.takeValid
  with_reducible repeat' (first | assumption | apply Keeps_of | simp only [Kept_mk_iff])

theorem removeRecord_kept {s0 : State}  (x0 : Nat) (x1 : Nat) (x2 : State) (hK : Kept s0 x2) : Kept s0 (State.removeRecord x0 x1 x2) := by
  revert hK
  fun_induction State.removeRecord <;> intro hK <;> (with_reducible repeat' (first | assumption | apply_assumption))

theorem releaseCid_kept {s0 : State} (cid : Nat) (s : State) (hK : Kept s0 s) : Kept s0 (State.releaseCid cid s) := by
  unfold State.releaseCid
  with_reducible repeat' (first | assumption | apply removeRecord_kept | apply Keeps_of | split | simp only [Kept_mk_iff])

theorem enterQuarantine_kept {s0 : State} (cid n : Nat) (s : State) (hK : Kept s0 s) : Kept s0 (State.enterQuarantine cid n s) := by
  unfold State.enterQuarantine
  with_reducible repeat' (first | assumption | apply entomb_kept | apply Keeps_of | simp only [Kept_mk_iff])

theorem leaveQuarantine_kept {s0 : State} (cid n : Nat) (s : State) (hK : Kept s0 s) : Kept s0 (State.leaveQuarantine cid n s) := by
  unfold State.leaveQuarantine
  with_reducible repeat' (first | assumption | apply modEntries_kept | apply Keeps_of | simp only [Kept_mk_iff])

theorem judgeContent_kept {s0 : State} (raised : List Nat) (n cid : Nat) (s : State) (hK : Kept s0 s) : Kept s0 (State.judgeContent raised n cid
    s) := by
  unfold State.judgeContent
  with_reducible repeat' (first
    | assumption | intro _ | apply releaseCid_kept | apply enterQuarantine_kept | apply leaveQuarantine_kept | apply Kept_ite)

theorem judgeAll_kept {s0 : State} (raised : List Nat) (n : Nat) (s : State) (hK : Kept s0 s) : Kept s0 (State.judgeAll raised n s) := by
  unfold State.judgeAll
  with_reducible repeat' (first | assumption | intro _ | apply judgeContent_kept | apply Kept_foldl)

theorem setLost_kept {s0 : State} (f : Nat) (lost : Bool) (s : State) (hK : Kept s0 s) : Kept s0 (State.setLost f lost s) := by
  unfold State.setLost
  with_reducible repeat' (first
    | assumption | intro _ | apply modEntries_kept | apply Kept_ite | apply Keeps_of | apply Kept_foldl | simp only [Kept_mk_iff])

/-! ### Buffer -/

theorem openSegment_kept {s0 : State} (s : State) (hK : Kept s0 s) : Kept s0 (State.openSegment s) := by
  unfold State.openSegment
  with_reducible repeat' (first | assumption | apply sendMirror_kept | apply allocate_kept | apply Keeps_of | simp only [Kept_mk_iff])

theorem appendJournal_kept {s0 : State} (cycle : Nat) (bs : List Byte) (s : State) (hK : Kept s0 s) : Kept s0 (State.appendJournal cycle bs s) := by
  unfold State.appendJournal
  with_reducible repeat' (first | assumption | apply performWrite_kept | apply openSegment_kept | apply Keeps_of | split | simp only [Kept_mk_iff])

theorem appendMirror_kept {s0 : State} (cycle : Nat) (bs : List Byte) (s : State) (hK : Kept s0 s) : Kept s0 (State.appendMirror cycle bs s) := by
  unfold State.appendMirror
  with_reducible repeat' (first
    | assumption | intro _ | apply performWrite_kept | apply Kept_ite | apply Keeps_of | split | simp only [Kept_mk_iff])

theorem markConfirmed_kept {s0 : State} (cycle : Nat) (s : State) (hK : Kept s0 s) : Kept s0 (State.markConfirmed cycle s) := by
  unfold State.markConfirmed
  with_reducible repeat' (first | assumption | apply performWrite_kept | split)

theorem freeSegments_kept {s0 : State} (through : Nat) (s : State) (hK : Kept s0 s) : Kept s0 (State.freeSegments through s) := by
  unfold State.freeSegments
  with_reducible repeat' (first
    | assumption | intro _ | apply sendMirror_kept | apply freeEntry_kept | apply Keeps_of | apply Kept_foldl | simp only [Kept_mk_iff])

/-! ### Digest -/

theorem countMessage_kept {s0 : State} (u n m : Nat) (s : State) (hK : Kept s0 s) : Kept s0 (State.countMessage u n m s) := by
  unfold State.countMessage
  with_reducible repeat' (first | assumption | apply bump64_kept)

theorem dgtError_kept {s0 : State} (u : Nat) (e : BusKind × Nat) (c : Cmd) (s : State) (hK : Kept s0 s) : Kept s0 (State.dgtError u e c s).2 := by
  unfold State.dgtError
  with_reducible repeat' (first | assumption | apply engineError_kept)

theorem runMessage_kept {s0 : State} (u : Nat) (f : List Byte → List Byte) (c : Cmd) (s : State) (hK : Kept s0 s) : Kept s0 (State.runMessage u f
    c s).2 := by
  unfold State.runMessage
  with_reducible repeat' (first
    | assumption | apply readSpan_kept | apply writeSpan_kept | apply countMessage_kept | apply dgtError_kept | split | simp only [Kept_mk_iff])

theorem checkKeyed_kept {s0 : State} (bad : Vec → Bool) (c : Cmd) (s : State) (hK : Kept s0 s) : Kept s0 (checkKeyed bad c s).2 := by
  unfold checkKeyed
  with_reducible repeat' (first | assumption | intro _ | apply Kept_ite2)

theorem execDgtShake256_kept {s0 t : State} (u : Nat) (s : State) (he : execDgtShake256 u s = .next t) (hK : Kept s0 s) : Kept s0 t := by
  unfold execDgtShake256 at he
  injection he with he
  subst he
  with_reducible repeat' (first | assumption | intro _ | apply engineEvent_kept | apply checkBlock_kept | apply runMessage_kept | apply Kept_ite)

theorem execDgtKmac256_kept {s0 t : State} (u : Nat) (s : State) (he : execDgtKmac256 u s = .next t) (hK : Kept s0 s) : Kept s0 t := by
  unfold execDgtKmac256 at he
  injection he with he
  subst he
  with_reducible repeat' (first | assumption | intro _ | apply engineEvent_kept | apply runMessage_kept | apply checkKeyed_kept | apply Kept_ite)

theorem hashBlock_kept {s0 : State} (u : Nat) (key : List Byte) (b : Vec) (i : Nat) (s : State) (hK : Kept s0 s) : Kept s0 (State.hashBlock u key
    b i s).2.2 := by
  unfold State.hashBlock
  with_reducible repeat' (first | assumption | apply readSpan_kept | apply countMessage_kept)

theorem fingerprintBlocks_kept {s0 : State} (u : Nat) (x0 : Nat) (x1 : Nat) (x2 : Cmd) (x3 : State) (hK : Kept s0 x3) : Kept s0
    (State.fingerprintBlocks u x0 x1 x2 x3).2 := by
  revert hK
  fun_induction State.fingerprintBlocks <;> intro hK <;> (with_reducible repeat' (first
    | assumption | apply writeSpan_kept | apply countMessage_kept | apply dgtError_kept | apply hashBlock_kept | apply_assumption
    | refine Kept_snd2 (by assumption) ?_))

theorem verifyBlocks_kept {s0 : State} (u fm fn : Nat) (x0 : Nat) (x1 : Nat) (x2 : Cmd) (x3 : State) (hK : Kept s0 x3) : Kept s0
    (State.verifyBlocks u fm fn x0 x1 x2 x3).2 := by
  induction x0 generalizing x1 x2 x3 with
  | zero => exact hK
  | succ n ih =>
    rw [State.verifyBlocks]
    have h1 := hashBlock_kept u x2.key x2.block x1 x3 hK
    generalize State.hashBlock u x2.key x2.block x1 x3 = x at h1 ⊢
    obtain ⟨e, d, t⟩ := x
    cases e with
    | some err => exact dgtError_kept _ _ _ _ h1
    | none =>
      dsimp only at h1 ⊢
      have h2 := readSpan_kept (engineSource clsDigest u) (dgtExpect x2.block + 32 * x1) 32 t h1
      generalize State.readSpan (engineSource clsDigest u) (dgtExpect x2.block + 32 * x1) 32 t = x at h2 ⊢
      obtain ⟨e, d2, t2⟩ := x
      cases e with
      | some err => exact dgtError_kept _ _ _ _ h2
      | none =>
        dsimp only at h2 ⊢
        have h3 : Kept s0 (if dgtDst x2.block = 0 then (none, 0, t2)
          else t2.writeSpan (engineSource clsDigest u) (dgtDst x2.block + 32 * x1) d).2.2 := by
          split
          · exact h2
          · exact writeSpan_kept _ _ _ _ h2
        generalize (if dgtDst x2.block = 0 then (none, 0, t2)
          else t2.writeSpan (engineSource clsDigest u) (dgtDst x2.block + 32 * x1) d) = x at h3 ⊢
        obtain ⟨e, m, t3⟩ := x
        cases e with
        | some err => exact dgtError_kept _ _ _ _ h3
        | none =>
          dsimp only at h3 ⊢
          apply ih
          apply countMessage_kept
          split
          · with_reducible apply bump_kept; exact h3
          · exact h3

theorem execDgtFingerprint_kept {s0 t : State} (u : Nat) (s : State) (he : execDgtFingerprint u s = .next t) (hK : Kept s0 s) : Kept s0 t := by
  unfold execDgtFingerprint at he
  injection he with he
  subst he
  with_reducible repeat' (first
    | assumption | intro _ | apply engineEvent_kept | apply checkKeyed_kept | apply fingerprintBlocks_kept | apply Kept_ite)

theorem execDgtVerify_kept {s0 t : State} (u fm fn : Nat) (s : State) (he : execDgtVerify u fm fn s = .next t) (hK : Kept s0 s) : Kept s0 t := by
  unfold execDgtVerify at he
  injection he with he
  subst he
  with_reducible repeat' (first | assumption | intro _ | apply engineEvent_kept | apply checkKeyed_kept | apply verifyBlocks_kept | apply Kept_ite)

theorem absorbPart_kept {s0 : State} (u a n : Nat) (s : State) (hK : Kept s0 s) : Kept s0 (State.absorbPart u a n s).2.2 := by
  unfold State.absorbPart
  with_reducible repeat' (first | assumption | apply readSpan_kept | apply openCount_kept | apply countMessage_kept)

theorem stopDigest_kept {s0 : State} (u : Nat) (c : Cmd) (s : State) (hK : Kept s0 s) : Kept s0 (State.stopDigest u c s).2 := by
  unfold State.stopDigest
  with_reducible repeat' (first
    | assumption | intro _ | apply openCount_kept | apply writeSome_kept | apply fingerprintBlocks_kept | apply verifyBlocks_kept
    | apply absorbPart_kept | apply Kept_ite2)

theorem failDigest_kept {s0 : State} (u : Nat) (c : Cmd) (s : State) (hK : Kept s0 s) : Kept s0 (State.failDigest u c s).2 := by
  unfold State.failDigest
  with_reducible repeat' (first | assumption | intro _ | apply absorbPart_kept | apply stopDigest_kept | apply Kept_ite2)

theorem setDigestKey_kept {s0 : State} (slot : Nat) (key : List Byte) (s : State) (hK : Kept s0 s) : Kept s0 (State.setDigestKey slot key s) := by
  unfold State.setDigestKey
  with_reducible repeat' (first | assumption | apply Keeps_of | simp only [Kept_mk_iff])

theorem execDigestSlotLoad_kept {s0 t : State} (slot : Nat) (key : Option (List Byte)) (s : State) (he : execDigestSlotLoad slot key s = .next t)
    (hK : Kept s0 s) : Kept s0 t := by
  unfold execDigestSlotLoad at he
  injection he with he
  subst he
  with_reducible repeat' (first | assumption | intro _ | apply setDigestKey_kept | apply Kept_ite)

theorem execDgtUnitFence_kept {s0 t : State} (src u : Nat) (s : State) (he : execDgtUnitFence src u s = .next t) (hK : Kept s0 s) : Kept s0 t := by
  unfold execDgtUnitFence at he
  injection he with he
  subst he
  with_reducible repeat' (first | assumption | intro _ | apply afterFence_kept | apply fenceUnit_kept | apply Kept_ite)

/-! ### Cipher -/

theorem setCslot_kept {s0 : State} (i : Nat) (c : CSlot) (s : State) (hK : Kept s0 s) : Kept s0 (State.setCslot i c s) := by
  unfold State.setCslot
  with_reducible repeat' (first | assumption | apply Keeps_of | simp only [Kept_mk_iff])

theorem claimUses_kept {s0 : State} (i n : Nat) (s : State) (hK : Kept s0 s) : Kept s0 (State.claimUses i n s).2 := by
  unfold State.claimUses
  with_reducible repeat' (first | assumption | intro _ | apply setCslot_kept | apply Kept_ite2)

theorem loadSlot_kept {s0 : State} (i : Nat) (halfA halfB : List Byte) (limit : Nat) (readOnly : Bool) (s : State) (hK : Kept s0 s) : Kept s0
    (State.loadSlot i halfA halfB limit readOnly s) := by
  unfold State.loadSlot
  with_reducible repeat' (first | assumption | apply bump_kept | apply setCslot_kept)

theorem retireSlot_kept {s0 : State} (i : Nat) (s : State) (hK : Kept s0 s) : Kept s0 (State.retireSlot i s) := by
  unfold State.retireSlot
  with_reducible repeat' (first | assumption | intro _ | apply setCslot_kept | apply Kept_ite)

theorem clearSlot_kept {s0 : State} (i : Nat) (s : State) (hK : Kept s0 s) : Kept s0 (State.clearSlot i s) := by
  unfold State.clearSlot
  with_reducible repeat' (first | assumption | apply setCslot_kept)

theorem execKeySlotLoad_kept {s0 t : State} (slot : Nat) (halfA halfB : List Byte) (limit : Nat) (readOnly : Bool) (s : State) (he :
    execKeySlotLoad slot halfA halfB limit readOnly s = .next t) (hK : Kept s0 s) : Kept s0 t := by
  unfold execKeySlotLoad at he
  injection he with he
  subst he
  with_reducible repeat' (first | assumption | intro _ | apply loadSlot_kept | apply Kept_ite)

theorem execKeySlotRetire_kept {s0 t : State} (slot : Nat) (s : State) (he : execKeySlotRetire slot s = .next t) (hK : Kept s0 s) : Kept s0 t := by
  unfold execKeySlotRetire at he
  injection he with he
  subst he
  with_reducible repeat' (first | assumption | intro _ | apply retireSlot_kept | apply Kept_ite)

theorem execKeySlotClear_kept {s0 t : State} (slot : Nat) (s : State) (he : execKeySlotClear slot s = .next t) (hK : Kept s0 s) : Kept s0 t := by
  unfold execKeySlotClear at he
  injection he with he
  subst he
  with_reducible repeat' (first | assumption | intro _ | apply clearSlot_kept | apply Kept_ite)

theorem setCphCtx_kept {s0 : State} (u i : Nat) (c : CipherCtx) (s : State) (hK : Kept s0 s) : Kept s0 (State.setCphCtx u i c s) := by
  unfold State.setCphCtx
  with_reducible repeat' (first | assumption | apply Keeps_of | simp only [Kept_mk_iff])

theorem putCipher_kept {s0 : State} (u : Nat) (c : Cmd) (s : State) (hK : Kept s0 s) : Kept s0 (State.putCipher u c s) := by
  unfold State.putCipher
  with_reducible repeat' (first | assumption | apply modUnit_kept)

theorem endCipher_kept {s0 : State} (u st : Nat) (c : Cmd) (s : State) (hK : Kept s0 s) : Kept s0 (State.endCipher u st c s) := by
  unfold State.endCipher
  with_reducible repeat' (first | assumption | apply setCphCtx_kept | apply putCipher_kept)

theorem readInput_kept {s0 : State} (u : Nat) (used : Bool) (a n : Nat) (s : State) (hK : Kept s0 s) : Kept s0 (State.readInput u used a n s).2.2
    := by
  unfold State.readInput
  with_reducible repeat' (first | assumption | apply readSpan_kept | split)

theorem readInputs_kept {s0 : State} (u op k : Nat) (b : Vec) (s : State) (hK : Kept s0 s) : Kept s0 (State.readInputs u op k b s).2.2 := by
  unfold State.readInputs
  with_reducible repeat' (first | assumption | apply readInput_kept | split | refine Kept_snd2 (by assumption) ?_ | simp only [Kept_mk_iff])

theorem claimUse_kept {s0 : State} (op : Nat) (b : Vec) (s : State) (hK : Kept s0 s) : Kept s0 (State.claimUse op b s).2 := by
  unfold State.claimUse
  with_reducible repeat' (first | assumption | intro _ | apply setCslot_kept | apply Kept_ite2)

theorem countBlock_kept {s0 : State} (u : Nat) (s : State) (hK : Kept s0 s) : Kept s0 (State.countBlock u s) := by
  unfold State.countBlock
  with_reducible repeat' (first | assumption | apply bump64_kept | apply setCphCtx_kept)

theorem cphError_kept {s0 : State} (u : Nat) (c : Cmd) (e : BusKind × Nat) (s : State) (hK : Kept s0 s) : Kept s0 (State.cphError u c e s) := by
  unfold State.cphError
  with_reducible repeat' (first | assumption | apply engineError_kept | apply endCipher_kept)

theorem dataBlock_kept {s0 : State} (u op : Nat) (c : Cmd) (s : State) (hK : Kept s0 s) : Kept s0 (State.dataBlock u op c s) := by
  unfold State.dataBlock
  with_reducible repeat' (first
    | assumption | intro _ | apply writeSpan_kept | apply freeBytes_kept | apply setCphCtx_kept | apply putCipher_kept | apply endCipher_kept
    | apply readInputs_kept | apply claimUse_kept | apply countBlock_kept | apply cphError_kept | apply Kept_ite | split
    | refine Kept_snd (by assumption) ?_ | refine Kept_snd2 (by assumption) ?_ | simp only [Kept_mk_iff])

theorem tagBlock_kept {s0 : State} (u : Nat) (c : Cmd) (s : State) (hK : Kept s0 s) : Kept s0 (State.tagBlock u c s) := by
  unfold State.tagBlock
  with_reducible repeat' (first
    | assumption | intro _ | apply bump_kept | apply readSpan_kept | apply endCipher_kept | apply claimUse_kept | apply countBlock_kept
    | apply cphError_kept | apply Kept_ite | split | refine Kept_snd2 (by assumption) ?_)

theorem readIcb_kept {s0 : State} (u : Nat) (c : Cmd) (s : State) (hK : Kept s0 s) : Kept s0 (State.readIcb u c s) := by
  unfold State.readIcb
  with_reducible repeat' (first
    | assumption | apply readSpan_kept | apply setCphCtx_kept | apply cphError_kept | split | refine Kept_snd2 (by assumption) ?_)

theorem cipherBlocks_kept {s0 : State} (u op : Nat) (x0 : Nat) (x1 : State) (hK : Kept s0 x1) : Kept s0 (State.cipherBlocks u op x0 x1) := by
  revert hK
  fun_induction State.cipherBlocks <;> intro hK <;> (with_reducible repeat' (first
    | assumption | intro _ | apply askTranslations_kept | apply dataBlock_kept | apply tagBlock_kept | apply readIcb_kept | apply Kept_ite
    | apply_assumption))

theorem checkCipher_kept {s0 : State} (u op : Nat) (c : Cmd) (s : State) (hK : Kept s0 s) : Kept s0 (State.checkCipher u op c s).2 := by
  unfold State.checkCipher
  with_reducible repeat' (first | assumption | intro _ | apply setCphCtx_kept | apply Kept_ite2)

theorem takeCipher_kept {s0 : State} (u op : Nat) (s : State) (hK : Kept s0 s) : Kept s0 (State.takeCipher u op s) := by
  unfold State.takeCipher
  with_reducible repeat' (first | assumption | intro _ | apply takeCommandIf_kept | apply checkCipher_kept)

theorem runCipher_kept {s0 : State} (u op n : Nat) (s : State) (hK : Kept s0 s) : Kept s0 (State.runCipher u op n s) := by
  unfold State.runCipher
  with_reducible repeat' (first | assumption | intro _ | apply cipherBlocks_kept | apply takeCipher_kept | apply Kept_ite)

theorem execCphEncrypt_kept {s0 t : State} (u n : Nat) (s : State) (he : execCphEncrypt u n s = .next t) (hK : Kept s0 s) : Kept s0 t := by
  unfold execCphEncrypt at he
  injection he with he
  subst he
  with_reducible repeat' (first | assumption | intro _ | apply runCipher_kept | apply Kept_ite)

theorem execCphDecrypt_kept {s0 t : State} (u n : Nat) (s : State) (he : execCphDecrypt u n s = .next t) (hK : Kept s0 s) : Kept s0 t := by
  unfold execCphDecrypt at he
  injection he with he
  subst he
  with_reducible repeat' (first | assumption | intro _ | apply runCipher_kept | apply Kept_ite)

theorem execCphCtr_kept {s0 t : State} (u n : Nat) (s : State) (he : execCphCtr u n s = .next t) (hK : Kept s0 s) : Kept s0 t := by
  unfold execCphCtr at he
  injection he with he
  subst he
  with_reducible repeat' (first | assumption | intro _ | apply runCipher_kept | apply Kept_ite)

theorem suspendCipher_kept {s0 : State} (u : Nat) (c : Cmd) (s : State) (hK : Kept s0 s) : Kept s0 (State.suspendCipher u c s) := by
  unfold State.suspendCipher
  with_reducible repeat' (first | assumption | apply bump_kept | apply modUnit_kept | apply setCphCtx_kept)

theorem execCipherSuspend_kept {s0 t : State} (u : Nat) (s : State) (he : execCipherSuspend u s = .next t) (hK : Kept s0 s) : Kept s0 t := by
  unfold execCipherSuspend at he
  injection he with he
  subst he
  with_reducible repeat' (first | assumption | intro _ | apply suspendCipher_kept | apply Kept_ite | split)

theorem resumeCipher_kept {s0 : State} (u : Nat) (s : State) (hK : Kept s0 s) : Kept s0 (State.resumeCipher u s) := by
  unfold State.resumeCipher
  with_reducible repeat' (first | assumption | apply modUnit_kept | apply setCphCtx_kept)

theorem execCipherResume_kept {s0 t : State} (u : Nat) (s : State) (he : execCipherResume u s = .next t) (hK : Kept s0 s) : Kept s0 t := by
  unfold execCipherResume at he
  injection he with he
  subst he
  with_reducible repeat' (first | assumption | intro _ | apply resumeCipher_kept | apply Kept_ite)

theorem execCphUnitFence_kept {s0 t : State} (src u : Nat) (s : State) (he : execCphUnitFence src u s = .next t) (hK : Kept s0 s) : Kept s0 t := by
  unfold execCphUnitFence at he
  injection he with he
  subst he
  with_reducible repeat' (first | assumption | intro _ | apply afterFence_kept | apply fenceUnit_kept | apply Kept_ite)

/-! ### Coder -/

theorem endReset_kept {s0 : State} (cls u : Nat) (c : Cmd) (j : LaneJob) (s : State) (hK : Kept s0 s) : Kept s0 (State.endReset cls u c j s) := by
  unfold State.endReset
  with_reducible repeat' (first | assumption | apply modUnit_kept | apply putCommand_kept)

theorem endLane_kept {s0 : State} (cls u : Nat) (c : Cmd) (j : LaneJob) (s : State) (hK : Kept s0 s) : Kept s0 (State.endLane cls u c j s) := by
  unfold State.endLane
  with_reducible repeat' (first | assumption | intro _ | apply putCommand_kept | apply endReset_kept | apply Kept_ite)

theorem loadImage_kept {s0 : State} (cls u : Nat) (b : Vec) (j : LaneJob) (s : State) (hK : Kept s0 s) : Kept s0 (State.loadImage cls u b j s).2
    := by
  unfold State.loadImage
  with_reducible repeat' (first
    | assumption | intro _ | apply readSpan_kept | apply engineError_kept | apply Kept_ite2 | split | refine Kept_snd2 (by assumption) ?_)

theorem loadInput_kept {s0 : State} (cls u : Nat) (b : Vec) (j : LaneJob) (s : State) (hK : Kept s0 s) : Kept s0 (State.loadInput cls u b j s).2
    := by
  unfold State.loadInput
  with_reducible repeat' (first
    | assumption | intro _ | apply readSpan_kept | apply engineError_kept | apply Kept_ite2 | split | refine Kept_snd2 (by assumption) ?_)

theorem firstReads_kept {s0 : State} (cls u : Nat) (b : Vec) (j : LaneJob) (s : State) (hK : Kept s0 s) : Kept s0 (State.firstReads cls u b j s).2
    := by
  unfold State.firstReads
  with_reducible repeat' (first | assumption | apply loadImage_kept | apply loadInput_kept)

theorem checkLane_kept {s0 : State} (c : Cmd) (s : State) (hK : Kept s0 s) : Kept s0 (checkLane c s).2 := by
  unfold checkLane
  with_reducible repeat' (first | assumption)

theorem laneEvent_kept {s0 : State} (cls u op : Nat) (s : State) (hK : Kept s0 s) : Kept s0 (State.laneEvent cls u op s) := by
  unfold State.laneEvent
  with_reducible repeat' (first
    | assumption | intro _ | apply askTranslations_kept | apply putCommand_kept | apply takeCommandIf_kept | apply firstReads_kept
    | apply checkLane_kept | apply Kept_ite | split)

theorem execCmpEncode_kept {s0 t : State} (u : Nat) (s : State) (he : execCmpEncode u s = .next t) (hK : Kept s0 s) : Kept s0 t := by
  unfold execCmpEncode at he
  injection he with he
  subst he
  with_reducible repeat' (first | assumption | intro _ | apply laneEvent_kept | apply Kept_ite)

theorem saveImage_kept {s0 : State} (cls u : Nat) (b : Vec) (ctx : CoderCtx) (s : State) (hK : Kept s0 s) : Kept s0 (State.saveImage cls u b ctx
    s).2 := by
  unfold State.saveImage
  with_reducible repeat' (first | assumption | intro _ | apply writeSpan_kept | apply Kept_ite2)

theorem writeDecoded_kept {s0 : State} (cls u : Nat) (c : Cmd) (r : DecodeResult) (s : State) (hK : Kept s0 s) : Kept s0 (State.writeDecoded cls u
    c r s).2 := by
  unfold State.writeDecoded
  with_reducible repeat' (first
    | assumption | apply bump64_kept | apply writeSpan_kept | apply engineError_kept | apply saveImage_kept | split
    | refine Kept_snd (by assumption) ?_ | simp only [Kept_mk_iff])

theorem decodeCommand_kept {s0 : State} (cls u : Nat) (c : Cmd) (j : LaneJob) (ctx : CoderCtx) (s : State) (hK : Kept s0 s) : Kept s0
    (State.decodeCommand cls u c j ctx s) := by
  unfold State.decodeCommand
  with_reducible repeat' (first
    | assumption | apply readSpan_kept | apply engineError_kept | apply endLane_kept | apply writeDecoded_kept | split
    | refine Kept_snd2 (by assumption) ?_)

theorem finishDecode_kept {s0 : State} (cls u : Nat) (c : Cmd) (j : LaneJob) (s : State) (hK : Kept s0 s) : Kept s0 (State.finishDecode cls u c j
    s) := by
  unfold State.finishDecode
  with_reducible repeat' (first
    | assumption | intro _ | apply askTranslations_kept | apply endLane_kept | apply decodeCommand_kept | apply Kept_ite | split)

theorem execCmpDecode_kept {s0 t : State} (cls u : Nat) (s : State) (he : execCmpDecode cls u s = .next t) (hK : Kept s0 s) : Kept s0 t := by
  unfold execCmpDecode at he
  injection he with he
  subst he
  with_reducible repeat' (first | assumption | intro _ | apply laneEvent_kept | apply finishDecode_kept | apply Kept_ite | split)

theorem verifyEncode_kept {s0 : State} (u : Nat) (c : Cmd) (j : LaneJob) (sound : Bool) (s : State) (hK : Kept s0 s) : Kept s0 (State.verifyEncode
    u c j sound s) := by
  unfold State.verifyEncode
  with_reducible repeat' (first | assumption | intro _ | apply bump_kept | apply putCommand_kept | apply Kept_ite)

theorem release_kept {s0 : State} (u : Nat) (c : Cmd) (j : LaneJob) (s : State) (hK : Kept s0 s) : Kept s0 (State.release u c j s) := by
  unfold State.release
  with_reducible repeat' (first
    | assumption | intro _ | apply bump64_kept | apply writeSpan_kept | apply engineError_kept | apply endReset_kept | apply endLane_kept
    | apply saveImage_kept | apply Kept_ite | split | refine Kept_snd (by assumption) ?_ | simp only [Kept_mk_iff])

theorem leaveAnalysis_kept {s0 : State} (u : Nat) (c : Cmd) (j : LaneJob) (s : State) (hK : Kept s0 s) : Kept s0 (State.leaveAnalysis u c j s) := by
  unfold State.leaveAnalysis
  with_reducible repeat' (first | assumption | intro _ | apply putCommand_kept | apply Kept_ite | split)

theorem releaseWhenReady_kept {s0 : State} (u : Nat) (c : Cmd) (j : LaneJob) (s : State) (hK : Kept s0 s) : Kept s0 (State.releaseWhenReady u c j
    s) := by
  unfold State.releaseWhenReady
  with_reducible repeat' (first | assumption | intro _ | apply askTranslations_kept | apply release_kept | apply Kept_ite)

theorem leaveVerification_kept {s0 : State} (u : Nat) (c : Cmd) (j : LaneJob) (sound : Bool) (s : State) (hK : Kept s0 s) : Kept s0
    (State.leaveVerification u c j sound s) := by
  unfold State.leaveVerification
  with_reducible repeat' (first
    | assumption | intro _ | apply finishDecode_kept | apply verifyEncode_kept | apply releaseWhenReady_kept | apply Kept_ite)

theorem stageComplete_kept {s0 : State} (u stage : Nat) (sound : Bool) (s : State) (hK : Kept s0 s) : Kept s0 (State.stageComplete u stage sound
    s) := by
  unfold State.stageComplete
  with_reducible repeat' (first
    | assumption | intro _ | apply putCommand_kept | apply endLane_kept | apply leaveAnalysis_kept | apply releaseWhenReady_kept
    | apply leaveVerification_kept | apply Kept_ite | split)

theorem execCoderStageComplete_kept {s0 t : State} (u stage : Nat) (sound : Bool) (s : State) (he : execCoderStageComplete u stage sound s = .next
    t) (hK : Kept s0 s) : Kept s0 t := by
  unfold execCoderStageComplete at he
  injection he with he
  subst he
  with_reducible repeat' (first | assumption | intro _ | apply stageComplete_kept | apply Kept_ite)

theorem laneOutput_kept {s0 : State} (cls u : Nat) (c : Cmd) (j : LaneJob) (s : State) (hK : Kept s0 s) : Kept s0 (State.laneOutput cls u c j
    s).2.2 := by
  unfold State.laneOutput
  with_reducible repeat' (first | assumption | apply readSpan_kept | split | refine Kept_snd2 (by assumption) ?_)

theorem stopLane_kept {s0 : State} (cls u : Nat) (c : Cmd) (s : State) (hK : Kept s0 s) : Kept s0 (State.stopLane cls u c s).2 := by
  unfold State.stopLane
  with_reducible repeat' (first | assumption | intro _ | apply bump64_kept | apply writeSome_kept | apply laneOutput_kept | apply Kept_ite | split)

theorem execCmpLaneFence_kept {s0 t : State} (src u : Nat) (s : State) (he : execCmpLaneFence src u s = .next t) (hK : Kept s0 s) : Kept s0 t := by
  unfold execCmpLaneFence at he
  injection he with he
  subst he
  with_reducible repeat' (first | assumption | intro _ | apply afterFence_kept | apply fenceUnit_kept | apply Kept_ite)

theorem execCmpDecFence_kept {s0 t : State} (src u : Nat) (s : State) (he : execCmpDecFence src u s = .next t) (hK : Kept s0 s) : Kept s0 t := by
  unfold execCmpDecFence at he
  injection he with he
  subst he
  with_reducible repeat' (first | assumption | intro _ | apply afterFence_kept | apply fenceUnit_kept | apply Kept_ite)

/-! ### Parity -/

theorem readMembers_kept {s0 : State} (e o : Nat) (table : List Nat) (x0 : List Nat) (x1 : State) (hK : Kept s0 x1) : Kept s0 (State.readMembers e
    o table x0 x1).2.2 := by
  revert hK
  fun_induction State.readMembers <;> intro hK <;> (with_reducible repeat' (first
    | assumption | apply bump64_kept | apply busRead_kept | apply_assumption | refine Kept_snd2 (by assumption) ?_))

theorem writeLines_kept {s0 : State} (e : Nat) (x0 : List (Nat × Bool × List Byte)) (x1 : Nat) (x2 : State) (hK : Kept s0 x2) : Kept s0
    (State.writeLines e x0 x1 x2).2.2 := by
  revert hK
  fun_induction State.writeLines <;> intro hK <;> (with_reducible repeat' (first
    | assumption | intro _ | apply busWrite_kept | apply freeBytes_kept | apply Kept_ite2 | apply_assumption | refine Kept_snd (by assumption) ?_))

theorem parLines_kept {s0 : State} (e op : Nat) (table : List Nat) (x0 : Nat) (x1 : Nat) (x2 : Cmd) (x3 : State) (hK : Kept s0 x3) : Kept s0
    (State.parLines e op table x0 x1 x2 x3).2.2 := by
  revert hK
  fun_induction State.parLines <;> intro hK <;> (with_reducible repeat' (first
    | assumption | apply engineError_kept | apply readMembers_kept | apply writeLines_kept | apply_assumption | refine Kept_snd2 (by assumption) ?_))

theorem closeParity_kept {s0 : State} (e op : Nat) (c : Cmd) (syn : List Byte × List Byte) (s : State) (hK : Kept s0 s) : Kept s0
    (State.closeParity e op c syn s).2 := by
  unfold State.closeParity
  with_reducible repeat' (first | assumption | intro _ | apply bump_kept | apply Kept_ite | apply Kept_ite2)

theorem runParity_kept {s0 : State} (e op n : Nat) (c : Cmd) (s : State) (hK : Kept s0 s) : Kept s0 (State.runParity e op n c s).2 := by
  unfold State.runParity
  with_reducible repeat' (first
    | assumption | intro _ | apply readSpan_kept | apply engineError_kept | apply parLines_kept | apply closeParity_kept | apply Kept_ite2 | split
    | refine Kept_snd2 (by assumption) ?_)

theorem parityEvent_kept {s0 : State} (e op : Nat) (s : State) (hK : Kept s0 s) : Kept s0 (State.parityEvent e op s) := by
  unfold State.parityEvent
  with_reducible repeat' (first | assumption | intro _ | apply engineEvent_kept | apply checkBlock_kept | apply runParity_kept | apply Kept_ite)

theorem execParGenerate_kept {s0 t : State} (e : Nat) (s : State) (he : execParGenerate e s = .next t) (hK : Kept s0 s) : Kept s0 t := by
  unfold execParGenerate at he
  injection he with he
  subst he
  with_reducible repeat' (first | assumption | apply parityEvent_kept)

theorem execParReconstruct_kept {s0 t : State} (e : Nat) (s : State) (he : execParReconstruct e s = .next t) (hK : Kept s0 s) : Kept s0 t := by
  unfold execParReconstruct at he
  injection he with he
  subst he
  with_reducible repeat' (first | assumption | apply parityEvent_kept)

theorem execParCheck_kept {s0 t : State} (e : Nat) (s : State) (he : execParCheck e s = .next t) (hK : Kept s0 s) : Kept s0 t := by
  unfold execParCheck at he
  injection he with he
  subst he
  with_reducible repeat' (first | assumption | apply parityEvent_kept)

theorem stopParity_kept {s0 : State} (e : Nat) (c : Cmd) (s : State) (hK : Kept s0 s) : Kept s0 (State.stopParity e c s).2 := by
  unfold State.stopParity
  with_reducible repeat' (first | assumption | apply openCount_kept | apply runParity_kept)

theorem execParEngFence_kept {s0 t : State} (src e : Nat) (s : State) (he : execParEngFence src e s = .next t) (hK : Kept s0 s) : Kept s0 t := by
  unfold execParEngFence at he
  injection he with he
  subst he
  with_reducible repeat' (first | assumption | intro _ | apply afterFence_kept | apply fenceUnit_kept | apply Kept_ite)

/-! ### Carriers -/

theorem modPort_kept {s0 : State} (slot port : Nat) (f : CPort → CPort) (s : State) (hK : Kept s0 s) : Kept s0 (State.modPort slot port f s) := by
  unfold State.modPort
  with_reducible repeat' (first | assumption | apply modCar_kept)

theorem portWrite_kept {s0 : State} (slot a : Nat) (bs : List Byte) (s : State) (hK : Kept s0 s) : Kept s0 (State.portWrite slot a bs s).2 := by
  unfold State.portWrite
  with_reducible repeat' (first | assumption | intro _ | apply performWrite_kept | apply Kept_ite2)

theorem enablePort_kept {s0 : State} (slot port cplBase cplSize : Nat) (subBase subSize : List Nat) (s : State) (hK : Kept s0 s) : Kept s0
    (State.enablePort slot port cplBase cplSize subBase subSize s) := by
  unfold State.enablePort
  with_reducible repeat' (first | assumption | intro _ | apply modPort_kept | apply Kept_ite)

theorem execCarrierEnable_kept {s0 t : State} (slot port cplBase cplSize : Nat) (subBase subSize : List Nat) (s : State) (he : execCarrierEnable
    slot port cplBase cplSize subBase subSize s = .next t) (hK : Kept s0 s) : Kept s0 t := by
  unfold execCarrierEnable at he
  injection he with he
  subst he
  with_reducible repeat' (first | assumption | intro _ | apply enablePort_kept | apply Kept_ite)

theorem execCarrierReset_kept {s0 t : State} (slot port : Nat) (s : State) (he : execCarrierReset slot port s = .next t) (hK : Kept s0 s) : Kept
    s0 t := by
  unfold execCarrierReset at he
  injection he with he
  subst he
  with_reducible repeat' (first | assumption | intro _ | apply resetCarrierPort_kept | apply Kept_ite)

theorem fetchEntry_kept {s0 : State} (slot : Nat) (s : State) (hK : Kept s0 s) : Kept s0 (State.fetchEntry slot s) := by
  unfold State.fetchEntry
  with_reducible repeat' (first | assumption | intro _ | apply modCar_kept | apply correct_kept | apply Kept_ite | split)

theorem fetchOther_kept {s0 : State} (slot ring : Nat) (entry : List Byte) (s : State) (hK : Kept s0 s) : Kept s0 (State.fetchOther slot ring
    entry s) := by
  unfold State.fetchOther
  with_reducible repeat' (first | assumption | intro _ | apply modCar_kept | apply Kept_ite)

theorem execCarrierSubTail_kept {s0 t : State} (slot port ring : Nat) (entry : List Byte) (s : State) (he : execCarrierSubTail slot port ring
    entry s = .next t) (hK : Kept s0 s) : Kept s0 t := by
  unfold execCarrierSubTail at he
  injection he with he
  subst he
  with_reducible repeat' (first | assumption | intro _ | apply fetchEntry_kept | apply fetchOther_kept | apply Kept_ite)

theorem execCarrierCplHead_kept {s0 t : State} (slot port head : Nat) (s : State) (he : execCarrierCplHead slot port head s = .next t) (hK : Kept
    s0 s) : Kept s0 t := by
  unfold execCarrierCplHead at he
  injection he with he
  subst he
  with_reducible repeat' (first | assumption | intro _ | apply modPort_kept | apply Kept_ite)

theorem runCarrier_kept {s0 : State} (slot : Nat) (want : CCmd → Bool) (body : Nat → CCmd → State → State) (s : State) (hK : Kept s0 s) (hb0 : ∀
    (a0 : Nat) (a1 : CCmd) (a2 : State), Kept s0 a2 → Kept s0 (body a0 a1 a2)) : Kept s0 (State.runCarrier slot want body s) := by
  unfold State.runCarrier
  with_reducible repeat' (first | assumption | intro _ | apply hb0 | apply modCar_kept | apply Kept_ite | split)

theorem deliver_kept {s0 : State} (slot : Nat) (x : CCmd) (bs : List Byte) (s : State) (hK : Kept s0 s) : Kept s0 (State.deliver slot x bs s).2 :=
    by
  unfold State.deliver
  with_reducible repeat' (first | assumption | intro _ | apply portWrite_kept | apply Kept_ite2)

theorem sendData_kept {s0 : State} (slot i : Nat) (x : CCmd) (bs : List Byte) (info : Nat) (s : State) (hK : Kept s0 s) : Kept s0 (State.sendData
    slot i x bs info s) := by
  unfold State.sendData
  with_reducible repeat' (first | assumption | apply modCar_kept | apply deliver_kept)

theorem execCarrierIdentify_kept {s0 t : State} (slot : Nat) (s : State) (he : execCarrierIdentify slot s = .next t) (hK : Kept s0 s) : Kept s0 t
    := by
  unfold execCarrierIdentify at he
  injection he with he
  subst he
  with_reducible repeat' (first | assumption | intro _ | apply runCarrier_kept | apply sendData_kept)

theorem carrierProgram_kept {s0 : State} (slot : Nat) (ok : Bool) (data : List Byte) (i : Nat) (x : CCmd) (s : State) (hK : Kept s0 s) : Kept s0
    (State.carrierProgram slot ok data i x s) := by
  unfold State.carrierProgram
  with_reducible repeat' (first | assumption | intro _ | apply modCar_kept | apply correct_kept | apply Kept_ite)

theorem execCarrierProgram_kept {s0 t : State} (slot : Nat) (ok : Bool) (data : List Byte) (s : State) (he : execCarrierProgram slot ok data s =
    .next t) (hK : Kept s0 s) : Kept s0 t := by
  unfold execCarrierProgram at he
  injection he with he
  subst he
  with_reducible repeat' (first | assumption | intro _ | apply runCarrier_kept | apply carrierProgram_kept)

theorem carrierRead_kept {s0 : State} (slot : Nat) (bad : Option Nat) (i : Nat) (x : CCmd) (s : State) (hK : Kept s0 s) : Kept s0
    (State.carrierRead slot bad i x s) := by
  unfold State.carrierRead
  with_reducible repeat' (first
    | assumption | intro _ | apply takeFree_kept | apply modCar_kept | apply freeBytes_kept | apply deliver_kept | apply sendData_kept
    | apply Kept_ite | split | refine Kept_snd (by assumption) ?_ | simp only [Kept_mk_iff])

theorem execCarrierRead_kept {s0 t : State} (slot : Nat) (bad : Option Nat) (s : State) (he : execCarrierRead slot bad s = .next t) (hK : Kept s0
    s) : Kept s0 t := by
  unfold execCarrierRead at he
  injection he with he
  subst he
  with_reducible repeat' (first | assumption | intro _ | apply runCarrier_kept | apply carrierRead_kept)

theorem execCarrierReadRetry_kept {s0 t : State} (slot : Nat) (bad : Option Nat) (s : State) (he : execCarrierReadRetry slot bad s = .next t) (hK
    : Kept s0 s) : Kept s0 t := by
  unfold execCarrierReadRetry at he
  injection he with he
  subst he
  with_reducible repeat' (first | assumption | intro _ | apply runCarrier_kept | apply carrierRead_kept)

theorem execCarrierErase_kept {s0 t : State} (slot : Nat) (ok : Bool) (s : State) (he : execCarrierErase slot ok s = .next t) (hK : Kept s0 s) :
    Kept s0 t := by
  unfold execCarrierErase at he
  injection he with he
  subst he
  with_reducible repeat' (first | assumption | intro _ | apply modCar_kept | apply runCarrier_kept)

theorem execCarrierSetMode_kept {s0 t : State} (slot : Nat) (s : State) (he : execCarrierSetMode slot s = .next t) (hK : Kept s0 s) : Kept s0 t :=
    by
  unfold execCarrierSetMode at he
  injection he with he
  subst he
  with_reducible repeat' (first | assumption | intro _ | apply modCar_kept | apply runCarrier_kept)

theorem execCarrierHealth_kept {s0 t : State} (slot temp : Nat) (s : State) (he : execCarrierHealth slot temp s = .next t) (hK : Kept s0 s) : Kept
    s0 t := by
  unfold execCarrierHealth at he
  injection he with he
  subst he
  with_reducible repeat' (first | assumption | intro _ | apply runCarrier_kept | apply sendData_kept)

theorem execCarrierOwnershipTake_kept {s0 t : State} (slot : Nat) (s : State) (he : execCarrierOwnershipTake slot s = .next t) (hK : Kept s0 s) :
    Kept s0 t := by
  unfold execCarrierOwnershipTake at he
  injection he with he
  subst he
  with_reducible repeat' (first | assumption | intro _ | apply modCar_kept | apply runCarrier_kept)

theorem execCarrierOwnershipReturn_kept {s0 t : State} (slot : Nat) (s : State) (he : execCarrierOwnershipReturn slot s = .next t) (hK : Kept s0
    s) : Kept s0 t := by
  unfold execCarrierOwnershipReturn at he
  injection he with he
  subst he
  with_reducible repeat' (first | assumption | intro _ | apply modCar_kept | apply runCarrier_kept)

theorem execCarrierLabel_kept {s0 t : State} (slot : Nat) (s : State) (he : execCarrierLabel slot s = .next t) (hK : Kept s0 s) : Kept s0 t := by
  unfold execCarrierLabel at he
  injection he with he
  subst he
  with_reducible repeat' (first | assumption | intro _ | apply modCar_kept | apply runCarrier_kept)

theorem execCarrierRetire_kept {s0 t : State} (slot : Nat) (s : State) (he : execCarrierRetire slot s = .next t) (hK : Kept s0 s) : Kept s0 t := by
  unfold execCarrierRetire at he
  injection he with he
  subst he
  with_reducible repeat' (first | assumption | intro _ | apply modCar_kept | apply runCarrier_kept)

theorem writeEntry_kept {s0 : State} (slot i : Nat) (entry : List Byte) (s : State) (hK : Kept s0 s) : Kept s0 (State.writeEntry slot i entry s)
    := by
  unfold State.writeEntry
  with_reducible repeat' (first | assumption | intro _ | apply modCar_kept | apply modPort_kept | apply portWrite_kept | apply Kept_ite)

theorem completeEntry_kept {s0 : State} (slot i : Nat) (forged : Option (List Byte)) (s : State) (hK : Kept s0 s) : Kept s0 (State.completeEntry
    slot i forged s) := by
  unfold State.completeEntry
  with_reducible repeat' (first | assumption | intro _ | apply modCar_kept | apply writeEntry_kept | apply Kept_ite | split)

theorem execCarrierCommandComplete_kept {s0 t : State} (slot i : Nat) (forged : Option (List Byte)) (s : State) (he : execCarrierCommandComplete
    slot i forged s = .next t) (hK : Kept s0 s) : Kept s0 t := by
  unfold execCarrierCommandComplete at he
  injection he with he
  subst he
  with_reducible repeat' (first | assumption | intro _ | apply completeEntry_kept | apply Kept_ite)

theorem losePort_kept {s0 : State} (slot port : Nat) (power : Bool) (s : State) (hK : Kept s0 s) : Kept s0 (State.losePort slot port power s) := by
  unfold State.losePort
  with_reducible repeat' (first | assumption | intro _ | apply modCar_kept | apply dropPort_kept | apply modPort_kept | apply Kept_ite)

theorem execCarrierPortLoss_kept {s0 t : State} (slot port : Nat) (power : Bool) (s : State) (he : execCarrierPortLoss slot port power s = .next
    t) (hK : Kept s0 s) : Kept s0 t := by
  unfold execCarrierPortLoss at he
  injection he with he
  subst he
  with_reducible repeat' (first | assumption | intro _ | apply losePort_kept | apply Kept_ite)

/-! ### Sequencers -/

theorem submit_kept {s0 : State} (slot r : Nat) (entry : List Byte) (s : State) (hK : Kept s0 s) : Kept s0 (State.submit slot r entry s) := by
  unfold State.submit
  with_reducible repeat' (first | assumption | apply performWrite_kept | apply modPort_kept)

theorem issueCommand_kept {s0 : State} (u : Nat) (mine : Vec → Bool) (s : State) (hK : Kept s0 s) : Kept s0 (State.issueCommand u mine s) := by
  unfold State.issueCommand
  with_reducible repeat' (first | assumption | intro _ | apply takeCommandIf_kept | apply submit_kept | apply Kept_ite | apply Kept_ite2 | split)

theorem issueOp_kept {s0 : State} (u op : Nat) (s : State) (hK : Kept s0 s) : Kept s0 (State.issueOp u op s) := by
  unfold State.issueOp
  with_reducible repeat' (first | assumption | intro _ | apply issueCommand_kept | apply Kept_ite)

theorem execSeqIdentify_kept {s0 t : State} (u : Nat) (s : State) (he : execSeqIdentify u s = .next t) (hK : Kept s0 s) : Kept s0 t := by
  unfold execSeqIdentify at he
  injection he with he
  subst he
  with_reducible repeat' (first | assumption | apply issueOp_kept)

theorem execSeqProgram_kept {s0 t : State} (u : Nat) (s : State) (he : execSeqProgram u s = .next t) (hK : Kept s0 s) : Kept s0 t := by
  unfold execSeqProgram at he
  injection he with he
  subst he
  with_reducible repeat' (first | assumption | apply issueOp_kept)

theorem execSeqRead_kept {s0 t : State} (u : Nat) (s : State) (he : execSeqRead u s = .next t) (hK : Kept s0 s) : Kept s0 t := by
  unfold execSeqRead at he
  injection he with he
  subst he
  with_reducible repeat' (first | assumption | apply issueOp_kept)

theorem execSeqErase_kept {s0 t : State} (u : Nat) (s : State) (he : execSeqErase u s = .next t) (hK : Kept s0 s) : Kept s0 t := by
  unfold execSeqErase at he
  injection he with he
  subst he
  with_reducible repeat' (first | assumption | apply issueOp_kept)

theorem execSeqSetMode_kept {s0 t : State} (u : Nat) (s : State) (he : execSeqSetMode u s = .next t) (hK : Kept s0 s) : Kept s0 t := by
  unfold execSeqSetMode at he
  injection he with he
  subst he
  with_reducible repeat' (first | assumption | apply issueOp_kept)

theorem execSeqReadRetry_kept {s0 t : State} (u : Nat) (s : State) (he : execSeqReadRetry u s = .next t) (hK : Kept s0 s) : Kept s0 t := by
  unfold execSeqReadRetry at he
  injection he with he
  subst he
  with_reducible repeat' (first | assumption | apply issueOp_kept)

theorem execSeqHealth_kept {s0 t : State} (u : Nat) (s : State) (he : execSeqHealth u s = .next t) (hK : Kept s0 s) : Kept s0 t := by
  unfold execSeqHealth at he
  injection he with he
  subst he
  with_reducible repeat' (first | assumption | apply issueOp_kept)

theorem execSeqOwnershipTake_kept {s0 t : State} (u : Nat) (s : State) (he : execSeqOwnershipTake u s = .next t) (hK : Kept s0 s) : Kept s0 t := by
  unfold execSeqOwnershipTake at he
  injection he with he
  subst he
  with_reducible repeat' (first | assumption | intro _ | apply issueCommand_kept | apply Kept_ite)

theorem execSeqOwnershipReturn_kept {s0 t : State} (u : Nat) (s : State) (he : execSeqOwnershipReturn u s = .next t) (hK : Kept s0 s) : Kept s0 t
    := by
  unfold execSeqOwnershipReturn at he
  injection he with he
  subst he
  with_reducible repeat' (first | assumption | intro _ | apply issueCommand_kept | apply Kept_ite)

theorem execSeqLabel_kept {s0 t : State} (u : Nat) (s : State) (he : execSeqLabel u s = .next t) (hK : Kept s0 s) : Kept s0 t := by
  unfold execSeqLabel at he
  injection he with he
  subst he
  with_reducible repeat' (first | assumption | apply issueOp_kept)

theorem execSeqRetire_kept {s0 t : State} (u : Nat) (s : State) (he : execSeqRetire u s = .next t) (hK : Kept s0 s) : Kept s0 t := by
  unfold execSeqRetire at he
  injection he with he
  subst he
  with_reducible repeat' (first | assumption | apply issueOp_kept)

theorem absentCommands_kept {s0 : State} (u number : Nat) (s : State) (hK : Kept s0 s) : Kept s0 (State.absentCommands u number s) := by
  unfold State.absentCommands
  with_reducible repeat' (first | assumption | apply modUnit_kept)

theorem carrierLeaves_kept {s0 : State} (slot cause : Nat) (s : State) (hK : Kept s0 s) : Kept s0 (State.carrierLeaves slot cause s) := by
  unfold State.carrierLeaves
  with_reducible repeat' (first
    | assumption | intro _ | apply modCar_kept | apply positionsFailed_kept | apply absentCommands_kept | apply Kept_ite)

theorem execCarrierOutOfService_kept {s0 t : State} (slot : Nat) (fatal : Bool) (s : State) (he : execCarrierOutOfService slot fatal s = .next t)
    (hK : Kept s0 s) : Kept s0 t := by
  unfold execCarrierOutOfService at he
  injection he with he
  subst he
  with_reducible repeat' (first | assumption | intro _ | apply modPort_kept | apply carrierLeaves_kept | apply Kept_ite)

theorem execCarrierCommandTimeout_kept {s0 t : State} (slot : Nat) (s : State) (he : execCarrierCommandTimeout slot s = .next t) (hK : Kept s0 s)
    : Kept s0 t := by
  unfold execCarrierCommandTimeout at he
  injection he with he
  subst he
  with_reducible repeat' (first | assumption | intro _ | apply bump_kept | apply carrierLeaves_kept | apply Kept_ite)

theorem carrierFault_kept {s0 : State} (slot : Nat) (s : State) (hK : Kept s0 s) : Kept s0 (State.carrierFault slot s) := by
  unfold State.carrierFault
  with_reducible repeat' (first | assumption | intro _ | apply modCar_kept | apply carrierLeaves_kept | apply Kept_ite)

theorem countMedia_kept {s0 : State} (number st : Nat) (s : State) (hK : Kept s0 s) : Kept s0 (State.countMedia number st s) := by
  unfold State.countMedia
  with_reducible repeat' (first | assumption | intro _ | apply bump_kept | apply Kept_ite)

theorem endMedia_kept {s0 : State} (slot u : Nat) (c : Cmd) (st bytes info : Nat) (s : State) (hK : Kept s0 s) : Kept s0 (State.endMedia slot u c
    st bytes info s) := by
  unfold State.endMedia
  with_reducible repeat' (first | assumption | intro _ | apply modUnit_kept | apply carrierFault_kept | apply countMedia_kept | apply Kept_ite)

theorem retryRead_kept {s0 : State} (slot u : Nat) (c : Cmd) (s : State) (hK : Kept s0 s) : Kept s0 (State.retryRead slot u c s) := by
  unfold State.retryRead
  with_reducible repeat' (first | assumption | apply bump_kept | apply modUnit_kept | apply submit_kept)

theorem takeEntry_kept {s0 : State} (slot : Nat) (e : List Byte) (s : State) (hK : Kept s0 s) : Kept s0 (State.takeEntry slot e s) := by
  unfold State.takeEntry
  with_reducible repeat' (first
    | assumption | intro _ | apply modPort_kept | apply carrierFault_kept | apply endMedia_kept | apply retryRead_kept | apply Kept_ite | split
    | simp only [Kept_mk_iff])

theorem takeEntries_kept {s0 : State} (slot : Nat) (x0 : Nat) (x1 : State) (hK : Kept s0 x1) : Kept s0 (State.takeEntries slot x0 x1) := by
  revert hK
  fun_induction State.takeEntries <;> intro hK <;> (with_reducible repeat' (first
    | assumption | intro _ | apply modPort_kept | apply takeEntry_kept | apply Kept_ite | apply_assumption))

theorem carrierMsi_kept {s0 : State} (slot : Nat) (s : State) (hK : Kept s0 s) : Kept s0 (State.carrierMsi slot s) := by
  unfold State.carrierMsi
  with_reducible repeat' (first | assumption | intro _ | apply modCore_kept | apply modPort_kept | apply takeEntries_kept | apply Kept_ite)

theorem execCarrierMsi_kept {s0 t : State} (slot : Nat) (s : State) (he : execCarrierMsi slot s = .next t) (hK : Kept s0 s) : Kept s0 t := by
  unfold execCarrierMsi at he
  injection he with he
  subst he
  with_reducible repeat' (first | assumption | intro _ | apply carrierMsi_kept | apply Kept_ite)

theorem autoLabel_kept {s0 : State} (slot : Nat) (s : State) (hK : Kept s0 s) : Kept s0 (State.autoLabel slot s) := by
  unfold State.autoLabel
  with_reducible repeat' (first | assumption | intro _ | apply modCar_kept | apply Kept_ite | split)

theorem takeJoined_kept {s0 : State} (slot : Nat) (s : State) (hK : Kept s0 s) : Kept s0 (State.takeJoined slot s) := by
  unfold State.takeJoined
  with_reducible repeat' (first | assumption | intro _ | apply modCar_kept | apply Kept_ite)

theorem admitCarrier_kept {s0 : State} (slot : Nat) (partnerAgrees : Bool) (s : State) (hK : Kept s0 s) : Kept s0 (State.admitCarrier slot
    partnerAgrees s) := by
  unfold State.admitCarrier
  with_reducible repeat' (first | assumption | intro _ | apply modCar_kept | apply autoLabel_kept | apply takeJoined_kept | apply Kept_ite)

theorem linkCarrier_kept {s0 : State} (slot width : Nat) (ident : CarrierIdent) (array : List Byte) (number : Nat) (s : State) (hK : Kept s0 s) :
    Kept s0 (State.linkCarrier slot width ident array number s) := by
  unfold State.linkCarrier
  with_reducible repeat' (first | assumption | apply setCar_kept)

theorem carrierUp_kept {s0 : State} (slot width : Nat) (ident : CarrierIdent) (array : List Byte) (number : Nat) (partnerAgrees : Bool) (s :
    State) (hK : Kept s0 s) : Kept s0 (State.carrierUp slot width ident array number partnerAgrees s) := by
  unfold State.carrierUp
  with_reducible repeat' (first | assumption | intro _ | apply admitCarrier_kept | apply linkCarrier_kept | apply Kept_ite)

theorem execCarrierLinkUp_kept {s0 t : State} (slot width : Nat) (ident : CarrierIdent) (array : List Byte) (number : Nat) (partnerAgrees : Bool)
    (s : State) (he : execCarrierLinkUp slot width ident array number partnerAgrees s = .next t) (hK : Kept s0 s) : Kept s0 t := by
  unfold execCarrierLinkUp at he
  injection he with he
  subst he
  with_reducible repeat' (first | assumption | apply releasePerst_kept | apply carrierUp_kept)

theorem execMedSeqFence_kept {s0 t : State} (src u : Nat) (s : State) (he : execMedSeqFence src u s = .next t) (hK : Kept s0 s) : Kept s0 t := by
  unfold execMedSeqFence at he
  injection he with he
  subst he
  with_reducible repeat' (first | assumption | intro _ | apply afterFence_kept | apply fenceUnit_kept | apply Kept_ite)

theorem fenceBlock_kept {s0 : State} (b : Nat) (s : State) (hK : Kept s0 s) : Kept s0 (State.fenceBlock b s) := by
  unfold State.fenceBlock
  with_reducible repeat' (first | assumption | intro _ | apply setRegBit_kept | apply losePort_kept | apply carrierLeaves_kept | apply Kept_foldl)

theorem execMedBlkFence_kept {s0 t : State} (src b : Nat) (s : State) (he : execMedBlkFence src b s = .next t) (hK : Kept s0 s) : Kept s0 t := by
  unfold execMedBlkFence at he
  injection he with he
  subst he
  with_reducible repeat' (first | assumption | intro _ | apply afterFence_kept | apply fenceBlock_kept | apply Kept_ite)

end Sys2Proof.Machine
end

