-- ==== Sys2Proof/Laws/KeptPrograms.lean ====
section
/-! SUPPORT. `Kept` of uses of engines, rows, the ledger, retrieval, the service programs, the transport and the catalogue. -/

set_option maxRecDepth 10000

namespace Sys2Proof.Machine

/-! ### Uses -/

theorem useQueue_kept {s0 : State} (cls u q n : Nat) (s : State) (hK : Kept s0 s) : Kept s0 (State.useQueue cls u q n s) := by
  unfold State.useQueue
  with_reducible repeat' (first | assumption | apply setReg64_kept)

theorem useUnit_kept {s0 : State} (cls q n : Nat) (count : Nat → State → State) (s : State) (hK : Kept s0 s) (hb0 : ∀ (a0 : Nat) (a1 : State),
    Kept s0 a1 → Kept s0 (count a0 a1)) : Kept s0 (State.useUnit cls q n count s) := by
  unfold State.useUnit
  with_reducible repeat' (first | assumption | apply hb0 | apply useQueue_kept | split)

theorem useDma_kept {s0 : State} (q n : Nat) (s : State) (hK : Kept s0 s) : Kept s0 (State.useDma q n s) := by
  unfold State.useDma
  with_reducible repeat' (first | assumption | intro _ | apply bump64_kept | apply useUnit_kept)

theorem useDigest_kept {s0 : State} (q k n : Nat) (s : State) (hK : Kept s0 s) : Kept s0 (State.useDigest q k n s) := by
  unfold State.useDigest
  with_reducible repeat' (first | assumption | intro _ | apply countMessage_kept | apply useUnit_kept | apply Kept_ite)

theorem useAssist_kept {s0 : State} (q n : Nat) (s : State) (hK : Kept s0 s) : Kept s0 (State.useAssist q n s) := by
  unfold State.useAssist
  with_reducible repeat' (first | assumption | intro _ | apply useUnit_kept)

theorem useCipher_kept {s0 : State} (q k n : Nat) (s : State) (hK : Kept s0 s) : Kept s0 (State.useCipher q k n s) := by
  unfold State.useCipher
  with_reducible repeat' (first | assumption | intro _ | apply bump64_kept | apply useUnit_kept)

theorem useXts_kept {s0 : State} (dec : Bool) (q n : Nat) (s : State) (hK : Kept s0 s) : Kept s0 (State.useXts dec q n s) := by
  unfold State.useXts
  with_reducible repeat' (first | assumption | apply useCipher_kept)

theorem useParity_kept {s0 : State} (q n : Nat) (s : State) (hK : Kept s0 s) : Kept s0 (State.useParity q n s) := by
  unfold State.useParity
  with_reducible repeat' (first | assumption | intro _ | apply bump64_kept | apply useUnit_kept)

theorem useCoder_kept {s0 : State} (q : Nat) (folios : List (Nat × Nat × Nat)) (s : State) (hK : Kept s0 s) : Kept s0 (State.useCoder q folios s)
    := by
  unfold State.useCoder
  with_reducible repeat' (first
    | assumption | intro _ | apply bump_kept | apply bump64_kept | apply useUnit_kept | apply Kept_ite | apply Kept_foldl)

theorem useDecoder_kept {s0 : State} (q n out : Nat) (s : State) (hK : Kept s0 s) : Kept s0 (State.useDecoder q n out s) := by
  unfold State.useDecoder
  with_reducible repeat' (first | assumption | intro _ | apply bump64_kept | apply useUnit_kept)

theorem useSequencer_kept {s0 : State} (slot q : Nat) (s : State) (hK : Kept s0 s) : Kept s0 (State.useSequencer slot q s) := by
  unfold State.useSequencer
  with_reducible repeat' (first | assumption | apply bump64_kept | apply useQueue_kept)

/-! ### Rows -/

theorem modQuire_kept {s0 : State} (q : Nat) (f : Quire → Quire) (s : State) (hK : Kept s0 s) : Kept s0 (State.modQuire q f s) := by
  unfold State.modQuire
  with_reducible repeat' (first | assumption | apply Keeps_of | simp only [Kept_mk_iff])

theorem programStrip_kept {s0 : State} (queue number egroup page : Nat) (ok : Bool) (bs : List Byte) (s : State) (hK : Kept s0 s) : Kept s0
    (State.programStrip queue number egroup page ok bs s) := by
  unfold State.programStrip
  with_reducible repeat' (first
    | assumption | intro _ | apply modCar_kept | apply countMedia_kept | apply useSequencer_kept | apply Kept_ite | split)

theorem setGroupMode_kept {s0 : State} (queue number egroup : Nat) (slc : Bool) (s : State) (hK : Kept s0 s) : Kept s0 (State.setGroupMode queue
    number egroup slc s) := by
  unfold State.setGroupMode
  with_reducible repeat' (first | assumption | apply modCar_kept | apply useSequencer_kept | split)

theorem programRow_kept {s0 : State} (queue q : Nat) (failed : List Nat) (data : List Byte) (s : State) (hK : Kept s0 s) : Kept s0
    (State.programRow queue q failed data s).2 := by
  unfold State.programRow
  with_reducible repeat' (first | assumption | intro _ | apply useParity_kept | apply programStrip_kept | apply Kept_foldl)

/-! ### Apply -/

theorem Applying_faulted_kept {s0 : State} (a : Applying) (hK : Kept s0 a.s) : Kept s0 (Applying.faulted a).s := by
  unfold Applying.faulted
  with_reducible repeat' (first | assumption)

theorem Applying_modCat_kept {s0 : State} (f : Catalogue → Catalogue) (a : Applying) (hK : Kept s0 a.s) : Kept s0 (Applying.modCat f a).s := by
  unfold Applying.modCat
  with_reducible repeat' (first | assumption | apply Keeps_of | simp only [Kept_mk_iff])

theorem Applying_modQuire_kept {s0 : State} (q : Nat) (f : Quire → Quire) (a : Applying) (hK : Kept s0 a.s) : Kept s0 (Applying.modQuire q f a).s
    := by
  unfold Applying.modQuire
  with_reducible repeat' (first
    | assumption | intro _ | apply Applying_faulted_kept | apply Keeps_of | apply Kept_iteP (π := Applying.s) | simp only [Kept_mk_iff])

theorem applyMap_kept {s0 : State} (item : List Byte) (a : Applying) (hK : Kept s0 a.s) : Kept s0 (applyMap item a).s := by
  unfold applyMap
  with_reducible repeat' (first
    | assumption | intro _ | apply indexContent_kept | apply Keeps_of | apply Kept_foldl | apply Kept_iteP (π := Applying.s) | split
    | simp only [Kept_mk_iff])

theorem applyContent_kept {s0 : State} (item : List Byte) (digests : List (List Byte)) (a : Applying) (hK : Kept s0 a.s) : Kept s0 (applyContent
    item digests a).s := by
  unfold applyContent
  with_reducible repeat' (first
    | assumption | intro _ | apply addValid_kept | apply Applying_faulted_kept | apply Applying_modCat_kept | apply Kept_iteP (π := Applying.s))

theorem applyMove_kept {s0 : State} (item : List Byte) (a : Applying) (hK : Kept s0 a.s) : Kept s0 (applyMove item a).s := by
  unfold applyMove
  with_reducible repeat' (first
    | assumption | intro _ | apply addValid_kept | apply takeValid_kept | apply Applying_modCat_kept | apply Keeps_of
    | apply Kept_iteP (π := Applying.s) | simp only [Kept_mk_iff])

theorem applyOpened_kept {s0 : State} (item : List Byte) (a : Applying) (hK : Kept s0 a.s) : Kept s0 (applyOpened item a).s := by
  unfold applyOpened
  with_reducible repeat' (first
    | assumption | intro _ | apply Applying_faulted_kept | apply Keeps_of | apply Kept_iteP (π := Applying.s) | simp only [Kept_mk_iff])

theorem applyQuire_kept {s0 : State} (item : List Byte) (a : Applying) (hK : Kept s0 a.s) : Kept s0 (applyQuire item a).s := by
  unfold applyQuire
  with_reducible repeat' (first
    | assumption | intro _ | apply Applying_faulted_kept | apply Applying_modCat_kept | apply Applying_modQuire_kept | apply applyOpened_kept
    | apply Keeps_of | apply Kept_iteP (π := Applying.s) | split | simp only [Kept_mk_iff])

theorem applyNamespace_kept {s0 : State} (item : List Byte) (a : Applying) (hK : Kept s0 a.s) : Kept s0 (applyNamespace item a).s := by
  unfold applyNamespace
  with_reducible repeat' (first | assumption | apply Applying_faulted_kept | apply Applying_modCat_kept | split)

theorem Applying_free_kept {s0 : State} (node : Nat) (a : Applying) (hK : Kept s0 a.s) : Kept s0 (Applying.free node a).s := by
  unfold Applying.free
  with_reducible repeat' (first | assumption | apply Keeps_of | split | simp only [Kept_mk_iff])

theorem applyView_kept {s0 : State} (item : List Byte) (label : List Byte) (a : Applying) (hK : Kept s0 a.s) : Kept s0 (applyView item label a).s
    := by
  unfold applyView
  with_reducible repeat' (first
    | assumption | intro _ | apply Applying_faulted_kept | apply Applying_modCat_kept | apply Applying_free_kept
    | apply Kept_iteP (π := Applying.s) | split | simp only [Kept_mk_iff])

theorem applyItem_kept {s0 : State} (item : List Byte) (tail : List (List Byte)) (a : Applying) (hK : Kept s0 a.s) : Kept s0 (applyItem item tail
    a).s := by
  unfold applyItem
  with_reducible repeat' (first
    | assumption | intro _ | apply setLost_kept | apply Applying_faulted_kept | apply Applying_modCat_kept | apply applyMap_kept
    | apply applyContent_kept | apply applyMove_kept | apply applyQuire_kept | apply applyNamespace_kept | apply Applying_free_kept
    | apply applyView_kept | apply Keeps_of | apply Kept_iteP (π := Applying.s) | split | simp only [Kept_mk_iff])

theorem applyItems_kept {s0 : State}  (x0 : Nat) (x1 : List (List Byte)) (x2 : Applying) (hK : Kept s0 x2.s) : Kept s0 (applyItems x0 x1 x2).s := by
  revert hK
  fun_induction applyItems <;> intro hK <;> (with_reducible repeat' (first | assumption | apply applyItem_kept | apply_assumption))

theorem applyRecord_kept {s0 : State} (items : List (List Byte)) (a : Applying) (hK : Kept s0 a.s) : Kept s0 (applyRecord items a).s := by
  unfold applyRecord
  with_reducible repeat' (first | assumption | apply Applying_modCat_kept | apply applyItems_kept)

theorem Applying_count_kept {s0 : State} (a : Applying) (hK : Kept s0 a.s) : Kept s0 (Applying.count a).s := by
  unfold Applying.count
  with_reducible repeat' (first | assumption | apply Keeps_of | simp only [Kept_mk_iff])

theorem applyLists_kept {s0 : State} (cycle : Nat) (first second : List (List Byte)) (s : State) (hK : Kept s0 s) : Kept s0 (State.applyLists
    cycle first second s) := by
  unfold State.applyLists
  with_reducible repeat' (first
    | assumption | intro _ | apply metadataFault_kept | apply judgeAll_kept | apply applyRecord_kept | apply Applying_count_kept | apply Kept_ite
    | apply Keeps_of | simp only [Kept_mk_iff])

/-! ### Ledger -/

theorem answer_kept {s0 : State} (a : Answer) (s : State) (hK : Kept s0 s) : Kept s0 (State.answer a s) := by
  unfold State.answer
  with_reducible repeat' (first | assumption | apply respond_kept | apply crFinish_kept | split)

theorem sendAnswers_kept {s0 : State} (p : Answer → Bool) (through : Nat) (s : State) (hK : Kept s0 s) : Kept s0 (State.sendAnswers p through s)
    := by
  unfold State.sendAnswers
  with_reducible repeat' (first | assumption | intro _ | apply answer_kept | apply Keeps_of | apply Kept_foldl | simp only [Kept_mk_iff])

theorem acknowledge_kept {s0 : State} (n : Nat) (s : State) (hK : Kept s0 s) : Kept s0 (State.acknowledge n s) := by
  unfold State.acknowledge
  with_reducible repeat' (first
    | assumption | intro _ | apply setConn_kept | apply modConn_kept | apply respond_kept | apply Kept_ite | apply Kept_foldl)

theorem acknowledgeFrom_kept {s0 : State}  (x0 : Nat) (x1 : Nat) (x2 : State) (hK : Kept s0 x2) : Kept s0 (State.acknowledgeFrom x0 x1 x2) := by
  revert hK
  fun_induction State.acknowledgeFrom <;> intro hK <;> (with_reducible repeat' (first | assumption | apply acknowledge_kept | apply_assumption))

theorem releaseAcks_kept {s0 : State} (s : State) (hK : Kept s0 s) : Kept s0 (State.releaseAcks s) := by
  unfold State.releaseAcks
  with_reducible repeat' (first | assumption | intro _ | apply acknowledgeFrom_kept | apply Kept_ite | apply Keeps_of | simp only [Kept_mk_iff])

theorem noteLeft_kept {s0 : State} (h : Header) (s : State) (hK : Kept s0 s) : Kept s0 (State.noteLeft h s) := by
  unfold State.noteLeft
  with_reducible repeat' (first | assumption | apply Keeps_of | simp only [Kept_mk_iff])

theorem leaveHeader_kept {s0 : State} (base no : Nat) (s : State) (hK : Kept s0 s) : Kept s0 (State.leaveHeader base no s) := by
  unfold State.leaveHeader
  with_reducible repeat' (first | assumption | apply modHeader_kept | apply noteLeft_kept | split)

theorem freeHeader_kept {s0 : State} (no : Nat) (s : State) (hK : Kept s0 s) : Kept s0 (State.freeHeader no s) := by
  unfold State.freeHeader
  with_reducible repeat' (first | assumption | intro _ | apply leaveHeader_kept | apply Kept_ite)

theorem confirmCycle_kept {s0 : State} (n : Nat) (s : State) (hK : Kept s0 s) : Kept s0 (State.confirmCycle n s) := by
  unfold State.confirmCycle
  with_reducible repeat' (first
    | assumption | intro _ | apply modHeader_kept | apply markConfirmed_kept | apply sendAnswers_kept | apply releaseAcks_kept
    | apply freeHeader_kept | apply Keeps_of | apply Kept_foldl | split | simp only [Kept_mk_iff])

theorem closeCycle_kept {s0 : State} (s : State) (hK : Kept s0 s) : Kept s0 (State.closeCycle s) := by
  unfold State.closeCycle
  with_reducible repeat' (first
    | assumption | intro _ | apply emit_kept | apply performWrite_kept | apply modRing_kept | apply appendJournal_kept | apply confirmCycle_kept
    | apply Kept_ite | apply Keeps_of | apply Kept_foldl | simp only [Kept_mk_iff])

theorem resend_kept {s0 : State} (n : Nat) (s : State) (hK : Kept s0 s) : Kept s0 (State.resend n s) := by
  unfold State.resend
  with_reducible repeat' (first | assumption | apply emit_kept | apply Keeps_of | split | simp only [Kept_mk_iff])

theorem answerRecord_kept {s0 : State} (type reason index cycle check : Nat) (s : State) (hK : Kept s0 s) : Kept s0 (State.answerRecord type
    reason index cycle check s) := by
  unfold State.answerRecord
  with_reducible repeat' (first | assumption | apply emit_kept)

theorem takeRecord_kept {s0 : State} (r : CycleRec) (header : List Byte) (s : State) (hK : Kept s0 s) : Kept s0 (State.takeRecord r header s) := by
  unfold State.takeRecord
  with_reducible repeat' (first
    | assumption | intro _ | apply modHeader_kept | apply appendMirror_kept | apply leaveHeader_kept | apply Keeps_of | apply Kept_foldl
    | simp only [Kept_mk_iff])

theorem noteReceived_kept {s0 : State} (cycle : Nat) (s : State) (hK : Kept s0 s) : Kept s0 (State.noteReceived cycle s) := by
  unfold State.noteReceived
  with_reducible repeat' (first | assumption | apply Keeps_of | simp only [Kept_mk_iff])

theorem noteDiffering_kept {s0 : State} (s : State) (hK : Kept s0 s) : Kept s0 (State.noteDiffering s) := by
  unfold State.noteDiffering
  with_reducible repeat' (first | assumption | apply Keeps_of | simp only [Kept_mk_iff])

theorem handleRecord_kept {s0 : State} (slot : Nat) (s : State) (hK : Kept s0 s) : Kept s0 (State.handleRecord slot s) := by
  unfold State.handleRecord
  with_reducible repeat' (first
    | assumption | intro _ | apply answerRecord_kept | apply takeRecord_kept | apply noteReceived_kept | apply noteDiffering_kept | apply Kept_ite
    | split)

theorem execLedgerRecord_kept {s0 t : State} (slot : Nat) (s : State) (he : execLedgerRecord slot s = .next t) (hK : Kept s0 s) : Kept s0 t := by
  unfold execLedgerRecord at he
  injection he with he
  subst he
  with_reducible repeat' (first | assumption | intro _ | apply handleRecord_kept | apply Kept_ite)

theorem mirrorEntry_kept {s0 : State} (no : Nat) (s : State) (hK : Kept s0 s) : Kept s0 (State.mirrorEntry no s) := by
  unfold State.mirrorEntry
  with_reducible repeat' (first | assumption | intro _ | apply sendMirror_kept | apply Kept_ite | split)

theorem refused_kept {s0 : State} (r : CycleRec) (reason index : Nat) (s : State) (hK : Kept s0 s) : Kept s0 (State.refused r reason index s) := by
  unfold State.refused
  with_reducible repeat' (first
    | assumption | intro _ | apply releaseCustody_kept | apply resend_kept | apply mirrorEntry_kept | apply Keeps_of | apply Kept_foldl | split
    | simp only [Kept_mk_iff])

theorem execLedgerRefuse_kept {s0 t : State} (slot : Nat) (s : State) (he : execLedgerRefuse slot s = .next t) (hK : Kept s0 s) : Kept s0 t := by
  unfold execLedgerRefuse at he
  injection he with he
  subst he
  with_reducible repeat' (first | assumption | intro _ | apply refused_kept | apply Kept_ite | split)

theorem execConfirmTimeout_kept {s0 t : State} (s : State) (he : execConfirmTimeout s = .next t) (hK : Kept s0 s) : Kept s0 t := by
  unfold execConfirmTimeout at he
  injection he with he
  subst he
  with_reducible repeat' (first | assumption | intro _ | apply resend_kept | apply Kept_ite | apply Keeps_of | split | simp only [Kept_mk_iff])

/-! ### Messages -/

theorem sendTwin_kept {s0 : State} (channel : Nat) (payload : List Byte) (s : State) (hK : Kept s0 s) : Kept s0 (State.sendTwin channel payload s)
    := by
  unfold State.sendTwin
  with_reducible repeat' (first | assumption | intro _ | apply emit_kept | apply Kept_ite | apply Keeps_of | simp only [Kept_mk_iff])

theorem tellPartner_kept {s0 : State} (kind : Nat) (body : List Byte) (s : State) (hK : Kept s0 s) : Kept s0 (State.tellPartner kind body s) := by
  unfold State.tellPartner
  with_reducible repeat' (first | assumption | apply sendTwin_kept)

theorem tellShipment_kept {s0 : State} (x : Shipment) (s : State) (hK : Kept s0 s) : Kept s0 (State.tellShipment x s) := by
  unfold State.tellShipment
  with_reducible repeat' (first | assumption | apply tellPartner_kept)

theorem tellLevels_kept {s0 : State} (s : State) (hK : Kept s0 s) : Kept s0 (State.tellLevels s) := by
  unfold State.tellLevels
  with_reducible repeat' (first | assumption | apply tellPartner_kept)

theorem reportRow_kept {s0 : State} (q row : Nat) (s : State) (hK : Kept s0 s) : Kept s0 (State.reportRow q row s) := by
  unfold State.reportRow
  with_reducible repeat' (first | assumption | intro _ | apply tellPartner_kept | apply Kept_ite | apply Keeps_of | simp only [Kept_mk_iff])

theorem queueLost_kept {s0 : State} (f : Nat) (s : State) (hK : Kept s0 s) : Kept s0 (State.queueLost f s) := by
  unfold State.queueLost
  with_reducible repeat' (first | assumption | apply queueItems_kept)

theorem reportLost_kept {s0 : State} (f : Nat) (s : State) (hK : Kept s0 s) : Kept s0 (State.reportLost f s) := by
  unfold State.reportLost
  with_reducible repeat' (first | assumption | intro _ | apply tellPartner_kept | apply queueLost_kept | apply Kept_ite)

/-! ### Retrieval -/

theorem entryBlock_kept {s0 : State} (seen : Seen) (base : Nat) (h : Header) (lba : Nat) (s : State) (hK : Kept s0 s) : Kept s0 (State.entryBlock
    seen base h lba s).2 := by
  unfold State.entryBlock
  with_reducible repeat' (first | assumption | apply takeFree_kept | apply busError_kept | split | simp only [Kept_mk_iff])

theorem readBuffered_kept {s0 : State} (seen : Seen) (base : Nat) (h : Header) (lba : Nat) (s : State) (hK : Kept s0 s) : Kept s0
    (State.readBuffered seen base h lba s).2 := by
  unfold State.readBuffered
  with_reducible repeat' (first | assumption | intro _ | apply entryBlock_kept | apply Kept_ite2 | split | refine Kept_snd (by assumption) ?_)

theorem touchSlot_kept {s0 : State} (i : Nat) (s : State) (hK : Kept s0 s) : Kept s0 (State.touchSlot i s) := by
  unfold State.touchSlot
  with_reducible repeat' (first | assumption | apply Keeps_of | simp only [Kept_mk_iff])

theorem fillSlot_kept {s0 : State} (d g : Nat) (readOnly write : Bool) (s : State) (hK : Kept s0 s) : Kept s0 (State.fillSlot d g readOnly write
    s).2 := by
  unfold State.fillSlot
  with_reducible repeat' (first | assumption | apply loadSlot_kept | apply Keeps_of | split | simp only [Kept_mk_iff])

theorem needKey_kept {s0 : State} (d g : Nat) (s : State) (hK : Kept s0 s) : Kept s0 (State.needKey d g s) := by
  unfold State.needKey
  with_reducible repeat' (first | assumption | intro _ | apply loadSlot_kept | apply touchSlot_kept | apply fillSlot_kept | apply Kept_ite | split)

theorem saveContext_kept {s0 : State} (d : Decoded) (s : State) (hK : Kept s0 s) : Kept s0 (State.saveContext d s) := by
  unfold State.saveContext
  with_reducible repeat' (first | assumption | intro _ | apply Kept_ite | apply Keeps_of | split | simp only [Kept_mk_iff])

theorem noteUncorrectable_kept {s0 : State} (slot : Nat) (s : State) (hK : Kept s0 s) : Kept s0 (State.noteUncorrectable slot s) := by
  unfold State.noteUncorrectable
  with_reducible repeat' (first | assumption | apply bump_kept | apply countMedia_kept)

theorem useReads_kept {s0 : State} (unread : Unread) (q : Nat) (x : Shelf) (s : State) (hK : Kept s0 s) : Kept s0 (State.useReads unread q x s) :=
    by
  unfold State.useReads
  with_reducible repeat' (first
    | assumption | intro _ | apply useSequencer_kept | apply noteUncorrectable_kept | apply Kept_ite | apply Kept_foldl | split
    | simp only [Kept_mk_iff])

theorem useFetch_kept {s0 : State} (seen : Seen) (q : Nat) (rebuilt : Bool) (x : Shelf) (s : State) (hK : Kept s0 s) : Kept s0 (State.useFetch
    seen q rebuilt x s) := by
  unfold State.useFetch
  with_reducible repeat' (first | assumption | intro _ | apply useParity_kept | apply useReads_kept | apply Kept_ite)

theorem useFolio_kept {s0 : State} (seen : Seen) (q : Nat) (d : Decoded) (s : State) (hK : Kept s0 s) : Kept s0 (State.useFolio seen q d s) := by
  unfold State.useFolio
  with_reducible repeat' (first | assumption | apply useXts_kept | apply useFetch_kept)

theorem useVerifyRuns_kept {s0 : State} (q : Nat) (want : List Nat) (s : State) (hK : Kept s0 s) : Kept s0 (State.useVerifyRuns q want s) := by
  unfold State.useVerifyRuns
  with_reducible repeat' (first | assumption | intro _ | apply countMessage_kept | apply useUnit_kept | apply Kept_ite)

theorem useRead_kept {s0 : State} (seen : Seen) (q : Nat) (ds : List Decoded) (want : List Nat) (s : State) (hK : Kept s0 s) : Kept s0
    (State.useRead seen q ds want s) := by
  unfold State.useRead
  with_reducible repeat' (first
    | assumption | intro _ | apply useAssist_kept | apply useDecoder_kept | apply useFolio_kept | apply useVerifyRuns_kept | apply Kept_foldl)

theorem useHeal_kept {s0 : State} (seen : Seen) (q : Nat) (ds : List Decoded) (s : State) (hK : Kept s0 s) : Kept s0 (State.useHeal seen q ds s)
    := by
  unfold State.useHeal
  with_reducible repeat' (first | assumption | intro _ | apply useRead_kept | apply Kept_foldl)

theorem pinChain_kept {s0 : State} (up : Bool) (chain : List Nat) (s : State) (hK : Kept s0 s) : Kept s0 (State.pinChain up chain s) := by
  unfold State.pinChain
  with_reducible repeat' (first | assumption | intro _ | apply modQuire_kept | apply Kept_foldl)

theorem reportRebuilt_kept {s0 : State} (seen : Seen) (ds : List Decoded) (s : State) (hK : Kept s0 s) : Kept s0 (State.reportRebuilt seen ds s)
    := by
  unfold State.reportRebuilt
  with_reducible repeat' (first | assumption | intro _ | apply reportRow_kept | apply Kept_ite | apply Kept_foldl)

theorem fetchFolio_kept {s0 : State} (seen : Seen) (f : Nat) (want : List Nat) (s : State) (hK : Kept s0 s) : Kept s0 (State.fetchFolio seen f
    want s).2 := by
  unfold State.fetchFolio
  with_reducible repeat' (first
    | assumption | intro _ | apply reportLost_kept | apply needKey_kept | apply saveContext_kept | apply useRead_kept | apply useHeal_kept
    | apply pinChain_kept | apply reportRebuilt_kept | apply Kept_foldl | apply Kept_ite2 | split | simp only [Kept_mk_iff])

theorem fetchWanted_kept {s0 : State} (seen : Seen) (cids : List Nat) (fetched : List (Nat × Fetched)) (cid : Nat) (s : State) (hK : Kept s0 s) :
    Kept s0 (State.fetchWanted seen cids fetched cid s).2.2 := by
  unfold State.fetchWanted
  with_reducible repeat' (first
    | assumption | apply metadataFault_kept | apply useAssist_kept | apply fetchFolio_kept | split | refine Kept_snd (by assumption) ?_
    | simp only [Kept_mk_iff])

theorem fetchCid_kept {s0 : State} (seen : Seen) (cid : Nat) (s : State) (hK : Kept s0 s) : Kept s0 (State.fetchCid seen cid s).2 := by
  unfold State.fetchCid
  with_reducible repeat' (first | assumption | apply fetchWanted_kept)

theorem viewBlock_kept {s0 : State} (seen : Seen) (root lba : Nat) (s : State) (hK : Kept s0 s) : Kept s0 (State.viewBlock seen root lba s).2 := by
  unfold State.viewBlock
  with_reducible repeat' (first | assumption | apply fetchCid_kept | split)

theorem readBlock_kept {s0 : State} (seen : Seen) (nsid : Nat) (cids : List Nat) (lba : Nat) (fetched : List (Nat × Fetched)) (s : State) (hK :
    Kept s0 s) : Kept s0 (State.readBlock seen nsid cids lba fetched s).2.2 := by
  unfold State.readBlock
  with_reducible repeat' (first | assumption | apply readBuffered_kept | apply fetchWanted_kept | split)

theorem readBlocks_kept {s0 : State} (seen : Seen) (nsid : Nat) (cids : List Nat) (x0 : Nat) (x1 : Nat) (x2 : List (Nat × Fetched)) (x3 : State)
    (hK : Kept s0 x3) : Kept s0 (State.readBlocks seen nsid cids x0 x1 x2 x3).2.2 := by
  revert hK
  fun_induction State.readBlocks <;> intro hK <;> (with_reducible repeat' (first
    | assumption | apply readBlock_kept | apply_assumption | refine Kept_snd2 (by assumption) ?_))

theorem readRange_kept {s0 : State} (seen : Seen) (nsid slba nblk : Nat) (s : State) (hK : Kept s0 s) : Kept s0 (State.readRange seen nsid slba
    nblk s).2.2 := by
  unfold State.readRange
  with_reducible repeat' (first | assumption | apply useAssist_kept | apply readBlocks_kept)

/-! ### Service -/

theorem execAnaTransitionTimeExpiry_kept {s0 t : State} (s : State) (he : execAnaTransitionTimeExpiry s = .next t) (hK : Kept s0 s) : Kept s0 t :=
    by
  unfold execAnaTransitionTimeExpiry at he
  injection he with he
  subst he
  with_reducible repeat' (first | assumption | intro _ | apply anaChange_kept | apply Kept_ite | apply Keeps_of | split | simp only [Kept_mk_iff])

theorem addDeferred_kept {s0 : State} (d : Deferred) (s : State) (hK : Kept s0 s) : Kept s0 (State.addDeferred d s) := by
  unfold State.addDeferred
  with_reducible repeat' (first | assumption | apply Keeps_of | simp only [Kept_mk_iff])

theorem recordDeferred_kept {s0 : State} (nsid first last no cycle : Nat) (s : State) (hK : Kept s0 s) : Kept s0 (State.recordDeferred nsid first
    last no cycle s) := by
  unfold State.recordDeferred
  with_reducible repeat' (first | assumption | apply tellPartner_kept | apply addDeferred_kept)

theorem announce_kept {s0 : State} (id nsid : Nat) (s : State) (hK : Kept s0 s) : Kept s0 (State.announce id nsid s) := by
  unfold State.announce
  with_reducible repeat' (first
    | assumption | intro _ | apply modCtrl_kept | apply postEvent_kept | apply Kept_ite | split | simp only [Kept_mk_iff])

theorem onQueue_kept {s0 : State} (c cid : Nat) (admin : Bool) (body : Nat → State → State) (s : State) (hK : Kept s0 s) (hb0 : ∀ (a0 : Nat) (a1 :
    State), Kept s0 a1 → Kept s0 (body a0 a1)) : Kept s0 (State.onQueue c cid admin body s) := by
  unfold State.onQueue
  with_reducible repeat' (first | assumption | intro _ | apply hb0 | apply heardPdu_kept | apply respond_kept | apply Kept_ite | split)

theorem onNamespace_kept {s0 : State} (c cid nsid : Nat) (reads : Bool) (body : State → State) (s : State) (hK : Kept s0 s) (hb0 : ∀ (a0 : State),
    Kept s0 a0 → Kept s0 (body a0)) : Kept s0 (State.onNamespace c cid nsid reads body s) := by
  unfold State.onNamespace
  with_reducible repeat' (first
    | assumption | intro _ | apply hb0 | apply respond_kept | apply announce_kept | apply onQueue_kept | apply Kept_ite | split)

theorem execInvalidCommandOpcode_kept {s0 t : State} (c cid : Nat) (s : State) (he : execInvalidCommandOpcode c cid s = .next t) (hK : Kept s0 s)
    : Kept s0 t := by
  unfold execInvalidCommandOpcode at he
  injection he with he
  subst he
  with_reducible repeat' (first | assumption | intro _ | apply heardPdu_kept | apply respond_kept | apply Kept_ite)

theorem nvtError_kept {s0 : State} (st c : Nat) (s : State) (hK : Kept s0 s) : Kept s0 (State.nvtError st c s) := by
  unfold State.nvtError
  with_reducible repeat' (first
    | assumption | intro _ | apply setReg_kept | apply bump_kept | apply setRegBit_kept | apply raiseVector_kept | apply Kept_ite)

theorem terminate_kept {s0 : State} (c fes : Nat) (s : State) (hK : Kept s0 s) : Kept s0 (State.terminate c fes s) := by
  unfold State.terminate
  with_reducible repeat' (first | assumption | apply sendPdu_kept | apply closeConn_kept)

theorem execInvalidPduType_kept {s0 t : State} (c : Nat) (s : State) (he : execInvalidPduType c s = .next t) (hK : Kept s0 s) : Kept s0 t := by
  unfold execInvalidPduType at he
  injection he with he
  subst he
  with_reducible repeat' (first | assumption | intro _ | apply heardPdu_kept | apply nvtError_kept | apply terminate_kept | apply Kept_ite)

theorem execIcreq_kept {s0 t : State} (c port maxR2t : Nat) (hdgst ddgst unsupported : Bool) (s : State) (he : execIcreq c port maxR2t hdgst ddgst
    unsupported s = .next t) (hK : Kept s0 s) : Kept s0 t := by
  unfold execIcreq at he
  injection he with he
  subst he
  with_reducible repeat' (first
    | assumption | intro _ | apply setConn_kept | apply countRx_kept | apply heardPdu_kept | apply sendPdu_kept | apply nvtError_kept
    | apply terminate_kept | apply Kept_ite)

theorem execH2cTermReq_kept {s0 t : State} (c : Nat) (s : State) (he : execH2cTermReq c s = .next t) (hK : Kept s0 s) : Kept s0 t := by
  unfold execH2cTermReq at he
  injection he with he
  subst he
  with_reducible repeat' (first | assumption | intro _ | apply heardPdu_kept | apply closeConn_kept | apply Kept_ite)

theorem execConnectionEnd_kept {s0 t : State} (c : Nat) (s : State) (he : execConnectionEnd c s = .next t) (hK : Kept s0 s) : Kept s0 t := by
  unfold execConnectionEnd at he
  injection he with he
  subst he
  with_reducible repeat' (first | assumption | intro _ | apply endConn_kept | apply Kept_ite)

theorem connectAdmin_kept {s0 : State} (c cid sqsize cntlid kato : Nat) (nqn : List Byte) (s : State) (hK : Kept s0 s) : Kept s0
    (State.connectAdmin c cid sqsize cntlid kato nqn s) := by
  unfold State.connectAdmin
  with_reducible repeat' (first
    | assumption | intro _ | apply modConn_kept | apply respond_kept | apply Kept_ite | apply Keeps_of | split | simp only [Kept_mk_iff])

theorem connectIo_kept {s0 : State} (c cid qid sqsize cntlid : Nat) (nqn : List Byte) (s : State) (hK : Kept s0 s) : Kept s0 (State.connectIo c
    cid qid sqsize cntlid nqn s) := by
  unfold State.connectIo
  with_reducible repeat' (first | assumption | intro _ | apply modConn_kept | apply respond_kept | apply Kept_ite | split)

theorem execNvmeConnect_kept {s0 t : State} (c cid qid sqsize cntlid kato : Nat) (hostNqn subNqn : List Byte) (s : State) (he : execNvmeConnect c
    cid qid sqsize cntlid kato hostNqn subNqn s = .next t) (hK : Kept s0 s) : Kept s0 t := by
  unfold execNvmeConnect at he
  injection he with he
  subst he
  with_reducible repeat' (first
    | assumption | intro _ | apply heardPdu_kept | apply respond_kept | apply connectAdmin_kept | apply connectIo_kept | apply Kept_ite)

theorem endCtrl_kept {s0 : State} (id : Nat) (close : Bool) (s : State) (hK : Kept s0 s) : Kept s0 (State.endCtrl id close s) := by
  unfold State.endCtrl
  with_reducible repeat' (first | assumption | intro _ | apply endConn_kept | apply closeConn_kept | apply Kept_ite | apply Kept_foldl)

theorem execNvmeDisconnect_kept {s0 t : State} (c cid : Nat) (s : State) (he : execNvmeDisconnect c cid s = .next t) (hK : Kept s0 s) : Kept s0 t
    := by
  unfold execNvmeDisconnect at he
  injection he with he
  subst he
  with_reducible repeat' (first | assumption | intro _ | apply heardPdu_kept | apply respond_kept | apply endConn_kept | apply Kept_ite)

theorem execPropertyGet_kept {s0 t : State} (c cid off : Nat) (s : State) (he : execPropertyGet c cid off s = .next t) (hK : Kept s0 s) : Kept s0
    t := by
  unfold execPropertyGet at he
  injection he with he
  subst he
  with_reducible repeat' (first | assumption | intro _ | apply heardPdu_kept | apply respond_kept | apply Kept_ite | split)

theorem setCc_kept {s0 : State} (id c cid v : Nat) (s : State) (hK : Kept s0 s) : Kept s0 (State.setCc id c cid v s) := by
  unfold State.setCc
  with_reducible repeat' (first | assumption | intro _ | apply modCtrl_kept | apply respond_kept | apply endCtrl_kept | apply Kept_ite | split)

theorem execPropertySet_kept {s0 t : State} (c cid off v : Nat) (s : State) (he : execPropertySet c cid off v s = .next t) (hK : Kept s0 s) : Kept
    s0 t := by
  unfold execPropertySet at he
  injection he with he
  subst he
  with_reducible repeat' (first | assumption | intro _ | apply heardPdu_kept | apply respond_kept | apply setCc_kept | apply Kept_ite | split)

theorem execKeepAlive_kept {s0 t : State} (c cid : Nat) (s : State) (he : execKeepAlive c cid s = .next t) (hK : Kept s0 s) : Kept s0 t := by
  unfold execKeepAlive at he
  injection he with he
  subst he
  with_reducible repeat' (first | assumption | intro _ | apply modCtrl_kept | apply respond_kept | apply onQueue_kept)

theorem execKeepAliveExpiry_kept {s0 t : State} (id : Nat) (s : State) (he : execKeepAliveExpiry id s = .next t) (hK : Kept s0 s) : Kept s0 t := by
  unfold execKeepAliveExpiry at he
  injection he with he
  subst he
  with_reducible repeat' (first | assumption | intro _ | apply endCtrl_kept | apply Kept_ite | split)

theorem execNvmeAbort_kept {s0 t : State} (c cid : Nat) (s : State) (he : execNvmeAbort c cid s = .next t) (hK : Kept s0 s) : Kept s0 t := by
  unfold execNvmeAbort at he
  injection he with he
  subst he
  with_reducible repeat' (first | assumption | intro _ | apply respond_kept | apply onQueue_kept)

theorem ethFence_kept {s0 : State} (src p : Nat) (s : State) (hK : Kept s0 s) : Kept s0 (State.ethFence src p s) := by
  unfold State.ethFence
  with_reducible repeat' (first | assumption | apply setRegBit_kept | apply endConns_kept | apply afterFence_kept)

theorem execEthPortFence_kept {s0 t : State} (src p : Nat) (s : State) (he : execEthPortFence src p s = .next t) (hK : Kept s0 s) : Kept s0 t := by
  unfold execEthPortFence at he
  injection he with he
  subst he
  with_reducible repeat' (first | assumption | intro _ | apply ethFence_kept | apply Kept_ite)

theorem execEthLinkChange_kept {s0 t : State} (p : Nat) (up : Bool) (s : State) (he : execEthLinkChange p up s = .next t) (hK : Kept s0 s) : Kept
    s0 t := by
  unfold execEthLinkChange at he
  injection he with he
  subst he
  with_reducible repeat' (first | assumption | intro _ | apply setReg_kept | apply Kept_ite | apply Keeps_of | simp only [Kept_mk_iff])

/-! ### Admin -/

theorem sendDataP_kept {s0 : State} (c cid : Nat) (bs : List Byte) (s : State) (hK : Kept s0 s) : Kept s0 (State.sendData' c cid bs s) := by
  unfold State.sendData'
  with_reducible repeat' (first | assumption | intro _ | apply sendPdu_kept | apply Kept_ite)

theorem replyData_kept {s0 : State} (c cid : Nat) (bs : List Byte) (s : State) (hK : Kept s0 s) : Kept s0 (State.replyData c cid bs s) := by
  unfold State.replyData
  with_reducible repeat' (first | assumption | apply respond_kept | apply sendDataP_kept)

theorem execNvmeIdentify_kept {s0 t : State} (c cid cns nsid : Nat) (s : State) (he : execNvmeIdentify c cid cns nsid s = .next t) (hK : Kept s0
    s) : Kept s0 t := by
  unfold execNvmeIdentify at he
  injection he with he
  subst he
  with_reducible repeat' (first
    | assumption | intro _ | apply takeFrees_kept | apply respond_kept | apply onQueue_kept | apply replyData_kept | split)

theorem execGetLogPage_kept {s0 t : State} (c cid lid off len : Nat) (rae : Bool) (s : State) (he : execGetLogPage c cid lid off len rae s = .next
    t) (hK : Kept s0 s) : Kept s0 t := by
  unfold execGetLogPage at he
  injection he with he
  subst he
  with_reducible repeat' (first
    | assumption | intro _ | apply takeFrees_kept | apply modCtrl_kept | apply respond_kept | apply onQueue_kept | apply replyData_kept
    | apply Kept_ite | split)

theorem execSetFeatures_kept {s0 t : State} (c cid fid v : Nat) (s : State) (he : execSetFeatures c cid fid v s = .next t) (hK : Kept s0 s) : Kept
    s0 t := by
  unfold execSetFeatures at he
  injection he with he
  subst he
  with_reducible repeat' (first | assumption | intro _ | apply modCtrl_kept | apply respond_kept | apply onQueue_kept | apply Kept_ite | split)

theorem execGetFeatures_kept {s0 t : State} (c cid fid : Nat) (s : State) (he : execGetFeatures c cid fid s = .next t) (hK : Kept s0 s) : Kept s0
    t := by
  unfold execGetFeatures at he
  injection he with he
  subst he
  with_reducible repeat' (first | assumption | intro _ | apply respond_kept | apply onQueue_kept | split)

theorem execAsynchronousEventRequest_kept {s0 t : State} (c cid : Nat) (s : State) (he : execAsynchronousEventRequest c cid s = .next t) (hK :
    Kept s0 s) : Kept s0 t := by
  unfold execAsynchronousEventRequest at he
  injection he with he
  subst he
  with_reducible repeat' (first | assumption | intro _ | apply modCtrl_kept | apply respond_kept | apply onQueue_kept | apply Kept_ite | split)

theorem queueAnswered_kept {s0 : State} (items : List (List Byte)) (a : Answer) (s : State) (hK : Kept s0 s) : Kept s0 (State.queueAnswered items
    a s) := by
  unfold State.queueAnswered
  with_reducible repeat' (first | assumption | apply queueItems_kept | apply Keeps_of | simp only [Kept_mk_iff])

theorem execNamespaceCreate_kept {s0 t : State} (c cid nsze ncap flbas group profile domain : Nat) (s : State) (he : execNamespaceCreate c cid
    nsze ncap flbas group profile domain s = .next t) (hK : Kept s0 s) : Kept s0 t := by
  unfold execNamespaceCreate at he
  injection he with he
  subst he
  with_reducible repeat' (first
    | assumption | intro _ | apply respond_kept | apply tellPartner_kept | apply onQueue_kept | apply queueAnswered_kept | apply Kept_ite
    | apply Keeps_of | split | simp only [Kept_mk_iff])

theorem execNamespaceDelete_kept {s0 t : State} (c cid nsid : Nat) (s : State) (he : execNamespaceDelete c cid nsid s = .next t) (hK : Kept s0 s)
    : Kept s0 t := by
  unfold execNamespaceDelete at he
  injection he with he
  subst he
  with_reducible repeat' (first | assumption | intro _ | apply respond_kept | apply onQueue_kept | apply queueAnswered_kept | apply Kept_ite)

/-! ### Alu -/

theorem alu2_kept {s0 : State} (k : Nat) (d a b : BitVec 5) (f : Word64 → Word64 → Word64) (s : State) (hK : Kept s0 s) : Kept s0 (State.alu2 k d
    a b f s) := by
  unfold State.alu2
  with_reducible repeat' (first | assumption | intro _ | apply instr_kept | apply retireG_kept)

theorem alu1_kept {s0 : State} (k : Nat) (d a : BitVec 5) (f : Word64 → Word64) (s : State) (hK : Kept s0 s) : Kept s0 (State.alu1 k d a f s) := by
  unfold State.alu1
  with_reducible repeat' (first | assumption | intro _ | apply instr_kept | apply retireG_kept)

theorem execAdd_kept {s0 t : State} (k : Nat) (d a b : BitVec 5) (s : State) (he : execAdd k d a b s = .next t) (hK : Kept s0 s) : Kept s0 t := by
  unfold execAdd at he
  injection he with he
  subst he
  with_reducible repeat' (first | assumption | apply alu2_kept)

theorem execSub_kept {s0 t : State} (k : Nat) (d a b : BitVec 5) (s : State) (he : execSub k d a b s = .next t) (hK : Kept s0 s) : Kept s0 t := by
  unfold execSub at he
  injection he with he
  subst he
  with_reducible repeat' (first | assumption | apply alu2_kept)

theorem execAnd_kept {s0 t : State} (k : Nat) (d a b : BitVec 5) (s : State) (he : execAnd k d a b s = .next t) (hK : Kept s0 s) : Kept s0 t := by
  unfold execAnd at he
  injection he with he
  subst he
  with_reducible repeat' (first | assumption | apply alu2_kept)

theorem execOr_kept {s0 t : State} (k : Nat) (d a b : BitVec 5) (s : State) (he : execOr k d a b s = .next t) (hK : Kept s0 s) : Kept s0 t := by
  unfold execOr at he
  injection he with he
  subst he
  with_reducible repeat' (first | assumption | apply alu2_kept)

theorem execXor_kept {s0 t : State} (k : Nat) (d a b : BitVec 5) (s : State) (he : execXor k d a b s = .next t) (hK : Kept s0 s) : Kept s0 t := by
  unfold execXor at he
  injection he with he
  subst he
  with_reducible repeat' (first | assumption | apply alu2_kept)

theorem execAndn_kept {s0 t : State} (k : Nat) (d a b : BitVec 5) (s : State) (he : execAndn k d a b s = .next t) (hK : Kept s0 s) : Kept s0 t := by
  unfold execAndn at he
  injection he with he
  subst he
  with_reducible repeat' (first | assumption | apply alu2_kept)

theorem execSll_kept {s0 t : State} (k : Nat) (d a b : BitVec 5) (s : State) (he : execSll k d a b s = .next t) (hK : Kept s0 s) : Kept s0 t := by
  unfold execSll at he
  injection he with he
  subst he
  with_reducible repeat' (first | assumption | apply alu2_kept)

theorem execSrl_kept {s0 t : State} (k : Nat) (d a b : BitVec 5) (s : State) (he : execSrl k d a b s = .next t) (hK : Kept s0 s) : Kept s0 t := by
  unfold execSrl at he
  injection he with he
  subst he
  with_reducible repeat' (first | assumption | apply alu2_kept)

theorem execSra_kept {s0 t : State} (k : Nat) (d a b : BitVec 5) (s : State) (he : execSra k d a b s = .next t) (hK : Kept s0 s) : Kept s0 t := by
  unfold execSra at he
  injection he with he
  subst he
  with_reducible repeat' (first | assumption | apply alu2_kept)

theorem execRol_kept {s0 t : State} (k : Nat) (d a b : BitVec 5) (s : State) (he : execRol k d a b s = .next t) (hK : Kept s0 s) : Kept s0 t := by
  unfold execRol at he
  injection he with he
  subst he
  with_reducible repeat' (first | assumption | apply alu2_kept)

theorem execSlt_kept {s0 t : State} (k : Nat) (d a b : BitVec 5) (s : State) (he : execSlt k d a b s = .next t) (hK : Kept s0 s) : Kept s0 t := by
  unfold execSlt at he
  injection he with he
  subst he
  with_reducible repeat' (first | assumption | apply alu2_kept)

theorem execSltu_kept {s0 t : State} (k : Nat) (d a b : BitVec 5) (s : State) (he : execSltu k d a b s = .next t) (hK : Kept s0 s) : Kept s0 t := by
  unfold execSltu at he
  injection he with he
  subst he
  with_reducible repeat' (first | assumption | apply alu2_kept)

theorem execMul_kept {s0 t : State} (k : Nat) (d a b : BitVec 5) (s : State) (he : execMul k d a b s = .next t) (hK : Kept s0 s) : Kept s0 t := by
  unfold execMul at he
  injection he with he
  subst he
  with_reducible repeat' (first | assumption | apply alu2_kept)

theorem execMulhu_kept {s0 t : State} (k : Nat) (d a b : BitVec 5) (s : State) (he : execMulhu k d a b s = .next t) (hK : Kept s0 s) : Kept s0 t
    := by
  unfold execMulhu at he
  injection he with he
  subst he
  with_reducible repeat' (first | assumption | apply alu2_kept)

theorem execMulh_kept {s0 t : State} (k : Nat) (d a b : BitVec 5) (s : State) (he : execMulh k d a b s = .next t) (hK : Kept s0 s) : Kept s0 t := by
  unfold execMulh at he
  injection he with he
  subst he
  with_reducible repeat' (first | assumption | apply alu2_kept)

theorem execDivu_kept {s0 t : State} (k : Nat) (d a b : BitVec 5) (s : State) (he : execDivu k d a b s = .next t) (hK : Kept s0 s) : Kept s0 t := by
  unfold execDivu at he
  injection he with he
  subst he
  with_reducible repeat' (first | assumption | apply alu2_kept)

theorem execRemu_kept {s0 t : State} (k : Nat) (d a b : BitVec 5) (s : State) (he : execRemu k d a b s = .next t) (hK : Kept s0 s) : Kept s0 t := by
  unfold execRemu at he
  injection he with he
  subst he
  with_reducible repeat' (first | assumption | apply alu2_kept)

theorem execMinu_kept {s0 t : State} (k : Nat) (d a b : BitVec 5) (s : State) (he : execMinu k d a b s = .next t) (hK : Kept s0 s) : Kept s0 t := by
  unfold execMinu at he
  injection he with he
  subst he
  with_reducible repeat' (first | assumption | apply alu2_kept)

theorem execMaxu_kept {s0 t : State} (k : Nat) (d a b : BitVec 5) (s : State) (he : execMaxu k d a b s = .next t) (hK : Kept s0 s) : Kept s0 t := by
  unfold execMaxu at he
  injection he with he
  subst he
  with_reducible repeat' (first | assumption | apply alu2_kept)

theorem execClz_kept {s0 t : State} (k : Nat) (d a : BitVec 5) (s : State) (he : execClz k d a s = .next t) (hK : Kept s0 s) : Kept s0 t := by
  unfold execClz at he
  injection he with he
  subst he
  with_reducible repeat' (first | assumption | apply alu1_kept)

theorem execCtz_kept {s0 t : State} (k : Nat) (d a : BitVec 5) (s : State) (he : execCtz k d a s = .next t) (hK : Kept s0 s) : Kept s0 t := by
  unfold execCtz at he
  injection he with he
  subst he
  with_reducible repeat' (first | assumption | apply alu1_kept)

theorem execPopc_kept {s0 t : State} (k : Nat) (d a : BitVec 5) (s : State) (he : execPopc k d a s = .next t) (hK : Kept s0 s) : Kept s0 t := by
  unfold execPopc at he
  injection he with he
  subst he
  with_reducible repeat' (first | assumption | apply alu1_kept)

theorem execBswap_kept {s0 t : State} (k : Nat) (d a : BitVec 5) (s : State) (he : execBswap k d a s = .next t) (hK : Kept s0 s) : Kept s0 t := by
  unfold execBswap at he
  injection he with he
  subst he
  with_reducible repeat' (first | assumption | apply alu1_kept)

theorem execAddk_kept {s0 t : State} (k : Nat) (d a : BitVec 5) (imm : BitVec 16) (s : State) (he : execAddk k d a imm s = .next t) (hK : Kept s0
    s) : Kept s0 t := by
  unfold execAddk at he
  injection he with he
  subst he
  with_reducible repeat' (first | assumption | apply alu1_kept)

theorem execAndk_kept {s0 t : State} (k : Nat) (d a : BitVec 5) (imm : BitVec 16) (s : State) (he : execAndk k d a imm s = .next t) (hK : Kept s0
    s) : Kept s0 t := by
  unfold execAndk at he
  injection he with he
  subst he
  with_reducible repeat' (first | assumption | apply alu1_kept)

theorem execOrk_kept {s0 t : State} (k : Nat) (d a : BitVec 5) (imm : BitVec 16) (s : State) (he : execOrk k d a imm s = .next t) (hK : Kept s0 s)
    : Kept s0 t := by
  unfold execOrk at he
  injection he with he
  subst he
  with_reducible repeat' (first | assumption | apply alu1_kept)

theorem execXork_kept {s0 t : State} (k : Nat) (d a : BitVec 5) (imm : BitVec 16) (s : State) (he : execXork k d a imm s = .next t) (hK : Kept s0
    s) : Kept s0 t := by
  unfold execXork at he
  injection he with he
  subst he
  with_reducible repeat' (first | assumption | apply alu1_kept)

theorem execLtk_kept {s0 t : State} (k : Nat) (d a : BitVec 5) (imm : BitVec 16) (s : State) (he : execLtk k d a imm s = .next t) (hK : Kept s0 s)
    : Kept s0 t := by
  unfold execLtk at he
  injection he with he
  subst he
  with_reducible repeat' (first | assumption | apply alu1_kept)

theorem execCshl_kept {s0 t : State} (k : Nat) (d a : BitVec 5) (imm : BitVec 16) (s : State) (he : execCshl k d a imm s = .next t) (hK : Kept s0
    s) : Kept s0 t := by
  unfold execCshl at he
  injection he with he
  subst he
  with_reducible repeat' (first | assumption | apply alu1_kept)

theorem execCset_kept {s0 t : State} (k : Nat) (d : BitVec 5) (imm : BitVec 16) (s : State) (he : execCset k d imm s = .next t) (hK : Kept s0 s) :
    Kept s0 t := by
  unfold execCset at he
  injection he with he
  subst he
  with_reducible repeat' (first | assumption | intro _ | apply instr_kept | apply retireG_kept)

theorem execShlk_kept {s0 t : State} (k : Nat) (d a : BitVec 5) (n : BitVec 6) (s : State) (he : execShlk k d a n s = .next t) (hK : Kept s0 s) :
    Kept s0 t := by
  unfold execShlk at he
  injection he with he
  subst he
  with_reducible repeat' (first | assumption | apply alu1_kept)

theorem execShrk_kept {s0 t : State} (k : Nat) (d a : BitVec 5) (n : BitVec 6) (s : State) (he : execShrk k d a n s = .next t) (hK : Kept s0 s) :
    Kept s0 t := by
  unfold execShrk at he
  injection he with he
  subst he
  with_reducible repeat' (first | assumption | apply alu1_kept)

theorem execSark_kept {s0 t : State} (k : Nat) (d a : BitVec 5) (n : BitVec 6) (s : State) (he : execSark k d a n s = .next t) (hK : Kept s0 s) :
    Kept s0 t := by
  unfold execSark at he
  injection he with he
  subst he
  with_reducible repeat' (first | assumption | apply alu1_kept)

theorem execRolk_kept {s0 t : State} (k : Nat) (d a : BitVec 5) (n : BitVec 6) (s : State) (he : execRolk k d a n s = .next t) (hK : Kept s0 s) :
    Kept s0 t := by
  unfold execRolk at he
  injection he with he
  subst he
  with_reducible repeat' (first | assumption | apply alu1_kept)

/-! ### Atp -/

theorem sendPkt_kept {s0 : State} (q op flags psn key offset aux : Nat) (data : List Byte) (s : State) (hK : Kept s0 s) : Kept s0 (State.sendPkt q
    op flags psn key offset aux data s) := by
  unfold State.sendPkt
  with_reducible repeat' (first | assumption | intro _ | apply emit_kept | apply countTx_kept | apply sendTwin_kept | apply Kept_ite)

theorem sendOf_kept {s0 : State} (q psn : Nat) (r : WorkReq) (s : State) (hK : Kept s0 s) : Kept s0 (State.sendOf q psn r s) := by
  unfold State.sendOf
  with_reducible repeat' (first | assumption | apply sendPkt_kept | split)

theorem sendPsn_kept {s0 : State} (q psn : Nat) (again : Bool) (s : State) (hK : Kept s0 s) : Kept s0 (State.sendPsn q psn again s) := by
  unfold State.sendPsn
  with_reducible repeat' (first | assumption | intro _ | apply bump64_kept | apply modQp_kept | apply sendOf_kept | apply Kept_ite | split)

theorem pump_kept {s0 : State} (q : Nat) (s : State) (hK : Kept s0 s) : Kept s0 (State.pump q s) := by
  unfold State.pump
  with_reducible repeat' (first | assumption | intro _ | apply sendPsn_kept | apply Kept_ite | apply Kept_foldl)

theorem answerPsns_kept {s0 : State} (q : Nat) (gone : Nat → Bool) (good : Bool) (s : State) (hK : Kept s0 s) : Kept s0 (State.answerPsns q gone
    good s) := by
  unfold State.answerPsns
  with_reducible repeat' (first | assumption | apply modQp_kept)

theorem markReq_kept {s0 : State} (q seq st : Nat) (s : State) (hK : Kept s0 s) : Kept s0 (State.markReq q seq st s) := by
  unfold State.markReq
  with_reducible repeat' (first | assumption | apply modQp_kept)

theorem gotPsns_kept {s0 : State} (q : Nat) (psns : List Nat) (placed : Bool) (s : State) (hK : Kept s0 s) : Kept s0 (State.gotPsns q psns placed
    s) := by
  unfold State.gotPsns
  with_reducible repeat' (first | assumption | apply modQp_kept)

theorem sendAck_kept {s0 : State} (q : Nat) (force : Bool) (s : State) (hK : Kept s0 s) : Kept s0 (State.sendAck q force s) := by
  unfold State.sendAck
  with_reducible repeat' (first | assumption | intro _ | apply modQp_kept | apply sendPkt_kept | apply Kept_ite)

theorem notePlaced_kept {s0 : State} (q : Nat) (fin : Bool) (s : State) (hK : Kept s0 s) : Kept s0 (State.notePlaced q fin s) := by
  unfold State.notePlaced
  with_reducible repeat' (first | assumption | intro _ | apply modQp_kept | apply sendAck_kept | apply Kept_ite)

theorem nak_kept {s0 : State} (q psn reason : Nat) (s : State) (hK : Kept s0 s) : Kept s0 (State.nak q psn reason s) := by
  unfold State.nak
  with_reducible repeat' (first | assumption | apply sendPkt_kept)

theorem placeData_kept {s0 : State} (key off : Nat) (data : List Byte) (s : State) (hK : Kept s0 s) : Kept s0 (State.placeData key off data s).2
    := by
  unfold State.placeData
  with_reducible repeat' (first | assumption | apply busError_kept | apply writeSpan_kept | split | refine Kept_snd2 (by assumption) ?_)

theorem rxWrite_kept {s0 : State} (q : Nat) (p : RxPkt) (s : State) (hK : Kept s0 s) : Kept s0 (State.rxWrite q p s) := by
  unfold State.rxWrite
  with_reducible repeat' (first
    | assumption | intro _ | apply modQp_kept | apply gotPsns_kept | apply notePlaced_kept | apply nak_kept | apply placeData_kept | apply Kept_ite
    | split)

theorem rxWriteLast_kept {s0 : State} (q : Nat) (p : RxPkt) (s : State) (hK : Kept s0 s) : Kept s0 (State.rxWriteLast q p s) := by
  unfold State.rxWriteLast
  with_reducible repeat' (first
    | assumption | apply modQp_kept | apply gotPsns_kept | apply notePlaced_kept | apply nak_kept | apply placeData_kept | split
    | refine Kept_snd (by assumption) ?_ | simp only [Kept_mk_iff])

theorem readResponses_kept {s0 : State} (q : Nat) (p : RxPkt) (s : State) (hK : Kept s0 s) : Kept s0 (State.readResponses q p s) := by
  unfold State.readResponses
  with_reducible repeat' (first
    | assumption | intro _ | apply busError_kept | apply readSpan_kept | apply sendPkt_kept | apply Kept_foldl | split | simp only [Kept_mk_iff])

theorem rxRead_kept {s0 : State} (q : Nat) (p : RxPkt) (first : Bool) (s : State) (hK : Kept s0 s) : Kept s0 (State.rxRead q p first s) := by
  unfold State.rxRead
  with_reducible repeat' (first
    | assumption | intro _ | apply modQp_kept | apply gotPsns_kept | apply nak_kept | apply readResponses_kept | apply Kept_foldl | split)

theorem deliverRecord_kept {s0 : State} (a : Option Nat) (rec extra : List Byte) (s : State) (hK : Kept s0 s) : Kept s0 (State.deliverRecord a rec
    extra s) := by
  unfold State.deliverRecord
  with_reducible repeat' (first
    | assumption | intro _ | apply setReg_kept | apply bump_kept | apply busError_kept | apply performWrite_kept | apply Kept_ite
    | apply Kept_foldl | split)

theorem rxRepeat_kept {s0 : State} (q : Nat) (p : RxPkt) (s : State) (hK : Kept s0 s) : Kept s0 (State.rxRepeat q p s) := by
  unfold State.rxRepeat
  with_reducible repeat' (first
    | assumption | apply modQp_kept | apply freeBytes_kept | apply gotPsns_kept | apply notePlaced_kept | apply nak_kept | apply deliverRecord_kept
    | split)

theorem runHeld_kept {s0 : State} (q : Nat) (x0 : Nat) (x1 : State) (hK : Kept s0 x1) : Kept s0 (State.runHeld q x0 x1) := by
  revert hK
  fun_induction State.runHeld <;> intro hK <;> (with_reducible repeat' (first
    | assumption | intro _ | apply modQp_kept | apply rxWriteLast_kept | apply rxRead_kept | apply Kept_ite | apply_assumption))

theorem rxSequenced_kept {s0 : State} (q : Nat) (p : RxPkt) (s : State) (hK : Kept s0 s) : Kept s0 (State.rxSequenced q p s) := by
  unfold State.rxSequenced
  with_reducible repeat' (first
    | assumption | intro _ | apply bump_kept | apply modQp_kept | apply sendAck_kept | apply rxWrite_kept | apply rxRead_kept | apply rxRepeat_kept
    | apply runHeld_kept | apply Kept_ite)

theorem rxResponse_kept {s0 : State} (q : Nat) (p : RxPkt) (s : State) (hK : Kept s0 s) : Kept s0 (State.rxResponse q p s) := by
  unfold State.rxResponse
  with_reducible repeat' (first
    | assumption | intro _ | apply busError_kept | apply writeSpan_kept | apply pump_kept | apply answerPsns_kept | apply markReq_kept
    | apply Kept_ite | split | simp only [Kept_mk_iff])

theorem rxAck_kept {s0 : State} (q : Nat) (p : RxPkt) (s : State) (hK : Kept s0 s) : Kept s0 (State.rxAck q p s) := by
  unfold State.rxAck
  with_reducible repeat' (first
    | assumption | intro _ | apply modQp_kept | apply sendPsn_kept | apply pump_kept | apply answerPsns_kept | apply Kept_ite | apply Kept_foldl
    | split)

theorem rxNak_kept {s0 : State} (q psn reason : Nat) (s : State) (hK : Kept s0 s) : Kept s0 (State.rxNak q psn reason s) := by
  unfold State.rxNak
  with_reducible repeat' (first | assumption | intro _ | apply pump_kept | apply answerPsns_kept | apply markReq_kept | apply Kept_ite | split)

theorem rxCnp_kept {s0 : State} (q : Nat) (s : State) (hK : Kept s0 s) : Kept s0 (State.rxCnp q s) := by
  unfold State.rxCnp
  with_reducible repeat' (first | assumption | intro _ | apply modQp_kept | apply Kept_ite)

theorem noteMark_kept {s0 : State} (q : Nat) (p : RxPkt) (s : State) (hK : Kept s0 s) : Kept s0 (State.noteMark q p s) := by
  unfold State.noteMark
  with_reducible repeat' (first | assumption | intro _ | apply modQp_kept | apply sendPkt_kept | apply Kept_ite)

theorem rxOnChip_kept {s0 : State} (q : Nat) (p : RxPkt) (s : State) (hK : Kept s0 s) : Kept s0 (State.rxOnChip q p s) := by
  unfold State.rxOnChip
  with_reducible repeat' (first
    | assumption | intro _ | apply bump_kept | apply touchQp_kept | apply rxSequenced_kept | apply rxResponse_kept | apply rxAck_kept
    | apply rxNak_kept | apply rxCnp_kept | apply noteMark_kept | apply Kept_ite | split)

theorem rxWait_kept {s0 : State} (q : Nat) (p : RxPkt) (s : State) (hK : Kept s0 s) : Kept s0 (State.rxWait q p s) := by
  unfold State.rxWait
  with_reducible repeat' (first
    | assumption | intro _ | apply bump_kept | apply startLoad_kept | apply Kept_ite | apply Keeps_of | simp only [Kept_mk_iff])

theorem discardFrame_kept {s0 : State} (s : State) (hK : Kept s0 s) : Kept s0 (State.discardFrame s) := by
  unfold State.discardFrame
  with_reducible repeat' (first | assumption | apply bump_kept)

theorem noteFrame_kept {s0 : State} (s : State) (hK : Kept s0 s) : Kept s0 (State.noteFrame s) := by
  unfold State.noteFrame
  with_reducible repeat' (first | assumption | apply Keeps_of | simp only [Kept_mk_iff])

theorem rx_kept {s0 : State} (q : Nat) (p : RxPkt) (s : State) (hK : Kept s0 s) : Kept s0 (State.rx q p s) := by
  unfold State.rx
  with_reducible repeat' (first
    | assumption | intro _ | apply bump_kept | apply countRx_kept | apply rxOnChip_kept | apply rxWait_kept | apply discardFrame_kept
    | apply noteFrame_kept | apply Kept_ite)

theorem execAtpWrite_kept {s0 t : State} (path qp psn key offset conn : Nat) (data : List Byte) (last fin marked : Bool) (s : State) (he :
    execAtpWrite path qp psn key offset conn data last fin marked s = .next t) (hK : Kept s0 s) : Kept s0 t := by
  unfold execAtpWrite at he
  injection he with he
  subst he
  with_reducible repeat' (first | assumption | apply rx_kept)

theorem execAtpReadReq_kept {s0 t : State} (path qp psn key offset conn n : Nat) (relaxed marked : Bool) (s : State) (he : execAtpReadReq path qp
    psn key offset conn n relaxed marked s = .next t) (hK : Kept s0 s) : Kept s0 t := by
  unfold execAtpReadReq at he
  injection he with he
  subst he
  with_reducible repeat' (first | assumption | apply rx_kept)

theorem execAtpReadResp_kept {s0 t : State} (path qp psn conn : Nat) (data : List Byte) (marked : Bool) (s : State) (he : execAtpReadResp path qp
    psn conn data marked s = .next t) (hK : Kept s0 s) : Kept s0 t := by
  unfold execAtpReadResp at he
  injection he with he
  subst he
  with_reducible repeat' (first | assumption | apply rx_kept)

theorem execAtpAck_kept {s0 t : State} (path qp psn base conn : Nat) (bitmap : List Byte) (s : State) (he : execAtpAck path qp psn base conn
    bitmap s = .next t) (hK : Kept s0 s) : Kept s0 t := by
  unfold execAtpAck at he
  injection he with he
  subst he
  with_reducible repeat' (first | assumption | apply rx_kept)

theorem execAtpNak_kept {s0 t : State} (path qp psn conn reason : Nat) (s : State) (he : execAtpNak path qp psn conn reason s = .next t) (hK :
    Kept s0 s) : Kept s0 t := by
  unfold execAtpNak at he
  injection he with he
  subst he
  with_reducible repeat' (first | assumption | apply rx_kept)

theorem execAtpCnp_kept {s0 t : State} (path qp conn : Nat) (s : State) (he : execAtpCnp path qp conn s = .next t) (hK : Kept s0 s) : Kept s0 t :=
    by
  unfold execAtpCnp at he
  injection he with he
  subst he
  with_reducible repeat' (first | assumption | apply rx_kept)

theorem execAtpRepeat_kept {s0 t : State} (path qp psn key offset conn n : Nat) (fin marked : Bool) (s : State) (he : execAtpRepeat path qp psn
    key offset conn n fin marked s = .next t) (hK : Kept s0 s) : Kept s0 t := by
  unfold execAtpRepeat at he
  injection he with he
  subst he
  with_reducible repeat' (first | assumption | apply rx_kept)

theorem execBadAvenfyPacket_kept {s0 t : State} (path qp st : Nat) (s : State) (he : execBadAvenfyPacket path qp st s = .next t) (hK : Kept s0 s)
    : Kept s0 t := by
  unfold execBadAvenfyPacket at he
  injection he with he
  subst he
  with_reducible repeat' (first
    | assumption | intro _ | apply setReg_kept | apply bump_kept | apply setRegBit_kept | apply raiseVector_kept | apply countRx_kept
    | apply Kept_ite)

theorem takeRequest_kept {s0 : State} (q : Nat) (mine : Nat → Bool) (s : State) (hK : Kept s0 s) : Kept s0 (State.takeRequest q mine s) := by
  unfold State.takeRequest
  with_reducible repeat' (first
    | assumption | intro _ | apply askTranslations_kept | apply dropFailed_kept | apply busError_kept | apply modQp_kept | apply takeEnded_kept
    | apply readSpan_kept | apply pump_kept | apply Kept_ite | split | refine Kept_snd2 (by assumption) ?_)

theorem execWrWrite_kept {s0 t : State} (qp : Nat) (s : State) (he : execWrWrite qp s = .next t) (hK : Kept s0 s) : Kept s0 t := by
  unfold execWrWrite at he
  injection he with he
  subst he
  with_reducible repeat' (first | assumption | apply takeRequest_kept)

theorem execWrWriteLast_kept {s0 t : State} (qp : Nat) (s : State) (he : execWrWriteLast qp s = .next t) (hK : Kept s0 s) : Kept s0 t := by
  unfold execWrWriteLast at he
  injection he with he
  subst he
  with_reducible repeat' (first | assumption | apply takeRequest_kept)

theorem execWrRead_kept {s0 t : State} (qp : Nat) (s : State) (he : execWrRead qp s = .next t) (hK : Kept s0 s) : Kept s0 t := by
  unfold execWrRead at he
  injection he with he
  subst he
  with_reducible repeat' (first | assumption | apply takeRequest_kept)

theorem execWrRepeat_kept {s0 t : State} (qp : Nat) (s : State) (he : execWrRepeat qp s = .next t) (hK : Kept s0 s) : Kept s0 t := by
  unfold execWrRepeat at he
  injection he with he
  subst he
  with_reducible repeat' (first | assumption | apply takeRequest_kept)

theorem execWorkRequestComplete_kept {s0 t : State} (qp : Nat) (s : State) (he : execWorkRequestComplete qp s = .next t) (hK : Kept s0 s) : Kept
    s0 t := by
  unfold execWorkRequestComplete at he
  injection he with he
  subst he
  with_reducible repeat' (first
    | assumption | intro _ | apply notifyCq_kept | apply modQp_kept | apply settleDrain_kept | apply deliverRecord_kept | apply Kept_ite | split
    | simp only [Kept_mk_iff])

theorem execRepeatTimerExpiry_kept {s0 t : State} (qp : Nat) (s : State) (he : execRepeatTimerExpiry qp s = .next t) (hK : Kept s0 s) : Kept s0 t
    := by
  unfold execRepeatTimerExpiry at he
  injection he with he
  subst he
  with_reducible repeat' (first
    | assumption | intro _ | apply modQp_kept | apply errorQp_kept | apply sendPsn_kept | apply Kept_ite | split | simp only [Kept_mk_iff])

theorem execAckDelayExpiry_kept {s0 t : State} (qp : Nat) (s : State) (he : execAckDelayExpiry qp s = .next t) (hK : Kept s0 s) : Kept s0 t := by
  unfold execAckDelayExpiry at he
  injection he with he
  subst he
  with_reducible repeat' (first | assumption | intro _ | apply sendAck_kept | apply Kept_ite | split)

theorem execRateIncreaseExpiry_kept {s0 t : State} (qp : Nat) (s : State) (he : execRateIncreaseExpiry qp s = .next t) (hK : Kept s0 s) : Kept s0
    t := by
  unfold execRateIncreaseExpiry at he
  injection he with he
  subst he
  with_reducible repeat' (first | assumption | intro _ | apply modQp_kept | apply Kept_ite)

theorem execAtpRegionSync_kept {s0 t : State} (index : Nat) (s : State) (he : execAtpRegionSync index s = .next t) (hK : Kept s0 s) : Kept s0 t :=
    by
  unfold execAtpRegionSync at he
  injection he with he
  subst he
  with_reducible repeat' (first | assumption | apply syncRegion_kept)

theorem execAtpRevoke_kept {s0 t : State} (key : Nat) (s : State) (he : execAtpRevoke key s = .next t) (hK : Kept s0 s) : Kept s0 t := by
  unfold execAtpRevoke at he
  injection he with he
  subst he
  with_reducible repeat' (first | assumption | apply revokeKey_kept)

theorem execRevocationComplete_kept {s0 t : State} (index : Nat) (s : State) (he : execRevocationComplete index s = .next t) (hK : Kept s0 s) :
    Kept s0 t := by
  unfold execRevocationComplete at he
  injection he with he
  subst he
  with_reducible repeat' (first | assumption | apply freeRegion_kept)

theorem execQpReady_kept {s0 t : State} (qp : Nat) (setup : Option (List Byte)) (s : State) (he : execQpReady qp setup s = .next t) (hK : Kept s0
    s) : Kept s0 t := by
  unfold execQpReady at he
  injection he with he
  subst he
  with_reducible repeat' (first | assumption | apply busError_kept | apply modQp_kept | apply readyQp_kept | split)

theorem execQpDrain_kept {s0 t : State} (qp : Nat) (s : State) (he : execQpDrain qp s = .next t) (hK : Kept s0 s) : Kept s0 t := by
  unfold execQpDrain at he
  injection he with he
  subst he
  with_reducible repeat' (first | assumption | apply drainQp_kept)

theorem execQpReset_kept {s0 t : State} (qp : Nat) (s : State) (he : execQpReset qp s = .next t) (hK : Kept s0 s) : Kept s0 t := by
  unfold execQpReset at he
  injection he with he
  subst he
  with_reducible repeat' (first | assumption | apply resetQp_kept)

theorem loadFailed_kept {s0 : State} (l : CtxLoad) (s : State) (hK : Kept s0 s) : Kept s0 (State.loadFailed l s) := by
  unfold State.loadFailed
  with_reducible repeat' (first
    | assumption | intro _ | apply bump_kept | apply modQp_kept | apply errorQp_kept | apply Kept_ite | apply Keeps_of | simp only [Kept_mk_iff])

theorem execContextLoadComplete_kept {s0 t : State} (qp : Nat) (image : Option (List Byte)) (s : State) (he : execContextLoadComplete qp image s =
    .next t) (hK : Kept s0 s) : Kept s0 t := by
  unfold execContextLoadComplete at he
  injection he with he
  subst he
  with_reducible repeat' (first
    | assumption | intro _ | apply modQp_kept | apply readyQp_kept | apply rxOnChip_kept | apply loadFailed_kept | apply Kept_ite | apply Keeps_of
    | apply Kept_foldl | split | simp only [Kept_mk_iff])

theorem writeImage_kept {s0 : State} (q : Nat) (s : State) (hK : Kept s0 s) : Kept s0 (State.writeImage q s) := by
  unfold State.writeImage
  with_reducible repeat' (first | assumption | apply performWrite_kept | apply freeBytes_kept)

theorem execEvictionWriteBackComplete_kept {s0 t : State} (qp : Nat) (ok : Bool) (s : State) (he : execEvictionWriteBackComplete qp ok s = .next
    t) (hK : Kept s0 s) : Kept s0 t := by
  unfold execEvictionWriteBackComplete at he
  injection he with he
  subst he
  with_reducible repeat' (first
    | assumption | intro _ | apply loadFailed_kept | apply writeImage_kept | apply Kept_ite | apply Keeps_of | split | simp only [Kept_mk_iff])

theorem cutTwin_kept {s0 : State} (s : State) (hK : Kept s0 s) : Kept s0 (State.cutTwin s) := by
  unfold State.cutTwin
  with_reducible repeat' (first | assumption | intro _ | apply revokeRange_kept | apply resetQp_kept | apply Kept_ite | apply Kept_foldl)

/-! ### Branch -/

theorem branch_kept {s0 : State} (k : Nat) (taken : Bool) (off : BitVec 16) (s : State) (hK : Kept s0 s) : Kept s0 (State.branch k taken off s) :=
    by
  unfold State.branch
  with_reducible repeat' (first | assumption | intro _ | apply jump_kept | apply advance_kept | apply Kept_ite)

theorem branchG_kept {s0 : State} (k : Nat) (a b : BitVec 5) (off : BitVec 16) (f : Word64 → Word64 → Bool) (s : State) (hK : Kept s0 s) : Kept s0
    (State.branchG k a b off f s) := by
  unfold State.branchG
  with_reducible repeat' (first | assumption | intro _ | apply instr_kept | apply branch_kept)

theorem branchP_kept {s0 : State} (k : Nat) (p : BitVec 3) (off : BitVec 16) (f : Word64 → Bool) (s : State) (hK : Kept s0 s) : Kept s0
    (State.branchP k p off f s) := by
  unfold State.branchP
  with_reducible repeat' (first | assumption | intro _ | apply raise_kept | apply instr_kept | apply branch_kept | apply Kept_ite)

theorem execBeq_kept {s0 t : State} (k : Nat) (a b : BitVec 5) (off : BitVec 16) (s : State) (he : execBeq k a b off s = .next t) (hK : Kept s0 s)
    : Kept s0 t := by
  unfold execBeq at he
  injection he with he
  subst he
  with_reducible repeat' (first | assumption | apply branchG_kept)

theorem execBne_kept {s0 t : State} (k : Nat) (a b : BitVec 5) (off : BitVec 16) (s : State) (he : execBne k a b off s = .next t) (hK : Kept s0 s)
    : Kept s0 t := by
  unfold execBne at he
  injection he with he
  subst he
  with_reducible repeat' (first | assumption | apply branchG_kept)

theorem execBlt_kept {s0 t : State} (k : Nat) (a b : BitVec 5) (off : BitVec 16) (s : State) (he : execBlt k a b off s = .next t) (hK : Kept s0 s)
    : Kept s0 t := by
  unfold execBlt at he
  injection he with he
  subst he
  with_reducible repeat' (first | assumption | apply branchG_kept)

theorem execBge_kept {s0 t : State} (k : Nat) (a b : BitVec 5) (off : BitVec 16) (s : State) (he : execBge k a b off s = .next t) (hK : Kept s0 s)
    : Kept s0 t := by
  unfold execBge at he
  injection he with he
  subst he
  with_reducible repeat' (first | assumption | apply branchG_kept)

theorem execBltu_kept {s0 t : State} (k : Nat) (a b : BitVec 5) (off : BitVec 16) (s : State) (he : execBltu k a b off s = .next t) (hK : Kept s0
    s) : Kept s0 t := by
  unfold execBltu at he
  injection he with he
  subst he
  with_reducible repeat' (first | assumption | apply branchG_kept)

theorem execBgeu_kept {s0 t : State} (k : Nat) (a b : BitVec 5) (off : BitVec 16) (s : State) (he : execBgeu k a b off s = .next t) (hK : Kept s0
    s) : Kept s0 t := by
  unfold execBgeu at he
  injection he with he
  subst he
  with_reducible repeat' (first | assumption | apply branchG_kept)

theorem execBpany_kept {s0 t : State} (k : Nat) (p : BitVec 3) (off : BitVec 16) (s : State) (he : execBpany k p off s = .next t) (hK : Kept s0 s)
    : Kept s0 t := by
  unfold execBpany at he
  injection he with he
  subst he
  with_reducible repeat' (first | assumption | apply branchP_kept)

theorem execBpnone_kept {s0 t : State} (k : Nat) (p : BitVec 3) (off : BitVec 16) (s : State) (he : execBpnone k p off s = .next t) (hK : Kept s0
    s) : Kept s0 t := by
  unfold execBpnone at he
  injection he with he
  subst he
  with_reducible repeat' (first | assumption | apply branchP_kept)

theorem link_kept {s0 : State} (k : Nat) (d : BitVec 5) (target : Nat) (s : State) (hK : Kept s0 s) : Kept s0 (State.link k d target s) := by
  unfold State.link
  with_reducible repeat' (first | assumption | apply modCore_kept | apply jump_kept)

theorem execCall_kept {s0 t : State} (k : Nat) (d : BitVec 5) (index : BitVec 16) (s : State) (he : execCall k d index s = .next t) (hK : Kept s0
    s) : Kept s0 t := by
  unfold execCall at he
  injection he with he
  subst he
  with_reducible repeat' (first | assumption | intro _ | apply instr_kept | apply link_kept)

theorem execCallr_kept {s0 t : State} (k : Nat) (d a : BitVec 5) (imm : BitVec 16) (s : State) (he : execCallr k d a imm s = .next t) (hK : Kept
    s0 s) : Kept s0 t := by
  unfold execCallr at he
  injection he with he
  subst he
  with_reducible repeat' (first | assumption | intro _ | apply instr_kept | apply link_kept)

/-! ### Catalogue -/

theorem countNodes_kept {s0 : State} (u n : Nat) (s : State) (hK : Kept s0 s) : Kept s0 (State.countNodes u n s) := by
  unfold State.countNodes
  with_reducible repeat' (first | assumption | apply bump64_kept)

theorem endSearch_kept {s0 : State} (u : Nat) (f : Found) (node : Nat) (c : Cmd) (s : State) (hK : Kept s0 s) : Kept s0 (State.endSearch u f node
    c s).2 := by
  unfold State.endSearch
  with_reducible repeat' (first | assumption | apply bump_kept | apply engineError_kept | split)

theorem runWalk_kept {s0 : State} (u : Nat) (c : Cmd) (s : State) (hK : Kept s0 s) : Kept s0 (State.runWalk u c s).2 := by
  unfold State.runWalk
  with_reducible repeat' (first
    | assumption | apply writeSpan_kept | apply engineError_kept | apply countNodes_kept | apply endSearch_kept | split | simp only [Kept_mk_iff])

theorem execCatWalk_kept {s0 t : State} (u : Nat) (s : State) (he : execCatWalk u s = .next t) (hK : Kept s0 s) : Kept s0 t := by
  unfold execCatWalk at he
  injection he with he
  subst he
  with_reducible repeat' (first | assumption | intro _ | apply engineEvent_kept | apply checkBlock_kept | apply runWalk_kept | apply Kept_ite)

theorem runFind_kept {s0 : State} (u : Nat) (c : Cmd) (s : State) (hK : Kept s0 s) : Kept s0 (State.runFind u c s).2 := by
  unfold State.runFind
  with_reducible repeat' (first
    | assumption | intro _ | apply writeSpan_kept | apply engineError_kept | apply countNodes_kept | apply endSearch_kept | apply Kept_ite2 | split
    | simp only [Kept_mk_iff])

theorem execCatFind_kept {s0 t : State} (u : Nat) (s : State) (he : execCatFind u s = .next t) (hK : Kept s0 s) : Kept s0 t := by
  unfold execCatFind at he
  injection he with he
  subst he
  with_reducible repeat' (first | assumption | intro _ | apply engineEvent_kept | apply checkBlock_kept | apply runFind_kept | apply Kept_ite)

theorem runProbe_kept {s0 : State} (u : Nat) (c : Cmd) (s : State) (hK : Kept s0 s) : Kept s0 (State.runProbe u c s).2 := by
  unfold State.runProbe
  with_reducible repeat' (first | assumption | apply readSpan_kept | apply engineError_kept | split | refine Kept_snd2 (by assumption) ?_)

theorem execCatProbe_kept {s0 t : State} (u : Nat) (s : State) (he : execCatProbe u s = .next t) (hK : Kept s0 s) : Kept s0 t := by
  unfold execCatProbe at he
  injection he with he
  subst he
  with_reducible repeat' (first | assumption | intro _ | apply engineEvent_kept | apply checkBlock_kept | apply runProbe_kept | apply Kept_ite)

theorem runScore_kept {s0 : State} (u : Nat) (c : Cmd) (s : State) (hK : Kept s0 s) : Kept s0 (State.runScore u c s).2 := by
  unfold State.runScore
  with_reducible repeat' (first
    | assumption | apply readSpan_kept | apply writeSpan_kept | apply engineError_kept | split | refine Kept_snd2 (by assumption) ?_
    | simp only [Kept_mk_iff])

theorem execCatScore_kept {s0 t : State} (u : Nat) (s : State) (he : execCatScore u s = .next t) (hK : Kept s0 s) : Kept s0 t := by
  unfold execCatScore at he
  injection he with he
  subst he
  with_reducible repeat' (first | assumption | intro _ | apply engineEvent_kept | apply checkBlock_kept | apply runScore_kept | apply Kept_ite)

theorem catOutput_kept {s0 : State} (u : Nat) (c : Cmd) (s : State) (hK : Kept s0 s) : Kept s0 (State.catOutput u c s).2 := by
  unfold State.catOutput
  with_reducible repeat' (first | assumption | intro _ | apply readSpan_kept | apply openCount_kept | apply countNodes_kept | apply Kept_ite2)

theorem stopCat_kept {s0 : State} (u : Nat) (c : Cmd) (s : State) (hK : Kept s0 s) : Kept s0 (State.stopCat u c s).2 := by
  unfold State.stopCat
  with_reducible repeat' (first | assumption | apply writeSome_kept | apply catOutput_kept)

theorem execCatAssistFence_kept {s0 t : State} (src u : Nat) (s : State) (he : execCatAssistFence src u s = .next t) (hK : Kept s0 s) : Kept s0 t
    := by
  unfold execCatAssistFence at he
  injection he with he
  subst he
  with_reducible repeat' (first | assumption | intro _ | apply afterFence_kept | apply fenceUnit_kept | apply Kept_ite)

end Sys2Proof.Machine
end

