-- ==== Sys2Proof/Laws/KeptMedia.lean ====
section
/-! SUPPORT. `Kept` of row work, relocation, rebuild, landing, placement, checkpoints, replay and streams. -/

set_option maxRecDepth 10000

namespace Sys2Proof.Machine

/-! ### Rowwork -/

theorem openOn_kept {s0 : State} (purpose : Nat) (pos : List (Nat × Nat)) (s : State) (hK : Kept s0 s) : Kept s0 (State.openOn purpose pos s) := by
  unfold State.openOn
  with_reducible repeat' (first | assumption | intro _ | apply queueItems_kept | apply setGroupMode_kept | apply Kept_foldl)

theorem openQuire_kept {s0 : State} (purpose d : Nat) (avoid : List Nat) (s : State) (hK : Kept s0 s) : Kept s0 (State.openQuire purpose d avoid
    s) := by
  unfold State.openQuire
  with_reducible repeat' (first | assumption | intro _ | apply openOn_kept | apply Kept_ite | split)

theorem ensureQuire_kept {s0 : State} (purpose : Nat) (s : State) (hK : Kept s0 s) : Kept s0 (State.ensureQuire purpose s) := by
  unfold State.ensureQuire
  with_reducible repeat' (first | assumption | intro _ | apply openQuire_kept | apply Kept_ite)

theorem failErase_kept {s0 : State} (queue : Nat) (g : Nat × Nat) (s : State) (hK : Kept s0 s) : Kept s0 (State.failErase queue g s) := by
  unfold State.failErase
  with_reducible repeat' (first
    | assumption | intro _ | apply modCar_kept | apply countMedia_kept | apply useSequencer_kept | apply Kept_ite | split)

theorem execQuireOpen_kept {s0 t : State} (o : QuireOpening) (s : State) (he : execQuireOpen o s = .next t)
    (hK : Kept s0 s) : Kept s0 t := by
  unfold execQuireOpen at he
  injection he with he
  subst he
  with_reducible repeat' (first | assumption | intro _ | apply ensureQuire_kept | apply failErase_kept | apply Kept_ite | apply Kept_foldl)

theorem noteFreed_kept {s0 : State} (no : Nat) (s : State) (hK : Kept s0 s) : Kept s0 (State.noteFreed no s) := by
  unfold State.noteFreed
  with_reducible repeat' (first | assumption | apply modHeader_kept | apply Keeps_of | simp only [Kept_mk_iff])

theorem queueStaged_kept {s0 : State} (e : Staged) (s : State) (hK : Kept s0 s) : Kept s0 (State.queueStaged e s) := by
  unfold State.queueStaged
  with_reducible repeat' (first | assumption | apply queueItems_kept | apply noteFreed_kept | apply Keeps_of | simp only [Kept_mk_iff])

theorem unstage_kept {s0 : State}  (x0 : Nat) (x1 : Nat) (x2 : State) (hK : Kept s0 x2) : Kept s0 (State.unstage x0 x1 x2) := by
  revert hK
  fun_induction State.unstage <;> intro hK <;> (with_reducible repeat' (first | assumption | apply Kept_foldl | apply_assumption))

theorem settleOne_kept {s0 : State} {s : State} {u} (hu : (State.settleOne s) = some u) (hK : Kept s0 s) : Kept s0 u := by
  unfold State.settleOne at hu
  (try generalize a / 0x100000 = o9 at hu)
  (try dsimp only at hu)
  (repeat' split at hu) <;> (try simp only [Option.some.injEq, reduceCtorEq] at hu) <;> (try subst hu) <;> (with_reducible repeat' (first
    | assumption | apply queueStaged_kept | apply unstage_kept))

theorem settleStaged_kept {s0 : State}  (x0 : Nat) (x1 : State) (hK : Kept s0 x1) : Kept s0 (State.settleStaged x0 x1) := by
  revert hK
  fun_induction State.settleStaged <;> intro hK <;> (with_reducible repeat' (first
    | assumption | refine settleOne_kept (by assumption) ?_ | apply_assumption))

theorem Press_next_kept {s0 : State} (p : Press) (hK : Kept s0 p.s) : Kept s0 (Press.next p).2.s := by
  unfold Press.next
  with_reducible repeat' (first | assumption)

theorem folioDurable_kept {s0 : State} (f : Folio) (shelf : Shelf) (s : State) (hK : Kept s0 s) : Kept s0 (State.folioDurable f shelf s) := by
  unfold State.folioDurable
  with_reducible repeat' (first | assumption | apply queueItems_kept | apply Keeps_of | split | simp only [Kept_mk_iff])

theorem noteFailures_kept {s0 : State} (q : Nat) (failed : List Nat) (s : State) (hK : Kept s0 s) : Kept s0 (State.noteFailures q failed s) := by
  unfold State.noteFailures
  with_reducible repeat' (first
    | assumption | intro _ | apply queueItems_kept | apply Kept_ite | apply Keeps_of | apply Kept_foldl | split | simp only [Kept_mk_iff])

theorem Press_writeRow_kept {s0 : State} (q : Nat) (p : Press) (hK : Kept s0 p.s) : Kept s0 (Press.writeRow q p).s := by
  unfold Press.writeRow
  with_reducible repeat' (first
    | assumption | intro _ | apply queueItems_kept | apply programRow_kept | apply settleStaged_kept | apply folioDurable_kept
    | apply noteFailures_kept | apply Kept_ite | apply Keeps_of | apply Kept_foldl | apply Kept_iteP (π := Press.s) | split
    | simp only [Kept_mk_iff])

theorem Press_addFolio_kept {s0 : State} (f : Folio) (x0 : Nat) (x1 : Press) (hK : Kept s0 x1.s) : Kept s0 (Press.addFolio f x0 x1).s := by
  revert hK
  fun_induction Press.addFolio <;> intro hK <;> (with_reducible repeat' (first
    | assumption | apply ensureQuire_kept | apply Press_writeRow_kept | apply_assumption))

theorem Press_drainWaiting_kept {s0 : State} (p : Press) (hK : Kept s0 p.s) : Kept s0 (Press.drainWaiting p).s := by
  unfold Press.drainWaiting
  with_reducible repeat' (first
    | assumption | intro _ | apply Press_addFolio_kept | apply Keeps_of | apply Kept_foldlP (π := Press.s) | simp only [Kept_mk_iff])

theorem execRowPadAgeExpiry_kept {s0 t : State} (q : Nat) (failed : List Nat) (s : State) (he : execRowPadAgeExpiry q failed s = .next t) (hK :
    Kept s0 s) : Kept s0 t := by
  unfold execRowPadAgeExpiry at he
  injection he with he
  subst he
  with_reducible repeat' (first | assumption | intro _ | apply Press_writeRow_kept | apply Press_drainWaiting_kept | apply Kept_ite)

/-! ### Erase -/

theorem retireGroup_kept {s0 : State} (carrier egroup : Nat) (s : State) (hK : Kept s0 s) : Kept s0 (State.retireGroup carrier egroup s) := by
  unfold State.retireGroup
  with_reducible repeat' (first | assumption | apply modCar_kept | apply useSequencer_kept | split)

theorem wipeGroup_kept {s0 : State} (carrier egroup : Nat) (ok : Bool) (s : State) (hK : Kept s0 s) : Kept s0 (State.wipeGroup carrier egroup ok
    s) := by
  unfold State.wipeGroup
  with_reducible repeat' (first
    | assumption | intro _ | apply modCar_kept | apply countMedia_kept | apply useSequencer_kept | apply retireGroup_kept | apply Kept_ite | split)

theorem askErase_kept {s0 : State} (q carrier egroup : Nat) (retire : Bool) (s : State) (hK : Kept s0 s) : Kept s0 (State.askErase q carrier
    egroup retire s) := by
  unfold State.askErase
  with_reducible repeat' (first | assumption | intro _ | apply tellPartner_kept | apply Kept_ite | apply Keeps_of | simp only [Kept_mk_iff])

theorem eraseOne_kept {s0 : State} (q carrier egroup : Nat) (ok : Bool) (s : State) (hK : Kept s0 s) : Kept s0 (State.eraseOne q carrier egroup ok
    s) := by
  unfold State.eraseOne
  with_reducible repeat' (first | assumption | intro _ | apply wipeGroup_kept | apply askErase_kept | apply Kept_ite)

theorem retireOne_kept {s0 : State} (q carrier egroup : Nat) (s : State) (hK : Kept s0 s) : Kept s0 (State.retireOne q carrier egroup s) := by
  unfold State.retireOne
  with_reducible repeat' (first | assumption | intro _ | apply retireGroup_kept | apply askErase_kept | apply Kept_ite)

theorem execEraseAfterFree_kept {s0 t : State} (q : Nat) (failed : List Nat) (s : State) (he : execEraseAfterFree q failed s = .next t) (hK : Kept
    s0 s) : Kept s0 t := by
  unfold execEraseAfterFree at he
  injection he with he
  subst he
  with_reducible repeat' (first | assumption | intro _ | apply eraseOne_kept | apply Kept_ite | apply Kept_foldl)

theorem serveErase_kept {s0 : State} (r : EraseReq) (s : State) (hK : Kept s0 s) : Kept s0 (State.serveErase r s) := by
  unfold State.serveErase
  with_reducible repeat' (first
    | assumption | intro _ | apply tellPartner_kept | apply retireGroup_kept | apply wipeGroup_kept | apply Kept_ite | apply Keeps_of
    | simp only [Kept_mk_iff])

theorem takeErase_kept {s0 : State} (r : EraseReq) (s : State) (hK : Kept s0 s) : Kept s0 (State.takeErase r s) := by
  unfold State.takeErase
  with_reducible repeat' (first | assumption | intro _ | apply serveErase_kept | apply Kept_ite | apply Keeps_of | simp only [Kept_mk_iff])

theorem serveErases_kept {s0 : State} (s : State) (hK : Kept s0 s) : Kept s0 (State.serveErases s) := by
  unfold State.serveErases
  with_reducible repeat' (first | assumption | intro _ | apply serveErase_kept | apply Kept_ite | apply Kept_foldl)

theorem erased_kept {s0 : State} (r : EraseReq) (s : State) (hK : Kept s0 s) : Kept s0 (State.erased r s) := by
  unfold State.erased
  with_reducible repeat' (first
    | assumption | intro _ | apply retireGroup_kept | apply wipeGroup_kept | apply Kept_ite | apply Keeps_of | simp only [Kept_mk_iff])

theorem execEraseRequestRepeat_kept {s0 t : State} (s : State) (he : execEraseRequestRepeat s = .next t) (hK : Kept s0 s) : Kept s0 t := by
  unfold execEraseRequestRepeat at he
  injection he with he
  subst he
  with_reducible repeat' (first | assumption | apply tellPartner_kept | apply Keeps_of | split | simp only [Kept_mk_iff])

/-! ### Landing -/

theorem modCmd_kept {s0 : State} (c cid : Nat) (f : NCmd → NCmd) (s : State) (hK : Kept s0 s) : Kept s0 (State.modCmd c cid f s) := by
  unfold State.modCmd
  with_reducible repeat' (first | assumption | apply modConn_kept)

theorem addCmd_kept {s0 : State} (c : Nat) (n : NCmd) (s : State) (hK : Kept s0 s) : Kept s0 (State.addCmd c n s) := by
  unfold State.addCmd
  with_reducible repeat' (first | assumption | apply modConn_kept)

theorem endLoose_kept {s0 : State} (st : Nat) (p : Nat → Bool) (s : State) (hK : Kept s0 s) : Kept s0 (State.endLoose st p s) := by
  unfold State.endLoose
  with_reducible repeat' (first | assumption | intro _ | apply failWrite_kept | apply Kept_foldl)

theorem append_kept {s0 : State} (no : Nat) (s : State) (hK : Kept s0 s) : Kept s0 (State.append no s) := by
  unfold State.append
  with_reducible repeat' (first | assumption | apply putHeader_kept | apply mirrorEntry_kept | apply Keeps_of | split | simp only [Kept_mk_iff])

theorem holdP_kept {s0 : State} (c cid : Nat) (s : State) (hK : Kept s0 s) : Kept s0 (State.hold' c cid s) := by
  unfold State.hold'
  with_reducible repeat' (first | assumption | intro _ | apply Kept_ite | apply Keeps_of | simp only [Kept_mk_iff])

theorem askData_kept {s0 : State} (c cid no off len : Nat) (s : State) (hK : Kept s0 s) : Kept s0 (State.askData c cid no off len s) := by
  unfold State.askData
  with_reducible repeat' (first | assumption | apply sendPdu_kept)

theorem advanceWrite_kept {s0 : State} (c cid : Nat) (x0 : Nat) (x1 : State) (hK : Kept s0 x1) : Kept s0 (State.advanceWrite c cid x0 x1) := by
  induction x0 generalizing x1 with
  | zero => exact hK
  | succ fuel ih =>
    rw [State.advanceWrite]
    split
    · exact hK
    · rename_i n _
      split
      · exact hK
      · split
        · split
          · exact ih _ (modCmd_kept _ _ _ _ hK)
          · split
            · exact respond_kept _ _ _ _ _ hK
            · exact modCmd_kept _ _ _ _ hK
        · split
          · exact failWrite_kept _ _ _ _ hK
          · exact hK
          · rename_i ns _ _
            dsimp only
            generalize (if (n.opcode == 1) = true then min 512 (n.nblk - n.next) else 0) = slots
            generalize (if (n.opcode == 1) = true then x1.reservationOf (min 512 (n.nblk - n.next)) else 0) = res
            split
            · exact holdP_kept _ _ _ hK
            · split
              · exact failWrite_kept _ _ _ _ hK
              · have h1 : ∀ (h : Header) (slots : Nat) (o : Option (Nat × Nat)) (b : Bool) (r : Nat), Kept s0 (x1.allocate h slots o b r).2 :=
                  fun h slots o b r => allocate_kept _ _ _ _ _ _ hK
                generalize hx : State.allocate _ _ _ _ _ _ = x
                have h2 : Kept s0 x.2 := hx ▸ h1 _ _ _ _ _
                have h3 : ∀ f, Kept s0 (x.2.modCmd c cid f) := fun f => modCmd_kept _ _ _ _ h2
                split
                · exact ih _ (append_kept _ _ (h3 _))
                · split
                  · exact askData_kept _ _ _ _ _ _ (h3 _)
                  · split
                    · exact failWrite_kept _ _ _ _ (h3 _)
                    · exact ih _ (modCmd_kept _ _ _ _ (append_kept _ _ (useDma_kept _ _ _ (performWrite_kept _ _ _ (h3 _)))))

theorem goOn_kept {s0 : State} (c cid : Nat) (s : State) (hK : Kept s0 s) : Kept s0 (State.goOn c cid s) := by
  unfold State.goOn
  with_reducible repeat' (first | assumption | apply advanceWrite_kept | split)

theorem execBufferSpaceReturn_kept {s0 t : State} (s : State) (he : execBufferSpaceReturn s = .next t) (hK : Kept s0 s) : Kept s0 t := by
  unfold execBufferSpaceReturn at he
  injection he with he
  subst he
  with_reducible repeat' (first | assumption | intro _ | apply goOn_kept | apply Kept_ite | apply Keeps_of | split | simp only [Kept_mk_iff])

theorem dataWhole_kept {s0 : State} (c cid no fails : Nat) (s : State) (hK : Kept s0 s) : Kept s0 (State.dataWhole c cid no fails s) := by
  unfold State.dataWhole
  with_reducible repeat' (first
    | assumption | intro _ | apply failWrite_kept | apply useDma_kept | apply modCmd_kept | apply append_kept | apply goOn_kept | apply Kept_ite
    | split)

theorem intake_kept {s0 : State} (no : Nat) (h : Header) (o : Nat) (data : List Byte) (s : State) (hK : Kept s0 s) : Kept s0 (State.intake no h o
    data s) := by
  unfold State.intake
  with_reducible repeat' (first | assumption | apply performWrite_kept | apply modRing_kept)

theorem execH2cData_kept {s0 t : State} (c tag off : Nat) (data : List Byte) (last plenOk headerOk dataOk : Bool) (fails : Nat) (s : State) (he :
    execH2cData c tag off data last plenOk headerOk dataOk fails s = .next t) (hK : Kept s0 s) : Kept s0 t := by
  unfold execH2cData at he
  injection he with he
  subst he
  with_reducible repeat' (first
    | assumption | intro _ | apply heardPdu_kept | apply failWrite_kept | apply nvtError_kept | apply terminate_kept | apply dataWhole_kept
    | apply intake_kept | apply Kept_ite | split)

theorem execNvmeWrite_kept {s0 t : State} (c cid nsid slba nblk : Nat) (data : Option (List Byte)) (sgl : Nat) (dataOk : Bool) (fails : Nat) (s :
    State) (he : execNvmeWrite c cid nsid slba nblk data sgl dataOk fails s = .next t) (hK : Kept s0 s) : Kept s0 t := by
  unfold execNvmeWrite at he
  injection he with he
  subst he
  with_reducible repeat' (first
    | assumption | intro _ | apply respond_kept | apply onNamespace_kept | apply nvtError_kept | apply addCmd_kept | apply goOn_kept
    | apply Kept_ite | split)

theorem execWriteZeroes_kept {s0 t : State} (c cid nsid slba nblk : Nat) (deac : Bool) (s : State) (he : execWriteZeroes c cid nsid slba nblk deac
    s = .next t) (hK : Kept s0 s) : Kept s0 t := by
  unfold execWriteZeroes at he
  injection he with he
  subst he
  with_reducible repeat' (first
    | assumption | intro _ | apply respond_kept | apply onNamespace_kept | apply addCmd_kept | apply goOn_kept | apply Kept_ite)

theorem execDatasetManagement_kept {s0 t : State} (c cid nsid : Nat) (ad : Bool) (ranges : List (Nat × Nat)) (s : State) (he :
    execDatasetManagement c cid nsid ad ranges s = .next t) (hK : Kept s0 s) : Kept s0 t := by
  unfold execDatasetManagement at he
  injection he with he
  subst he
  with_reducible repeat' (first
    | assumption | intro _ | apply respond_kept | apply onNamespace_kept | apply addCmd_kept | apply goOn_kept | apply Kept_ite)

theorem flush_kept {s0 : State} (c cid nsid : Nat) (s : State) (hK : Kept s0 s) : Kept s0 (State.flush c cid nsid s) := by
  unfold State.flush
  with_reducible repeat' (first | assumption | intro _ | apply respond_kept | apply addCmd_kept | apply Kept_ite)

theorem execNvmeFlush_kept {s0 t : State} (c cid nsid : Nat) (s : State) (he : execNvmeFlush c cid nsid s = .next t) (hK : Kept s0 s) : Kept s0 t
    := by
  unfold execNvmeFlush at he
  injection he with he
  subst he
  with_reducible repeat' (first | assumption | intro _ | apply onQueue_kept | apply onNamespace_kept | apply flush_kept | apply Kept_ite)

theorem logError_kept {s0 : State} (c cid st lba nsid : Nat) (s : State) (hK : Kept s0 s) : Kept s0 (State.logError c cid st lba nsid s) := by
  unfold State.logError
  with_reducible repeat' (first | assumption | apply Keeps_of | simp only [Kept_mk_iff])

theorem serveRead_kept {s0 : State} (c cid nsid slba nblk : Nat) (seen : Seen) (s : State) (hK : Kept s0 s) : Kept s0 (State.serveRead c cid nsid
    slba nblk seen s) := by
  unfold State.serveRead
  with_reducible repeat' (first
    | assumption | apply respond_kept | apply readRange_kept | apply sendDataP_kept | apply logError_kept | split
    | refine Kept_snd2 (by assumption) ?_)

theorem execNvmeRead_kept {s0 t : State} (c cid nsid slba nblk : Nat) (seen : Seen) (s : State) (he : execNvmeRead c cid nsid slba nblk seen s =
    .next t) (hK : Kept s0 s) : Kept s0 t := by
  unfold execNvmeRead at he
  injection he with he
  subst he
  with_reducible repeat' (first
    | assumption | intro _ | apply respond_kept | apply onNamespace_kept | apply addCmd_kept | apply serveRead_kept | apply Kept_ite | split)

/-! ### Placement -/

theorem stat_kept {s0 : State} (i : Nat) (s : State) (hK : Kept s0 s) : Kept s0 (State.stat i s) := by
  unfold State.stat
  with_reducible repeat' (first | assumption | apply Keeps_of | simp only [Kept_mk_iff])

theorem readyCids_kept {s0 : State} (s : State) (hK : Kept s0 s) : Kept s0 (State.readyCids s).2 := by
  unfold State.readyCids
  with_reducible repeat' (first | assumption | intro _ | apply Keeps_of | apply Kept_ite2 | simp only [Kept_mk_iff])

theorem takeCid_kept {s0 : State} (s : State) (hK : Kept s0 s) : Kept s0 (State.takeCid s).2 := by
  unfold State.takeCid
  with_reducible repeat' (first | assumption | apply Keeps_of | simp only [Kept_mk_iff])

theorem dropBad_kept {s0 : State} (bad : List (Nat × Nat)) (s : State) (hK : Kept s0 s) : Kept s0 (State.dropBad bad s) := by
  unfold State.dropBad
  with_reducible repeat' (first
    | assumption | intro _ | apply stat_kept | apply Kept_ite | apply Keeps_of | apply Kept_foldl | simp only [Kept_mk_iff])

theorem countHit_kept {s0 : State} (i : Nat) (e : DedupEntry) (s : State) (hK : Kept s0 s) : Kept s0 (State.countHit i e s) := by
  unfold State.countHit
  with_reducible repeat' (first | assumption | intro _ | apply stat_kept | apply Kept_ite)

theorem probeMemory_kept {s0 : State} (domain : Nat) (fp : List Byte) (s : State) (hK : Kept s0 s) : Kept s0 (State.probeMemory domain fp s).2 := by
  unfold State.probeMemory
  with_reducible repeat' (first | assumption | intro _ | apply insertEntry_kept | apply countHit_kept | apply Kept_ite2 | split)

theorem lookup_kept {s0 : State} (tier2 : Bool) (domain : Nat) (fp : List Byte) (s : State) (hK : Kept s0 s) : Kept s0 (State.lookup tier2 domain
    fp s).2 := by
  unfold State.lookup
  with_reducible repeat' (first
    | assumption | intro _ | apply insertEntry_kept | apply stat_kept | apply countHit_kept | apply probeMemory_kept | apply Kept_ite2 | split
    | refine Kept_snd (by assumption) ?_)

theorem pendingBlock_kept {s0 : State} (seen : Seen) (mine : List Survivor) (cid : Nat) (s : State) (hK : Kept s0 s) : Kept s0 (State.pendingBlock
    seen mine cid s).2 := by
  unfold State.pendingBlock
  with_reducible repeat' (first | assumption | apply entryBlock_kept | split)

theorem candidate_kept {s0 : State} (seen : Seen) (mine : List Survivor) (cid : Nat) (s : State) (hK : Kept s0 s) : Kept s0 (State.candidate seen
    mine cid s).2 := by
  unfold State.candidate
  with_reducible repeat' (first | assumption | apply fetchCid_kept | apply pendingBlock_kept | split | refine Kept_snd (by assumption) ?_)

theorem confirmMatch_kept {s0 : State} (seen : Seen) (archive : Bool) (mine : List Survivor) (block : List Byte) (e : DedupEntry) (s : State) (hK
    : Kept s0 s) : Kept s0 (State.confirmMatch seen archive mine block e s).2 := by
  unfold State.confirmMatch
  with_reducible repeat' (first
    | assumption | intro _ | apply stat_kept | apply candidate_kept | apply Kept_ite2 | split | refine Kept_snd (by assumption) ?_)

theorem Placing_map_kept {s0 : State} (lba : Nat) (m : Mapped) (p : Placing) (hK : Kept s0 p.s) : Kept s0 (Placing.map lba m p).s := by
  unfold Placing.map
  with_reducible repeat' (first | assumption)

theorem Placing_survive_kept {s0 : State} (lba domain : Nat) (data fp : List Byte) (p : Placing) (hK : Kept s0 p.s) : Kept s0 (Placing.survive lba
    domain data fp p).s := by
  unfold Placing.survive
  with_reducible repeat' (first | assumption | apply insertEntry_kept | apply takeCid_kept | apply Placing_map_kept)

theorem Placing_decide_kept {s0 : State} (seen : Seen) (tier2 archive : Bool) (domain lba : Nat) (data : List Byte) (p : Placing) (hK : Kept s0
    p.s) : Kept s0 (Placing.decide seen tier2 archive domain lba data p).s := by
  unfold Placing.decide
  with_reducible repeat' (first
    | assumption | intro _ | apply stat_kept | apply lookup_kept | apply confirmMatch_kept | apply Placing_map_kept | apply Placing_survive_kept
    | apply Kept_iteP (π := Placing.s) | split | refine Kept_snd (by assumption) ?_)

theorem Placing_blocksP_kept {s0 : State} (seen : Seen) (tier2 : Bool) (base : Nat) (h : Header) (x0 x1 : Nat) (x2 : Placing) (hK : Kept s0 x2.s)
    : Kept s0 (Placing.blocks' seen tier2 base h x0 x1 x2).s := by
  induction x0 generalizing x1 x2 with
  | zero => exact hK
  | succ n ih =>
    rw [Placing.blocks']
    have h1 := entryBlock_kept seen base h x1 x2.s hK
    generalize State.entryBlock seen base h x1 x2.s = x at h1 ⊢
    obtain ⟨b, t⟩ := x
    cases b with
    | none =>
      apply ih
      exact Placing_map_kept _ _ _ (recordDeferred_kept _ _ _ _ _ _ h1)
    | some data =>
      apply ih
      exact Placing_decide_kept _ _ _ _ _ _ _ h1

theorem encryptWith_kept {s0 : State} (i q : Nat) (f : Folio) (s : State) (hK : Kept s0 s) : Kept s0 (State.encryptWith i q f s).2 := by
  unfold State.encryptWith
  with_reducible repeat' (first
    | assumption | apply claimUses_kept | apply useXts_kept | apply touchSlot_kept | split | refine Kept_snd (by assumption) ?_)

theorem encryptFolio_kept {s0 : State} (f : Folio) (s : State) (hK : Kept s0 s) : Kept s0 (State.encryptFolio f s).2 := by
  unfold State.encryptFolio
  with_reducible repeat' (first | assumption | apply encryptWith_kept | split | refine Kept_snd (by assumption) ?_)

theorem Press_takeFolio_kept {s0 : State} (f : Folio) (p : Press) (hK : Kept s0 p.s) : Kept s0 (Press.takeFolio f p).s := by
  unfold Press.takeFolio
  with_reducible repeat' (first
    | assumption | apply Press_addFolio_kept | apply encryptFolio_kept | apply Keeps_of | split | refine Kept_snd (by assumption) ?_
    | simp only [Kept_mk_iff])

theorem Press_placeBlocks_kept {s0 : State} (seen : Seen) (tier2 : Bool) (base : Nat) (h : Header) (p : Press) (hK : Kept s0 p.s) : Kept s0
    (Press.placeBlocks seen tier2 base h p).s := by
  unfold Press.placeBlocks
  with_reducible repeat' (first
    | assumption | intro _ | apply useDigest_kept | apply useAssist_kept | apply useCoder_kept | apply settleStaged_kept
    | apply Placing_blocksP_kept | apply Press_takeFolio_kept | apply Kept_ite | apply Keeps_of | apply Kept_foldlP (π := Press.s) | split
    | simp only [Kept_mk_iff])

theorem place_kept {s0 : State} (seen : Seen) (fails : List (List Nat)) (tier2 : Option Bool) (base : Nat) (h : Header) (s : State) (hK : Kept s0
    s) : Kept s0 (State.place seen fails tier2 base h s) := by
  unfold State.place
  with_reducible repeat' (first
    | assumption | intro _ | apply useDigest_kept | apply ensureQuire_kept | apply noteFreed_kept | apply Press_drainWaiting_kept
    | apply readyCids_kept | apply dropBad_kept | apply Press_placeBlocks_kept | apply Kept_ite | apply Keeps_of | simp only [Kept_mk_iff])

theorem startOver_kept {s0 : State} (s : State) (hK : Kept s0 s) : Kept s0 (State.startOver s) := by
  unfold State.startOver
  with_reducible repeat' (first
    | assumption | intro _ | apply unstage_kept | apply Kept_ite | apply Keeps_of | apply Kept_foldl | simp only [Kept_mk_iff])

theorem execPlaceEntry_kept {s0 t : State} (seen : Seen) (fails : List (List Nat)) (s : State) (he : execPlaceEntry seen fails s = .next t) (hK :
    Kept s0 s) : Kept s0 t := by
  unfold execPlaceEntry at he
  injection he with he
  subst he
  with_reducible repeat' (first
    | assumption | intro _ | apply Press_drainWaiting_kept | apply place_kept | apply startOver_kept | apply Kept_ite | split
    | simp only [Kept_mk_iff])

theorem execTier2Deadline_kept {s0 t : State} (seen : Seen) (fails : List (List Nat)) (s : State) (he : execTier2Deadline seen fails s = .next t)
    (hK : Kept s0 s) : Kept s0 t := by
  unfold execTier2Deadline at he
  injection he with he
  subst he
  with_reducible repeat' (first | assumption | intro _ | apply place_kept | apply Kept_ite | split)

theorem takeGeneration_kept {s0 : State} (domain g : Nat) (s : State) (hK : Kept s0 s) : Kept s0 (State.takeGeneration domain g s) := by
  unfold State.takeGeneration
  with_reducible repeat' (first
    | assumption | intro _ | apply retireSlot_kept | apply fillSlot_kept | apply Keeps_of | apply Kept_foldl | split
    | refine Kept_snd (by assumption) ?_ | simp only [Kept_mk_iff])

theorem newGeneration_kept {s0 : State} (domain : Nat) (s : State) (hK : Kept s0 s) : Kept s0 (State.newGeneration domain s) := by
  unfold State.newGeneration
  with_reducible repeat' (first
    | assumption | intro _ | apply queueItems_kept | apply takeGeneration_kept | apply Kept_ite | apply Keeps_of | split | simp only [Kept_mk_iff])

theorem execNewKeyGeneration_kept {s0 t : State} (domain : Nat) (s : State) (he : execNewKeyGeneration domain s = .next t) (hK : Kept s0 s) : Kept
    s0 t := by
  unfold execNewKeyGeneration at he
  injection he with he
  subst he
  with_reducible repeat' (first | assumption | intro _ | apply newGeneration_kept | apply Kept_ite)

theorem execHeldFoliosResend_kept {s0 t : State} (domain : Nat) (fails : List (List Nat)) (s : State) (he : execHeldFoliosResend domain fails s =
    .next t) (hK : Kept s0 s) : Kept s0 t := by
  unfold execHeldFoliosResend at he
  injection he with he
  subst he
  with_reducible repeat' (first
    | assumption | intro _ | apply Press_takeFolio_kept | apply Kept_ite | apply Keeps_of | apply Kept_foldlP (π := Press.s)
    | simp only [Kept_mk_iff])

/-! ### Checkpoints -/

theorem openReserve_kept {s0 : State} (s : State) (hK : Kept s0 s) : Kept s0 (State.openReserve s).2 := by
  unfold State.openReserve
  with_reducible repeat' (first | assumption | intro _ | apply openOn_kept | apply Kept_foldl2 | split | simp only [Kept_mk_iff])

theorem openCheckpointQuire_kept {s0 : State} (other : List Nat) (s : State) (hK : Kept s0 s) : Kept s0 (State.openCheckpointQuire other s).2 := by
  unfold State.openCheckpointQuire
  with_reducible repeat' (first | assumption | apply openOn_kept | split | simp only [Kept_mk_iff])

theorem openForCheckpoint_kept {s0 : State} (c : Checkpoint) (s : State) (hK : Kept s0 s) : Kept s0 (State.openForCheckpoint c s).2 := by
  unfold State.openForCheckpoint
  with_reducible repeat' (first | assumption | intro _ | apply openCheckpointQuire_kept | apply Kept_ite2 | split)

theorem beginCheckpoint_kept {s0 : State} (n : Nat) (s : State) (hK : Kept s0 s) : Kept s0 (State.beginCheckpoint n s) := by
  unfold State.beginCheckpoint
  with_reducible repeat' (first
    | assumption | apply openReserve_kept | apply openForCheckpoint_kept | apply Keeps_of | split | refine Kept_snd (by assumption) ?_
    | simp only [Kept_mk_iff])

theorem Press_programPages_kept {s0 : State} (q : Nat) (data : Nat → List Byte) (x0 : Nat) (x1 : Press) (hK : Kept s0 x1.s) : Kept s0
    (Press.programPages q data x0 x1).2.s := by
  induction x0 generalizing x1 with
  | zero => exact hK
  | succ n ih =>
    rw [Press.programPages]
    dsimp only
    split
    · exact hK
    · have h1 := fun f => programRow_kept 3 q f (data (x1.s.rowsNext q)) _ (Press_next_kept _ hK)
      split
      · exact queueItems_kept _ _ (h1 _)
      · apply ih
        apply noteFailures_kept
        simp only [Kept_mk_iff]
        exact h1 _

theorem Press_writeNodes_kept {s0 : State} (q : Nat) (x0 : Nat) (x1 : List Nat) (x2 : Checkpoint) (x3 : Press) (hK : Kept s0 x3.s) : Kept s0
    (Press.writeNodes q x0 x1 x2 x3).2.2.s := by
  induction x0 generalizing x1 x2 x3 with
  | zero => exact hK
  | succ n ih =>
    rw [Press.writeNodes]
    dsimp only
    split
    · exact hK
    · generalize hd : (fun row => State.pageRow _ _ _ _ _ _ _ _) = data
      have h1 := Press_programPages_kept q data 64 x3 hK
      split
      · rename_i heq; rw [heq] at h1; exact h1
      · rename_i heq; rw [heq] at h1; exact ih _ _ _ h1

theorem Press_writeUnits_kept {s0 : State} (head seq q unit : Nat) (last : Bool) (x0 : List (List (Nat × List Byte))) (x1 : Option Nat) (x2 :
    Press) (hK : Kept s0 x2.s) : Kept s0 (Press.writeUnits head seq q unit last x0 x1 x2).2.s := by
  induction x0 generalizing x1 x2 with
  | nil => cases x1 <;> exact hK
  | cons a t ih =>
    rw [Press.writeUnits]
    generalize hd : (fun row => State.pageRow _ _ _ _ _ _ _ _) = data
    have h1 := Press_programPages_kept q data 64 x2 hK
    split
    · rename_i heq; rw [heq] at h1; exact h1
    · rename_i heq; rw [heq] at h1; exact ih _ _ h1

theorem Press_writeTable_kept {s0 : State} (q : Nat) (c : Checkpoint) (p : Press) (hK : Kept s0 p.s) : Kept s0 (Press.writeTable q c p).2.s := by
  unfold Press.writeTable
  with_reducible repeat' (first | assumption | apply Press_writeUnits_kept)

theorem Press_writeSecondTable_kept {s0 : State} (c : Checkpoint) (p : Press) (hK : Kept s0 p.s) : Kept s0 (Press.writeSecondTable c p).2.s := by
  unfold Press.writeSecondTable
  with_reducible repeat' (first | assumption | apply Press_writeTable_kept | split)

theorem Press_writeState_kept {s0 : State} (q : Nat) (c : Checkpoint) (p : Press) (hK : Kept s0 p.s) : Kept s0 (Press.writeState q c p).2.s := by
  unfold Press.writeState
  with_reducible repeat' (first | assumption | apply takeFrees_kept | apply Press_writeUnits_kept)

theorem pick_kept {s0 : State} (b : Bool) (x : Checkpoint × Press) (y : Bool × Checkpoint) (p : Press) (c : Prop) [Decidable c] (hx : Kept s0
    x.2.s) (hp : Kept s0 p.s) :
    Kept s0 (if c then (b, x) else (y.1, y.2, p)).2.2.s := by
  split
  · exact hx
  · exact hp

theorem Press_writeCheckpoint_kept {s0 : State} (q : Nat) (c : Checkpoint) (p : Press) (hK : Kept s0 p.s) : Kept s0 (Press.writeCheckpoint q c
    p).2.2.s := by
  unfold Press.writeCheckpoint
  have h1 := Press_writeNodes_kept q (c.cat.nodes.length + 1) c.cat.allNodes c p hK
  refine pick_kept _ _ _ _ _ h1 ?_
  generalize Press.writeNodes q (c.cat.nodes.length + 1) c.cat.allNodes c p = nodes at h1 ⊢
  exact Press_writeState_kept _ _ _ (Press_writeSecondTable_kept _ _ (Press_writeTable_kept _ _ _ h1))

theorem writeAnchors_kept {s0 : State} (header : List Byte) (ok : Nat → Bool) (s : State) (hK : Kept s0 s) : Kept s0 (State.writeAnchors header ok
    s) := by
  unfold State.writeAnchors
  with_reducible repeat' (first
    | assumption | intro _ | apply modCar_kept | apply countMedia_kept | apply useSequencer_kept | apply Kept_ite | apply Kept_foldl | split)

theorem rebuildTier2_kept {s0 : State} (s : State) (hK : Kept s0 s) : Kept s0 (State.rebuildTier2 s) := by
  unfold State.rebuildTier2
  with_reducible repeat' (first | assumption | intro _ | apply Kept_ite | apply Keeps_of | simp only [Kept_mk_iff])

theorem mergeIndex_kept {s0 : State} (c : Catalogue) (s : State) (hK : Kept s0 s) : Kept s0 (State.mergeIndex c s) := by
  unfold State.mergeIndex
  with_reducible repeat' (first | assumption | apply rebuildTier2_kept | apply Keeps_of | simp only [Kept_mk_iff])

theorem dropFreed_kept {s0 : State} (c : Checkpoint) (s : State) (hK : Kept s0 s) : Kept s0 (State.dropFreed c s) := by
  unfold State.dropFreed
  with_reducible repeat' (first | assumption | apply Keeps_of | simp only [Kept_mk_iff])

theorem checkpointDone_kept {s0 : State} (c : Checkpoint) (s : State) (hK : Kept s0 s) : Kept s0 (State.checkpointDone c s) := by
  unfold State.checkpointDone
  with_reducible repeat' (first
    | assumption | apply queueItems_kept | apply mergeIndex_kept | apply dropFreed_kept | apply Keeps_of | simp only [Kept_mk_iff])

theorem freeAdopted_kept {s0 : State} (through : Nat) (s : State) (hK : Kept s0 s) : Kept s0 (State.freeAdopted through s) := by
  unfold State.freeAdopted
  with_reducible repeat' (first | assumption | intro _ | apply modHeader_kept | apply Kept_foldl)

theorem freeCovered_kept {s0 : State} (partnerHas : Bool) (s : State) (hK : Kept s0 s) : Kept s0 (State.freeCovered partnerHas s) := by
  unfold State.freeCovered
  with_reducible repeat' (first | assumption | intro _ | apply freeSegments_kept | apply freeAdopted_kept | apply Kept_ite | split)

theorem noteDrained_kept {s0 : State} (s : State) (hK : Kept s0 s) : Kept s0 (State.noteDrained s) := by
  unfold State.noteDrained
  with_reducible repeat' (first | assumption | intro _ | apply Kept_ite | apply Keeps_of | simp only [Kept_mk_iff])

theorem writeCheckpointHeader_kept {s0 : State} (fails : List Nat) (partnerHas : Bool) (c : Checkpoint) (s : State) (hK : Kept s0 s) : Kept s0
    (State.writeCheckpointHeader fails partnerHas c s) := by
  unfold State.writeCheckpointHeader
  with_reducible repeat' (first
    | assumption | intro _ | apply writeAnchors_kept | apply checkpointDone_kept | apply freeCovered_kept | apply Kept_ite)

theorem execCheckpointHeaderWrite_kept {s0 t : State} (fails : CheckpointFails) (partnerHas : Bool) (s : State) (he :
    execCheckpointHeaderWrite fails partnerHas s = .next t) (hK : Kept s0 s) : Kept s0 t := by
  unfold execCheckpointHeaderWrite at he
  injection he with he
  subst he
  with_reducible repeat' (first
    | assumption | intro _ | apply openCheckpointQuire_kept | apply openForCheckpoint_kept | apply Press_writeCheckpoint_kept
    | apply freeCovered_kept | apply noteDrained_kept | apply writeCheckpointHeader_kept | apply Kept_ite | apply Keeps_of | split
    | refine Kept_snd (by assumption) ?_ | simp only [Kept_mk_iff])

theorem markDeparted_kept {s0 : State} (h : Header) (s : State) (hK : Kept s0 s) : Kept s0 (State.markDeparted h s) := by
  unfold State.markDeparted
  with_reducible repeat' (first | assumption | apply Keeps_of | simp only [Kept_mk_iff])

theorem returnFreed_kept {s0 : State} (n : Nat) (s : State) (hK : Kept s0 s) : Kept s0 (State.returnFreed n s) := by
  unfold State.returnFreed
  with_reducible repeat' (first
    | assumption | intro _ | apply freeEntry_kept | apply leaveHeader_kept | apply markDeparted_kept | apply Kept_ite | apply Kept_foldl)

theorem freeEmpty_kept {s0 : State} (s : State) (hK : Kept s0 s) : Kept s0 (State.freeEmpty s) := by
  unfold State.freeEmpty
  with_reducible repeat' (first | assumption | apply queueItems_kept | apply Keeps_of | simp only [Kept_mk_iff])

theorem freeDeleted_kept {s0 : State} (s : State) (hK : Kept s0 s) : Kept s0 (State.freeDeleted s) := by
  unfold State.freeDeleted
  with_reducible repeat' (first | assumption | intro _ | apply noteFreed_kept | apply unstage_kept | apply Kept_foldl)

theorem walkViews_kept {s0 : State} (s : State) (hK : Kept s0 s) : Kept s0 (State.walkViews s) := by
  unfold State.walkViews
  with_reducible repeat' (first | assumption | intro _ | apply queueItems_kept | apply Kept_foldl)

theorem deleteOrphans_kept {s0 : State} (s : State) (hK : Kept s0 s) : Kept s0 (State.deleteOrphans s) := by
  unfold State.deleteOrphans
  with_reducible repeat' (first | assumption | apply queueItems_kept)

theorem noteNamespaces_kept {s0 : State} (items : List (List Byte)) (s : State) (hK : Kept s0 s) : Kept s0 (State.noteNamespaces items s) := by
  unfold State.noteNamespaces
  with_reducible repeat' (first | assumption | intro _ | apply postEvent_kept | apply Kept_ite | apply Kept_foldl)

/-! ### RingRun -/

theorem onRing_kept {s0 : State} (r op : Nat) (body : List Byte → State → State) (s : State) (hK : Kept s0 s) (hb0 : ∀ (a0 : List Byte) (a1 :
    State), Kept s0 a1 → Kept s0 (body a0 a1)) : Kept s0 (State.onRing r op body s) := by
  unfold State.onRing
  with_reducible repeat' (first | assumption | intro _ | apply hb0 | apply Kept_ite | split)

theorem onRingData_kept {s0 : State} (r op : Nat) (data : Option (List Byte)) (body : List Byte → List Byte → State → State) (s : State) (hK :
    Kept s0 s) (hb0 : ∀ (a0 : List Byte) (a1 : List Byte) (a2 : State), Kept s0 a2 → Kept s0 (body a0 a1 a2)) : Kept s0 (State.onRingData r op
    data body s) := by
  unfold State.onRingData
  with_reducible repeat' (first | assumption | intro _ | apply hb0 | apply crComplete_kept | apply onRing_kept | split)

theorem ringWait_kept {s0 : State} (r : Nat) (s : State) (hK : Kept s0 s) : Kept s0 (State.ringWait r s) := by
  unfold State.ringWait
  with_reducible repeat' (first | assumption | apply modCring_kept)

/-! ### Seals -/

theorem orderSnapshot_kept {s0 : State} (nsid : Nat) (label : List Byte) (kind : Nat) (reply peer : Option Nat) (ack : Option (Nat × Nat × Nat))
    (s : State) (hK : Kept s0 s) : Kept s0 (State.orderSnapshot nsid label kind reply peer ack s) := by
  unfold State.orderSnapshot
  with_reducible repeat' (first | assumption | apply Keeps_of | simp only [Kept_mk_iff])

theorem execCrSnapshot_kept {s0 t : State} (r : Nat) (data : Option (List Byte)) (s : State) (he : execCrSnapshot r data s = .next t) (hK : Kept
    s0 s) : Kept s0 t := by
  unfold execCrSnapshot at he
  injection he with he
  subst he
  with_reducible repeat' (first
    | assumption | intro _ | apply crComplete_kept | apply onRingData_kept | apply ringWait_kept | apply orderSnapshot_kept | apply Kept_ite)

theorem execSnapshotItemQueue_kept {s0 t : State} (nsid : Nat) (s : State) (he : execSnapshotItemQueue nsid s = .next t) (hK : Kept s0 s) : Kept
    s0 t := by
  unfold execSnapshotItemQueue at he
  injection he with he
  subst he
  with_reducible repeat' (first
    | assumption | intro _ | apply queueItems_kept | apply queueAnswered_kept | apply Kept_ite | apply Keeps_of | split | simp only [Kept_mk_iff])

theorem execCrViewDelete_kept {s0 t : State} (r : Nat) (s : State) (he : execCrViewDelete r s = .next t) (hK : Kept s0 s) : Kept s0 t := by
  unfold execCrViewDelete at he
  injection he with he
  subst he
  with_reducible repeat' (first
    | assumption | intro _ | apply crComplete_kept | apply queueAnswered_kept | apply onRing_kept | apply ringWait_kept | apply Kept_ite | split)

theorem putSeal_kept {s0 : State} (j : SealJob) (s : State) (hK : Kept s0 s) : Kept s0 (State.putSeal j s) := by
  unfold State.putSeal
  with_reducible repeat' (first | assumption | apply Keeps_of | simp only [Kept_mk_iff])

theorem startSeal_kept {s0 : State} (v : View) (ring : Option Nat) (s : State) (hK : Kept s0 s) : Kept s0 (State.startSeal v ring s) := by
  unfold State.startSeal
  with_reducible repeat' (first | assumption | apply tellPartner_kept | apply openCheckpointQuire_kept | apply putSeal_kept)

theorem handManifest_kept {s0 : State} (j : SealJob) (items : List (List Byte)) (s : State) (hK : Kept s0 s) : Kept s0 (State.handManifest j items
    s) := by
  unfold State.handManifest
  with_reducible repeat' (first
    | assumption | intro _ | apply hostWrite_kept | apply crFinish_kept | apply queueItems_kept | apply queueAnswered_kept | apply Kept_ite
    | apply Kept_ite2 | split)

theorem sealed_kept {s0 : State} (j : SealJob) (q first rows : Nat) (s : State) (hK : Kept s0 s) : Kept s0 (State.sealed j q first rows s) := by
  unfold State.sealed
  with_reducible repeat' (first | assumption | apply handManifest_kept | apply Keeps_of | simp only [Kept_mk_iff])

theorem advanceSeal_kept {s0 : State} (fails : List (List Nat)) (j : SealJob) (s : State) (hK : Kept s0 s) : Kept s0 (State.advanceSeal fails j s)
    := by
  unfold State.advanceSeal
  split
  · split
    · exact hK
    · exact putSeal_kept _ _ (openCheckpointQuire_kept _ _ hK)
  · rename_i q _
    split
    · exact putSeal_kept _ _ hK
    · split
      · split
        · exact hK
        · exact putSeal_kept _ _ hK
      · split
        · exact queueItems_kept _ _ hK
        · dsimp only
          generalize pageRows _ _ = l
          have h1 := Press_writeUnits_kept s.headNo s.checkpointSeq q 4 false l none { s := s, fails := fails } hK
          generalize Press.writeUnits _ _ q 4 false l none _ = w at h1 ⊢
          obtain ⟨r, p⟩ := w
          cases r with
          | none => exact putSeal_kept _ _ (queueItems_kept _ _ h1)
          | some x => exact sealed_kept _ _ _ _ _ h1

theorem advanceSeals_kept {s0 : State} (fails : List (List Nat)) (s : State) (hK : Kept s0 s) : Kept s0 (State.advanceSeals fails s) := by
  unfold State.advanceSeals
  with_reducible repeat' (first
    | assumption | intro _ | apply startSeal_kept | apply advanceSeal_kept | apply Keeps_of | apply Kept_foldl | simp only [Kept_mk_iff])

theorem execCrSeal_kept {s0 t : State} (r : Nat) (s : State) (he : execCrSeal r s = .next t) (hK : Kept s0 s) : Kept s0 t := by
  unfold execCrSeal at he
  injection he with he
  subst he
  with_reducible repeat' (first
    | assumption | intro _ | apply crComplete_kept | apply onRing_kept | apply ringWait_kept | apply startSeal_kept | apply Kept_ite | split)

/-! ### Stack -/

theorem takeRegistrar_kept {s0 : State} (s : State) (hK : Kept s0 s) : Kept s0 (State.takeRegistrar s) := by
  unfold State.takeRegistrar
  with_reducible repeat' (first | assumption | intro _ | apply bump64_kept | apply Kept_ite | apply Keeps_of | simp only [Kept_mk_iff])

theorem leaveRegistrar_kept {s0 : State} (s : State) (hK : Kept s0 s) : Kept s0 (State.leaveRegistrar s) := by
  unfold State.leaveRegistrar
  with_reducible repeat' (first | assumption | apply Keeps_of | simp only [Kept_mk_iff])

theorem execStackSyncPulse_kept {s0 t : State} (s : State) (he : execStackSyncPulse s = .next t) (hK : Kept s0 s) : Kept s0 t := by
  unfold execStackSyncPulse at he
  injection he with he
  subst he
  with_reducible repeat' (first | assumption | intro _ | apply Kept_ite | apply Keeps_of | simp only [Kept_mk_iff])

theorem edgeOrders_kept {s0 : State} (k : Nat) (s : State) (hK : Kept s0 s) : Kept s0 (State.edgeOrders k s) := by
  unfold State.edgeOrders
  with_reducible repeat' (first
    | assumption | intro _ | apply orderSnapshot_kept | apply Kept_ite | apply Keeps_of | apply Kept_foldl | simp only [Kept_mk_iff])

theorem execStackSyncEdge_kept {s0 t : State} (high : Nat) (s : State) (he : execStackSyncEdge high s = .next t) (hK : Kept s0 s) : Kept s0 t := by
  unfold execStackSyncEdge at he
  injection he with he
  subst he
  with_reducible repeat' (first
    | assumption | intro _ | apply bump_kept | apply bump64_kept | apply edgeOrders_kept | apply Kept_ite | apply Keeps_of
    | simp only [Kept_mk_iff])

theorem execStackSyncSilence_kept {s0 t : State} (s : State) (he : execStackSyncSilence s = .next t) (hK : Kept s0 s) : Kept s0 t := by
  unfold execStackSyncSilence at he
  injection he with he
  subst he
  with_reducible repeat' (first | assumption | intro _ | apply takeRegistrar_kept | apply Kept_ite)

theorem execCrStackSnapshot_kept {s0 t : State} (r : Nat) (data : Option (List Byte)) (s : State) (he : execCrStackSnapshot r data s = .next t)
    (hK : Kept s0 s) : Kept s0 t := by
  unfold execCrStackSnapshot at he
  injection he with he
  subst he
  with_reducible repeat' (first
    | assumption | intro _ | apply crComplete_kept | apply tellPartner_kept | apply onRingData_kept | apply Kept_ite | apply Keeps_of
    | simp only [Kept_mk_iff])

/-! ### Replay -/

theorem replayQuire_kept {s0 : State} (seen : Seen) (q : Nat) (s : State) (hK : Kept s0 s) : Kept s0 (State.replayQuire seen q s) := by
  unfold State.replayQuire
  with_reducible repeat' (first | assumption | apply queueItems_kept)

theorem replayParity_kept {s0 : State} (seen : Seen) (parity : Nat) (s : State) (hK : Kept s0 s) : Kept s0 (State.replayParity seen parity s) := by
  unfold State.replayParity
  with_reducible repeat' (first | assumption | intro _ | apply replayQuire_kept | apply Kept_foldl)

theorem applyRecords_kept {s0 : State} (n : Nat) (own other : List (List Byte)) (s : State) (hK : Kept s0 s) : Kept s0 (State.applyRecords n own
    other s) := by
  unfold State.applyRecords
  with_reducible repeat' (first | assumption | intro _ | apply applyLists_kept | apply Kept_ite)

theorem replayJournal_kept {s0 : State} (solo : Option Nat) (x0 : Nat) (x1 : State) (hK : Kept s0 x1) : Kept s0 (State.replayJournal solo x0 x1)
    := by
  revert hK
  fun_induction State.replayJournal <;> intro hK <;> (with_reducible repeat' (first | assumption | apply applyRecords_kept | apply_assumption))

theorem raiseEntries_kept {s0 : State} (high : Nat) (s : State) (hK : Kept s0 s) : Kept s0 (State.raiseEntries high s) := by
  unfold State.raiseEntries
  with_reducible repeat' (first | assumption | apply Keeps_of | simp only [Kept_mk_iff])

theorem raiseBatches_kept {s0 : State} (high : Nat) (s : State) (hK : Kept s0 s) : Kept s0 (State.raiseBatches high s) := by
  unfold State.raiseBatches
  with_reducible repeat' (first | assumption | apply Keeps_of | simp only [Kept_mk_iff])

theorem settleRegion_kept {s0 : State} (base : Nat) (s : State) (hK : Kept s0 s) : Kept s0 (State.settleRegion base s) := by
  unfold State.settleRegion
  with_reducible repeat' (first | assumption | intro _ | apply modHeader_kept | apply Kept_foldl)

theorem rebuildRing_kept {s0 : State} (s : State) (hK : Kept s0 s) : Kept s0 (State.rebuildRing s) := by
  unfold State.rebuildRing
  with_reducible repeat' (first | assumption | apply Keeps_of | simp only [Kept_mk_iff])

theorem adoptMirror_kept {s0 : State} (c : Nat) (s : State) (hK : Kept s0 s) : Kept s0 (State.adoptMirror c s) := by
  unfold State.adoptMirror
  with_reducible repeat' (first | assumption | intro _ | apply modHeader_kept | apply Kept_foldl)

theorem clearRegions_kept {s0 : State} (s : State) (hK : Kept s0 s) : Kept s0 (State.clearRegions s) := by
  unfold State.clearRegions
  with_reducible repeat' (first | assumption | apply Keeps_of | apply Keeps_filterMem | simp only [Kept_mk_iff])

/-! ### Health -/

theorem sendCustody_kept {s0 : State} (type cycle : Nat) (s : State) (hK : Kept s0 s) : Kept s0 (State.sendCustody type cycle s) := by
  unfold State.sendCustody
  with_reducible repeat' (first | assumption | apply sendTwin_kept | apply Keeps_of | simp only [Kept_mk_iff])

theorem endAwait_kept {s0 : State} (s : State) (hK : Kept s0 s) : Kept s0 (State.endAwait s) := by
  unfold State.endAwait
  with_reducible repeat' (first | assumption | apply Keeps_of | simp only [Kept_mk_iff])

theorem answerCustody_kept {s0 : State} (msg : List Byte) (type reason cycle : Nat) (s : State) (hK : Kept s0 s) : Kept s0 (State.answerCustody
    msg type reason cycle s) := by
  unfold State.answerCustody
  with_reducible repeat' (first | assumption | apply sendTwin_kept | apply Keeps_of | simp only [Kept_mk_iff])

theorem deliverReport_kept {s0 : State} (b : List Byte) (s : State) (hK : Kept s0 s) : Kept s0 (State.deliverReport b s) := by
  unfold State.deliverReport
  with_reducible repeat' (first
    | assumption | intro _ | apply raiseVector_kept | apply hostWrite_kept | apply Kept_ite | apply Keeps_of | simp only [Kept_mk_iff])

theorem execHeartbeatSend_kept {s0 t : State} (s : State) (he : execHeartbeatSend s = .next t) (hK : Kept s0 s) : Kept s0 t := by
  unfold execHeartbeatSend at he
  injection he with he
  subst he
  with_reducible repeat' (first | assumption | intro _ | apply emit_kept | apply Kept_ite | apply Keeps_of | simp only [Kept_mk_iff])

theorem offerReady_kept {s0 : State} (s : State) (hK : Kept s0 s) : Kept s0 (State.offerReady s) := by
  unfold State.offerReady
  with_reducible repeat' (first | assumption | intro _ | apply sendCustody_kept | apply Kept_ite)

theorem execHealthReportBuild_kept {s0 t : State} (s : State) (he : execHealthReportBuild s = .next t) (hK : Kept s0 s) : Kept s0 t := by
  unfold execHealthReportBuild at he
  injection he with he
  subst he
  with_reducible repeat' (first
    | assumption | intro _ | apply sendTwin_kept | apply deliverReport_kept | apply offerReady_kept | apply Kept_ite | apply Keeps_of
    | simp only [Kept_mk_iff])

/-! ### Relocate -/

theorem Press_moveFolio_kept {s0 : State} (seen : Seen) (taken : List Nat) (q purpose f : Nat) (p : Press) (hK : Kept s0 p.s) : Kept s0
    (Press.moveFolio seen taken q purpose f p).s := by
  unfold Press.moveFolio
  with_reducible repeat' (first
    | assumption | intro _ | apply queueItems_kept | apply useAssist_kept | apply queueLost_kept | apply useFetch_kept | apply Press_addFolio_kept
    | apply Kept_iteP (π := Press.s) | split | simp only [Kept_mk_iff])

theorem Press_relocate_kept {s0 : State} (seen : Seen) (taken : List (Nat × List Nat)) (q purpose : Nat) (p : Press) (hK : Kept s0 p.s) : Kept s0
    (Press.relocate seen taken q purpose p).s := by
  unfold Press.relocate
  with_reducible repeat' (first
    | assumption | intro _ | apply Press_moveFolio_kept | apply Keeps_of | apply Kept_foldlP (π := Press.s) | simp only [Kept_mk_iff])

theorem judgeFolding_kept {s0 : State} (s : State) (hK : Kept s0 s) : Kept s0 (State.judgeFolding s) := by
  unfold State.judgeFolding
  with_reducible repeat' (first | assumption | apply Keeps_of | split | simp only [Kept_mk_iff])

theorem Press_fold_kept {s0 : State} (seen : Seen) (x0 : Nat) (x1 : Press) (hK : Kept s0 x1.s) : Kept s0 (Press.fold seen x0 x1).s := by
  revert hK
  fun_induction Press.fold <;> intro hK <;> (with_reducible repeat' (first | assumption | apply Press_relocate_kept | apply_assumption))

theorem execFoldStart_kept {s0 t : State} (seen : Seen) (fails : List (List Nat)) (s : State) (he : execFoldStart seen fails s = .next t) (hK :
    Kept s0 s) : Kept s0 t := by
  unfold execFoldStart at he
  injection he with he
  subst he
  with_reducible repeat' (first
    | assumption | intro _ | apply Press_drainWaiting_kept | apply judgeFolding_kept | apply Press_fold_kept | apply Kept_ite)

theorem judgeWeeding_kept {s0 : State} (s : State) (hK : Kept s0 s) : Kept s0 (State.judgeWeeding s) := by
  unfold State.judgeWeeding
  with_reducible repeat' (first | assumption | apply Keeps_of | split | simp only [Kept_mk_iff])

theorem Press_weed_kept {s0 : State} (seen : Seen) (x0 : Nat) (x1 : Press) (hK : Kept s0 x1.s) : Kept s0 (Press.weed seen x0 x1).s := by
  revert hK
  fun_induction Press.weed <;> intro hK <;> (with_reducible repeat' (first
    | assumption | apply useAssist_kept | apply Press_relocate_kept | apply_assumption))

theorem execWeedingStart_kept {s0 t : State} (seen : Seen) (fails : List (List Nat)) (s : State) (he : execWeedingStart seen fails s = .next t)
    (hK : Kept s0 s) : Kept s0 t := by
  unfold execWeedingStart at he
  injection he with he
  subst he
  with_reducible repeat' (first
    | assumption | intro _ | apply Press_drainWaiting_kept | apply judgeFolding_kept | apply judgeWeeding_kept | apply Press_weed_kept
    | apply Kept_ite)

theorem judgeLeveling_kept {s0 : State} (s : State) (hK : Kept s0 s) : Kept s0 (State.judgeLeveling s) := by
  unfold State.judgeLeveling
  with_reducible repeat' (first | assumption | apply Keeps_of | simp only [Kept_mk_iff])

theorem execWearLevelStart_kept {s0 t : State} (seen : Seen) (fails : List (List Nat)) (s : State) (he : execWearLevelStart seen fails s = .next
    t) (hK : Kept s0 s) : Kept s0 t := by
  unfold execWearLevelStart at he
  injection he with he
  subst he
  with_reducible repeat' (first
    | assumption | intro _ | apply Press_drainWaiting_kept | apply Press_relocate_kept | apply judgeFolding_kept | apply judgeWeeding_kept
    | apply judgeLeveling_kept | apply Kept_ite | split)

/-! ### Rebuild -/

theorem dropRebuilds_kept {s0 : State} (q : Nat) (s : State) (hK : Kept s0 s) : Kept s0 (State.dropRebuilds q s) := by
  unfold State.dropRebuilds
  with_reducible repeat' (first | assumption | apply Keeps_of | simp only [Kept_mk_iff])

theorem startRebuild_kept {s0 : State} {q p : Nat} {s : State} {u} (hu : (State.startRebuild q p s) = some u) (hK : Kept s0 s) : Kept s0 u := by
  unfold State.startRebuild at hu
  simp only [Option.map_eq_some_iff] at hu
  obtain ⟨g, _, rfl⟩ := hu
  apply queueItems_kept
  simp only [Kept_mk_iff]
  exact Keeps_of (setGroupMode_kept _ _ _ _ _ hK)

theorem startRebuilds_kept {s0 : State} (q : Nat) (s : State) (hK : Kept s0 s) : Kept s0 (State.startRebuilds q s).2 := by
  unfold State.startRebuilds
  with_reducible repeat' (first | assumption | intro _ | refine startRebuild_kept (by assumption) ?_ | apply Kept_foldl2 | split)

theorem markBad_kept {s0 : State} (carrier egroup : Nat) (s : State) (hK : Kept s0 s) : Kept s0 (State.markBad carrier egroup s) := by
  unfold State.markBad
  with_reducible repeat' (first | assumption | intro _ | apply Kept_ite | apply Keeps_of | simp only [Kept_mk_iff])

theorem useRebuild_kept {s0 : State} (queue q : Nat) (s : State) (hK : Kept s0 s) : Kept s0 (State.useRebuild queue q s) := by
  unfold State.useRebuild
  with_reducible repeat' (first | assumption | intro _ | apply useParity_kept | apply useSequencer_kept | apply Kept_foldl | split)

theorem advanceRebuild_kept {s0 : State} {seen : Seen} {failed : List Nat} {r : Rebuild} {s : State} {u} (hu : (State.advanceRebuild seen failed r
    s) = some u) (hK : Kept s0 s) : Kept s0 u := by
  unfold State.advanceRebuild at hu
  dsimp only at hu
  split at hu
  · injection hu with hu; subst hu; exact hK
  · split at hu
    · injection hu with hu; subst hu
      apply queueItems_kept; simp only [Kept_mk_iff]; exact Keeps_of hK
    · split at hu
      · cases hu
      · rename_i b _
        generalize ht : State.programStrip _ _ _ _ _ _ _ = t at hu
        have h2 : Kept s0 t := ht ▸ programStrip_kept _ _ _ _ _ _ _ (useRebuild_kept _ _ _ hK)
        split at hu
        · exact startRebuild_kept hu (retireGroup_kept _ _ _ (markBad_kept _ _ _ h2))
        · split at hu
          · injection hu with hu; subst hu; simp only [Kept_mk_iff]; exact Keeps_of h2
          · injection hu with hu; subst hu
            apply queueItems_kept; simp only [Kept_mk_iff]; exact Keeps_of h2

theorem advanceQuire_kept {s0 : State} (seen : Seen) (failed : List Nat) (q : Nat) (s : State) (hK : Kept s0 s) : Kept s0 (State.advanceQuire seen
    failed q s).2 := by
  unfold State.advanceQuire
  apply Kept_foldl2
  · exact hK
  · intro a r h
    split
    · exact h
    · split
      · rename_i heq; exact advanceRebuild_kept heq h
      · exact h

theorem eraseGivenUp_kept {s0 : State} (s : State) (hK : Kept s0 s) : Kept s0 (State.eraseGivenUp s) := by
  unfold State.eraseGivenUp
  with_reducible repeat' (first | assumption | intro _ | apply eraseOne_kept | apply Keeps_of | apply Kept_foldl | simp only [Kept_mk_iff])

theorem stopRebuilds_kept {s0 : State} (s : State) (hK : Kept s0 s) : Kept s0 (State.stopRebuilds s) := by
  unfold State.stopRebuilds
  with_reducible repeat' (first | assumption | intro _ | apply dropRebuilds_kept | apply Kept_foldl)

theorem Press_recover_kept {s0 : State} (seen : Seen) (q : Nat) (p : Press) (hK : Kept s0 p.s) : Kept s0 (Press.recover seen q p).s := by
  unfold Press.recover
  with_reducible repeat' (first | assumption | apply Press_relocate_kept | apply dropRebuilds_kept)

theorem beginRecovery_kept {s0 : State} (seen : Seen) (fails : List (List Nat)) (q : Nat) (s : State) (hK : Kept s0 s) : Kept s0
    (State.beginRecovery seen fails q s) := by
  unfold State.beginRecovery
  with_reducible repeat' (first
    | assumption | intro _ | apply Press_drainWaiting_kept | apply startRebuilds_kept | apply Press_recover_kept | apply Kept_ite)

theorem execRebuildBegin_kept {s0 t : State} (seen : Seen) (fails : List (List Nat)) (s : State) (he : execRebuildBegin seen fails s = .next t)
    (hK : Kept s0 s) : Kept s0 t := by
  unfold execRebuildBegin at he
  injection he with he
  subst he
  with_reducible repeat' (first
    | assumption | intro _ | apply Press_drainWaiting_kept | apply advanceQuire_kept | apply eraseGivenUp_kept | apply stopRebuilds_kept
    | apply Press_recover_kept | apply beginRecovery_kept | apply Kept_ite | split | simp only [Kept_mk_iff])

theorem countPass_kept {s0 : State} (i : Nat) (s : State) (hK : Kept s0 s) : Kept s0 (State.countPass i s) := by
  unfold State.countPass
  with_reducible repeat' (first | assumption | apply Keeps_of | simp only [Kept_mk_iff])

theorem useCheck_kept {s0 : State} (q : Nat) (detail : Option Nat) (s : State) (hK : Kept s0 s) : Kept s0 (State.useCheck q detail s) := by
  unfold State.useCheck
  with_reducible repeat' (first
    | assumption | intro _ | apply bump_kept | apply bump64_kept | apply useUnit_kept | apply useSequencer_kept | apply Kept_ite | apply Kept_foldl
    | split)

theorem useVerify_kept {s0 : State} (seen : Seen) (q row : Nat) (s : State) (hK : Kept s0 s) : Kept s0 (State.useVerify seen q row s) := by
  unfold State.useVerify
  with_reducible repeat' (first | assumption | intro _ | apply useRead_kept | apply Kept_foldl)

theorem needChainKeys_kept {s0 : State} (f : Nat) (s : State) (hK : Kept s0 s) : Kept s0 (State.needChainKeys f s) := by
  unfold State.needChainKeys
  with_reducible repeat' (first | assumption | intro _ | apply needKey_kept | apply Kept_foldl)

theorem Press_relocateFound_kept {s0 : State} (seen : Seen) (taken : List (Nat × List Nat)) (q row : Nat) (p : Press) (hK : Kept s0 p.s) : Kept s0
    (Press.relocateFound seen taken q row p).s := by
  unfold Press.relocateFound
  with_reducible repeat' (first
    | assumption | intro _ | apply Press_relocate_kept | apply dropRebuilds_kept | apply countPass_kept | apply Keeps_of
    | apply Kept_iteP (π := Press.s) | simp only [Kept_mk_iff])

theorem failRepeated_kept {s0 : State} (seen : Seen) (q row : Nat) (s : State) (hK : Kept s0 s) : Kept s0 (State.failRepeated seen q row s) := by
  unfold State.failRepeated
  with_reducible repeat' (first | assumption | apply failPositions_kept | apply Keeps_of | simp only [Kept_mk_iff])

theorem Press_conserve_kept {s0 : State} (seen : Seen) (q row : Nat) (p : Press) (hK : Kept s0 p.s) : Kept s0 (Press.conserve seen q row p).s := by
  unfold Press.conserve
  with_reducible repeat' (first
    | assumption | intro _ | apply queueLost_kept | apply countPass_kept | apply useCheck_kept | apply useVerify_kept | apply needChainKeys_kept
    | apply Press_relocateFound_kept | apply failRepeated_kept | apply Kept_foldl | apply Kept_iteP (π := Press.s) | split
    | simp only [Kept_mk_iff])

theorem execConservationRow_kept {s0 t : State} (seen : Seen) (fails : List (List Nat)) (s : State) (he : execConservationRow seen fails s = .next
    t) (hK : Kept s0 s) : Kept s0 t := by
  unfold execConservationRow at he
  injection he with he
  subst he
  with_reducible repeat' (first
    | assumption | intro _ | apply Press_drainWaiting_kept | apply Press_conserve_kept | apply Kept_ite | apply Keeps_of | split
    | simp only [Kept_mk_iff])

theorem execReshapeStep_kept {s0 t : State} (seen : Seen) (fails : List (List Nat)) (s : State) (he : execReshapeStep seen fails s = .next t) (hK
    : Kept s0 s) : Kept s0 t := by
  unfold execReshapeStep at he
  injection he with he
  subst he
  with_reducible repeat' (first
    | assumption | intro _ | apply queueItems_kept | apply Press_drainWaiting_kept | apply Press_relocate_kept | apply Kept_ite | apply Keeps_of
    | split | simp only [Kept_mk_iff])

/-! ### Streams -/

theorem useGcm_kept {s0 : State} (peer n : Nat) (s : State) (hK : Kept s0 s) : Kept s0 (State.useGcm peer n s).2 := by
  unfold State.useGcm
  with_reducible repeat' (first | assumption | intro _ | apply claimUses_kept | apply useCipher_kept | apply Kept_ite)

theorem sendStream_kept {s0 : State} (peer type stream seq a0 a1 : Nat) (payload : List Byte) (s : State) (hK : Kept s0 s) : Kept s0
    (State.sendStream peer type stream seq a0 a1 payload s) := by
  unfold State.sendStream
  with_reducible repeat' (first | assumption | apply emit_kept | apply useGcm_kept | split | refine Kept_snd (by assumption) ?_)

theorem onMessage_kept {s0 : State} (peer type : Nat) (msg : List Byte) (body : List Byte → List Byte → State → State) (s : State) (hK : Kept s0
    s) (hb0 : ∀ (a0 : List Byte) (a1 : List Byte) (a2 : State), Kept s0 a2 → Kept s0 (body a0 a1 a2)) : Kept s0 (State.onMessage peer type msg
    body s) := by
  unfold State.onMessage
  with_reducible repeat' (first
    | assumption | apply hb0 | apply takeFree_kept | apply bump_kept | apply emit_kept | apply useGcm_kept | split
    | refine Kept_snd (by assumption) ?_)

theorem groupOut_kept {s0 : State} (seen : Seen) (root lba : Nat) (s : State) (hK : Kept s0 s) : Kept s0 (State.groupOut seen root lba s).s := by
  unfold State.groupOut
  with_reducible repeat' (first
    | assumption | intro _ | apply fetchCid_kept | apply Kept_foldlP (π := GroupOut.s) | split | refine Kept_snd (by assumption) ?_)

theorem sendGroups_kept {s0 : State} (seen : Seen) (peer stream root profile : Nat) (x0 : List Nat) (x1 : Nat) (x2 : Nat) (x3 : CoderCtx) (x4 :
    State) (hK : Kept s0 x4) : Kept s0 (State.sendGroups seen peer stream root profile x0 x1 x2 x3 x4).2 := by
  revert hK
  fun_induction State.sendGroups <;> intro hK <;> (with_reducible repeat' (first
    | assumption | intro _ | apply useCoder_kept | apply sendStream_kept | apply groupOut_kept | apply Kept_ite | apply_assumption))

theorem sendSeal_kept {s0 : State} (peer stream total : Nat) (x0 : List (List Byte)) (x1 : Nat) (x2 : Nat) (x3 : State) (hK : Kept s0 x3) : Kept
    s0 (State.sendSeal peer stream total x0 x1 x2 x3).2 := by
  revert hK
  fun_induction State.sendSeal <;> intro hK <;> (with_reducible repeat' (first | assumption | apply sendStream_kept | apply_assumption))

theorem ship_kept {s0 : State} (seen : Seen) (v : View) (base peer : Nat) (reply : Option Nat) (dropBase : Bool) (s : State) (hK : Kept s0 s) :
    Kept s0 (State.ship seen v base peer reply dropBase s) := by
  unfold State.ship
  with_reducible repeat' (first
    | assumption | apply tellShipment_kept | apply sendStream_kept | apply sendGroups_kept | apply sendSeal_kept | apply Keeps_of | split
    | simp only [Kept_mk_iff])

theorem restartShipment_kept {s0 : State} (seen : Seen) (x : Shipment) (s : State) (hK : Kept s0 s) : Kept s0 (State.restartShipment seen x s) := by
  unfold State.restartShipment
  with_reducible repeat' (first
    | assumption | intro _ | apply crFinish_kept | apply ship_kept | apply Kept_ite | apply Keeps_of | split | simp only [Kept_mk_iff])

theorem execCrShip_kept {s0 t : State} (r : Nat) (seen : Seen) (s : State) (he : execCrShip r seen s = .next t) (hK : Kept s0 s) : Kept s0 t := by
  unfold execCrShip at he
  injection he with he
  subst he
  with_reducible repeat' (first
    | assumption | intro _ | apply crComplete_kept | apply onRing_kept | apply ringWait_kept | apply ship_kept | apply Kept_ite | split)

theorem execShipInterval_kept {s0 t : State} (nsid peer : Nat) (s : State) (he : execShipInterval nsid peer s = .next t) (hK : Kept s0 s) : Kept
    s0 t := by
  unfold execShipInterval at he
  injection he with he
  subst he
  with_reducible repeat' (first | assumption | intro _ | apply orderSnapshot_kept | apply Kept_ite | apply Keeps_of | simp only [Kept_mk_iff])

theorem execStreamAck_kept {s0 t : State} (peer : Nat) (msg : List Byte) (s : State) (he : execStreamAck peer msg s = .next t) (hK : Kept s0 s) :
    Kept s0 t := by
  unfold execStreamAck at he
  injection he with he
  subst he
  with_reducible repeat' (first
    | assumption | intro _ | apply crFinish_kept | apply queueItems_kept | apply tellPartner_kept | apply onMessage_kept | apply Kept_ite
    | apply Keeps_of | split | simp only [Kept_mk_iff])

theorem setInbound_kept {s0 : State} (x : Inbound) (s : State) (hK : Kept s0 s) : Kept s0 (State.setInbound x s) := by
  unfold State.setInbound
  with_reducible repeat' (first | assumption | apply Keeps_of | simp only [Kept_mk_iff])

theorem execStreamBegin_kept {s0 t : State} (peer : Nat) (msg : List Byte) (s : State) (he : execStreamBegin peer msg s = .next t) (hK : Kept s0
    s) : Kept s0 t := by
  unfold execStreamBegin at he
  injection he with he
  subst he
  with_reducible repeat' (first
    | assumption | intro _ | apply onMessage_kept | apply setInbound_kept | apply Kept_ite | apply Keeps_of | split | simp only [Kept_mk_iff])

theorem innerWrite_kept {s0 : State} (nsid : Nat) (w : InnerWrite) (s : State) (hK : Kept s0 s) : Kept s0 (State.innerWrite nsid w s) := by
  unfold State.innerWrite
  with_reducible repeat' (first | assumption | apply performWrite_kept | apply allocate_kept | apply append_kept | split)

theorem execStreamGroup_kept {s0 t : State} (peer : Nat) (msg : List Byte) (s : State) (he : execStreamGroup peer msg s = .next t) (hK : Kept s0
    s) : Kept s0 t := by
  unfold execStreamGroup at he
  injection he with he
  subst he
  with_reducible repeat' (first
    | assumption | intro _ | apply queueItems_kept | apply useDecoder_kept | apply onMessage_kept | apply setInbound_kept | apply innerWrite_kept
    | apply Kept_ite | apply Kept_foldl | split)

theorem execStreamSeal_kept {s0 t : State} (peer : Nat) (msg : List Byte) (s : State) (he : execStreamSeal peer msg s = .next t) (hK : Kept s0 s)
    : Kept s0 t := by
  unfold execStreamSeal at he
  injection he with he
  subst he
  with_reducible repeat' (first | assumption | intro _ | apply onMessage_kept | apply setInbound_kept | apply Kept_ite | split)

theorem execStreamEnd_kept {s0 t : State} (peer : Nat) (msg : List Byte) (s : State) (he : execStreamEnd peer msg s = .next t) (hK : Kept s0 s) :
    Kept s0 t := by
  unfold execStreamEnd at he
  injection he with he
  subst he
  with_reducible repeat' (first
    | assumption | intro _ | apply orderSnapshot_kept | apply onMessage_kept | apply setInbound_kept | apply Kept_ite | split)

theorem execRepairReq_kept {s0 t : State} (peer : Nat) (msg : List Byte) (seen : Seen) (s : State) (he : execRepairReq peer msg seen s = .next t)
    (hK : Kept s0 s) : Kept s0 t := by
  unfold execRepairReq at he
  injection he with he
  subst he
  with_reducible repeat' (first
    | assumption | intro _ | apply viewBlock_kept | apply sendStream_kept | apply onMessage_kept | apply Kept_ite | split
    | refine Kept_snd (by assumption) ?_)

theorem execRepairResp_kept {s0 t : State} (peer : Nat) (msg : List Byte) (s : State) (he : execRepairResp peer msg s = .next t) (hK : Kept s0 s)
    : Kept s0 t := by
  unfold execRepairResp at he
  injection he with he
  subst he
  with_reducible repeat' (first | assumption | intro _ | apply onMessage_kept | apply Kept_ite | apply Keeps_of | split | simp only [Kept_mk_iff])

theorem askRepair_kept {s0 : State} (cid : Nat) (x : Nat × Nat × Nat × Nat) (s : State) (hK : Kept s0 s) : Kept s0 (State.askRepair cid x s) := by
  unfold State.askRepair
  with_reducible repeat' (first | assumption | apply sendStream_kept | apply Keeps_of | simp only [Kept_mk_iff])

theorem Press_repairFolios_kept {s0 : State} (slot : Nat) (x0 : List Nat) (x1 : CoderCtx) (x2 : Press) (hK : Kept s0 x2.s) : Kept s0
    (Press.repairFolios slot x0 x1 x2).s := by
  revert hK
  fun_induction Press.repairFolios <;> intro hK <;> (with_reducible repeat' (first
    | assumption | apply useCoder_kept | apply Press_addFolio_kept | apply encryptWith_kept | apply_assumption | refine Kept_snd (by assumption) ?_))

theorem giveUp_kept {s0 : State} (f : Nat) (s : State) (hK : Kept s0 s) : Kept s0 (State.giveUp f s) := by
  unfold State.giveUp
  with_reducible repeat' (first | assumption | intro _ | apply Kept_ite | apply Keeps_of | simp only [Kept_mk_iff])

theorem repairSuffix_kept {s0 : State} (seen : Seen) (fails : List (List Nat)) (f : Nat) (s : State) (hK : Kept s0 s) : Kept s0
    (State.repairSuffix seen fails f s) := by
  unfold State.repairSuffix
  with_reducible repeat' (first
    | assumption | intro _ | apply retireSlot_kept | apply fillSlot_kept | apply Press_drainWaiting_kept | apply needChainKeys_kept
    | apply askRepair_kept | apply Press_repairFolios_kept | apply giveUp_kept | apply Kept_ite | apply Kept_foldl | split
    | refine Kept_snd (by assumption) ?_)

theorem execLostRepair_kept {s0 t : State} (f : Nat) (seen : Seen) (fails : List (List Nat)) (s : State) (he : execLostRepair f seen fails s =
    .next t) (hK : Kept s0 s) : Kept s0 t := by
  unfold execLostRepair at he
  injection he with he
  subst he
  with_reducible repeat' (first | assumption | intro _ | apply repairSuffix_kept | apply Kept_ite)

theorem finishOrder_kept {s0 : State} (seen : Seen) (o : SnapOrder) (v : View) (s : State) (hK : Kept s0 s) : Kept s0 (State.finishOrder seen o v
    s) := by
  unfold State.finishOrder
  with_reducible repeat' (first | assumption | apply sendStream_kept | apply ship_kept | apply Keeps_of | split | simp only [Kept_mk_iff])

theorem finishOrders_kept {s0 : State} (seen : Seen) (s : State) (hK : Kept s0 s) : Kept s0 (State.finishOrders seen s) := by
  unfold State.finishOrders
  with_reducible repeat' (first
    | assumption | intro _ | apply advanceSeals_kept | apply restartShipment_kept | apply finishOrder_kept | apply Kept_foldl | split)

end Sys2Proof.Machine
end

