-- ==== Sys2Proof/Laws/KeptModes.lean ====
section
/-! SUPPORT. `Kept` of restore, the twin link, starts, the keeper, modes, update and control rings. -/

set_option maxRecDepth 10000

namespace Sys2Proof.Machine

/-! ### Cycles -/

theorem afterApply_kept {s0 : State} (seen : Seen) (n : Nat) (s : State) (hK : Kept s0 s) : Kept s0 (State.afterApply seen n s) := by
  unfold State.afterApply
  with_reducible repeat' (first
    | assumption | intro _ | apply sendAnswers_kept | apply beginCheckpoint_kept | apply returnFreed_kept | apply freeEmpty_kept
    | apply freeDeleted_kept | apply walkViews_kept | apply deleteOrphans_kept | apply finishOrders_kept | apply Kept_ite | apply Keeps_of
    | simp only [Kept_mk_iff])

theorem takeHot_kept {s0 : State} (n : Nat) (s : State) (hK : Kept s0 s) : Kept s0 (State.takeHot n s) := by
  unfold State.takeHot
  with_reducible repeat' (first | assumption | intro _ | apply giveSetting_kept | apply Kept_ite | apply Keeps_of | split | simp only [Kept_mk_iff])

theorem applyNext_kept {s0 : State} (seen : Seen) (lists : List (List Byte) × List (List Byte)) (s : State) (hK : Kept s0 s) : Kept s0
    (State.applyNext seen lists s) := by
  unfold State.applyNext
  with_reducible repeat' (first
    | assumption | intro _ | apply applyLists_kept | apply retireOne_kept | apply noteNamespaces_kept | apply afterApply_kept | apply takeHot_kept
    | apply Kept_foldl)

/-! ### Restore -/

theorem loadCheckpoint_kept {s0 : State} (c : Checkpoint) (s : State) (hK : Kept s0 s) : Kept s0 (State.loadCheckpoint c s) := by
  unfold State.loadCheckpoint
  with_reducible repeat' (first | assumption | apply Keeps_of | simp only [Kept_mk_iff])

theorem fillRegion_kept {s0 : State} (base : Nat) (l : List (Nat × Byte)) (s : State) (hK : Kept s0 s) : Kept s0 (State.fillRegion base l s) :=
  Keeps_foldMem l (fun p => base + p.1) (fun p => p.2) hK

theorem loadDumps_kept {s0 : State} (seq : Nat) (shows : Shows) (s : State) (hK : Kept s0 s) : Kept s0 (State.loadDumps seq shows s).2 := by
  unfold State.loadDumps
  with_reducible repeat' (first | assumption | apply clearRegions_kept | apply fillRegion_kept | split | simp only [Kept_mk_iff])

theorem restoreFails_kept {s0 : State} (error : Nat) (s : State) (hK : Kept s0 s) : Kept s0 (State.restoreFails error s) := by
  unfold State.restoreFails
  with_reducible repeat' (first | assumption | apply setMode_kept | apply Keeps_of | simp only [Kept_mk_iff])

theorem replay_kept {s0 : State} (seen : Seen) (shows : Shows) (c : Checkpoint) (fresh : Bool) (s : State) (hK : Kept s0 s) : Kept s0
    (State.replay seen shows c fresh s) := by
  unfold State.replay
  with_reducible repeat' (first
    | assumption | intro _ | apply replayParity_kept | apply replayJournal_kept | apply raiseEntries_kept | apply raiseBatches_kept
    | apply settleRegion_kept | apply rebuildRing_kept | apply loadDumps_kept | apply restoreFails_kept | apply Kept_ite | apply Keeps_of | split
    | simp only [Kept_mk_iff])

theorem runSteps_kept {s0 : State} (seen : Seen) (shows : Shows) (s : State) (hK : Kept s0 s) : Kept s0 (State.runSteps seen shows s) := by
  unfold State.runSteps
  with_reducible repeat' (first
    | assumption | intro _ | apply loadCheckpoint_kept | apply restoreFails_kept | apply replay_kept | apply Kept_ite | apply Keeps_of | split
    | simp only [Kept_mk_iff])

theorem startJoin_kept {s0 : State} (s : State) (hK : Kept s0 s) : Kept s0 (State.startJoin s) := by
  unfold State.startJoin
  with_reducible repeat' (first | assumption | apply tellLevels_kept | apply sendCustody_kept | apply Keeps_of | simp only [Kept_mk_iff])

theorem ownCarriers_kept {s0 : State} (take : Bool) (epoch : Nat) (s : State) (hK : Kept s0 s) : Kept s0 (State.ownCarriers take epoch s) := by
  unfold State.ownCarriers
  with_reducible repeat' (first | assumption | apply Keeps_of | split | simp only [Kept_mk_iff])

theorem applyAll_kept {s0 : State} (seen : Seen) (x0 : Nat) (x1 : State) (hK : Kept s0 x1) : Kept s0 (State.applyAll seen x0 x1) := by
  revert hK
  fun_induction State.applyAll <;> intro hK <;> (with_reducible repeat' (first | assumption | apply applyNext_kept | apply_assumption))

theorem setTaking_kept {s0 : State} (b : Bool) (s : State) (hK : Kept s0 s) : Kept s0 (State.setTaking b s) := by
  unfold State.setTaking
  with_reducible repeat' (first | assumption | apply anaChange_kept | apply Keeps_of | simp only [Kept_mk_iff])

theorem confirmOwn_kept {s0 : State} (s : State) (hK : Kept s0 s) : Kept s0 (State.confirmOwn s) := by
  unfold State.confirmOwn
  with_reducible repeat' (first | assumption | intro _ | apply releaseAcks_kept | apply confirmCycle_kept | apply Kept_foldl)

theorem takeBoth_kept {s0 : State} (s : State) (hK : Kept s0 s) : Kept s0 (State.takeBoth s) := by
  unfold State.takeBoth
  with_reducible repeat' (first | assumption | apply takeShipments_kept | apply setMode_kept | apply Keeps_of | simp only [Kept_mk_iff])

theorem noteTakeover_kept {s0 : State} (t : Nat) (s : State) (hK : Kept s0 s) : Kept s0 (State.noteTakeover t s) := by
  unfold State.noteTakeover
  with_reducible repeat' (first | assumption | intro _ | apply takeRegistrar_kept | apply Kept_ite | apply Keeps_of | simp only [Kept_mk_iff])

theorem adoptPartner_kept {s0 : State} (seen : Seen) (c : Nat) (s : State) (hK : Kept s0 s) : Kept s0 (State.adoptPartner seen c s) := by
  unfold State.adoptPartner
  with_reducible repeat' (first
    | assumption | apply replayParity_kept | apply raiseEntries_kept | apply adoptMirror_kept | apply applyAll_kept | apply confirmOwn_kept)

theorem holdBoth_kept {s0 : State} (seen : Seen) (t c : Nat) (s : State) (hK : Kept s0 s) : Kept s0 (State.holdBoth seen t c s) := by
  unfold State.holdBoth
  with_reducible repeat' (first
    | assumption | apply ownCarriers_kept | apply setTaking_kept | apply takeBoth_kept | apply noteTakeover_kept | apply adoptPartner_kept)

theorem startSolo_kept {s0 : State} (seen : Seen) (s : State) (hK : Kept s0 s) : Kept s0 (State.startSolo seen s) := by
  unfold State.startSolo
  with_reducible repeat' (first | assumption | apply holdBoth_kept | apply Keeps_of | simp only [Kept_mk_iff])

/-! ### Twin -/

theorem onFrame_kept {s0 : State} (head : Nat) (body : State → State) (s : State) (hK : Kept s0 s) (hb0 : ∀ (a0 : State), Kept s0 a0 → Kept s0
    (body a0)) : Kept s0 (State.onFrame head body s) := by
  unfold State.onFrame
  with_reducible repeat' (first
    | assumption | intro _ | apply hb0 | apply discardFrame_kept | apply noteFrame_kept | apply Kept_ite | apply Keeps_of | simp only [Kept_mk_iff])

theorem custodyChanged_kept {s0 : State} (s : State) (hK : Kept s0 s) : Kept s0 (State.custodyChanged s) := by
  unfold State.custodyChanged
  with_reducible repeat' (first | assumption | apply raiseVector_kept)

theorem countHolder_kept {s0 : State} (s : State) (hK : Kept s0 s) : Kept s0 (State.countHolder s) := by
  unfold State.countHolder
  with_reducible repeat' (first | assumption | intro _ | apply custodyChanged_kept | apply Kept_ite | apply Keeps_of | simp only [Kept_mk_iff])

theorem rejoinIfServed_kept {s0 : State} (s : State) (hK : Kept s0 s) : Kept s0 (State.rejoinIfServed s) := by
  unfold State.rejoinIfServed
  with_reducible repeat' (first | assumption | intro _ | apply startJoin_kept | apply Kept_ite)

theorem heard_kept {s0 : State} (b : List Byte) (uncleanRun fitRun : Nat) (s : State) (hK : Kept s0 s) : Kept s0 (State.heard b uncleanRun fitRun
    s) := by
  unfold State.heard
  with_reducible repeat' (first | assumption | apply countHolder_kept | apply rejoinIfServed_kept | apply Keeps_of | simp only [Kept_mk_iff])

theorem heardReport_kept {s0 : State} (b : List Byte) (unclean : Bool) (s : State) (hK : Kept s0 s) : Kept s0 (State.heardReport b unclean s) := by
  unfold State.heardReport
  with_reducible repeat' (first | assumption | apply heard_kept)

theorem execHeartbeat_kept {s0 t : State} (b : List Byte) (s : State) (he : execHeartbeat b s = .next t) (hK : Kept s0 s) : Kept s0 t := by
  unfold execHeartbeat at he
  injection he with he
  subst he
  with_reducible repeat' (first
    | assumption | intro _ | apply discardFrame_kept | apply onFrame_kept | apply heard_kept | apply Kept_ite | apply Keeps_of | split
    | simp only [Kept_mk_iff])

theorem execHealthReport_kept {s0 t : State} (b : List Byte) (s : State) (he : execHealthReport b s = .next t) (hK : Kept s0 s) : Kept s0 t := by
  unfold execHealthReport at he
  injection he with he
  subst he
  with_reducible repeat' (first | assumption | intro _ | apply discardFrame_kept | apply onFrame_kept | apply heardReport_kept | apply Kept_ite)

theorem execTwinFrameBad_kept {s0 t : State} (s : State) (he : execTwinFrameBad s = .next t) (hK : Kept s0 s) : Kept s0 t := by
  unfold execTwinFrameBad at he
  injection he with he
  subst he
  with_reducible repeat' (first | assumption | apply discardFrame_kept)

theorem execHeartbeatMissed_kept {s0 t : State} (s : State) (he : execHeartbeatMissed s = .next t) (hK : Kept s0 s) : Kept s0 t := by
  unfold execHeartbeatMissed at he
  injection he with he
  subst he
  with_reducible repeat' (first | assumption | intro _ | apply bump_kept | apply Kept_ite | apply Keeps_of | simp only [Kept_mk_iff])

theorem execTwinLinkLoss_kept {s0 t : State} (s : State) (he : execTwinLinkLoss s = .next t) (hK : Kept s0 s) : Kept s0 t := by
  unfold execTwinLinkLoss at he
  injection he with he
  subst he
  with_reducible repeat' (first | assumption | intro _ | apply releaseCustody_kept | apply Kept_ite | apply Keeps_of | simp only [Kept_mk_iff])

theorem execTwinLaneFailure_kept {s0 t : State} (s : State) (he : execTwinLaneFailure s = .next t) (hK : Kept s0 s) : Kept s0 t := by
  unfold execTwinLaneFailure at he
  injection he with he
  subst he
  with_reducible repeat' (first | assumption | intro _ | apply bump_kept | apply Kept_ite | apply Keeps_of | simp only [Kept_mk_iff])

theorem execTwinLinkRetrained_kept {s0 t : State} (s : State) (he : execTwinLinkRetrained s = .next t) (hK : Kept s0 s) : Kept s0 t := by
  unfold execTwinLinkRetrained at he
  injection he with he
  subst he
  with_reducible repeat' (first
    | assumption | intro _ | apply emit_kept | apply Kept_ite | apply Keeps_of | apply Kept_foldl | simp only [Kept_mk_iff])

theorem execSupervisorSilent_kept {s0 t : State} (s : State) (he : execSupervisorSilent s = .next t) (hK : Kept s0 s) : Kept s0 t := by
  unfold execSupervisorSilent at he
  injection he with he
  subst he
  with_reducible repeat' (first | assumption | intro _ | apply releaseCustody_kept | apply Kept_ite)

theorem execConfirmStall_kept {s0 t : State} (partnerWaits : Bool) (s : State) (he : execConfirmStall partnerWaits s = .next t) (hK : Kept s0 s) :
    Kept s0 t := by
  unfold execConfirmStall at he
  injection he with he
  subst he
  with_reducible repeat' (first | assumption | intro _ | apply releaseCustody_kept | apply Kept_ite)

theorem execTwnRelease_kept {s0 t : State} (src v : Nat) (s : State) (he : execTwnRelease src v s = .next t) (hK : Kept s0 s) : Kept s0 t := by
  unfold execTwnRelease at he
  injection he with he
  subst he
  with_reducible repeat' (first | assumption | intro _ | apply releaseCustody_kept | apply Kept_ite)

theorem execTwnGovAlive_kept {s0 t : State} (src : Nat) (s : State) (he : execTwnGovAlive src s = .next t) (hK : Kept s0 s) : Kept s0 t := by
  unfold execTwnGovAlive at he
  injection he with he
  subst he
  with_reducible repeat' (first | assumption | intro _ | apply Kept_ite | apply Keeps_of | simp only [Kept_mk_iff])

theorem peerFalls_kept {s0 : State} (s : State) (hK : Kept s0 s) : Kept s0 (State.peerFalls s) := by
  unfold State.peerFalls
  with_reducible repeat' (first | assumption | intro _ | apply bump_kept | apply Kept_ite | apply Keeps_of | simp only [Kept_mk_iff])

theorem execCustodyPeerChange_kept {s0 t : State} (low : Bool) (s : State) (he : execCustodyPeerChange low s = .next t) (hK : Kept s0 s) : Kept s0
    t := by
  unfold execCustodyPeerChange at he
  injection he with he
  subst he
  with_reducible repeat' (first
    | assumption | intro _ | apply custodyChanged_kept | apply peerFalls_kept | apply Kept_ite | apply Keeps_of | simp only [Kept_mk_iff])

theorem takeOver_kept {s0 : State} (seen : Seen) (s : State) (hK : Kept s0 s) : Kept s0 (State.takeOver seen s) := by
  unfold State.takeOver
  with_reducible repeat' (first | assumption | apply cutTwin_kept | apply holdBoth_kept)

theorem standbyLoses_kept {s0 : State} (seen : Seen) (shows : Shows) (s : State) (hK : Kept s0 s) : Kept s0 (State.standbyLoses seen shows s) := by
  unfold State.standbyLoses
  with_reducible repeat' (first | assumption | intro _ | apply runSteps_kept | apply Kept_ite | apply Keeps_of | simp only [Kept_mk_iff])

theorem execSurrenderRecognised_kept {s0 t : State} (seen : Seen) (shows : Shows) (s : State) (he : execSurrenderRecognised seen shows s = .next
    t) (hK : Kept s0 s) : Kept s0 t := by
  unfold execSurrenderRecognised at he
  injection he with he
  subst he
  with_reducible repeat' (first
    | assumption | intro _ | apply custodyChanged_kept | apply takeOver_kept | apply standbyLoses_kept | apply Kept_ite | apply Keeps_of
    | simp only [Kept_mk_iff])

theorem execPartnerWaitExpiry_kept {s0 t : State} (seen : Seen) (absent : Nat) (s : State) (he : execPartnerWaitExpiry seen absent s = .next t)
    (hK : Kept s0 s) : Kept s0 t := by
  unfold execPartnerWaitExpiry at he
  injection he with he
  subst he
  with_reducible repeat' (first | assumption | intro _ | apply startSolo_kept | apply Kept_ite)

theorem execServiceStart_kept {s0 t : State} (seen : Seen) (s : State) (he : execServiceStart seen s = .next t) (hK : Kept s0 s) : Kept s0 t := by
  unfold execServiceStart at he
  injection he with he
  subst he
  with_reducible repeat' (first | assumption | intro _ | apply startSolo_kept | apply Kept_ite)

theorem onCustody_kept {s0 : State} (type head level reason cycle : Nat) (body : List Byte → State → State) (s : State) (hK : Kept s0 s) (hb0 : ∀
    (a0 : List Byte) (a1 : State), Kept s0 a1 → Kept s0 (body a0 a1)) : Kept s0 (State.onCustody type head level reason cycle body s) := by
  unfold State.onCustody
  with_reducible repeat' (first | assumption | intro _ | apply hb0 | apply sendTwin_kept | apply onFrame_kept | apply Kept_ite | split)

theorem seedCopies_kept {s0 : State} (s : State) (hK : Kept s0 s) : Kept s0 (State.seedCopies s) := by
  unfold State.seedCopies
  with_reducible repeat' (first | assumption | intro _ | apply emit_kept | apply Kept_ite | apply Kept_foldl)

theorem beginSeeding_kept {s0 : State} (s : State) (hK : Kept s0 s) : Kept s0 (State.beginSeeding s) := by
  unfold State.beginSeeding
  with_reducible repeat' (first | assumption | apply seedCopies_kept | apply Keeps_of | simp only [Kept_mk_iff])

theorem execTwinJoin_kept {s0 t : State} (head level : Nat) (s : State) (he : execTwinJoin head level s = .next t) (hK : Kept s0 s) : Kept s0 t :=
    by
  unfold execTwinJoin at he
  injection he with he
  subst he
  with_reducible repeat' (first
    | assumption | intro _ | apply tellLevels_kept | apply answerCustody_kept | apply onCustody_kept | apply beginSeeding_kept | apply Kept_ite)

theorem execTwinJoinAccept_kept {s0 t : State} (head level : Nat) (s : State) (he : execTwinJoinAccept head level s = .next t) (hK : Kept s0 s) :
    Kept s0 t := by
  unfold execTwinJoinAccept at he
  injection he with he
  subst he
  with_reducible repeat' (first
    | assumption | intro _ | apply clearRegions_kept | apply endAwait_kept | apply onCustody_kept | apply Kept_ite | apply Keeps_of
    | simp only [Kept_mk_iff])

theorem execTwinJoinRefuse_kept {s0 t : State} (head level reason : Nat) (s : State) (he : execTwinJoinRefuse head level reason s = .next t) (hK :
    Kept s0 s) : Kept s0 t := by
  unfold execTwinJoinRefuse at he
  injection he with he
  subst he
  with_reducible repeat' (first
    | assumption | intro _ | apply endAwait_kept | apply onCustody_kept | apply Kept_ite | apply Keeps_of | simp only [Kept_mk_iff])

theorem execSeedingComplete_kept {s0 t : State} (s : State) (he : execSeedingComplete s = .next t) (hK : Kept s0 s) : Kept s0 t := by
  unfold execSeedingComplete at he
  injection he with he
  subst he
  with_reducible repeat' (first | assumption | intro _ | apply sendCustody_kept | apply Kept_ite | apply Keeps_of | simp only [Kept_mk_iff])

theorem applyMirrored_kept {s0 : State} {j : Nat} {x0 : Nat} {x1 : State} {u} (hu : State.applyMirrored j x0 x1 = some u) (hK : Kept s0 x1) : Kept
    s0 u := by
  induction x0 generalizing x1 with
  | zero => simp [State.applyMirrored] at hu
  | succ n ih =>
    rw [State.applyMirrored] at hu
    dsimp only at hu
    split at hu
    · simp only [Option.some.injEq] at hu; subst hu; exact hK
    · split at hu
      · refine ih hu ?_
        simp only [Kept_mk_iff]
        with_reducible apply Keeps_of
        with_reducible apply applyRecords_kept
        exact hK
      · simp at hu

theorem followFrom_kept {s0 : State} (j : Nat) (c : Checkpoint) (s : State) (hK : Kept s0 s) : Kept s0 (State.followFrom j c s) := by
  unfold State.followFrom
  with_reducible repeat' (first | assumption | apply raiseEntries_kept | apply raiseBatches_kept | apply Keeps_of | simp only [Kept_mk_iff])

theorem execTwinJoined_kept {s0 t : State} (head level cycle : Nat) (shown : Checkpoint) (s : State) (he : execTwinJoined head level cycle shown s
    = .next t) (hK : Kept s0 s) : Kept s0 t := by
  unfold execTwinJoined at he
  injection he with he
  subst he
  with_reducible repeat' (first
    | assumption | intro _ | apply loadCheckpoint_kept | apply onCustody_kept | refine applyMirrored_kept (by assumption) ?_
    | apply followFrom_kept | apply Kept_ite | split | simp only [Kept_mk_iff])

theorem closeShared_kept {s0 : State} (s : State) (hK : Kept s0 s) : Kept s0 (State.closeShared s) := by
  unfold State.closeShared
  with_reducible repeat' (first | assumption | apply queueItems_kept | apply Keeps_of | simp only [Kept_mk_iff])

theorem tellShipments_kept {s0 : State} (s : State) (hK : Kept s0 s) : Kept s0 (State.tellShipments s) := by
  unfold State.tellShipments
  with_reducible repeat' (first | assumption | intro _ | apply tellShipment_kept | apply Kept_foldl)

theorem execTwinReady_kept {s0 t : State} (head level : Nat) (s : State) (he : execTwinReady head level s = .next t) (hK : Kept s0 s) : Kept s0 t
    := by
  unfold execTwinReady at he
  injection he with he
  subst he
  with_reducible repeat' (first
    | assumption | intro _ | apply sendTwin_kept | apply sendCustody_kept | apply ownCarriers_kept | apply onFrame_kept | apply closeShared_kept
    | apply tellShipments_kept | apply Kept_ite | apply Keeps_of | simp only [Kept_mk_iff])

theorem execTwinFailback_kept {s0 t : State} (head level cycle : Nat) (s : State) (he : execTwinFailback head level cycle s = .next t) (hK : Kept
    s0 s) : Kept s0 t := by
  unfold execTwinFailback at he
  injection he with he
  subst he
  with_reducible repeat' (first
    | assumption | intro _ | apply endAwait_kept | apply onFrame_kept | apply Kept_ite | apply Keeps_of | simp only [Kept_mk_iff])

theorem endHandoverCommand_kept {s0 : State} (status res : Nat) (s : State) (hK : Kept s0 s) : Kept s0 (State.endHandoverCommand status res s) := by
  unfold State.endHandoverCommand
  with_reducible repeat' (first | assumption | apply crFinish_kept | split)

theorem startHandover_kept {s0 : State} (s : State) (hK : Kept s0 s) : Kept s0 (State.startHandover s) := by
  unfold State.startHandover
  with_reducible repeat' (first | assumption | apply sendCustody_kept | apply Keeps_of | simp only [Kept_mk_iff])

theorem cancelHandover_kept {s0 : State} (s : State) (hK : Kept s0 s) : Kept s0 (State.cancelHandover s) := by
  unfold State.cancelHandover
  with_reducible repeat' (first | assumption | apply endAwait_kept | apply endHandoverCommand_kept | apply Keeps_of | simp only [Kept_mk_iff])

theorem execTwinHandover_kept {s0 t : State} (head level cycle : Nat) (s : State) (he : execTwinHandover head level cycle s = .next t) (hK : Kept
    s0 s) : Kept s0 t := by
  unfold execTwinHandover at he
  injection he with he
  subst he
  with_reducible repeat' (first | assumption | intro _ | apply answerCustody_kept | apply onCustody_kept | apply Kept_ite)

theorem execTwinHandoverAccept_kept {s0 t : State} (head level : Nat) (s : State) (he : execTwinHandoverAccept head level s = .next t) (hK : Kept
    s0 s) : Kept s0 t := by
  unfold execTwinHandoverAccept at he
  injection he with he
  subst he
  with_reducible repeat' (first
    | assumption | intro _ | apply endAwait_kept | apply onFrame_kept | apply endHandoverCommand_kept | apply Kept_ite | apply Keeps_of
    | simp only [Kept_mk_iff])

theorem execTwinHandoverRefuse_kept {s0 t : State} (head level reason : Nat) (s : State) (he : execTwinHandoverRefuse head level reason s = .next
    t) (hK : Kept s0 s) : Kept s0 t := by
  unfold execTwinHandoverRefuse at he
  injection he with he
  subst he
  with_reducible repeat' (first
    | assumption | intro _ | apply cancelActivation_kept | apply onFrame_kept | apply cancelHandover_kept | apply Kept_ite)

theorem execCustodyMessageRepeat_kept {s0 t : State} (s : State) (he : execCustodyMessageRepeat s = .next t) (hK : Kept s0 s) : Kept s0 t := by
  unfold execCustodyMessageRepeat at he
  injection he with he
  subst he
  with_reducible repeat' (first
    | assumption | intro _ | apply cancelActivation_kept | apply sendTwin_kept | apply endAwait_kept | apply cancelHandover_kept | apply Kept_ite
    | apply Keeps_of | split | simp only [Kept_mk_iff])

theorem openFailback_kept {s0 : State} (s : State) (hK : Kept s0 s) : Kept s0 (State.openFailback s) := by
  unfold State.openFailback
  with_reducible repeat' (first
    | assumption | intro _ | apply anaChange_kept | apply dropOrdersOf_kept | apply takeShipments_kept | apply setMode_kept
    | apply takeRegistrar_kept | apply leaveRegistrar_kept | apply Kept_ite | apply Keeps_of | simp only [Kept_mk_iff])

theorem finishHandover_kept {s0 : State} (s : State) (hK : Kept s0 s) : Kept s0 (State.finishHandover s) := by
  unfold State.finishHandover
  with_reducible repeat' (first
    | assumption | intro _ | apply cancelActivation_kept | apply releaseCustody_kept | apply cancelHandover_kept | apply Kept_ite)

/-! ### DumpRows -/

theorem programDump_kept {s0 : State} (d : DumpImage) (last : Bool) (l : List (Nat × Nat × List Byte)) (s : State) (hK : Kept s0 s) : Kept s0
    (State.programDump d last l s) := by
  unfold State.programDump
  with_reducible repeat' (first | assumption | apply programRow_kept | split)

theorem programDumpRows_kept {s0 : State} (s : State) (hK : Kept s0 s) : Kept s0 (State.programDumpRows s) := by
  unfold State.programDumpRows
  with_reducible repeat' (first | assumption | intro _ | apply programDump_kept | apply Kept_foldl | split)

theorem programLastRow_kept {s0 : State} (s : State) (hK : Kept s0 s) : Kept s0 (State.programLastRow s) := by
  unfold State.programLastRow
  with_reducible repeat' (first | assumption | apply programDump_kept | split)

/-! ### Starts -/

theorem portsLost_kept {s0 : State} (s : State) (hK : Kept s0 s) : Kept s0 (State.portsLost s) := by
  unfold State.portsLost
  with_reducible repeat' (first | assumption | intro _ | apply modCar_kept | apply losePort_kept | apply Kept_foldl)

theorem condSet_wf {α X : Type} [DecidableEq α] (d : α) (b : X → Bool) (key : X → Nat) (val : X → α) (l : List X) (m : Sparse α)
    (h : Sparse.wf d m = true) : Sparse.wf d (l.foldl (fun m x => if b x then m else Sparse.set d (key x) (val x) m) m) = true := by
  induction l generalizing m with
  | nil => exact h
  | cons x t ih =>
    simp only [List.foldl_cons]
    apply ih
    split
    · exact h
    · exact set_wf d _ 0 _ _ (by omega) h

theorem keptRegs_wf (r : Sparse Word32) : Sparse.wf 0 (keptRegs r) = true := by
  have h := condSet_wf (0 : Word32) (fun p : Nat × Word32 => decide (keepMask p.1 = 0)) (·.1)
    (fun p => BitVec.ofNat 32 ((p.2.toNat &&& keepMask p.1) ||| ((Sparse.get 0 p.1 regsCold).toNat &&& (m32 ^^^ keepMask p.1)))) r regsCold (by decide)
  simp only [decide_eq_true_eq] at h
  exact h

theorem coresReset_wf (s : State) : Sparse.wf Core.cold s.coresReset = true := by
  unfold State.coresReset
  have h0 : Sparse.wf Core.cold coresCold = true := by decide
  have go : ∀ (l : List Nat) (m : Sparse Core) (f : Nat → Bool) (v : Nat → Core), Sparse.wf Core.cold m = true →
      Sparse.wf Core.cold (l.foldl (fun m k => if f k then Sparse.set Core.cold k (v k) m else m) m) = true := by
    intro l
    induction l with
    | nil => intro m _ _ h; exact h
    | cons x t ih =>
      intro m f v h
      simp only [List.foldl_cons]
      apply ih
      split
      · exact set_wf _ _ 0 _ _ (by omega) h
      · exact h
  exact go _ _ (fun k => s.fencedEngine k) (fun k => { Core.cold with run := .dead, clockHeld := (s.core k).clockHeld.map fun _ => 0 }) h0

theorem unitsReset_kept {s0 : State} (kind : StartKind) (s : State) (hn : kind ≠ .cold) (hK : Kept s0 s) : Kept s0 (State.unitsReset kind s) := by
  unfold State.unitsReset
  have hc : (kind == StartKind.cold) = false := by cases kind <;> simp_all
  simp only [hc, Kept_mk_iff]
  exact ⟨hK.1, hK.2.1, fun x => filter_wf 0 0 _ _ (hK.2.2.1 x), fun _ => keptRegs_wf _, fun _ => coresReset_wf _, fun _ => rfl⟩

theorem loadTrims_kept {s0 : State} (fuses : Option (List Word32)) (s : State) (hK : Kept s0 s) : Kept s0 (State.loadTrims fuses s) := by
  unfold State.loadTrims
  with_reducible repeat' (first | assumption | intro _ | apply setReg_kept | apply Keeps_of | apply Kept_foldl | split | simp only [Kept_mk_iff])

theorem loadBootImage_kept {s0 : State} (x : Slot) (s : State) (hK : Kept s0 s) : Kept s0 (State.loadBootImage x s) := by
  unfold State.loadBootImage
  with_reducible repeat' (first | assumption | intro _ | apply putBytes_kept | apply Kept_ite | apply Kept_foldl | split)

theorem startEngines_kept {s0 : State} (s : State) (hK : Kept s0 s) : Kept s0 (State.startEngines s) := by
  unfold State.startEngines
  with_reducible repeat' (first
    | assumption | intro _ | apply modCore_kept | apply assignRoles_kept | apply runCore_kept | apply Kept_foldl | split)

theorem bootStage_kept {s0 : State} (s : State) (hK : Kept s0 s) : Kept s0 (State.bootStage s) := by
  unfold State.bootStage
  with_reducible repeat' (first
    | assumption | intro _ | apply loadBootImage_kept | apply startEngines_kept | apply Kept_ite | apply Keeps_of | split | simp only [Kept_mk_iff])

theorem trainEndpoint_kept {s0 : State} (s : State) (hK : Kept s0 s) : Kept s0 (State.trainEndpoint s) := by
  unfold State.trainEndpoint
  with_reducible repeat' (first | assumption | intro _ | apply Kept_ite | apply Keeps_of | simp only [Kept_mk_iff])

theorem boot_kept {s0 : State} (cause : Nat) (s : State) (hK : Kept s0 s) : Kept s0 (State.boot cause s) := by
  unfold State.boot
  with_reducible repeat' (first
    | assumption | apply setMode_kept | apply bootStage_kept | apply trainEndpoint_kept | apply Keeps_of | simp only [Kept_mk_iff])

theorem warmStart_kept {s0 : State} (cause safeCause : Nat) (s : State) (hK : Kept s0 s) : Kept s0 (State.warmStart cause safeCause s) := by
  unfold State.warmStart
  split
  · exact hK
  · dsimp only
    have h1 : Kept s0 (if s.holdsCustody then s.releaseCustody cause else s) := by
      split
      · exact releaseCustody_kept _ _ hK
      · exact hK
    generalize (if s.holdsCustody then s.releaseCustody cause else s) = t1 at h1 ⊢
    have h2 : Kept s0 (if (s.holdsCustody ∨ s.regionsHold) ∧ t1.mayDump then t1.writeDump.programDumpRows.programLastRow else t1) := by
      split
      · exact programLastRow_kept _ (programDumpRows_kept _ (writeDump_kept _ h1))
      · exact h1
    generalize (if (s.holdsCustody ∨ s.regionsHold) ∧ t1.mayDump then t1.writeDump.programDumpRows.programLastRow else t1) = t2 at h2 ⊢
    apply boot_kept
    apply unitsReset_kept _ _ (by decide)
    simp only [Kept_mk_iff]
    exact Keeps_of h2

theorem execPowerReturn_kept {s0 t : State} (s : State) (he : execPowerReturn s = .next t) (hK : Kept s0 s) : Kept s0 t := by
  unfold execPowerReturn at he
  injection he with he
  subst he
  split
  · exact boot_kept _ _ (unitsReset_kept _ _ (by decide) hK)
  · exact hK

theorem unitsReset_cold_kept (s : State) : Kept { s with elapsed := 0 } (State.unitsReset .cold s) := by
  unfold State.unitsReset
  simp only [Kept_mk_iff]
  exact ⟨rfl, rfl, fun x => filter_wf 0 0 _ _ x, fun _ => (by decide : Sparse.wf 0 regsCold = true),
    fun _ => (by decide : Sparse.wf Core.cold coresCold = true), fun _ => rfl⟩

theorem execColdStart_kept {t : State} (head : Bool) (fuses : Option (List Word32)) (vin vhold : Nat) (s : State)
    (he : execColdStart head fuses vin vhold s = .next t) : Kept { s with elapsed := 0 } t := by
  unfold execColdStart at he
  injection he with he
  subst he
  refine boot_kept _ _ (loadTrims_kept _ _ ?_)
  simp only [Kept_mk_iff]
  exact Keeps_of (unitsReset_cold_kept s)

theorem resetWrite_kept {s0 : State} (src v : Nat) (s : State) (hK : Kept s0 s) : Kept s0 (State.resetWrite src v s) := by
  unfold State.resetWrite
  with_reducible repeat' (first | assumption | intro _ | apply warmStart_kept | apply Kept_ite)

theorem execWarmReset_kept {s0 t : State} (src : Nat) (v : Word32) (s : State) (he : execWarmReset src v s = .next t) (hK : Kept s0 s) : Kept s0 t
    := by
  unfold execWarmReset at he
  injection he with he
  subst he
  with_reducible repeat' (first | assumption | apply resetWrite_kept)

theorem execWarmResetN_kept {s0 t : State} (low : Bool) (s : State) (he : execWarmResetN low s = .next t) (hK : Kept s0 s) : Kept s0 t := by
  unfold execWarmResetN at he
  injection he with he
  subst he
  with_reducible repeat' (first | assumption | intro _ | apply warmStart_kept | apply Kept_ite | apply Keeps_of | simp only [Kept_mk_iff])

theorem activateImage_kept {s0 : State} (s : State) (hK : Kept s0 s) : Kept s0 (State.activateImage s) := by
  unfold State.activateImage
  with_reducible repeat' (first | assumption | intro _ | apply closeConn_kept | apply warmStart_kept | apply Kept_foldl)

/-! ### Keeper -/

theorem putMailbox_kept {s0 : State} (resp : List Byte) (s : State) (hK : Kept s0 s) : Kept s0 (State.putMailbox resp s) := by
  unfold State.putMailbox
  with_reducible repeat' (first | assumption | intro _ | apply setReg_kept | apply Kept_ite | apply Kept_foldl)

theorem mailbox_kept {s0 : State} (src op len want : Nat) (body : List Byte → State → MbEnd) (s : State) (hK : Kept s0 s) (hb0 : ∀ (a0 : List
    Byte) (a1 : State), Kept s0 a1 → Kept s0 (body a0 a1).s) : Kept s0 (State.mailbox src op len want body s) := by
  unfold State.mailbox
  with_reducible repeat' (first | assumption | intro _ | apply hb0 | apply Kept_ite | apply Keeps_of | split | simp only [Kept_mk_iff])

theorem mailboxDone_kept {s0 : State} (s : State) (hK : Kept s0 s) : Kept s0 (State.mailboxDone s) := by
  unfold State.mailboxDone
  with_reducible repeat' (first | assumption | apply putMailbox_kept | apply Keeps_of | split | simp only [Kept_mk_iff])

theorem execMailboxCommandComplete_kept {s0 t : State} (s : State) (he : execMailboxCommandComplete s = .next t) (hK : Kept s0 s) : Kept s0 t := by
  unfold execMailboxCommandComplete at he
  injection he with he
  subst he
  with_reducible repeat' (first | assumption | apply mailboxDone_kept)

theorem identityCommand_kept {s0 : State} (s : State) (hK : Kept s0 s) : Kept s0 (State.identityCommand s).s := by
  unfold State.identityCommand
  with_reducible repeat' (first | assumption)

theorem attestCommand_kept {s0 : State} (nonce : List Byte) (s : State) (hK : Kept s0 s) : Kept s0 (State.attestCommand nonce s).s := by
  unfold State.attestCommand
  with_reducible repeat' (first | assumption | intro _ | apply Kept_iteP (π := MbEnd.s))

theorem execSecIdentity_kept {s0 t : State} (src len : Nat) (s : State) (he : execSecIdentity src len s = .next t) (hK : Kept s0 s) : Kept s0 t :=
    by
  unfold execSecIdentity at he
  injection he with he
  subst he
  with_reducible repeat' (first | assumption | intro _ | apply mailbox_kept | apply identityCommand_kept)

theorem execSecAttest_kept {s0 t : State} (src len : Nat) (s : State) (he : execSecAttest src len s = .next t) (hK : Kept s0 s) : Kept s0 t := by
  unfold execSecAttest at he
  injection he with he
  subst he
  with_reducible repeat' (first | assumption | intro _ | apply mailbox_kept | apply attestCommand_kept)

theorem loadDedup_kept {s0 : State} (s : State) (hK : Kept s0 s) : Kept s0 (State.loadDedup s) := by
  unfold State.loadDedup
  with_reducible repeat' (first | assumption | apply Keeps_of | simp only [Kept_mk_iff])

theorem judgeSecret_kept {s0 : State} (os arrayId keyCheck : List Byte) (s : State) (hK : Kept s0 s) : Kept s0 (State.judgeSecret os arrayId
    keyCheck s).2 := by
  unfold State.judgeSecret
  with_reducible repeat' (first | assumption | intro _ | apply loadDedup_kept | apply Keeps_of | apply Kept_ite2 | simp only [Kept_mk_iff])

theorem takeShare_kept {s0 : State} (x : Share) (s : State) (hK : Kept s0 s) : Kept s0 (State.takeShare x s).2 := by
  unfold State.takeShare
  with_reducible repeat' (first | assumption | intro _ | apply judgeSecret_kept | apply Keeps_of | apply Kept_ite2 | simp only [Kept_mk_iff])

theorem ownerShareCommand_kept {s0 : State} (b : List Byte) (s : State) (hK : Kept s0 s) : Kept s0 (State.ownerShareCommand b s).s := by
  unfold State.ownerShareCommand
  with_reducible repeat' (first | assumption | intro _ | apply zeroMailbox_kept | apply takeShare_kept | apply Kept_iteP (π := MbEnd.s))

theorem execSecOwnerShare_kept {s0 t : State} (src len : Nat) (s : State) (he : execSecOwnerShare src len s = .next t) (hK : Kept s0 s) : Kept s0
    t := by
  unfold execSecOwnerShare at he
  injection he with he
  subst he
  with_reducible repeat' (first | assumption | intro _ | apply mailbox_kept | apply ownerShareCommand_kept)

theorem keyInputCommand_kept {s0 : State} (b : List Byte) (s : State) (hK : Kept s0 s) : Kept s0 (State.keyInputCommand b s).s := by
  unfold State.keyInputCommand
  with_reducible repeat' (first | assumption | intro _ | apply setDigestKey_kept | apply loadSlot_kept | apply Kept_iteP (π := MbEnd.s))

theorem execSecKeyInput_kept {s0 t : State} (src len : Nat) (s : State) (he : execSecKeyInput src len s = .next t) (hK : Kept s0 s) : Kept s0 t :=
    by
  unfold execSecKeyInput at he
  injection he with he
  subst he
  with_reducible repeat' (first | assumption | intro _ | apply mailbox_kept | apply keyInputCommand_kept)

theorem arrayInfoCommand_kept {s0 : State} (s : State) (hK : Kept s0 s) : Kept s0 (State.arrayInfoCommand s).s := by
  unfold State.arrayInfoCommand
  with_reducible repeat' (first | assumption | split)

theorem execSecArrayInfo_kept {s0 t : State} (src len : Nat) (s : State) (he : execSecArrayInfo src len s = .next t) (hK : Kept s0 s) : Kept s0 t
    := by
  unfold execSecArrayInfo at he
  injection he with he
  subst he
  with_reducible repeat' (first | assumption | intro _ | apply mailbox_kept | apply arrayInfoCommand_kept)

theorem execSecZeroise_kept {s0 t : State} (src len : Nat) (s : State) (he : execSecZeroise src len s = .next t) (hK : Kept s0 s) : Kept s0 t := by
  unfold execSecZeroise at he
  injection he with he
  subst he
  with_reducible repeat' (first | assumption | intro _ | apply keeperAlarm_kept | apply mailbox_kept)

theorem mailboxWrite_kept {s0 : State} (src v : Nat) (s : State) (hK : Kept s0 s) : Kept s0 (State.mailboxWrite src v s) := by
  unfold State.mailboxWrite
  with_reducible repeat' (first
    | assumption | intro _ | apply keeperAlarm_kept | apply mailbox_kept | apply identityCommand_kept | apply attestCommand_kept
    | apply ownerShareCommand_kept | apply keyInputCommand_kept | apply arrayInfoCommand_kept | split)

theorem execKeeperAlarm_kept {s0 t : State} (code : Nat) (s : State) (he : execKeeperAlarm code s = .next t) (hK : Kept s0 s) : Kept s0 t := by
  unfold execKeeperAlarm at he
  injection he with he
  subst he
  with_reducible repeat' (first | assumption | intro _ | apply keeperAlarm_kept | apply Kept_ite)

theorem execAlarmEnd_kept {s0 t : State} (code : Nat) (passes : Bool) (s : State) (he : execAlarmEnd code passes s = .next t) (hK : Kept s0 s) :
    Kept s0 t := by
  unfold execAlarmEnd at he
  injection he with he
  subst he
  with_reducible repeat' (first | assumption | intro _ | apply Kept_ite | apply Keeps_of | simp only [Kept_mk_iff])

/-! ### Modes -/

theorem latchHlt_kept {s0 : State} (src op : Nat) (s : State) (hK : Kept s0 s) : Kept s0 (State.latchHlt src op s) := by
  unfold State.latchHlt
  with_reducible repeat' (first | assumption | intro _ | apply Kept_ite | apply Keeps_of | simp only [Kept_mk_iff])

theorem onHlt_kept {s0 : State} (src op : Nat) (anchors : Bool) (body : State → State) (s : State) (hK : Kept s0 s) (hb0 : ∀ (a0 : State), Kept s0
    a0 → Kept s0 (body a0)) : Kept s0 (State.onHlt src op anchors body s) := by
  unfold State.onHlt
  with_reducible repeat' (first | assumption | intro _ | apply hb0 | apply Kept_ite | apply Keeps_of | simp only [Kept_mk_iff])

theorem beginRestore_kept {s0 : State} (seen : Seen) (shows : Shows) (s : State) (hK : Kept s0 s) : Kept s0 (State.beginRestore seen shows s) := by
  unfold State.beginRestore
  with_reducible repeat' (first
    | assumption | intro _ | apply runSteps_kept | apply startJoin_kept | apply Kept_ite | apply Keeps_of | simp only [Kept_mk_iff])

theorem execHltRestore_kept {s0 t : State} (src : Nat) (found : List Sys2Proof.Found) (seen : Seen) (shows : Shows) (s : State) (he :
    execHltRestore src found seen shows s = .next t) (hK : Kept s0 s) : Kept s0 t := by
  unfold execHltRestore at he
  injection he with he
  subst he
  with_reducible repeat' (first
    | assumption | intro _ | apply setMode_kept | apply releasePerst_kept | apply carrierUp_kept | apply onHlt_kept | apply beginRestore_kept
    | apply Kept_foldl)

theorem labelBlank_kept {s0 : State} (s : State) (hK : Kept s0 s) : Kept s0 (State.labelBlank s) := by
  unfold State.labelBlank
  with_reducible repeat' (first | assumption | intro _ | apply modCar_kept | apply Kept_ite | apply Kept_foldl | split)

theorem drawArray_kept {s0 : State} (s : State) (hK : Kept s0 s) : Kept s0 (State.drawArray s) := by
  unfold State.drawArray
  with_reducible repeat' (first | assumption | apply freeBytes_kept | apply loadDedup_kept | apply Keeps_of | simp only [Kept_mk_iff])

theorem writeFirst_kept {s0 : State} (c : Checkpoint) (s : State) (hK : Kept s0 s) : Kept s0 (State.writeFirst c s) := by
  unfold State.writeFirst
  with_reducible repeat' (first
    | assumption | apply openReserve_kept | apply writeAnchors_kept | apply Keeps_of | split | refine Kept_snd (by assumption) ?_
    | simp only [Kept_mk_iff])

theorem execHltCreateArray_kept {s0 t : State} (src : Nat) (anchors : Bool) (seen : Seen) (s : State) (he : execHltCreateArray src anchors seen s
    = .next t) (hK : Kept s0 s) : Kept s0 t := by
  unfold execHltCreateArray at he
  injection he with he
  subst he
  with_reducible repeat' (first
    | assumption | intro _ | apply clearRegions_kept | apply loadCheckpoint_kept | apply replay_kept | apply onHlt_kept | apply labelBlank_kept
    | apply drawArray_kept | apply writeFirst_kept)

theorem countGuard_kept {s0 : State} (s : State) (hK : Kept s0 s) : Kept s0 (State.countGuard s) := by
  unfold State.countGuard
  with_reducible repeat' (first | assumption | apply bump_kept)

theorem activateScheduled_kept {s0 : State} (slot : Nat) (s : State) (hK : Kept s0 s) : Kept s0 (State.activateScheduled slot s) := by
  unfold State.activateScheduled
  with_reducible repeat' (first
    | assumption | intro _ | apply activateImage_kept | apply countGuard_kept | apply Kept_ite | apply Keeps_of | simp only [Kept_mk_iff])

theorem activateInQuiesce_kept {s0 : State} (s : State) (hK : Kept s0 s) : Kept s0 (State.activateInQuiesce s) := by
  unfold State.activateInQuiesce
  with_reducible repeat' (first | assumption | intro _ | apply activateScheduled_kept | apply Kept_ite | split)

theorem activateDrained_kept {s0 : State} (s : State) (hK : Kept s0 s) : Kept s0 (State.activateDrained s) := by
  unfold State.activateDrained
  with_reducible repeat' (first | assumption | intro _ | apply activateScheduled_kept | apply Kept_ite | split)

theorem quiesce_kept {s0 : State} (s : State) (hK : Kept s0 s) : Kept s0 (State.quiesce s) := by
  unfold State.quiesce
  with_reducible repeat' (first
    | assumption | intro _ | apply setMode_kept | apply endLoose_kept | apply noteDrained_kept | apply startHandover_kept
    | apply activateInQuiesce_kept | apply Kept_ite)

theorem execHltQuiesce_kept {s0 t : State} (src : Nat) (s : State) (he : execHltQuiesce src s = .next t) (hK : Kept s0 s) : Kept s0 t := by
  unfold execHltQuiesce at he
  injection he with he
  subst he
  with_reducible repeat' (first | assumption | intro _ | apply onHlt_kept | apply quiesce_kept)

theorem execHltResume_kept {s0 t : State} (src : Nat) (s : State) (he : execHltResume src s = .next t) (hK : Kept s0 s) : Kept s0 t := by
  unfold execHltResume at he
  injection he with he
  subst he
  with_reducible repeat' (first | assumption | intro _ | apply setMode_kept | apply onHlt_kept)

theorem execHltRejoin_kept {s0 t : State} (src : Nat) (seen : Seen) (shows : Shows) (s : State) (he : execHltRejoin src seen shows s = .next t)
    (hK : Kept s0 s) : Kept s0 t := by
  unfold execHltRejoin at he
  injection he with he
  subst he
  with_reducible repeat' (first
    | assumption | intro _ | apply setMode_kept | apply onHlt_kept | apply beginRestore_kept | apply Keeps_of | simp only [Kept_mk_iff])

theorem execLpddrTrainStart_kept {s0 t : State} (mask : Nat) (s : State) (he : execLpddrTrainStart mask s = .next t) (hK : Kept s0 s) : Kept s0 t
    := by
  unfold execLpddrTrainStart at he
  injection he with he
  subst he
  with_reducible repeat' (first | assumption | apply trainLpddr_kept)

theorem fenceChannels_kept {s0 : State} (mask : Nat) (s : State) (hK : Kept s0 s) : Kept s0 (State.fenceChannels mask s) := by
  unfold State.fenceChannels
  with_reducible repeat' (first
    | assumption | intro _ | apply setReg_kept | apply Kept_ite | apply Keeps_of | apply Keeps_filterMem | simp only [Kept_mk_iff])

theorem execLpddrTrainComplete_kept {s0 t : State} (failed : BitVec 8) (s : State) (he : execLpddrTrainComplete failed s = .next t) (hK : Kept s0
    s) : Kept s0 t := by
  unfold execLpddrTrainComplete at he
  injection he with he
  subst he
  with_reducible repeat' (first | assumption | intro _ | apply fenceChannels_kept | apply Kept_ite | apply Keeps_of | simp only [Kept_mk_iff])

theorem afterChannelFence_kept {s0 : State} (src : Nat) (held : Bool) (s : State) (hK : Kept s0 s) : Kept s0 (State.afterChannelFence src held s)
    := by
  unfold State.afterChannelFence
  with_reducible repeat' (first | assumption | intro _ | apply releaseCustody_kept | apply afterFence_kept | apply Kept_ite)

theorem execLpdFence_kept {s0 t : State} (src mask : Nat) (s : State) (he : execLpdFence src mask s = .next t) (hK : Kept s0 s) : Kept s0 t := by
  unfold execLpdFence at he
  injection he with he
  subst he
  with_reducible repeat' (first | assumption | intro _ | apply fenceChannels_kept | apply afterChannelFence_kept | apply Kept_ite)

/-! ### Update -/

theorem updEnds_kept {s0 : State} (result : Nat) (s : State) (hK : Kept s0 s) : Kept s0 (State.updEnds result s) := by
  unfold State.updEnds
  with_reducible repeat' (first | assumption | apply countGuard_kept | apply Keeps_of | split | simp only [Kept_mk_iff])

theorem updTakes_kept {s0 : State} (result : Option Nat) (s : State) (hK : Kept s0 s) : Kept s0 (State.updTakes result s) := by
  unfold State.updTakes
  with_reducible repeat' (first | assumption | apply Keeps_of | simp only [Kept_mk_iff])

theorem onUpd_kept {s0 : State} (src op slot : Nat) (body : State → State) (s : State) (hK : Kept s0 s) (hb0 : ∀ (a0 : State), Kept s0 a0 → Kept
    s0 (body a0)) : Kept s0 (State.onUpd src op slot body s) := by
  unfold State.onUpd
  with_reducible repeat' (first | assumption | intro _ | apply hb0 | apply Kept_ite | apply Keeps_of | simp only [Kept_mk_iff])

theorem modSlot_kept {s0 : State} (n : Nat) (f : Slot → Slot) (s : State) (hK : Kept s0 s) : Kept s0 (State.modSlot n f s) := by
  unfold State.modSlot
  with_reducible repeat' (first | assumption | apply Keeps_of | simp only [Kept_mk_iff])

theorem updErase_kept {s0 : State} (slot : Nat) (s : State) (hK : Kept s0 s) : Kept s0 (State.updErase slot s) := by
  unfold State.updErase
  with_reducible repeat' (first | assumption | intro _ | apply updEnds_kept | apply updTakes_kept | apply modSlot_kept | apply Kept_ite)

theorem updWrite_kept {s0 : State} (slot : Nat) (s : State) (hK : Kept s0 s) : Kept s0 (State.updWrite slot s) := by
  unfold State.updWrite
  with_reducible repeat' (first
    | assumption | intro _ | apply updEnds_kept | apply updTakes_kept | apply modSlot_kept | apply Kept_ite | apply Keeps_of
    | simp only [Kept_mk_iff])

theorem updVerify_kept {s0 : State} (slot : Nat) (s : State) (hK : Kept s0 s) : Kept s0 (State.updVerify slot s) := by
  unfold State.updVerify
  with_reducible repeat' (first | assumption | intro _ | apply updEnds_kept | apply updTakes_kept | apply modSlot_kept | apply Kept_ite)

theorem scheduleAt_kept {s0 : State} (slot a : Nat) (s : State) (hK : Kept s0 s) : Kept s0 (State.scheduleAt slot a s).2 := by
  unfold State.scheduleAt
  with_reducible repeat' (first | assumption | intro _ | apply Keeps_of | apply Kept_ite2 | simp only [Kept_mk_iff])

theorem updSchedule_kept {s0 : State} (slot : Nat) (s : State) (hK : Kept s0 s) : Kept s0 (State.updSchedule slot s) := by
  unfold State.updSchedule
  with_reducible repeat' (first
    | assumption | intro _ | apply tellPartner_kept | apply updEnds_kept | apply updTakes_kept | apply scheduleAt_kept | apply Kept_ite)

theorem updCancel_kept {s0 : State} (s : State) (hK : Kept s0 s) : Kept s0 (State.updCancel s) := by
  unfold State.updCancel
  with_reducible repeat' (first | assumption | intro _ | apply updEnds_kept | apply Kept_ite | apply Keeps_of | split | simp only [Kept_mk_iff])

theorem execUpdErase_kept {s0 t : State} (src slot : Nat) (s : State) (he : execUpdErase src slot s = .next t) (hK : Kept s0 s) : Kept s0 t := by
  unfold execUpdErase at he
  injection he with he
  subst he
  with_reducible repeat' (first | assumption | intro _ | apply onUpd_kept | apply updErase_kept)

theorem execUpdWrite_kept {s0 t : State} (src slot : Nat) (s : State) (he : execUpdWrite src slot s = .next t) (hK : Kept s0 s) : Kept s0 t := by
  unfold execUpdWrite at he
  injection he with he
  subst he
  with_reducible repeat' (first | assumption | intro _ | apply onUpd_kept | apply updWrite_kept)

theorem execUpdVerify_kept {s0 t : State} (src slot : Nat) (s : State) (he : execUpdVerify src slot s = .next t) (hK : Kept s0 s) : Kept s0 t := by
  unfold execUpdVerify at he
  injection he with he
  subst he
  with_reducible repeat' (first | assumption | intro _ | apply onUpd_kept | apply updVerify_kept)

theorem execUpdSchedule_kept {s0 t : State} (src slot : Nat) (s : State) (he : execUpdSchedule src slot s = .next t) (hK : Kept s0 s) : Kept s0 t
    := by
  unfold execUpdSchedule at he
  injection he with he
  subst he
  with_reducible repeat' (first | assumption | intro _ | apply onUpd_kept | apply updSchedule_kept)

theorem execUpdCancel_kept {s0 t : State} (src : Nat) (s : State) (he : execUpdCancel src s = .next t) (hK : Kept s0 s) : Kept s0 t := by
  unfold execUpdCancel at he
  injection he with he
  subst he
  with_reducible repeat' (first | assumption | intro _ | apply onUpd_kept | apply updCancel_kept)

theorem updCommand_kept {s0 : State} (src v : Nat) (s : State) (hK : Kept s0 s) : Kept s0 (State.updCommand src v s) := by
  unfold State.updCommand
  with_reducible repeat' (first
    | assumption | intro _ | apply onUpd_kept | apply updErase_kept | apply updWrite_kept | apply updVerify_kept | apply updSchedule_kept
    | apply updCancel_kept | split)

theorem execUpdCommandComplete_kept {s0 t : State} (misread : List (Nat × Byte)) (s : State) (he : execUpdCommandComplete misread s = .next t) (hK
    : Kept s0 s) : Kept s0 t := by
  unfold execUpdCommandComplete at he
  injection he with he
  subst he
  with_reducible repeat' (first | assumption | intro _ | apply modSlot_kept | apply Kept_ite | apply Keeps_of | split | simp only [Kept_mk_iff])

theorem answerSchedule_kept {s0 : State} (b : List Byte) (s : State) (hK : Kept s0 s) : Kept s0 (State.answerSchedule b s) := by
  unfold State.answerSchedule
  with_reducible repeat' (first | assumption | apply tellPartner_kept)

theorem takeAcceptance_kept {s0 : State} (b : List Byte) (s : State) (hK : Kept s0 s) : Kept s0 (State.takeAcceptance b s) := by
  unfold State.takeAcceptance
  with_reducible repeat' (first | assumption | intro _ | apply updTakes_kept | apply scheduleAt_kept | apply Kept_ite)

theorem commitShared_kept {s0 : State} (s : State) (hK : Kept s0 s) : Kept s0 (State.commitShared s) := by
  unfold State.commitShared
  with_reducible repeat' (first | assumption | intro _ | apply Kept_ite | apply Keeps_of | simp only [Kept_mk_iff])

theorem takeLevels_kept {s0 : State} (b : List Byte) (s : State) (hK : Kept s0 s) : Kept s0 (State.takeLevels b s) := by
  unfold State.takeLevels
  with_reducible repeat' (first | assumption | apply commitShared_kept | apply Keeps_of | simp only [Kept_mk_iff])

theorem confirmTrial_kept {s0 : State} (s : State) (hK : Kept s0 s) : Kept s0 (State.confirmTrial s) := by
  unfold State.confirmTrial
  with_reducible repeat' (first | assumption | apply tellLevels_kept | apply commitShared_kept | apply Keeps_of | simp only [Kept_mk_iff])

theorem confirmWrite_kept {s0 : State} (src v : Nat) (s : State) (hK : Kept s0 s) : Kept s0 (State.confirmWrite src v s) := by
  unfold State.confirmWrite
  with_reducible repeat' (first | assumption | intro _ | apply confirmTrial_kept | apply Kept_ite)

theorem execHealthConfirm_kept {s0 t : State} (src : Nat) (v : Word32) (s : State) (he : execHealthConfirm src v s = .next t) (hK : Kept s0 s) :
    Kept s0 t := by
  unfold execHealthConfirm at he
  injection he with he
  subst he
  with_reducible repeat' (first | assumption | apply confirmWrite_kept)

theorem beginFallback_kept {s0 : State} (s : State) (hK : Kept s0 s) : Kept s0 (State.beginFallback s) := by
  unfold State.beginFallback
  with_reducible repeat' (first | assumption | intro _ | apply startHandover_kept | apply Kept_ite | apply Keeps_of | simp only [Kept_mk_iff])

theorem execConfirmWindowExpiry_kept {s0 t : State} (s : State) (he : execConfirmWindowExpiry s = .next t) (hK : Kept s0 s) : Kept s0 t := by
  unfold execConfirmWindowExpiry at he
  injection he with he
  subst he
  with_reducible repeat' (first | assumption | intro _ | apply beginFallback_kept | apply Kept_ite)

theorem execFallbackActivation_kept {s0 t : State} (s : State) (he : execFallbackActivation s = .next t) (hK : Kept s0 s) : Kept s0 t := by
  unfold execFallbackActivation at he
  injection he with he
  subst he
  with_reducible repeat' (first | assumption | intro _ | apply activateImage_kept | apply Kept_ite | split)

theorem execGuardInputChange_kept {s0 t : State} (i : Nat) (asserted : Bool) (s : State) (he : execGuardInputChange i asserted s = .next t) (hK :
    Kept s0 s) : Kept s0 t := by
  unfold execGuardInputChange at he
  injection he with he
  subst he
  with_reducible repeat' (first | assumption | intro _ | apply Kept_ite | apply Keeps_of | split | simp only [Kept_mk_iff])

theorem loadSection_kept {s0 : State} (dest : Nat) (bs : List Byte) (s : State) (hK : Kept s0 s) : Kept s0 (State.loadSection dest bs s).2 := by
  unfold State.loadSection
  with_reducible repeat' (first
    | assumption | intro _ | apply putBytes_kept | apply busError_kept | apply writeSpan_kept | apply Kept_ite2 | split
    | refine Kept_snd2 (by assumption) ?_)

theorem execSectionLoad_kept {s0 t : State} (i dest : Nat) (s : State) (he : execSectionLoad i dest s = .next t) (hK : Kept s0 s) : Kept s0 t := by
  unfold execSectionLoad at he
  injection he with he
  subst he
  with_reducible repeat' (first
    | assumption | intro _ | apply beginFallback_kept | apply loadSection_kept | apply Kept_ite | apply Keeps_of | simp only [Kept_mk_iff])

/-! ### Hooks -/

theorem sendActivation_kept {s0 : State} (s : State) (hK : Kept s0 s) : Kept s0 (State.sendActivation s) := by
  unfold State.sendActivation
  with_reducible repeat' (first
    | assumption | intro _ | apply startHandover_kept | apply Kept_ite | apply Keeps_of | split | simp only [Kept_mk_iff])

theorem endGiven_kept {s0 : State} (s : State) (hK : Kept s0 s) : Kept s0 (State.endGiven s) := by
  unfold State.endGiven
  with_reducible repeat' (first | assumption | intro _ | apply endReads_kept | apply endLoose_kept | apply Kept_ite)

theorem handOver_kept {s0 : State} (s : State) (hK : Kept s0 s) : Kept s0 (State.handOver s) := by
  unfold State.handOver
  with_reducible repeat' (first | assumption | intro _ | apply finishHandover_kept | apply activateInQuiesce_kept | apply Kept_ite)

theorem cycleOpened_kept {s0 : State} (s : State) (hK : Kept s0 s) : Kept s0 (State.cycleOpened s) := by
  unfold State.cycleOpened
  with_reducible repeat' (first
    | assumption | apply openFailback_kept | apply activateDrained_kept | apply sendActivation_kept | apply endGiven_kept | apply handOver_kept)

theorem execLedgerCycleClose_kept {s0 t : State} (s : State) (he : execLedgerCycleClose s = .next t) (hK : Kept s0 s) : Kept s0 t := by
  unfold execLedgerCycleClose at he
  injection he with he
  subst he
  with_reducible repeat' (first | assumption | intro _ | apply closeCycle_kept | apply cycleOpened_kept | apply Kept_ite)

theorem execLedgerConfirm_kept {s0 t : State} (slot : Nat) (s : State) (he : execLedgerConfirm slot s = .next t) (hK : Kept s0 s) : Kept s0 t := by
  unfold execLedgerConfirm at he
  injection he with he
  subst he
  with_reducible repeat' (first | assumption | intro _ | apply confirmCycle_kept | apply handOver_kept | apply Kept_ite | split)

theorem completeJoin_kept {s0 : State} (s : State) (hK : Kept s0 s) : Kept s0 (State.completeJoin s) := by
  unfold State.completeJoin
  with_reducible repeat' (first | assumption | intro _ | apply raiseEntries_kept | apply Kept_ite | apply Keeps_of | simp only [Kept_mk_iff])

theorem execApplyCycle_kept {s0 t : State} (seen : Seen) (s : State) (he : execApplyCycle seen s = .next t) (hK : Kept s0 s) : Kept s0 t := by
  unfold execApplyCycle at he
  injection he with he
  subst he
  with_reducible repeat' (first
    | assumption | intro _ | apply noteDrained_kept | apply applyNext_kept | apply completeJoin_kept | apply Kept_ite | split)

theorem heed_kept {s0 : State} (kind : Nat) (b : List Byte) (s : State) (hK : Kept s0 s) : Kept s0 (State.heed kind b s) := by
  unfold State.heed
  with_reducible repeat' (first
    | assumption | apply reportRow_kept | apply queueLost_kept | apply addDeferred_kept | apply takeErase_kept | apply erased_kept
    | apply answerSchedule_kept | apply takeAcceptance_kept | apply takeLevels_kept | apply Keeps_of | split | simp only [Kept_mk_iff])

theorem execSupervisorMessage_kept {s0 t : State} (b : List Byte) (s : State) (he : execSupervisorMessage b s = .next t) (hK : Kept s0 s) : Kept
    s0 t := by
  unfold execSupervisorMessage at he
  injection he with he
  subst he
  with_reducible repeat' (first | assumption | intro _ | apply discardFrame_kept | apply noteFrame_kept | apply heed_kept | apply Kept_ite)

/-! ### ControlRings -/

theorem giveNumber_kept {s0 : State} (id index v : Nat) (s : State) (hK : Kept s0 s) : Kept s0 (State.giveNumber id index v s) := by
  unfold State.giveNumber
  with_reducible repeat' (first
    | assumption | intro _ | apply giveSetting_kept | apply trainLpddr_kept | apply tellPartner_kept | apply Kept_ite | apply Keeps_of | split
    | simp only [Kept_mk_iff])

theorem setNumber_kept {s0 : State} (k : NumberSetting) (id index v : Nat) (s : State) (hK : Kept s0 s) : Kept s0 (State.setNumber k id index v
    s).2 := by
  unfold State.setNumber
  with_reducible repeat' (first | assumption | intro _ | apply giveNumber_kept | apply Kept_ite2)

theorem setOnce_kept {s0 : State} (id v : Nat) (now : Option Nat) (used : Bool) (s : State) (hK : Kept s0 s) : Kept s0 (State.setOnce id v now
    used s).2 := by
  unfold State.setOnce
  with_reducible repeat' (first | assumption | intro _ | apply giveSetting_kept | apply Kept_ite2)

theorem setRegion_kept {s0 : State} (id v : Nat) (s : State) (hK : Kept s0 s) : Kept s0 (State.setRegion id v s).2 := by
  unfold State.setRegion
  with_reducible repeat' (first | assumption | intro _ | apply setOnce_kept | apply Kept_ite2)

theorem setData_kept {s0 : State} (id index : Nat) (d : List Byte) (s : State) (hK : Kept s0 s) : Kept s0 (State.setData id index d s).2 := by
  unfold State.setData
  with_reducible repeat' (first | assumption | intro _ | apply giveSetting_kept | apply setOnce_kept | apply Kept_ite2 | split)

def SetKept (s0 : State) : SetEnd → Prop
  | .ends _ t => Kept s0 t
  | .waits t => Kept s0 t
theorem setProfile_kept {s0 : State} (r nsid v : Nat) (s : State) (hK : Kept s0 s) : SetKept s0 (State.setProfile r nsid v s) := by
  unfold State.setProfile
  split
  · exact hK
  · split
    · exact hK
    · split
      · exact hK
      · split
        · exact hK
        · exact queueAnswered_kept _ _ _ hK

theorem setOne_kept {s0 : State} (r id index v : Nat) (d : List Byte) (s : State) (hK : Kept s0 s) : SetKept s0 (State.setOne r id index v d s) :=
    by
  have hf : ∀ p : Nat × State, Kept s0 p.2 → SetKept s0 (if index = 0 then SetEnd.ends p.1 p.2 else SetEnd.ends crUnknown s) := by
    intro p hp
    split
    · exact hp
    · exact hK
  unfold State.setOne
  dsimp only
  split
  · exact hf _ (setRegion_kept _ _ _ hK)
  · exact hf _ (setRegion_kept _ _ _ hK)
  · exact setProfile_kept _ _ _ _ hK
  · exact hK
  · split
    · exact hf _ (setOnce_kept _ _ _ _ _ hK)
    · exact hf (crOutOfRange, s) hK
  · split
    · exact hf _ (setOnce_kept _ _ _ _ _ hK)
    · exact hf (crOutOfRange, s) hK
  · split
    · exact setData_kept _ _ _ _ hK
    · exact hK
  · split
    · exact hf _ (setData_kept _ _ _ _ hK)
    · exact hK
  · split
    · exact hf _ (setData_kept _ _ _ _ hK)
    · exact hK
  · split
    · exact hf _ (setData_kept _ _ _ _ hK)
    · exact hK
  · split
    · exact setNumber_kept _ _ _ _ _ hK
    · exact hK

theorem execCrSettings_kept {s0 t : State} (r : Nat) (data : Option (List Byte)) (s : State) (he : execCrSettings r data s = .next t) (hK : Kept
    s0 s) : Kept s0 t := by
  unfold execCrSettings at he
  injection he with he
  subst he
  refine onRingData_kept _ _ _ _ _ hK ?_
  intro c d s hK
  split
  · exact crComplete_kept _ _ _ _ _ hK
  · have h := setOne_kept r (ringArg0 c) (ringArg1 c) (ringArg2 c) d s hK
    generalize State.setOne r (ringArg0 c) (ringArg1 c) (ringArg2 c) d s = x at h ⊢
    cases x with
    | ends st t => exact crComplete_kept _ _ _ _ _ h
    | waits t => exact ringWait_kept _ _ h

theorem execCrStatistics_kept {s0 t : State} (r : Nat) (s : State) (he : execCrStatistics r s = .next t) (hK : Kept s0 s) : Kept s0 t := by
  unfold execCrStatistics at he
  injection he with he
  subst he
  with_reducible repeat' (first | assumption | intro _ | apply hostWrite_kept | apply crComplete_kept | apply onRing_kept | apply Kept_ite | split)

theorem execCrReshape_kept {s0 t : State} (r : Nat) (data : Option (List Byte)) (s : State) (he : execCrReshape r data s = .next t) (hK : Kept s0
    s) : Kept s0 t := by
  unfold execCrReshape at he
  injection he with he
  subst he
  with_reducible repeat' (first
    | assumption | intro _ | apply crComplete_kept | apply queueAnswered_kept | apply onRingData_kept | apply ringWait_kept | apply Kept_ite)

theorem execCrReshapeCancel_kept {s0 t : State} (r : Nat) (s : State) (he : execCrReshapeCancel r s = .next t) (hK : Kept s0 s) : Kept s0 t := by
  unfold execCrReshapeCancel at he
  injection he with he
  subst he
  with_reducible repeat' (first
    | assumption | intro _ | apply crComplete_kept | apply onRing_kept | apply Kept_ite | apply Keeps_of | simp only [Kept_mk_iff])

theorem execCrSolo_kept {s0 t : State} (r : Nat) (seen : Seen) (s : State) (he : execCrSolo r seen s = .next t) (hK : Kept s0 s) : Kept s0 t := by
  unfold execCrSolo at he
  injection he with he
  subst he
  with_reducible repeat' (first | assumption | intro _ | apply crComplete_kept | apply onRing_kept | apply startSolo_kept | apply Kept_ite)

theorem execCrHandover_kept {s0 t : State} (r : Nat) (s : State) (he : execCrHandover r s = .next t) (hK : Kept s0 s) : Kept s0 t := by
  unfold execCrHandover at he
  injection he with he
  subst he
  with_reducible repeat' (first
    | assumption | intro _ | apply crComplete_kept | apply onRing_kept | apply ringWait_kept | apply startHandover_kept | apply Kept_ite)

theorem execCrLabel_kept {s0 t : State} (r slot : Nat) (agreed : Bool) (s : State) (he : execCrLabel r slot agreed s = .next t) (hK : Kept s0 s) :
    Kept s0 t := by
  unfold execCrLabel at he
  injection he with he
  subst he
  with_reducible repeat' (first
    | assumption | intro _ | apply crComplete_kept | apply modCar_kept | apply admitCarrier_kept | apply onRing_kept | apply Kept_ite)

theorem execCrHealthRing_kept {s0 t : State} (r : Nat) (s : State) (he : execCrHealthRing r s = .next t) (hK : Kept s0 s) : Kept s0 t := by
  unfold execCrHealthRing at he
  injection he with he
  subst he
  with_reducible repeat' (first
    | assumption | intro _ | apply crComplete_kept | apply onRing_kept | apply deliverReport_kept | apply Kept_ite | apply Keeps_of
    | apply Kept_foldl | simp only [Kept_mk_iff])

end Sys2Proof.Machine
end

