-- ==== Sys2Proof/Laws/KeptCommands.lean ====
section
/-! SUPPORT. `Kept` of DMA, the endpoint, power and the commands of the programmable engines. -/

set_option maxRecDepth 10000

namespace Sys2Proof.Machine

/-! ### Dma -/

theorem readAll_kept {s0 : State} (src : Nat) (x0 : List (Nat × Nat)) (x1 : State) (hK : Kept s0 x1) : Kept s0 (State.readAll src x0 x1).2.2 := by
  revert hK
  fun_induction State.readAll <;> intro hK <;> (with_reducible repeat' (first
    | assumption | apply busRead_kept | apply_assumption | refine Kept_snd2 (by assumption) ?_))

theorem writeAll_kept {s0 : State} (src : Nat) (x0 : List (Nat × Nat)) (x1 : List Byte) (x2 : State) (hK : Kept s0 x2) : Kept s0 (State.writeAll
    src x0 x1 x2).2 := by
  revert hK
  fun_induction State.writeAll <;> intro hK <;> (with_reducible repeat' (first
    | assumption | apply busWrite_kept | apply_assumption | refine Kept_snd (by assumption) ?_))

theorem moveRun_kept {s0 : State} (src n : Nat) (fill : Option Nat) (r : Nat × Nat) (s : State) (hK : Kept s0 s) : Kept s0 (State.moveRun src n
    fill r s).2 := by
  unfold State.moveRun
  with_reducible repeat' (first | assumption | apply readAll_kept | apply writeAll_kept | split | refine Kept_snd2 (by assumption) ?_)

theorem moveRuns_kept {s0 : State} (src n : Nat) (fill : Option Nat) (x0 : List (Nat × Nat)) (x1 : State) (hK : Kept s0 x1) : Kept s0
    (State.moveRuns src n fill x0 x1).2 := by
  revert hK
  fun_induction State.moveRuns <;> intro hK <;> (with_reducible repeat' (first
    | assumption | apply moveRun_kept | apply_assumption | refine Kept_snd (by assumption) ?_))

theorem readSome_kept {s0 : State} (src : Nat) (held : List Nat) (x0 : List (Nat × Nat)) (x1 : State) (hK : Kept s0 x1) : Kept s0 (State.readSome
    src held x0 x1).2 := by
  revert hK
  fun_induction State.readSome <;> intro hK <;> (with_reducible repeat' (first
    | assumption | apply takeFree_kept | apply busRead_kept | apply_assumption | split | refine Kept_snd (by assumption) ?_
    | refine Kept_snd2 (by assumption) ?_))

theorem writeSomeOf_kept {s0 : State} (src : Nat) (x0 : List (Nat × Nat)) (x1 : List (Option Byte)) (x2 : State) (hK : Kept s0 x2) : Kept s0
    (State.writeSomeOf src x0 x1 x2).2.2 := by
  induction x0 generalizing x1 x2 with
  | nil => exact hK
  | cons p t ih =>
    rw [State.writeSomeOf]
    dsimp only
    generalize (x2.freeBit && _ && _) = go
    have h1 : ∀ l, Kept s0 (if go = true then x2.takeFree.busWrite src p.1 l else (some .unoccupied, x2.takeFree)).2 := by
      intro l
      split
      · exact busWrite_kept _ _ _ _ (takeFree_kept _ hK)
      · exact takeFree_kept _ hK
    generalize hl : List.map _ _ = l
    have h2 := h1 l
    generalize (if go = true then x2.takeFree.busWrite src p.1 l else (some .unoccupied, x2.takeFree)) = y at h2 ⊢
    split <;> exact ih _ _ h2

theorem moveSome_kept {s0 : State} (src n : Nat) (fill : Option Nat) (held : List Nat) (x0 : List (Nat × Nat)) (x1 : State) (hK : Kept s0 x1) :
    Kept s0 (State.moveSome src n fill held x0 x1).2 := by
  induction x0 generalizing held x1 with
  | nil => exact hK
  | cons r t ih =>
    cases fill <;> simp only [State.moveSome]
    · exact ih _ _ (writeSomeOf_kept _ _ _ _ (readSome_kept _ _ _ _ hK))
    · exact ih _ _ (writeSomeOf_kept _ _ _ _ hK)

theorem transferPart_kept {s0 : State} (u : Nat) (fill : Bool) (b : Vec) (s : State) (hK : Kept s0 s) : Kept s0 (State.transferPart u fill b s).2
    := by
  unfold State.transferPart
  with_reducible repeat' (first | assumption | apply bump64_kept | apply moveSome_kept)

theorem transfer_kept {s0 : State} (u : Nat) (fill : Bool) (b : Vec) (s : State) (hK : Kept s0 s) : Kept s0 (State.transfer u fill b s).2.2 := by
  unfold State.transfer
  with_reducible repeat' (first
    | assumption | apply bump64_kept | apply engineError_kept | apply moveRuns_kept | apply transferPart_kept | split
    | refine Kept_snd (by assumption) ?_ | simp only [Kept_mk_iff])

theorem runTransfer_kept {s0 : State} (u : Nat) (fill : Bool) (c : Cmd) (s : State) (hK : Kept s0 s) : Kept s0 (State.runTransfer u fill c s).2 :=
    by
  unfold State.runTransfer
  with_reducible repeat' (first | assumption | apply transfer_kept)

theorem dmaTransfer_kept {s0 : State} (u : Nat) (fill : Bool) (s : State) (hK : Kept s0 s) : Kept s0 (State.dmaTransfer u fill s) := by
  unfold State.dmaTransfer
  with_reducible repeat' (first | assumption | intro _ | apply engineEvent_kept | apply checkBlock_kept | apply runTransfer_kept)

theorem execDmaCopy_kept {s0 t : State} (u : Nat) (s : State) (he : execDmaCopy u s = .next t) (hK : Kept s0 s) : Kept s0 t := by
  unfold execDmaCopy at he
  injection he with he
  subst he
  with_reducible repeat' (first | assumption | intro _ | apply dmaTransfer_kept | apply Kept_ite)

theorem execDmaFill_kept {s0 t : State} (u : Nat) (s : State) (he : execDmaFill u s = .next t) (hK : Kept s0 s) : Kept s0 t := by
  unfold execDmaFill at he
  injection he with he
  subst he
  with_reducible repeat' (first | assumption | intro _ | apply dmaTransfer_kept | apply Kept_ite)

theorem runChain_kept {s0 : State} (u : Nat) (c : Cmd) (s : State) (hK : Kept s0 s) : Kept s0 (State.runChain u c s).2 := by
  unfold State.runChain
  with_reducible repeat' (first
    | assumption | apply busRead_kept | apply engineError_kept | apply transfer_kept | split | refine Kept_snd2 (by assumption) ?_)

theorem execDmaChain_kept {s0 t : State} (u : Nat) (s : State) (he : execDmaChain u s = .next t) (hK : Kept s0 s) : Kept s0 t := by
  unfold execDmaChain at he
  injection he with he
  subst he
  with_reducible repeat' (first | assumption | intro _ | apply engineEvent_kept | apply checkBlock_kept | apply runChain_kept | apply Kept_ite)

theorem writeHeader_kept {s0 : State} (u : Nat) (c : Cmd) (state st n : Nat) (s : State) (hK : Kept s0 s) : Kept s0 (State.writeHeader u c state
    st n s).2 := by
  unfold State.writeHeader
  with_reducible repeat' (first | assumption | apply busWrite_kept | apply engineError_kept | split | refine Kept_snd (by assumption) ?_)

theorem completeDescriptor_kept {s0 : State} (u st n : Nat) (c : Cmd) (s : State) (hK : Kept s0 s) : Kept s0 (State.completeDescriptor u st n c
    s).2 := by
  unfold State.completeDescriptor
  with_reducible repeat' (first | assumption | intro _ | apply bump_kept | apply writeHeader_kept | apply Kept_ite)

theorem execDescriptorComplete_kept {s0 t : State} (u : Nat) (s : State) (he : execDescriptorComplete u s = .next t) (hK : Kept s0 s) : Kept s0 t
    := by
  unfold execDescriptorComplete at he
  injection he with he
  subst he
  with_reducible repeat' (first
    | assumption | intro _ | apply askTranslations_kept | apply putCommand_kept | apply completeDescriptor_kept | apply Kept_ite | split)

theorem descriptorPart_kept {s0 : State} (u : Nat) (c : Cmd) (s : State) (hK : Kept s0 s) : Kept s0 (State.descriptorPart u c s).2 := by
  unfold State.descriptorPart
  with_reducible repeat' (first | assumption | apply transferPart_kept | split)

theorem stopDma_kept {s0 : State} (u : Nat) (c : Cmd) (s : State) (hK : Kept s0 s) : Kept s0 (State.stopDma u c s).2 := by
  unfold State.stopDma
  with_reducible repeat' (first
    | assumption | intro _ | apply transferPart_kept | apply writeHeader_kept | apply descriptorPart_kept | apply Kept_ite2)

theorem failDma_kept {s0 : State} (u : Nat) (c : Cmd) (s : State) (hK : Kept s0 s) : Kept s0 (State.failDma u c s).2 := by
  unfold State.failDma
  with_reducible repeat' (first | assumption | intro _ | apply transferPart_kept | apply descriptorPart_kept | apply Kept_ite2 | split)

theorem execDmaChAbort_kept {s0 t : State} (u : Nat) (s : State) (he : execDmaChAbort u s = .next t) (hK : Kept s0 s) : Kept s0 t := by
  unfold execDmaChAbort at he
  injection he with he
  subst he
  with_reducible repeat' (first | assumption | intro _ | apply abortChannel_kept | apply Kept_ite)

theorem unitFence_kept {s0 : State} (src cls u : Nat) (s : State) (hK : Kept s0 s) : Kept s0 (State.unitFence src cls u s) := by
  unfold State.unitFence
  with_reducible repeat' (first | assumption | apply afterFence_kept | apply fenceUnit_kept)

theorem execDmaChFence_kept {s0 t : State} (src u : Nat) (s : State) (he : execDmaChFence src u s = .next t) (hK : Kept s0 s) : Kept s0 t := by
  unfold execDmaChFence at he
  injection he with he
  subst he
  with_reducible repeat' (first | assumption | intro _ | apply unitFence_kept | apply Kept_ite)

theorem execDmaEngFence_kept {s0 t : State} (src e : Nat) (s : State) (he : execDmaEngFence src e s = .next t) (hK : Kept s0 s) : Kept s0 t := by
  unfold execDmaEngFence at he
  injection he with he
  subst he
  with_reducible repeat' (first | assumption | intro _ | apply afterFence_kept | apply fenceDmaEngine_kept | apply Kept_ite)

/-! ### Endpoint -/

theorem modRequests_kept {s0 : State} (f : Load → Load) (g : Owed → Owed) (s : State) (hK : Kept s0 s) : Kept s0 (State.modRequests f g s) := by
  unfold State.modRequests
  with_reducible repeat' (first | assumption | intro _ | apply modCore_kept | apply Kept_foldl)

theorem cutHostRequests_kept {s0 : State} (s : State) (hK : Kept s0 s) : Kept s0 (State.cutHostRequests s) := by
  unfold State.cutHostRequests
  with_reducible repeat' (first | assumption | apply modRequests_kept)

theorem setFold_wf {α : Type} [DecidableEq α] (d : α) (l : List (Nat × α)) (m : Sparse α) (h : Sparse.wf d m = true) :
    Sparse.wf d (l.foldl (fun m p => Sparse.set d p.1 p.2 m) m) = true := by
  induction l generalizing m with
  | nil => exact h
  | cons x t ih => exact ih _ (set_wf d x.1 0 x.2 m (by omega) h)

theorem epWindowReset_wf (r : Sparse Word32) (h : Sparse.wf 0 r = true) : Sparse.wf 0 (epWindowReset r) = true := by
  unfold epWindowReset
  exact setFold_wf 0 _ _ (filter_wf 0 0 _ _ h)

theorem endpointReset_kept {s0 : State} (s : State) (hK : Kept s0 s) : Kept s0 (State.endpointReset s) := by
  have h : Kept s0 s.cutHostRequests.forgetRings := forgetRings_kept _ (cutHostRequests_kept _ hK)
  unfold State.endpointReset
  simp only [Kept_mk_iff]
  exact ⟨h.1, h.2.1, h.2.2.1, fun x => epWindowReset_wf _ (hK.2.2.2.1 x), h.2.2.2.2⟩

theorem execPerstN_kept {s0 t : State} (low : Bool) (s : State) (he : execPerstN low s = .next t) (hK : Kept s0 s) : Kept s0 t := by
  unfold execPerstN at he
  injection he with he
  subst he
  with_reducible repeat' (first
    | assumption | intro _ | apply trainEndpoint_kept | apply endpointReset_kept | apply Kept_ite | apply Keeps_of | simp only [Kept_mk_iff])

theorem execHostLinkDown_kept {s0 t : State} (again : Bool) (s : State) (he : execHostLinkDown again s = .next t) (hK : Kept s0 s) : Kept s0 t := by
  unfold execHostLinkDown at he
  injection he with he
  subst he
  with_reducible repeat' (first | assumption | intro _ | apply trainEndpoint_kept | apply endpointReset_kept | apply Kept_ite)

theorem replyTo_kept {s0 : State} (src a : Nat) (data : List Byte) (ur : Bool) (s : State) (hK : Kept s0 s) : Kept s0 (State.replyTo src a data ur
    s) := by
  unfold State.replyTo
  with_reducible repeat' (first | assumption | apply Keeps_of | simp only [Kept_mk_iff])

theorem replyHost_kept {s0 : State} (a : Nat) (data : List Byte) (ur : Bool) (s : State) (hK : Kept s0 s) : Kept s0 (State.replyHost a data ur s)
    := by
  unfold State.replyHost
  with_reducible repeat' (first | assumption | apply replyTo_kept)

theorem execBar4Read_kept {s0 t : State} (o n : Nat) (s : State) (he : execBar4Read o n s = .next t) (hK : Kept s0 s) : Kept s0 t := by
  unfold execBar4Read at he
  injection he with he
  subst he
  with_reducible repeat' (first | assumption | intro _ | apply bump_kept | apply countDamage_kept | apply correct_kept | apply replyHost_kept | apply Kept_ite)

theorem execBar4Write_kept {s0 t : State} (o : Nat) (bs : List (Bool × Byte)) (s : State) (he : execBar4Write o bs s = .next t) (hK : Kept s0 s) :
    Kept s0 t := by
  unfold execBar4Write at he
  injection he with he
  subst he
  with_reducible repeat' (first | assumption | intro _ | apply bump_kept | apply countDamage_kept | apply performWrite_kept | apply Kept_ite)

theorem settleVector_kept {s0 : State} (v : Nat) (s : State) (hK : Kept s0 s) : Kept s0 (State.settleVector v s) := by
  unfold State.settleVector
  with_reducible repeat' (first | assumption | intro _ | apply emit_kept | apply Kept_ite | apply Keeps_of | simp only [Kept_mk_iff])

theorem writeMsix_kept {s0 : State} (o : Nat) (v : Word32) (s : State) (hK : Kept s0 s) : Kept s0 (State.writeMsix o v s) := by
  unfold State.writeMsix
  with_reducible repeat' (first | assumption | intro _ | apply settleVector_kept | apply Kept_ite | apply Keeps_of | simp only [Kept_mk_iff])

theorem execMsixEntryWrite_kept {s0 t : State} (o : Nat) (v : Word32) (s : State) (he : execMsixEntryWrite o v s = .next t) (hK : Kept s0 s) :
    Kept s0 t := by
  unfold execMsixEntryWrite at he
  injection he with he
  subst he
  with_reducible repeat' (first | assumption | intro _ | apply writeMsix_kept | apply Kept_ite)

theorem setFunctionMask_kept {s0 : State} (m : Bool) (s : State) (hK : Kept s0 s) : Kept s0 (State.setFunctionMask m s) := by
  unfold State.setFunctionMask
  with_reducible repeat' (first | assumption | intro _ | apply settleVector_kept | apply Keeps_of | apply Kept_foldl | simp only [Kept_mk_iff])

theorem execEpMsixSend_kept {s0 t : State} (v : Word32) (s : State) (he : execEpMsixSend v s = .next t) (hK : Kept s0 s) : Kept s0 t := by
  unfold execEpMsixSend at he
  injection he with he
  subst he
  with_reducible repeat' (first | assumption | apply sendVector_kept)

theorem settleInval_kept {s0 : State} (r : Nat × Nat) (s : State) (hK : Kept s0 s) : Kept s0 (State.settleInval r s) := by
  unfold State.settleInval
  with_reducible repeat' (first
    | assumption | intro _ | apply bump_kept | apply emit_kept | apply Kept_ite | apply Keeps_of | apply Kept_foldl | simp only [Kept_mk_iff])

theorem settleInvals_kept {s0 : State} (s : State) (hK : Kept s0 s) : Kept s0 (State.settleInvals s) := by
  unfold State.settleInvals
  with_reducible repeat' (first | assumption | intro _ | apply settleInval_kept | apply Kept_foldl)

theorem execAtsInvalidateRequest_kept {s0 t : State} (page pages : Nat) (s : State) (he : execAtsInvalidateRequest page pages s = .next t) (hK :
    Kept s0 s) : Kept s0 t := by
  unfold execAtsInvalidateRequest at he
  injection he with he
  subst he
  with_reducible repeat' (first
    | assumption | intro _ | apply revokeRange_kept | apply settleInval_kept | apply Kept_ite | apply Keeps_of | simp only [Kept_mk_iff])

theorem resumeStores_kept {s0 : State} (k : Nat) (s : State) (hK : Kept s0 s) : Kept s0 (State.resumeStores k s) := by
  unfold State.resumeStores
  with_reducible repeat' (first | assumption | intro _ | apply modCore_kept | apply setByte_kept | apply Kept_foldl | split)

theorem resumeAllStores_kept {s0 : State} (s : State) (hK : Kept s0 s) : Kept s0 (State.resumeAllStores s) := by
  unfold State.resumeAllStores
  with_reducible repeat' (first | assumption | intro _ | apply resumeStores_kept | apply Kept_foldl)

theorem failTranslation_kept {s0 : State} (page : Nat) (s : State) (hK : Kept s0 s) : Kept s0 (State.failTranslation page s) := by
  unfold State.failTranslation
  with_reducible repeat' (first
    | assumption | intro _ | apply bump_kept | apply modRequests_kept | apply Kept_ite | apply Keeps_of | simp only [Kept_mk_iff])

theorem execTranslationCompletion_kept {s0 t : State} (page : Nat) (ok read write : Bool) (s : State) (he : execTranslationCompletion page ok read
    write s = .next t) (hK : Kept s0 s) : Kept s0 t := by
  unfold execTranslationCompletion at he
  injection he with he
  subst he
  with_reducible repeat' (first
    | assumption | intro _ | apply resumeAllStores_kept | apply failTranslation_kept | apply Kept_ite | apply Keeps_of | simp only [Kept_mk_iff])

theorem execHostReadCompletion_kept {s0 t : State} (k i : Nat) (data : Option (List Byte)) (timeout : Bool) (s : State) (he :
    execHostReadCompletion k i data timeout s = .next t) (hK : Kept s0 s) : Kept s0 t := by
  unfold execHostReadCompletion at he
  injection he with he
  subst he
  with_reducible repeat' (first | assumption | intro _ | apply bump_kept | apply modCore_kept | apply settleInvals_kept | apply Kept_ite | split)

theorem execEpCrTail_kept {s0 t : State} (r tail : Nat) (commands : List (List Byte)) (s : State) (he : execEpCrTail r tail commands s = .next t)
    (hK : Kept s0 s) : Kept s0 t := by
  unfold execEpCrTail at he
  injection he with he
  subst he
  with_reducible repeat' (first | assumption | intro _ | apply modCring_kept | apply sweepRing_kept | apply Kept_ite)

theorem execEpCrDisable_kept {s0 t : State} (r : Nat) (s : State) (he : execEpCrDisable r s = .next t) (hK : Kept s0 s) : Kept s0 t := by
  unfold execEpCrDisable at he
  injection he with he
  subst he
  with_reducible repeat' (first | assumption | intro _ | apply disableRing_kept | apply Kept_ite)

/-! ### EngineErrors -/

theorem stopCommand_kept {s0 : State} (cls u : Nat) (c : Cmd) (s : State) (hK : Kept s0 s) : Kept s0 (State.stopCommand cls u c s).2 := by
  unfold State.stopCommand
  with_reducible repeat' (first
    | assumption | intro _ | apply stopDigest_kept | apply stopLane_kept | apply stopParity_kept | apply stopCat_kept | apply stopDma_kept
    | apply Kept_ite2 | split)

theorem dueRecord_kept {s0 : State} {cls u q : Nat} {s : State} {v} (hu : (State.dueRecord cls u q s) = some v) (hK : Kept s0 s) : Kept s0 v.2 := by
  unfold State.dueRecord at hu

  (try dsimp only at hu)
  (repeat' split at hu) <;> (try simp only [Option.some.injEq, reduceCtorEq] at hu) <;> (try subst hu) <;> (with_reducible repeat' (first
    | assumption | apply stopCommand_kept))

theorem reportNext_kept {s0 : State} (cls u q : Nat) (s : State) (hK : Kept s0 s) : Kept s0 (State.reportNext cls u q s) := by
  unfold State.reportNext
  with_reducible repeat' (first
    | assumption | intro _ | apply askTranslations_kept | apply reportCommand_kept | refine dueRecord_kept (by assumption) ?_ | apply Kept_ite
    | split)

theorem healNode_kept {s0 : State} (node : Nat) (s : State) (hK : Kept s0 s) : Kept s0 (State.healNode node s) := by
  unfold State.healNode
  with_reducible repeat' (first
    | assumption | intro _ | apply performWrite_kept | apply metadataFault_kept | apply useReads_kept | apply Kept_ite | split
    | simp only [Kept_mk_iff])

theorem healAfter_kept {s0 : State} (cls u q : Nat) (before s : State) (hK : Kept s0 before) (hK1 : Kept s0 s) : Kept s0 (State.healAfter cls u q
    before s) := by
  unfold State.healAfter
  with_reducible repeat' (first | assumption | intro _ | apply healNode_kept | apply Kept_ite | split)

theorem execEngineCommandComplete_kept {s0 t : State} (cls u q : Nat) (s : State) (he : execEngineCommandComplete cls u q s = .next t) (hK : Kept
    s0 s) : Kept s0 t := by
  unfold execEngineCommandComplete at he
  injection he with he
  subst he
  with_reducible repeat' (first | assumption | intro _ | apply takeUnassigned_kept | apply reportNext_kept | apply healAfter_kept | apply Kept_ite)

theorem failCommand_kept {s0 : State} (cls u : Nat) (c : Cmd) (s : State) (hK : Kept s0 s) : Kept s0 (State.failCommand cls u c s).2 := by
  unfold State.failCommand
  with_reducible repeat' (first | assumption | intro _ | apply failDigest_kept | apply failDma_kept | apply stopCommand_kept | apply Kept_ite2)

theorem failLane_kept {s0 : State} (cls u : Nat) (c : Cmd) (j : LaneJob) (s : State) (hK : Kept s0 s) : Kept s0 (State.failLane cls u c j s) := by
  unfold State.failLane
  with_reducible repeat' (first | assumption | apply endReset_kept | apply stopLane_kept)

theorem engineFails_kept {s0 : State} (cls u kind addr : Nat) (s : State) (hK : Kept s0 s) : Kept s0 (State.engineFails cls u kind addr s) := by
  unfold State.engineFails
  with_reducible repeat' (first
    | assumption | intro _ | apply putCommand_kept | apply engineError_kept | apply cphError_kept | apply failCommand_kept | apply failLane_kept
    | apply Kept_ite | split)

theorem execEngineBusError_kept {s0 t : State} (cls u kind addr : Nat) (s : State) (he : execEngineBusError cls u kind addr s = .next t) (hK :
    Kept s0 s) : Kept s0 t := by
  unfold execEngineBusError at he
  injection he with he
  subst he
  with_reducible repeat' (first | assumption | intro _ | apply engineFails_kept | apply Kept_ite)

theorem beginTest_kept {s0 : State} (cls u : Nat) (s : State) (hK : Kept s0 s) : Kept s0 (State.beginTest cls u s) := by
  unfold State.beginTest
  with_reducible repeat' (first | assumption | apply modUnit_kept)

theorem endTest_kept {s0 : State} (cls u : Nat) (pass : Bool) (s : State) (hK : Kept s0 s) : Kept s0 (State.endTest cls u pass s) := by
  unfold State.endTest
  with_reducible repeat' (first
    | assumption | intro _ | apply modUnit_kept | apply afterFence_kept | apply fenceUnit_kept | apply Kept_ite | apply Keeps_of | split
    | simp only [Kept_mk_iff])

theorem execKnownAnswerTest_kept {s0 t : State} (cls u : Nat) (pass : Bool) (s : State) (he : execKnownAnswerTest cls u pass s = .next t) (hK :
    Kept s0 s) : Kept s0 t := by
  unfold execKnownAnswerTest at he
  injection he with he
  subst he
  with_reducible repeat' (first | assumption | intro _ | apply beginTest_kept | apply endTest_kept | apply Kept_ite)

/-! ### Expanders -/

theorem dropNodes_kept {s0 : State} (p : Nat) (s : State) (hK : Kept s0 s) : Kept s0 (State.dropNodes p s) := by
  unfold State.dropNodes
  with_reducible repeat' (first | assumption | intro _ | apply performWrite_kept | apply Kept_foldl)

theorem dropTierOne_kept {s0 : State} (p : Nat) (s : State) (hK : Kept s0 s) : Kept s0 (State.dropTierOne p s) := by
  unfold State.dropTierOne
  with_reducible repeat' (first | assumption | apply Keeps_of | simp only [Kept_mk_iff])

theorem cxlFence_kept {s0 : State} (src p : Nat) (s : State) (hK : Kept s0 s) : Kept s0 (State.cxlFence src p s) := by
  unfold State.cxlFence
  with_reducible repeat' (first | assumption | apply setRegBit_kept | apply afterFence_kept | apply dropNodes_kept | apply dropTierOne_kept)

theorem execCxlPortFence_kept {s0 t : State} (src p : Nat) (s : State) (he : execCxlPortFence src p s = .next t) (hK : Kept s0 s) : Kept s0 t := by
  unfold execCxlPortFence at he
  injection he with he
  subst he
  with_reducible repeat' (first | assumption | intro _ | apply cxlFence_kept | apply Kept_ite)

theorem cxlDown_kept {s0 : State} (p : Nat) (s : State) (hK : Kept s0 s) : Kept s0 (State.cxlDown p s) := by
  unfold State.cxlDown
  with_reducible repeat' (first
    | assumption | intro _ | apply setReg_kept | apply clearRegBit_kept | apply dropNodes_kept | apply dropTierOne_kept | apply Kept_ite
    | apply Keeps_of | apply Keeps_filterMem | simp only [Kept_mk_iff])

theorem execCxlLinkChange_kept {s0 t : State} (p : Nat) (up : Bool) (gib : Nat) (err : Bool) (s : State) (he : execCxlLinkChange p up gib err s =
    .next t) (hK : Kept s0 s) : Kept s0 t := by
  unfold execCxlLinkChange at he
  injection he with he
  subst he
  with_reducible repeat' (first
    | assumption | intro _ | apply setReg_kept | apply bump_kept | apply releasePerst_kept | apply cxlDown_kept | apply Kept_ite)

/-! ### Power -/

theorem execVinGood_kept {s0 t : State} (mv : Nat) (s : State) (he : execVinGood mv s = .next t) (hK : Kept s0 s) : Kept s0 t := by
  unfold execVinGood at he
  injection he with he
  subst he
  with_reducible repeat' (first | assumption | intro _ | apply Kept_ite | apply Keeps_of | simp only [Kept_mk_iff])

theorem execVinOvervoltage_kept {s0 t : State} (mv : Nat) (s : State) (he : execVinOvervoltage mv s = .next t) (hK : Kept s0 s) : Kept s0 t := by
  unfold execVinOvervoltage at he
  injection he with he
  subst he
  with_reducible repeat' (first | assumption | intro _ | apply Kept_ite | apply Keeps_of | simp only [Kept_mk_iff])

theorem execHoldupReadyChange_kept {s0 t : State} (mv : Nat) (s : State) (he : execHoldupReadyChange mv s = .next t) (hK : Kept s0 s) : Kept s0 t
    := by
  unfold execHoldupReadyChange at he
  injection he with he
  subst he
  with_reducible repeat' (first | assumption | apply Keeps_of | split | simp only [Kept_mk_iff])

theorem standby_kept {s0 : State} (s : State) (hK : Kept s0 s) : Kept s0 (State.standby s) := by
  unfold State.standby
  simp only [Kept_mk_iff]
  exact Keeps_of (unitsReset_kept .power s (by decide) hK)

theorem execIslandSupplyFail_kept {s0 t : State} (vin vhold : Nat) (s : State) (he : execIslandSupplyFail vin vhold s = .next t) (hK : Kept s0 s)
    : Kept s0 t := by
  unfold execIslandSupplyFail at he
  injection he with he
  subst he
  split
  · exact hK
  · simp only [Kept_mk_iff]
    exact Keeps_of (unitsReset_kept .power s (by decide) hK)

theorem stopClusters_kept {s0 : State} (s : State) (hK : Kept s0 s) : Kept s0 (State.stopClusters s) := by
  unfold State.stopClusters
  with_reducible repeat' (first | assumption | intro _ | apply stopCore_kept | apply Kept_ite | apply Kept_foldl)

theorem stopLinks_kept {s0 : State} (s : State) (hK : Kept s0 s) : Kept s0 (State.stopLinks s) := by
  unfold State.stopLinks
  with_reducible repeat' (first
    | assumption | intro _ | apply clearRegBit_kept | apply endConns_kept | apply cutHostRequests_kept | apply Keeps_of | apply Kept_foldl
    | simp only [Kept_mk_iff])

theorem execPowerLossReport_kept {s0 t : State} (vin : Nat) (s : State) (he : execPowerLossReport vin s = .next t) (hK : Kept s0 s) : Kept s0 t :=
    by
  unfold execPowerLossReport at he
  injection he with he
  subst he
  with_reducible repeat' (first
    | assumption | intro _ | apply raiseVector_kept | apply releaseCustody_kept | apply stopClusters_kept | apply stopLinks_kept | apply Kept_ite
    | apply Keeps_of | simp only [Kept_mk_iff])

theorem execDumpPhase_kept {s0 t : State} (s : State) (he : execDumpPhase s = .next t) (hK : Kept s0 s) : Kept s0 t := by
  unfold execDumpPhase at he
  injection he with he
  subst he
  with_reducible repeat' (first
    | assumption | intro _ | apply writeDump_kept | apply programDumpRows_kept | apply standby_kept | apply Kept_ite | apply Keeps_of
    | simp only [Kept_mk_iff])

theorem execDumpClose_kept {s0 t : State} (s : State) (he : execDumpClose s = .next t) (hK : Kept s0 s) : Kept s0 t := by
  unfold execDumpClose at he
  injection he with he
  subst he
  with_reducible repeat' (first
    | assumption | intro _ | apply alarmNow_kept | apply programLastRow_kept | apply standby_kept | apply Kept_ite | apply Keeps_of
    | apply Kept_foldl | simp only [Kept_mk_iff])

theorem loseMediaClock_kept {s0 : State} (s : State) (hK : Kept s0 s) : Kept s0 (State.loseMediaClock s) := by
  unfold State.loseMediaClock
  with_reducible repeat' (first
    | assumption | intro _ | apply losePort_kept | apply carrierLeaves_kept | apply Keeps_of | apply Kept_foldl | simp only [Kept_mk_iff])

theorem loseCxlClock_kept {s0 : State} (s : State) (hK : Kept s0 s) : Kept s0 (State.loseCxlClock s) := by
  unfold State.loseCxlClock
  with_reducible repeat' (first | assumption | intro _ | apply cxlDown_kept | apply Keeps_of | apply Kept_foldl | simp only [Kept_mk_iff])

theorem loseEthernetClock_kept {s0 : State} (s : State) (hK : Kept s0 s) : Kept s0 (State.loseEthernetClock s) := by
  unfold State.loseEthernetClock
  with_reducible repeat' (first | assumption | intro _ | apply setReg_kept | apply Keeps_of | apply Kept_foldl | simp only [Kept_mk_iff])

theorem execRefclkLoss_kept {s0 t : State} (clock : Refclk) (s : State) (he : execRefclkLoss clock s = .next t) (hK : Kept s0 s) : Kept s0 t := by
  unfold execRefclkLoss at he
  injection he with he
  subst he
  with_reducible repeat' (first
    | assumption | apply keeperAlarm_kept | apply endpointReset_kept | apply loseMediaClock_kept | apply loseCxlClock_kept
    | apply loseEthernetClock_kept | apply Keeps_of | split | simp only [Kept_mk_iff])

theorem execRefclkReturn_kept {s0 t : State} (clock : Refclk) (s : State) (he : execRefclkReturn clock s = .next t) (hK : Kept s0 s) : Kept s0 t
    := by
  unfold execRefclkReturn at he
  injection he with he
  subst he
  with_reducible repeat' (first
    | assumption | intro _ | apply trainEndpoint_kept | apply Kept_ite | apply Keeps_of | split | simp only [Kept_mk_iff])

theorem endThrottle_kept {s0 : State} (s : State) (hK : Kept s0 s) : Kept s0 (State.endThrottle s) := by
  unfold State.endThrottle
  with_reducible repeat' (first | assumption | intro _ | apply Kept_ite | apply Keeps_of | simp only [Kept_mk_iff])

theorem beginThrottle_kept {s0 : State} (s : State) (hK : Kept s0 s) : Kept s0 (State.beginThrottle s) := by
  unfold State.beginThrottle
  with_reducible repeat' (first | assumption | intro _ | apply Kept_ite | apply Keeps_of | simp only [Kept_mk_iff])

theorem execThermalSample_kept {s0 t : State} (raw : List Int) (s : State) (he : execThermalSample raw s = .next t) (hK : Kept s0 s) : Kept s0 t
    := by
  unfold execThermalSample at he
  injection he with he
  subst he
  with_reducible repeat' (first
    | assumption | intro _ | apply releaseCustody_kept | apply keeperAlarm_kept | apply endThrottle_kept | apply beginThrottle_kept
    | apply Kept_ite | apply Keeps_of | split | simp only [Kept_mk_iff])

theorem selectTap_kept {s0 : State} (j : Jtag) (s : State) (hK : Kept s0 s) : Kept s0 (State.selectTap j s) := by
  unfold State.selectTap
  with_reducible repeat' (first | assumption | apply Keeps_of | split | simp only [Kept_mk_iff])

theorem execJtagBypass_kept {s0 t : State} (s : State) (he : execJtagBypass s = .next t) (hK : Kept s0 s) : Kept s0 t := by
  unfold execJtagBypass at he
  injection he with he
  subst he
  with_reducible repeat' (first | assumption | apply Keeps_of | simp only [Kept_mk_iff])

theorem execJtagIdcode_kept {s0 t : State} (s : State) (he : execJtagIdcode s = .next t) (hK : Kept s0 s) : Kept s0 t := by
  unfold execJtagIdcode at he
  injection he with he
  subst he
  with_reducible repeat' (first | assumption | apply Keeps_of | simp only [Kept_mk_iff])

theorem execJtagSamplePreload_kept {s0 t : State} (cells : List Bool) (s : State) (he : execJtagSamplePreload cells s = .next t) (hK : Kept s0 s)
    : Kept s0 t := by
  unfold execJtagSamplePreload at he
  injection he with he
  subst he
  with_reducible repeat' (first | assumption | apply takeFree_kept | apply Keeps_of | simp only [Kept_mk_iff])

theorem execJtagExtest_kept {s0 t : State} (s : State) (he : execJtagExtest s = .next t) (hK : Kept s0 s) : Kept s0 t := by
  unfold execJtagExtest at he
  injection he with he
  subst he
  with_reducible repeat' (first | assumption | apply selectTap_kept)

theorem execJtagHighz_kept {s0 t : State} (s : State) (he : execJtagHighz s = .next t) (hK : Kept s0 s) : Kept s0 t := by
  unfold execJtagHighz at he
  injection he with he
  subst he
  with_reducible repeat' (first | assumption | apply selectTap_kept)

/-! ### System -/

theorem execEnq_kept {s0 t : State} (k : Nat) (gd vs gq : BitVec 5) (s : State) (he : execEnq k gd vs gq s = .next t) (hK : Kept s0 s) : Kept s0 t
    := by
  unfold execEnq at he
  injection he with he
  subst he
  with_reducible repeat' (first | assumption | intro _ | apply beginWait_kept | apply instr_kept)

theorem execCommandQueueArrival_kept {s0 t : State} (k i : Nat) (s : State) (he : execCommandQueueArrival k i s = .next t) (hK : Kept s0 s) : Kept
    s0 t := by
  unfold execCommandQueueArrival at he
  injection he with he
  subst he
  with_reducible repeat' (first | assumption | intro _ | apply modCore_kept | apply accept_kept | apply Kept_ite | split)

theorem execEnqStatusReturn_kept {s0 t : State} (k i : Nat) (s : State) (he : execEnqStatusReturn k i s = .next t) (hK : Kept s0 s) : Kept s0 t :=
    by
  unfold execEnqStatusReturn at he
  injection he with he
  subst he
  with_reducible repeat' (first | assumption | apply modCore_kept | split)

theorem finishWne_kept {s0 : State} (k : Nat) (gd : BitVec 5) (w : Nat) (s : State) (hK : Kept s0 s) : Kept s0 (State.finishWne k gd w s) := by
  unfold State.finishWne
  with_reducible repeat' (first | assumption | apply retireG_kept)

theorem execWne_kept {s0 t : State} (k : Nat) (gd ga gb : BitVec 5) (s : State) (he : execWne k gd ga gb s = .next t) (hK : Kept s0 s) : Kept s0 t
    := by
  unfold execWne at he
  injection he with he
  subst he
  with_reducible repeat' (first
    | assumption | intro _ | apply modCore_kept | apply countDamage_kept | apply correct_kept | apply raise_kept | apply instr_kept
    | apply finishWne_kept | apply Kept_ite | split)

theorem execWneWake_kept {s0 t : State} (k : Nat) (s : State) (he : execWneWake k s = .next t) (hK : Kept s0 s) : Kept s0 t := by
  unfold execWneWake at he
  injection he with he
  subst he
  with_reducible repeat' (first
    | assumption | intro _ | apply countDamage_kept | apply correct_kept | apply raise_kept | apply finishWne_kept | apply Kept_ite | split)

theorem execFenceW_kept {s0 t : State} (k : Nat) (s : State) (he : execFenceW k s = .next t) (hK : Kept s0 s) : Kept s0 t := by
  unfold execFenceW at he
  injection he with he
  subst he
  with_reducible repeat' (first | assumption | intro _ | apply beginWait_kept | apply instr_kept)

theorem execFenceRw_kept {s0 t : State} (k : Nat) (s : State) (he : execFenceRw k s = .next t) (hK : Kept s0 s) : Kept s0 t := by
  unfold execFenceRw at he
  injection he with he
  subst he
  with_reducible repeat' (first | assumption | intro _ | apply beginWait_kept | apply instr_kept)

theorem execCbar_kept {s0 t : State} (k : Nat) (mask : BitVec 8) (s : State) (he : execCbar k mask s = .next t) (hK : Kept s0 s) : Kept s0 t := by
  unfold execCbar at he
  injection he with he
  subst he
  with_reducible repeat' (first | assumption | intro _ | apply raise_kept | apply beginWait_kept | apply instr_kept | apply Kept_ite)

theorem execBarrierTimeout_kept {s0 t : State} (k : Nat) (s : State) (he : execBarrierTimeout k s = .next t) (hK : Kept s0 s) : Kept s0 t := by
  unfold execBarrierTimeout at he
  injection he with he
  subst he
  with_reducible repeat' (first | assumption | intro _ | apply raise_kept | apply Kept_ite | split)

theorem execWait_kept {s0 t : State} (k : Nat) (s : State) (he : execWait k s = .next t) (hK : Kept s0 s) : Kept s0 t := by
  unfold execWait at he
  injection he with he
  subst he
  with_reducible repeat' (first | assumption | intro _ | apply modCore_kept | apply advance_kept | apply instr_kept | apply Kept_ite)

theorem takeInterrupt_kept {s0 : State} (k : Nat) (s : State) (hK : Kept s0 s) : Kept s0 (State.takeInterrupt k s) := by
  unfold State.takeInterrupt
  with_reducible repeat' (first | assumption | intro _ | apply takeException_kept | apply Kept_ite)

theorem execWaitWake_kept {s0 t : State} (k : Nat) (s : State) (he : execWaitWake k s = .next t) (hK : Kept s0 s) : Kept s0 t := by
  unfold execWaitWake at he
  injection he with he
  subst he
  with_reducible repeat' (first | assumption | intro _ | apply advance_kept | apply takeInterrupt_kept | apply Kept_ite | split)

theorem execInterruptEntry_kept {s0 t : State} (k : Nat) (s : State) (he : execInterruptEntry k s = .next t) (hK : Kept s0 s) : Kept s0 t := by
  unfold execInterruptEntry at he
  injection he with he
  subst he
  with_reducible repeat' (first | assumption | apply takeInterrupt_kept)

theorem execResume_kept {s0 t : State} (k : Nat) (s : State) (he : execResume k s = .next t) (hK : Kept s0 s) : Kept s0 t := by
  unfold execResume at he
  injection he with he
  subst he
  with_reducible repeat' (first
    | assumption | intro _ | apply modCore_kept | apply jump_kept | apply raise_kept | apply instr_kept | apply Kept_ite)

theorem execTrap_kept {s0 t : State} (k : Nat) (imm : BitVec 12) (s : State) (he : execTrap k imm s = .next t) (hK : Kept s0 s) : Kept s0 t := by
  unfold execTrap at he
  injection he with he
  subst he
  with_reducible repeat' (first | assumption | intro _ | apply raise_kept | apply instr_kept)

theorem execSysrd_kept {s0 t : State} (k : Nat) (d : BitVec 5) (num : BitVec 12) (s : State) (he : execSysrd k d num s = .next t) (hK : Kept s0 s)
    : Kept s0 t := by
  unfold execSysrd at he
  injection he with he
  subst he
  with_reducible repeat' (first
    | assumption | intro _ | apply modCore_kept | apply raise_kept | apply readCoreReg_kept | apply instr_kept | apply retireG_kept
    | apply Kept_ite)

theorem execSyswr_kept {s0 t : State} (k : Nat) (a : BitVec 5) (num : BitVec 12) (s : State) (he : execSyswr k a num s = .next t) (hK : Kept s0 s)
    : Kept s0 t := by
  unfold execSyswr at he
  injection he with he
  subst he
  with_reducible repeat' (first
    | assumption | intro _ | apply advance_kept | apply raise_kept | apply writeCoreReg_kept | apply instr_kept | apply Kept_ite)

theorem afterResponse_kept {s0 : State} (k : Nat) (s : State) (hK : Kept s0 s) : Kept s0 (State.afterResponse k s) := by
  unfold State.afterResponse
  with_reducible repeat' (first | assumption | apply settleFence_kept | apply completeStop_kept)

theorem execLoadDataReturn_kept {s0 t : State} (k i : Nat) (s : State) (he : execLoadDataReturn k i s = .next t) (hK : Kept s0 s) : Kept s0 t := by
  unfold execLoadDataReturn at he
  injection he with he
  subst he
  with_reducible repeat' (first
    | assumption | intro _ | apply modCore_kept | apply busError_kept | apply advance_kept | apply raise_kept | apply afterResponse_kept
    | apply Kept_ite | split)

theorem execWriteResponseReturn_kept {s0 t : State} (k i : Nat) (s : State) (he : execWriteResponseReturn k i s = .next t) (hK : Kept s0 s) : Kept
    s0 t := by
  unfold execWriteResponseReturn at he
  injection he with he
  subst he
  with_reducible repeat' (first | assumption | intro _ | apply modCore_kept | apply afterResponse_kept | apply Kept_ite | split)

theorem execStoreErrorResponse_kept {s0 t : State} (k i : Nat) (s : State) (he : execStoreErrorResponse k i s = .next t) (hK : Kept s0 s) : Kept
    s0 t := by
  unfold execStoreErrorResponse at he
  injection he with he
  subst he
  with_reducible repeat' (first
    | assumption | intro _ | apply modCore_kept | apply busError_kept | apply raise_kept | apply completeStop_kept | apply Kept_ite
    | apply Kept_foldl | split)

theorem execWatchdogWarn_kept {s0 t : State} (k : Nat) (s : State) (he : execWatchdogWarn k s = .next t) (hK : Kept s0 s) : Kept s0 t := by
  unfold execWatchdogWarn at he
  injection he with he
  subst he
  with_reducible repeat' (first | assumption | intro _ | apply modCore_kept | apply Kept_ite)

theorem execWatchdogExpiry_kept {s0 t : State} (k : Nat) (s : State) (he : execWatchdogExpiry k s = .next t) (hK : Kept s0 s) : Kept s0 t := by
  unfold execWatchdogExpiry at he
  injection he with he
  subst he
  with_reducible repeat' (first | assumption | intro _ | apply setRegBit_kept | apply modCore_kept | apply raise_kept | apply Kept_ite)

theorem execTimerMatch_kept {s0 t : State} (k : Nat) (s : State) (he : execTimerMatch k s = .next t) (hK : Kept s0 s) : Kept s0 t := by
  unfold execTimerMatch at he
  injection he with he
  subst he
  with_reducible repeat' (first | assumption | intro _ | apply modCore_kept | apply Kept_ite)

theorem execRunCore_kept {s0 t : State} (k : Nat) (s : State) (he : execRunCore k s = .next t) (hK : Kept s0 s) : Kept s0 t := by
  unfold execRunCore at he
  injection he with he
  subst he
  with_reducible repeat' (first | assumption | intro _ | apply runCore_kept | apply Kept_ite)

theorem execStopCore_kept {s0 t : State} (k : Nat) (s : State) (he : execStopCore k s = .next t) (hK : Kept s0 s) : Kept s0 t := by
  unfold execStopCore at he
  injection he with he
  subst he
  with_reducible repeat' (first | assumption | intro _ | apply stopCore_kept | apply Kept_ite)

theorem execCoreStopComplete_kept {s0 t : State} (k : Nat) (s : State) (he : execCoreStopComplete k s = .next t) (hK : Kept s0 s) : Kept s0 t := by
  unfold execCoreStopComplete at he
  injection he with he
  subst he
  with_reducible repeat' (first | assumption | apply completeStop_kept)

theorem execRingDoorbell_kept {s0 t : State} (cl : Nat) (ring : BitVec 8) (s : State) (he : execRingDoorbell cl ring s = .next t) (hK : Kept s0 s)
    : Kept s0 t := by
  unfold execRingDoorbell at he
  injection he with he
  subst he
  with_reducible repeat' (first | assumption | intro _ | apply ringDoorbell_kept | apply Kept_ite)

theorem execCoreFence_kept {s0 t : State} (src k : Nat) (s : State) (he : execCoreFence src k s = .next t) (hK : Kept s0 s) : Kept s0 t := by
  unfold execCoreFence at he
  injection he with he
  subst he
  with_reducible repeat' (first | assumption | intro _ | apply coreFence_kept | apply Kept_ite)

theorem execClusterFence_kept {s0 t : State} (src cl : Nat) (s : State) (he : execClusterFence src cl s = .next t) (hK : Kept s0 s) : Kept s0 t :=
    by
  unfold execClusterFence at he
  injection he with he
  subst he
  with_reducible repeat' (first | assumption | intro _ | apply clusterFence_kept | apply Kept_ite)

/-! ### RegFile -/

theorem fenceAt_kept {s0 : State} {src cls o : Nat} {s : State} {u} (hu : (State.fenceAt src cls o s) = some u) (hK : Kept s0 s) : Kept s0 u := by
  unfold State.fenceAt at hu

  (try dsimp only at hu)
  (repeat' split at hu) <;> (try simp only [Option.some.injEq, reduceCtorEq] at hu) <;> (try subst hu) <;> (with_reducible repeat' (first
    | assumption | apply afterFence_kept | apply fenceUnit_kept))

theorem fenceDma_kept {s0 : State} {src a : Nat} {s : State} {u} (hu : (State.fenceDma src a s) = some u) (hK : Kept s0 s) : Kept s0 u := by
  unfold State.fenceDma at hu

  (try dsimp only at hu)
  (repeat' split at hu) <;> (try simp only [Option.some.injEq, reduceCtorEq] at hu) <;> (try subst hu) <;> (with_reducible repeat' (first
    | assumption | apply afterFence_kept | apply fenceDmaEngine_kept | apply unitFence_kept))

theorem fenceStc_kept {s0 : State} (src c v : Nat) (s : State) (hK : Kept s0 s) : Kept s0 (State.fenceStc src c v s) := by
  unfold State.fenceStc
  with_reducible repeat' (first | assumption | intro _ | apply coreFence_kept | apply clusterFence_kept | apply Kept_ite | apply Kept_foldl)

theorem fenceBitAt_kept {s0 : State} {src a : Nat} {s : State} {u} (hu : State.fenceBitAt src a s = some u) (hK : Kept s0 s) : Kept s0 u := by
  unfold State.fenceBitAt at hu
  generalize a / 0x100000 = o at hu
  dsimp only at hu
  split at hu
  · exact fenceDma_kept hu hK
  · split at hu <;> exact fenceAt_kept hu hK
  · exact fenceAt_kept hu hK
  · split at hu
    · exact fenceAt_kept hu hK
    · cases hu
  · exact fenceAt_kept hu hK
  · exact fenceAt_kept hu hK
  · split at hu
    · exact fenceAt_kept hu hK
    · split at hu
      · simp only [Option.some.injEq] at hu; subst hu; exact afterFence_kept _ _ (fenceBlock_kept _ _ hK)
      · cases hu
  · split at hu
    · simp only [Option.some.injEq] at hu
      subst hu
      split
      · exact ethFence_kept _ _ _ hK
      · exact hK
    · cases hu
  · split at hu
    · simp only [Option.some.injEq] at hu; subst hu; exact cxlFence_kept _ _ _ hK
    · cases hu
  · cases hu

theorem fenceWrite_kept {s0 : State} {src a v : Nat} {s : State} {u} (hu : (State.fenceWrite src a v s) = some u) (hK : Kept s0 s) : Kept s0 u := by
  unfold State.fenceWrite at hu

  (try dsimp only at hu)
  (repeat' split at hu) <;> (try simp only [Option.some.injEq, reduceCtorEq] at hu) <;> (try subst hu) <;> (with_reducible repeat' (first
    | assumption | apply fenceChannels_kept | apply afterChannelFence_kept | apply fenceStc_kept | refine fenceBitAt_kept hu ?_))

theorem deepWrite_kept {s0 : State} {src a v : Nat} {s : State} {u} (hu : (State.deepWrite src a v s) = some u) (hK : Kept s0 s) : Kept s0 u := by
  unfold State.deepWrite at hu

  (try dsimp only at hu)
  (repeat' split at hu) <;> (try simp only [Option.some.injEq, reduceCtorEq] at hu) <;> (try subst hu) <;> (with_reducible repeat' (first
    | assumption | apply releaseCustody_kept | apply resetWrite_kept | apply mailboxWrite_kept | apply latchHlt_kept | apply updCommand_kept
    | apply confirmWrite_kept | refine fenceWrite_kept hu ?_ | apply_assumption))

theorem storeReg_kept {s0 : State} (src a v : Nat) (s : State) (hK : Kept s0 s) : Kept s0 (State.storeReg src a v s) := by
  unfold State.storeReg
  with_reducible repeat' (first | assumption | apply writeReg_kept | refine deepWrite_kept (by assumption) ?_ | split)

theorem storeRegBytes_kept {s0 : State} (src a : Nat) (bs : List Byte) (s : State) (hK : Kept s0 s) : Kept s0 (State.storeRegBytes src a bs s) := by
  unfold State.storeRegBytes
  with_reducible repeat' (first | assumption | intro _ | apply storeReg_kept | apply Kept_ite | apply Kept_foldl)

theorem configWrite_kept {s0 : State} (o v : Nat) (s : State) (hK : Kept s0 s) : Kept s0 (State.configWrite o v s) := by
  unfold State.configWrite
  with_reducible repeat' (first | assumption | intro _ | apply setFunctionMask_kept | apply Kept_ite | apply Keeps_of | simp only [Kept_mk_iff])

theorem execRegisterWrite_kept {s0 t : State} (src a : Nat) (v : Word32) (s : State) (he : execRegisterWrite src a v s = .next t) (hK : Kept s0 s)
    : Kept s0 t := by
  unfold execRegisterWrite at he
  injection he with he
  subst he
  with_reducible repeat' (first | assumption | intro _ | apply storeReg_kept | apply configWrite_kept | apply Kept_ite)

theorem execUnalignedRegisterAccess_kept {s0 t : State} (src a n : Nat) (data : Option (List Byte)) (s : State) (he : execUnalignedRegisterAccess
    src a n data s = .next t) (hK : Kept s0 s) : Kept s0 t := by
  unfold execUnalignedRegisterAccess at he
  injection he with he
  subst he
  with_reducible repeat' (first
    | assumption | intro _ | apply readRegBytes_kept | apply replyTo_kept | apply storeRegBytes_kept | apply Kept_ite | split)

theorem execReadLowHalf_kept {s0 t : State} (src a : Nat) (s : State) (he : execReadLowHalf src a s = .next t) (hK : Kept s0 s) : Kept s0 t := by
  unfold execReadLowHalf at he
  injection he with he
  subst he
  with_reducible repeat' (first | assumption | intro _ | apply readLow_kept | apply replyTo_kept | apply Kept_ite)

theorem execReadHighHalf_kept {s0 t : State} (src a : Nat) (s : State) (he : execReadHighHalf src a s = .next t) (hK : Kept s0 s) : Kept s0 t := by
  unfold execReadHighHalf at he
  injection he with he
  subst he
  with_reducible repeat' (first | assumption | intro _ | apply replyTo_kept | apply Kept_ite)

theorem execWriteLowHalf_kept {s0 t : State} (src a : Nat) (v : Word32) (s : State) (he : execWriteLowHalf src a v s = .next t) (hK : Kept s0 s) :
    Kept s0 t := by
  unfold execWriteLowHalf at he
  injection he with he
  subst he
  with_reducible repeat' (first | assumption | intro _ | apply setHold_kept | apply Kept_ite)

theorem execWriteHighHalf_kept {s0 t : State} (src a : Nat) (v : Word32) (s : State) (he : execWriteHighHalf src a v s = .next t) (hK : Kept s0 s)
    : Kept s0 t := by
  unfold execWriteHighHalf at he
  injection he with he
  subst he
  with_reducible repeat' (first | assumption | intro _ | apply write64_kept | apply Kept_ite | split)

theorem execTrimBankWrite_kept {s0 t : State} (src i : Nat) (v : Word32) (s : State) (he : execTrimBankWrite src i v s = .next t) (hK : Kept s0 s)
    : Kept s0 t := by
  unfold execTrimBankWrite at he
  injection he with he
  subst he
  with_reducible repeat' (first | assumption | intro _ | apply writeTrim_kept | apply Kept_ite)

/-! ### Mem -/

theorem sendLoad_kept {s0 : State} (k : Nat) (l : Load) (s : State) (hK : Kept s0 s) : Kept s0 (State.sendLoad k l s) := by
  unfold State.sendLoad
  with_reducible repeat' (first | assumption | apply modCore_kept | apply advance_kept | split)

theorem hostLoad_kept {s0 : State} (k a n : Nat) (l : Load) (s : State) (hK : Kept s0 s) : Kept s0 (State.hostLoad k a n l s) := by
  unfold State.hostLoad
  with_reducible repeat' (first | assumption | intro _ | apply askTranslations_kept | apply dropFailed_kept | apply sendLoad_kept | apply Kept_ite)

theorem farLoad_kept {s0 : State} (k a n : Nat) (l : Load) (s : State) (hK : Kept s0 s) : Kept s0 (State.farLoad k a n l s) := by
  unfold State.farLoad
  with_reducible repeat' (first
    | assumption | intro _ | apply correct_kept | apply raise_kept | apply readRegBytes_kept | apply sendLoad_kept | apply hostLoad_kept
    | apply Kept_ite | split)

theorem load_kept {s0 : State} (k : Nat) (vec : Bool) (d : BitVec 5) (n : Nat) (signed : Bool) (a : Nat) (s : State) (hK : Kept s0 s) : Kept s0
    (State.load k vec d n signed a s) := by
  unfold State.load
  with_reducible repeat' (first
    | assumption | intro _ | apply modCore_kept | apply countDamage_kept | apply correct_kept | apply advance_kept | apply raise_kept
    | apply farLoad_kept | apply Kept_ite | split)

theorem loadG_kept {s0 : State} (k : Nat) (d a : BitVec 5) (imm : BitVec 16) (n : Nat) (signed : Bool) (s : State) (hK : Kept s0 s) : Kept s0
    (State.loadG k d a imm n signed s) := by
  unfold State.loadG
  with_reducible repeat' (first | assumption | intro _ | apply instr_kept | apply load_kept)

theorem execLdB_kept {s0 t : State} (k : Nat) (d a : BitVec 5) (imm : BitVec 16) (s : State) (he : execLdB k d a imm s = .next t) (hK : Kept s0 s)
    : Kept s0 t := by
  unfold execLdB at he
  injection he with he
  subst he
  with_reducible repeat' (first | assumption | apply loadG_kept)

theorem execLdBs_kept {s0 t : State} (k : Nat) (d a : BitVec 5) (imm : BitVec 16) (s : State) (he : execLdBs k d a imm s = .next t) (hK : Kept s0
    s) : Kept s0 t := by
  unfold execLdBs at he
  injection he with he
  subst he
  with_reducible repeat' (first | assumption | apply loadG_kept)

theorem execLdH_kept {s0 t : State} (k : Nat) (d a : BitVec 5) (imm : BitVec 16) (s : State) (he : execLdH k d a imm s = .next t) (hK : Kept s0 s)
    : Kept s0 t := by
  unfold execLdH at he
  injection he with he
  subst he
  with_reducible repeat' (first | assumption | apply loadG_kept)

theorem execLdHs_kept {s0 t : State} (k : Nat) (d a : BitVec 5) (imm : BitVec 16) (s : State) (he : execLdHs k d a imm s = .next t) (hK : Kept s0
    s) : Kept s0 t := by
  unfold execLdHs at he
  injection he with he
  subst he
  with_reducible repeat' (first | assumption | apply loadG_kept)

theorem execLdW_kept {s0 t : State} (k : Nat) (d a : BitVec 5) (imm : BitVec 16) (s : State) (he : execLdW k d a imm s = .next t) (hK : Kept s0 s)
    : Kept s0 t := by
  unfold execLdW at he
  injection he with he
  subst he
  with_reducible repeat' (first | assumption | apply loadG_kept)

theorem execLdWs_kept {s0 t : State} (k : Nat) (d a : BitVec 5) (imm : BitVec 16) (s : State) (he : execLdWs k d a imm s = .next t) (hK : Kept s0
    s) : Kept s0 t := by
  unfold execLdWs at he
  injection he with he
  subst he
  with_reducible repeat' (first | assumption | apply loadG_kept)

theorem execLdD_kept {s0 t : State} (k : Nat) (d a : BitVec 5) (imm : BitVec 16) (s : State) (he : execLdD k d a imm s = .next t) (hK : Kept s0 s)
    : Kept s0 t := by
  unfold execLdD at he
  injection he with he
  subst he
  with_reducible repeat' (first | assumption | apply loadG_kept)

theorem execVld_kept {s0 t : State} (k : Nat) (d a : BitVec 5) (imm : BitVec 16) (s : State) (he : execVld k d a imm s = .next t) (hK : Kept s0 s)
    : Kept s0 t := by
  unfold execVld at he
  injection he with he
  subst he
  with_reducible repeat' (first | assumption | intro _ | apply instr_kept | apply load_kept)

theorem storeFails_kept {s0 : State} (k a : Nat) (s : State) (hK : Kept s0 s) : Kept s0 (State.storeFails k a s) := by
  unfold State.storeFails
  with_reducible repeat' (first | assumption | apply takeException_kept)

theorem sendStore_kept {s0 : State} (k : Nat) (o : Owed) (s : State) (hK : Kept s0 s) : Kept s0 (State.sendStore k o s) := by
  unfold State.sendStore
  with_reducible repeat' (first | assumption | apply modCore_kept | apply advance_kept)

theorem hostStore_kept {s0 : State} (k a : Nat) (bs : List (Bool × Byte)) (s : State) (hK : Kept s0 s) : Kept s0 (State.hostStore k a bs s) := by
  unfold State.hostStore
  with_reducible repeat' (first
    | assumption | intro _ | apply askTranslations_kept | apply dropFailed_kept | apply performWrite_kept | apply sendStore_kept | apply Kept_ite)

theorem cxlWrites_kept {s0 : State} (a : Nat) (bs : List (Bool × Byte)) (s : State) (hK : Kept s0 s) : Kept s0 (State.cxlWrites a bs s).2 := by
  unfold State.cxlWrites
  with_reducible repeat' (first | assumption | intro _ | apply performWrite_kept | apply Kept_foldl2 | split | simp only [Kept_mk_iff])

theorem farStore_kept {s0 : State} (k a : Nat) (bs : List (Bool × Byte)) (s : State) (hK : Kept s0 s) : Kept s0 (State.farStore k a bs s) := by
  unfold State.farStore
  with_reducible repeat' (first
    | assumption | intro _ | apply performWrite_kept | apply raise_kept | apply storeReg_kept | apply sendStore_kept | apply hostStore_kept
    | apply cxlWrites_kept | apply Kept_ite | split)

theorem store_kept {s0 : State} (k a : Nat) (bs : List (Bool × Byte)) (s : State) (hK : Kept s0 s) : Kept s0 (State.store k a bs s) := by
  unfold State.store
  with_reducible repeat' (first
    | assumption | intro _ | apply countDamage_kept | apply performWrite_kept | apply advance_kept | apply raise_kept | apply storeFails_kept
    | apply farStore_kept | apply Kept_ite | split)

theorem storeG_kept {s0 : State} (k : Nat) (d a : BitVec 5) (imm : BitVec 16) (n : Nat) (s : State) (hK : Kept s0 s) : Kept s0 (State.storeG k d a
    imm n s) := by
  unfold State.storeG
  with_reducible repeat' (first | assumption | intro _ | apply instr_kept | apply store_kept)

theorem execStB_kept {s0 t : State} (k : Nat) (d a : BitVec 5) (imm : BitVec 16) (s : State) (he : execStB k d a imm s = .next t) (hK : Kept s0 s)
    : Kept s0 t := by
  unfold execStB at he
  injection he with he
  subst he
  with_reducible repeat' (first | assumption | apply storeG_kept)

theorem execStH_kept {s0 t : State} (k : Nat) (d a : BitVec 5) (imm : BitVec 16) (s : State) (he : execStH k d a imm s = .next t) (hK : Kept s0 s)
    : Kept s0 t := by
  unfold execStH at he
  injection he with he
  subst he
  with_reducible repeat' (first | assumption | apply storeG_kept)

theorem execStW_kept {s0 t : State} (k : Nat) (d a : BitVec 5) (imm : BitVec 16) (s : State) (he : execStW k d a imm s = .next t) (hK : Kept s0 s)
    : Kept s0 t := by
  unfold execStW at he
  injection he with he
  subst he
  with_reducible repeat' (first | assumption | apply storeG_kept)

theorem execStD_kept {s0 t : State} (k : Nat) (d a : BitVec 5) (imm : BitVec 16) (s : State) (he : execStD k d a imm s = .next t) (hK : Kept s0 s)
    : Kept s0 t := by
  unfold execStD at he
  injection he with he
  subst he
  with_reducible repeat' (first | assumption | apply storeG_kept)

theorem execVst_kept {s0 t : State} (k : Nat) (d a : BitVec 5) (imm : BitVec 16) (s : State) (he : execVst k d a imm s = .next t) (hK : Kept s0 s)
    : Kept s0 t := by
  unfold execVst at he
  injection he with he
  subst he
  with_reducible repeat' (first | assumption | intro _ | apply instr_kept | apply store_kept)

theorem execVstM_kept {s0 t : State} (k : Nat) (d a : BitVec 5) (p : BitVec 3) (s : State) (he : execVstM k d a p s = .next t) (hK : Kept s0 s) :
    Kept s0 t := by
  unfold execVstM at he
  injection he with he
  subst he
  with_reducible repeat' (first | assumption | intro _ | apply advance_kept | apply instr_kept | apply store_kept | apply Kept_ite)

theorem atomic_kept {s0 : State} (k : Nat) (reads : List (BitVec 5)) (d a : BitVec 5) (f : Core → Word64 → Word64) (s : State) (hK : Kept s0 s) :
    Kept s0 (State.atomic k reads d a f s) := by
  unfold State.atomic
  with_reducible repeat' (first
    | assumption | intro _ | apply countDamage_kept | apply correct_kept | apply performWrite_kept | apply raise_kept | apply instr_kept
    | apply retireG_kept | apply sendLoad_kept | apply Kept_ite | split)

theorem execAtomAdd_kept {s0 t : State} (k : Nat) (d a b : BitVec 5) (s : State) (he : execAtomAdd k d a b s = .next t) (hK : Kept s0 s) : Kept s0
    t := by
  unfold execAtomAdd at he
  injection he with he
  subst he
  with_reducible repeat' (first | assumption | apply atomic_kept)

theorem execAtomSwap_kept {s0 t : State} (k : Nat) (d a b : BitVec 5) (s : State) (he : execAtomSwap k d a b s = .next t) (hK : Kept s0 s) : Kept
    s0 t := by
  unfold execAtomSwap at he
  injection he with he
  subst he
  with_reducible repeat' (first | assumption | apply atomic_kept)

theorem execAtomCas_kept {s0 t : State} (k : Nat) (d a b : BitVec 5) (s : State) (he : execAtomCas k d a b s = .next t) (hK : Kept s0 s) : Kept s0
    t := by
  unfold execAtomCas at he
  injection he with he
  subst he
  with_reducible repeat' (first | assumption | apply atomic_kept)

theorem execIllegalInstruction_kept {s0 t : State} (k : Nat) (w : Word32) (s : State) (he : execIllegalInstruction k w s = .next t) (hK : Kept s0
    s) : Kept s0 t := by
  unfold execIllegalInstruction at he
  injection he with he
  subst he
  with_reducible repeat' (first | assumption | intro _ | apply raise_kept | apply instr_kept | apply Kept_ite)

/-! ### Predicate -/

theorem pred2_kept {s0 : State} (k : Nat) (d a b : BitVec 3) (f : Word64 → Word64 → Word64) (s : State) (hK : Kept s0 s) : Kept s0 (State.pred2 k
    d a b f s) := by
  unfold State.pred2
  with_reducible repeat' (first | assumption | intro _ | apply instr_kept | apply retireP_kept)

theorem execPand_kept {s0 t : State} (k : Nat) (d a b : BitVec 3) (s : State) (he : execPand k d a b s = .next t) (hK : Kept s0 s) : Kept s0 t := by
  unfold execPand at he
  injection he with he
  subst he
  with_reducible repeat' (first | assumption | apply pred2_kept)

theorem execPor_kept {s0 t : State} (k : Nat) (d a b : BitVec 3) (s : State) (he : execPor k d a b s = .next t) (hK : Kept s0 s) : Kept s0 t := by
  unfold execPor at he
  injection he with he
  subst he
  with_reducible repeat' (first | assumption | apply pred2_kept)

theorem execPxor_kept {s0 t : State} (k : Nat) (d a b : BitVec 3) (s : State) (he : execPxor k d a b s = .next t) (hK : Kept s0 s) : Kept s0 t := by
  unfold execPxor at he
  injection he with he
  subst he
  with_reducible repeat' (first | assumption | apply pred2_kept)

theorem execPandn_kept {s0 t : State} (k : Nat) (d a b : BitVec 3) (s : State) (he : execPandn k d a b s = .next t) (hK : Kept s0 s) : Kept s0 t
    := by
  unfold execPandn at he
  injection he with he
  subst he
  with_reducible repeat' (first | assumption | apply pred2_kept)

theorem execPfromg_kept {s0 t : State} (k : Nat) (d : BitVec 3) (a : BitVec 5) (s : State) (he : execPfromg k d a s = .next t) (hK : Kept s0 s) :
    Kept s0 t := by
  unfold execPfromg at he
  injection he with he
  subst he
  with_reducible repeat' (first | assumption | intro _ | apply instr_kept | apply retireP_kept)

theorem execPtog_kept {s0 t : State} (k : Nat) (d : BitVec 5) (a : BitVec 3) (s : State) (he : execPtog k d a s = .next t) (hK : Kept s0 s) : Kept
    s0 t := by
  unfold execPtog at he
  injection he with he
  subst he
  with_reducible repeat' (first | assumption | intro _ | apply instr_kept | apply retireG_kept)

theorem execPcnt_kept {s0 t : State} (k : Nat) (d : BitVec 5) (a : BitVec 3) (s : State) (he : execPcnt k d a s = .next t) (hK : Kept s0 s) : Kept
    s0 t := by
  unfold execPcnt at he
  injection he with he
  subst he
  with_reducible repeat' (first | assumption | intro _ | apply instr_kept | apply retireG_kept)

/-! ### Vector -/

theorem vec2_kept {s0 : State} (k : Nat) (d a b : BitVec 5) (p : BitVec 3) (eb : Nat) (g : InstrGroup) (f : Nat → Nat → Nat) (s : State) (hK :
    Kept s0 s) : Kept s0 (State.vec2 k d a b p eb g f s) := by
  unfold State.vec2
  with_reducible repeat' (first | assumption | intro _ | apply instr_kept | apply retireV_kept)

theorem execVadd_kept {s0 t : State} (k : Nat) (d a b : BitVec 5) (p : BitVec 3) (esz : BitVec 2) (s : State) (he : execVadd k d a b p esz s =
    .next t) (hK : Kept s0 s) : Kept s0 t := by
  unfold execVadd at he
  injection he with he
  subst he
  with_reducible repeat' (first | assumption | apply vec2_kept)

theorem execVsub_kept {s0 t : State} (k : Nat) (d a b : BitVec 5) (p : BitVec 3) (esz : BitVec 2) (s : State) (he : execVsub k d a b p esz s =
    .next t) (hK : Kept s0 s) : Kept s0 t := by
  unfold execVsub at he
  injection he with he
  subst he
  with_reducible repeat' (first | assumption | apply vec2_kept)

theorem execVand_kept {s0 t : State} (k : Nat) (d a b : BitVec 5) (p : BitVec 3) (esz : BitVec 2) (s : State) (he : execVand k d a b p esz s =
    .next t) (hK : Kept s0 s) : Kept s0 t := by
  unfold execVand at he
  injection he with he
  subst he
  with_reducible repeat' (first | assumption | apply vec2_kept)

theorem execVor_kept {s0 t : State} (k : Nat) (d a b : BitVec 5) (p : BitVec 3) (esz : BitVec 2) (s : State) (he : execVor k d a b p esz s = .next
    t) (hK : Kept s0 s) : Kept s0 t := by
  unfold execVor at he
  injection he with he
  subst he
  with_reducible repeat' (first | assumption | apply vec2_kept)

theorem execVxor_kept {s0 t : State} (k : Nat) (d a b : BitVec 5) (p : BitVec 3) (esz : BitVec 2) (s : State) (he : execVxor k d a b p esz s =
    .next t) (hK : Kept s0 s) : Kept s0 t := by
  unfold execVxor at he
  injection he with he
  subst he
  with_reducible repeat' (first | assumption | apply vec2_kept)

theorem execVandn_kept {s0 t : State} (k : Nat) (d a b : BitVec 5) (p : BitVec 3) (esz : BitVec 2) (s : State) (he : execVandn k d a b p esz s =
    .next t) (hK : Kept s0 s) : Kept s0 t := by
  unfold execVandn at he
  injection he with he
  subst he
  with_reducible repeat' (first | assumption | apply vec2_kept)

theorem execVminu_kept {s0 t : State} (k : Nat) (d a b : BitVec 5) (p : BitVec 3) (esz : BitVec 2) (s : State) (he : execVminu k d a b p esz s =
    .next t) (hK : Kept s0 s) : Kept s0 t := by
  unfold execVminu at he
  injection he with he
  subst he
  with_reducible repeat' (first | assumption | apply vec2_kept)

theorem execVmaxu_kept {s0 t : State} (k : Nat) (d a b : BitVec 5) (p : BitVec 3) (esz : BitVec 2) (s : State) (he : execVmaxu k d a b p esz s =
    .next t) (hK : Kept s0 s) : Kept s0 t := by
  unfold execVmaxu at he
  injection he with he
  subst he
  with_reducible repeat' (first | assumption | apply vec2_kept)

theorem execVsll_kept {s0 t : State} (k : Nat) (d a b : BitVec 5) (p : BitVec 3) (esz : BitVec 2) (s : State) (he : execVsll k d a b p esz s =
    .next t) (hK : Kept s0 s) : Kept s0 t := by
  unfold execVsll at he
  injection he with he
  subst he
  with_reducible repeat' (first | assumption | apply vec2_kept)

theorem execVsrl_kept {s0 t : State} (k : Nat) (d a b : BitVec 5) (p : BitVec 3) (esz : BitVec 2) (s : State) (he : execVsrl k d a b p esz s =
    .next t) (hK : Kept s0 s) : Kept s0 t := by
  unfold execVsrl at he
  injection he with he
  subst he
  with_reducible repeat' (first | assumption | apply vec2_kept)

theorem execVsra_kept {s0 t : State} (k : Nat) (d a b : BitVec 5) (p : BitVec 3) (esz : BitVec 2) (s : State) (he : execVsra k d a b p esz s =
    .next t) (hK : Kept s0 s) : Kept s0 t := by
  unfold execVsra at he
  injection he with he
  subst he
  with_reducible repeat' (first | assumption | apply vec2_kept)

theorem execVmul_kept {s0 t : State} (k : Nat) (d a b : BitVec 5) (p : BitVec 3) (esz : BitVec 2) (s : State) (he : execVmul k d a b p esz s =
    .next t) (hK : Kept s0 s) : Kept s0 t := by
  unfold execVmul at he
  injection he with he
  subst he
  with_reducible repeat' (first | assumption | apply vec2_kept)

theorem execVbcast_kept {s0 t : State} (k : Nat) (d a : BitVec 5) (p : BitVec 3) (esz : BitVec 2) (s : State) (he : execVbcast k d a p esz s =
    .next t) (hK : Kept s0 s) : Kept s0 t := by
  unfold execVbcast at he
  injection he with he
  subst he
  with_reducible repeat' (first | assumption | intro _ | apply instr_kept | apply retireV_kept)

theorem execVext_kept {s0 t : State} (k : Nat) (d a b : BitVec 5) (p : BitVec 3) (esz : BitVec 2) (s : State) (he : execVext k d a b p esz s =
    .next t) (hK : Kept s0 s) : Kept s0 t := by
  unfold execVext at he
  injection he with he
  subst he
  with_reducible repeat' (first | assumption | intro _ | apply instr_kept | apply retireG_kept)

theorem execVins_kept {s0 t : State} (k : Nat) (d a b : BitVec 5) (p : BitVec 3) (esz : BitVec 2) (s : State) (he : execVins k d a b p esz s =
    .next t) (hK : Kept s0 s) : Kept s0 t := by
  unfold execVins at he
  injection he with he
  subst he
  with_reducible repeat' (first | assumption | intro _ | apply instr_kept | apply retireV_kept)

theorem execVredadd_kept {s0 t : State} (k : Nat) (d a : BitVec 5) (p : BitVec 3) (esz : BitVec 2) (s : State) (he : execVredadd k d a p esz s =
    .next t) (hK : Kept s0 s) : Kept s0 t := by
  unfold execVredadd at he
  injection he with he
  subst he
  with_reducible repeat' (first | assumption | intro _ | apply instr_kept | apply retireG_kept)

theorem execVredxor_kept {s0 t : State} (k : Nat) (d a : BitVec 5) (p : BitVec 3) (esz : BitVec 2) (s : State) (he : execVredxor k d a p esz s =
    .next t) (hK : Kept s0 s) : Kept s0 t := by
  unfold execVredxor at he
  injection he with he
  subst he
  with_reducible repeat' (first | assumption | intro _ | apply instr_kept | apply retireG_kept)

theorem execVmov_kept {s0 t : State} (k : Nat) (d a : BitVec 5) (p : BitVec 3) (esz : BitVec 2) (s : State) (he : execVmov k d a p esz s = .next
    t) (hK : Kept s0 s) : Kept s0 t := by
  unfold execVmov at he
  injection he with he
  subst he
  with_reducible repeat' (first | assumption | intro _ | apply instr_kept | apply retireV_kept)

theorem vcmp_kept {s0 : State} (k : Nat) (d : BitVec 3) (a b : BitVec 5) (p : BitVec 3) (eb : Nat) (f : Nat → Nat → Bool) (s : State) (hK : Kept
    s0 s) : Kept s0 (State.vcmp k d a b p eb f s) := by
  unfold State.vcmp
  with_reducible repeat' (first | assumption | intro _ | apply instr_kept | apply retireP_kept)

theorem execVcmpEq_kept {s0 t : State} (k : Nat) (d : BitVec 3) (a b : BitVec 5) (p : BitVec 3) (esz : BitVec 2) (s : State) (he : execVcmpEq k d
    a b p esz s = .next t) (hK : Kept s0 s) : Kept s0 t := by
  unfold execVcmpEq at he
  injection he with he
  subst he
  with_reducible repeat' (first | assumption | apply vcmp_kept)

theorem execVcmpNe_kept {s0 t : State} (k : Nat) (d : BitVec 3) (a b : BitVec 5) (p : BitVec 3) (esz : BitVec 2) (s : State) (he : execVcmpNe k d
    a b p esz s = .next t) (hK : Kept s0 s) : Kept s0 t := by
  unfold execVcmpNe at he
  injection he with he
  subst he
  with_reducible repeat' (first | assumption | apply vcmp_kept)

theorem execVcmpLtu_kept {s0 t : State} (k : Nat) (d : BitVec 3) (a b : BitVec 5) (p : BitVec 3) (esz : BitVec 2) (s : State) (he : execVcmpLtu k
    d a b p esz s = .next t) (hK : Kept s0 s) : Kept s0 t := by
  unfold execVcmpLtu at he
  injection he with he
  subst he
  with_reducible repeat' (first | assumption | apply vcmp_kept)

theorem execVcmpLt_kept {s0 t : State} (k : Nat) (d : BitVec 3) (a b : BitVec 5) (p : BitVec 3) (esz : BitVec 2) (s : State) (he : execVcmpLt k d
    a b p esz s = .next t) (hK : Kept s0 s) : Kept s0 t := by
  unfold execVcmpLt at he
  injection he with he
  subst he
  with_reducible repeat' (first | assumption | apply vcmp_kept)

theorem execVperm_kept {s0 t : State} (k : Nat) (d a b : BitVec 5) (p : BitVec 3) (s : State) (he : execVperm k d a b p s = .next t) (hK : Kept s0
    s) : Kept s0 t := by
  unfold execVperm at he
  injection he with he
  subst he
  with_reducible repeat' (first | assumption | intro _ | apply instr_kept | apply retireV_kept)

theorem execVsel_kept {s0 t : State} (k : Nat) (d a b : BitVec 5) (p : BitVec 3) (s : State) (he : execVsel k d a b p s = .next t) (hK : Kept s0
    s) : Kept s0 t := by
  unfold execVsel at he
  injection he with he
  subst he
  with_reducible repeat' (first | assumption | intro _ | apply instr_kept | apply retireV_kept)

theorem execVgf8mul_kept {s0 t : State} (k : Nat) (d a b : BitVec 5) (p : BitVec 3) (s : State) (he : execVgf8mul k d a b p s = .next t) (hK :
    Kept s0 s) : Kept s0 t := by
  unfold execVgf8mul at he
  injection he with he
  subst he
  with_reducible repeat' (first | assumption | apply vec2_kept)

theorem execVgf128mulX_kept {s0 t : State} (k : Nat) (d a b : BitVec 5) (p : BitVec 3) (s : State) (he : execVgf128mulX k d a b p s = .next t) (hK
    : Kept s0 s) : Kept s0 t := by
  unfold execVgf128mulX at he
  injection he with he
  subst he
  with_reducible repeat' (first | assumption | apply vec2_kept)

theorem execVgf128mulG_kept {s0 t : State} (k : Nat) (d a b : BitVec 5) (p : BitVec 3) (s : State) (he : execVgf128mulG k d a b p s = .next t) (hK
    : Kept s0 s) : Kept s0 t := by
  unfold execVgf128mulG at he
  injection he with he
  subst he
  with_reducible repeat' (first | assumption | apply vec2_kept)

end Sys2Proof.Machine
end

