-- ==== Sys2Proof/Laws/Memory.lean ====
section
/-! SUPPORT. What the operations on memory do, byte by byte: a write changes the bytes it names and leaves every other byte and every other
part of the state alone. -/

namespace Sys2Proof.Machine

/-- Reading a register word after one is written. -/
theorem State.reg_setReg (s : State) (a b v : Nat) : (s.setReg a v).reg b = if b = a then v % 2 ^ 32 else s.reg b := by
  simp only [State.reg, State.setReg, Sparse.get_set]
  split <;> simp

/-- Reading a byte after a byte is written. -/
theorem State.byte_setByte (s : State) (a x : Nat) (b : Byte) : (s.setByte a b).byte x = if x = a then b else s.byte x := by
  simp [State.byte, State.setByte, Sparse.get_set]

/-- Reading a byte after bytes are written under byte enables. -/
theorem State.byte_putMasked (s : State) (a x : Nat) (l : List (Bool × Byte)) :
    (s.putMasked a l).byte x =
      if a ≤ x ∧ x < a + l.length ∧ (l.getD (x - a) (false, 0)).1 = true then (l.getD (x - a) (false, 0)).2 else s.byte x := by
  induction l generalizing a s with
  | nil => simp [State.putMasked]
  | cons p t ih =>
    obtain ⟨e, b⟩ := p
    simp only [State.putMasked, ih]
    rcases Nat.lt_trichotomy x a with h | h | h
    · have h1 : ¬ (a + 1 ≤ x) := by omega
      have h2 : ¬ (a ≤ x) := by omega
      cases e <;> simp [h1, h2, State.byte_setByte, Nat.ne_of_lt h]
    · subst h
      cases e <;> simp [State.byte_setByte]
    · obtain ⟨n, rfl⟩ : ∃ n, x = a + 1 + n := ⟨x - (a + 1), by omega⟩
      have h1 : a + 1 + n - (a + 1) = n := by omega
      have h2 : a + 1 + n - a = n + 1 := by omega
      have h3 : a + 1 + n ≠ a := by omega
      have h4 : (a + 1 + n < a + (t.length + 1)) = (n < t.length) := by simp only [eq_iff_iff]; omega
      have h5 : a ≤ a + 1 + n := by omega
      cases e <;> simp [h1, h2, h3, h4, h5, State.byte_setByte, List.getD]

/-- Reading a byte after bytes are written. -/
theorem State.byte_putBytes (s : State) (a x : Nat) (l : List Byte) :
    (s.putBytes a l).byte x = if a ≤ x ∧ x < a + l.length then l.getD (x - a) 0 else s.byte x := by
  induction l generalizing a s with
  | nil => simp [State.putBytes]
  | cons b t ih =>
    simp only [State.putBytes, ih, State.byte_setByte]
    rcases Nat.lt_trichotomy x a with h | h | h
    · have h1 : ¬ (a + 1 ≤ x) := by omega
      have h2 : ¬ (a ≤ x) := by omega
      simp [h1, h2, Nat.ne_of_lt h]
    · subst h; simp
    · obtain ⟨n, rfl⟩ : ∃ n, x = a + 1 + n := ⟨x - (a + 1), by omega⟩
      have h1 : a + 1 + n - (a + 1) = n := by omega
      have h2 : a + 1 + n - a = n + 1 := by omega
      have h3 : a + 1 + n ≠ a := by omega
      have h4 : (a + 1 + n < a + (t.length + 1)) = (n < t.length) := by simp only [eq_iff_iff]; omega
      have h5 : a ≤ a + 1 + n := by omega
      simp [h1, h2, h3, h4, h5, List.getD]

/-- A write under byte enables changes memory alone. -/
theorem State.putMasked_only (s : State) (a : Nat) (l : List (Bool × Byte)) : s.putMasked a l = { s with mem := (s.putMasked a l).mem } := by
  induction l generalizing a s with
  | nil => rfl
  | cons p t ih =>
    obtain ⟨e, b⟩ := p
    simp only [State.putMasked]
    rw [ih]
    cases e <;> rfl

/-- Writing bytes changes memory alone. -/
theorem State.putBytes_only (s : State) (a : Nat) (l : List Byte) : s.putBytes a l = { s with mem := (s.putBytes a l).mem } := by
  induction l generalizing a s with
  | nil => rfl
  | cons b t ih => simp only [State.putBytes]; rw [ih]; rfl

theorem State.countCorrected_only (s : State) (a : Nat) : s.countCorrected a = { s with regs := (s.countCorrected a).regs } := by
  unfold State.countCorrected
  split
  · rfl
  · split
    · split <;> rfl
    · rfl

/-- Counting a corrected access changes the register image alone. -/
theorem State.correct_only (s : State) (a n : Nat) : s.correct a n = { s with regs := (s.correct a n).regs } := by
  unfold State.correct; split
  · exact s.countCorrected_only a
  · rfl

theorem State.correctMerge_only (s : State) (a : Nat) (en : List Bool) : s.correctMerge a en = { s with regs := (s.correctMerge a en).regs } := by
  unfold State.correctMerge; split
  · exact s.countCorrected_only a
  · rfl

/-- A write that does not fail changes memory, the records of words in error, and the count of corrected accesses. -/
theorem State.performWrite_only (s : State) (a : Nat) (l : List (Bool × Byte)) :
    s.performWrite a l = { s with mem := (s.performWrite a l).mem, damaged := (s.performWrite a l).damaged, weak := (s.performWrite a l).weak,
                                  regs := (s.performWrite a l).regs } := by
  unfold State.performWrite
  rw [State.putMasked_only]
  unfold State.repair
  rw [State.correctMerge_only]

/-- Reading a byte after a write that does not fail. -/
theorem State.byte_performWrite (s : State) (a x : Nat) (l : List (Bool × Byte)) :
    (s.performWrite a l).byte x =
      if a ≤ x ∧ x < a + l.length ∧ (l.getD (x - a) (false, 0)).1 = true then (l.getD (x - a) (false, 0)).2 else s.byte x := by
  unfold State.performWrite
  rw [State.byte_putMasked]
  unfold State.repair
  rw [State.correctMerge_only]
  rfl

/-- A byte of `n` bytes read in a row. -/
theorem State.bytes_getD (s : State) (a n i : Nat) (h : i < n) : (s.bytes a n).getD i 0 = s.byte (a + i) := by
  induction n generalizing a i with
  | zero => omega
  | succ n ih =>
    cases i with
    | zero => simp [State.bytes]
    | succ i =>
      have := ih (a + 1) i (by omega)
      simp only [State.bytes, List.getD_cons_succ, this]
      congr 1; omega

theorem State.bytes_length (s : State) (a n : Nat) : (s.bytes a n).length = n := by
  induction n generalizing a with
  | zero => rfl
  | succ n ih => simp [State.bytes, ih]

end Sys2Proof.Machine
end

