-- ==== Sys2Proof/Machine/Balls.lean ====
section
/-! DEFINITION. Where the module's signals lie: ball names (R553, R555), the high-speed lanes (R557, R560) and the groups of balls (R556). No
command reads or changes any of it. -/

namespace Sys2Proof.Machine

/-- The letters of the 46 rows (R555). -/
def ballRows : List String :=
  ["A", "B", "C", "D", "E", "F", "G", "H", "J", "K", "L", "M", "N", "P", "T", "U", "V", "W", "Y"]
    ++ ["AA", "AB", "AC", "AD", "AE", "AF", "AG", "AH", "AJ", "AK", "AL", "AM", "AN", "AP", "AT", "AU", "AV", "AW", "AY"]
    ++ ["BA", "BB", "BC", "BD", "BE", "BF", "BG", "BH"]

/-- A ball: its row index 1 to 46 and its column 1 to 46. -/
structure Ball where
  row : Nat
  col : Nat
  deriving DecidableEq, Repr

/-- The name of a ball (R555). -/
def Ball.name (b : Ball) : String := ballRows.getD (b.row - 1) "" ++ toString b.col

/-- The centre of a ball from the centre of the body, in micrometres (R553). -/
def Ball.centre (b : Ball) : Int × Int := (1270 * b.col - 29845, 29845 - 1270 * b.row)

/-- The groups of high-speed lanes (R557). -/
inductive LaneGroup where
  | media
  | frontEnd
  | twin
  | host
  | cxl
  deriving DecidableEq, Repr

/-- Lanes of a group. -/
def LaneGroup.lanes : LaneGroup → Nat
  | .media => 96
  | .frontEnd => 16
  | .twin => 8
  | .host => 16
  | .cxl => 16

/-- The first row index of a group's bands, and the lane index of its lane 0 there. -/
def LaneGroup.place : LaneGroup → Nat × Nat
  | .media => (1, 0)
  | .frontEnd => (34, 0)
  | .twin => (34, 16)
  | .host => (34, 24)
  | .cxl => (34, 40)

/-- The balls of a differential lane. -/
structure LaneBalls where
  txP : Ball
  txN : Ball
  rxP : Ball
  rxN : Ball
  deriving DecidableEq, Repr

/-- The balls of lane `n` of a group: cell `m mod 15` of band `m div 15` (R557). -/
def LaneGroup.balls (g : LaneGroup) (n : Nat) : LaneBalls :=
  let m := g.place.2 + n
  let row := g.place.1 + 3 * (m / 15)
  let col := 3 * (m % 15)
  { txP := { row := row, col := col + 1 }, txN := { row := row, col := col + 2 },
    rxP := { row := row + 1, col := col + 1 }, rxN := { row := row + 1, col := col + 2 } }

/-- What a ball carries (R556). -/
inductive BallGroup where
  | lane (g : LaneGroup) (n : Nat)
  | lowSpeed
  | vin
  | vhold
  | vio18
  | vio33
  | reserved
  | ground
  deriving DecidableEq, Repr

/-- The columns of the low-speed signals and clock inputs in a row (R558). -/
def lowSpeedColumns : Nat → List Nat
  | 24 => [5, 6, 9, 10, 13, 14, 17, 18, 21, 22]
  | 26 => [5, 6, 8, 9, 12, 13, 15, 16, 19, 20]
  | 28 => (List.range 12).map (· + 1) ++ [14, 15, 16, 17, 19, 20]
  | 30 => (List.range 16).map (· + 1) ++ [18, 19, 20, 21, 22, 23, 25, 26, 27, 28, 29, 30]
  | 32 => [1, 2, 3, 4, 6, 7, 8, 9, 10, 12, 13, 15, 17, 18, 19, 21]
  | _ => []

/-- The lane that uses a ball. -/
def Ball.lane (b : Ball) : Option (LaneGroup × Nat) :=
  [LaneGroup.media, .frontEnd, .twin, .host, .cxl].findSome? fun g => ((List.range g.lanes).find? fun n =>
    let l := g.balls n
    b == l.txP || b == l.txN || b == l.rxP || b == l.rxN).map fun n => (g, n)

/-- The group of a ball. -/
def Ball.group (b : Ball) : BallGroup :=
  match b.lane with
  | some (g, n) => .lane g n
  | none =>
    if (lowSpeedColumns b.row).contains b.col then .lowSpeed
    else if (b.row = 22 ∨ b.row = 23) ∧ b.col ≤ 20 then .vin
    else if (b.row = 22 ∨ b.row = 23) ∧ 27 ≤ b.col then .vhold
    else if b.row = 24 ∧ (b.col = 25 ∨ b.col = 26) then .vio18
    else if b.row = 24 ∧ (b.col = 29 ∨ b.col = 30) then .vio33
    else if b.row = 46 ∧ 3 ≤ b.col ∧ b.col ≤ 44 then .reserved
    else .ground

end Sys2Proof.Machine
end

