-- ==== Sys2Proof/WellFormed.lean ====
section
/-! DEFINITION. Well-formed commands: every operand that names an index or a field of fixed width lies in the range the spec gives it. No
meaning relies on it: a command out of range changes nothing, or what its fields reduce to. -/

namespace Sys2Proof

/-- A programmable engine (R12). -/
def okEngine (k : Nat) : Bool := decide (k < 124)
/-- A stream core (R12). -/
def okCore (k : Nat) : Bool := decide (k < 96)
/-- A cluster (R12). -/
def okCluster (c : Nat) : Bool := decide (c < 12)
/-- A requester, in the 12 bits of `NOC_ERR_STATUS.SOURCE` (R61). -/
def okRequester (src : Nat) : Bool := decide (src < 4096)
/-- A unit of an engine class (R81). -/
def okUnit (cls u : Nat) : Bool := decide (u < Machine.classUnits cls)
/-- A queue of a unit (R99). -/
def okQueue (q : Nat) : Bool := decide (q < 4)
/-- A word of register space or of the model's configuration space (R17, R480). -/
def okRegAddr (a : Nat) : Bool := decide (a < 0x10000000) || (decide (0x100000000 ≤ a) && decide (a < 0x100002000))
/-- A global address (R17). -/
def okAddr (a : Nat) : Bool := decide (a < 2 ^ 48)
/-- A word of the trim bank (R503). -/
def okTrim (i : Nat) : Bool := decide (i < 512)
/-- A slot of the ledger area (R126). -/
def okLedgerSlot (n : Nat) : Bool := decide (n < 8)
/-- A carrier slot (R387). -/
def okSlot (n : Nat) : Bool := decide (n < 96)
/-- A port of a carrier (R391). -/
def okPort (p : Nat) : Bool := decide (p < 2)
/-- A submission ring of a carrier's port (R391). -/
def okRing (r : Nat) : Bool := decide (r < 4)
/-- A key slot of the digest key table (R206). -/
def okDigestSlot (n : Nat) : Bool := decide (n < 4160)
/-- A cipher key slot (R245). -/
def okKeySlot (n : Nat) : Bool := decide (n < 4096)
/-- A domain (R258). -/
def okDomain (d : Nat) : Bool := decide (d < 4096)
/-- A CXL port (R294). -/
def okCxlPort (p : Nat) : Bool := decide (p < 4)
/-- A front-end port (R385). -/
def okEthPort (p : Nat) : Bool := decide (p < 16)
/-- A root-port block (R413). -/
def okBlock (b : Nat) : Bool := decide (b < 12)
/-- A DMA engine (R113). -/
def okDmaEngine (e : Nat) : Bool := decide (e < 16)
/-- A connection (R366). -/
def okConn (c : Nat) : Bool := decide (c < 65536)
/-- A 16-bit command ID (R366). -/
def okCid (c : Nat) : Bool := decide (c < 65536)
/-- A 32-bit field. -/
def ok32 (n : Nat) : Bool := decide (n < 2 ^ 32)
/-- A 64-bit field. -/
def ok64 (n : Nat) : Bool := decide (n < 2 ^ 64)
/-- A queue pair (R429). -/
def okQp (q : Nat) : Bool := decide (q < 2 ^ 20)
/-- A control ring (R491). -/
def okCtlRing (r : Nat) : Bool := decide (r < 4)
/-- A head number (R563). -/
def okHead (h : Nat) : Bool := decide (h < 2)
/-- An image slot: 1 A, 2 B (R552). -/
def okImageSlot (n : Nat) : Bool := n == 1 || n == 2
/-- An alarm code (R528). -/
def okAlarm (c : Nat) : Bool := decide (1 ≤ c) && decide (c ≤ 7)
/-- A guard input (R544). -/
def okGuard (i : Nat) : Bool := decide (i < 3)
/-- A mailbox request length (R551). -/
def okMbLen (n : Nat) : Bool := decide (n ≤ 1024)
/-- A page of head-host memory (R487). -/
def okHostPage (p : Nat) : Bool := decide (p < 2 ^ 36)

/-- Every operand of the command lies in its range. -/
def Instr.wf (i : Instr) : Bool :=
  match i with
  | .coldStart _ _ _ _ => true
  | .powerReturn => true
  | .warmReset src _ => okRequester src
  | .warmResetN _ => true
  | .vinGood _ => true
  | .powerLossReport _ => true
  | .dumpPhase => true
  | .dumpClose => true
  | .vinOvervoltage _ => true
  | .islandSupplyFail _ _ => true
  | .holdupReadyChange _ => true
  | .refclkLoss _ => true
  | .refclkReturn _ => true
  | .thermalSample _ => true
  | .registerWrite src a _ => okRequester src && okRegAddr a
  | .unalignedRegisterAccess src a _ _ => okRequester src && okRegAddr a
  | .readLowHalf src a => okRequester src && okRegAddr a
  | .readHighHalf src a => okRequester src && okRegAddr a
  | .writeLowHalf src a _ => okRequester src && okRegAddr a
  | .writeHighHalf src a _ => okRequester src && okRegAddr a
  | .trimBankWrite src i _ => okRequester src && okTrim i
  | .illegalInstruction k _ => okEngine k
  | .add k _ _ _ => okEngine k
  | .sub k _ _ _ => okEngine k
  | .and k _ _ _ => okEngine k
  | .or k _ _ _ => okEngine k
  | .xor k _ _ _ => okEngine k
  | .andn k _ _ _ => okEngine k
  | .sll k _ _ _ => okEngine k
  | .srl k _ _ _ => okEngine k
  | .sra k _ _ _ => okEngine k
  | .rol k _ _ _ => okEngine k
  | .slt k _ _ _ => okEngine k
  | .sltu k _ _ _ => okEngine k
  | .mul k _ _ _ => okEngine k
  | .mulhu k _ _ _ => okEngine k
  | .mulh k _ _ _ => okEngine k
  | .divu k _ _ _ => okEngine k
  | .remu k _ _ _ => okEngine k
  | .minu k _ _ _ => okEngine k
  | .maxu k _ _ _ => okEngine k
  | .clz k _ _ => okEngine k
  | .ctz k _ _ => okEngine k
  | .popc k _ _ => okEngine k
  | .bswap k _ _ => okEngine k
  | .addk k _ _ _ => okEngine k
  | .andk k _ _ _ => okEngine k
  | .ork k _ _ _ => okEngine k
  | .xork k _ _ _ => okEngine k
  | .ltk k _ _ _ => okEngine k
  | .cshl k _ _ _ => okEngine k
  | .cset k _ _ => okEngine k
  | .shlk k _ _ _ => okEngine k
  | .shrk k _ _ _ => okEngine k
  | .sark k _ _ _ => okEngine k
  | .rolk k _ _ _ => okEngine k
  | .ldB k _ _ _ => okEngine k
  | .ldBs k _ _ _ => okEngine k
  | .ldH k _ _ _ => okEngine k
  | .ldHs k _ _ _ => okEngine k
  | .ldW k _ _ _ => okEngine k
  | .ldWs k _ _ _ => okEngine k
  | .ldD k _ _ _ => okEngine k
  | .stB k _ _ _ => okEngine k
  | .stH k _ _ _ => okEngine k
  | .stW k _ _ _ => okEngine k
  | .stD k _ _ _ => okEngine k
  | .vld k _ _ _ => okEngine k
  | .vst k _ _ _ => okEngine k
  | .vstM k _ _ _ => okEngine k
  | .atomAdd k _ _ _ => okEngine k
  | .atomSwap k _ _ _ => okEngine k
  | .atomCas k _ _ _ => okEngine k
  | .beq k _ _ _ => okEngine k
  | .bne k _ _ _ => okEngine k
  | .blt k _ _ _ => okEngine k
  | .bge k _ _ _ => okEngine k
  | .bltu k _ _ _ => okEngine k
  | .bgeu k _ _ _ => okEngine k
  | .bpany k _ _ => okEngine k
  | .bpnone k _ _ => okEngine k
  | .call k _ _ => okEngine k
  | .callr k _ _ _ => okEngine k
  | .vadd k _ _ _ _ _ => okEngine k
  | .vsub k _ _ _ _ _ => okEngine k
  | .vand k _ _ _ _ _ => okEngine k
  | .vor k _ _ _ _ _ => okEngine k
  | .vxor k _ _ _ _ _ => okEngine k
  | .vandn k _ _ _ _ _ => okEngine k
  | .vminu k _ _ _ _ _ => okEngine k
  | .vmaxu k _ _ _ _ _ => okEngine k
  | .vsll k _ _ _ _ _ => okEngine k
  | .vsrl k _ _ _ _ _ => okEngine k
  | .vsra k _ _ _ _ _ => okEngine k
  | .vmul k _ _ _ _ _ => okEngine k
  | .vbcast k _ _ _ _ => okEngine k
  | .vext k _ _ _ _ _ => okEngine k
  | .vins k _ _ _ _ _ => okEngine k
  | .vredadd k _ _ _ _ => okEngine k
  | .vredxor k _ _ _ _ => okEngine k
  | .vmov k _ _ _ _ => okEngine k
  | .vcmpEq k _ _ _ _ _ => okEngine k
  | .vcmpNe k _ _ _ _ _ => okEngine k
  | .vcmpLtu k _ _ _ _ _ => okEngine k
  | .vcmpLt k _ _ _ _ _ => okEngine k
  | .vperm k _ _ _ _ => okEngine k
  | .vsel k _ _ _ _ => okEngine k
  | .pand k _ _ _ => okEngine k
  | .por k _ _ _ => okEngine k
  | .pxor k _ _ _ => okEngine k
  | .pandn k _ _ _ => okEngine k
  | .pfromg k _ _ => okEngine k
  | .ptog k _ _ => okEngine k
  | .pcnt k _ _ => okEngine k
  | .vgf8mul k _ _ _ _ => okEngine k
  | .vgf128mulX k _ _ _ _ => okEngine k
  | .vgf128mulG k _ _ _ _ => okEngine k
  | .enq k _ _ _ => okEngine k
  | .commandQueueArrival k _ => okEngine k
  | .enqStatusReturn k _ => okEngine k
  | .wne k _ _ _ => okEngine k
  | .wneWake k => okEngine k
  | .fenceW k => okEngine k
  | .fenceRw k => okEngine k
  | .cbar k _ => okEngine k
  | .barrierTimeout k => okEngine k
  | .wait k => okEngine k
  | .waitWake k => okEngine k
  | .resume k => okEngine k
  | .trap k _ => okEngine k
  | .sysrd k _ _ => okEngine k
  | .syswr k _ _ => okEngine k
  | .interruptEntry k => okEngine k
  | .loadDataReturn k _ => okEngine k
  | .storeErrorResponse k _ => okEngine k
  | .watchdogWarn k => okEngine k
  | .watchdogExpiry k => okEngine k
  | .timerMatch k => okEngine k
  | .runCore k => okCore k
  | .stopCore k => okCore k
  | .coreStopComplete k => okCore k
  | .ringDoorbell cl _ => okCluster cl
  | .coreFence src k => okRequester src && okCore k
  | .clusterFence src cl => okRequester src && okCluster cl
  | .engineBusError cls u kind addr => okUnit cls u && okQueue kind && okAddr addr
  | .engineCommandComplete cls u q => okUnit cls u && okQueue q
  | .dmaCopy u => okUnit clsDma u
  | .dmaFill u => okUnit clsDma u
  | .dmaChain u => okUnit clsDma u
  | .descriptorComplete u => okUnit clsDma u
  | .dmaChAbort u => okUnit clsDma u
  | .dmaEngFence src e => okRequester src && okDmaEngine e
  | .dmaChFence src u => okRequester src && okUnit clsDma u
  | .bufferSpaceReturn => true
  | .ledgerCycleClose => true
  | .ledgerRecord slot => okLedgerSlot slot
  | .ledgerConfirm slot => okLedgerSlot slot
  | .ledgerRefuse slot => okLedgerSlot slot
  | .confirmTimeout => true
  | .placeEntry _ _ => true
  | .tier2Deadline _ _ => true
  | .heldFoliosResend domain _ => okDomain domain
  | .rowPadAgeExpiry _ _ => true
  | .cmpEncode u => okUnit clsCoder u
  | .cmpDecode cls u => okUnit cls u
  | .coderStageComplete u _ _ => okUnit clsCoder u
  | .cmpLaneFence src u => okRequester src && okUnit clsCoder u
  | .cmpDecFence src u => okRequester src && okUnit clsDecoder u
  | .knownAnswerTest cls u _ => okUnit cls u
  | .dgtShake256 u => okUnit clsDigest u
  | .dgtKmac256 u => okUnit clsDigest u
  | .dgtFingerprint u => okUnit clsDigest u
  | .dgtVerify u _ _ => okUnit clsDigest u
  | .dgtUnitFence src u => okRequester src && okUnit clsDigest u
  | .digestSlotLoad slot _ => okDigestSlot slot
  | .applyCycle _ => true
  | .checkpointHeaderWrite _ _ => true
  | .cphEncrypt u _ => okUnit clsCipher u
  | .cphDecrypt u _ => okUnit clsCipher u
  | .cphCtr u _ => okUnit clsCipher u
  | .cipherSuspend u => okUnit clsCipher u
  | .cipherResume u => okUnit clsCipher u
  | .keySlotLoad slot _ _ _ _ => okKeySlot slot
  | .keySlotRetire slot => okKeySlot slot
  | .keySlotClear slot => okKeySlot slot
  | .newKeyGeneration domain => okDomain domain
  | .cphUnitFence src u => okRequester src && okUnit clsCipher u
  | .catWalk u => okUnit clsCatalogue u
  | .catFind u => okUnit clsCatalogue u
  | .catProbe u => okUnit clsCatalogue u
  | .catScore u => okUnit clsCatalogue u
  | .catAssistFence src u => okRequester src && okUnit clsCatalogue u
  | .foldStart _ _ => true
  | .weedingStart _ _ => true
  | .wearLevelStart _ _ => true
  | .eraseAfterFree _ _ => true
  | .cxlPortFence src p => okRequester src && okCxlPort p
  | .quireOpen _ => true
  | .parGenerate e => okUnit clsParity e
  | .parReconstruct e => okUnit clsParity e
  | .parCheck e => okUnit clsParity e
  | .parEngFence src e => okRequester src && okUnit clsParity e
  | .rebuildBegin _ _ => true
  | .lostRepair _ _ _ => true
  | .conservationRow _ _ => true
  | .reshapeStep _ _ => true
  | .nvmeRead c cid nsid slba _ _ => okConn c && okCid cid && ok32 nsid && ok64 slba
  | .icreq c port _ _ _ _ => okConn c && okEthPort port
  | .h2cTermReq c => okConn c
  | .nvmeConnect c cid _ _ _ _ _ _ => okConn c && okCid cid
  | .propertyGet c cid _ => okConn c && okCid cid
  | .propertySet c cid _ _ => okConn c && okCid cid
  | .nvmeDisconnect c cid => okConn c && okCid cid
  | .nvmeIdentify c cid _ nsid => okConn c && okCid cid && ok32 nsid
  | .getLogPage c cid _ _ _ _ => okConn c && okCid cid
  | .setFeatures c cid _ _ => okConn c && okCid cid
  | .getFeatures c cid _ => okConn c && okCid cid
  | .asynchronousEventRequest c cid => okConn c && okCid cid
  | .keepAlive c cid => okConn c && okCid cid
  | .keepAliveExpiry _ => true
  | .nvmeAbort c cid => okConn c && okCid cid
  | .namespaceCreate c cid _ _ _ _ _ domain => okConn c && okCid cid && okDomain domain
  | .namespaceDelete c cid nsid => okConn c && okCid cid && ok32 nsid
  | .nvmeWrite c cid nsid slba _ _ _ _ _ => okConn c && okCid cid && ok32 nsid && ok64 slba
  | .writeZeroes c cid nsid slba _ _ => okConn c && okCid cid && ok32 nsid && ok64 slba
  | .datasetManagement c cid nsid _ _ => okConn c && okCid cid && ok32 nsid
  | .nvmeFlush c cid nsid => okConn c && okCid cid && ok32 nsid
  | .h2cData c _ _ _ _ _ _ _ _ => okConn c
  | .connectionEnd c => okConn c
  | .ethPortFence src p => okRequester src && okEthPort p
  | .seqIdentify u => okUnit clsSequencer u
  | .seqProgram u => okUnit clsSequencer u
  | .seqRead u => okUnit clsSequencer u
  | .seqErase u => okUnit clsSequencer u
  | .seqSetMode u => okUnit clsSequencer u
  | .seqReadRetry u => okUnit clsSequencer u
  | .seqHealth u => okUnit clsSequencer u
  | .seqOwnershipTake u => okUnit clsSequencer u
  | .seqOwnershipReturn u => okUnit clsSequencer u
  | .seqLabel u => okUnit clsSequencer u
  | .seqRetire u => okUnit clsSequencer u
  | .carrierMsi slot => okSlot slot
  | .carrierIdentify slot => okSlot slot
  | .carrierProgram slot _ _ => okSlot slot
  | .carrierRead slot _ => okSlot slot
  | .carrierErase slot _ => okSlot slot
  | .carrierSetMode slot => okSlot slot
  | .carrierReadRetry slot _ => okSlot slot
  | .carrierHealth slot _ => okSlot slot
  | .carrierOwnershipTake slot => okSlot slot
  | .carrierOwnershipReturn slot => okSlot slot
  | .carrierLabel slot => okSlot slot
  | .carrierRetire slot => okSlot slot
  | .carrierCommandComplete slot _ _ => okSlot slot
  | .carrierEnable slot port _ _ _ _ => okSlot slot && okPort port
  | .carrierReset slot port => okSlot slot && okPort port
  | .carrierSubTail slot port ring _ => okSlot slot && okPort port && okRing ring
  | .carrierCplHead slot port _ => okSlot slot && okPort port
  | .carrierPortLoss slot port _ => okSlot slot && okPort port
  | .carrierLinkUp slot _ _ _ _ _ => okSlot slot
  | .carrierOutOfService slot _ => okSlot slot
  | .carrierCommandTimeout slot => okSlot slot
  | .medSeqFence src u => okRequester src && okUnit clsSequencer u
  | .medBlkFence src b => okRequester src && okBlock b
  | .eraseRequestRepeat => true
  | .atpWrite _ qp psn key _ _ _ _ _ _ => okQp qp && ok32 psn && ok32 key
  | .atpReadReq _ qp psn key _ _ _ _ _ => okQp qp && ok32 psn && ok32 key
  | .atpReadResp _ qp psn _ _ _ => okQp qp && ok32 psn
  | .atpAck _ qp psn _ _ _ => okQp qp && ok32 psn
  | .atpNak _ qp psn _ _ => okQp qp && ok32 psn
  | .atpCnp _ qp _ => okQp qp
  | .atpRepeat _ qp psn key _ _ _ _ _ => okQp qp && ok32 psn && ok32 key
  | .wrWrite qp => okQp qp
  | .wrWriteLast qp => okQp qp
  | .wrRead qp => okQp qp
  | .wrRepeat qp => okQp qp
  | .workRequestComplete qp => okQp qp
  | .repeatTimerExpiry qp => okQp qp
  | .ackDelayExpiry qp => okQp qp
  | .rateIncreaseExpiry qp => okQp qp
  | .atpRegionSync _ => true
  | .atpRevoke key => ok32 key
  | .revocationComplete _ => true
  | .qpReady qp _ => okQp qp
  | .qpDrain qp => okQp qp
  | .qpReset qp => okQp qp
  | .contextLoadComplete qp _ => okQp qp
  | .heartbeat _ => true
  | .healthReport _ => true
  | .supervisorMessage _ => true
  | .heartbeatSend => true
  | .healthReportBuild => true
  | .heartbeatMissed => true
  | .twinLinkLoss => true
  | .twinLaneFailure => true
  | .custodyPeerChange _ => true
  | .surrenderRecognised _ _ => true
  | .supervisorSilent => true
  | .confirmStall _ => true
  | .twnRelease src _ => okRequester src
  | .twnGovAlive src => okRequester src
  | .partnerWaitExpiry _ _ => true
  | .serviceStart _ => true
  | .twinJoin head _ => okHead head
  | .twinJoinAccept head _ => okHead head
  | .twinJoinRefuse head _ _ => okHead head
  | .seedingComplete => true
  | .twinJoined head _ _ _ => okHead head
  | .twinReady head _ => okHead head
  | .twinFailback head _ _ => okHead head
  | .twinHandover head _ _ => okHead head
  | .twinHandoverAccept head _ => okHead head
  | .twinHandoverRefuse head _ _ => okHead head
  | .custodyMessageRepeat => true
  | .snapshotItemQueue nsid => ok32 nsid
  | .streamBegin _ _ => true
  | .streamGroup _ _ => true
  | .streamEnd _ _ => true
  | .streamSeal _ _ => true
  | .streamAck _ _ => true
  | .repairReq _ _ _ => true
  | .repairResp _ _ => true
  | .shipInterval nsid _ => ok32 nsid
  | .stackSyncPulse => true
  | .stackSyncEdge _ => true
  | .stackSyncSilence => true
  | .perstN _ => true
  | .hostLinkDown _ => true
  | .bar4Read o _ => ok32 o
  | .bar4Write o _ => ok32 o
  | .msixEntryWrite o _ => ok32 o
  | .epMsixSend _ => true
  | .atsInvalidateRequest page _ => okHostPage page
  | .translationCompletion page _ _ _ => okHostPage page
  | .hostReadCompletion k _ _ _ => okEngine k
  | .epCrTail r _ _ => okCtlRing r
  | .epCrDisable r => okCtlRing r
  | .crSettings r _ => okCtlRing r
  | .crStatistics r => okCtlRing r
  | .crSnapshot r _ => okCtlRing r
  | .crViewDelete r => okCtlRing r
  | .crSeal r => okCtlRing r
  | .crShip r _ => okCtlRing r
  | .crReshape r _ => okCtlRing r
  | .crReshapeCancel r => okCtlRing r
  | .crSolo r _ => okCtlRing r
  | .crHandover r => okCtlRing r
  | .crLabel r slot _ => okCtlRing r && okSlot slot
  | .crStackSnapshot r _ => okCtlRing r
  | .crHealthRing r => okCtlRing r
  | .hltRestore src _ _ _ => okRequester src
  | .hltCreateArray src _ _ => okRequester src
  | .hltQuiesce src => okRequester src
  | .hltResume src => okRequester src
  | .hltRejoin src _ _ => okRequester src
  | .lpddrTrainStart _ => true
  | .lpddrTrainComplete _ => true
  | .lpdFence src _ => okRequester src
  | .secIdentity src len => okRequester src && okMbLen len
  | .secAttest src len => okRequester src && okMbLen len
  | .secOwnerShare src len => okRequester src && okMbLen len
  | .secKeyInput src len => okRequester src && okMbLen len
  | .secArrayInfo src len => okRequester src && okMbLen len
  | .secZeroise src len => okRequester src && okMbLen len
  | .keeperAlarm code => okAlarm code
  | .alarmEnd code _ => okAlarm code
  | .sectionLoad _ dest => okAddr dest || (decide (Machine.privateBase 100 ≤ dest) && decide (dest < Machine.privateBase 124))
  | .updErase src slot => okRequester src && okImageSlot slot
  | .updWrite src slot => okRequester src && okImageSlot slot
  | .updVerify src slot => okRequester src && okImageSlot slot
  | .updSchedule src slot => okRequester src && okImageSlot slot
  | .updCancel src => okRequester src
  | .updCommandComplete _ => true
  | .healthConfirm src _ => okRequester src
  | .confirmWindowExpiry => true
  | .guardInputChange i _ => okGuard i
  | .jtagBypass => true
  | .jtagIdcode => true
  | .jtagSamplePreload _ => true
  | .jtagExtest => true
  | .jtagHighz => true
  | .writeResponseReturn k _ => okEngine k
  | .anaTransitionTimeExpiry => true
  | .invalidCommandOpcode c cid => okConn c && okCid cid
  | .invalidPduType c => okConn c
  | .badAvenfyPacket _ qp _ => okQp qp
  | .twinFrameBad => true
  | .mailboxCommandComplete => true
  | .fallbackActivation => true
  | .twinLinkRetrained => true
  | .cxlLinkChange p _ _ _ => okCxlPort p
  | .ethLinkChange p _ => okEthPort p
  | .evictionWriteBackComplete qp _ => okQp qp

end Sys2Proof
end

