-- ==== Sys2Proof/Tests/Slice0.lean ====
section
/-! SUPPORT. Tests: commands out of range that the check refuses, states that meet the hypotheses of each statement, and single commands with
the outcome that the spec gives. -/

namespace Sys2Proof.Tests

open Sys2Proof Sys2Proof.Machine

set_option Elab.async false

/-! ### States and outcomes -/

/-- The state an outcome answers, if it answers one, meets `p`. -/
def answers (o : Host.Outcome State Fault Refusal) (p : State → Bool) : Bool :=
  match o with
  | .next t => p t
  | _ => false

/-- The state after reset with engine `k` running and changed by `f`. -/
def engine (k : Nat) (f : Core → Core) : State := State.reset.modCore k fun c => { f c with run := .running }

/-! ### Well-formed commands -/

/-- A command with an operand out of the range of each check, and the one check it fails. -/
theorem test_wf_refuses_engine : (Instr.add 124 1 2 3).wf = false := by decide
theorem test_wf_refuses_core : (Instr.runCore 96).wf = false := by decide
theorem test_wf_refuses_cluster : (Instr.ringDoorbell 12 1).wf = false := by decide
theorem test_wf_refuses_requester : (Instr.registerWrite 4096 0 0).wf = false := by decide
theorem test_wf_refuses_unit : (Instr.dmaCopy 1024).wf = false := by decide
theorem test_wf_refuses_unit_of_class : (Instr.knownAnswerTest clsParity 8 true).wf = false := by decide
theorem test_wf_refuses_queue : (Instr.engineCommandComplete clsDma 0 4).wf = false := by decide
theorem test_wf_refuses_register_address : (Instr.registerWrite 0x60 0x10000000 0).wf = false := by decide
theorem test_wf_refuses_config_address : (Instr.registerWrite 0x60 0x100002000 0).wf = false := by decide
theorem test_wf_refuses_address : (Instr.engineBusError clsDma 0 0 (2 ^ 48)).wf = false := by decide
theorem test_wf_refuses_trim_word : (Instr.trimBankWrite 0x60 512 0).wf = false := by decide
theorem test_wf_refuses_ledger_slot : (Instr.ledgerRecord 8).wf = false := by decide
theorem test_wf_refuses_slot : (Instr.carrierIdentify 96).wf = false := by decide
theorem test_wf_refuses_port : (Instr.carrierReset 0 2).wf = false := by decide
theorem test_wf_refuses_ring : (Instr.carrierSubTail 0 0 4 []).wf = false := by decide
theorem test_wf_refuses_digest_slot : (Instr.digestSlotLoad 4160 none).wf = false := by decide
theorem test_wf_refuses_key_slot : (Instr.keySlotClear 4096).wf = false := by decide
theorem test_wf_refuses_domain : (Instr.newKeyGeneration 4096).wf = false := by decide
theorem test_wf_refuses_cxl_port : (Instr.cxlPortFence 0x60 4).wf = false := by decide
theorem test_wf_refuses_eth_port : (Instr.ethPortFence 0x60 16).wf = false := by decide
theorem test_wf_refuses_block : (Instr.medBlkFence 0x60 12).wf = false := by decide
theorem test_wf_refuses_dma_engine : (Instr.dmaEngFence 0x60 16).wf = false := by decide
theorem test_wf_refuses_connection : (Instr.connectionEnd 65536).wf = false := by decide
theorem test_wf_refuses_command_id : (Instr.keepAlive 0 65536).wf = false := by decide
theorem test_wf_refuses_namespace_id : (Instr.nvmeFlush 0 0 (2 ^ 32)).wf = false := by decide
theorem test_wf_refuses_lba : (Instr.writeZeroes 0 0 1 (2 ^ 64) 0 0).wf = false := by decide
theorem test_wf_refuses_queue_pair : (Instr.qpDrain (2 ^ 20)).wf = false := by decide
theorem test_wf_refuses_key : (Instr.atpRevoke (2 ^ 32)).wf = false := by decide
theorem test_wf_refuses_control_ring : (Instr.crSeal 4).wf = false := by decide
theorem test_wf_refuses_head : (Instr.twinReady 2 0).wf = false := by decide
theorem test_wf_refuses_image_slot : (Instr.updErase 0x60 0).wf = false ∧ (Instr.updErase 0x60 3).wf = false := by decide
theorem test_wf_refuses_alarm : (Instr.keeperAlarm 0).wf = false ∧ (Instr.keeperAlarm 8).wf = false := by decide
theorem test_wf_refuses_guard : (Instr.guardInputChange 3 true).wf = false := by decide
theorem test_wf_refuses_mailbox_length : (Instr.secIdentity 0x60 1025).wf = false := by decide
theorem test_wf_refuses_host_page : (Instr.atsInvalidateRequest (2 ^ 36) 1).wf = false := by decide
/-- The largest operand of each kind is accepted. -/
theorem test_wf_accepts_the_largest : (Instr.add 123 31 31 31).wf = true ∧ (Instr.dmaCopy 1023).wf = true ∧ (Instr.connectionEnd 65535).wf = true ∧
    (Instr.qpDrain (2 ^ 20 - 1)).wf = true ∧ (Instr.updErase 0x60 1).wf = true ∧ (Instr.updErase 0x60 2).wf = true ∧
    (Instr.keeperAlarm 7).wf = true ∧ (Instr.registerWrite 4095 0x0FFFFFFC 0).wf = true ∧ (Instr.registerWrite 0x60 0x100001FFC 0).wf = true := by decide
/-- The table gives no row bits, so no word spells a command. -/
theorem test_no_word_spells_a_command : decodeTableWord 32 0 = none ∧ State.reset.withFetchWord 32 0 = State.reset := by decide

/-! ### Words of the instructions (R65 to R84), field by field from the tables of the spec -/

theorem test_word_add : decodeWord 5 (0x01#6 ++ 3#5 ++ 1#5 ++ 2#5 ++ 0x000#11) = some (.add 5 3 1 2) := by decide
theorem test_word_cset : decodeWord 5 (0x08#6 ++ 3#5 ++ 0#5 ++ 0x8001#16) = some (.cset 5 3 0x8001) ∧ decodeWord 5 (0x08#6 ++ 3#5 ++ 1#5 ++ 0x8001#16) = none := by decide
theorem test_word_rolk : decodeWord 5 (0x09#6 ++ 4#5 ++ 6#5 ++ 3#2 ++ 0#8 ++ 63#6) = some (.rolk 5 4 6 63) ∧
    decodeWord 5 (0x09#6 ++ 4#5 ++ 6#5 ++ 3#2 ++ 1#8 ++ 63#6) = none := by decide
theorem test_word_loads : decodeWord 5 (0x13#6 ++ 7#5 ++ 8#5 ++ 0xFFFE#16) = some (.ldHs 5 7 8 0xFFFE) ∧
    decodeWord 5 (0x1A#6 ++ 7#5 ++ 8#5 ++ 4#16) = some (.stW 5 7 8 4) ∧ decodeWord 5 (0x1F#6 ++ 9#5 ++ 8#5 ++ 0#5 ++ 2#3 ++ 0#2 ++ 0#6) = some (.vstM 5 9 8 2) := by decide
theorem test_word_atom_cas : decodeWord 5 (0x1E#6 ++ 1#5 ++ 2#5 ++ 3#5 ++ 0x002#11) = some (.atomCas 5 1 2 3) := by decide
theorem test_word_branches : decodeWord 5 (0x24#6 ++ 1#5 ++ 2#5 ++ 0x8000#16) = some (.bltu 5 1 2 0x8000) ∧
    decodeWord 5 (0x27#6 ++ 0#2 ++ 5#3 ++ 0#5 ++ 4#16) = some (.bpnone 5 5 4) ∧ decodeWord 5 (0x27#6 ++ 1#2 ++ 5#3 ++ 0#5 ++ 4#16) = none := by decide
theorem test_word_call : decodeWord 5 (0x28#6 ++ 31#5 ++ 0#5 ++ 0x1234#16) = some (.call 5 31 0x1234) := by decide
theorem test_word_vector : decodeWord 5 (0x30#6 ++ 1#5 ++ 2#5 ++ 3#5 ++ 4#3 ++ 2#2 ++ 0x01#6) = some (.vsub 5 1 2 3 4 2) ∧
    decodeWord 5 (0x31#6 ++ 0#2 ++ 6#3 ++ 2#5 ++ 3#5 ++ 4#3 ++ 3#2 ++ 0x02#6) = some (.vcmpLtu 5 6 2 3 4 3) ∧
    decodeWord 5 (0x33#6 ++ 1#5 ++ 2#5 ++ 3#5 ++ 4#3 ++ 0#2 ++ 0x02#6) = some (.vgf128mulG 5 1 2 3 4) ∧
    decodeWord 5 (0x33#6 ++ 1#5 ++ 2#5 ++ 3#5 ++ 4#3 ++ 1#2 ++ 0x02#6) = none := by decide
theorem test_word_predicates : decodeWord 5 (0x35#6 ++ 0#2 ++ 1#3 ++ 0#2 ++ 2#3 ++ 0#2 ++ 3#3 ++ 0#3 ++ 0#2 ++ 0x03#6) = some (.pandn 5 1 2 3) := by decide
theorem test_word_system : decodeWord 5 (0x38#6 ++ 1#5 ++ 2#5 ++ 3#5 ++ 0#11) = some (.enq 5 1 2 3) ∧ decodeWord 5 (0x3A#6 ++ 0#5 ++ 0#5 ++ 0x5#4 ++ 0x123#12) = some (.trap 5 0x123) ∧
    decodeWord 5 (0x3A#6 ++ 9#5 ++ 0#5 ++ 0x6#4 ++ 0x003#12) = some (.sysrd 5 9 3) ∧ decodeWord 5 0 = none := by decide
theorem witness_EncodingRoundTrip : engineForm (.add 5 3 1 2) = some ⟨5, .base, [1, 2], []⟩ ∧ (decodeWord 123 (0x01#6 ++ 3#5 ++ 1#5 ++ 2#5 ++ 0x001#11)).isSome = true := by
  decide

/-! ### Signals of the module -/

/-- R557, R560: media lane 37 lies at rows G and H, columns 22 and 23, and host lane 5 at AW43 to AY44. -/
theorem test_media_lane_37 : (let b := LaneGroup.media.balls 37; [b.txP, b.txN, b.rxP, b.rxN].map Ball.name) = ["G22", "G23", "H22", "H23"] ∧
    (LaneGroup.media.balls 37).txP.centre = (-1905, 20955) := by decide +kernel
theorem test_host_lane_5 : (LaneGroup.host.balls 5).txP.name = "AW43" ∧ (LaneGroup.host.balls 5).rxN.name = "AY44" := by decide +kernel

/-! ### Witnesses: the block as a whole -/

theorem witness_EmptyQueueLetsTimePass :
    (State.reset.pending = [] ∧ State.reset.pwr.crystal = true ∧ State.reset.pwr.island = true) ∧
    ∃ s : State, s.pending = [] ∧ s.pwr.crystal = false :=
  ⟨by decide, { State.reset with pwr := { State.reset.pwr with crystal := false } }, by decide⟩

theorem witness_StepKeepsCanonicalTables : ∃ s t : State, s.canonical = true ∧ s.pending ≠ [] ∧ step s = .next t :=
  ⟨{ State.reset with pending := [.warmResetN true] }, _, by decide +kernel, by decide, rfl⟩

theorem witness_OnlyColdStartTouchesElapsed :
    (∃ t, exec (.coldStart false none 0 0) State.reset = .next t) ∧
    (∀ head fuses vin vhold, Instr.warmResetN false ≠ .coldStart head fuses vin vhold) ∧ ∃ t, exec (.warmResetN false) State.reset = .next t :=
  ⟨⟨_, rfl⟩, by intros; exact Instr.noConfusion, ⟨_, rfl⟩⟩

/-! ### Witnesses: instructions on registers -/

/-- Core 0 running, with numbers in g1 and g2. -/
def sums : State := engine 0 fun c => (c.setG 1 0xFFFFFFFFFFFFFFFF).setG 2 3

theorem witness_IntegerResults : sums.executes 0 .base [1, 2] [] = true ∧ sums.executes 0 .base [1] [] = true ∧ sums.hasNext 0 = true := by decide +kernel
theorem witness_ImmediateResults : sums.executes 0 .base [1] [] = true ∧ sums.executes 0 .base [] [] = true ∧ sums.hasNext 0 = true := by decide +kernel
theorem witness_VectorResults : sums.hasNext 0 = true ∧ sums.executes 0 .vector [] [3, 1, 2] = true ∧ sums.executes 0 .gf [] [3, 1, 2] = true ∧
    sums.executes 0 .vector [] [1, 2] = true ∧ sums.executes 0 .vector [1] [3] = true ∧ sums.executes 0 .vector [1, 2] [3] = true ∧ sums.executes 0 .vector [] [3, 1] = true := by decide +kernel
theorem witness_VectorToScalarResults : sums.hasNext 0 = true ∧ sums.executes 0 .vector [2] [1] = true ∧ sums.executes 0 .vector [] [1] = true := by
  decide +kernel
theorem witness_PredicateResults : sums.hasNext 0 = true ∧ sums.executes 0 .vector [] [1, 2] = true ∧ sums.executes 0 .vector [] [] = true ∧
    sums.executes 0 .vector [1] [] = true := by decide +kernel
theorem witness_RegisterInstructionFrame : ∃ f dest t, regForm (.add 0 3 1 2) = some (f, dest) ∧ sums.executes f.engine f.group f.gs f.vs = true ∧
    sums.hasNext f.engine = true ∧ exec (.add 0 3 1 2) sums = .next t :=
  ⟨⟨0, .base, [1, 2], []⟩, .g 3, _, rfl, by decide +kernel, by decide +kernel, rfl⟩
theorem witness_HardwiredRegisters : (31 : BitVec 5) ≠ 0 ∧ (7 : BitVec 3) ≠ 0 := by decide

/-- R68: `add` keeps 64 bits of the sum. -/
theorem test_add_wraps : answers (exec (.add 0 3 1 2) sums) (fun t => (t.core 0).getG 3 == 2) = true := by decide +kernel
/-- R68: a quotient by zero is all ones and a remainder by zero the dividend. -/
theorem test_divu_by_zero : answers (exec (.divu 0 3 2 0) sums) (fun t => (t.core 0).getG 3 == 0xFFFFFFFFFFFFFFFF) = true := by decide +kernel
theorem test_remu_by_zero : answers (exec (.remu 0 3 2 0) sums) (fun t => (t.core 0).getG 3 == 3) = true := by decide +kernel
/-- R68: `mulh` of −1 and 3 is −1; `mulhu` of the same words is 2. -/
theorem test_mulh_signed : answers (exec (.mulh 0 3 1 2) sums) (fun t => (t.core 0).getG 3 == 0xFFFFFFFFFFFFFFFF) = true := by decide +kernel
theorem test_mulhu_unsigned : answers (exec (.mulhu 0 3 1 2) sums) (fun t => (t.core 0).getG 3 == 2) = true := by decide +kernel
/-- R68: `clz` and `ctz` of zero are 64. -/
theorem test_clz_of_zero : answers (exec (.clz 0 3 0) sums) (fun t => (t.core 0).getG 3 == 64) = true := by decide +kernel
theorem test_ctz_of_zero : answers (exec (.ctz 0 3 0) sums) (fun t => (t.core 0).getG 3 == 64) = true := by decide +kernel
/-- R68: `bswap` puts byte 0 into byte 7. -/
theorem test_bswap_moves_bytes : answers (exec (.bswap 0 3 2) sums) (fun t => (t.core 0).getG 3 == 0x0300000000000000) = true := by decide +kernel
/-- R69: `addk` extends the sign, `ork` does not, and `cshl` shifts by 16. -/
theorem test_addk_sign_extends : answers (exec (.addk 0 3 2 0xFFFD) sums) (fun t => (t.core 0).getG 3 == 0) = true := by decide +kernel
theorem test_ork_zero_extends : answers (exec (.ork 0 3 0 0x8001) sums) (fun t => (t.core 0).getG 3 == 0x8001) = true := by decide +kernel
theorem test_cshl_shifts_in : answers (exec (.cshl 0 2 2 0x1234) sums) (fun t => (t.core 0).getG 2 == 0x31234) = true := by decide +kernel
/-- R33: a write of g0 is discarded, and the pc advances. -/
theorem test_write_of_g0_discarded : answers (exec (.add 0 0 1 2) sums) (fun t => (t.core 0).getG 0 == 0 && (t.core 0).pc == 4) = true := by decide +kernel
/-- R80: its three worked products. -/
theorem test_gf8_product : answers (exec (.vgf8mul 0 3 1 2 0) (engine 0 fun c => (c.setV 1 0x80).setV 2 0x02))
    (fun t => (t.core 0).getV 3 == 0x1D) = true := by decide +kernel
theorem test_gf128_product : answers (exec (.vgf128mulX 0 3 1 2 0) (engine 0 fun c => (c.setV 1 (0x80 <<< 120)).setV 2 0x02))
    (fun t => (t.core 0).getV 3 == 0x87) = true := by decide +kernel
theorem test_gf128_product_reversed : answers (exec (.vgf128mulG 0 3 1 2 0) (engine 0 fun c => (c.setV 1 (0x80 <<< 120)).setV 2 0x02))
    (fun t => (t.core 0).getV 3 == 0x02 <<< 120) = true := by decide +kernel
/-- R76: bytes of a vector sum carry into no neighbour. -/
theorem test_vadd_bytes : answers (exec (.vadd 0 3 1 2 0 0) (engine 0 fun c => (c.setV 1 0x01FF).setV 2 0x0101))
    (fun t => (t.core 0).getV 3 == 0x0200) = true := by decide +kernel

/-! ### Witnesses: branches, memory and exceptions -/

/-- Core 0 running, with the offsets 0x100 and 0x101 of its own memory in g1 and g2, and a word stored at the first. -/
def nearCore : Core := ((({ Core.cold with run := .running, vbase := 0x100 }.setG 1 (BitVec.ofNat 64 (localStore 0 + 0x100))).setG 2
  (BitVec.ofNat 64 (localStore 0 + 0x101))).setG 4 0x1122334455667788).setP 1 5
def near : State := (State.reset.setCore 0 nearCore).putBytes (localStore 0 + 0x100) (leBytes 8 0x8877665544332211)

theorem witness_BranchResults : ((24 : Nat) : Int) = (near.core 0).pc.toNat + 4 * (6 : BitVec 16).toInt ∧
    near.executes 0 .base [1, 2] [] = true ∧ near.executes 0 .base [] [] = true ∧ engineKind 0 ≠ .keeper ∧ near.hasNext 0 = true ∧
    fetchable 0 24 = true ∧ (near.core 0).getG 1 ≠ (near.core 0).getG 2 ∧ (near.core 0).getP 0 ≠ 0 ∧ (near.core 0).getP 2 = 0 ∧
    State.reset.executes 96 .base [] [] = true ∧ engineKind 96 = .keeper := by decide +kernel

theorem witness_CallResults : near.executes 0 .base [] [] = true ∧ (16 : Nat) = 4 * (4 : BitVec 16).toNat ∧ 16 % 4 = 0 ∧ 16 < fetchLimit 0 ∧
    near.executes 0 .base [0] [] = true ∧ ((near.core 0).getG 0 + (6 : BitVec 16).signExtend 64).toNat % 4 ≠ 0 ∧
    fetchLimit 0 ≤ ((near.core 0).getG 4 + (0 : BitVec 16).signExtend 64).toNat ∧ near.mayEnter 0 2 = true := by decide +kernel

/-- The same, its word at the first address with one bit in error. -/
def weakened : State := { near with weak := [((localStore 0 + 0x100) / 8, true)] }

theorem witness_OwnLoadResults : near.hasNext 0 = true ∧ near.executes 0 .base [1] [] = true ∧ near.executes 0 .vector [1] [] = true ∧
    (∀ n ∈ [1, 2, 4, 8, 64], let a := ((near.core 0).getG 1 + (0 : BitVec 16).signExtend 64).toNat
      a % n = 0 ∧ (reachOf 0 a n == .own (localStore 0 + 0x100)) = true ∧ near.touchesDamage (localStore 0 + 0x100) n = false ∧
        near.touchesWeak (localStore 0 + 0x100) n = false) ∧
    (weakened.touchesWeak (localStore 0 + 0x100) 8 = true ∧ 2 ^ 35 * weakened.lpdChannels ≤ localStore 0 + 0x100 ∧ sramBase ≤ localStore 0 + 0x100 ∧
      localStore 0 + 0x100 < sramBase + 0xB800000 ∧ (sramCluster (localStore 0 + 0x100 - sramBase)).isSome = true) := by decide +kernel

theorem witness_OwnStoreResults : near.hasNext 0 = true ∧ near.executes 0 .base [4, 1] [] = true ∧ near.executes 0 .vector [1] [3] = true ∧
    (∀ n ∈ [1, 2, 4, 8, 64], let a := ((near.core 0).getG 1 + (0 : BitVec 16).signExtend 64).toNat
      a % n = 0 ∧ (reachOf 0 a n == .own (localStore 0 + 0x100)) = true ∧ inRom 0 (localStore 0 + 0x100) = false ∧
      near.mergesDamage (localStore 0 + 0x100) (List.replicate n true) = false) ∧
    near.mergesDamage (localStore 0 + 0x100) ((List.range 64).map ((near.core 0).getP 1).getLsbD) = false ∧ (near.core 0).getP 2 = 0 := by decide +kernel

theorem witness_OwnAtomicResults : near.executes 0 .base [1, 4] [] = true ∧ near.executes 0 .base [3, 1, 4] [] = true ∧ near.hasNext 0 = true ∧ (near.core 0).getG 1 % 8 = 0 ∧
    (reachOf 0 ((near.core 0).getG 1).toNat 8 == .own (localStore 0 + 0x100)) = true ∧ inRom 0 (localStore 0 + 0x100) = false ∧
    near.touchesDamage (localStore 0 + 0x100) 8 = false := by decide +kernel

theorem witness_MisalignedAccess : near.mayEnter 0 3 = true ∧ near.executes 0 .base [2] [] = true ∧ near.executes 0 .base [3, 2] [] = true ∧ near.executes 0 .vector [2] [] = true ∧
    near.executes 0 .vector [2] [3] = true ∧ near.executes 0 .base [2, 4] [] = true ∧ near.executes 0 .base [3, 2, 4] [] = true ∧ (near.core 0).getP 1 ≠ 0 ∧
    ∀ n ∈ [2, 4, 8, 64], ((near.core 0).getG 2 + (0 : BitVec 16).signExtend 64).toNat % n ≠ 0 := by decide +kernel

/-- Core 0 in a handler, its return at 0x40. -/
def handling : State := engine 0 fun c => { c with inExc := true, epc := 0x40 }

theorem witness_ExceptionEntryAndReturn : 15 < 16 ∧ (near.core 0).inExc = false ∧ (near.core 0).vbase.toNat + 16 * 15 < fetchLimit 0 ∧
    near.noBarrier 0 = true ∧ (∀ j < 8, near.hasNext j = true) ∧ handling.executes 0 .base [] [] = true ∧
    (handling.core 0).inExc = true ∧ fetchable 0 (handling.core 0).epc.toNat = true := by decide +kernel

/-- Core 0 with an unmasked source pending and interrupts enabled. -/
def pendingIrq : State := engine 0 fun c => { c with irqPend := 0x20000, irqMask := 0x20000, ie := true }

theorem witness_TrapsAndInterrupts : near.executes 0 .base [] [] = true ∧ near.mayEnter 0 8 = true ∧ near.mayEnter 0 1 = true ∧
    ((pendingIrq.core 0).run = .running ∧ (pendingIrq.core 0).waiting = .issuing ∧ (pendingIrq.core 0).irqPend &&& (pendingIrq.core 0).irqMask ≠ 0 ∧
      (pendingIrq.core 0).ie = true ∧ pendingIrq.wdogDue 0 = false ∧ pendingIrq.mayEnter 0 15 = true) ∧
    decodeWord 0 0 = none ∧ lacks 96 (wordGroup 0x38000000#32) = false ∧ (near.core 0).inExc = false ∧
    (engineForm (.cbar 100 1) = some ⟨100, .cbar, [], []⟩ ∧ lacks 100 .cbar = true ∧
      let s := engine 100 id
      s.issues 100 [] [] = true ∧ s.fetchDamaged 100 = false ∧ s.mayEnter 100 1 = true) := by decide +kernel

theorem witness_InstructionsWaitToIssue : engineForm (.wait 0) = some ⟨0, .base, [], []⟩ ∧ State.reset.issues 0 [] [] = false := by decide +kernel

/-- R39: a load that meets a single-bit error reads the corrected data and counts it. -/
theorem test_corrected_error_counts : answers (exec (.ldD 0 3 1 0) weakened)
    (fun t => (t.core 0).getG 3 == 0x8877665544332211 && t.reg (rStcClEcc 0) == 1) = true := by decide +kernel
/-- R36: bytes lie low first in memory, and `ld.b` extends with zeros. -/
theorem test_ld_d_is_little_endian : answers (exec (.ldD 0 3 1 0) near) (fun t => (t.core 0).getG 3 == 0x8877665544332211) = true := by decide +kernel
theorem test_ld_bs_extends_the_sign : answers (exec (.ldBs 0 3 1 7) near) (fun t => (t.core 0).getG 3 == 0xFFFFFFFFFFFFFF88) = true := by decide +kernel
/-- R70: `st.h` writes the low two bytes of gd and no other. -/
theorem test_st_h_stores_two_bytes : answers (exec (.stH 0 4 1 0) near)
    (fun t => t.bytes (localStore 0 + 0x100) 4 == [0x88#8, 0x77#8, 0x33#8, 0x44#8]) = true := by decide +kernel
/-- R71: `vst.m` stores only the lanes its predicate selects. -/
theorem test_vst_m_lanes : answers (exec (.vstM 0 3 1 1) near) (fun t => t.bytes (localStore 0 + 0x100) 4 == [0#8, 0x22#8, 0#8, 0x44#8]) = true := by
  decide +kernel
/-- R37: a misaligned store takes MISALIGNED and stores nothing. -/
theorem test_misaligned_store : answers (exec (.stW 0 4 2 0) near)
    (fun t => (t.core 0).cause == 3 && (t.core 0).pc == 0x130 && t.mem == near.mem) = true := by decide +kernel
/-- R73: `atom.swap` stores gb and returns the old word. -/
theorem test_atom_swap : answers (exec (.atomSwap 0 3 1 4) near)
    (fun t => (t.core 0).getG 3 == 0x8877665544332211 && t.bytes (localStore 0 + 0x100) 1 == [0x88#8]) = true := by decide +kernel
/-- R74: a branch back by one instruction from 0x40. -/
theorem test_branch_back : answers (exec (.beq 0 1 1 0xFFFF) (engine 0 fun c => { c with pc := 0x40 })) (fun t => (t.core 0).pc == 0x3C) = true := by
  decide +kernel
/-- R75: `callr` reads ga before it writes the link to the same register. -/
theorem test_callr_same_register : answers (exec (.callr 0 1 1 0) (engine 0 fun c => c.setG 1 0x80))
    (fun t => (t.core 0).pc == 0x80 && (t.core 0).getG 1 == 4) = true := by decide +kernel
/-- R48, R49: `trap` 5 enters at VBASE + 16 × 8. -/
theorem test_trap_entry : answers (exec (.trap 0 5) near) (fun t => (t.core 0).pc == 0x180 && (t.core 0).faultAddr == 5) = true := by decide +kernel

/-! ### Witnesses: waiting, enqueueing and control registers -/

/-- Core 0 of `near` with a store and a load outstanding. -/
def owing : State := near.modCore 0 fun c =>
  { c with stores := [{ addr := 0x1000, error := none, held := [], failed := [] }],
           loads := [{ vector := false, reg := 9, size := 8, signed := false, atomic := false, addr := 0x1000, result := .data 0 }] }
/-- Core 1 waiting at a barrier of cores 0 and 1, core 0 running. -/
def meeting : State := near.setCore 1 { Core.cold with run := .running, waiting := .cbar 3 0 }
/-- Core 0 alone at a barrier since 0, its limit of 1 µs over. -/
def stuckAtBarrier : State :=
  { (engine 0 fun c => { c with waiting := .cbar 3 0, barTimeout := 1 }) with elapsed := 1000 }

theorem witness_FencesWaitsAndBarriers : near.hasNext 0 = true ∧ near.executes 0 .base [] [] = true ∧ (near.core 0).storesDone = true ∧
    (near.core 0).stores = [] ∧ (near.core 0).loads = [] ∧ (near.core 0).irqPend &&& (near.core 0).irqMask = 0 ∧
    (owing.hasNext 0 = true ∧ owing.executes 0 .base [] [] = true ∧ (owing.core 0).storesDone = false ∧ (owing.core 0).stores ≠ [] ∧
      owing.executes 0 .cbar [] [] = true ∧ (1 : BitVec 8).getLsbD 0 = true) ∧
    (let s := near.modCore 0 fun c => { c with irqPend := 1, irqMask := 1 };
      s.executes 0 .base [] [] = true ∧ s.hasNext 0 = true ∧ (s.core 0).irqPend &&& (s.core 0).irqMask ≠ 0) ∧
    (near.executes 0 .cbar [] [] = true ∧ (2 : BitVec 8).getLsbD 0 = false ∧ near.mayEnter 0 1 = true) := by decide +kernel
theorem witness_barriers : (meeting.executes 0 .cbar [] [] = true ∧ meeting.hasNext 0 = true ∧ (meeting.core 0).stores = [] ∧
      (∀ n < 8, (3 : BitVec 8).getLsbD n = true → n = 0 ∨ (meeting.core n).waiting = .cbar 3 0) ∧ meeting.coreFenced 0 = false ∧ ∀ j < 8, meeting.hasNext j = true) ∧
    (near.executes 0 .cbar [] [] = true ∧ (3 : BitVec 8).getLsbD 1 = true ∧ near.coreFenced 1 = false ∧ (near.core 1).waiting = .issuing) ∧
    (stuckAtBarrier.hasNext 0 = true ∧ (stuckAtBarrier.core 0).waiting = .cbar 3 0 ∧ (stuckAtBarrier.core 0).barTimeout ≠ 0 ∧
      0 + (stuckAtBarrier.core 0).barTimeout.toNat * 1000 ≤ stuckAtBarrier.elapsed.toNat ∧ (stuckAtBarrier.core 0).inExc = false ∧
      (stuckAtBarrier.core 0).vbase.toNat + 144 < fetchLimit 0 ∧ ∀ j < 8, j ≠ 0 → (stuckAtBarrier.core j).waiting = .issuing) := by decide +kernel
theorem witness_words_watched :
    (near.executes 0 .base [1, 4] [] = true ∧ ((near.core 0).getG 1).toNat % 8 = 0 ∧ (reachOf 0 ((near.core 0).getG 1).toNat 8 == .own (localStore 0 + 0x100)) = true ∧
      near.touchesDamage (localStore 0 + 0x100) 8 = false ∧ BitVec.ofNat 64 (ofLe (near.bytes (localStore 0 + 0x100) 8)) ≠ (near.core 0).getG 4) ∧
    (let s := near.modCore 0 fun c => c.setG 5 0x8877665544332211;
      s.executes 0 .base [1, 5] [] = true ∧ BitVec.ofNat 64 (ofLe (s.bytes (localStore 0 + 0x100) 8)) = (s.core 0).getG 5) ∧
    (let s := near.modCore 0 fun c => { c with waiting := .wne 3 (BitVec.ofNat 64 (localStore 0 + 0x100)) 0 };
      s.hasNext 0 = true ∧ s.touchesDamage (localStore 0 + 0x100) 8 = false ∧ BitVec.ofNat 64 (ofLe (s.bytes (localStore 0 + 0x100) 8)) ≠ 0) ∧
    (let s := near.modCore 0 fun c => { c with waiting := .wait, irqPend := 1, irqMask := 1 };
      s.hasNext 0 = true ∧ (s.core 0).run = .running ∧ (s.core 0).irqPend &&& (s.core 0).irqMask ≠ 0 ∧ (s.core 0).ie = false) ∧
    (let s := near.modCore 0 fun c => { c with waiting := .wait, irqPend := 1, irqMask := 1, ie := true };
      s.hasNext 0 = true ∧ (s.core 0).run = .running ∧ s.wdogDue 0 = false ∧ s.mayEnter 0 15 = true) := by decide +kernel

/-- Core 0 naming queue 1 of DMA channel 5, and class 15, which has no unit. -/
def sending : State := engine 0 fun c => ((c.setG 6 0x1015).setG 7 0xF000)
/-- A command of core 0 on its way to that queue. -/
def onItsWay : EnqOwed := { gd := 8, cls := 1, inst := 5, queue := 1, block := 0, status := none }

theorem witness_EnqueueAndStatus : sending.executes 0 .enq [6] [2] = true ∧ sending.hasNext 0 = true ∧ (sending.core 0).storesDone = true ∧
    ((sending.core 0).getG 6).toNat < 2 ^ 16 ∧ 5 < classUnits 1 ∧ mayCommand 0 1 = true ∧
    classUnits (((sending.core 0).getG 7).toNat / 2 ^ 12 % 16) ≤ 0 ∧
    (let s := engine 100 fun c => c.setG 6 0x2000;
      s.executes 100 .enq [6] [2] = true ∧ s.hasNext 100 = true ∧ 0 < classUnits 2 ∧ mayCommand 100 2 = false) ∧
    (let s := owing.modCore 0 fun c => c.setG 6 0x1015;
      s.executes 0 .enq [6] [2] = true ∧ (s.core 0).storesDone = false) := by decide +kernel
theorem witness_arrivals : (let s := sending.modCore 0 fun c => { c with enqs := [onItsWay] };
      isEngine 0 = true ∧ (s.core 0).enqs[0]? = some onItsWay ∧ onItsWay.status = none ∧ onItsWay.queue < 4 ∧ s.unitFenced 1 5 = false ∧
      ((s.unit 1 5).queue 1).length < queueDepth 1) ∧
    (let s := (sending.modCore 0 fun c => { c with enqs := [onItsWay] }).setReg (rDmaChFence 5) 1;
      (s.core 0).enqs[0]? = some onItsWay ∧ s.unitFenced 1 5 = true) ∧
    (let s := (sending.modCore 0 fun c => { c with enqs := [onItsWay] }).setUnit 1 5 { EngUnit.idle with q1 := List.replicate 8 { seq := 1, block := 0 } };
      (s.core 0).enqs[0]? = some onItsWay ∧ s.unitFenced 1 5 = false ∧ queueDepth 1 ≤ ((s.unit 1 5).queue 1).length) ∧
    (let s := sending.modCore 0 fun c => { c with enqs := [{ onItsWay with status := some 0 }] };
      (s.core 0).enqs[0]? = some { onItsWay with status := some 0 }) := by decide +kernel

theorem witness_ControlRegisterAccess : near.executes 0 .base [] [] = true ∧ near.executes 0 .base [3] [] = true ∧ near.hasNext 0 = true ∧
    (near.core 0).causeArmed = false ∧ near.wdogDue 0 = false ∧
    (let s : State := { (engine 0 fun c => { c with wdogLimit := 2 }) with elapsed := 2000 };
      s.executes 0 .base [3] [] = true ∧ s.hasNext 0 = true ∧ s.wdogDue 0 = true) ∧
    (let s := near.modCore 0 fun c => { c with causeArmed := true };
      s.executes 0 .base [] [] = true ∧ (s.core 0).causeArmed = true) ∧
    16 ≤ (16 : BitVec 12).toNat ∧ near.mayEnter 0 1 = true := by decide +kernel
theorem witness_WideControlRegisters : (4 : BitVec 12) = 4 ∧ (5 : BitVec 12) = 5 ∧ (near.core 0).faultAddr.toNat = 0 ∧
    (near.core 0).timerCmp.toNat = 2 ^ 64 - 1 ∧ near.executes 0 .base [] [] = true ∧ near.executes 0 .base [3] [] = true ∧ near.executes 0 .base [4] [] = true ∧ near.hasNext 0 = true := by
  decide +kernel

/-- A load of core 0 with its result, which holds issue. -/
def heldOn (r : LoadResult) : State := near.modCore 0 fun c =>
  { c with waiting := .loadHeld, loads := [{ vector := false, reg := 3, size := 8, signed := false, atomic := false, addr := 0x1000, result := r }] }

theorem witness_ResponsesToLoadsAndStores :
    (((heldOn (.data 7)).core 0).loads.map (·.result) = [(.data 7)] ∧ ((heldOn (.data 7)).core 0).waiting = .loadHeld ∧
      0 + 1 = ((heldOn (.data 7)).core 0).loads.length ∧ (heldOn (.data 7)).hasNext 0 = true) ∧
    ((owing.core 0).loads.map (·.result) = [(.data 0)] ∧ (owing.core 0).waiting = .issuing ∧ (owing.core 0).run = .running) ∧
    (((heldOn (.error .unoccupied)).core 0).loads.map (·.result) = [(.error .unoccupied)] ∧ (heldOn (.error .unoccupied)).mayEnter 0 4 = true) ∧
    (let s := near.modCore 0 fun c => { c with stores := [{ addr := 0x1000, error := some .unoccupied, held := [], failed := [0x1000] }] };
      (s.core 0).stores.map (·.error) = [some .unoccupied] ∧ (s.core 0).waiting ≠ .loadHeld ∧ s.mayEnter 0 5 = true) ∧
    ((owing.core 0).stores.map (fun o => (o.error, o.held)) = [(none, [])]) ∧
    (let s := near.modCore 0 fun c => { c with waiting := .fenceW, stores := [{ addr := 0x1000, error := none, held := [], failed := [] }] };
      (s.core 0).waiting = .fenceW ∧ { s.core 0 with stores := (s.core 0).stores.eraseIdx 0 }.storesDone = true ∧ s.hasNext 0 = true) ∧
    (((heldOn .host).core 0).loads.map (·.result) = [.host] ∧ (heldOn .host).ep.atsWaiting = [] ∧ (heldOn .host).ep.invals = []) := by decide +kernel

theorem witness_WatchdogAndTimer :
    (let s : State := { (engine 0 fun c => { c with wdogLimit := 2 }) with elapsed := 1000 };
      (s.core 0).run = .running ∧ (s.core 0).wdogLimit.toNat ≠ 0 ∧ (s.core 0).wdogWarned = false ∧ 0 + 2 / 2 * 1000 ≤ s.elapsed.toNat) ∧
    (let s : State := { (engine 0 fun c => { c with wdogLimit := 2, wdogWarned := true }) with elapsed := 2000 };
      (s.core 0).waiting ≠ .loadHeld ∧ 0 + 2 * 1000 ≤ s.elapsed.toNat ∧ s.mayEnter 0 7 = true ∧ (s.core 0).wdogWarned = true) ∧
    isEngine 123 = true ∧ near.elapsed.toNat < (near.core 0).timerCmp.toNat ∧
    (let s := engine 0 fun c => { c with timerCmp := 0 };
      (s.core 0).timerCmp.toNat ≤ s.elapsed.toNat) := by decide +kernel

theorem witness_StartsStopsAndDoorbells :
    (State.reset.coreFenced 95 = false ∧ State.reset.regBit (rStcClCtl (95 / 8)) (95 % 8) = false ∧ (State.reset.core 95).run = .stopped) ∧
    (State.reset.setReg (rStcClFence 11) 0x80).coreFenced 95 = true ∧
    (let s := near.setRegBit (rStcClCtl 0) 0;
      s.regBit (rStcClCtl (0 / 8)) (0 % 8) = true ∧ (s.core 0).run = .running ∧ (s.core 0).loads = [] ∧ (s.core 0).stores = []) ∧
    (let s := owing.setRegBit (rStcClCtl 0) 0;
      s.regBit (rStcClCtl 0) 0 = true ∧ (s.core 0).loads ≠ []) ∧
    (((State.reset.setCore 0 { Core.cold with run := .stopping false }).core 0).run = .stopping false) ∧ 11 < 12 := by decide +kernel

/-- R85: `sysrd` of STC_ID: core 3 of cluster 11 reads 0x5B. -/
theorem test_sysrd_core_id : answers (exec (.sysrd 91 3 0) (engine 91 id)) (fun t => (t.core 91).getG 3 == 0x5B) = true := by decide +kernel
/-- R46: STC_VBASE keeps bits [17:8] of what is written. -/
theorem test_syswr_vbase : answers (exec (.syswr 0 4 6) (engine 0 fun c => c.setG 4 0xFFFFFFFF)) (fun t => (t.core 0).vbase == 0x3FF00) = true := by
  decide +kernel
/-- R81: a queue of class 15 answers NO_UNIT. -/
theorem test_enq_no_unit : answers (exec (.enq 0 8 2 7) sending) (fun t => (t.core 0).getG 8 == 3) = true := by decide +kernel
/-- R99: the ninth command of a DMA queue is turned away with QUEUE_FULL. -/
theorem test_enq_queue_full : answers (exec (.commandQueueArrival 0 0) ((sending.modCore 0 fun c => { c with enqs := [onItsWay] }).setUnit 1 5
    { EngUnit.idle with q1 := List.replicate 8 { seq := 1, block := 0 } })) (fun t => ((t.core 0).enqs.map (·.status)) == [some 1]) = true := by decide +kernel
/-- R42, R45: the last core to arrive lets both go on. -/
theorem test_barrier_completes : answers (exec (.cbar 0 3) meeting) (fun t => (t.core 0).pc == 4 && (t.core 1).pc == 4 && (t.core 1).waiting == .issuing) = true := by
  decide +kernel
/-- R57: a core starts at offset 0 with its registers kept. -/
theorem test_run_keeps_registers : answers (exec (.runCore 0) (State.reset.modCore 0 fun c => { c.setG 1 7 with pc := 0x40, vbase := 0x100 }))
    (fun t => (t.core 0).pc == 0 && (t.core 0).vbase == 0 && (t.core 0).getG 1 == 7 && (t.core 0).run == .running) = true := by decide +kernel

/-! ### Witnesses: registers and fences -/

/-- The state after reset with the head host's link up and its BARs open. -/
def hosted : State := { State.reset with ep := { State.reset.ep with linkUp := true, memEnable := true } }

theorem witness_WideRegisterHalves : isHalf false rCatDirBase = true ∧ isHalf true (rCatDirBase + 4) = true ∧ State.reset.reachesRegs 0 = true ∧
    hosted.reachesRegs srcHost = true ∧ (State.reset.shadow 0).tag ≠ rCatDirBase + 1 ∧ (State.reset.hold 0).tag ≠ rCatDirBase + 1 ∧
    ((regAt (rCatDirBase + 4)).map fun r => State.reset.mayWrite r.1.writer 0) = some true := by decide +kernel

theorem witness_RegisterAccess : rStkConfig < configBase ∧ State.reset.reachesRegs 0 = true ∧
    (rStkConfig + 2) % 4 ≠ 0 ∧ rMedBlk 0 % 4 = 0 ∧
    ((State.reset.deepWrite 0 0 0).isNone ∧ (regAt (rSysId + 0x3C)).isNone) ∧
    ((State.reset.deepWrite 0 rUpdAddr 0).isNone ∧ (regAt rUpdAddr).map (fun r => State.reset.mayWrite r.1.writer 0) = some false) ∧
    ((State.reset.deepWrite 0 rNocErrStatus 1).isNone ∧ (State.reset.writeSpecial 0 rNocErrStatus 1).isNone ∧
      (regAt rNocErrStatus).map (fun r => (State.reset.mayWrite r.1.writer 0, r.1.wide)) = some (true, false)) ∧
    ((State.reset.deepWrite 0 rCatDirBase 0).isNone ∧ (regAt rCatDirBase).map (fun r => (r.2, r.1.wide)) = some (false, true)) ∧
    (rStkConfig % 4 + 4 ≤ 4 ∧ rStkConfig % 4 + 1 ≤ 4) ∧ 511 < 512 ∧ hosted.ep.linkUp = true := by decide +kernel

theorem witness_Fencing : (srcGovernor = srcGovernor ∨ srcGovernor = srcHost) ∧ ¬ (0 = srcGovernor ∨ 0 = srcHost) ∧
    State.reset.supervisorCore ≠ some 95 ∧ 15 < hosted.ethPorts ∧ 0 < 255 ∧ 255 < 256 ∧
    State.reset.holdsCustody = false := by decide +kernel

/-- R9: a write of a W1C field clears the bits written as 1 and no other. -/
theorem test_w1c_write : answers (exec (.registerWrite 0 rNocErrStatus 1) (State.reset.setReg rNocErrStatus 0x103))
    (fun t => t.reg rNocErrStatus == 0x102) = true := by decide +kernel
/-- R8: the high half read after the low half is of the same value. -/
theorem test_wide_read_is_whole : answers (exec (.readLowHalf 0 rCatDirBase) ((State.reset.setReg rCatDirBase 0x40).setReg (rCatDirBase + 4) 1))
    (fun t => answers (exec (.readHighHalf 0 (rCatDirBase + 4)) (t.setReg (rCatDirBase + 4) 2))
      fun u => u.replies.any fun r => r.2.data == [1#8, 0#8, 0#8, 0#8]) = true := by decide +kernel
/-- R58: a fenced core stops for good and its RUN bit falls. -/
theorem test_core_fence : answers (exec (.coreFence srcGovernor 0) (near.setRegBit (rStcClCtl 0) 0))
    (fun t => (t.core 0).run == .dead && t.coreFenced 0 && ! t.regBit (rStcClCtl 0) 0) = true := by decide +kernel
/-- R30: a requester that is neither governor nor head host fences nothing. -/
theorem test_stranger_fences_nothing : answers (exec (.coreFence 5 0) near) (fun t => t == near) = true := by decide +kernel

/-! ### Witnesses: engine units -/

/-- A command block of opcode `op`, its record at 0x1000 in on-chip memory, with the fields given as (byte, value). -/
def block (op : Nat) (fields : List (Nat × Nat)) : Vec :=
  BitVec.ofNat 512 (fields.foldl (fun n f => n + f.2 * 2 ^ (8 * f.1)) (op + (sramBase + 0x1000) * 2 ^ 64))
/-- Unit `u` of a class with the block at the head of its queue 0. -/
def commanded (cls u : Nat) (b : Vec) : State := State.reset.setUnit cls u { EngUnit.idle with q0 := [{ seq := 1, block := b }] }
/-- Unit `u` of a class with the command in service. -/
def serving (cls u : Nat) (c : Cmd) : State := State.reset.setUnit cls u { EngUnit.idle with service := [c] }
/-- The command of a block, taken from queue 0. -/
def taken (b : Vec) : Cmd := Cmd.start 0 { seq := 1, block := b } 0
/-- The unit takes a command of this opcode now, whose common checks hold. -/
def takesNow (cls u op : Nat) (s : State) : Bool :=
  match s.nextCommand cls u with
  | some (c, _) => opcodeOf c.block == op && ! badCommon c.block
  | none => false
theorem takes_of_takesNow {cls u op : Nat} {s : State} (h : takesNow cls u op s = true) : ∃ c e, s.takes cls u op c e := by
  unfold takesNow at h
  split at h
  · rename_i c e h'
    simp only [Bool.and_eq_true, Bool.not_eq_true', beq_iff_eq] at h
    exact ⟨c, e, h', h.1⟩
  · cases h
/-- The unit, its command of this opcode in service, executes it. -/
def runsNow (cls u op : Nat) (c : Cmd) : Bool := ! (serving cls u c).takesNext cls u op && (serving cls u c).executing cls u op == some c

/-- Addresses of on-chip memory. -/
def inSram : Nat := sramBase + 0x10000
def outSram : Nat := sramBase + 0x20000

theorem witness_EngineRecordsAndErrors :
    (let c := (taken (block 1 [])).finish stOk;
      1023 < classUnits 1 ∧ ((serving 1 1023 c).unit 1 1023).oldest 0 = some c ∧ c.stop = 0 ∧ c.done = true ∧
      (((serving 1 0 (taken (block 1 []))).unit 1 0).oldest 0).map (fun x => (x.stop, x.done)) = some (0, false) ∧
      (((serving 1 0 { c with stop := stFenced }).unit 1 0).oldest 0).map (fun x => (x.stop, x.done)) = some (stFenced, true)) ∧
    (((commanded 1 0 (block 9 [])).nextCommand 1 0).map (fun x => opcodeAssigned 1 (opcodeOf x.1.block)) = some false) ∧
    (let c := (taken (block 1 [(1, 1)])).finish stOk; let s := serving 1 1023 c;
      (s.nextCommand 1 1023).isNone ∧ s.headerMisses 1 1023 0 = [] ∧ s.dueRecord 1 1023 0 = some (c, s) ∧ goodCompletionAddr (completionAddr c.block) = true ∧
      (s.writeFault (completionAddr c.block) (List.replicate 32 true)).isNone ∧ irqOf c.block = true ∧ isEngine (notifyOf c.block) = true) ∧
    (let c := (taken 1).finish stOk;
      goodCompletionAddr (completionAddr c.block) = true ∧ (serving 1 0 c).dueRecord 1 0 0 = some (c, serving 1 0 c) ∧
        ((serving 1 0 c).writeFault (completionAddr c.block) (List.replicate 32 true)).isSome) ∧
    (let c := (taken (block 1 [(8, 1)])).finish stOk;
      (serving 1 0 c).dueRecord 1 0 0 = some (c, serving 1 0 c) ∧ goodCompletionAddr (completionAddr c.block) = false) ∧
    (let c := taken (block 1 []);
      ((serving 1 0 c).unit 1 0).service.find? Cmd.live = some c ∧ opcodeOf c.block ≠ 3 ∧ c.job = none) := by decide +kernel
theorem witness_known_answer_tests :
    testedClass 2 = true ∧ testedClass 7 = true ∧ State.reset.unitIdle 7 3 = true ∧ State.reset.unitFenced 7 3 = false ∧
    (State.reset.unit 7 3).testing = false ∧
    ((State.reset.setUnit 7 3 { EngUnit.idle with testing := true }).unit 7 3).testing = true ∧
    (State.reset.setUnit 7 3 { EngUnit.idle with testing := true }).unitFenced 7 3 = false := by decide +kernel

/-- A COPY of 64 bytes, a FILL of 8 and a CHAIN of two descriptors. -/
def copyBlock : Vec := block 1 [(16, inSram), (24, outSram), (32, 64), (36, 1), (38, 1), (60, 64)]
def fillBlock : Vec := block 2 [(16, 0x1122334455667788), (24, outSram), (32, 8), (36, 1), (38, 1), (60, 8)]
def chainBlock : Vec := block 3 [(16, inSram), (24, 2)]

theorem witness_DmaCommands :
    takesNow 1 1023 1 (commanded 1 1023 copyBlock) = true ∧ badTransfer false copyBlock = false ∧
    takesNow 1 0 2 (commanded 1 0 fillBlock) = true ∧ badTransfer true fillBlock = false ∧
    takesNow 1 0 1 (commanded 1 0 (block 1 [])) = true ∧ badTransfer false (block 1 []) = true ∧
    takesNow 1 0 3 (commanded 1 0 chainBlock) = true ∧ badChain chainBlock = false ∧ badChain (block 3 []) = true ∧
    (runsNow 1 1023 1 (taken copyBlock) = true ∧ transferMisses false copyBlock State.reset = [] ∧ runsNow 1 0 2 (taken fillBlock) = true ∧
      transferMisses true fillBlock State.reset = [] ∧ transferMisses false (block 1 [(16, hostBase), (24, outSram), (32, 64), (36, 1), (38, 1), (60, 64)])
        { hosted with ep := { hosted.ep with atsEnable := true } } ≠ []) ∧
    (bodyCnt1 copyBlock = 1 ∧ bodyCnt2 copyBlock = 1 ∧ bodyExpect copyBlock = bodyLen0 copyBlock ∧ bodyDst copyBlock % 64 + bodyLen0 copyBlock ≤ 64 ∧
      badBody false copyBlock = false ∧ badBody true fillBlock = false ∧
      (State.reset.route (bodyDst copyBlock) (bodyLen0 copyBlock) == .mem) = true ∧
      (State.reset.writeFault (bodyDst copyBlock) (List.replicate (bodyLen0 copyBlock) true)).isNone ∧ bodySrc copyBlock % 64 + bodyLen0 copyBlock ≤ 64 ∧
      runOverlaps (bodyLen0 copyBlock) (bodySrc copyBlock, bodyDst copyBlock) = false ∧ (State.reset.route (bodySrc copyBlock) (bodyLen0 copyBlock) == .mem) = true ∧
      (State.reset.readFault (bodySrc copyBlock) (bodyLen0 copyBlock)).isNone) ∧
    (let c := taken chainBlock;
      runsNow 1 0 3 c = true ∧ c.descEnd = none ∧ chainMisses c (serving 1 0 c) = [] ∧ c.desc = none ∧
      ((serving 1 0 c).busRead (engineSource 1 0) c.descAddr 64).1.isNone ∧
      ((serving 1 0 c).busRead (engineSource 1 0) (taken (block 3 [(16, 2 ^ 45), (24, 2)])).descAddr 64).1.isSome ∧
      runsNow 1 0 3 { c with desc := some fillBlock } = true ∧ chainMisses { c with desc := some fillBlock } (serving 1 0 c) = []) ∧
    (let c := { taken chainBlock with descEnd := some (stOk, 8) };
      (serving 1 0 c).executing 1 0 3 = some c ∧ (serving 1 0 c).hostMisses c.descAddr 16 true = []) ∧
    ((State.reset.unit 1 0).abortable = 0 ∧ State.reset.reg (rDmaChAbortResult 0) % 4 ≠ 1 ∧
      ((serving 1 0 (taken chainBlock)).unit 1 0).abortable ≠ 0) := by decide +kernel

/-- An ENCODE of 64 bytes and a DECODE of 25. -/
def encodeBlock : Vec := block 1 [(16, inSram), (24, outSram), (32, 64), (36, 88)]
def decodeBlock : Vec := block 2 [(16, inSram), (24, outSram), (32, 25), (36, 64)]
/-- A lane with a command in a stage, its reads made where `ready` says so. -/
def inLane (cls u : Nat) (b : Vec) (stage : Nat) (ready : Bool) : State :=
  serving cls u { taken b with job := some { LaneJob.start with stage := stage, ready := ready } }
/-- The same, with a status that a read failed with, or a verdict. -/
def inLaneWith (b : Vec) (f : LaneJob → LaneJob) : State := serving 2 0 { taken b with job := some (f { LaneJob.start with ready := true }) }

theorem witness_lanes_take :
    takesNow 2 31 1 (commanded 2 31 encodeBlock) = true ∧ badEncode encodeBlock = false ∧ badEncode (block 1 []) = true ∧
    takesNow 2 0 2 (commanded 2 0 decodeBlock) = true ∧ badDecode decodeBlock = false ∧ badDecode (block 2 []) = true ∧
    takesNow 3 47 2 (commanded 3 47 decodeBlock) = true ∧ (commanded 3 47 decodeBlock).decoding 47 = none ∧
    ((inLane 2 0 encodeBlock 0 false).takesNext 2 0 1 = false ∧ ((inLane 2 0 encodeBlock 0 false).awaitingReads 2 0 1).isSome = true ∧
      (inLane 2 0 encodeBlock 0 false).spanMisses (laneSrc encodeBlock) (laneSrcLen encodeBlock) false = [] ∧ loadCtxOf encodeBlock = false ∧
      ((inLane 2 0 encodeBlock 0 false).readSpan (engineSource 2 0) (laneSrc encodeBlock) (laneSrcLen encodeBlock)).1.isNone) ∧
    ((inLane 2 0 decodeBlock 0 false).takesNext 2 0 2 = false ∧ ((inLane 2 0 decodeBlock 0 false).awaitingReads 2 0 2).isSome = true ∧
      loadCtxOf decodeBlock = false) ∧
    ((inLane 3 47 decodeBlock 0 false).takesNext 3 47 2 = false ∧ ((inLane 3 47 decodeBlock 0 false).awaitingReads 3 47 2).isSome = true ∧
      (inLane 3 47 decodeBlock 0 false).decoding 47 = none) := by decide +kernel
theorem witness_LaneCommands :
    (((inLane 2 0 encodeBlock 0 false).inStage 0 0).map fun x => x.2.ready) = some false ∧
    (((inLaneWith encodeBlock fun j => { j with failed := stBusError }).inStage 0 0).map fun x => (x.2.ready, x.2.failed)) = some (true, stBusError) ∧
    (let s := inLane 2 0 encodeBlock 0 true;
      ((s.inStage 0 0).map fun x => (x.2.ready, x.2.failed)) = some (true, 0) ∧ s.inStage 0 1 = none ∧ isEncode encodeBlock = true ∧ isEncode decodeBlock = false ∧
      (s.startCtx 2 0 { taken encodeBlock with job := some { LaneJob.start with ready := true } } { LaneJob.start with ready := true }).isSome = true) ∧
    (∀ stage ∈ [1, 2, 3], ((inLane 2 0 encodeBlock stage true).inStage 0 stage).isSome = true ∧
      ((inLane 2 0 encodeBlock stage true).inStage 0 2).isSome = (stage == 2)) ∧
    (inLane 2 0 encodeBlock 2 true).inStage 0 3 = none ∧ ((inLane 2 0 decodeBlock 2 true).inStage 0 2).isSome = true ∧
    (((inLaneWith encodeBlock fun j => { j with stage := 2, verdict := some true }).inStage 0 2).map fun x => x.2.verdict) = some (some true) ∧
    (inLane 2 0 encodeBlock 3 true).spanMisses (laneDst encodeBlock) (laneSrcLen encodeBlock + 24) true = [] ∧
    (let s := State.reset.setUnit 2 0 { EngUnit.idle with service :=
        [{ taken encodeBlock with job := some { LaneJob.start with stage := 1, ready := true } }, { taken encodeBlock with seq := 2, job := some { LaneJob.start with ready := true } }] };
      ((s.inStage 0 0).map fun x => (x.2.ready, x.2.failed)) = some (true, 0) ∧ (s.inStage 0 1).isSome = true) ∧
    (let s := State.reset.setUnit 2 0 { EngUnit.idle with service :=
        [{ taken encodeBlock with job := some { LaneJob.start with stage := 2, ready := true } }, { taken encodeBlock with seq := 2, job := some { LaneJob.start with stage := 1, ready := true } }] };
      (s.inStage 0 1).isSome = true ∧ (s.inStage 0 2).isSome = true) ∧
    (let s := State.reset.setUnit 2 0 { EngUnit.idle with service :=
        [{ taken encodeBlock with job := some { LaneJob.start with stage := 3, ready := true } }, { taken encodeBlock with seq := 2, job := some { LaneJob.start with stage := 2, ready := true } }] };
      (s.inStage 0 2).isSome = true ∧ (s.inStage 0 3).isSome = true) := by decide +kernel
theorem witness_decoder_lanes :
    let s := inLane 3 47 decodeBlock 0 true;
    (s.decoding 47).isSome = true ∧ (s.startCtx 3 47 { taken decodeBlock with job := some { LaneJob.start with ready := true } } { LaneJob.start with ready := true }).isSome = true ∧
    decodeMisses decodeBlock s = [] ∧ (s.readSpan (engineSource 3 47) (laneSrc decodeBlock) (laneSrcLen decodeBlock)).1.isNone ∧
    (((serving 3 47 { taken decodeBlock with job := some { LaneJob.start with ready := true, failed := stBusError } }).decoding 47).map fun x => x.2.failed) = some stBusError := by
  decide +kernel

/-- A SHAKE256, a KMAC256, a FINGERPRINT and a VERIFY. -/
def shakeBlock : Vec := block 1 [(16, inSram), (24, outSram), (32, 64), (36, 32)]
def kmacBlock : Vec := block 2 [(16, inSram), (24, outSram), (32, 64), (36, 32)]
def printBlock : Vec := block 3 [(16, inSram), (24, outSram), (32, 4096), (48, 0)]
def verifyBlock : Vec := block 4 [(16, inSram), (24, outSram), (32, 4096), (48, outSram + 0x100)]
theorem witness_DigestCommands :
    takesNow 4 31 1 (commanded 4 31 shakeBlock) = true ∧ badShake shakeBlock = false ∧
    takesNow 4 0 1 (commanded 4 0 (block 1 [(16, 2 ^ 48)])) = true ∧ badShake (block 1 [(16, 2 ^ 48)]) = true ∧
    takesNow 4 0 2 (commanded 4 0 kmacBlock) = true ∧ badKmac kmacBlock = false ∧ State.reset.digestKey 0 = [] ∧
    (State.reset.setDigestKey 0 (List.replicate 32 1)).digestKey 0 ≠ [] ∧
    takesNow 4 0 3 (commanded 4 0 printBlock) = true ∧ badBlocks false 64 printBlock = false ∧ badBlocks false 64 (block 3 []) = true ∧
    takesNow 4 0 4 (commanded 4 0 verifyBlock) = true ∧ badBlocks true 8 verifyBlock = false ∧ badBlocks true 8 (block 4 []) = true ∧
    (runsNow 4 31 1 (taken shakeBlock) = true ∧ messageMisses (taken shakeBlock) State.reset = [] ∧
      (State.reset.readSpan (engineSource 4 31) (dgtSrc shakeBlock) (dgtSrcLen shakeBlock)).1.isNone ∧
      (State.reset.spanWriteFault (dgtDst shakeBlock) (dgtOutLen shakeBlock)).isNone ∧ (State.reset.spanWriteFault (2 ^ 45) 32).isSome) ∧
    runsNow 4 0 2 (taken kmacBlock) = true ∧ messageMisses (taken kmacBlock) State.reset = [] ∧
    runsNow 4 0 3 (taken printBlock) = true ∧ blockMisses false (taken printBlock) State.reset = [] ∧
    runsNow 4 0 4 (taken verifyBlock) = true ∧ blockMisses true (taken verifyBlock) State.reset = [] ∧
    4159 < 4160 ∧ (List.replicate 32 (1#8)).length = 32 := by decide +kernel

/-- An ENCRYPT of one block and a CTR of one under slot 5. -/
def encryptBlock : Vec := block 1 [(16, inSram), (24, outSram), (48, 16), (52, 5)]
def ctrBlock : Vec := block 3 [(16, inSram), (24, outSram), (32, inSram + 0x100), (48, 16), (52, 5)]
theorem witness_CipherCommands :
    127 < 128 ∧ State.reset.cphCommand 127 = none ∧ goodHalves (List.replicate 16 0) [] = true ∧ goodHalves (List.replicate 32 0) (List.replicate 32 1) = true ∧
    (CSlot.empty.refuse 1 false ≠ 0 ∧ { CSlot.empty with halfA := List.replicate 16 0, state := .loaded, limit := 5 }.refuse 1 false = 0) ∧
    badCipherOp 1 (block 1 []) = true ∧ takesNow 5 0 1 (commanded 5 0 (block 1 [])) = true ∧
    takesNow 5 127 1 (commanded 5 127 encryptBlock) = true ∧ badCipherOp 1 encryptBlock = false ∧ badCipherOp 3 ctrBlock = false ∧
    takesNow 5 0 3 (commanded 5 0 ctrBlock) = true ∧
    (let c := taken encryptBlock; let s := serving 5 0 c;
      s.cphCommand 0 = some c ∧ opcodeOf c.block = 1 ∧ s.suspendDue 0 c = false ∧ s.blockMissesOf 0 1 c = []) ∧
    (let c := taken ctrBlock; let s := serving 5 0 c;
      s.cphCommand 0 = some c ∧ s.needsIcb 0 3 = true ∧ s.suspendDue 0 c = false ∧ s.blockMissesOf 0 3 c = []) ∧
    (let c := { taken (block 1 []) with queue := 1, index := 1 };
      let s := State.reset.setUnit 5 0 { EngUnit.idle with service := [c], q0 := [{ seq := 2, block := block 1 [] }] };
      s.cphCommand 0 = some c ∧ s.suspendDue 0 c = true) ∧
    (State.reset.setUnit 5 0 { EngUnit.idle with suspended := [taken (block 1 [])] }).resumeDue 0 = true ∧ 4095 < 4096 ∧
    (State.reset.kpr.owner ≠ .accepted ∧ ({ State.reset.kpr with owner := .accepted } : Keeper).owner = .accepted) ∧
    ((State.reset.setCslot 5 { CSlot.empty with state := .loaded }).cslot 5).state ≠ .empty := by decide +kernel

/-- A WALK, a FIND, a PROBE, a SCORE and a GENERATE with operands in range. -/
def walkBlock : Vec := block 1 [(16, inSram), (24, outSram), (40, 1)]
def findBlock : Vec := block 2 [(16, inSram), (24, outSram), (32, 2)]
def probeBlock : Vec := block 3 [(48, inSram), (56, 1)]
def scoreBlock : Vec := block 4 [(16, inSram), (24, outSram), (32, 1), (36, 1)]
def parityBlock : Vec := block 1 [(16, inSram), (24, 64), (28, 4), (29, 0xFF), (30, 0xFF)]
theorem witness_CatalogueCommands :
    takesNow 7 3 1 (commanded 7 3 (block 1 [])) = true ∧ takesNow 7 0 1 (commanded 7 0 walkBlock) = true ∧ badWalk (block 1 []) = true ∧ badWalk walkBlock = false ∧
    takesNow 7 0 2 (commanded 7 0 findBlock) = true ∧ badFind (block 2 []) = true ∧ badFind findBlock = false ∧
    takesNow 7 0 3 (commanded 7 0 probeBlock) = true ∧ badProbe (block 3 []) = true ∧ badProbe probeBlock = false ∧
    takesNow 7 0 4 (commanded 7 0 scoreBlock) = true ∧ badScore (block 4 []) = true ∧ badScore scoreBlock = false ∧
    (runsNow 7 0 1 (taken walkBlock) = true ∧ walkMisses (taken walkBlock) State.reset = [] ∧ (State.reset.writeSpan 0 (catDst walkBlock) (zeros 16)).1.isNone) ∧
    (runsNow 7 0 2 (taken findBlock) = true ∧ findMisses (taken findBlock) State.reset = []) ∧
    (runsNow 7 0 3 (taken probeBlock) = true ∧ probeMisses (taken probeBlock) State.reset = [] ∧ (State.reset.readSpan (engineSource 7 0) (probeAddr probeBlock) 4096).1.isNone) ∧
    (runsNow 7 0 4 (taken scoreBlock) = true ∧ scoreMisses (taken scoreBlock) State.reset = [] ∧
      (State.reset.readSpan (engineSource 7 0) (scoreTable scoreBlock) (32 * scoreCount scoreBlock)).1.isNone) := by decide +kernel
theorem witness_ParityCommands :
    takesNow 6 7 1 (commanded 6 7 parityBlock) = true ∧ badParity 1 parityBlock = false ∧ badParity 1 (block 1 []) = true ∧
    runsNow 6 7 1 (taken parityBlock) = true ∧ parMisses 1 (taken parityBlock) State.reset = [] ∧
    (State.reset.readSpan (engineSource 6 7) (parTable parityBlock) (8 * (parD parityBlock + 2))).1.isNone ∧
    goodTable (tableEntries (List.replicate 48 0)) = true ∧ goodTable (tableEntries (List.replicate 48 1)) = false := by decide +kernel

/-- Carrier 7 in slot 2, in service on this head's port, whose rings are ready. -/
def readyPort : CPort := { CPort.reset with linkUp := true, enable := true, ready := true, cplBase := outSram, cplSize := 64, subBase := List.replicate 4 inSram,
                                            subSize := List.replicate 4 64, subTail := [0, 0, 0, 0], subHead := [0, 0, 0, 0], headSeen := [0, 0, 0, 0] }
def carried (f : Carrier → Carrier) : State := State.reset.modCar 2 fun c => f { c with number := 7, inService := true, port0 := readyPort }
def identifyBlock : Vec := block 1 [(16, 7), (24, outSram)]
theorem witness_SequencerCommands :
    let s := (carried id).setUnit 8 0 { EngUnit.idle with q0 := [{ seq := 1, block := identifyBlock }] };
    ((s.nextCommand 8 0).map fun x => badCommon x.1.block) = some false ∧ s.slotOf (medCarrier identifyBlock) = some 2 ∧ opcodeOf identifyBlock = 1 ∧
    badMedia identifyBlock = false ∧ badMedia (block 1 [(16, 7), (36, 1)]) = true ∧ (s.car 2).sequencer = 0 ∧ (s.car 2).inService = true ∧
    ((s.car 2).port s.ownPort).room 0 = true ∧
    (((carried fun c => { c with port0 := { readyPort with subTail := [63, 0, 0, 0] } }).car 2).port 0).room 0 = false := by decide +kernel

/-- R104: a FILL repeats its pattern of eight bytes: taken by one event, run by the next. -/
theorem test_dma_fill : answers (exec (.dmaFill 0) (commanded 1 0 fillBlock)) (fun t => answers (exec (.dmaFill 0) t)
    fun r => r.bytes outSram 8 == leBytes 8 0x1122334455667788) = true := by
  decide +kernel
/-- R206, R211: SHAKE256 of no bytes begins 46 B9 DD 2B (FIPS 202). -/
theorem test_shake256_of_nothing : (shake256 4 [] == [0x46#8, 0xB9#8, 0xDD#8, 0x2B#8]) = true := by decide +kernel
/-- R247: an ENCRYPT under an EMPTY slot ends with KEY_EMPTY. -/
theorem test_encrypt_empty_slot : answers (exec (.cphEncrypt 0 0) (commanded 5 0 encryptBlock))
    (fun t => (t.unit 5 0).service.map (fun c => (c.done, c.status)) == [(true, stKeyEmpty)]) = true := by decide +kernel

/-! ### Witnesses: carriers -/

/-- A command of opcode `op` that a carrier has fetched on port 0. -/
def fetchedCmd (op egroup addr arg0 len : Nat) (more : List Byte) : CCmd :=
  { port := 0, ring := 0, bytes := padTo 64 (leBytes 8 op ++ leBytes 8 egroup ++ leBytes 8 addr ++ leBytes 4 arg0 ++ leBytes 4 len ++ more),
    subHead := 1, wpAtFetch := 1, outcome := none }
/-- A carrier's identity: 16 erase groups of 8 page groups. -/
def ident16 : CarrierIdent := { CarrierIdent.blank with level := 1, egroups := 16, qlcPages := 8, slcPages := 2 }
/-- Carrier 7 with the command fetched; erase group 0 has one page group written. -/
def fetching (x : CCmd) : State := carried fun c => { c with ident := ident16, fetched := [x], groups := [(0, { EGroup.fresh with wp := 1 })] }
/-- The command is the one the carrier runs next among those of its opcode, and the checks let it go on (`st` 0) or refuse it. -/
def carrierRuns (x : CCmd) (st : Nat) : Bool :=
  let c := (fetching x).car 2
  runnable (fun y => y.opcode == x.opcode) [] c.fetched 0 == some 0 && c.fetched[0]? == some x && c.refuses x == st

theorem witness_CarrierCommands :
    carrierRuns (fetchedCmd 1 0 outSram 0 0 []) 0 = true ∧ carrierRuns (fetchedCmd 1 1 outSram 0 0 []) csBadCommand = true ∧
    carrierRuns (fetchedCmd 2 0 outSram 1 65536 []) 0 = true ∧ carrierRuns (fetchedCmd 2 16 outSram 1 65536 []) csBadCommand = true ∧
    carrierRuns (fetchedCmd 2 2 outSram 0 65536 []) csNotOwner = true ∧
    (((fetching (fetchedCmd 2 0 outSram 1 65536 [])).portPasses 2 outSram 65536 false) = true ∧
      (((fetching (fetchedCmd 2 0 outSram 1 65536 [])).car 2).group 0).wp = 1 ∧ ((fetching (fetchedCmd 2 0 outSram 1 65536 [])).car 2).pages 0 = 8) ∧
    carrierRuns (fetchedCmd 3 0 outSram 0 65536 []) 0 = true ∧ carrierRuns (fetchedCmd 3 0 outSram 65536 16 []) 0 = true ∧
    carrierRuns (fetchedCmd 3 0 outSram 524288 16 []) 0 = true ∧ carrierRuns (fetchedCmd 3 0 outSram 0 0 []) csBadCommand = true ∧
    carrierRuns (fetchedCmd 6 0 outSram 0 16 []) 0 = true ∧
    carrierRuns (fetchedCmd 4 0 0 0 0 []) 0 = true ∧ carrierRuns (fetchedCmd 4 2 0 0 0 []) csNotOwner = true ∧
    carrierRuns (fetchedCmd 5 0 0 1 0 []) 0 = true ∧ carrierRuns (fetchedCmd 5 1 0 1 0 []) 0 = true ∧ carrierRuns (fetchedCmd 5 0 0 2 0 []) csBadCommand = true ∧
    carrierRuns (fetchedCmd 7 0 outSram 0 4096 []) 0 = true ∧ carrierRuns (fetchedCmd 7 0 outSram 3 4096 []) csBadCommand = true ∧
    carrierRuns (fetchedCmd 8 0 0 1 0 (leBytes 8 1)) 0 = true ∧ carrierRuns (fetchedCmd 8 0 0 2 0 (leBytes 8 1)) 0 = true ∧
    carrierRuns (fetchedCmd 8 0 0 0 0 (leBytes 8 1)) csBadCommand = true ∧
    carrierRuns (fetchedCmd 9 0 0 1 0 (zeros 16 ++ leBytes 2 95)) 0 = true ∧ carrierRuns (fetchedCmd 9 0 0 1 0 (zeros 16 ++ leBytes 2 96)) csBadCommand = true ∧
    carrierRuns (fetchedCmd 10 0 0 0 0 []) 0 = true ∧ carrierRuns (fetchedCmd 10 0 0 1 0 []) csBadCommand = true := by decide +kernel

/-- Outside SAFE, with REFCLK_PCIE_MED there and the block's mode written, once its reset is released. -/
def slotsUsable : State :=
  State.releasePerst { State.reset with elapsed := 100000000, hlt := { State.reset.hlt with mode := .paired }, pwr := { State.reset.pwr with clkMed := true },
                                        pin := { State.reset.pin with medModeSet := 0xFFF } }
theorem witness_CarrierPorts :
    (95 < 96 ∧ ringSize 16 = true ∧ ringSize 4096 = true ∧ ((State.reset.modPort 95 1 fun p => { p with linkUp := true }).car 95).port1.linkUp = true) ∧
    (let s := carried fun c => { c with port0 := { readyPort with subTail := [1, 0, 0, 0] } };
      ((s.car 2).port s.ownPort).nextRing = some 0 ∧ s.portPasses 2 inSram 64 false = true) ∧
    ((carried fun c => { c with ident := ident16 }).car 2).ident.level ≠ 0 ∧
    (let s := fetching { fetchedCmd 10 0 0 0 0 [] with outcome := some (0, 0, 0) };
      ((s.car 2).fetched[0]?.map fun x => x.outcome) = some (some (0, 0, 0)) ∧ ((s.car 2).port s.ownPort).cplHeld < ((s.car 2).port s.ownPort).cplSize ∧
      s.portPasses 2 outSram 32 true = true) ∧
    (let s := carried fun c => { c with port0 := { readyPort with msiOwed := true } }; ((s.car 2).port s.ownPort).msiOwed = true ∧ ((s.car 2).port s.ownPort).lastMsi = 0) ∧
    ((slotsUsable.releasePerst == slotsUsable) = true ∧ slotsUsable.slotUsable 0 = true ∧ ((slotsUsable.car 0).port slotsUsable.ownPort).linkUp = false ∧
      slotsUsable.hlt.mode = .paired ∧ ident16.level = 1 ∧ padTo 16 (zeros 16) = slotsUsable.arrayId) ∧
    (State.reset.car 2).port0.fatal = false ∧ ((carried id).car 2).port0.linkUp = true ∧
    ({ (carried id).setUnit 8 0 { EngUnit.idle with service := [taken identifyBlock] } with elapsed := 1000000000000 } : State).timedOut 2 = true ∧
    (let r : EraseReq := { quire := 0, carrier := 0, egroup := 0, retire := false, sentAt := 0 };
      (({ State.reset with elapsed := 100000000, eraseOut := [r] } : State).eraseOut.find? (fun r => decide (100000000 ≤ 100000000 - r.sentAt.toNat))).isSome) := by
  decide +kernel

/-- R395: PROGRAM out of order ends with ORDER and writes nothing. -/
theorem test_program_out_of_order : answers (exec (.carrierProgram 2 true []) (fetching (fetchedCmd 2 0 outSram 3 65536 [])))
    (fun t => (t.car 2).fetched.map (·.outcome) == [some (csOrder, 0, 1)]) = true := by decide +kernel
/-- R389: port 0 owns erase group 1 of a split carrier, port 1 group 2. -/
theorem test_split_ownership : answers (exec (.carrierErase 2 true) (fetching (fetchedCmd 4 1 0 0 0 [])))
    (fun t => (t.car 2).fetched.map (fun x => x.outcome.map (·.1)) == [some csOk]) = true := by decide +kernel

/-! ### Witnesses: the ledger, placement and the media -/

/-- Nothing out of the ordinary is seen from outside. -/
def unseen : Seen := { unread := [], badEntries := [], exhausted := [], remote := [], fails := [] }
/-- Where the write buffer and the mirror lie. -/
def ownAt : Nat := 0x100000000
def mirrorAt : Nat := 0x200000000
/-- Head 0 in service with its partner: PAIRED, the link up, the regions set, the keys there. -/
def service : State :=
  { State.reset with
    elapsed := 2000000
    settings := [(0x0100 * 2 ^ 32, ownAt + 1), (0x0101 * 2 ^ 32, mirrorAt + 1)]
    hlt := { State.reset.hlt with mode := .paired, restored := true, joined := true }
    twn := { State.reset.twn with linkUp := true, setA := true }
    kpr := { State.reset.kpr with owner := .accepted, level := 1, committed := 1 }
    pwr := { State.reset.pwr with holdupReady := true }
    acc := { State.reset.acc with running := true, nextEntry := 2, openCycle := 1 } }
/-- `service` without a partner. -/
def serviceAlone : State := { service with hlt := { service.hlt with mode := .solo }, twn := { service.twn with linkUp := false, setB := true } }
/-- A closed cycle of this head that waits for its answer, and the answer of a TYPE and reason. -/
def waitingCycle : CycleRec :=
  { cycle := 1, entries := [], freed := [], items := [], check := 5, batch := 0, sentAt := 0, resentAt := 0, confirmed := false }
def answeredBy (type reason : Nat) : State :=
  let b := leBytes 2 type ++ leBytes 2 reason ++ leBytes 4 0 ++ leBytes 8 1 ++ leBytes 4 5 ++ zeros 8
  ({ service with acc := { service.acc with own := [waitingCycle] } } : State).putBytes (ownAt + ledgerOff 0 + 0x200000 - 32) (b ++ leBytes 4 (crc32c b))
/-- The partner's record of `cycle` at `level`, with `entries`, in slot 0 of the mirror's ledger area. -/
def arrived (level cycle : Nat) (entries : List (Nat × Nat × Nat)) : State :=
  let f (c : Nat) := ledgerBytes level 0 cycle entries [] [] 0 0 c
  service.putBytes (mirrorAt + ledgerOff 0) (f (ledgerCheck (f 0)))
/-- The record that arrived is sound, of this cycle, and of a level near this head's or not. -/
def soundRecord (s : State) (cycle : Nat) (near : Bool) : Bool :=
  let b := s.arrivedRecord 0
  let r := recordOf b s.elapsed
  leAt b 28 4 == 64 + 16 * r.entries.length + 8 * r.freed.length + 32 * r.items.length && ledgerCheck b == r.check && r.cycle == cycle &&
    (decide (s.kpr.level ≤ leAt b 2 2 + 1) && decide (leAt b 2 2 ≤ s.kpr.level + 1)) == near

theorem witness_LedgerCycles :
    (service.mayClose = true ∧ service.alone service.acc.openCycle = false ∧ service.withPartner = true ∧ service.twn.linkUp = true) ∧
    (let s : State := { service with acc := { service.acc with segment := some { no := 2, used := 0, top := 0 } } };
      s.mayClose = true ∧ 0 + (s.openRecord.2.take 64 ++ s.openRecord.1.items.flatMap (padTo 32)).length ≤ segmentBytes) ∧
    (serviceAlone.mayClose = true ∧ serviceAlone.alone 1 = true) ∧
    (leAt (service.arrivedRecord 7) 28 4 ≠ 64) ∧ soundRecord (arrived 1 1 []) 1 true = true ∧ soundRecord (arrived 3 1 []) 1 false = true ∧
    soundRecord (arrived 2 2 []) 2 true = true ∧ soundRecord (arrived 1 0 []) 0 true = true ∧
    (soundRecord (arrived 1 1 [(3, 9, 1)]) 1 true = true ∧ (arrived 1 1 [(3, 9, 1)]).missingEntry [(3, 9, 1)] = some 0) ∧
    (arrived 1 1 []).missingEntry [] = none ∧
    (let s := arrived 1 0 []; let check := (recordOf (s.arrivedRecord 0) 0).check; let t : State := { s with acc := { s.acc with checks := [(0, check)] } };
      0 ≤ t.acc.last ∧ Sparse.get 0 0 t.acc.checks = (recordOf (t.arrivedRecord 0) 0).check ∧ Sparse.get 0 0 s.acc.checks ≠ check) ∧
    ((answeredBy 2 0).basesSet = true ∧ (answeredBy 2 0).answered 0 2 = some waitingCycle) ∧
    (∀ reason ∈ [1, 2, 3, 4], (answeredBy 3 reason).answered 0 3 = some waitingCycle ∧ leAt ((answeredBy 3 reason).arrivedAnswer 0) 2 2 = reason) ∧
    ((answeredBy 2 0).withPartner = true ∧ (answeredBy 2 0).overdue = some waitingCycle) := by decide +kernel

/-- A confirmed entry of this head's, whose header is in the write buffer. -/
def confirmedEntry : Header := { no := 2, cycle := 1, slba := 0, nsid := 1, nblk := 1, state := 3, noData := true, profile := 0, off := 0, domain := 0 }
def placing : State := service.putBytes (ownAt + headerOff 2) (headerBytes confirmedEntry)
/-- A closed QLC quire. -/
def closedQuire : Quire := { Quire.none with state := 3, d := 4, rows := 4, rowsDone := 4, validBytes := 65536, pos := [(7, 4)] }
def withQuire (q : Quire) : State := { service with quires := [(0, q)] }
/-- A checkpoint with its dump reserve, ready for its header on the one carrier in service; and the same once it is written. -/
def someCheckpoint : Checkpoint :=
  { head := 0, solo := false, seq := 1, cycle := 0, arrayId := [], keyCheck := [], cat := Catalogue.empty, quires := [], batch := 0, quireHigh := 0,
    entryHigh := 0, conserveQuire := 0, conserveRow := 0, dumpRes := [0], level := 1, copies := 0, own := [2], second := none, shelves := [],
    qtA := (0, 0, 0), qtB := (0, 0, 0), stateAt := (0, 0, 0) }
def dumpQuire : Quire := { Quire.none with state := 1, d := 32, rows := 4096, pos := [(7, 4)] }
def checkpointing : State :=
  { service with carriers := (carried id).carriers, quires := [(0, dumpQuire), (2, { Quire.none with state := 1, slc := true, purpose := 1, d := 1, rows := 64, pos := [(7, 5)] })],
                 med := { service.med with writing := some someCheckpoint } }
def checkpointed : State :=
  { service with carriers := (carried id).carriers, quires := [(0, dumpQuire)], med := { service.med with checkpoints := [someCheckpoint], reserveReady := true } }

theorem witness_PlacementCommands :
    (let n : NCmd := { cid := 1, opcode := 8, nsid := 1, slba := 0, nblk := 1, ranges := [], unmap := false, capsule := [], fails := 0, next := 0, entries := 0,
                       landing := none, cycle := none, failed := none };
      let s : State := { checkpointed with acc := { service.acc with held := [(0, 1)] }, svc := { service.svc with conns := [(0, { Conn.none with cmds := [n] })] } };
      s.acc.held = (0, 1) :: [] ∧ s.ncmd 0 1 = some n ∧ s.mayAllocate 0 = true) ∧
    (placing.mayPlace = true ∧ placing.waitingEntry = none ∧ placing.nextToPlace = some (ownAt, confirmedEntry)) ∧
    (let s : State := { placing with acc := { placing.acc with tier2Wait := some (2, 0) } };
      s.mayPlace = true ∧ s.waitingEntry = some (ownAt, confirmedEntry, 0) ∧ s.settingAt 0x0202 0 200000 0 ≤ s.elapsed.toNat - 0) ∧
    (placing.acc.restart = false ∧ (({ placing with acc := { placing.acc with restart := true } } : State).startOver.acc.restart = false)) ∧
    (Sparse.get Namespace.none confirmedEntry.nsid placing.cat.namespaces).size = 0 ∧
    (Sparse.get Namespace.none 1 ({ placing with cat := { placing.cat with namespaces := [(1, { Namespace.none with size := 100 })] } } : State).cat.namespaces).size ≠ 0 ∧
    ({ confirmedEntry with noData := false } : Header).noData = false ∧ placing.digestKey 0 = [] ∧
    (let s : State := { placing with med := { placing.med with slots := [(0, 0, 0, true)] } }; (s.writeSlot 0).isSome = true) ∧
    (4095 < 4096 ∧ placing.generationDue 4095 = true ∧ placing.managesMedia = true ∧ placing.pendingGen 4095 = none) ∧
    (let s : State := { placing with med := { placing.med with gens := [(4095, 2)] } };
      s.generationDue 4095 = true ∧ s.pendingGen 4095 = some 2) ∧
    (let r : OpenRow := { quire := 0, since := 0, folios := [] }; let s : State := { service with acc := { service.acc with rows := [r] } };
      r ∈ s.acc.rows ∧ s.padAge r.since ≤ s.elapsed.toNat - r.since.toNat) ∧
    ((service.targetFor 6).isSome = false ∧ service.opening 6 = false) ∧
    (let s : State := { serviceAlone with acc := { serviceAlone.acc with own := [{ waitingCycle with confirmed := true }] } };
      s.acc.running = true ∧ s.basesSet = true ∧ s.cycleLists = some ([], [])) ∧
    (checkpointing.hlt.mode ≠ .safe ∧ checkpointing.basesSet = true ∧ checkpointing.med.writing.isSome = true ∧ someCheckpoint.own ≠ [] ∧
      (∀ x ∈ someCheckpoint.dumpRes ++ someCheckpoint.own ++ someCheckpoint.second.toList, (checkpointing.quire x).state ≠ 0) ∧
      checkpointing.pageQuire someCheckpoint = some 2) := by decide +kernel
/-- The checkpoint's pages are all durable, and its header has its one carrier. -/
theorem witness_checkpoint_written :
    let w := (Press.mk checkpointing []).writeCheckpoint 2 someCheckpoint
    w.1 = true ∧ w.2.2.s.kpr.level = w.2.2.s.kpr.committed ∧ w.2.2.s.serviceNumbers = [7] := by decide +kernel

/-- The last RESHAPE item of an active reshape to END 8, its boundary at `at_`. -/
def reshapeOf (at_ : Nat) : List Byte := leBytes 4 0 ++ leBytes 4 at_ ++ leBytes 4 0x100 ++ leBytes 4 8 ++ zeros 16
def reshaped (q : Quire) : State := { withQuire q with cat := { service.cat with reshape := reshapeOf 0 } }

/-- The same with a failed position; and with a carrier in service on which the position can be rebuilt. -/
def failedQuire : Quire := { closedQuire with w := 4, failed := 1, pos := [(9, 4)] }
def rebuildable : State :=
  State.eraseGivenUp (State.stopRebuilds { service with quires := [(0, { failedQuire with rowsDone := 0 })], carriers := (carried fun c => { c with ident := ident16 }).carriers })

theorem witness_MediaCommands :
    service.managesMedia = true ∧ service.judgeFolding.rebuildDue = false ∧ (withQuire failedQuire).judgeFolding.rebuildDue = true ∧
    ((withQuire closedQuire).judgeFolding.judgeWeeding.rebuildDue = false ∧ (withQuire closedQuire).judgeFolding.judgeWeeding.foldDue = false) ∧
    (let s : State := { withQuire { closedQuire with state := 2 } with med := { service.med with folding := true } }; s.foldDue = true) ∧
    (let s : State := { withQuire closedQuire with med := { service.med with leveling := true } }; s.levelNext = some 0 ∧ s.relocations 3 = 0) ∧
    ((withQuire { closedQuire with state := 5 }).eraseReady 0 = true ∧ (withQuire { closedQuire with state := 5 }).ownsQuire 0 = true) ∧
    (let s := (withQuire { failedQuire with validBytes := 0 }).stopRebuilds.eraseGivenUp;
      s.rebuildNext = some 0 ∧ (s.quire 0).validBytes = 0) ∧
    (rebuildable.rebuildNext = some 0 ∧ (rebuildable.quire 0).validBytes ≠ 0 ∧ rebuildable.prefersRelocation unseen 0 = false ∧
      (rebuildable.startRebuilds 0).1 = true ∧ (rebuildable.startRebuild 0 0).isSome = true) ∧
    (let s := (rebuildable.startRebuilds 0).2.stopRebuilds.eraseGivenUp;
      s.rebuildNext = none ∧ s.rebuildQuires = 0 :: [] ∧ (s.advanceQuire unseen [] 0).1 = true) ∧
    (service.stopRebuilds.eraseGivenUp.rebuildNext = none ∧ service.stopRebuilds.eraseGivenUp.rebuildQuires = []) ∧
    (service.basesSet = true ∧ service.kpr.owner = .accepted ∧
      (let s : State := { service with cat := { service.cat with content := [(4, { Content.none with blocks := 1, lost := true })] } };
        (s.cat.record 4).lost = true ∧ (s.cat.record 4).keyGen % 2 = s.headNo)) ∧
    (let s : State := { withQuire closedQuire with med := { service.med with reports := [(0, 1)] } }; s.med.reports = (0, 1) :: [] ∧ (s.quire 0).state = 3) ∧
    (let s : State := { withQuire closedQuire with cat := { service.cat with content := [(4, { Content.none with blocks := 1 })] } }; s.nextRow = some (0, 0)) ∧
    ((reshaped Quire.none).reshaping = true ∧ (reshaped Quire.none).reshapeQueued = false ∧ (reshaped Quire.none).boundaryQuire = none ∧
      (reshaped Quire.none).ownsQuire 0 = true ∧ (reshaped Quire.none).relocations 4 = 0) ∧
    ((reshaped { closedQuire with state := 5 }).boundaryQuire = some (0, { closedQuire with state := 5 })) ∧
    ((reshaped { closedQuire with state := 1 }).conforms { closedQuire with state := 1 } = false ∧ (reshaped { closedQuire with state := 1 }).closing 0 = false) ∧
    ((reshaped closedQuire).conforms closedQuire = false ∧ (reshaped closedQuire).movable 0 closedQuire = true) := by decide +kernel

/-- R125: with nothing in it a cycle of a head in PAIRED closes as one record and the next opens. -/
theorem test_cycle_closes : answers (exec .ledgerCycleClose service) (fun t => t.acc.own.map (·.cycle) == [1] && t.acc.openCycle == 2) = true := by decide +kernel
/-- R128: a record whose CHECK is wrong is refused for reason 2, and not applied. -/
theorem test_bad_record_refused : answers (exec (.ledgerRecord 0) ((arrived 1 1 []).putBytes (mirrorAt + ledgerOff 0 + 32) [1])) (fun t => t.acc.last == 0) = true := by
  decide +kernel

/-! ### Witnesses: the namespace service -/

/-- A controller of host 5A, and a connection to it. -/
def someCtrl : Ctrl :=
  { nqn := [0x5A], cc := 1, ready := true, shst := 0, aers := [], events := [], queues := 0xFFFEFFFE, aerConfig := 0, kato := 100, aliveAt := 0, flagged := [],
    readPos := 0, dropped := 0, announced := false }
def someConn (qid : Nat) : Conn := { Conn.none with ready := true, ctrl := some 1, qid := qid, depth := 32 }
/-- `service` with port 0 open, the subsystem's name 5A, which may manage namespaces, an admin queue on connection 0 and an I/O queue on
connection 1, and namespace 1 of 100 blocks. -/
def front : State :=
  { service.setReg (rEthPort 0) 1 with
    settings := service.settings ++ [(0x0600 * 2 ^ 32, 0x10B), (0x0603 * 2 ^ 32, 0x15B), (0x0604 * 2 ^ 32, 0x15B)]
    twn := { service.twn with drive := true }
    cat := { service.cat with namespaces := [(1, { Namespace.none with size := 100 })] }
    svc := { service.svc with conns := [(0, someConn 0), (1, someConn 1)], ctrls := [(1, someCtrl)] } }
/-- `front` with its controller changed. -/
def frontWith (f : Ctrl → Ctrl) : State := { front with svc := { front.svc with ctrls := [(1, f someCtrl)] } }

/-- What a PDU that is heard counts changes neither the pair's number nor what is free. -/
theorem reg_countRx (s : State) (p a : Nat) (h : ethBase + 0x2100 ≤ a) (hp : p < 16) : (s.countRx p).reg a = s.reg a := by
  have h1 : a ≠ rEthPort p + 0x10 := by simp only [rEthPort]; omega
  have h2 : a ≠ rEthPort p + 0x10 + 4 := by simp only [rEthPort]; omega
  simp only [State.countRx, State.bump64, State.setReg64, State.reg_setReg, if_neg h1, if_neg h2]
  rfl
theorem pairNo_heardPdu (s : State) (c : Nat) (h : (s.conn c).port < 16) : (s.heardPdu c).pairNo = s.pairNo := by
  rw [State.pairNo, State.heardPdu, reg_countRx _ _ _ (by decide) h]; rfl
theorem freeNsid_heardPdu (s : State) (c : Nat) (h : (s.conn c).port < 16) : (s.heardPdu c).freeNsid = s.freeNsid := by
  simp only [State.freeNsid, pairNo_heardPdu s c h]; rfl
theorem freeCtrl_heardPdu (s : State) (c : Nat) (h : (s.conn c).port < 16) : (s.heardPdu c).freeCtrl = s.freeCtrl := by
  simp only [State.freeCtrl, State.ctrlId, pairNo_heardPdu s c h]; rfl

theorem witness_ConnectionsAndControllers :
    (front.svc.conns.all (fun p => p.1 != 65535) = true ∧ 65535 < 65536 ∧ front.portOpen 0 = true) ∧
    (front.svc.conns.any (fun p => p.1 == 0) = true ∧ (front.conn 0).ended = false ∧ (front.conn 0).ready = true ∧ (front.conn 0).ctrl ≠ none) ∧
    (((front.heardPdu 0).conn 0).ctrl ≠ none) ∧
    (let u : State := { front with svc := { front.svc with conns := [(0, { someConn 0 with ctrl := none })] } };
      let s := u.heardPdu 0;
      (u.conn 0).ready = true ∧ (u.conn 0).ended = false ∧ (s.conn 0).ctrl = none ∧ [0x5A#8] = s.settingData 0x0603 0 ∧ [0x5B#8] ≠ s.settingData 0x0603 0 ∧
      s.ctrl 1 = some someCtrl ∧ someCtrl.nqn = [0x5A] ∧ someCtrl.ready = true ∧ s.svc.conns.all (fun p => p.2.ctrl != some 1) = true) ∧
    (front.delivers 0 = true ∧ (front.conn 0).ctrl = some 1 ∧ front.ctrl 1 = some someCtrl ∧ someCtrl.cc % 2 = 1) ∧
    ((frontWith fun k => { k with cc := 0 }).ctrl 1 = some { someCtrl with cc := 0 }) ∧
    (someCtrl.kato ≠ 0 ∧ ({ someCtrl with kato := 1 } : Ctrl).keepAliveTime ≤ 100000000) ∧
    (let s : State := { service with elapsed := 10000000000, svc := { service.svc with changeSince := some 0 } };
      s.svc.changeSince = some 0 ∧ s.anaTime 0 ≤ s.elapsed.toNat - 0 ∧ s.holdsCustody = false) ∧
    (15 < front.ethPorts ∧ front.hlt.mode ≠ .safe ∧ ({ front with pwr := { front.pwr with clkEth := true } } : State).pwr.clkEth = true ∧
      front.regBit (rEthPortFence 15) 0 = false ∧ State.reset.hlt.mode = .safe) := by decide +kernel
/-- A controller number is free. -/
theorem witness_controller_free : (State.heardPdu 0 { front with svc := { front.svc with conns := [(0, { someConn 0 with ctrl := none })] } }).freeCtrl = some 2 := by
  rw [freeCtrl_heardPdu _ _ (by decide +kernel)]; decide +kernel
/-- Every controller number taken. -/
theorem witness_no_controller_free :
    (State.heardPdu 0 { front with svc := { front.svc with ctrls := (List.range 3840).map fun n => (n, someCtrl) } }).freeCtrl = none := by
  rw [freeCtrl_heardPdu _ _ (by decide +kernel)]
  have id (s : State) (n : Nat) (h : s.reg rStkConfig % 8 = 0 ∧ s.hlt.head = false) : s.ctrlId n = n := by
    simp [State.ctrlId, State.pairNo, State.headNo, h.1, h.2]
  rw [State.freeCtrl, List.find?_eq_none]
  intro n hn
  have hn : n < 3840 := List.mem_range.1 (List.mem_of_mem_drop hn)
  rw [id _ n (by decide +kernel)]
  have : ((List.range 3840).map fun n => (n, someCtrl)).find? (fun p => p.1 == n) ≠ none := fun h => by
    have := List.find?_eq_none.1 h (n, someCtrl) (List.mem_map.2 ⟨n, List.mem_range.2 hn, rfl⟩)
    simp at this
  cases h : ((List.range 3840).map fun n => (n, someCtrl)).find? (fun p => p.1 == n) with
  | none => exact absurd h this
  | some p => simp [State.ctrl, h]

/-- `front` once it has heard a PDU of connection 0, and of connection 1. -/
def heard : State := front.heardPdu 0
def heardIo : State := front.heardPdu 1

theorem witness_AdminCommands :
    (front.delivers 0 = true ∧ front.delivers 1 = true ∧ (front.conn 1).ctrl = some 1 ∧ (front.conn 1).qid ≠ 0 ∧ (front.conn 0).qid = 0) ∧
    (((frontWith fun k => { k with ready := false }).heardPdu 0).ctrl 1 = some { someCtrl with ready := false }) ∧ heard.ctrl 1 = some someCtrl ∧
    ((match heard.identify 1 0x06 0 with | .ok b => b.length == 4096 | .error _ => false) = true ∧
      (match heard.identify 1 0xFF 0 with | .ok _ => false | .error st => st == nsInvalidField) = true) ∧
    ((heard.logPage 1 0x0C).isSome = true ∧ (heard.logPage 1 0x7F).isNone = true ∧ (heard.logPage 1 0xC4).isSome = true) ∧
    (0 % 65536 ≠ 65535 ∧ 0 / 65536 % 65536 ≠ 65535 ∧ (0 : Nat) ≠ 0x07) ∧
    (((frontWith fun k => { k with events := [7] }).heardPdu 0).ctrl 1 = some { someCtrl with events := [7] } ∧ someCtrl.events = [] ∧ someCtrl.aers.length < 16) ∧
    (heard.mayManage 1 = true ∧ ((frontWith fun k => { k with nqn := [0x5C] }).heardPdu 0).mayManage 1 = false ∧ 2 ^ 44 ≠ 0 ∧ 
      (heard.namespace? 1).isSome = true ∧ heard.namespace? 2 = none) := by decide +kernel

/-- A namespace number is free, in group 1 of this head. -/
theorem witness_namespace_free : heard.freeNsid = some 2 ∧ 1 = heard.anaGroup false := by
  refine ⟨?_, ?_⟩
  · rw [heard, freeNsid_heardPdu _ _ (by decide +kernel)]; decide +kernel
  · rw [State.anaGroup, heard, pairNo_heardPdu _ _ (by decide +kernel)]; decide +kernel

theorem witness_InputOutputCommands :
    (front.delivers 1 = true ∧ (front.conn 1).ctrl = some 1 ∧ (front.conn 1).qid ≠ 0 ∧ front.ctrl 1 = some someCtrl ∧ someCtrl.ready = true) ∧
    (heardIo.ioRefusal 1 1 false = none ∧ heardIo.ioRefusal 1 1 true = none ∧ 1 ∉ someCtrl.flagged ∧ heardIo.ioRefusal 1 2 false = some nsInvalidNs ∧
      heardIo.namespace? 2 = none) ∧
    (((frontWith fun k => { k with flagged := [1] }).heardPdu 1).ioRefusal 1 1 false = none ∧ (frontWith fun k => { k with flagged := [1] }).ctrl 1 = some { someCtrl with flagged := [1] }) ∧
    (front.ncmd 1 5 = none ∧ heardIo.inRange 1 99 1 = true ∧ heardIo.inRange 1 99 2 = false ∧ heardIo.kpr.owner = .accepted ∧ heardIo.basesSet = true) ∧
    ((List.replicate 4096 (0#8)).length = 4096 * 1 ∧ 4096 ≤ 8192 ∧ (List.replicate 4096 (0#8)).length ≠ 8192) ∧
    ([(99, 1)].length ≤ 256 ∧ ∀ r ∈ [(99, 1)], heardIo.inRange 1 r.1 r.2 = true) := by decide +kernel
/-- A read of a block that only flash holds, before the owner secret. -/
theorem witness_read_needs_flash :
    let s : State := { front with
      kpr := { front.kpr with owner := .none }
      cat := { front.cat with nodes := [(1, { CatNode.none with nsid := 1, groups := [{ lba := 0, folio := false, heat := 0, blocks := [.cid 4], touched := [] }] })], views := [{ view := 2, nsid := 1, kind := 0, deleting := false, isSealed := false, successor := 0, cycle := 0, root := 1, manifestAt := 0, label := [] }] } }
    let w := s.heardPdu 1
    s.delivers 1 = true ∧ s.ncmd 1 5 = none ∧ w.kpr.owner ≠ .accepted ∧ w.inRange 1 0 1 = true ∧ w.needsFlash 1 0 = true := by decide +kernel
/-- A write of one block whose data is asked for, its entry 2 in the write buffer. -/
def landingWrite : State :=
  let n : NCmd := { NCmd.start 5 1 1 0 1 with landing := some 2, entries := 1 }
  { (front.putBytes (ownAt + headerOff 2) (headerBytes { confirmedEntry with state := 1, noData := false })) with
    svc := { front.svc with conns := [(0, someConn 0), (1, { someConn 1 with cmds := [n] })] }
    acc := { front.acc with ring := [{ no := 2, slot := 0, slots := 1, skipped := 0, cmd := some (1, 5), unmap := false, received := 0, reserved := 0,
                                       freedIn := none, freed := false }] } }
theorem witness_data_for_a_write : let w := landingWrite.heardPdu 1
    (landingWrite.conn 1).ready = true ∧ (landingWrite.conn 1).ended = false ∧ (w.dataFor 1 1).isSome = true ∧ w.dataFor 1 0 = none ∧
    ((w.dataFor 1 1).map fun x => (x.2.1, 4096 * (x.2.2.slba - x.1.slba), x.2.2.nblk)) = some (2, 0, 1) := by decide +kernel

/-- R377: PROPERTY_GET of VS reads 2.0. -/
theorem test_property_vs : answers (exec (.propertyGet 0 1 8) front)
    (fun t => t.sent.length == 1) = true := by decide +kernel
/-- R368: an I/O queue does not execute Keep Alive. -/
theorem test_keep_alive_on_io_queue : answers (exec (.keepAlive 1 1) front) (fun t => t.svc.ctrls == front.svc.ctrls) = true := by decide +kernel

/-! ### Witnesses: the Avenfy transport -/

/-- The setup of a queue pair: its connection 9, a window of 16, a ring of 16 requests, congestion control. -/
def setupBytes : List Byte :=
  padTo 128 (zeros 6 ++ leBytes 1 4 ++ zeros 5 ++ leBytes 4 100 ++ leBytes 4 200 ++ leBytes 2 9 ++ leBytes 2 16 ++ zeros 40 ++ leBytes 8 inSram ++ leBytes 4 16)
/-- A queue pair in service. -/
def readyQp : QPair := { QPair.idle with state := 1, setup := setupBytes, nextPsn := 100, expect := 200, rate := 100000, rto := 1000000 }
/-- The transport with queue pair 5 on chip. -/
def talking (f : QPair → QPair) : State :=
  { (State.reset.setReg rAtpQpMax 16).setReg rAtpRegionBase outSram with
    elapsed := 1000000000
    hlt := { State.reset.hlt with mode := .paired }
    atp := { Atp.cold with zeroed := true, qps := [(5, f readyQp)], cached := [5] } }
/-- A region's entry: key generation 7, one page at `inSram`, read and write, any queue pair. -/
def regionEntry (state : Nat) : List Byte :=
  let b := padTo 64 (leBytes 8 inSram ++ leBytes 8 4096 ++ leBytes 2 7 ++ leBytes 1 state ++ leBytes 1 3 ++ leBytes 4 (2 ^ 20))
  patch b 60 (leBytes 4 (crc32c (patch b 60 (zeros 4))))
def regioned (state : Nat) : State := let s := talking id; { s with atp := { s.atp with regions := [(3, regionEntry state)] } }
/-- A request of two PSNs, both sent. -/
def sentRead : WorkReq := { seq := 1, block := block 3 [(28, 2048)], first := 98, count := 2, data := [], status := 0, moved := 0, ended := false }
def waitingFor : State := talking fun x =>
  { x with reqs := [sentRead], psns := [{ psn := 98, state := .sent, again := none }, { psn := 99, state := .sent, again := none }], timer := some 0 }

/-- The queue pairs of the transport, once a packet has come in. -/
theorem witness_queue_pairs : ((talking id).countRx (1 - 1)).reg rAtpQpMax ≤ 16 ∧ 5 < ((talking id).countRx (1 - 1)).reg rAtpQpMax := by
  rw [reg_countRx _ _ _ (by decide) (by decide)]; decide +kernel

theorem witness_PacketsReceived :
    ((talking id).ethPorts < 17 ∧ 1 ≠ 0 ∧ 1 ≤ (talking id).ethPorts ∧ (talking id).atp.cached.contains 4 = false ∧ (talking id).atp.cached.contains 5 = true) ∧
    (({ talking id with twn := { State.reset.twn with strapConflict := true } } : State).twn.strapConflict = true) ∧
    (((talking id).qp 5).active = true ∧ ((talking id).qp 5).conn = 9 ∧ ((talking fun x => { x with state := 3 }).qp 5).active = false) ∧
    (psnFrom 200 215 < ((talking id).qp 5).window ∧ ((talking id).qp 5).window ≤ psnFrom 200 216 ∧ psnBelow 216 200 = false ∧
      ((talking id).qp 5).window ≤ psnFrom 200 199 ∧ psnBelow 199 200 = true ∧ ((talking id).qp 5).got = [] ∧ ((talking id).qp 5).heldPkts = []) ∧
    ((regioned 1).regionRefusal 5 (3 * 4096 + 7) 0 4096 true = none ∧ (regioned 1).regionRefusal 5 (3 * 4096 + 7) 1 4096 true = some 2 ∧
      (regioned 1).regionRefusal 5 (3 * 4096 + 8) 0 1 true = some 1) ∧
    ((waitingFor.qp 5).reqOf 99 = some sentRead ∧ sentRead.op = 3 ∧ (waitingFor.qp 5).psns.any (fun y => y.psn == 99 && y.state == .sent) = true ∧
      (waitingFor.qp 5).cc = true) ∧
    (((talking id).bump rAtpRxBad 1).regBit rAtpErrStatus 0 = false) := by decide +kernel

theorem witness_QueuePairsAndRequests :
    ((talking id).reg64 rAtpRegionBase ≠ 0 ∧ (talking id).atp.zeroed = true ∧ 3 % 2 ^ 20 ≠ 0 ∧ regState ((talking id).bytes ((talking id).regionEntryAddr 3) 64) ≠ 1) ∧
    (3 * 4096 + 7 < 2 ^ 32 ∧ regState ((regioned 1).region 3) = 1 ∧ regGen ((regioned 1).region 3) = 7 ∧ regState ((regioned 2).region 3) = 2) ∧
    (5 < (talking fun x => { x with state := 0 }).reg rAtpQpMax ∧ ((talking fun x => { x with state := 0 }).qp 5).state = 0 ∧ leAt setupBytes 6 1 / 2 % 2 = 0 ∧
      (talking fun x => { x with state := 0 }).atp.cached.contains 5 = true) ∧
    (((talking id).qp 5).state = 1 ∧ (talking id).reg rAtpQpMax ≤ 2 ^ 20 - 1) ∧
    (let s := waitingFor; (s.qp 5).timer = some 0 ∧ (s.qp 5).psns.find? (fun p => p.state == .sent) = some { psn := 98, state := .sent, again := none } ∧
      (s.qp 5).rto ≤ s.elapsed.toNat - 0 ∧ (s.qp 5).active = true ∧ (s.qp 5).retries + 1 < (s.qp 5).limit) ∧
    (((talking fun x => { x with retries := 15 }).qp 5).limit ≤ 15 + 1) ∧
    (let s := talking fun x => { x with ackDue := some 0 }; (s.qp 5).ackDue = some 0 ∧ (s.qp 5).active = true ∧ 4000 ≤ s.elapsed.toNat - 0) ∧
    (((talking id).qp 5).cc = true ∧ 55000 ≤ (talking id).elapsed.toNat - ((talking id).qp 5).rateAt.toNat) ∧
    (let l : CtxLoad := { qp := 4, victim := none, packets := [], ready := false }; let s := talking id;
      ({ s with atp := { s.atp with loads := [l] } } : State).atp.loads.find? (fun l => l.qp == 4 && l.victim.isNone) = some l) ∧
    (let l : CtxLoad := { qp := 4, victim := some 5, packets := [], ready := false }; let s := talking id;
      ({ s with atp := { s.atp with loads := [l] } } : State).atp.loads.find? (fun l => l.qp == 4 && l.victim.isSome) = some l) := by decide +kernel
/-- A queue pair with one WRITE of 64 bytes posted in its ring, and one with a request whose PSNs are answered. -/
def posted (b : Vec) : State := (talking fun x => { x with tail := 1 }).putBytes inSram ((List.range 64).map fun i => b.extractLsb' (8 * i) 8)
theorem witness_requests :
    (let s := posted (block 1 [(16, outSram), (28, 64)]); s.atp.cached.contains 5 = true ∧ (s.qp 5).active = true ∧ (s.qp 5).posted ≠ 0 ∧
      s.hostMisses ((s.qp 5).ringBase + 64 * ((s.qp 5).taken % max 1 (s.qp 5).ringSize)) 64 false = [] ∧
      s.readFault ((s.qp 5).ringBase + 64 * ((s.qp 5).taken % max 1 (s.qp 5).ringSize)) 64 = none ∧ opcodeOf (s.nextBlock 5) = 1 ∧
      badRequest (s.nextBlock 5) (s.qp 5).payload = false ∧ s.spanMisses (le (s.nextBlock 5) 16 8 % 2 ^ 48) 64 false = [] ∧
      (s.readSpan srcAtp (le (s.nextBlock 5) 16 8 % 2 ^ 48) 64).1.isNone) ∧
    (let s := posted (block 1 []); badRequest (s.nextBlock 5) (s.qp 5).payload = true) ∧
    (let s := posted (block 3 [(16, outSram), (28, 64)]); opcodeOf (s.nextBlock 5) = 3 ∧ badRequest (s.nextBlock 5) (s.qp 5).payload = false) ∧
    (let s := talking fun x => { x with reqs := [sentRead] }; (s.qp 5).reqs = sentRead :: [] ∧ (s.qp 5).complete sentRead = true ∧ irqOf sentRead.block = false) := by
  decide +kernel

/-- R434: a CNP halves the rate. -/
theorem test_cnp_halves_rate : answers (exec (.atpCnp 0 5 9) (talking id)) (fun t => (t.qp 5).rate == 50000) = true := by decide +kernel
/-- R430: a packet of another connection is dropped and counted. -/
theorem test_other_connection_dropped : answers (exec (.atpCnp 0 5 8) (talking id)) (fun t => t.reg rAtpDropQp == 1 && (t.qp 5).rate == 100000) = true := by
  decide +kernel

/-! ### Witnesses: twin heads and custody -/

/-- A frame of `n` bytes of a TYPE from a head, with its check. -/
def frame (n type head : Nat) : List Byte := let b := padTo (n - 4) (leBytes 1 type ++ leBytes 1 head); b ++ leBytes 4 (crc32c b)
/-- A head without image or twin, `t` ns after its cold start. -/
def after (t : Word64) (f : Twin → Twin) : State := { State.reset with elapsed := t, twn := f State.reset.twn }
/-- An image verified and core 0 running: a supervisor runs. -/
def supervised (s : State) : State := ({ s with hlt := { s.hlt with imageOk := true } } : State).setReg (rStcClCtl 0) 1 |>.modCore 0 fun c => { c with run := .running }

theorem witness_TwinFrames :
    ((after 0 fun w => { w with strapConflict := true }).twn.strapConflict = true ∧ State.reset.twn.strapConflict = false) ∧
    (zeros 32).length = 32 ∧ leAt (zeros 32) 0 1 ≠ 1 ∧ (zeros 256).length = 256 ∧ leAt (zeros 256) 0 1 ≠ 2 ∧
    (let b := frame 32 1 1; b.length = 32 ∧ leAt b 0 1 = 1 ∧ leAt b 28 4 = crc32c (b.take 28) ∧ leAt b 1 1 ≠ State.reset.headNo) ∧
    (let b := frame 32 1 0; b.length = 32 ∧ leAt b 0 1 = 1 ∧ leAt b 28 4 = crc32c (b.take 28) ∧ leAt b 1 1 = State.reset.headNo) ∧
    (let b := frame 256 2 1; b.length = 256 ∧ leAt b 0 1 = 2 ∧ leAt b 252 4 = crc32c (b.take 252) ∧ leAt b 1 1 ≠ State.reset.headNo) ∧
    (State.reset.supervisorRuns = false ∧ (supervised State.reset).supervisorRuns = true) ∧
    (State.reset.twn.surrendered = false ∧ State.reset.hlt.mode ≠ .restore) ∧
    (100000 ≤ (after 100000 id).elapsed.toNat - (after 100000 id).twn.sentAt.toNat ∧ (after 100000 id).twn.retraining = false) ∧
    (let s := supervised (after 100000000 id); s.supervisorRuns = true ∧ 100000000 ≤ s.elapsed.toNat - s.twn.reportAt.toNat) ∧
    ((after 100000 id).twn.peer.seen = false ∧ 100000 ≤ (after 100000 id).elapsed.toNat - (after 100000 id).twn.missedAt.toNat) ∧
    (let s := after 5000000 fun w => { w with linkUp := true }; s.twn.linkUp = true ∧ s.setting 0x0901 0 5000000 ≤ s.elapsed.toNat - s.twn.lastGood.toNat ∧ s.headNo ≠ 1) ∧
    (let s : State := { after 5000000 (fun w => { w with linkUp := true, drive := true, peerLow := true }) with hlt := { State.reset.hlt with head := true } };
      s.headNo = 1 ∧ s.holdsCustody = true ∧ s.twn.peerLow = true) ∧
    ((after 0 fun w => { w with lanes := 1 }).twn.lanes = 1 ∧ 1 < (after 0 fun w => { w with lanes := 3 }).twn.lanes ∧
      (after 0 fun w => { w with retraining := true }).twn.retraining = true) := by decide +kernel

theorem witness_CustodyCommands :
    ((after 0 fun w => { w with drive := true }).holdsCustody = true ∧ causeHandover ≠ causeMetadataFault ∧ causeHostOrder ≠ causeMetadataFault ∧
      causeHostOrder ≠ causeHandover) ∧
    ((after 0 fun w => { w with peerLow := true }).twn.peerLow = true ∧ State.reset.twn.peerLow = false) ∧
    (let s := after 20000 id; s.twn.peerLow = false ∧ s.twn.surrendered = false ∧ s.surrenderFilter ≤ s.elapsed.toNat - s.twn.peerSince.toNat ∧ s.mayTake = false ∧
      s.hlt.mode ≠ .restore) ∧
    (let s : State := { service with twn := { service.twn with drive := true, aliveAt := 2000000 } };
      s.twn.peerLow = false ∧ s.surrenderFilter ≤ s.elapsed.toNat - s.twn.peerSince.toNat ∧ s.mayTake = true) ∧
    (let s : State := { after 20000 (fun w => { w with phase := .joined }) with hlt := { State.reset.hlt with mode := .restore } };
      s.mayTake = false ∧ s.hlt.mode = .restore ∧ s.twn.phase ≠ .idle) ∧
    (let s := after 500000 fun w => { w with drive := true }; 500000 ≤ s.elapsed.toNat - s.twn.aliveAt.toNat ∧ s.holdsCustody = true) ∧
    (let s : State := { service with hlt := { service.hlt with head := true }, twn := { service.twn with drive := true } };
      s.headNo = 1 ∧ s.holdsCustody = true ∧ s.withPartner = true ∧ s.twn.linkUp = true) ∧
    (waitingCycle.confirmed = false ∧ ({ service with elapsed := 20000000 } : State).setting 0x0902 0 20000000 ≤ 20000000 - waitingCycle.sentAt.toNat) ∧
    (srcHost = srcGovernor ∨ srcHost = srcHost) ∧
    (let s : State := { State.reset with elapsed := 60000000000, hlt := { State.reset.hlt with mode := .restore, step := 9 } };
      s.maySolo = true ∧ s.setting 0x0903 0 60000000000 ≤ s.elapsed.toNat - s.twn.lastHeartbeat.toNat ∧
      s.setting 0x0903 0 60000000000 ≤ s.elapsed.toNat - s.hlt.safeAt.toNat ∧ s.twn.peerLow = false ∧ s.carriersInService.length ≤ 2 * 0) := by decide +kernel
/-- The smallest working set of R31, with which a head whose wait is over may start service. -/
theorem witness_mayStart :
    let s : State := { (supervised { State.reset with elapsed := 60000000000 }) with
      carriers := (List.range 6).map fun n => (n, { Carrier.none with inService := true, number := n, port0 := readyPort })
      hlt := { State.reset.hlt with mode := .restore, step := 9, imageOk := true, trained := 0xFF }
      kpr := { State.reset.kpr with owner := .accepted }
      twn := { State.reset.twn with linkUp := true, cleanRun := 1 } }
    s.mayStart = true ∧ s.workingSet = true ∧ State.reset.workingSet = false := by decide +kernel

/-- A head in a mode, where a rejoin or handover stands. -/
def rejoining (m : Mode) (p : JoinPhase) : State :=
  { State.reset with elapsed := 2000000, hlt := { State.reset.hlt with mode := m, restored := true }, twn := { State.reset.twn with phase := p, cleanRun := 1 } }
theorem witness_RejoinAndHandover :
    (State.reset.twn.strapConflict = false ∧ 1 ≠ State.reset.headNo ∧ State.reset.twn.answered = none) ∧
    ((after 0 fun w => { w with answered := some (custodyBytes cmJoin 1 1 0 0, []) }).twn.answered = some (custodyBytes cmJoin 1 1 0 0, [])) ∧
    ((rejoining .solo .idle).hlt.mode = .solo ∧ (rejoining .solo .idle).levelFits 2 = false ∧ (rejoining .solo .idle).levelFits 1 = true ∧
      (rejoining .paired .idle).hlt.mode ≠ .solo) ∧
    ((rejoining .restore .asking).twn.phase = .asking ∧ (rejoining .restore .asking).hlt.mode = .restore) ∧
    ((rejoining .solo .seeding).hlt.mode = .solo ∧ (rejoining .solo .seeding).twn.seedCheckpoint = false ∧ (rejoining .solo .seeding).med.writing = none) ∧
    ((rejoining .restore .loading).twn.phase = .loading ∧ ((((rejoining .restore .loading).noteFrame.loadCheckpoint someCheckpoint).applyMirrored 1
      ((((rejoining .restore .loading).noteFrame.loadCheckpoint someCheckpoint).journalHeaders
        ((rejoining .restore .loading).noteFrame.loadCheckpoint someCheckpoint).mirrorBase).length + 1)).isSome = true)) ∧
    ((rejoining .solo .joined).twn.phase = .joined ∧ (rejoining .restore .joined).hlt.restored = true) ∧
    ((rejoining .paired .idle).hlt.mode = .paired ∧ 0 < (rejoining .paired .idle).twn.cleanRun ∧ (rejoining .paired .handingOver).twn.phase = .handingOver) ∧
    (let m := custodyBytes cmHandover 0 1 0 7; let s := after 1000000 fun w => { w with awaiting := some m };
      s.twn.awaiting = some m ∧ 1000000 ≤ s.elapsed.toNat - s.twn.awaitingAt.toNat ∧ leAt m 8 8 ≠ 0 ∧ s.acc.openCycle < leAt m 8 8) ∧
    (let m := custodyBytes cmHandover 0 1 0 7; let s : State := { after 1000000 (fun w => { w with awaiting := some m }) with acc := { State.reset.acc with openCycle := 7 } };
      leAt m 8 8 ≤ s.acc.openCycle ∧ s.twn.phase ≠ .handingOver) := by decide +kernel

/-- R441: a frame whose CHECK fails is discarded and counted. -/
theorem test_bad_heartbeat_counted : answers (exec (.heartbeat (zeros 32)) State.reset) (fun t => t.reg rTwnFrameBad == 1 && ! t.twn.linkUp) = true := by
  decide +kernel
/-- R443, R457: a good heartbeat of the other head brings the link up at eight lanes. -/
theorem test_heartbeat_brings_link_up : answers (exec (.heartbeat (frame 32 1 1)) State.reset) (fun t => t.twn.linkUp && t.twn.lanes == 3) = true := by
  decide +kernel
/-- R447, R448: an order of the head host makes the head release custody and enter SAFE. -/
theorem test_host_order_releases : answers (exec (.twnRelease srcHost 1) { service with twn := { service.twn with drive := true } })
    (fun t => ! t.twn.drive && ! t.twn.setA && t.hlt.mode == .safe && t.twn.govCause == causeHostOrder) = true := by decide +kernel

/-! ### Witnesses: streams and the stack, the endpoint and its rings -/

/-- A stream message of a TYPE as its key 11…11 seals it. -/
def streamKeyBytes : List Byte := List.replicate 32 0x11
def sealedMsg (type stream seq arg0 arg1 : Nat) (payload : List Byte) : List Byte :=
  let h := padTo 64 (leBytes 1 type ++ leBytes 1 0 ++ leBytes 2 1 ++ leBytes 4 stream ++ leBytes 8 seq ++ leBytes 4 payload.length ++ leBytes 4 0 ++
    leBytes 8 arg0 ++ leBytes 8 arg1)
  let ct := gcmCrypt streamKeyBytes ((h.drop 4).take 12) payload
  h ++ ct ++ gcmTag streamKeyBytes ((h.drop 4).take 12) h ct
/-- The key of peer 3's streams is there, and stream 5 of that peer has come to SEQ 1. -/
def incoming : Inbound :=
  { peer := 3, stream := 5, nsid := 1, seq := 1, groups := 0, chain := CoderCtx.reset, profile := 0, domain := 0, size := 100, label := zeros 32, manifest := [],
    ended := false }
def streamed : State :=
  { front.setCslot (streamSlot 3) { CSlot.empty with halfA := streamKeyBytes, state := .loaded, limit := 1000 } with
    snp := { Snap.none with inbound := [incoming], replicas := [1] }
    carriers := checkpointed.carriers, quires := checkpointed.quires, med := checkpointed.med }
/-- The message opens, with a payload of this length. -/
def opens (s : State) (type : Nat) (msg : List Byte) (n : Nat) : Bool :=
  match s.openMessage 3 type msg with
  | .good _ p => p.length == n
  | _ => false

theorem witness_stream_messages :
    (match State.reset.openMessage 3 5 [] with | .malformed => true | _ => false) = true ∧
    (match streamed.openMessage 3 5 (padTo 64 (leBytes 1 5 ++ leBytes 1 0 ++ leBytes 2 1) ++ zeros 16) with | .untrusted => true | _ => false) = true ∧
    opens streamed 5 (sealedMsg 5 5 2 1 1 []) 0 = true ∧ opens streamed 1 (sealedMsg 1 6 1 0 0 (padTo 128 (zeros 16 ++ leBytes 4 1))) 128 = true := by decide +kernel
theorem witness_StreamsAndStack :
    ((streamed.useGcm 3 128).1 = true ∧ ((streamed.setCslot (streamSlot 3) { CSlot.empty with halfA := streamKeyBytes, state := .loaded }).useGcm 3 0).1 = false) ∧
    (let w := (streamed.useGcm 3 0).2;
      (w.inbound 3 5) = some incoming ∧ msgSeq (sealedMsg 2 5 2 0 0 []) = incoming.seq + 1 ∧ msgSeq (sealedMsg 2 5 3 0 0 []) ≠ incoming.seq + 1 ∧
      incoming.ended = false ∧ w.holdsNs 1 = true ∧ w.mayAllocate (8 * 0) = true ∧ w.openRoom 8 = true ∧ w.canReserve (8 * 0) = true ∧ w.viewRoom 1 = true ∧ msgArg0 (sealedMsg 3 5 2 0 0 []) = incoming.groups) ∧
    (let x : Shipment := { stream := 5, nsid := 1, base := 0, view := 2, peer := 3, endSeq := 1, reply := none, dropBase := false };
      ({ streamed with snp := { streamed.snp with shipments := [x] } } : State).snp.shipments.find? (fun x => x.peer == 3 && x.stream == 5) = some x ∧
      x.endSeq ≤ 1 ∧ x.dropBase = false ∧ x.reply = none) ∧
    (streamed.cat.viewNo 1 = none ∧ (streamed.streamKey 3).isSome = true) ∧
    (let o : SnapOrder := { nsid := 1, n := 0, label := zeros 32, kind := 1, reply := none, peer := none, ack := none, queued := false };
      ({ streamed with snp := { streamed.snp with orders := [o] } } : State).snp.orders.find? (fun o => o.nsid == 1 && ! o.queued) = some o ∧
      streamed.pointReached 1 0 = true) ∧
    (({ streamed with snp := { streamed.snp with repairs := [(5, 9, 3)] } } : State).snp.repairs.find? (fun x => x.1 == 5 && x.2.2 == 3) = some (5, 9, 3)) ∧
    (let s : State := { service with snp := { Snap.none with registrar := true } }; s.snp.registrar = true ∧ 1000000 ≤ s.elapsed.toNat - s.snp.lastPulse.toNat) ∧
    (State.reset.reg64 rStkSyncCount < 2 ^ 64 - 1 ∧ 2000 ≤ 2000 ∧ 1999 < 2000) ∧
    (let s : State := { service with elapsed := 10000000, hlt := { service.hlt with head := true },
                                     twn := { service.twn with peer := { service.twn.peer with uncleanRun := 1 } } };
      s.headNo = 1 ∧ s.pairNo = 0 ∧ s.hlt.mode ≠ .safe ∧ 10000000 ≤ s.elapsed.toNat - s.snp.lastEdge.toNat ∧ 0 < s.twn.peer.uncleanRun) := by decide +kernel
/-- A view whose block 0 resolves to zeros, which a repair request may ask for. -/
theorem witness_view_block :
    let v : View := { view := 2, nsid := 1, kind := 1, deleting := false, isSealed := false, successor := 0, cycle := 0, root := 1, manifestAt := 0, label := [] }
    let s : State := { streamed with cat := { streamed.cat with views := [v], nodes := [(1, { CatNode.none with nsid := 1, groups :=
      [{ lba := 0, folio := false, heat := 0, blocks := [.zero], touched := [] }] })] } }
    s.cat.viewNo 2 = some v ∧ v.nsid = leAt (leBytes 4 1) 0 4 ∧ v.deleting = false ∧
    (match (s.viewBlock unseen v.root 0).1 with | .zero => true | _ => false) = true := by decide +kernel

/-- LPDDR trained, the host's BARs open, a supervisor running. -/
def hostedBy : State := supervised { hosted with hlt := { hosted.hlt with trained := 0xFF } }
theorem witness_HostEndpoint :
    (({ State.reset with pin := { State.reset.pin with perstLow := true } } : State).pin.perstLow = true ∧ State.reset.pin.perstLow = false ∧ hosted.ep.linkUp = true ∧
      hosted.barsOpen = true) ∧
    (hosted.inLpddr (hosted.bar4Address 0) 1 = false ∧ hostedBy.inLpddr (hostedBy.bar4Address 0xFFFFFFFF) 1 = true ∧
      hostedBy.touchesDamage (hostedBy.bar4Address 0) 8 = false ∧ hostedBy.mergesDamage (hostedBy.bar4Address 0) [true] = false ∧
      (let s : State := { hostedBy with damaged := [(0, true)] }; s.touchesDamage (s.bar4Address 0) 8 = true)) ∧
    (0x7FFC % 4 = 0 ∧ 0x7FFC < 0x8000 ∧ 0x8000 ≤ 0x8000) ∧ (16 ≤ (16 : Word32).toNat % 2048 ∧ (15 : Word32).toNat % 2048 < 16) ∧
    (hosted.ep.invals.length < 32) ∧
    (let s : State := { hosted with ep := { hosted.ep with atsWaiting := [9] } }; 9 ∈ s.ep.atsWaiting ∧ (∀ r ∈ s.ep.invals, ¬ (r.1 ≤ 9 ∧ 9 < r.1 + r.2)) ∧
      s.ep.atc.length < 8192 ∧ s.lacksWrite 9 = false) ∧
    (let s := hostedBy.setReg (rEpCr 3 + 0x10) 1; s.cringEnabled 3 = true ∧ s.ep.linkUp = true ∧ s.supervisorRuns = true) ∧
    (let s := hosted.setReg (rEpCr 3 + 0x10) 1; s.cringEnabled 3 = true ∧ s.supervisorRuns = false) := by decide +kernel

/-- A ring command, and a state whose ring 0 has it in front. -/
def ringCmd (op a0 a1 a2 len : Nat) : List Byte := padTo 64 (leBytes 8 op ++ leBytes 8 a0 ++ leBytes 8 a1 ++ leBytes 8 a2 ++ leBytes 8 0 ++ leBytes 4 len)
def ringed (s : State) (c : List Byte) : State :=
  supervised { s with ep := { s.ep with linkUp := true, rings := [(0, { Ring.reset with fetched := [c] })] } }
/-- The command is in front of ring 0, which is served. -/
def inFront (s : State) (c : List Byte) : Bool :=
  (s.cring 0).fetched == [c] && s.supervisorRuns && ! (s.cring 0).busy && ! badRingCommand c
theorem witness_ControlRingCommands :
    (inFront (ringed front (ringCmd 1 0x0102 0 20000 0)) (ringCmd 1 0x0102 0 20000 0) = true ∧
      (ringed front []).ringData (ringCmd 1 0x0102 0 20000 0) none = some [] ∧ (ringed front []).ringData (ringCmd 1 0x0102 0 20000 8) none = none) ∧
    (match (ringed front []).setOne 0 0x0102 0 20000 [] with | .ends st _ => st == crOk | .waits _ => false) = true ∧
    (match (ringed front []).setOne 0 0x0105 1 2 [] with | .ends _ _ => false | .waits _ => true) = true ∧
    inFront (ringed front (ringCmd 2 1 0 0 112)) (ringCmd 2 1 0 0 112) = true ∧
    (inFront (ringed front (ringCmd 3 1 0 0 32)) (ringCmd 3 1 0 0 32) = true ∧ (ringed front []).ringData (ringCmd 3 1 0 0 32) (some (zeros 32)) = some (zeros 32) ∧
      (ringed front []).holdsNs 1 = true ∧ (ringed front []).viewRoom 1 = true) ∧
    (inFront (ringed front (ringCmd 4 2 0 0 0)) (ringCmd 4 2 0 0 0) = true ∧ (ringed front []).cat.viewNo 2 = none ∧ (ringed front []).shipping 2 = false ∧
      (ringed front []).viewItemQueued 2 2 = false ∧ (ringed front []).viewItemQueued 5 2 = false) ∧
    inFront (ringed front (ringCmd 5 2 0 0 0)) (ringCmd 5 2 0 0 0) = true ∧
    (inFront (ringed streamed (ringCmd 6 1 0x200000000 3 0)) (ringCmd 6 1 0x200000000 3 0) = true ∧ ((ringed streamed []).streamKey 3).isSome = true) ∧
    (inFront (ringed front (ringCmd 7 4 0 0 12)) (ringCmd 7 4 0 0 12) = true ∧ (ringed front []).reshaping = false ∧ (ringed front []).reshapeQueued = false ∧
      (ringed front []).managesMedia = true ∧
      (let s : State := { front with carriers := (List.range 6).map fun n => (n, { Carrier.none with inService := true, number := n }) };
        6 ≤ (s.serviceNumbers.filter fun n => 0 / 2 ^ n % 2 = 0).length)) ∧
    inFront (ringed front (ringCmd 8 0 0 0 0)) (ringCmd 8 0 0 0 0) = true ∧ inFront (ringed front (ringCmd 9 1 0 0 0)) (ringCmd 9 1 0 0 0) = true ∧
    ((ringed front []).maySolo = false ∧ (ringed { front with hlt := { front.hlt with mode := .restore, step := 9 } } []).maySolo = true) ∧
    (inFront (ringed front (ringCmd 10 0 0 0 0)) (ringCmd 10 0 0 0 0) = true ∧ (ringed front []).hlt.mode = .paired ∧ (ringed front []).twn.phase = .idle) ∧
    (inFront (ringed front (ringCmd 11 95 0 0 0)) (ringCmd 11 95 0 0 0) = true ∧ (ringed front []).numberFree 95 = true ∧
      (let s : State := { carried (fun c => { c with ident := ident16, number := 0xFFFF }) with kpr := { State.reset.kpr with arrayId := some (zeros 16) } };
        ((s.car 2).port s.ownPort).linkUp = true ∧ (s.car 2).ident.level = 1 ∧ s.kpr.arrayId.isSome = true ∧ (s.car 2).blank = true)) ∧
    (inFront (ringed front (ringCmd 12 1 0 0 4)) (ringCmd 12 1 0 0 4) = true ∧ (ringed front []).snp.registrar = false ∧ (ringed front []).reg64 rStkSyncCount < 1) ∧
    (inFront (ringed front (ringCmd 13 4096 0 0 0)) (ringCmd 13 4096 0 0 0) = true ∧ (ringed front []).twn.reportsHeld = []) := by decide +kernel

/-- R484: a BAR4 read outside the LPDDR is answered Unsupported Request and counted. -/
theorem test_bar4_unsupported : answers (exec (.bar4Read 0 8) hosted) (fun t => t.reg rEpBar4Ur == 1 && t.replies.any fun r => r.2.unsupported) = true := by
  decide +kernel
/-- R485: an entry of the MSI-X table takes its data from word 2. -/
theorem test_msix_entry : answers (exec (.msixEntryWrite 0x28 7) hosted) (fun t => (Sparse.get MsixEntry.reset 2 t.ep.msix).data == 7) = true := by decide +kernel

/-! ### Witnesses: modes, security, firmware update, power and test access -/

/-- A head in SAFE that everything is there for: image, fuses, LPDDR, carriers, a running core and an owner. -/
def fit : State :=
  { supervised State.reset with
    elapsed := 2000000000
    settings := [(0x0100 * 2 ^ 32, 0x100000001), (0x0101 * 2 ^ 32, 0x200000001)]
    carriers := (List.range 6).map fun n => (n, { Carrier.none with ident := ident16, inService := true, number := n, port0 := readyPort })
    hlt := { State.reset.hlt with imageOk := true, fuseOk := true, trimWritten := true, trained := 0xFF }
    pwr := { State.reset.pwr with vinGood := true, holdupReady := true, clkMed := true }
    kpr := { State.reset.kpr with owner := .accepted, arrayId := some (zeros 16), level := 1, committed := 1 } }

theorem witness_ModesAndSecurity :
    (State.reset.hlt.cmdBusy = false ∧ State.reset.hltResult 1 false ≠ hltOk ∧ fit.hltResult 1 false = hltOk) ∧
    (let s : State := { fit with hlt := { fit.hlt with mode := .restore, step := 1, error := 1 } }; s.hltResult 2 false = hltOk) ∧
    (let s : State := { fit with hlt := { fit.hlt with mode := .paired } }; s.hltResult 3 false = hltOk) ∧
    (let s : State := { fit with hlt := { fit.hlt with mode := .quiesce, form := .drained }, twn := { fit.twn with drive := true, setA := true, setB := true } };
      s.hltResult 4 false = hltOk) ∧
    (let s : State := { fit with hlt := { fit.hlt with mode := .quiesce, form := .handover } }; s.hltResult 5 false = hltOk) ∧
    (State.reset.modePermits 3 = false ∧ State.reset.modePermits 1 = true ∧ State.reset.hlt.imageOk = false ∧
      (let s : State := { State.reset with hlt := { State.reset.hlt with imageOk := true } }; s.modePermits 1 = true ∧ s.hlt.fuseOk = false)) ∧
    (0xFF % 4 = 3 ∧ State.reset.hlt.training = 0 ∧ State.reset.hlt.mode = .safe ∧ ({ State.reset with hlt := { State.reset.hlt with training := 3 } } : State).hlt.training ≠ 0) ∧
    (State.reset.kpr.mbBusy = false ∧ State.reset.kpr.tampered = false ∧ State.reset.kpr.arrayId = none ∧ fit.kpr.arrayId = some (zeros 16) ∧
      slice (State.reset.mbBytes 64) 2 6 = zeros 6 ∧ slice (State.reset.mbBytes 40) 3 5 = zeros 5 ∧ State.reset.kpr.owner = .none) ∧
    (let s : State := { State.reset with kpr := { State.reset.kpr with tampered := true, mbPending := some (0, [1]) } };
      s.kpr.tampered = true ∧ s.kpr.mbPending = some (0, [1])) ∧
    (1 ≤ 6 ∧ State.reset.pwr.phase ≠ .dump ∧ State.reset.pwr.phase ≠ .close ∧ ({ State.reset with pwr := { State.reset.pwr with phase := .dump } } : State).pwr.phase = .dump ∧
      alarmTemperature ≠ alarmLid ∧ fit.passed fit.kpr.alarmClearAt 1000000000 = true) := by decide +kernel
/-- An image of one section, in slot A, that runs. -/
theorem witness_section_load :
    let x : Slot := Slot.put 64 (zeros 8 ++ [1] ++ zeros 7) { image := [(20, 0), (21, 1)], result := 0 }
    let s : State := { fit with hlt := { fit.hlt with slot := 1 }, kpr := { fit.kpr with slotA := x } }
    let y := x.put 80 (shake256 64 [0xFF])
    s.supervisorRuns = true ∧ 0 < (s.kpr.slotOf s.hlt.slot).sections ∧ x.sectionGood (x.section 0) = false ∧ 0 < y.sections ∧ y.sectionGood (y.section 0) = true ∧
    inUnitStore (privateBase 100) 1 = true ∧ inUnitStore (2 ^ 45) 1 = false ∧ (s.writeSpan 0x60 (2 ^ 45) (y.sectionBytes (y.section 0))).1.isSome = true := by decide +kernel

/-- The image running is in slot A, and slot B holds a verified one of LEVEL 1. -/
def updating : State := { fit with hlt := { fit.hlt with slot := 1, mode := .paired }, twn := { fit.twn with linkUp := true, cleanRun := 1 },
                                   kpr := { fit.kpr with confirmed := true, slotA := { image := [], result := 0 }, slotB := { image := [(16, 1), (17, 0)], result := 0 } } }
theorem witness_FirmwareUpdate :
    (updating.kpr.updBusy = false ∧ updating.guarded = false ∧ updating.slotProtected 1 = true ∧ updating.slotProtected 2 = false) ∧
    (({ updating with kpr := { updating.kpr with guards := 1 } } : State).guarded = true) ∧
    (updating.reg rUpdAddr + 256 ≤ 0x4000000 ∧ 0x4000000 < (updating.setReg rUpdAddr 0x3FFFF01).reg rUpdAddr + 256) ∧
    ((updating.kpr.slotOf 2).result = 0 ∧ (({ updating with kpr := { updating.kpr with slotB := { image := [], result := updBlank } } } : State).kpr.slotOf 2).result ≠ 0 ∧ updating.levelMayRun (updating.kpr.slotOf 2).level = true ∧
      updating.hlt.mode = .paired ∧ 0 < updating.twn.cleanRun ∧ updating.twn.linkUp = true) ∧
    (({ updating with kpr := { updating.kpr with slotB := { image := [(16, 9), (17, 0)], result := 0 } } } : State).levelMayRun 9 = false) ∧
    (let s : State := { updating with hlt := { updating.hlt with mode := .quiesce, drained := true } };
      s.hlt.mode = .quiesce ∧ s.hlt.drained = true ∧ s.reg64 rUpdActCycle < s.acc.openCycle + 4) ∧
    (updating.kpr.scheduled = none ∧ ({ updating with kpr := { updating.kpr with scheduled := some (2, 9) } } : State).kpr.handoverSent = false ∧ updating.hlt.mode ≠ .quiesce) ∧
    (let s : State := { updating with kpr := { updating.kpr with updBusy := true, updPending := some 0 } }; s.kpr.updBusy = true ∧ s.kpr.updPending = some 0) ∧
    (let s : State := { updating with elapsed := 600000000000, kpr := { updating.kpr with trial := true } };
      s.kpr.trial = true ∧ s.kpr.fallbackAt = none ∧ s.passed s.kpr.trialStart (s.setting 0x0B00 0 600000000000) = true) ∧
    (fit.kpr.fallbackAt = none ∧ updating.hlt.slot ≠ 0 ∧ fit.hlt.mode ≠ .paired) ∧
    (let s : State := { fit with kpr := { fit.kpr with fallbackAt := some 0 } }; s.kpr.fallbackAt = some 0 ∧ s.passed 0 1000000000 = true) ∧ 2 < 3 := by decide +kernel

/-- The power supply in a phase since 0. -/
def powered (p : DumpPhase) : State :=
  { fit with pwr := { fit.pwr with phase := p, vholdMv := 10000 } }
theorem witness_PowerClocksAndPins :
    ((powered .standby).pwr.phase = .standby ∧ (powered .standby).pwr.vinGood = true) ∧ (srcHost = srcHost ∨ (0x60 ≤ srcHost ∧ srcHost < 0x64)) ∧
    ((0x5A5A0001 : Word32).toNat / 65536 = 0x5A5A ∧ (0x5A5A0001 : Word32).toNat % 2 = 1 ∧ (0x5A5A0000 : Word32).toNat % 2 = 0) ∧
    (fit.pin.warmLow = false ∧ (powered .drain).pwr.phase ≠ .none) ∧ (5800 ≤ 5800 ∧ 41000 ≤ 41000 ∧ 42000 < 42001 ∧ 5199 < 5200) ∧
    ((powered .none).pwr.phase = .none ∧ 6000 ≤ (powered .none).pwr.vholdMv ∧ 5599 < 5600) ∧
    ((powered .drain).pwr.phase = .drain ∧ (powered .drain).passed (powered .drain).pwr.lossAt 50000000 = true ∧ (powered .drain).mayDump = false) ∧
    ((powered .dump).pwr.phase = .dump ∧ (powered .dump).passed (powered .dump).pwr.lossAt 790000000 = true ∧ (powered .dump).kpr.heldAlarms = []) ∧
    (let s : State := { checkpointed with elapsed := 50000000, pwr := { checkpointed.pwr with phase := .drain } };
      s.pwr.phase = .drain ∧ s.passed s.pwr.lossAt 50000000 = true ∧ s.mayDump = true) ∧
    fit.pwr.clkHost = false ∧ fit.pwr.temp < 105 ∧
    (let u := slotsUsable; u.releasePerst.hlt.mode ≠ .safe ∧ (u.releasePerst.regBit (rCxlPortFence 3) 0 = false)) ∧
    (let s : State := { slotsUsable with pwr := { slotsUsable.pwr with clkCxl := true }, pin := { slotsUsable.pin with cxlModeSet := true } }; let u := s.releasePerst;
      u.pwr.clkCxl = true ∧ 0 < u.cxlPorts ∧ u.pin.cxlPerst.getLsbD 0 = false) ∧
    ((State.reset.setReg (rCxlPort 3) 1).releasePerst.regBit (rCxlPort 3) 0 = true) ∧
    (State.reset.hlt.mode = .safe ∧ State.reset.twn.drive = false ∧ updating.hlt.mode ≠ .safe) := by decide +kernel

/-- R504: without an image a RESTORE in SAFE is refused with NO_IMAGE. -/
theorem test_restore_without_image : answers (exec (.hltRestore srcHost [] unseen
    { checkpoint := none, dump := none, ownDump := false, table := false }) State.reset) (fun t => t.hlt.mode == .safe && t.hlt.cmdResult == hltNoImage) = true := by
  decide +kernel
/-- R551: an IDENTITY request with data ends with LENGTH_MISMATCH. -/
theorem test_identity_length : answers (exec (.secIdentity srcHost 4) State.reset) (fun t => t.kpr.mbBusy && (t.kpr.mbPending.map (·.1)) == some mbLength) = true := by
  decide +kernel
/-- R528, R529: an alarm clears the owner secret and every cipher slot. -/
theorem test_alarm_clears : answers (exec (.keeperAlarm alarmTemperature) { fit with cipherSlots := [(5, { CSlot.empty with state := .loaded })] })
    (fun t => t.cipherSlots == [] && t.kpr.owner == .none && t.kpr.lastAlarm == alarmTemperature) = true := by decide +kernel
/-- R544: a guard input refuses an ERASE. -/
theorem test_guard_refuses_erase : answers (exec (.updErase srcHost 2) { updating with kpr := { updating.kpr with guards := 2 } })
    (fun t => t.kpr.updResult == updGuard && t.kpr.slotB == updating.kpr.slotB) = true := by decide +kernel
/-- R568: EXTEST acts in SAFE without custody and is BYPASS outside. -/
theorem test_extest_outside_safe : answers (exec .jtagExtest updating) (fun t => t.pin.jtag == .bypass) = true := by decide +kernel

end Sys2Proof.Tests
end

section
/-! SUPPORT. What every command keeps, over the dispatch of the commands (R4). -/

namespace Sys2Proof.Machine

/-- What each command keeps, over the dispatch. A cold start is the one command that restarts the clock. -/
theorem exec_kept {s0 s t : State} (c : Instr) (hc : ∀ head fuses vin vhold, c ≠ .coldStart head fuses vin vhold)
    (he : exec c s = .next t) (hK : Kept s0 s) : Kept s0 t := by
  cases c with
  | coldStart head fuses vin vhold => exact absurd rfl (hc head fuses vin vhold)
  | powerReturn => exact execPowerReturn_kept s he hK
  | warmReset src v => exact execWarmReset_kept src v s he hK
  | warmResetN low => exact execWarmResetN_kept low s he hK
  | vinGood mv => exact execVinGood_kept mv s he hK
  | powerLossReport vin => exact execPowerLossReport_kept vin s he hK
  | dumpPhase => exact execDumpPhase_kept s he hK
  | dumpClose => exact execDumpClose_kept s he hK
  | vinOvervoltage mv => exact execVinOvervoltage_kept mv s he hK
  | islandSupplyFail vin vhold => exact execIslandSupplyFail_kept vin vhold s he hK
  | holdupReadyChange mv => exact execHoldupReadyChange_kept mv s he hK
  | refclkLoss clock => exact execRefclkLoss_kept clock s he hK
  | refclkReturn clock => exact execRefclkReturn_kept clock s he hK
  | thermalSample raw => exact execThermalSample_kept raw s he hK
  | registerWrite src a v => exact execRegisterWrite_kept src a v s he hK
  | unalignedRegisterAccess src a n data => exact execUnalignedRegisterAccess_kept src a n data s he hK
  | readLowHalf src a => exact execReadLowHalf_kept src a s he hK
  | readHighHalf src a => exact execReadHighHalf_kept src a s he hK
  | writeLowHalf src a v => exact execWriteLowHalf_kept src a v s he hK
  | writeHighHalf src a v => exact execWriteHighHalf_kept src a v s he hK
  | trimBankWrite src n v => exact execTrimBankWrite_kept src n v s he hK
  | illegalInstruction k w => exact execIllegalInstruction_kept k w s he hK
  | add k d a b => exact execAdd_kept k d a b s he hK
  | sub k d a b => exact execSub_kept k d a b s he hK
  | and k d a b => exact execAnd_kept k d a b s he hK
  | or k d a b => exact execOr_kept k d a b s he hK
  | xor k d a b => exact execXor_kept k d a b s he hK
  | andn k d a b => exact execAndn_kept k d a b s he hK
  | sll k d a b => exact execSll_kept k d a b s he hK
  | srl k d a b => exact execSrl_kept k d a b s he hK
  | sra k d a b => exact execSra_kept k d a b s he hK
  | rol k d a b => exact execRol_kept k d a b s he hK
  | slt k d a b => exact execSlt_kept k d a b s he hK
  | sltu k d a b => exact execSltu_kept k d a b s he hK
  | mul k d a b => exact execMul_kept k d a b s he hK
  | mulhu k d a b => exact execMulhu_kept k d a b s he hK
  | mulh k d a b => exact execMulh_kept k d a b s he hK
  | divu k d a b => exact execDivu_kept k d a b s he hK
  | remu k d a b => exact execRemu_kept k d a b s he hK
  | minu k d a b => exact execMinu_kept k d a b s he hK
  | maxu k d a b => exact execMaxu_kept k d a b s he hK
  | clz k d a => exact execClz_kept k d a s he hK
  | ctz k d a => exact execCtz_kept k d a s he hK
  | popc k d a => exact execPopc_kept k d a s he hK
  | bswap k d a => exact execBswap_kept k d a s he hK
  | addk k d a imm => exact execAddk_kept k d a imm s he hK
  | andk k d a imm => exact execAndk_kept k d a imm s he hK
  | ork k d a imm => exact execOrk_kept k d a imm s he hK
  | xork k d a imm => exact execXork_kept k d a imm s he hK
  | ltk k d a imm => exact execLtk_kept k d a imm s he hK
  | cshl k d a imm => exact execCshl_kept k d a imm s he hK
  | cset k d imm => exact execCset_kept k d imm s he hK
  | shlk k d a n => exact execShlk_kept k d a n s he hK
  | shrk k d a n => exact execShrk_kept k d a n s he hK
  | sark k d a n => exact execSark_kept k d a n s he hK
  | rolk k d a n => exact execRolk_kept k d a n s he hK
  | ldB k d a imm => exact execLdB_kept k d a imm s he hK
  | ldBs k d a imm => exact execLdBs_kept k d a imm s he hK
  | ldH k d a imm => exact execLdH_kept k d a imm s he hK
  | ldHs k d a imm => exact execLdHs_kept k d a imm s he hK
  | ldW k d a imm => exact execLdW_kept k d a imm s he hK
  | ldWs k d a imm => exact execLdWs_kept k d a imm s he hK
  | ldD k d a imm => exact execLdD_kept k d a imm s he hK
  | stB k d a imm => exact execStB_kept k d a imm s he hK
  | stH k d a imm => exact execStH_kept k d a imm s he hK
  | stW k d a imm => exact execStW_kept k d a imm s he hK
  | stD k d a imm => exact execStD_kept k d a imm s he hK
  | vld k d a imm => exact execVld_kept k d a imm s he hK
  | vst k d a imm => exact execVst_kept k d a imm s he hK
  | vstM k d a p => exact execVstM_kept k d a p s he hK
  | atomAdd k d a b => exact execAtomAdd_kept k d a b s he hK
  | atomSwap k d a b => exact execAtomSwap_kept k d a b s he hK
  | atomCas k d a b => exact execAtomCas_kept k d a b s he hK
  | beq k a b off => exact execBeq_kept k a b off s he hK
  | bne k a b off => exact execBne_kept k a b off s he hK
  | blt k a b off => exact execBlt_kept k a b off s he hK
  | bge k a b off => exact execBge_kept k a b off s he hK
  | bltu k a b off => exact execBltu_kept k a b off s he hK
  | bgeu k a b off => exact execBgeu_kept k a b off s he hK
  | bpany k p off => exact execBpany_kept k p off s he hK
  | bpnone k p off => exact execBpnone_kept k p off s he hK
  | call k d index => exact execCall_kept k d index s he hK
  | callr k d a imm => exact execCallr_kept k d a imm s he hK
  | vadd k d a b p esz => exact execVadd_kept k d a b p esz s he hK
  | vsub k d a b p esz => exact execVsub_kept k d a b p esz s he hK
  | vand k d a b p esz => exact execVand_kept k d a b p esz s he hK
  | vor k d a b p esz => exact execVor_kept k d a b p esz s he hK
  | vxor k d a b p esz => exact execVxor_kept k d a b p esz s he hK
  | vandn k d a b p esz => exact execVandn_kept k d a b p esz s he hK
  | vminu k d a b p esz => exact execVminu_kept k d a b p esz s he hK
  | vmaxu k d a b p esz => exact execVmaxu_kept k d a b p esz s he hK
  | vsll k d a b p esz => exact execVsll_kept k d a b p esz s he hK
  | vsrl k d a b p esz => exact execVsrl_kept k d a b p esz s he hK
  | vsra k d a b p esz => exact execVsra_kept k d a b p esz s he hK
  | vmul k d a b p esz => exact execVmul_kept k d a b p esz s he hK
  | vbcast k d a p esz => exact execVbcast_kept k d a p esz s he hK
  | vext k d a b p esz => exact execVext_kept k d a b p esz s he hK
  | vins k d a b p esz => exact execVins_kept k d a b p esz s he hK
  | vredadd k d a p esz => exact execVredadd_kept k d a p esz s he hK
  | vredxor k d a p esz => exact execVredxor_kept k d a p esz s he hK
  | vmov k d a p esz => exact execVmov_kept k d a p esz s he hK
  | vcmpEq k d a b p esz => exact execVcmpEq_kept k d a b p esz s he hK
  | vcmpNe k d a b p esz => exact execVcmpNe_kept k d a b p esz s he hK
  | vcmpLtu k d a b p esz => exact execVcmpLtu_kept k d a b p esz s he hK
  | vcmpLt k d a b p esz => exact execVcmpLt_kept k d a b p esz s he hK
  | vperm k d a b p => exact execVperm_kept k d a b p s he hK
  | vsel k d a b p => exact execVsel_kept k d a b p s he hK
  | pand k d a b => exact execPand_kept k d a b s he hK
  | por k d a b => exact execPor_kept k d a b s he hK
  | pxor k d a b => exact execPxor_kept k d a b s he hK
  | pandn k d a b => exact execPandn_kept k d a b s he hK
  | pfromg k d a => exact execPfromg_kept k d a s he hK
  | ptog k d a => exact execPtog_kept k d a s he hK
  | pcnt k d a => exact execPcnt_kept k d a s he hK
  | vgf8mul k d a b p => exact execVgf8mul_kept k d a b p s he hK
  | vgf128mulX k d a b p => exact execVgf128mulX_kept k d a b p s he hK
  | vgf128mulG k d a b p => exact execVgf128mulG_kept k d a b p s he hK
  | enq k gd vs gq => exact execEnq_kept k gd vs gq s he hK
  | commandQueueArrival k n => exact execCommandQueueArrival_kept k n s he hK
  | enqStatusReturn k n => exact execEnqStatusReturn_kept k n s he hK
  | wne k gd ga gb => exact execWne_kept k gd ga gb s he hK
  | wneWake k => exact execWneWake_kept k s he hK
  | fenceW k => exact execFenceW_kept k s he hK
  | fenceRw k => exact execFenceRw_kept k s he hK
  | cbar k mask => exact execCbar_kept k mask s he hK
  | barrierTimeout k => exact execBarrierTimeout_kept k s he hK
  | wait k => exact execWait_kept k s he hK
  | waitWake k => exact execWaitWake_kept k s he hK
  | resume k => exact execResume_kept k s he hK
  | trap k imm => exact execTrap_kept k imm s he hK
  | sysrd k d num => exact execSysrd_kept k d num s he hK
  | syswr k a num => exact execSyswr_kept k a num s he hK
  | interruptEntry k => exact execInterruptEntry_kept k s he hK
  | loadDataReturn k n => exact execLoadDataReturn_kept k n s he hK
  | storeErrorResponse k n => exact execStoreErrorResponse_kept k n s he hK
  | watchdogWarn k => exact execWatchdogWarn_kept k s he hK
  | watchdogExpiry k => exact execWatchdogExpiry_kept k s he hK
  | timerMatch k => exact execTimerMatch_kept k s he hK
  | runCore k => exact execRunCore_kept k s he hK
  | stopCore k => exact execStopCore_kept k s he hK
  | coreStopComplete k => exact execCoreStopComplete_kept k s he hK
  | ringDoorbell cl ring => exact execRingDoorbell_kept cl ring s he hK
  | coreFence src k => exact execCoreFence_kept src k s he hK
  | clusterFence src cl => exact execClusterFence_kept src cl s he hK
  | engineBusError cls u kind addr => exact execEngineBusError_kept cls u kind addr s he hK
  | engineCommandComplete cls u q => exact execEngineCommandComplete_kept cls u q s he hK
  | dmaCopy u => exact execDmaCopy_kept u s he hK
  | dmaFill u => exact execDmaFill_kept u s he hK
  | dmaChain u => exact execDmaChain_kept u s he hK
  | descriptorComplete u => exact execDescriptorComplete_kept u s he hK
  | dmaChAbort u => exact execDmaChAbort_kept u s he hK
  | dmaEngFence src e => exact execDmaEngFence_kept src e s he hK
  | dmaChFence src u => exact execDmaChFence_kept src u s he hK
  | bufferSpaceReturn => exact execBufferSpaceReturn_kept s he hK
  | ledgerCycleClose => exact execLedgerCycleClose_kept s he hK
  | ledgerRecord slot => exact execLedgerRecord_kept slot s he hK
  | ledgerConfirm slot => exact execLedgerConfirm_kept slot s he hK
  | ledgerRefuse slot => exact execLedgerRefuse_kept slot s he hK
  | confirmTimeout => exact execConfirmTimeout_kept s he hK
  | placeEntry seen fails => exact execPlaceEntry_kept seen fails s he hK
  | tier2Deadline seen fails => exact execTier2Deadline_kept seen fails s he hK
  | heldFoliosResend domain fails => exact execHeldFoliosResend_kept domain fails s he hK
  | rowPadAgeExpiry q failed => exact execRowPadAgeExpiry_kept q failed s he hK
  | cmpEncode u => exact execCmpEncode_kept u s he hK
  | cmpDecode cls u => exact execCmpDecode_kept cls u s he hK
  | coderStageComplete u stage agree => exact execCoderStageComplete_kept u stage agree s he hK
  | cmpLaneFence src u => exact execCmpLaneFence_kept src u s he hK
  | cmpDecFence src u => exact execCmpDecFence_kept src u s he hK
  | knownAnswerTest cls u pass => exact execKnownAnswerTest_kept cls u pass s he hK
  | dgtShake256 u => exact execDgtShake256_kept u s he hK
  | dgtKmac256 u => exact execDgtKmac256_kept u s he hK
  | dgtFingerprint u => exact execDgtFingerprint_kept u s he hK
  | dgtVerify u fm fn => exact execDgtVerify_kept u fm fn s he hK
  | dgtUnitFence src u => exact execDgtUnitFence_kept src u s he hK
  | digestSlotLoad slot key => exact execDigestSlotLoad_kept slot key s he hK
  | applyCycle seen => exact execApplyCycle_kept seen s he hK
  | checkpointHeaderWrite fails partnerHas => exact execCheckpointHeaderWrite_kept fails partnerHas s he hK
  | cphEncrypt u n => exact execCphEncrypt_kept u n s he hK
  | cphDecrypt u n => exact execCphDecrypt_kept u n s he hK
  | cphCtr u n => exact execCphCtr_kept u n s he hK
  | cipherSuspend u => exact execCipherSuspend_kept u s he hK
  | cipherResume u => exact execCipherResume_kept u s he hK
  | keySlotLoad slot halfA halfB limit readOnly => exact execKeySlotLoad_kept slot halfA halfB limit readOnly s he hK
  | keySlotRetire slot => exact execKeySlotRetire_kept slot s he hK
  | keySlotClear slot => exact execKeySlotClear_kept slot s he hK
  | newKeyGeneration domain => exact execNewKeyGeneration_kept domain s he hK
  | cphUnitFence src u => exact execCphUnitFence_kept src u s he hK
  | catWalk u => exact execCatWalk_kept u s he hK
  | catFind u => exact execCatFind_kept u s he hK
  | catProbe u => exact execCatProbe_kept u s he hK
  | catScore u => exact execCatScore_kept u s he hK
  | catAssistFence src u => exact execCatAssistFence_kept src u s he hK
  | foldStart seen fails => exact execFoldStart_kept seen fails s he hK
  | weedingStart seen fails => exact execWeedingStart_kept seen fails s he hK
  | wearLevelStart seen fails => exact execWearLevelStart_kept seen fails s he hK
  | eraseAfterFree q failed => exact execEraseAfterFree_kept q failed s he hK
  | cxlPortFence src p => exact execCxlPortFence_kept src p s he hK
  | quireOpen purpose => exact execQuireOpen_kept purpose s he hK
  | parGenerate e => exact execParGenerate_kept e s he hK
  | parReconstruct e => exact execParReconstruct_kept e s he hK
  | parCheck e => exact execParCheck_kept e s he hK
  | parEngFence src e => exact execParEngFence_kept src e s he hK
  | rebuildBegin seen fails => exact execRebuildBegin_kept seen fails s he hK
  | lostRepair f seen fails => exact execLostRepair_kept f seen fails s he hK
  | conservationRow seen fails => exact execConservationRow_kept seen fails s he hK
  | reshapeStep seen fails => exact execReshapeStep_kept seen fails s he hK
  | nvmeRead c cid nsid slba nblk seen => exact execNvmeRead_kept c cid nsid slba nblk seen s he hK
  | icreq c port maxR2t hdgst ddgst unsupported => exact execIcreq_kept c port maxR2t hdgst ddgst unsupported s he hK
  | h2cTermReq c => exact execH2cTermReq_kept c s he hK
  | nvmeConnect c cid qid sqsize cntlid kato hostNqn subNqn => exact execNvmeConnect_kept c cid qid sqsize cntlid kato hostNqn subNqn s he hK
  | propertyGet c cid off => exact execPropertyGet_kept c cid off s he hK
  | propertySet c cid off v => exact execPropertySet_kept c cid off v s he hK
  | nvmeDisconnect c cid => exact execNvmeDisconnect_kept c cid s he hK
  | nvmeIdentify c cid cns nsid => exact execNvmeIdentify_kept c cid cns nsid s he hK
  | getLogPage c cid lid off len rae => exact execGetLogPage_kept c cid lid off len rae s he hK
  | setFeatures c cid fid v => exact execSetFeatures_kept c cid fid v s he hK
  | getFeatures c cid fid => exact execGetFeatures_kept c cid fid s he hK
  | asynchronousEventRequest c cid => exact execAsynchronousEventRequest_kept c cid s he hK
  | keepAlive c cid => exact execKeepAlive_kept c cid s he hK
  | keepAliveExpiry id => exact execKeepAliveExpiry_kept id s he hK
  | nvmeAbort c cid => exact execNvmeAbort_kept c cid s he hK
  | namespaceCreate c cid nsze ncap flbas group profile domain => exact execNamespaceCreate_kept c cid nsze ncap flbas group profile domain s he hK
  | namespaceDelete c cid nsid => exact execNamespaceDelete_kept c cid nsid s he hK
  | nvmeWrite c cid nsid slba nblk data sgl dataOk fails => exact execNvmeWrite_kept c cid nsid slba nblk data sgl dataOk fails s he hK
  | writeZeroes c cid nsid slba nblk deac => exact execWriteZeroes_kept c cid nsid slba nblk deac s he hK
  | datasetManagement c cid nsid ad ranges => exact execDatasetManagement_kept c cid nsid ad ranges s he hK
  | nvmeFlush c cid nsid => exact execNvmeFlush_kept c cid nsid s he hK
  | h2cData c tag off data last plenOk headerOk dataOk fails => exact execH2cData_kept c tag off data last plenOk headerOk dataOk fails s he hK
  | connectionEnd c => exact execConnectionEnd_kept c s he hK
  | ethPortFence src p => exact execEthPortFence_kept src p s he hK
  | seqIdentify u => exact execSeqIdentify_kept u s he hK
  | seqProgram u => exact execSeqProgram_kept u s he hK
  | seqRead u => exact execSeqRead_kept u s he hK
  | seqErase u => exact execSeqErase_kept u s he hK
  | seqSetMode u => exact execSeqSetMode_kept u s he hK
  | seqReadRetry u => exact execSeqReadRetry_kept u s he hK
  | seqHealth u => exact execSeqHealth_kept u s he hK
  | seqOwnershipTake u => exact execSeqOwnershipTake_kept u s he hK
  | seqOwnershipReturn u => exact execSeqOwnershipReturn_kept u s he hK
  | seqLabel u => exact execSeqLabel_kept u s he hK
  | seqRetire u => exact execSeqRetire_kept u s he hK
  | carrierMsi slot => exact execCarrierMsi_kept slot s he hK
  | carrierIdentify slot => exact execCarrierIdentify_kept slot s he hK
  | carrierProgram slot ok data => exact execCarrierProgram_kept slot ok data s he hK
  | carrierRead slot bad => exact execCarrierRead_kept slot bad s he hK
  | carrierErase slot ok => exact execCarrierErase_kept slot ok s he hK
  | carrierSetMode slot => exact execCarrierSetMode_kept slot s he hK
  | carrierReadRetry slot bad => exact execCarrierReadRetry_kept slot bad s he hK
  | carrierHealth slot temp => exact execCarrierHealth_kept slot temp s he hK
  | carrierOwnershipTake slot => exact execCarrierOwnershipTake_kept slot s he hK
  | carrierOwnershipReturn slot => exact execCarrierOwnershipReturn_kept slot s he hK
  | carrierLabel slot => exact execCarrierLabel_kept slot s he hK
  | carrierRetire slot => exact execCarrierRetire_kept slot s he hK
  | carrierCommandComplete slot n forged => exact execCarrierCommandComplete_kept slot n forged s he hK
  | carrierEnable slot port cplBase cplSize subBase subSize => exact execCarrierEnable_kept slot port cplBase cplSize subBase subSize s he hK
  | carrierReset slot port => exact execCarrierReset_kept slot port s he hK
  | carrierSubTail slot port ring entry => exact execCarrierSubTail_kept slot port ring entry s he hK
  | carrierCplHead slot port head => exact execCarrierCplHead_kept slot port head s he hK
  | carrierPortLoss slot port power => exact execCarrierPortLoss_kept slot port power s he hK
  | carrierLinkUp slot width ident array number partnerAgrees => exact execCarrierLinkUp_kept slot width ident array number partnerAgrees s he hK
  | carrierOutOfService slot fatal => exact execCarrierOutOfService_kept slot fatal s he hK
  | carrierCommandTimeout slot => exact execCarrierCommandTimeout_kept slot s he hK
  | medSeqFence src u => exact execMedSeqFence_kept src u s he hK
  | medBlkFence src b => exact execMedBlkFence_kept src b s he hK
  | eraseRequestRepeat => exact execEraseRequestRepeat_kept s he hK
  | atpWrite path qp psn key offset conn data last fin marked => exact execAtpWrite_kept path qp psn key offset conn data last fin marked s he hK
  | atpReadReq path qp psn key offset conn n relaxed marked => exact execAtpReadReq_kept path qp psn key offset conn n relaxed marked s he hK
  | atpReadResp path qp psn conn data marked => exact execAtpReadResp_kept path qp psn conn data marked s he hK
  | atpAck path qp psn base conn bitmap => exact execAtpAck_kept path qp psn base conn bitmap s he hK
  | atpNak path qp psn conn reason => exact execAtpNak_kept path qp psn conn reason s he hK
  | atpCnp path qp conn => exact execAtpCnp_kept path qp conn s he hK
  | atpRepeat path qp psn key offset conn n fin marked => exact execAtpRepeat_kept path qp psn key offset conn n fin marked s he hK
  | wrWrite qp => exact execWrWrite_kept qp s he hK
  | wrWriteLast qp => exact execWrWriteLast_kept qp s he hK
  | wrRead qp => exact execWrRead_kept qp s he hK
  | wrRepeat qp => exact execWrRepeat_kept qp s he hK
  | workRequestComplete qp => exact execWorkRequestComplete_kept qp s he hK
  | repeatTimerExpiry qp => exact execRepeatTimerExpiry_kept qp s he hK
  | ackDelayExpiry qp => exact execAckDelayExpiry_kept qp s he hK
  | rateIncreaseExpiry qp => exact execRateIncreaseExpiry_kept qp s he hK
  | atpRegionSync index => exact execAtpRegionSync_kept index s he hK
  | atpRevoke key => exact execAtpRevoke_kept key s he hK
  | revocationComplete index => exact execRevocationComplete_kept index s he hK
  | qpReady qp setup => exact execQpReady_kept qp setup s he hK
  | qpDrain qp => exact execQpDrain_kept qp s he hK
  | qpReset qp => exact execQpReset_kept qp s he hK
  | contextLoadComplete qp image => exact execContextLoadComplete_kept qp image s he hK
  | heartbeat b => exact execHeartbeat_kept b s he hK
  | healthReport b => exact execHealthReport_kept b s he hK
  | supervisorMessage b => exact execSupervisorMessage_kept b s he hK
  | heartbeatSend => exact execHeartbeatSend_kept s he hK
  | healthReportBuild => exact execHealthReportBuild_kept s he hK
  | heartbeatMissed => exact execHeartbeatMissed_kept s he hK
  | twinLinkLoss => exact execTwinLinkLoss_kept s he hK
  | twinLaneFailure => exact execTwinLaneFailure_kept s he hK
  | custodyPeerChange low => exact execCustodyPeerChange_kept low s he hK
  | surrenderRecognised seen shows => exact execSurrenderRecognised_kept seen shows s he hK
  | supervisorSilent => exact execSupervisorSilent_kept s he hK
  | confirmStall partnerWaits => exact execConfirmStall_kept partnerWaits s he hK
  | twnRelease src v => exact execTwnRelease_kept src v s he hK
  | twnGovAlive src => exact execTwnGovAlive_kept src s he hK
  | partnerWaitExpiry seen absent => exact execPartnerWaitExpiry_kept seen absent s he hK
  | serviceStart seen => exact execServiceStart_kept seen s he hK
  | twinJoin head level => exact execTwinJoin_kept head level s he hK
  | twinJoinAccept head level => exact execTwinJoinAccept_kept head level s he hK
  | twinJoinRefuse head level reason => exact execTwinJoinRefuse_kept head level reason s he hK
  | seedingComplete => exact execSeedingComplete_kept s he hK
  | twinJoined head level cycle shown => exact execTwinJoined_kept head level cycle shown s he hK
  | twinReady head level => exact execTwinReady_kept head level s he hK
  | twinFailback head level cycle => exact execTwinFailback_kept head level cycle s he hK
  | twinHandover head level cycle => exact execTwinHandover_kept head level cycle s he hK
  | twinHandoverAccept head level => exact execTwinHandoverAccept_kept head level s he hK
  | twinHandoverRefuse head level reason => exact execTwinHandoverRefuse_kept head level reason s he hK
  | custodyMessageRepeat => exact execCustodyMessageRepeat_kept s he hK
  | snapshotItemQueue nsid => exact execSnapshotItemQueue_kept nsid s he hK
  | streamBegin peer msg => exact execStreamBegin_kept peer msg s he hK
  | streamGroup peer msg => exact execStreamGroup_kept peer msg s he hK
  | streamEnd peer msg => exact execStreamEnd_kept peer msg s he hK
  | streamSeal peer msg => exact execStreamSeal_kept peer msg s he hK
  | streamAck peer msg => exact execStreamAck_kept peer msg s he hK
  | repairReq peer msg seen => exact execRepairReq_kept peer msg seen s he hK
  | repairResp peer msg => exact execRepairResp_kept peer msg s he hK
  | shipInterval nsid peer => exact execShipInterval_kept nsid peer s he hK
  | stackSyncPulse => exact execStackSyncPulse_kept s he hK
  | stackSyncEdge high => exact execStackSyncEdge_kept high s he hK
  | stackSyncSilence => exact execStackSyncSilence_kept s he hK
  | perstN low => exact execPerstN_kept low s he hK
  | hostLinkDown again => exact execHostLinkDown_kept again s he hK
  | bar4Read o n => exact execBar4Read_kept o n s he hK
  | bar4Write o bs => exact execBar4Write_kept o bs s he hK
  | msixEntryWrite o v => exact execMsixEntryWrite_kept o v s he hK
  | epMsixSend v => exact execEpMsixSend_kept v s he hK
  | atsInvalidateRequest page pages => exact execAtsInvalidateRequest_kept page pages s he hK
  | translationCompletion page ok read write => exact execTranslationCompletion_kept page ok read write s he hK
  | hostReadCompletion k n data timeout => exact execHostReadCompletion_kept k n data timeout s he hK
  | epCrTail r tail commands => exact execEpCrTail_kept r tail commands s he hK
  | epCrDisable r => exact execEpCrDisable_kept r s he hK
  | crSettings r data => exact execCrSettings_kept r data s he hK
  | crStatistics r => exact execCrStatistics_kept r s he hK
  | crSnapshot r data => exact execCrSnapshot_kept r data s he hK
  | crViewDelete r => exact execCrViewDelete_kept r s he hK
  | crSeal r => exact execCrSeal_kept r s he hK
  | crShip r seen => exact execCrShip_kept r seen s he hK
  | crReshape r data => exact execCrReshape_kept r data s he hK
  | crReshapeCancel r => exact execCrReshapeCancel_kept r s he hK
  | crSolo r seen => exact execCrSolo_kept r seen s he hK
  | crHandover r => exact execCrHandover_kept r s he hK
  | crLabel r slot agreed => exact execCrLabel_kept r slot agreed s he hK
  | crStackSnapshot r data => exact execCrStackSnapshot_kept r data s he hK
  | crHealthRing r => exact execCrHealthRing_kept r s he hK
  | hltRestore src found seen shows => exact execHltRestore_kept src found seen shows s he hK
  | hltCreateArray src anchors seen => exact execHltCreateArray_kept src anchors seen s he hK
  | hltQuiesce src => exact execHltQuiesce_kept src s he hK
  | hltResume src => exact execHltResume_kept src s he hK
  | hltRejoin src seen shows => exact execHltRejoin_kept src seen shows s he hK
  | lpddrTrainStart mask => exact execLpddrTrainStart_kept mask s he hK
  | lpddrTrainComplete failed => exact execLpddrTrainComplete_kept failed s he hK
  | lpdFence src mask => exact execLpdFence_kept src mask s he hK
  | secIdentity src len => exact execSecIdentity_kept src len s he hK
  | secAttest src len => exact execSecAttest_kept src len s he hK
  | secOwnerShare src len => exact execSecOwnerShare_kept src len s he hK
  | secKeyInput src len => exact execSecKeyInput_kept src len s he hK
  | secArrayInfo src len => exact execSecArrayInfo_kept src len s he hK
  | secZeroise src len => exact execSecZeroise_kept src len s he hK
  | keeperAlarm code => exact execKeeperAlarm_kept code s he hK
  | alarmEnd code passes => exact execAlarmEnd_kept code passes s he hK
  | sectionLoad n dest => exact execSectionLoad_kept n dest s he hK
  | updErase src slot => exact execUpdErase_kept src slot s he hK
  | updWrite src slot => exact execUpdWrite_kept src slot s he hK
  | updVerify src slot => exact execUpdVerify_kept src slot s he hK
  | updSchedule src slot => exact execUpdSchedule_kept src slot s he hK
  | updCancel src => exact execUpdCancel_kept src s he hK
  | updCommandComplete misread => exact execUpdCommandComplete_kept misread s he hK
  | healthConfirm src v => exact execHealthConfirm_kept src v s he hK
  | confirmWindowExpiry => exact execConfirmWindowExpiry_kept s he hK
  | guardInputChange n asserted => exact execGuardInputChange_kept n asserted s he hK
  | jtagBypass => exact execJtagBypass_kept s he hK
  | jtagIdcode => exact execJtagIdcode_kept s he hK
  | jtagSamplePreload cells => exact execJtagSamplePreload_kept cells s he hK
  | jtagExtest => exact execJtagExtest_kept s he hK
  | jtagHighz => exact execJtagHighz_kept s he hK
  | writeResponseReturn k n => exact execWriteResponseReturn_kept k n s he hK
  | anaTransitionTimeExpiry => exact execAnaTransitionTimeExpiry_kept s he hK
  | invalidCommandOpcode c cid => exact execInvalidCommandOpcode_kept c cid s he hK
  | invalidPduType c => exact execInvalidPduType_kept c s he hK
  | badAvenfyPacket path qp st => exact execBadAvenfyPacket_kept path qp st s he hK
  | twinFrameBad => exact execTwinFrameBad_kept s he hK
  | mailboxCommandComplete => exact execMailboxCommandComplete_kept s he hK
  | fallbackActivation => exact execFallbackActivation_kept s he hK
  | twinLinkRetrained => exact execTwinLinkRetrained_kept s he hK
  | cxlLinkChange p up gib err => exact execCxlLinkChange_kept p up gib err s he hK
  | ethLinkChange p up => exact execEthLinkChange_kept p up s he hK
  | evictionWriteBackComplete qp ok => exact execEvictionWriteBackComplete_kept qp ok s he hK

theorem Kept.elapsed_eq {s t : State} (h : Kept s t) : t.elapsed = s.elapsed := h.1

/-- Settles O6: a cold start keeps a clock put to zero, and every other command keeps the clock it finds. -/
theorem onlyColdStartTouchesElapsed : Obligations.OnlyColdStartTouchesElapsed :=
  ⟨fun head fuses vin vhold s _ he => (execColdStart_kept head fuses vin vhold s he).elapsed_eq,
    fun c s _ hc he => (exec_kept c hc he (Kept_refl s)).elapsed_eq⟩

end Sys2Proof.Machine
end

section
/-! SUPPORT. Registers of two words (R8): the read shadow and the write holding register of a requester, and the commands on halves. -/

namespace Sys2Proof.Machine

/-! ### The halves of a register of two words (R8) -/

/-- The high half read after the low half is of the value that the low half was read of. -/
theorem State.readHigh_after_readLow {s u : State} {src tag x : Nat} (h : u.shadows = (s.readLow src tag x).2.shadows) (y : Nat) :
    u.readHigh src tag y = x / 2 ^ 32 % 2 ^ 32 := by
  simp [State.readHigh, State.shadow, h, State.readLow, State.setShadow]

/-- Without the shadow's tag the high half is read live. -/
theorem State.readHigh_untagged {s : State} {src tag : Nat} (h : (s.shadow src).tag ≠ tag + 1) (y : Nat) :
    s.readHigh src tag y = y / 2 ^ 32 % 2 ^ 32 := if_neg h

/-- The value that a high half puts into effect after a low half is held. -/
theorem State.joinHigh_after_setHold {s u : State} {src tag x : Nat} (h : u.holds = (s.setHold src tag x).holds) (y old : Nat) :
    u.joinHigh src tag y old = x % 2 ^ 32 + 2 ^ 32 * y := by
  simp [State.joinHigh, State.hold, h, State.setHold]

/-- Without the holding register's tag the low half stays. -/
theorem State.joinHigh_untagged {s : State} {src tag : Nat} (h : (s.hold src).tag ≠ tag + 1) (y old : Nat) :
    s.joinHigh src tag y old = old % 2 ^ 32 + 2 ^ 32 * y := by
  simp [State.joinHigh, h]

/-! ### The commands on halves -/

section Halves
variable {s : State} {src a : Nat}

theorem exec_readLowHalf (hl : isHalf false a = true) (hr : s.reachesRegs src = true) :
    exec (.readLowHalf src a) s =
      .next ((s.readLow src a (s.live64 a)).2.replyTo src a (leBytes 4 (s.live64 a % 2 ^ 32)) false) := by
  show execReadLowHalf src a s = _
  simp [execReadLowHalf, hl, hr, State.readLow]

theorem exec_readHighHalf (hh : isHalf true (a + 4) = true) (hr : s.reachesRegs src = true) :
    exec (.readHighHalf src (a + 4)) s =
      .next (s.replyTo src (a + 4) (leBytes 4 (s.readHigh src a (s.live64 a))) false) := by
  show execReadHighHalf src (a + 4) s = _
  simp [execReadHighHalf, hh, hr]

theorem exec_writeLowHalf (v : Word32) (hl : isHalf false a = true) (hr : s.reachesRegs src = true) :
    exec (.writeLowHalf src a v) s = .next (s.setHold src a v.toNat) := by
  show execWriteLowHalf src a v s = _
  simp [execWriteLowHalf, hl, hr]

theorem exec_writeHighHalf {r : RegRow} {hi : Bool} (w : Word32) (hh : isHalf true (a + 4) = true) (hr : s.reachesRegs src = true)
    (ha : regAt (a + 4) = some (r, hi)) (hw : s.mayWrite r.writer src = true) :
    exec (.writeHighHalf src (a + 4) w) s = .next (s.write64 r a (s.joinHigh src a w.toNat (s.live64 a))) := by
  show execWriteHighHalf src (a + 4) w s = _
  simp [execWriteHighHalf, hh, hr, ha, hw]

end Halves

/-- Settles O32: each half's command does its part (R8), and what the low half leaves in the shadow or the holding register is what the
high half finds there. -/
theorem wideRegisterHalves : Obligations.WideRegisterHalves := by
  intro s src a v w hl hh hr
  refine ⟨⟨_, exec_readLowHalf hl hr, rfl, rfl, fun u hu hru => ?_⟩, fun ht => ?_, ⟨_, exec_writeLowHalf v hl hr, rfl, ?_⟩, ?_⟩
  · rw [exec_readHighHalf hh hru, State.readHigh_after_readLow hu]
  · rw [exec_readHighHalf hh hr, State.readHigh_untagged ht]
  · intro u r hi hu hru ha hw
    rw [exec_writeHighHalf w hh hru ha hw, State.joinHigh_after_setHold hu, Nat.mod_eq_of_lt v.isLt]
  · intro r hi ht ha hw
    rw [exec_writeHighHalf w hh hr ha hw, State.joinHigh_untagged ht]

end Sys2Proof.Machine
end

section
/-! SUPPORT. Accesses of register space and of configuration space: a word by its access codes (R7 to R10), part of a word (R586), the trim
bank and the BARs (R482). -/

namespace Sys2Proof.Machine

/-! ### A write of one word (R7 to R10) -/

theorem testBit_m32 {n : Nat} (h : n < 32) : m32.testBit n = true := by
  rw [show m32 = 2 ^ 32 - 1 from rfl, Nat.testBit_two_pow_sub_one]; simpa using h

/-- What each bit of a word is after a write, by its access code (R9). -/
theorem writeBits_testBit (r : RegRow) (hi : Bool) (old v : Nat) {n : Nat} (h : n < 32) :
    (writeBits r hi old v).testBit n =
      if (halfOf hi r.w1s).testBit n && v.testBit n then true
      else if (halfOf hi r.w1c).testBit n && v.testBit n then false
      else if (halfOf hi r.rw).testBit n then v.testBit n else old.testBit n := by
  simp only [writeBits, Nat.testBit_or, Nat.testBit_and, Nat.testBit_xor, testBit_m32 h]
  cases v.testBit n with
  | false => cases (halfOf hi r.rw).testBit n <;> simp
  | true =>
    cases (halfOf hi r.w1s).testBit n with
    | true => simp
    | false =>
      cases (halfOf hi r.w1c).testBit n with
      | true => simp
      | false => cases (halfOf hi r.rw).testBit n <;> simp

section Write
variable {s : State} {src a : Nat}

theorem exec_registerWrite (v : Word32) (ha : a < configBase) (hr : s.reachesRegs src = true) :
    exec (.registerWrite src a v) s = .next (if a % 4 ≠ 0 then s else s.storeReg src a v.toNat) := by
  show execRegisterWrite src a v s = _
  simp [execRegisterWrite, Nat.not_le.mpr ha, hr]

/-- An aligned write of a register that acts on nothing deeper. -/
theorem exec_registerWrite_plain (v : Word32) (ha : a < configBase) (hr : s.reachesRegs src = true) (h4 : a % 4 = 0)
    (hd : s.deepWrite src a v.toNat = none) : exec (.registerWrite src a v) s = .next (s.writeReg src a v.toNat) := by
  simp [exec_registerWrite v ha hr, h4, State.storeReg, hd]

theorem State.writeReg_none (v : Nat) (h : regAt a = none) : s.writeReg src a v = s := by
  simp [State.writeReg, h]

theorem State.writeReg_low (v : Nat) {r : RegRow} (h : regAt a = some (r, false)) (hw : r.wide = true) :
    s.writeReg src a v = s.setHold src a v := by
  simp [State.writeReg, h, hw]

theorem State.writeReg_refused (v : Nat) {r : RegRow} {hi : Bool} (h : regAt a = some (r, hi)) (hw : r.wide = true → hi = true)
    (hm : s.mayWrite r.writer src = false) : s.writeReg src a v = s := by
  have hlow : ¬ (r.wide = true ∧ ¬ hi = true) := fun ⟨x, y⟩ => y (hw x)
  simp only [State.writeReg, h, if_neg hlow, hm]
  rfl

theorem State.writeReg_narrow (v : Nat) {r : RegRow} {hi : Bool} (h : regAt a = some (r, hi)) (hw : r.wide = false)
    (hm : s.mayWrite r.writer src = true) (hs : s.writeSpecial src a v = none) :
    s.writeReg src a v = s.setReg a (writeBits r hi (s.reg a) v) := by
  simp [State.writeReg, h, hw, hm, hs]

end Write

theorem State.reg_setReg_other (s : State) {a b : Nat} (v : Nat) (h : b ≠ a) : (s.setReg a v).reg b = s.reg b := by
  rw [State.reg_setReg, if_neg h]

/-- A bit of a register word that is written. -/
theorem State.reg_setReg_testBit (s : State) (a v : Nat) {n : Nat} (h : n < 32) : ((s.setReg a v).reg a).testBit n = v.testBit n := by
  rw [State.reg_setReg, if_pos rfl, Nat.testBit_mod_two_pow, decide_eq_true h, Bool.true_and]

/-! ### Accesses that are no aligned word (R586) -/

theorem regWords_aligned {a n w : Nat} (h : w ∈ regWords a n) : w % 4 = 0 := by
  obtain ⟨i, -, rfl⟩ := List.mem_map.1 h
  omega

/-- The word that an access inside one word touches. -/
theorem regWords_inside {a n : Nat} (h0 : 0 < n) (h : a % 4 + n ≤ 4) : regWords a n = [a / 4 * 4] := by
  have h1 : (a + n + 3) / 4 - a / 4 = 1 := by omega
  simp [regWords, h1, List.range_succ, Nat.mul_comm]

theorem wordSlice_inside {a n : Nat} (v : Nat) (h : a % 4 + n ≤ 4) : wordSlice a n (a / 4 * 4) v = slice (leBytes 4 v) (a % 4) n := by
  have hlo : max a (a / 4 * 4) = a := by omega
  have hhi : min (a + n) (a / 4 * 4 + 4) = a + n := by omega
  simp only [wordSlice, hlo, hhi]
  congr 1 <;> omega

/-- A write that covers no word whole changes nothing. -/
theorem State.storeRegBytes_noWord (s : State) (src a : Nat) (bs : List Byte)
    (h : ∀ w, w % 4 = 0 → a ≤ w → a + bs.length < w + 4) : s.storeRegBytes src a bs = s := by
  refine (List.foldl_ext _ (fun t _ => t) s fun t w hw => if_neg ?_).trans (List.foldl_fixed _)
  rintro ⟨h1, h2⟩
  have := h w (regWords_aligned hw) h1
  omega

theorem State.readRegBytes_inside (s : State) (src : Nat) {a n : Nat} (h0 : 0 < n) (h : a % 4 + n ≤ 4) :
    s.readRegBytes src a n = (slice (leBytes 4 (s.readReg src (a / 4 * 4)).1) (a % 4) n, (s.readReg src (a / 4 * 4)).2) := by
  simp [State.readRegBytes, regWords_inside h0 h, wordSlice_inside _ h]

section Unaligned
variable {s : State} {src a : Nat} (ha : a < configBase) (hr : s.reachesRegs src = true)
include ha hr

theorem exec_unalignedWrite (n : Nat) (bs : List Byte) :
    exec (.unalignedRegisterAccess src a n (some bs)) s = .next (s.storeRegBytes src a bs) := by
  show execUnalignedRegisterAccess src a n (some bs) s = _
  simp [execUnalignedRegisterAccess, Nat.not_le.mpr ha, hr]

theorem exec_unalignedRead (n : Nat) :
    exec (.unalignedRegisterAccess src a n none) s =
      .next ((s.readRegBytes src a n).2.replyTo src a (s.readRegBytes src a n).1 false) := by
  show execUnalignedRegisterAccess src a n none s = _
  simp [execUnalignedRegisterAccess, Nat.not_le.mpr ha, hr]

end Unaligned

/-! ### The trim bank and configuration space -/

theorem exec_trimBankWrite {s : State} {src i : Nat} (v : Word32) (hi : i < 512) (hr : s.reachesRegs src = true) :
    exec (.trimBankWrite src i v) s = .next (s.writeTrim (rTrimBank i) v.toNat) := by
  show execTrimBankWrite src i v s = _
  simp [execTrimBankWrite, hi, hr]

theorem exec_configWrite {s : State} (o : Nat) (v : Word32) (hl : s.ep.linkUp = true) :
    exec (.registerWrite srcHost (configBase + o) v) s = .next (s.configWrite o v.toNat) := by
  show execRegisterWrite srcHost (configBase + o) v s = _
  simp [execRegisterWrite, hl]

/-- A BAR reads what its writable bits were written with, and its fixed bits (R482). -/
theorem State.configWord_configWrite_bar (s : State) {o : Nat} (v : Word32) (ho : 0x10 ≤ o ∧ o < 0x28 ∧ o % 4 = 0) :
    (s.configWrite o v.toNat).configWord o = (v.toNat &&& (barMask o).1) ||| (barMask o).2 := by
  have hv : v.toNat &&& (barMask o).1 < 2 ^ 32 := lt_of_le_of_lt Nat.and_le_left v.isLt
  simp only [State.configWrite, if_pos ho, State.configWord, if_pos (And.intro ho.1 ho.2.1), Sparse.get_set_same, BitVec.toNat_ofNat,
    Nat.mod_eq_of_lt hv, Nat.and_assoc, Nat.and_self]

/-- The high bits of a word, and a field below them. -/
theorem and_highBits_or {x k c : Nat} (hx : x < 2 ^ 32) (hk : k ≤ 32) (hc : c < 2 ^ k) :
    (x &&& (2 ^ 32 - 2 ^ k)) ||| c = x / 2 ^ k * 2 ^ k + c := by
  have hm : x &&& (2 ^ 32 - 2 ^ k) = (x / 2 ^ k) <<< k := by
    have hmask : 2 ^ 32 - 2 ^ k = (2 ^ (32 - k) - 1) <<< k := by
      rw [Nat.shiftLeft_eq, Nat.sub_mul, one_mul, ← pow_add, Nat.sub_add_cancel hk]
    apply Nat.eq_of_testBit_eq
    intro i
    rw [hmask, Nat.testBit_and, Nat.testBit_shiftLeft, Nat.testBit_shiftLeft, Nat.testBit_two_pow_sub_one, Nat.testBit_div_two_pow]
    by_cases hki : k ≤ i
    · by_cases hi : i < 32
      · simp [hki, Nat.sub_lt_sub_right hki hi]
      · have hxi := Nat.testBit_lt_two_pow (lt_of_lt_of_le hx (Nat.pow_le_pow_right (by decide) (Nat.le_of_not_lt hi)))
        simp [hki, hxi]
    · simp [hki]
  rw [hm, ← Nat.shiftLeft_add_eq_or_of_lt hc, Nat.shiftLeft_eq]

/-- Settles O33: each access comes down to the write or the read of one register word, whose bits follow its access codes; an access that
covers no word whole writes none. -/
theorem registerAccess : Obligations.RegisterAccess := by
  intro s src a v ha hr
  refine ⟨fun h4 => ?_, fun h4 hd => ⟨fun hn => ?_, fun r hreg hw => ?_, fun r hi hreg hw hm => ?_, fun r hi hreg hm hw hs => ?_⟩,
    fun bs hb => ?_, fun n h0 hn => ?_, fun i hi => ?_, fun hl => ⟨?_, ?_⟩⟩
  · rw [exec_registerWrite v ha hr, if_pos h4]
  · rw [exec_registerWrite_plain v ha hr h4 hd, State.writeReg_none _ hn]
  · rw [exec_registerWrite_plain v ha hr h4 hd, State.writeReg_low _ hreg hw]
  · rw [exec_registerWrite_plain v ha hr h4 hd, State.writeReg_refused _ hreg hw hm]
  · rw [exec_registerWrite_plain v ha hr h4 hd, State.writeReg_narrow _ hreg hw hm hs]
    exact ⟨_, rfl, rfl, fun b hb => State.reg_setReg_other s _ hb, fun n hn => by
      rw [State.reg_setReg_testBit s a _ hn, writeBits_testBit r hi _ _ hn]⟩
  · rw [exec_unalignedWrite ha hr, State.storeRegBytes_noWord s src a bs hb]
  · rw [exec_unalignedRead ha hr, State.readRegBytes_inside s src h0 hn]
  · refine ⟨_, exec_trimBankWrite v hi hr, rfl, ?_, fun b hb => State.reg_setReg_other s _ hb⟩
    exact (State.reg_setReg s _ _ _).trans (by rw [if_pos rfl, Nat.mod_eq_of_lt v.isLt])
  · refine ⟨_, exec_configWrite 0x10 v hl, ?_⟩
    rw [State.configWord_configWrite_bar s v (by decide)]
    exact and_highBits_or (k := 28) v.isLt (by decide) (by decide)
  · refine ⟨_, exec_configWrite 0x18 v hl, ?_⟩
    rw [State.configWord_configWrite_bar s v (by decide)]
    exact and_highBits_or (k := 16) v.isLt (by decide) (by decide)

end Sys2Proof.Machine
end

section
/-! SUPPORT. The control registers of two words (R8, R46): what an engine's `sysrd` and `syswr` do with either half. -/

namespace Sys2Proof.Machine

/-- The fetch changes the register image alone, where it counts corrected errors (R36, R39). -/
theorem State.fetched_only (s : State) (k : Nat) : s.fetched k = { s with regs := (s.fetched k).regs } := s.correct_only _ _

/-- A control register reads no register of the image. -/
@[simp] theorem State.fetched_coreReg (s : State) (k j n : Nat) : (s.fetched k).coreReg j n = s.coreReg j n := by rw [State.fetched_only]; rfl
@[simp] theorem State.fetched_readHigh (s : State) (k src tag y : Nat) : (s.fetched k).readHigh src tag y = s.readHigh src tag y := by
  rw [State.fetched_only]; rfl
@[simp] theorem State.fetched_joinHigh (s : State) (k src tag y old : Nat) :
    (s.fetched k).joinHigh src tag y old = s.joinHigh src tag y old := by rw [State.fetched_only]; rfl

/-! ### A state whose engines are still those of the fetch -/

section SinceFetch
variable {s t : State} {k : Nat} (ht : t.cores = (s.fetched k).cores)
include ht

theorem State.core_sinceFetch : t.core k = s.core k := by rw [← State.core_fetched s k, State.core, ht, State.core]

theorem State.hasNext_sinceFetch (hn : s.hasNext k = true) : t.hasNext k = true := by
  rwa [State.hasNext, State.core_sinceFetch ht]

/-- The engine's registers change, and it goes to the next instruction. -/
theorem State.modCore_advance_goesOn (f : Core → Core) (hn : s.hasNext k = true) (hp : (f (s.core k)).pc = (s.core k).pc)
    (hw : (f (s.core k)).waiting = .issuing) : (t.modCore k f).advance k = t.goesOn k f := by
  rw [← State.core_sinceFetch ht] at hp hw
  rw [State.modCore, State.advance_hasNext (State.hasNext_setCore (State.hasNext_sinceFetch ht hn) hp)]
  rw [State.core_setCore_same, State.setCore_setCore, hp, ← hw]
  rfl

/-- The engine keeps its registers and goes to the next instruction. -/
theorem State.advance_goesOn (hn : s.hasNext k = true) (hw : (s.core k).waiting = .issuing) : t.advance k = t.goesOn k id := by
  rw [← State.core_sinceFetch ht] at hw
  rw [State.advance_hasNext (State.hasNext_sinceFetch ht hn), ← hw]; rfl

theorem State.goesOn_cores (f : Core → Core) : (t.goesOn k f).cores = (s.retired k f).cores := by
  simp [State.goesOn, State.retired, State.setCore, State.core_sinceFetch ht, ht]

end SinceFetch

theorem State.retired_congr {s : State} {k : Nat} {f g : Core → Core} (h : f (s.core k) = g (s.core k)) : s.retired k f = s.retired k g := by
  simp only [State.retired, h]

/-! ### The instructions -/

section Pairs
variable {s : State} {k : Nat}

/-- The low half of a pair, read by its engine. -/
theorem exec_sysrd_low (d : BitVec 5) {lo : BitVec 12} (h : s.executes k .base [] [] = true) (hn : s.hasNext k = true)
    (hw : coreRegWide lo.toNat = true) :
    exec (.sysrd k d lo) s = .next (((s.fetched k).readLow k (coreRegTag k lo.toNat) (s.coreReg k lo.toNat)).2.goesOn k
      (Core.putG d (BitVec.ofNat 64 (s.coreReg k lo.toNat % 2 ^ 32)))) := by
  obtain ⟨hle, hne⟩ : ¬ 0xF < lo.toNat ∧ lo ≠ 3#12 := by
    simp only [coreRegWide, Bool.or_eq_true, beq_iff_eq] at hw
    exact ⟨by omega, fun h3 => by subst h3; simp at hw⟩
  have ht : ((s.fetched k).readLow k (coreRegTag k lo.toNat) (s.coreReg k lo.toNat)).2.cores = (s.fetched k).cores := rfl
  have hi := (State.executes_issuing h).1
  rw [← State.modCore_advance_goesOn ht _ hn (Core.putG_pc ..) (by rw [Core.putG_waiting, hi])]
  show execSysrd k d lo s = _
  simp [execSysrd, State.instr_executes _ h, hle, hne, State.readCoreReg, hw, State.readLow, State.retireG]

/-- The high half of a pair, read by its engine. -/
theorem exec_sysrd_high (d : BitVec 5) {hi : BitVec 12} (h : s.executes k .base [] [] = true) (hn : s.hasNext k = true)
    (hh : coreRegHigh hi.toNat = true) :
    exec (.sysrd k d hi) s = .next (s.retired k
      (Core.putG d (BitVec.ofNat 64 (s.readHigh k (coreRegTag k (hi.toNat - 1)) (s.coreReg k (hi.toNat - 1)))))) := by
  obtain ⟨hle, hne, hnw⟩ : ¬ 0xF < hi.toNat ∧ hi ≠ 3#12 ∧ coreRegWide hi.toNat = false := by
    simp only [coreRegHigh, Bool.or_eq_true, beq_iff_eq] at hh
    refine ⟨by omega, fun h3 => by subst h3; simp at hh, ?_⟩
    simp only [coreRegWide, Bool.or_eq_false_iff, beq_eq_false_iff_ne]
    omega
  rw [← State.retireG_retired d _ hn (State.executes_issuing h).1]
  show execSysrd k d hi s = _
  simp [execSysrd, State.instr_executes _ h, hle, hne, hnw, State.readCoreReg, hh]

/-- A write of the low half of `STC_TIMER_CMP` is held. -/
theorem exec_syswr_timerLow (d : BitVec 5) (h : s.executes k .base [d] [] = true) (hn : s.hasNext k = true) :
    exec (.syswr k d 11) s = .next (((s.fetched k).setHold k (coreRegTag k 0xB) ((s.core k).getG d).toNat).goesOn k id) := by
  have ht : ((s.fetched k).setHold k (coreRegTag k 0xB) ((s.core k).getG d).toNat).cores = (s.fetched k).cores := rfl
  rw [← State.advance_goesOn ht hn (State.executes_issuing h).1]
  show execSyswr k d 11 s = _
  simp [execSyswr, State.instr_executes _ h, State.writeCoreReg]

/-- A write of the high half of `STC_TIMER_CMP` puts both halves into effect. -/
theorem exec_syswr_timerHigh (d : BitVec 5) (h : s.executes k .base [d] [] = true) (hn : s.hasNext k = true) :
    exec (.syswr k d 12) s = .next (s.retired k fun c => { c with
      timerCmp := BitVec.ofNat 64 (s.joinHigh k (coreRegTag k 0xB) ((s.core k).getG d).toNat c.timerCmp.toNat) }) := by
  rw [← State.modCore_advance _ hn rfl (State.executes_issuing h).1]
  show execSyswr k d 12 s = _
  simp [execSyswr, State.instr_executes _ h, State.writeCoreReg]

end Pairs

/-- Two words put together, cut to 64 bits, are the low words of both. -/
theorem ofNat_lowHigh (x y : Word64) :
    BitVec.ofNat 64 (x.toNat % 2 ^ 32 + 2 ^ 32 * y.toNat) = (y.truncate 32 : Word32) ++ (x.truncate 32 : Word32) := by
  apply BitVec.eq_of_toNat_eq
  have hx : x.toNat % 2 ^ 32 < 2 ^ 32 := Nat.mod_lt _ (by decide)
  simp only [BitVec.toNat_ofNat, BitVec.toNat_append, BitVec.truncate_eq_setWidth, BitVec.toNat_setWidth]
  rw [← Nat.shiftLeft_add_eq_or_of_lt hx, Nat.shiftLeft_eq]
  omega

/-- Settles O28: the low half's read leaves the high bits in the engine's shadow, and the low half's write waits in its holding register
(R8, R46). -/
theorem wideControlRegisters : Obligations.WideControlRegisters := by
  intro s k d e lo hi v hv hn
  obtain ⟨hlo, hhi, hpair, rfl⟩ : coreRegWide lo.toNat = true ∧ coreRegHigh hi.toNat = true ∧ hi.toNat - 1 = lo.toNat ∧
      v = s.coreReg k lo.toNat := by
    rcases hv with ⟨rfl, rfl, rfl⟩ | ⟨rfl, rfl, rfl⟩ | ⟨rfl, rfl, rfl⟩ <;> exact ⟨rfl, rfl, rfl, rfl⟩
  constructor
  · intro h
    refine ⟨_, exec_sysrd_low d h hn hlo, State.goesOn_cores rfl _, fun u hu hue hun => ?_⟩
    rw [exec_sysrd_high e hue hun hhi, hpair, State.readHigh_after_readLow (s := s.fetched k) hu]
  · intro h
    refine ⟨_, exec_syswr_timerLow d h hn, State.goesOn_cores rfl _, fun u hu hue hun => ?_⟩
    rw [exec_syswr_timerHigh e hue hun]
    refine congrArg _ (State.retired_congr ?_)
    simp only [State.joinHigh_after_setHold (s := s.fetched k) hu, ofNat_lowHigh]

end Sys2Proof.Machine
end

section
/-! SUPPORT. Single bits of registers, and what a pass over a list leaves of one of its elements. -/

namespace Sys2Proof.Machine

/-! ### Bits of a register -/

section Bits
variable {s : State} {a b i j : Nat}

theorem State.regBit_eq_testBit (s : State) (a i : Nat) : s.regBit a i = (s.reg a).testBit i := by
  rw [Nat.testBit_eq_decide_div_mod_eq]; rfl

theorem State.regBit_congr {t : State} (h : t.regs = s.regs) (a i : Nat) : t.regBit a i = s.regBit a i := by
  simp only [State.regBit, State.reg, h]

/-- A register holds a word. -/
theorem State.reg_lt (s : State) (a : Nat) : s.reg a < 2 ^ 32 := (Sparse.get 0 a s.regs).isLt

theorem State.regBit_setRegBit_same (s : State) (a : Nat) (h : i < 32) : (s.setRegBit a i).regBit a i = true := by
  rw [State.regBit_eq_testBit, State.setRegBit, State.reg_setReg_testBit _ _ _ h]
  simp

/-- Setting a bit leaves every set bit set. -/
theorem State.regBit_setRegBit_of (h : s.regBit b j = true) : (s.setRegBit a i).regBit b j = true := by
  rw [State.regBit_eq_testBit] at h ⊢
  have hj : j < 32 := Nat.lt_of_not_le fun hle => by
    rw [Nat.testBit_lt_two_pow ((s.reg_lt b).trans_le (Nat.pow_le_pow_right (by decide) hle))] at h
    exact Bool.noConfusion h
  rw [State.setRegBit]
  by_cases hb : b = a
  · subst hb; rw [State.reg_setReg_testBit _ _ _ hj]; simp [h]
  · rw [State.reg_setReg_other _ _ hb, h]

theorem State.regBit_clearRegBit_same (s : State) (a : Nat) (h : i < 32) : (s.clearRegBit a i).regBit a i = false := by
  rw [State.regBit_eq_testBit, State.clearRegBit, State.reg_setReg_testBit _ _ _ h]
  simp [testBit_m32 h]

theorem State.regBit_clearRegBit_other (s : State) (i j : Nat) (h : b ≠ a) : (s.clearRegBit a i).regBit b j = s.regBit b j := by
  rw [State.regBit, State.clearRegBit, State.reg_setReg_other _ _ h]; rfl

end Bits

/-! ### Passes over a list -/

/-- What the pass over `x` brings about and the passes over the others leave holds at the end. -/
theorem foldl_of_mem {σ β : Type} {P : σ → Prop} {f : σ → β → σ} {x : β} {l : List β} (hx : x ∈ l) (hP : ∀ t, P (f t x))
    (hf : ∀ t y, P t → P (f t y)) (t : σ) : P (l.foldl f t) := by
  induction l generalizing t with
  | nil => simp at hx
  | cons y l ih =>
    rcases List.mem_cons.1 hx with rfl | hx
    · exact List.foldlRecOn l f (hP t) fun t ht y _ => hf t y ht
    · exact ih hx _

/-- A table entry that a pass puts at a value holds it. -/
theorem get_foldl_set {α β : Type} [DecidableEq α] (d v : α) (key : β → Nat) {x : β} {l : List β} (hx : x ∈ l) (m : Sparse α) :
    Sparse.get d (key x) (l.foldl (fun m y => Sparse.set d (key y) v m) m) = v := by
  refine foldl_of_mem (P := fun m => Sparse.get d (key x) m = v) hx (fun m => Sparse.get_set_same ..) (fun m y h => ?_) m
  rw [Sparse.get_set, h, ite_self]

end Sys2Proof.Machine
end

section
/-! SUPPORT. The fence of an engine unit (R30 and the class chapters): its bit, its queues and what it had in service. -/

namespace Sys2Proof.Machine

/-! ### Units -/

@[simp] theorem State.unit_modUnit_same (s : State) (cls u : Nat) (f : EngUnit → EngUnit) : (s.modUnit cls u f).unit cls u = f (s.unit cls u) := by
  simp [State.unit, State.modUnit, State.setUnit]

theorem State.unit_modUnit_other (s : State) {cls u v : Nat} (f : EngUnit → EngUnit) (h : v ≠ u) :
    (s.modUnit cls u f).unit cls v = s.unit cls v := by
  have hk : unitKey cls v ≠ unitKey cls u := fun hk => h (Nat.add_left_cancel hk)
  simp [State.unit, State.modUnit, State.setUnit, Sparse.get_set_other _ _ _ _ _ hk]

theorem State.modUnit_modUnit (s : State) (cls u : Nat) (f g : EngUnit → EngUnit) :
    (s.modUnit cls u f).modUnit cls u g = s.modUnit cls u (g ∘ f) := by
  rw [State.modUnit, State.unit_modUnit_same]
  simp [State.modUnit, State.setUnit]

theorem State.unit_congr {s t : State} (h : t.units = s.units) (cls u : Nat) : t.unit cls u = s.unit cls u := by
  simp only [State.unit, h]

/-! ### What a fence leaves in a unit -/

/-- A unit as a fence at `now` leaves it. -/
def EngUnit.fenced (now : Word64) (e : EngUnit) : EngUnit :=
  { (e.endService stFenced false now).endQueued stFenced false now with testing := false }

theorem EngUnit.fenced_queued (now : Word64) (e : EngUnit) : (e.fenced now).queued = 0 := rfl
theorem EngUnit.fenced_suspended (now : Word64) (e : EngUnit) : (e.fenced now).suspended = [] := rfl

/-- A queued command as `endQueued` ends it at a fence. -/
theorem Cmd.endWith_start (q : Nat) (x : QEntry) (now : Word64) :
    let c := ((Cmd.start q x now).finish stFenced).endWith stFenced false now
    c.seq = x.seq ∧ c.block = x.block ∧ c.status = stFenced := ⟨rfl, rfl, rfl⟩

/-- A queued command of a fenced unit ends with FENCED. -/
theorem EngUnit.fenced_ended (now : Word64) (e : EngUnit) {q : Nat} {x : QEntry} (hq : q < 4) (hx : x ∈ e.queue q) :
    ∃ c ∈ (e.fenced now).ended, c.seq = x.seq ∧ c.block = x.block ∧ c.status = stFenced := by
  refine ⟨((Cmd.start q x now).finish stFenced).endWith stFenced false now, ?_, Cmd.endWith_start q x now⟩
  have hm : ((Cmd.start q x now).finish stFenced).endWith stFenced false now ∈
      (e.queue q).map fun x => ((Cmd.start q x now).finish stFenced).endWith stFenced false now := List.mem_map_of_mem hx
  simp only [EngUnit.fenced, EngUnit.endQueued, List.mem_append]
  match q, hq with
  | 0, _ => exact .inl (.inl (.inl (.inr hm)))
  | 1, _ => exact .inl (.inl (.inr hm))
  | 2, _ => exact .inl (.inr hm)
  | 3, _ => exact .inr hm

/-- A command in service or suspended that has no ending gets the ending of the fence. -/
theorem EngUnit.fenced_service (now : Word64) (e : EngUnit) {c : Cmd} (hc : c ∈ e.service ++ e.suspended) (hs : c.stop = 0) :
    ∃ d ∈ (e.fenced now).service, d.seq = c.seq ∧ d.stop = stFenced := by
  have hw : c.endWith stFenced false now = { c with stop := stFenced, aborted := false, since := now } := if_pos hs
  exact ⟨c.endWith stFenced false now, List.mem_map_of_mem hc, by rw [hw], by rw [hw]⟩

/-- A state that has the unit fenced and its work ended is one after its fence. -/
theorem State.fencedUnit_of_unit {s t : State} {cls u : Nat} {now : Word64} (hf : t.unitFenced cls u = true)
    (hu : t.unit cls u = (s.unit cls u).fenced now) : s.fencedUnit cls u t := by
  rw [State.fencedUnit, hu]
  exact ⟨hf, EngUnit.fenced_queued .., EngUnit.fenced_suspended .., fun q hq x hx => EngUnit.fenced_ended now _ hq hx,
    fun c hc hs => EngUnit.fenced_service now _ hc hs⟩

/-! ### Carriers given to other sequencers -/

/-- Of the state only carriers and open choices differ. -/
def State.CarriersOnly (s t : State) : Prop := t = { s with carriers := t.carriers, free := t.free }

theorem State.CarriersOnly.regs {s t : State} (h : s.CarriersOnly t) : t.regs = s.regs := by
  rw [State.CarriersOnly] at h; rw [h]
theorem State.CarriersOnly.units {s t : State} (h : s.CarriersOnly t) : t.units = s.units := by
  rw [State.CarriersOnly] at h; rw [h]
theorem State.CarriersOnly.trans {s t u : State} (h : s.CarriersOnly t) (h' : t.CarriersOnly u) : s.CarriersOnly u := by
  rw [State.CarriersOnly] at *; rw [h', h]

theorem State.modCar_carriersOnly (s : State) (slot : Nat) (f : Carrier → Carrier) : s.CarriersOnly (s.modCar slot f) := rfl

theorem State.foldl_carriersOnly {β : Type} {f : State → β → State} (hf : ∀ (t : State) (x : β), t.CarriersOnly (f t x)) (l : List β) (s : State) :
    s.CarriersOnly (l.foldl f s) :=
  List.foldlRecOn l f (motive := s.CarriersOnly) rfl fun t ht x _ => ht.trans (hf t x)

theorem State.dropPort_carriersOnly (s : State) (slot port : Nat) : s.CarriersOnly (s.dropPort slot port) := by
  simp only [State.dropPort]
  refine State.CarriersOnly.trans (State.foldl_carriersOnly ?_ _ s) (State.modCar_carriersOnly _ slot _)
  exact fun _ _ => rfl

theorem State.resetCarrierPort_carriersOnly (s : State) (slot port : Nat) : s.CarriersOnly (s.resetCarrierPort slot port) :=
  (s.dropPort_carriersOnly slot port).trans (State.modCar_carriersOnly _ _ _)

theorem State.reassignCarriers_carriersOnly (s : State) (seq : Nat) : s.CarriersOnly (s.reassignCarriers seq) :=
  State.foldl_carriersOnly (fun t _ => (t.resetCarrierPort_carriersOnly _ _).trans (State.modCar_carriersOnly _ _ _)) _ s

/-! ### The fence of a unit -/

/-- Ending a unit's work changes no register: its fence bit is set before. -/
theorem State.endFenced_regs (s : State) (cls u : Nat) : (s.endFenced cls u).regs = s.regs := by
  simp only [State.endFenced]
  split_ifs
  · rfl
  · rfl
  · exact (State.reassignCarriers_carriersOnly _ u).regs
  · rfl

/-- Of the units a fence changes only its own. -/
theorem State.endFenced_units (s : State) (cls u : Nat) : (s.endFenced cls u).units = (s.modUnit cls u (EngUnit.fenced s.elapsed)).units := by
  have h : (s.endCommands cls u stFenced false).modUnit cls u (fun e => { e with testing := false }) =
      s.modUnit cls u (EngUnit.fenced s.elapsed) := State.modUnit_modUnit s cls u _ _
  simp only [State.endFenced, h]
  split_ifs
  · rfl
  · rfl
  · exact (State.reassignCarriers_carriersOnly _ u).units
  · rfl

theorem State.endFenced_elapsed (s : State) (cls u : Nat) : (s.endFenced cls u).elapsed = s.elapsed :=
  (endFenced_kept cls u s (Kept_refl s)).elapsed_eq

theorem State.unit_endFenced (s : State) (cls u v : Nat) :
    (s.endFenced cls u).unit cls v = if v = u then (s.unit cls v).fenced s.elapsed else s.unit cls v := by
  rw [State.unit_congr (s.endFenced_units cls u)]
  split
  · subst v; exact s.unit_modUnit_same cls u _
  · exact s.unit_modUnit_other _ ‹_›

/-- The fence of a unit does what R30 asks: the bit is set, the queues are empty, and what was in them or in service ends with FENCED. -/
theorem State.fenceUnit_fencedUnit (s : State) (cls u : Nat) : s.fencedUnit cls u (s.fenceUnit cls u) := by
  refine State.fencedUnit_of_unit (now := s.elapsed) ?_ ?_
  · rw [State.unitFenced, State.fenceUnit, State.regBit_congr (State.endFenced_regs _ cls u),
      State.regBit_setRegBit_same s _ (by decide), Bool.true_or]
  · rw [State.fenceUnit, State.unit_endFenced, if_pos rfl]; rfl

/-- The contexts of a fenced coder or decoder lane are reset (R176). -/
theorem State.fenceUnit_coderCtx (s : State) {cls u q : Nat} (hc : cls = clsCoder ∨ cls = clsDecoder) (hq : q < 4) :
    Sparse.get CoderCtx.reset (4 * unitKey cls u + q) (s.fenceUnit cls u).coderCtx = CoderCtx.reset := by
  simp only [State.fenceUnit, State.endFenced, if_pos hc]
  exact get_foldl_set _ _ (4 * unitKey cls u + ·) (List.mem_range.2 hq) _

/-- The contexts of a fenced cipher unit are cleared (R262). -/
theorem State.fenceUnit_cipherCtx (s : State) {u j : Nat} (hj : j < 2) :
    Sparse.get CipherCtx.free (2 * u + j) (s.fenceUnit clsCipher u).cipherCtx = CipherCtx.free := by
  have hm : 2 * u + j ∈ [2 * u, 2 * u + 1] := by simp; omega
  exact get_foldl_set CipherCtx.free CipherCtx.free id hm s.cipherCtx

/-- The engine of a fenced sequencer is stopped for good (R411). -/
theorem State.fenceUnit_sequencer_dead (s : State) (u : Nat) : ((s.fenceUnit clsSequencer u).core (116 + u)).run = .dead :=
  congrArg Core.run (State.core_setCore_same _ (116 + u) _)

/-! ### The fence of a DMA engine (R113) -/

/-- Fencing units one after the other. -/
theorem State.foldl_endFenced (cls : Nat) {l : List Nat} (hl : l.Nodup) (s : State) :
    let t := l.foldl (fun t u => t.endFenced cls u) s
    t.regs = s.regs ∧ ∀ v, t.unit cls v = if v ∈ l then (s.unit cls v).fenced s.elapsed else s.unit cls v := by
  induction l generalizing s with
  | nil => simp
  | cons u l ih =>
    obtain ⟨hu, hl⟩ := List.nodup_cons.1 hl
    obtain ⟨hregs, hunit⟩ := ih hl (s.endFenced cls u)
    refine ⟨hregs.trans (s.endFenced_regs cls u), fun v => ?_⟩
    rw [List.foldl_cons, hunit, State.unit_endFenced, State.endFenced_elapsed]
    by_cases hv : v = u
    · subst hv; simp [hu]
    · simp [hv]

/-- Every channel of a fenced DMA engine is fenced. -/
theorem State.fenceDmaEngine_fencedUnit (s : State) (e : Nat) {ch : Nat} (hch : ch < 64) :
    s.fencedUnit clsDma (64 * e + ch) (s.fenceDmaEngine e) := by
  have hnd : ((List.range 64).map (64 * e + ·)).Nodup := List.nodup_range.map fun _ _ h => Nat.add_left_cancel h
  obtain ⟨hregs, hunit⟩ := State.foldl_endFenced clsDma hnd (s.setRegBit (rDmaEngFence e) 0)
  have ht : ((List.range 64).map (64 * e + ·)).foldl (fun t u => t.endFenced clsDma u) (s.setRegBit (rDmaEngFence e) 0) =
      s.fenceDmaEngine e := List.foldl_map
  rw [ht] at hregs hunit
  refine State.fencedUnit_of_unit (now := s.elapsed) ?_ ?_
  · have he : (64 * e + ch) / 64 = e := by omega
    rw [State.unitFenced, he, State.regBit_congr hregs (rDmaEngFence e), State.regBit_setRegBit_same s _ (by decide)]
    simp
  · rw [hunit, if_pos (List.mem_map_of_mem (List.mem_range.2 hch))]; rfl

end Sys2Proof.Machine
end

section
/-! SUPPORT. The fence of stream cores and clusters (R57 to R60). -/

namespace Sys2Proof.Machine

/-- FENCE and RUN bits of clusters lie in different registers, which are 64 KiB apart from cluster to cluster. -/
theorem rStcClFence_ne_rStcClCtl (c d : Nat) : rStcClFence c ≠ rStcClCtl d := by
  simp only [rStcClFence, rStcClCtl]; omega

section Cores
variable (s : State) (k : Nat)

theorem State.recordExpiry_cores : (s.recordExpiry k).cores = s.cores := by
  unfold State.recordExpiry
  split
  · simp only []; split <;> rfl
  · rfl

/-- Recording an expiry leaves every set bit set. -/
theorem State.regBit_recordExpiry_of {a i : Nat} (h : s.regBit a i = true) : (s.recordExpiry k).regBit a i = true := by
  unfold State.recordExpiry
  split
  · simp only []; split
    · exact State.regBit_setRegBit_of (State.regBit_setRegBit_of h)
    · exact State.regBit_setRegBit_of h
  · exact h

/-! ### One core marked (R58) -/

/-- The fenced core is stopped for good; the others stay as they are. -/
theorem State.core_markFenced (j : Nat) :
    (s.markFenced k).core j = if j = k then { s.core k with run := .dead, waiting := .issuing } else s.core j := by
  have h : ∀ i, ((s.recordExpiry k).setRegBit (rStcClFence (k / 8)) (k % 8)).core i = s.core i := fun i => by
    rw [State.core, State.setRegBit_cores, State.recordExpiry_cores]; rfl
  have hc : (s.markFenced k).core j = if j = k then { s.core k with run := .dead, waiting := .issuing } else
      ((s.recordExpiry k).setRegBit (rStcClFence (k / 8)) (k % 8)).core j := by
    rw [← h k]
    exact Sparse.get_set ..
  rw [hc, h]

/-- A fence bit of a cluster after a core is marked. -/
theorem State.regBit_markFenced_fence (c i : Nat) : (s.markFenced k).regBit (rStcClFence c) i =
    ((s.recordExpiry k).setRegBit (rStcClFence (k / 8)) (k % 8)).regBit (rStcClFence c) i :=
  State.regBit_clearRegBit_other _ _ _ (rStcClFence_ne_rStcClCtl _ _)

theorem State.regBit_markFenced_same : (s.markFenced k).regBit (rStcClFence (k / 8)) (k % 8) = true := by
  rw [State.regBit_markFenced_fence]
  exact State.regBit_setRegBit_same _ _ (by omega)

/-- Marking a core as fenced leaves every fence bit set. -/
theorem State.regBit_markFenced_of {c i : Nat} (h : s.regBit (rStcClFence c) i = true) :
    (s.markFenced k).regBit (rStcClFence c) i = true := by
  rw [State.regBit_markFenced_fence]
  exact State.regBit_setRegBit_of (s.regBit_recordExpiry_of k h)

/-- The RUN bit of a fenced core reads 0. -/
theorem State.regBit_markFenced_run : (s.markFenced k).regBit (rStcClCtl (k / 8)) (k % 8) = false :=
  State.regBit_clearRegBit_same _ _ (by omega)

theorem State.coreFenced_markFenced : (s.markFenced k).coreFenced k = true := by
  rw [State.coreFenced, State.regBit_markFenced_same, Bool.true_or]

/-! ### The cores of a cluster (R59) -/

/-- A core is stopped for good and its clock stands. -/
def State.stoppedWithClock (s : State) (k : Nat) : Prop := (s.core k).run = .dead ∧ (s.core k).clockHeld ≠ none

/-- Fence one core of a cluster whose clock stops. -/
def State.markWithClock (s : State) (k : Nat) : State := (s.markFenced k).holdClock k

theorem State.core_markWithClock (j : Nat) : (s.markWithClock k).core j = if j = k
    then { s.core k with run := .dead, waiting := .issuing, clockHeld := some ((s.markFenced k).coreClocks k) } else s.core j := by
  have hc : (s.markWithClock k).core j = if j = k
      then { (s.markFenced k).core k with clockHeld := some ((s.markFenced k).coreClocks k) } else (s.markFenced k).core j := Sparse.get_set ..
  rw [hc, State.core_markFenced, State.core_markFenced, if_pos rfl]
  split <;> rfl

theorem State.stoppedWithClock_same : (s.markWithClock k).stoppedWithClock k := by
  rw [State.stoppedWithClock, State.core_markWithClock, if_pos rfl]
  exact ⟨rfl, nofun⟩

theorem State.stoppedWithClock_of {s : State} {j : Nat} (h : s.stoppedWithClock j) : (s.markWithClock k).stoppedWithClock j := by
  by_cases hj : j = k
  · subst hj; exact s.stoppedWithClock_same j
  · rw [State.stoppedWithClock, State.core_markWithClock, if_neg hj]; exact h

/-- The cluster's fence bit stays set while its cores are fenced. -/
theorem State.clusterFenced_foldl {s : State} {c : Nat} (l : List Nat) (h : s.clusterFenced c = true) :
    (l.foldl State.markWithClock s).clusterFenced c = true :=
  List.foldlRecOn l State.markWithClock (motive := fun t => t.clusterFenced c = true) h
    fun t ht j _ => State.regBit_markFenced_of t j ht

theorem State.stoppedWithClock_foldl {l : List Nat} (hk : k ∈ l) : (l.foldl State.markWithClock s).stoppedWithClock k :=
  foldl_of_mem (P := fun t => t.stoppedWithClock k) hk (fun t => t.stoppedWithClock_same k) (fun _ j h => State.stoppedWithClock_of j h) s

theorem State.coreFenced_of_cluster {s : State} {c n : Nat} (hn : n < 8) (h : s.clusterFenced c = true) : s.coreFenced (8 * c + n) = true := by
  have hc : (8 * c + n) / 8 = c := by omega
  rw [State.coreFenced, hc, h, Bool.or_true]

end Cores

/-- A cluster's registers and cores once its fence is recorded, before roles move. -/
def State.markCluster (c : Nat) (s : State) : State :=
  ((List.range 8).map (8 * c + ·)).foldl State.markWithClock
    ((s.loseCores ((List.range 8).map (8 * c + ·))).setRegBit (rStcClFence c) 8)

theorem State.fenceCluster_eq (s : State) (c : Nat) : s.fenceCluster c = (s.markCluster c).afterCores s.supervisorCore := rfl

theorem State.clusterFenced_markCluster (s : State) (c : Nat) : (s.markCluster c).clusterFenced c = true :=
  State.clusterFenced_foldl _ (State.regBit_setRegBit_same _ _ (by decide))

theorem State.stoppedWithClock_markCluster (s : State) (c : Nat) {n : Nat} (hn : n < 8) : (s.markCluster c).stoppedWithClock (8 * c + n) :=
  State.stoppedWithClock_foldl _ _ (List.mem_map_of_mem (List.mem_range.2 hn))

end Sys2Proof.Machine
end

section
/-! SUPPORT. Who may fence, and custody after a fence (R30, R31). -/

namespace Sys2Proof.Machine

section Custody
variable (s : State)

/-- After a fence by another requester than the governor custody stays. -/
theorem State.afterFence_host : s.afterFence srcHost = s := if_neg fun h => absurd h.1 (by decide)

/-- Custody stays with a head that has none to release or whose units cover the working set. -/
theorem State.afterFence_covered {s : State} (h : s.holdsCustody = false ∨ s.workingSet = true) : s.afterFence srcGovernor = s :=
  if_neg fun ⟨_, hc, hw⟩ => h.elim (fun h => by simp [h] at hc) fun h => hw h

theorem State.afterFence_uncovered {s : State} (hc : s.holdsCustody = true) (hw : s.workingSet = false) :
    s.afterFence srcGovernor = s.releaseCustody causeWorkingSet := if_pos ⟨rfl, hc, by simp [hw]⟩

theorem State.afterChannelFence_host (held : Bool) : s.afterChannelFence srcHost held = s := by
  rw [State.afterChannelFence, State.afterFence_host]
  exact if_neg fun h => absurd h.1 (by decide)

/-- The fence bits of channels are set beside those set before (R519). -/
theorem State.fenceChannels_reg {u : Nat} (hu : u < 256) : (s.fenceChannels u).reg rLpdFence = s.reg rLpdFence ||| u := by
  have h : (s.fenceChannels u).reg rLpdFence = (s.setReg rLpdFence (s.reg rLpdFence ||| u % 256)).reg rLpdFence := by
    simp only [State.fenceChannels]; split <;> rfl
  have hlt : s.reg rLpdFence ||| u < 2 ^ 32 := Nat.or_lt_two_pow (s.reg_lt _) (by omega)
  rw [h, State.reg_setReg, if_pos rfl, Nat.mod_eq_of_lt hu, Nat.mod_eq_of_lt hlt]

/-- Losing dedup entries changes no register. -/
theorem State.regBit_dropTierOne (a i p : Nat) : (s.dropTierOne p).regBit a i = s.regBit a i := rfl

end Custody

/-! ### Fence commands -/

section Commands
variable {s t : State} {c : Instr} {orders : Prop} [Decidable orders]

/-- A fence command of a unit there is: it acts for those who may order it, and for no other requester. -/
theorem exec_fence {p : Prop} [Decidable p] (h : exec c s = .next (if orders ∧ p then t else s)) (hp : p) :
    (¬ orders → exec c s = .next s) ∧ (orders → exec c s = .next t) := by
  refine ⟨fun ho => ?_, fun ho => ?_⟩
  · rw [h, if_neg fun ho' => ho ho'.1]
  · rw [h, if_pos ⟨ho, hp⟩]

/-- The fence command of a unit of a class. -/
theorem exec_fenceUnit {src cls u : Nat} {p : Prop} [Decidable p] {more : State → Prop}
    (h : exec c s = .next (if orders ∧ p then (s.fenceUnit cls u).afterFence src else s)) (hp : p) (hm : more (s.fenceUnit cls u)) :
    (¬ orders → exec c s = .next s) ∧ (orders → ∃ t : State, exec c s = .next (t.afterFence src) ∧ s.fencedUnit cls u t ∧ more t) :=
  (exec_fence h hp).imp_right fun ho hord => ⟨_, ho hord, s.fenceUnit_fencedUnit cls u, hm⟩

end Commands

theorem mayFence_iff (src : Nat) : mayFence src = true ↔ src = srcGovernor ∨ src = srcHost := by simp [mayFence]

theorem exec_coreFence (s : State) (src k : Nat) :
    exec (.coreFence src k) s = .next (if (src = srcGovernor ∨ src = srcHost) ∧ k < 96 then s.coreFence src k else s) := by
  show execCoreFence src k s = _
  simp only [execCoreFence, mayFence_iff]

theorem exec_clusterFence (s : State) (src c : Nat) :
    exec (.clusterFence src c) s = .next (if (src = srcGovernor ∨ src = srcHost) ∧ c < 12 then s.clusterFence src c else s) := by
  show execClusterFence src c s = _
  simp only [execClusterFence, mayFence_iff]

/-- Settles O34: each fence command acts for the governor and the head host alone (R30), its unit's fence leaves the unit fenced and its
work ended, and custody follows the working set (R31). -/
theorem fencing : Obligations.Fencing := by
  intro s src u
  refine ⟨⟨s.afterFence_host, State.afterFence_covered, State.afterFence_uncovered⟩,
    fun hu => exec_fenceUnit rfl hu trivial, fun hu => ?dmaEngine,
    fun hu => exec_fenceUnit rfl hu fun _ => s.fenceUnit_coderCtx (.inl rfl),
    fun hu => exec_fenceUnit rfl hu fun _ => s.fenceUnit_coderCtx (.inr rfl),
    fun hu => exec_fenceUnit rfl hu trivial, fun hu => exec_fenceUnit rfl hu fun _ => s.fenceUnit_cipherCtx,
    fun hu => exec_fenceUnit rfl hu trivial, fun hu => exec_fenceUnit rfl hu trivial,
    fun hu => exec_fenceUnit rfl hu (s.fenceUnit_sequencer_dead u),
    fun hu => ?core, fun hu => ?cluster, fun hu => ?cxl, fun hu => ?eth, fun hu => exec_fence rfl hu, fun h0 hu => ?lpddr⟩
  case dmaEngine => exact (exec_fence rfl hu).imp_right fun ho hord => ⟨_, ho hord, fun _ => s.fenceDmaEngine_fencedUnit u⟩
  case core =>
    refine (exec_fence (exec_coreFence s src u) hu).imp_right fun ho hord => ⟨_, rfl, ho hord, State.coreFenced_markFenced _ u,
      State.regBit_markFenced_run _ u, ?_, fun j hj => ?_⟩
    · rw [State.core_markFenced, if_pos rfl]
    · rw [State.core_markFenced, if_neg hj]
  case cluster =>
    have hc := s.clusterFenced_markCluster u
    refine (exec_fence (exec_clusterFence s src u) hu).imp_right fun ho hord => ⟨s.markCluster u, ?_, hc, fun n hn =>
      ⟨State.coreFenced_of_cluster hn hc, s.stoppedWithClock_markCluster u hn⟩⟩
    rw [ho hord, State.clusterFence, State.fenceCluster_eq]
  case cxl =>
    refine (exec_fence rfl hu).imp_right fun ho hord => ⟨_, ho hord, ?_, rfl⟩
    rw [State.regBit_dropTierOne]
    exact State.regBit_setRegBit_same _ _ (by decide)
  case eth =>
    exact (exec_fence rfl hu).imp_right fun ho hord => ⟨_, ho hord, State.regBit_setRegBit_same s _ (by decide), rfl⟩
  case lpddr =>
    have h8 : u % 256 ≠ 0 := by omega
    exact (exec_fence rfl h8).imp_right fun ho hord =>
      ⟨_, ho hord, s.fenceChannels_reg hu, State.afterChannelFence_host _ _⟩

end Sys2Proof.Machine
end

section
/-! SUPPORT. The registers of an engine (R32, R33) and what a cold start leaves in them (R46, R57). -/

namespace Sys2Proof.Machine

/-! ### Reading a register after one is written -/

section Registers
variable (c : Core)

theorem Core.getG_zero : c.getG 0 = 0 := if_pos rfl
theorem Core.getP_zero : c.getP 0 = 0xFFFFFFFFFFFFFFFF := if_pos rfl
theorem Core.setG_zero (v : Word64) : c.setG 0 v = c := if_pos rfl
theorem Core.setP_zero (v : Word64) : c.setP 0 v = c := if_pos rfl

theorem Core.getG_setG_same {d : BitVec 5} (v : Word64) (hd : d ≠ 0) : (c.setG d v).getG d = v := by
  rw [Core.getG, Core.setG, if_neg hd, if_neg hd, Sparse.get_set_same]

theorem Core.getG_setG_other {d e : BitVec 5} (v : Word64) (he : e ≠ d) : (c.setG d v).getG e = c.getG e := by
  have hn : e.toNat ≠ d.toNat := fun h => he (BitVec.eq_of_toNat_eq h)
  rw [Core.setG]
  split
  · rfl
  · rw [Core.getG, Core.getG, Sparse.get_set_other _ _ _ _ _ hn]

theorem Core.getP_setP_same {d : BitVec 3} (v : Word64) (hd : d ≠ 0) : (c.setP d v).getP d = v := by
  rw [Core.getP, Core.setP, if_neg hd, if_neg hd, Sparse.get_set_same]

theorem Core.getP_setP_other {d e : BitVec 3} (v : Word64) (he : e ≠ d) : (c.setP d v).getP e = c.getP e := by
  have hn : e.toNat ≠ d.toNat := fun h => he (BitVec.eq_of_toNat_eq h)
  rw [Core.setP]
  split
  · rfl
  · rw [Core.getP, Core.getP, Sparse.get_set_other _ _ _ _ _ hn]

theorem Core.getV_setV_other {d e : BitVec 5} (v : Vec) (he : e ≠ d) : (c.setV d v).getV e = c.getV e :=
  Sparse.get_set_other _ _ _ _ _ fun h => he (BitVec.eq_of_toNat_eq h)

end Registers

/-- Settles O15: a write of `g0` or `p0` leaves the engine as it is, and a write of any other register is read back (R33). -/
theorem hardwiredRegisters : Obligations.HardwiredRegisters := by
  intro c x
  refine ⟨c.getG_zero, c.getP_zero, c.setG_zero x, c.setP_zero x, fun d e hd => ?_, fun d e hd => ?_⟩
  · split
    case isTrue he => rw [he, c.getG_setG_same x hd]
    case isFalse he => exact c.getG_setG_other x he
  · split
    case isTrue he => rw [he, c.getP_setP_same x hd]
    case isFalse he => exact c.getP_setP_other x he

/-! ### After a cold start -/

/-- The table of engines after a cold start names the keepers' cores alone, which run (R497). -/
theorem State.core_reset (k : Nat) : ∃ run, State.reset.core k = { Core.cold with run := run } := by
  have h : State.reset.core k = Sparse.get Core.cold k coresCold := rfl
  simp only [h, coresCold, List.range_succ, List.range_zero, List.nil_append, List.cons_append, List.map_cons, List.map_nil, Sparse.get]
  split_ifs
  all_goals exact ⟨_, rfl⟩

/-- Settles O7: apart from whether it runs, every engine is as R46 and R57 give it. -/
theorem enginesAfterReset : Obligations.EnginesAfterReset := by
  intro k _ c
  obtain ⟨run, hc⟩ : ∃ run, c = { Core.cold with run := run } := State.core_reset k
  rw [hc]
  refine ⟨fun d => ?_, fun d => rfl, fun d => ?_, rfl, rfl, rfl, rfl, rfl, rfl, rfl, rfl, rfl, rfl, rfl, rfl, rfl, rfl, rfl⟩
  · exact ite_self _
  · rfl

end Sys2Proof.Machine
end

section
/-! SUPPORT. The barriers of a cluster (R45) and entry to exceptions and interrupts (R48 to R53). -/

namespace Sys2Proof.Machine

/-! ### A core that leaves a barrier -/

/-- An engine at its next instruction, waiting for nothing. -/
def Core.goneOn (c : Core) : Core := { c with pc := c.pc + 4, waiting := .issuing }

theorem State.atBarrier_iff {s : State} {k : Nat} {mask : BitVec 8} :
    s.atBarrier k mask = true ↔ ∃ since, (s.core k).waiting = .cbar mask since := by
  unfold State.atBarrier
  split
  case h_1 m since hw => simp [hw]
  case h_2 hw => simp only [Bool.false_eq_true, false_iff]; exact fun ⟨since, h⟩ => hw _ _ h

theorem State.leaveBarrier_hasNext {s : State} {k : Nat} (h : s.hasNext k = true) : s.leaveBarrier k = s.setCore k (s.core k).goneOn := by
  have hf : fetchable k ((s.core k).pc.toNat + 4) = true := h
  rw [Core.goneOn, ← State.advance_hasNext h, State.leaveBarrier, State.advance, State.jump, if_pos hf, if_pos hf]

/-- A pass over engines that changes each one named in the same way; the other engines, and the rest of the state, stay. -/
theorem State.foldl_setCore {op : State → Nat → State} {f : Core → Core} (p : Nat → Bool) {l : List Nat} (hl : l.Nodup) {s : State}
    (hop : ∀ (t : State) (j : Nat), j ∈ l → p j = true → t.core j = s.core j → op t j = t.setCore j (f (s.core j))) :
    let t := l.foldl (fun t j => if p j = true then op t j else t) s
    t = { s with cores := t.cores } ∧ ∀ j, t.core j = if j ∈ l ∧ p j = true then f (s.core j) else s.core j := by
  induction l generalizing s with
  | nil => exact ⟨rfl, fun j => by simp⟩
  | cons i l ih =>
    obtain ⟨hi, hl⟩ := List.nodup_cons.1 hl
    rw [List.foldl_cons]
    by_cases hp : p i = true
    · have hother : ∀ j, j ≠ i → (s.setCore i (f (s.core i))).core j = s.core j := fun j hj => s.core_setCore_other i j _ hj
      obtain ⟨honly, hcores⟩ := ih (s := s.setCore i (f (s.core i))) hl fun t j hj hpj ht => by
        rw [hother j fun h => hi (h ▸ hj)] at ht ⊢
        exact hop t j (List.mem_cons_of_mem i hj) hpj ht
      rw [if_pos hp, hop s i List.mem_cons_self hp rfl]
      refine ⟨honly, fun j => ?_⟩
      rw [hcores]
      by_cases hj : j = i
      · subst hj; simp [hi, hp]
      · simp [hj, hother j hj]
    · obtain ⟨honly, hcores⟩ := ih hl fun t j hj => hop t j (List.mem_cons_of_mem i hj)
      rw [if_neg hp]
      refine ⟨honly, fun j => ?_⟩
      rw [hcores]
      by_cases hj : j = i
      · subst hj; simp [hi, hp]
      · simp [hj]

theorem nodup_cluster (cl : Nat) : ((List.range 8).map (8 * cl + ·)).Nodup := List.nodup_range.map fun _ _ h => Nat.add_left_cancel h

/-! ### Settling barriers -/

theorem mem_cluster {cl j : Nat} : j ∈ (List.range 8).map (8 * cl + ·) ↔ j / 8 = cl := by
  simp only [List.mem_map, List.mem_range]
  exact ⟨fun ⟨n, hn, h⟩ => by omega, fun h => ⟨j % 8, by omega, by omega⟩⟩

theorem State.settleBarrier_full {s : State} {cl : Nat} {mask : BitVec 8} (hf : s.barrierFull cl mask = true)
    (hn : ∀ j, j / 8 = cl → s.atBarrier j mask = true → s.hasNext j = true) :
    let t := s.settleBarrier cl mask
    t = { s with cores := t.cores } ∧ ∀ j, t.core j = if j / 8 = cl ∧ s.atBarrier j mask = true then (s.core j).goneOn else s.core j := by
  have h := State.foldl_setCore (op := fun t j => t.leaveBarrier j) (f := Core.goneOn) (s := s) (s.atBarrier · mask) (nodup_cluster cl)
    fun t j hj hp ht => by
      rw [← ht]
      exact State.leaveBarrier_hasNext (by rw [State.hasNext, ht]; exact hn j (mem_cluster.1 hj) hp)
  simp only [mem_cluster, List.foldl_map] at h
  rw [State.settleBarrier, if_pos hf]
  exact h

theorem State.settleBarrier_notFull {s : State} {cl : Nat} {mask : BitVec 8} (hf : s.barrierFull cl mask = false) : s.settleBarrier cl mask = s :=
  if_neg (by simp [hf])

/-- Every core of a cluster that waits at a barrier has a next instruction. -/
def State.barriersHaveNext (s : State) (cl : Nat) : Prop :=
  ∀ j m since, j / 8 = cl → (s.core j).waiting = .cbar m since → s.hasNext j = true

/-- A core that waits at no barrier stays as it is when barriers of its cluster are settled. -/
theorem State.core_settleBarriers {s : State} {cl k : Nat} (hn : s.barriersHaveNext cl) (hk : ∀ m since, (s.core k).waiting ≠ .cbar m since) :
    (s.settleBarriers cl).core k = s.core k := by
  have hstep : ∀ t : State, t.core k = s.core k ∧ t.barriersHaveNext cl → ∀ m ∈ s.barrierMasks cl,
      (t.settleBarrier cl m).core k = s.core k ∧ (t.settleBarrier cl m).barriersHaveNext cl := by
    intro t ⟨htk, htn⟩ m _
    by_cases hf : t.barrierFull cl m = true
    · obtain ⟨-, hcores⟩ := State.settleBarrier_full hf fun j hj ha => (State.atBarrier_iff.1 ha).elim fun since => htn j m since hj
      have hkm : ¬ t.atBarrier k m = true := fun ha => (State.atBarrier_iff.1 ha).elim fun since h => hk m since (htk ▸ h)
      refine ⟨by rw [hcores, if_neg fun h => hkm h.2, htk], fun j m' since hj hw => ?_⟩
      rw [State.hasNext]
      rw [hcores] at hw ⊢
      split at hw
      · exact Waiting.noConfusion hw
      case isFalse hjm => rw [if_neg hjm]; exact htn j m' since hj hw
    · rw [State.settleBarrier_notFull (Bool.eq_false_iff.2 hf)]
      exact ⟨htk, htn⟩
  exact (List.foldlRecOn (s.barrierMasks cl) _ ⟨rfl, hn⟩ hstep).1

theorem State.barrierMasks_eq_nil_iff {s : State} {cl : Nat} :
    s.barrierMasks cl = [] ↔ ∀ j m since, j / 8 = cl → (s.core j).waiting ≠ .cbar m since := by
  simp only [State.barrierMasks, List.filterMap_eq_nil_iff, List.mem_range]
  constructor
  · intro h j m since hj hw
    have hmask := h (j % 8) (by omega)
    rw [show 8 * cl + j % 8 = j by omega, hw] at hmask
    exact Option.some_ne_none m hmask
  · intro h n hn
    split
    case h_1 m since hw => exact absurd hw (h (8 * cl + n) m since (by omega))
    case h_2 => rfl

/-- A cluster none of whose cores waits at a barrier has nothing to settle. -/
theorem State.settleCluster_clear {s : State} {k : Nat} (h : k < 96 → ∀ j m since, j / 8 = k / 8 → (s.core j).waiting ≠ .cbar m since) :
    s.settleCluster k = s := by
  unfold State.settleCluster
  split
  case isTrue hk => rw [State.settleBarriers, State.barrierMasks_eq_nil_iff.2 (h hk)]; rfl
  case isFalse => rfl

/-! ### Entry to a handler -/

/-- Engine `k` enters the handler of `cause`, and no core of its cluster waits for it at a barrier: it may wait at one itself. -/
def State.canEnter (s : State) (k cause : Nat) : Prop :=
  (s.core k).inExc = false ∧ (s.core k).vbase.toNat + 16 * cause < fetchLimit k ∧
    (k < 96 → ∀ j m since, j / 8 = k / 8 → j ≠ k → (s.core j).waiting ≠ .cbar m since)

theorem State.noBarrier_iff {s : State} {k : Nat} :
    s.noBarrier k = true ↔ (k < 96 → ∀ j m since, j / 8 = k / 8 → (s.core j).waiting ≠ .cbar m since) := by
  rw [State.noBarrier, Bool.or_eq_true, decide_eq_true_eq, List.isEmpty_iff, State.barrierMasks_eq_nil_iff, ← Nat.not_lt,
    ← imp_iff_not_or]

theorem State.canEnter_of_mayEnter {s : State} {k cause : Nat} (h : s.mayEnter k cause = true) : s.canEnter k cause := by
  simp only [State.mayEnter, Bool.and_eq_true, Bool.not_eq_true', decide_eq_true_eq, State.noBarrier_iff] at h
  obtain ⟨⟨hx, hv⟩, hb⟩ := h
  exact ⟨hx, hv, fun hk j m since hj _ => hb hk j m since hj⟩

/-- Of the engine only `IN_EXC` and `STC_VBASE` count, of the others what they wait for. -/
theorem State.canEnter_congr {s t : State} {k cause : Nat} (h : s.canEnter k cause) (hx : (t.core k).inExc = (s.core k).inExc)
    (hv : (t.core k).vbase = (s.core k).vbase) (ho : ∀ j, j ≠ k → t.core j = s.core j) : t.canEnter k cause := by
  obtain ⟨hsx, hsv, hsb⟩ := h
  exact ⟨hx.trans hsx, by rwa [hv], fun hk j m since hj hjk => by rw [ho j hjk]; exact hsb hk j m since hj hjk⟩

theorem State.canEnter_fetched {s : State} {k cause : Nat} (h : s.canEnter k cause) : (s.fetched k).canEnter k cause :=
  State.canEnter_congr h (by simp) (by simp) fun j _ => by simp

theorem State.enterException_handler {s : State} {k cause : Nat} (epc fault : Nat) (hx : (s.core k).inExc = false)
    (hv : (s.core k).vbase.toNat + 16 * cause < fetchLimit k) :
    s.enterException k cause epc fault = s.inHandler k cause (BitVec.ofNat 32 (epc % 0x40000 / 4 * 4)) (BitVec.ofNat 48 fault) := by
  simp only [State.enterException, hx, if_pos hv]
  rfl

/-- The pc, and `STC_EPC` with it, lies below 2^18 (R46). -/
theorem pc_toNat_mod (pc : BitVec 18) : pc.toNat % 0x40000 = pc.toNat := Nat.mod_eq_of_lt pc.isLt

@[simp] theorem State.core_inHandler_same (s : State) (k cause : Nat) (epc : Word32) (fault : BitVec 48) :
    (s.inHandler k cause epc fault).core k = { s.core k with
      epc := epc, cause := BitVec.ofNat 4 cause, causeArmed := false, faultAddr := fault, inExc := true, ie := false, waiting := .issuing,
      pc := BitVec.ofNat 18 ((s.core k).vbase.toNat + 16 * cause) } := s.core_setCore_same k _

theorem State.core_inHandler_other (s : State) {k j : Nat} (cause : Nat) (epc : Word32) (fault : BitVec 48) (h : j ≠ k) :
    (s.inHandler k cause epc fault).core j = s.core j := s.core_setCore_other k j _ h

/-- An engine in no handler enters one, and no other engine changes. -/
theorem State.takeException_inHandler {s : State} {k cause : Nat} (epc fault : Nat) (h : s.canEnter k cause) :
    s.takeException k cause epc fault = s.inHandler k cause (BitVec.ofNat 32 (epc % 0x40000 / 4 * 4)) (BitVec.ofNat 48 fault) := by
  obtain ⟨hx, hv, hb⟩ := h
  rw [State.takeException, State.enterException_handler epc fault hx hv]
  refine State.settleCluster_clear fun hk j m since hj => ?_
  by_cases hjk : j = k
  · rw [hjk, State.core_inHandler_same]; exact nofun
  · rw [State.core_inHandler_other s cause _ _ hjk]; exact hb hk j m since hj hjk

/-- A precise exception is taken at the instruction that meets it (R49). -/
theorem State.raise_inHandler {s : State} {k cause : Nat} (fault : Nat) (h : s.canEnter k cause) :
    s.raise k cause fault = s.inHandler k cause (BitVec.ofNat 32 ((s.core k).pc.toNat / 4 * 4)) (BitVec.ofNat 48 fault) := by
  rw [State.raise, State.takeException_inHandler _ _ h, pc_toNat_mod]

/-- The same after the fetch. -/
theorem State.raise_fetched {s : State} {k cause : Nat} (fault : Nat) (h : s.mayEnter k cause = true) :
    (s.fetched k).raise k cause fault =
      (s.fetched k).inHandler k cause (BitVec.ofNat 32 ((s.core k).pc.toNat / 4 * 4)) (BitVec.ofNat 48 fault) := by
  rw [State.raise_inHandler fault (State.canEnter_fetched (State.canEnter_of_mayEnter h)), State.core_fetched]

theorem fetchLimit_le (k : Nat) : fetchLimit k ≤ 0x40000 := by
  unfold fetchLimit; split <;> decide

/-- What entry writes and keeps (R51), also where barriers of the cluster are then settled. -/
theorem State.core_takeException {s : State} {k cause : Nat} (epc fault : Nat) (hx : (s.core k).inExc = false)
    (hv : (s.core k).vbase.toNat + 16 * cause < fetchLimit k)
    (hn : ∀ j m since, j / 8 = k / 8 → j ≠ k → (s.core j).waiting = .cbar m since → s.hasNext j = true) :
    (s.takeException k cause epc fault).core k =
      (s.inHandler k cause (BitVec.ofNat 32 (epc % 0x40000 / 4 * 4)) (BitVec.ofNat 48 fault)).core k := by
  rw [State.takeException, State.enterException_handler epc fault hx hv, State.settleCluster]
  split
  case isTrue =>
    refine State.core_settleBarriers (fun j m since hj hw => ?_) fun m since => ?_
    · have hjk : j ≠ k := fun h => by rw [h, State.core_inHandler_same] at hw; exact Waiting.noConfusion hw
      rw [State.core_inHandler_other s cause _ _ hjk] at hw
      rw [State.hasNext, State.core_inHandler_other s cause _ _ hjk]
      exact hn j m since hj hjk hw
    · rw [State.core_inHandler_same]; exact nofun
  case isFalse => rfl

/-! ### Going on at an address -/

theorem State.jump_fetchable {s : State} {k target : Nat} (h : fetchable k target = true) :
    s.jump k target = s.setCore k { s.core k with pc := BitVec.ofNat 18 target, waiting := .issuing } := if_pos h

theorem fetchable_lt {k target : Nat} (h : fetchable k target = true) : target < 2 ^ 18 := by
  simp only [fetchable, Bool.and_eq_true, decide_eq_true_eq] at h
  exact lt_of_lt_of_le h.2 (fetchLimit_le k)

/-- A new engine `k` on the state of the fetch changes nothing but that engine. -/
theorem State.onlyCore_setCore (s : State) (k : Nat) (c : Core) : s.onlyCore k ((s.fetched k).setCore k c) :=
  ⟨rfl, fun _ hj => State.core_setCore_other _ _ _ _ hj⟩

/-- Settles O22: entry is `State.inHandler` where the engine is in no handler, and `resume` goes to `STC_EPC` (R51). -/
theorem exceptionEntryAndReturn : Obligations.ExceptionEntryAndReturn := by
  refine ⟨fun s k cause epc fault hc hx hv hn => ?entry, fun s k h hx hf => ?back⟩
  case entry =>
    have hlt := lt_of_lt_of_le hv (fetchLimit_le k)
    intro c t h
    have ht : h = _ := State.core_takeException epc fault hx hv hn
    rw [State.core_inHandler_same] at ht
    rw [ht]
    refine ⟨?returnsTo, ?why, BitVec.toNat_ofNat .., rfl, rfl, rfl, rfl, rfl, ?goesTo, fun hb => ?alone⟩
    case returnsTo => exact Nat.mod_eq_of_lt (by omega)
    case why => exact Nat.mod_eq_of_lt hc
    case goesTo => exact Nat.mod_eq_of_lt hlt
    case alone =>
      have hcan : s.canEnter k cause := ⟨hx, hv, fun hk j m since hj _ => State.noBarrier_iff.1 hb hk j m since hj⟩
      have he : t = _ := State.takeException_inHandler epc fault hcan
      rw [he]
      exact ⟨rfl, fun j hj => State.core_inHandler_other s cause _ _ hj⟩
  case back =>
    have he : exec (.resume k) s = .next ((s.fetched k).setCore k
        { s.core k with inExc := false, ie := true, causeArmed := true, pc := BitVec.ofNat 18 (s.core k).epc.toNat, waiting := .issuing }) := by
      show execResume k s = _
      rw [execResume, State.instr_executes _ h]
      simp only [State.core_fetched, hx, not_true_eq_false, if_false, State.modCore]
      rw [State.jump_fetchable hf, State.core_setCore_same, State.setCore_setCore]
    refine ⟨_, he, s.onlyCore_setCore k _, ?_⟩
    rw [State.core_setCore_same]
    exact ⟨rfl, rfl, Nat.mod_eq_of_lt (fetchable_lt hf), rfl, rfl, rfl⟩

end Sys2Proof.Machine
end

section
/-! SUPPORT. Every instruction of the engines runs in one frame (R36, R66, R87), and those that only compute on registers write one register
and go on (R68, R69, R76 to R80). -/

namespace Sys2Proof.Machine

/-! ### The frame that every instruction runs in -/

/-- An instruction that only computes gives a value to the register it names and goes on. -/
inductive Dest.Retires (k : Nat) : Dest → (State → State) → Prop where
  | g (d : BitVec 5) (v : State → Word64) : Retires k (.g d) fun s => s.retireG k d (v s)
  | v (d : BitVec 5) (v : State → Vec) : Retires k (.v d) fun s => s.retireV k d (v s)
  | p (d : BitVec 3) (v : State → Word64) : Retires k (.p d) fun s => s.retireP k d (v s)

/-- An instruction that only computes on registers, as `regForm` names it. -/
theorem exec_regForm {i : Instr} {f : EngineForm} {dest : Dest} (h : regForm i = some (f, dest)) :
    ∃ body, dest.Retires f.engine body ∧ ∀ s, exec i s = .next (s.instr f.engine f.group f.gs f.vs body) := by
  cases i <;> cases h
  all_goals
    refine ⟨_, ?_, fun _ => rfl⟩
    constructor

/-- Every instruction of an engine does what it does in the frame that `engineForm` names. -/
theorem exec_engineForm {i : Instr} {f : EngineForm} (h : engineForm i = some f) :
    ∃ body, ∀ s, exec i s = .next (s.instr f.engine f.group f.gs f.vs body) := by
  cases i <;> cases h
  all_goals exact ⟨_, fun _ => rfl⟩

/-- Settles O24: the frame does nothing for an engine that does not issue (R40, R82, R590). -/
theorem instructionsWaitToIssue : Obligations.InstructionsWaitToIssue := by
  intro i f s hf hi
  obtain ⟨body, he⟩ := exec_engineForm hf
  rw [he, State.instr_waits body hi]

/-- An engine that lacks the instruction's group takes ILLEGAL_INSTRUCTION after the fetch (R66, R87). -/
theorem State.instr_lacks {s : State} {k : Nat} {g : InstrGroup} {gs vs : List (BitVec 5)} (body : State → State)
    (hi : s.issues k gs vs = true) (hd : s.fetchDamaged k = false) (hl : lacks k g = true) :
    s.instr k g gs vs body = (s.fetched k).raise k causeIllegal 0 := by
  simp [State.instr, State.fetched, hi, hd, hl]

/-- INTERRUPT is taken where an engine that issues has it due and its watchdog does not expire (R52). -/
theorem State.takeInterrupt_inHandler {s : State} {k : Nat} (hr : (s.core k).run = .running) (hw : (s.core k).waiting = .issuing)
    (hp : (s.core k).irqPend &&& (s.core k).irqMask ≠ 0) (hi : (s.core k).ie = true) (hd : s.wdogDue k = false)
    (hc : s.canEnter k causeInterrupt) :
    s.takeInterrupt k = s.inHandler k causeInterrupt (BitVec.ofNat 32 ((s.core k).pc.toNat / 4 * 4)) 0 := by
  obtain ⟨hx, -⟩ := id hc
  have hdue : (s.core k).interruptDue = true := by simpa [Core.interruptDue, Core.irqCommon, hi, hx] using hp
  simp only [State.takeInterrupt, hr, hw, hdue, hd, beq_self_eq_true, Bool.not_false, Bool.and_self, if_true]
  rw [State.takeException_inHandler _ _ hc, pc_toNat_mod]
  rfl

/-- Settles O23: each exception is raised after the fetch, and an interrupt is taken in place of it (R49, R52, R66, R84, R87). -/
theorem trapsAndInterrupts : Obligations.TrapsAndInterrupts := by
  intro s k c here
  refine ⟨fun imm h hm => ?trap, fun hr hw hp hi hd hm => ?interrupt,
    fun hm => ⟨fun w h hw => ?word, fun i f hf hk hi hd hl => ?lacked, fun h hx => ?resume⟩⟩
  case trap =>
    show execTrap k imm s = _
    rw [execTrap, State.instr_executes _ h, State.raise_fetched (cause := causeTrap) _ hm, BitVec.ofNat_toNat]
    rfl
  case interrupt =>
    exact congrArg Host.Outcome.next (State.takeInterrupt_inHandler hr hw hp hi hd (State.canEnter_of_mayEnter hm))
  case word =>
    have hill : isIllegal k w = true := by simpa [isIllegal] using hw
    show execIllegalInstruction k w s = _
    rw [execIllegalInstruction, if_pos hill, State.instr_executes _ h]
    exact congrArg _ (State.raise_fetched (cause := causeIllegal) 0 hm)
  case lacked =>
    subst hk
    obtain ⟨body, he⟩ := exec_engineForm hf
    rw [he, State.instr_lacks body hi hd hl]
    exact congrArg _ (State.raise_fetched (cause := causeIllegal) 0 hm)
  case resume =>
    have hnot : ¬ ((s.fetched k).core k).inExc = true := by rw [State.core_fetched]; exact Bool.eq_false_iff.1 hx
    show execResume k s = _
    rw [execResume, State.instr_executes _ h, if_pos hnot]
    exact congrArg _ (State.raise_fetched (cause := causeIllegal) 0 hm)

/-! ### What a write of a register leaves alone -/

/-- Engine `d` is engine `c` with no register changed but the one named, and that register no longer awaited. -/
def Core.writesOnly (dest : Dest) (c d : Core) : Prop :=
  c.sameControl d ∧ d.pc = c.pc ∧ d.waiting = c.waiting ∧ (∀ r, dest ≠ .g r → d.getG r = c.getG r) ∧
    (∀ r, dest ≠ .v r → d.getV r = c.getV r) ∧ (∀ r, dest ≠ .p r → d.getP r = c.getP r)

section Writes
variable (c : Core)

theorem Core.claimG_loads_place (d : BitVec 5) : (c.claimG d).loads.map Load.place = c.loads.map Load.place := by
  simp only [Core.claimG, List.map_map]
  refine List.map_congr_left fun l _ => ?_
  simp only [Function.comp]
  split <;> rfl

theorem Core.claimG_enqs_place (d : BitVec 5) : (c.claimG d).enqs.map EnqOwed.place = c.enqs.map EnqOwed.place := by
  simp only [Core.claimG, List.map_map]
  refine List.map_congr_left fun e _ => ?_
  simp only [Function.comp]
  split <;> rfl

theorem Core.claimV_loads_place (d : BitVec 5) : (c.claimV d).loads.map Load.place = c.loads.map Load.place := by
  simp only [Core.claimV, List.map_map]
  refine List.map_congr_left fun l _ => ?_
  simp only [Function.comp]
  split <;> rfl

theorem Core.putG_eq (d : BitVec 5) (v : Word64) : ∃ g, c.putG d v = { c.claimG d with g := g } := by
  rw [Core.putG, Core.setG]
  split <;> exact ⟨_, rfl⟩

theorem Core.setP_eq (d : BitVec 3) (v : Word64) : ∃ p, c.setP d v = { c with p := p } := by
  rw [Core.setP]
  split <;> exact ⟨_, rfl⟩

theorem Core.putG_writesOnly (d : BitVec 5) (v : Word64) : c.writesOnly (.g d) (c.putG d v) := by
  have hother : ∀ r, Dest.g d ≠ .g r → (c.putG d v).getG r = c.getG r := fun r hr =>
    Core.getG_setG_other _ v fun h => hr (congrArg Dest.g h.symm)
  obtain ⟨g, hg⟩ := c.putG_eq d v
  rw [hg] at hother ⊢
  exact ⟨⟨rfl, c.claimG_loads_place d, c.claimG_enqs_place d⟩, rfl, rfl, hother, fun _ _ => rfl, fun _ _ => rfl⟩

theorem Core.putV_writesOnly (d : BitVec 5) (v : Vec) : c.writesOnly (.v d) (c.putV d v) :=
  ⟨⟨rfl, c.claimV_loads_place d, rfl⟩, rfl, rfl, fun _ _ => rfl,
    fun _ hr => Core.getV_setV_other _ v fun h => hr (congrArg Dest.v h.symm), fun _ _ => rfl⟩

theorem Core.setP_writesOnly (d : BitVec 3) (v : Word64) : c.writesOnly (.p d) (c.setP d v) := by
  have hother : ∀ r, Dest.p d ≠ .p r → (c.setP d v).getP r = c.getP r := fun r hr =>
    Core.getP_setP_other _ v fun h => hr (congrArg Dest.p h.symm)
  obtain ⟨p, hp⟩ := c.setP_eq d v
  rw [hp] at hother ⊢
  exact ⟨⟨rfl, rfl, rfl⟩, rfl, rfl, fun _ _ => rfl, fun _ _ => rfl, hother⟩

end Writes

/-! ### The frame of an instruction that only computes -/

/-- The engine goes on at the next instruction with no register changed but the one named. -/
theorem Dest.Retires.retired {dest : Dest} {k : Nat} {body : State → State} (h : dest.Retires k body) {s : State} (hn : s.hasNext k = true)
    (hw : (s.core k).waiting = .issuing) :
    ∃ put, body (s.fetched k) = s.retired k put ∧ (s.core k).writesOnly dest (put (s.core k)) := by
  cases h with
  | g d v => exact ⟨_, State.retireG_retired d _ hn hw, Core.putG_writesOnly _ d _⟩
  | v d v => exact ⟨_, State.retireV_retired d _ hn hw, Core.putV_writesOnly _ d _⟩
  | p d v => exact ⟨_, State.retireP_retired d _ hn hw, Core.setP_writesOnly _ d _⟩

theorem State.byte_congr {s t : State} (h : t.mem = s.mem) (a : Nat) : t.byte a = s.byte a := by simp only [State.byte, h]

@[simp] theorem State.fetched_mem (s : State) (k : Nat) : (s.fetched k).mem = s.mem := by rw [State.fetched_only]

/-- Settles O14: such an instruction writes one register of the engine that executes it and moves its pc. -/
theorem registerInstructionFrame : Obligations.RegisterInstructionFrame := by
  intro i f dest s t hf h hn ht c r
  obtain ⟨body, hbody, he⟩ := exec_regForm hf
  obtain ⟨put, hput, hcontrol, hpc, -, hg, hv, hp⟩ := hbody.retired hn (State.executes_issuing h).1
  have hnext : t = s.retired f.engine put := by
    rw [he, State.instr_executes body h, hput] at ht
    injection ht with ht
    exact ht.symm
  have hr : r = { put c with pc := c.pc + 4 } := by
    show t.core f.engine = _
    rw [hnext]
    exact State.core_setCore_same _ _ _
  rw [hr, hnext]
  obtain ⟨hsame, hloads, henqs⟩ := hcontrol
  refine ⟨s.onlyCore_setCore f.engine _, ⟨?_, hloads, henqs⟩, rfl, hg, hv, hp, State.byte_congr (s.fetched_mem f.engine)⟩
  conv_lhs => rw [hsame]

end Sys2Proof.Machine
end

section
/-! SUPPORT. Loads, stores and atomic operations at addresses that are no multiple of their size (R37), and those that reach the engine's own
memory (R36, R39, R70, R71). -/

namespace Sys2Proof.Machine

/-! ### Misaligned accesses (R37) -/

section Misaligned
variable {s : State} {k : Nat} (hm : s.mayEnter k 3 = true)
include hm

/-- MISALIGNED is taken at the instruction, with the address. -/
theorem State.raise_misaligned (x : Nat) : (s.fetched k).raise k causeMisaligned (faultAddr x) =
    (s.fetched k).inHandler k 3 (BitVec.ofNat 32 ((s.core k).pc.toNat / 4 * 4)) (BitVec.ofNat 48 x) := by
  have hx : BitVec.ofNat 48 (faultAddr x) = BitVec.ofNat 48 x := BitVec.eq_of_toNat_eq (by simp [faultAddr])
  rw [State.raise_fetched (cause := causeMisaligned) _ hm, hx]
  rfl

theorem State.load_misaligned (vec : Bool) (d : BitVec 5) {n x : Nat} (signed : Bool) (hx : x % n ≠ 0) :
    (s.fetched k).load k vec d n signed x =
      (s.fetched k).inHandler k 3 (BitVec.ofNat 32 ((s.core k).pc.toNat / 4 * 4)) (BitVec.ofNat 48 x) := by
  rw [State.load, if_pos hx, State.raise_misaligned hm]

theorem State.store_misaligned {bs : List (Bool × Byte)} {x : Nat} (hx : x % bs.length ≠ 0) :
    (s.fetched k).store k x bs =
      (s.fetched k).inHandler k 3 (BitVec.ofNat 32 ((s.core k).pc.toNat / 4 * 4)) (BitVec.ofNat 48 x) := by
  rw [State.store, if_pos hx, State.raise_misaligned hm]

theorem State.atomic_misaligned {reads : List (BitVec 5)} (d a : BitVec 5) (f : Core → Word64 → Word64)
    (h : s.executes k .base reads [] = true) (hx : ((s.core k).getG a).toNat % 8 ≠ 0) :
    s.atomic k reads d a f = (s.fetched k).inHandler k 3 (BitVec.ofNat 32 ((s.core k).pc.toNat / 4 * 4))
      (BitVec.ofNat 48 ((s.core k).getG a).toNat) := by
  rw [State.atomic, State.instr_executes _ h]
  simp only [State.core_fetched, if_pos hx]
  exact State.raise_misaligned hm _

end Misaligned

theorem lowBytes_length (n v : Nat) : (lowBytes n v).length = n := by rw [lowBytes, List.length_map, leBytes_length]
theorem maskedLanes_length (v : Vec) (p : Word64) : (maskedLanes v p).length = 64 := by
  rw [maskedLanes, List.length_map, List.length_zipIdx, leBytes_length]

section Executes
variable {s : State} {k : Nat}

/-- A scalar load runs on the state of the fetch. -/
theorem State.loadG_executes (d : BitVec 5) {a : BitVec 5} (imm : BitVec 16) (n : Nat) (signed : Bool)
    (h : s.executes k .base [a] [] = true) :
    s.loadG k d a imm n signed = (s.fetched k).load k false d n signed ((s.core k).dataAddr a imm) := by
  rw [State.loadG, State.instr_executes _ h, State.core_fetched]

theorem exec_vld (d : BitVec 5) {a : BitVec 5} (imm : BitVec 16) (h : s.executes k .vector [a] [] = true) :
    exec (.vld k d a imm) s = .next ((s.fetched k).load k true d 64 false ((s.core k).dataAddr a imm)) := by
  show execVld k d a imm s = _
  rw [execVld, State.instr_executes _ h, State.core_fetched]

/-- A scalar store runs on the state of the fetch. -/
theorem State.storeG_executes {d a : BitVec 5} (imm : BitVec 16) (n : Nat) (h : s.executes k .base [d, a] [] = true) :
    s.storeG k d a imm n = (s.fetched k).store k ((s.core k).dataAddr a imm) (lowBytes n ((s.core k).getG d).toNat) := by
  rw [State.storeG, State.instr_executes _ h, State.core_fetched]

theorem exec_vst {d a : BitVec 5} (imm : BitVec 16) (h : s.executes k .vector [a] [d] = true) :
    exec (.vst k d a imm) s = .next ((s.fetched k).store k ((s.core k).dataAddr a imm) (lowBytes 64 ((s.core k).getV d).toNat)) := by
  show execVst k d a imm s = _
  rw [execVst, State.instr_executes _ h, State.core_fetched]

theorem exec_vstM {d a : BitVec 5} {p : BitVec 3} (h : s.executes k .vector [a] [d] = true) (hp : (s.core k).getP p ≠ 0) :
    exec (.vstM k d a p) s = .next ((s.fetched k).store k ((s.core k).getG a).toNat
      (maskedLanes ((s.core k).getV d) ((s.core k).getP p))) := by
  show execVstM k d a p s = _
  rw [execVstM, State.instr_executes _ h]
  simp only [State.core_fetched, if_neg hp]

/-- After the fetch the next instruction, with nothing done. -/
theorem State.advance_fetched (hn : s.hasNext k = true) (hw : (s.core k).waiting = .issuing) : (s.fetched k).advance k = s.retired k id := by
  rw [State.advance_goesOn rfl hn hw, State.goesOn, State.retired, State.core_fetched]

/-- A store that selects no lane accesses nothing (R71). -/
theorem exec_vstM_none {d a : BitVec 5} {p : BitVec 3} (h : s.executes k .vector [a] [d] = true) (hn : s.hasNext k = true)
    (hp : (s.core k).getP p = 0) : exec (.vstM k d a p) s = .next (s.retired k id) := by
  show execVstM k d a p s = _
  rw [execVstM, State.instr_executes _ h]
  simp only [State.core_fetched, if_pos hp, State.advance_fetched hn (State.executes_issuing h).1]

end Executes

/-- Settles O21: each access checks its address before anything else (R37). -/
theorem misalignedAccess : Obligations.MisalignedAccess := by
  intro s k d a b imm p hm c base traps
  have hload {n : Nat} (signed : Bool) (h : s.executes k .base [a] [] = true) (hx : base % n ≠ 0) :
      traps base (.next (s.loadG k d a imm n signed)) := by
    rw [State.loadG_executes d imm n signed h]
    exact congrArg _ (State.load_misaligned hm false d signed hx)
  have hstore {n : Nat} (h : s.executes k .base [d, a] [] = true) (hx : base % n ≠ 0) : traps base (.next (s.storeG k d a imm n)) := by
    rw [State.storeG_executes imm n h]
    exact congrArg _ (State.store_misaligned hm (by rw [lowBytes_length]; exact hx))
  refine ⟨fun h => ⟨fun hx => ⟨hload false h hx, hload true h hx⟩, fun hx => ⟨hload false h hx, hload true h hx⟩, hload false h⟩,
    fun h => ⟨hstore h, hstore h, hstore h⟩, fun h hx => ?vld, fun h => ⟨fun hx => ?vst, fun hx hp => ?vstM⟩,
    fun hx => ⟨fun h => ⟨?atomAdd, ?atomSwap⟩, fun h => ?atomCas⟩⟩
  case vld => exact (exec_vld d imm h).trans (congrArg _ (State.load_misaligned hm true d false hx))
  case vst => exact (exec_vst imm h).trans (congrArg _ (State.store_misaligned hm (by rw [lowBytes_length]; exact hx)))
  case vstM => exact (exec_vstM h hp).trans (congrArg _ (State.store_misaligned hm (by rw [maskedLanes_length]; exact hx)))
  all_goals exact congrArg _ (State.atomic_misaligned hm d a _ h hx)

/-! ### What the fetch leaves of memory -/

theorem State.bytes_congr {s t : State} (h : t.mem = s.mem) (a n : Nat) : t.bytes a n = s.bytes a n := by
  induction n generalizing a with
  | zero => rfl
  | succ n ih => rw [State.bytes, State.bytes, State.byte_congr h, ih]

@[simp] theorem State.fetched_byte (s : State) (k a : Nat) : (s.fetched k).byte a = s.byte a := State.byte_congr (s.fetched_mem k) a
@[simp] theorem State.fetched_bytes (s : State) (k a n : Nat) : (s.fetched k).bytes a n = s.bytes a n := State.bytes_congr (s.fetched_mem k) a n
@[simp] theorem State.fetched_touchesDamage (s : State) (k a n : Nat) : (s.fetched k).touchesDamage a n = s.touchesDamage a n := by
  rw [State.fetched_only]; rfl
@[simp] theorem State.fetched_mergesDamage (s : State) (k a : Nat) (en : List Bool) :
    (s.fetched k).mergesDamage a en = s.mergesDamage a en := by rw [State.fetched_only]; rfl
@[simp] theorem State.fetched_elapsed (s : State) (k : Nat) : (s.fetched k).elapsed = s.elapsed := by rw [State.fetched_only]
@[simp] theorem State.fetched_units (s : State) (k : Nat) : (s.fetched k).units = s.units := by rw [State.fetched_only]

theorem State.core_congr {s t : State} (h : t.cores = s.cores) (j : Nat) : t.core j = s.core j := by simp only [State.core, h]

/-! ### Loads from the engine's own memory (R36, R70) -/

theorem Core.takeLoad_pc (l : Load) (v : Vec) (c : Core) : (c.takeLoad l v).pc = c.pc := by
  unfold Core.takeLoad
  split
  · rfl
  · exact Core.setG_pc ..

theorem Core.takeLoad_waiting (l : Load) (v : Vec) (c : Core) : (c.takeLoad l v).waiting = c.waiting := by
  unfold Core.takeLoad
  split
  · rfl
  · exact Core.setG_waiting ..

theorem Core.claim_pc (l : Load) (c : Core) : (c.claim l).pc = c.pc := by unfold Core.claim; split <;> rfl
theorem Core.claim_waiting (l : Load) (c : Core) : (c.claim l).waiting = c.waiting := by unfold Core.claim; split <;> rfl

theorem ofLe_lt (bs : List Byte) : ofLe bs < 2 ^ (8 * bs.length) := by
  induction bs with
  | nil => simp [ofLe]
  | cons b t ih =>
    have hb := b.isLt
    simp only [ofLe, List.length_cons, Nat.mul_succ, pow_add]
    omega

theorem State.ofLe_bytes_lt (s : State) (a n : Nat) : ofLe (s.bytes a n) < 2 ^ (8 * n) := by
  simpa [State.bytes_length] using ofLe_lt (s.bytes a n)

/-- The two's complement value of `w` bits, as the sign extension of a load gives it (R70). -/
theorem ofInt_signedOf {w : Nat} (hw : 0 < w) (x : Nat) : BitVec.ofInt 64 (signedOf w x) = (BitVec.ofNat w x).signExtend 64 := by
  obtain ⟨m, rfl⟩ : ∃ m, w = m + 1 := ⟨w - 1, by omega⟩
  have htwo : (2 : Nat) ^ (m + 1) = 2 * 2 ^ m := by rw [pow_succ]; omega
  have hint : (BitVec.ofNat (m + 1) x).toInt = signedOf (m + 1) x := by
    rw [BitVec.toInt_eq_toNat_cond, BitVec.toNat_ofNat, signedOf, Nat.add_sub_cancel]
    split <;> split <;> omega
  rw [BitVec.signExtend, hint]

/-- The load that `State.load` makes of its operands, before any answer. -/
def Load.asked (vec : Bool) (d : BitVec 5) (n : Nat) (signed : Bool) (x : Nat) : Load :=
  { vector := vec, reg := d, size := n, signed := signed, atomic := false, addr := BitVec.ofNat 64 x, result := .host }

/-- A general register that a load of no more than 8 bytes fills. -/
theorem Core.takeLoad_scalar (d : BitVec 5) {n y : Nat} (signed : Bool) (x : Nat) (hn : n ≤ 8) (hy : y < 2 ^ (8 * n)) (c : Core) :
    (c.claim (.asked false d n signed x)).takeLoad (.asked false d n signed x) (BitVec.ofNat 512 y) =
      c.putG d (if signed then (BitVec.ofInt 64 (signedOf (8 * n) y)) else BitVec.ofNat 64 y) := by
  have hle : 8 * n ≤ 512 := by omega
  have hvec : (BitVec.ofNat 512 y).toNat = y := by
    rw [BitVec.toNat_ofNat, Nat.mod_eq_of_lt (hy.trans_le (Nat.pow_le_pow_right Nat.two_pos hle))]
  simp only [Core.takeLoad, Core.claim, Core.putG, Load.asked, Bool.false_eq_true, if_false, hvec, Nat.mod_eq_of_lt hy]

theorem Core.takeLoad_vector (d : BitVec 5) (n x : Nat) (v : Vec) (c : Core) :
    (c.claim (.asked true d n false x)).takeLoad (.asked true d n false x) v = c.putV d v := rfl

section OwnLoad
variable {s : State} {k key n x : Nat} (hn : s.hasNext k = true) (hw : (s.core k).waiting = .issuing) (hx : x % n = 0)
  (hr : reachOf k x n = .own key) (hd : s.touchesDamage key n = false)
include hn hw hx hr hd

/-- A load from the engine's own memory takes its bytes at once, and the engine goes on. -/
theorem State.load_own (vec : Bool) (d : BitVec 5) (signed : Bool) :
    (s.fetched k).load k vec d n signed x = ((s.fetched k).correct key n).goesOn k fun c =>
      (c.claim (.asked vec d n signed x)).takeLoad (.asked vec d n signed x) (BitVec.ofNat 512 (ofLe (s.bytes key n))) := by
  rw [State.load, if_neg (not_not.2 hx)]
  simp only [hr, State.fetched_touchesDamage, hd, Bool.false_eq_true, if_false, State.fetched_bytes]
  exact State.modCore_advance_goesOn (State.correct_cores _ key n) _ hn (by rw [Core.takeLoad_pc, Core.claim_pc])
    (by rw [Core.takeLoad_waiting, Core.claim_waiting, hw])

theorem State.load_own_scalar (d : BitVec 5) (signed : Bool) (h8 : n ≤ 8) :
    (s.fetched k).load k false d n signed x = ((s.fetched k).correct key n).goesOn k (Core.putG d
      (if signed then (BitVec.ofInt 64 (signedOf (8 * n) (ofLe (s.bytes key n)))) else BitVec.ofNat 64 (ofLe (s.bytes key n)))) := by
  rw [State.load_own hn hw hx hr hd, funext (Core.takeLoad_scalar d signed x h8 (s.ofLe_bytes_lt key n))]

theorem State.load_own_vector (d : BitVec 5) :
    (s.fetched k).load k true d n false x =
      ((s.fetched k).correct key n).goesOn k (Core.putV d (BitVec.ofNat 512 (ofLe (s.bytes key n)))) := by
  rw [State.load_own hn hw hx hr hd, funext (Core.takeLoad_vector d n x _)]

end OwnLoad

/-! ### Counting corrected errors (R39) -/

theorem satAt_eq_min (m v : Nat) : satAt m v = min v m := Nat.min_def.symm

theorem State.correct_sound {s : State} {a n : Nat} (h : s.touchesWeak a n = false) : s.correct a n = s := if_neg (by simp [h])

/-- A corrected error in a cluster's memory adds one to the cluster's count, which saturates, and changes no other register. -/
theorem State.correct_weak {s : State} {a n c : Nat} (h : s.touchesWeak a n = true) (hl : 2 ^ 35 * s.lpdChannels ≤ a) (hb : sramBase ≤ a)
    (he : a < sramBase + 0xB800000) (hc : sramCluster (a - sramBase) = some c) :
    (s.correct a n).reg (rStcClEcc c) % 2 ^ 16 = min 0xFFFF (s.reg (rStcClEcc c) % 2 ^ 16 + 1) ∧
      (s.correct a n).reg (rStcClEcc c) / 2 ^ 16 = s.reg (rStcClEcc c) / 2 ^ 16 ∧
      ∀ r, r ≠ rStcClEcc c → (s.correct a n).reg r = s.reg r := by
  have hset : s.correct a n = s.setReg (rStcClEcc c)
      (putBits (s.reg (rStcClEcc c)) 15 0 (satAt 0xFFFF (bitsOf (s.reg (rStcClEcc c)) 15 0 + 1))) := by
    rw [State.correct, if_pos h, State.countCorrected, if_neg (Nat.not_lt.2 hl), if_pos ⟨hb, he⟩, hc]
  have hlt := s.reg_lt (rStcClEcc c)
  rw [hset, State.reg_setReg, if_pos rfl]
  refine ⟨?_, ?_, fun r hr => State.reg_setReg_other s _ hr⟩
  all_goals
    simp only [putBits, bitsOf, satAt_eq_min, Nat.shiftRight_zero, Nat.shiftLeft_zero, Nat.reduceAdd, Nat.reduceSub]
    omega

/-- Settles O18: a load that its own memory answers takes the bytes there, and a corrected error is counted (R36, R39, R70). -/
theorem ownLoadResults : Obligations.OwnLoadResults := by
  intro s k d a imm key hn at_ x good gives
  have hload {n : Nat} (signed : Bool) (h8 : n ≤ 8) (h : s.executes k .base [a] [] = true) (hg : good n) :
      Host.Outcome.next (s.loadG k d a imm n signed) =
        gives n (if signed then (BitVec.ofInt 64 (signedOf (8 * n) (x n))) else BitVec.ofNat 64 (x n)) := by
    obtain ⟨ha, hr, hd⟩ := hg
    rw [State.loadG_executes d imm n signed h]
    exact congrArg _ (State.load_own_scalar hn (State.executes_issuing h).1 ha hr hd d signed h8)
  have hsigned {n : Nat} (h0 : 0 < n) (h8 : n ≤ 8) (h : s.executes k .base [a] [] = true) (hg : good n) :
      Host.Outcome.next (s.loadG k d a imm n true) = gives n ((BitVec.ofNat (8 * n) (x n)).signExtend 64) := by
    rw [hload true h8 h hg, if_pos rfl, ofInt_signedOf (by omega)]
  refine ⟨fun h => ⟨fun hg => ⟨hload false (by decide) h hg, hsigned (by decide) (by decide) h hg⟩,
      fun hg => ⟨hload false (by decide) h hg, hsigned (by decide) (by decide) h hg⟩,
      fun hg => ⟨hload false (by decide) h hg, hsigned (by decide) (by decide) h hg⟩, hload false (by decide) h⟩,
    fun h hg => ?vector, fun n hw => State.correct_sound hw, fun n c hw hl hb he hc => State.correct_weak hw hl hb he hc⟩
  case vector =>
    obtain ⟨ha, hr, hd⟩ := hg
    exact (exec_vld d imm h).trans (congrArg _ (State.load_own_vector hn (State.executes_issuing h).1 ha hr hd d))

end Sys2Proof.Machine
end

section
/-! SUPPORT. Stores to the engine's own memory, byte by byte (R36, R39, R70, R71). -/

namespace Sys2Proof.Machine

/-! ### The bytes of a store -/

theorem leBytes_eq_map {w : Nat} (v : BitVec w) (n : Nat) : leBytes n v.toNat = (List.range n).map fun i => v.extractLsb' (8 * i) 8 := by
  refine List.ext_getElem (by simp [leBytes_length]) fun i hi _ => BitVec.eq_of_toNat_eq ?_
  have hn : i < n := by simpa [leBytes_length] using hi
  rw [← List.getD_eq_getElem _ 0 hi, leBytes_getD n _ i hn]
  simp [Nat.shiftRight_eq_div_pow]

theorem lowBytes_eq_map {w : Nat} (v : BitVec w) (n : Nat) :
    lowBytes n v.toNat = (List.range n).map fun i => (true, v.extractLsb' (8 * i) 8) := by
  rw [lowBytes, leBytes_eq_map, List.map_map]
  rfl

theorem maskedLanes_eq_map (v : Vec) (p : Word64) :
    maskedLanes v p = (List.range 64).map fun i => (p.getLsbD i, v.extractLsb' (8 * i) 8) := by
  rw [maskedLanes, leBytes_eq_map]
  exact List.ext_getElem (by simp) fun i _ _ => by simp

/-! ### Writing -/

section Write
variable (s : State) (a : Nat) (l : List (Bool × Byte))

theorem State.performWrite_cores : (s.performWrite a l).cores = s.cores := by rw [State.performWrite_only]
theorem State.performWrite_units : (s.performWrite a l).units = s.units := by rw [State.performWrite_only]

/-- Of the registers a write changes only what a merge counts (R39). -/
theorem State.performWrite_regs : (s.performWrite a l).regs = (s.correctMerge a (l.map (·.1))).regs := by
  rw [State.performWrite, State.putMasked_only]
  rfl

end Write

theorem wordCover_none {en : List Bool} (h : ∀ b ∈ en, b = false) (a w : Nat) : (wordCover a en w).any id = false := by
  have hhead (n : Nat) : (en.drop n).headD false = false := by
    cases hd : en.drop n with
    | nil => rfl
    | cons b t => exact h b (List.mem_of_mem_drop (hd ▸ List.mem_cons_self))
  simp only [wordCover, hhead, Bool.and_false, List.any_map, List.any_eq_false]
  exact fun _ _ => Bool.false_ne_true

/-- A write of no byte merges into no word. -/
theorem State.correctMerge_none (s : State) (a : Nat) {en : List Bool} (h : ∀ b ∈ en, b = false) : s.correctMerge a en = s := by
  refine if_neg ?_
  simp only [State.mergesWeak, wordCover_none h, Bool.and_false, Bool.false_and, List.any_eq_true, not_exists]
  exact fun _ hw => Bool.false_ne_true hw.2

section OwnStore
variable {s : State} {k key x : Nat} (hn : s.hasNext k = true) (hw : (s.core k).waiting = .issuing)
include hn hw

/-- A store to the engine's own memory writes its bytes at once, and the engine goes on. -/
theorem State.store_own {bs : List (Bool × Byte)} (hx : x % bs.length = 0) (hr : reachOf k x bs.length = .own key)
    (hrom : inRom k key = false) (hd : s.mergesDamage key (bs.map (·.1)) = false) :
    (s.fetched k).store k x bs = ((s.fetched k).performWrite key bs).goesOn k id := by
  rw [State.store, if_neg (not_not.2 hx)]
  simp only [hr, hrom, State.fetched_mergesDamage, hd, Bool.false_eq_true, if_false]
  exact State.advance_goesOn (State.performWrite_cores _ key bs) hn hw

/-- The bytes `v i` for which `en i` holds are put there, and what stays the same. -/
theorem State.store_own_results {n : Nat} {en : Nat → Bool} {v : Nat → Byte} (hx : x % n = 0) (hr : reachOf k x n = .own key)
    (hrom : inRom k key = false) (hd : s.mergesDamage key ((List.range n).map en) = false) :
    let t := (s.fetched k).store k x ((List.range n).map fun i => (en i, v i))
    t.cores = (s.retired k id).cores ∧ t.regs = ((s.fetched k).correctMerge key ((List.range n).map en)).regs ∧ t.units = s.units ∧
      ∀ y, t.byte y = if key ≤ y ∧ y < key + n ∧ en (y - key) = true then v (y - key) else s.byte y := by
  have hlen : ((List.range n).map fun i => (en i, v i)).length = n := by simp
  have hen : ((List.range n).map fun i => (en i, v i)).map (·.1) = (List.range n).map en := by simp
  rw [State.store_own hn hw (by rwa [hlen]) (by rwa [hlen]) hrom (by rwa [hen])]
  refine ⟨State.goesOn_cores (State.performWrite_cores ..) id, ?regs, ?units, fun y => ?byte⟩
  case regs => exact (State.performWrite_regs ..).trans (by rw [hen])
  case units => exact (State.performWrite_units ..).trans (s.fetched_units k)
  case byte =>
    refine (State.byte_performWrite (s.fetched k) key y _).trans ?_
    rw [hlen, State.fetched_byte]
    by_cases hy : key ≤ y ∧ y < key + n
    · have hlt : y - key < n := by omega
      simp [hy, List.getD, hlt]
    · rw [if_neg fun h => hy ⟨h.1, h.2.1⟩, if_neg fun h => hy ⟨h.1, h.2.1⟩]

end OwnStore

/-- Settles O19: such a store writes its bytes and no others, and counts what a merge corrects (R39, R70, R71). -/
theorem ownStoreResults : Obligations.OwnStoreResults := by
  intro s k d a imm p key hn c base good stores gByte vByte
  have hall {x n : Nat} (hg : good x n) : x % n = 0 ∧ reachOf k x n = .own key ∧ inRom k key = false ∧
      s.mergesDamage key ((List.range n).map fun _ => true) = false := by
    obtain ⟨hx, hr, hrom, hd⟩ := hg
    exact ⟨hx, hr, hrom, by rw [List.map_const', List.length_range]; exact hd⟩
  have hscalar {n : Nat} (h : s.executes k .base [d, a] [] = true) (hg : good base n) :
      stores n gByte (fun _ => true) (.next (s.storeG k d a imm n)) := by
    obtain ⟨hx, hr, hrom, hd⟩ := hall hg
    refine ⟨_, rfl, ?_⟩
    rw [State.storeG_executes imm n h, lowBytes_eq_map]
    exact State.store_own_results hn (State.executes_issuing h).1 hx hr hrom hd
  refine ⟨fun h => ⟨hscalar h, hscalar h, hscalar h, hscalar h⟩,
    fun h => ⟨fun hg => ?vst, fun hx hr hrom hd => ?vstM, exec_vstM_none h hn⟩⟩
  case vst =>
    obtain ⟨hx, hr, hrom, hd⟩ := hall hg
    refine ⟨_, exec_vst imm h, ?_⟩
    rw [lowBytes_eq_map]
    exact State.store_own_results hn (State.executes_issuing h).1 hx hr hrom hd
  case vstM =>
    by_cases hp : c.getP p = 0
    · have hen : ∀ i, (c.getP p).getLsbD i = false := fun i => by rw [hp]; exact BitVec.getLsbD_zero
      refine ⟨_, exec_vstM_none h hn hp, rfl, ?_, s.fetched_units k, fun y => ?_⟩
      · rw [State.correctMerge_none _ key fun b hb => (List.mem_map.1 hb).elim fun i hi => hi.2 ▸ hen i]
        rfl
      · rw [if_neg fun hy => Bool.false_ne_true ((hen _).symm.trans hy.2.2)]
        exact s.fetched_byte k y
    · refine ⟨_, exec_vstM h hp, ?_⟩
      rw [maskedLanes_eq_map]
      exact State.store_own_results hn (State.executes_issuing h).1 hx hr hrom hd

end Sys2Proof.Machine
end

section
/-! SUPPORT. Engines that wait: fences, barriers, `wait` and `wne` (R42, R45, R52, R83, R85). -/

namespace Sys2Proof.Machine

/-! ### A wait that ends -/

section Wakes
variable {s t : State} {k : Nat}

/-- An engine that waited goes on at the next instruction, its registers changed. -/
theorem State.modCore_advance_wakes (ht : t.cores = s.cores) (f : Core → Core) (hn : s.hasNext k = true)
    (hp : (f (s.core k)).pc = (s.core k).pc) :
    (t.modCore k f).advance k = t.goesOn k fun c => { f c with waiting := .issuing } := by
  have hc : t.core k = s.core k := State.core_congr ht k
  rw [← hc] at hp
  have hnt : t.hasNext k = true := by rwa [State.hasNext, hc]
  rw [State.modCore, State.advance_hasNext (State.hasNext_setCore hnt hp), State.core_setCore_same, State.setCore_setCore, hp]
  rfl

/-- The same with its registers as they are. -/
theorem State.advance_wakes (hn : s.hasNext k = true) : s.advance k = s.goesOn k fun c => { c with waiting := .issuing } :=
  State.advance_hasNext hn

/-- A wait that ends at once is as if the instruction only went on. -/
theorem State.setWaiting_advance (w : Waiting) (hn : s.hasNext k = true) (hi : (s.core k).waiting = .issuing) :
    ((s.fetched k).setCore k { s.core k with waiting := w }).advance k = s.retired k id := by
  have h := State.modCore_advance_wakes (s := s.fetched k) (k := k) rfl (fun c => { c with waiting := w }) (by simpa using hn) rfl
  rw [State.modCore, State.core_fetched] at h
  rw [h, State.goesOn, State.core_fetched, ← hi]
  rfl

theorem Core.irqCommon_iff (c : Core) : c.irqCommon = true ↔ c.irqPend &&& c.irqMask ≠ 0 := bne_iff_ne

theorem State.takeInterrupt_none (h : (s.core k).interruptDue = false) : s.takeInterrupt k = s := by
  simp [State.takeInterrupt, h]

end Wakes

/-! ### Fences and `wait` -/

section Instructions
variable {s : State} {k : Nat}

theorem exec_fenceW (h : s.executes k .base [] [] = true) (hn : s.hasNext k = true) :
    exec (.fenceW k) s = .next (if (s.core k).storesDone = true then s.retired k id
      else (s.fetched k).setCore k { s.core k with waiting := .fenceW }) := by
  rw [← State.setWaiting_advance .fenceW hn (State.executes_issuing h).1]
  show execFenceW k s = _
  rw [execFenceW, State.instr_executes _ h]
  simp only [State.beginWait, State.settleFence, State.modCore, State.core_setCore_same, State.core_fetched]
  rfl

theorem exec_fenceRw (h : s.executes k .base [] [] = true) (hn : s.hasNext k = true) :
    exec (.fenceRw k) s = .next (if (s.core k).stores = [] ∧ (s.core k).loads = [] then s.retired k id
      else (s.fetched k).setCore k { s.core k with waiting := .fenceRw }) := by
  rw [← State.setWaiting_advance .fenceRw hn (State.executes_issuing h).1]
  show execFenceRw k s = _
  rw [execFenceRw, State.instr_executes _ h]
  simp only [State.beginWait, State.settleFence, State.modCore, State.core_setCore_same, State.core_fetched, List.isEmpty_iff]

theorem exec_wait (h : s.executes k .base [] [] = true) (hn : s.hasNext k = true) :
    exec (.wait k) s = .next (if (s.core k).irqPend &&& (s.core k).irqMask ≠ 0 then s.retired k id
      else (s.fetched k).setCore k { s.core k with waiting := .wait }) := by
  show execWait k s = _
  rw [execWait, State.instr_executes _ h]
  simp only [State.core_fetched, Core.irqCommon_iff, State.advance_fetched hn (State.executes_issuing h).1, State.modCore]

/-! ### Barriers (R45) -/

/-- The count of a corrected error lies in another register than a fence bit. -/
theorem State.reg_correct_fence (s : State) (a n c : Nat) : (s.correct a n).reg (rStcClFence c) = s.reg (rStcClFence c) := by
  have hlpd (i : Nat) : rStcClFence c ≠ rLpdChCorrected i := by simp only [rStcClFence, rLpdChCorrected, stcBase, lpdBase]; omega
  have hecc (d : Nat) : rStcClFence c ≠ rStcClEcc d := by simp only [rStcClFence, rStcClEcc]; omega
  unfold State.correct State.countCorrected
  split_ifs
  · exact State.reg_setReg_other s _ (hlpd _)
  · split
    · exact State.reg_setReg_other s _ (hecc _)
    · rfl
  · rfl
  · rfl

theorem State.coreFenced_fetched (s : State) (k j : Nat) : (s.fetched k).coreFenced j = s.coreFenced j := by
  simp only [State.coreFenced, State.clusterFenced, State.regBit, State.fetched, State.reg_correct_fence]

/-- Engine `k` has come to a barrier, and no core has left it yet. -/
def State.arrived (s : State) (k : Nat) (mask : BitVec 8) : State :=
  (s.fetched k).setCore k { s.core k with waiting := .cbar mask s.elapsed }

theorem State.core_arrived_same (s : State) (k : Nat) (mask : BitVec 8) :
    (s.arrived k mask).core k = { s.core k with waiting := .cbar mask s.elapsed } := State.core_setCore_same _ _ _

theorem State.core_arrived_other (s : State) {k j : Nat} (mask : BitVec 8) (h : j ≠ k) : (s.arrived k mask).core j = s.core j := by
  rw [State.arrived, State.core_setCore_other _ _ _ _ h, State.core_fetched]

theorem State.atBarrier_arrived (s : State) (k j : Nat) (mask : BitVec 8) :
    (s.arrived k mask).atBarrier j mask = true ↔ j = k ∨ ∃ since, (s.core j).waiting = .cbar mask since := by
  rw [State.atBarrier_iff]
  by_cases hj : j = k
  · subst hj; simp [State.core_arrived_same]
  · simp [State.core_arrived_other s mask hj, hj]

theorem State.barrierFull_arrived (s : State) (k : Nat) (mask : BitVec 8) :
    (s.arrived k mask).barrierFull (k / 8) mask = true ↔ ∀ n, n < 8 → mask.getLsbD n = true → n = k % 8 ∨
      s.coreFenced (8 * (k / 8) + n) = true ∨ ∃ since, (s.core (8 * (k / 8) + n)).waiting = .cbar mask since := by
  have hfenced (j : Nat) : (s.arrived k mask).coreFenced j = s.coreFenced j := s.coreFenced_fetched k j
  have hself {n : Nat} (hn : n < 8) : 8 * (k / 8) + n = k ↔ n = k % 8 := by omega
  simp only [State.barrierFull, List.all_eq_true, List.mem_range, Bool.or_eq_true, Bool.not_eq_true', State.atBarrier_arrived, hfenced]
  refine forall₂_congr fun n hn => ?_
  rw [hself hn]
  cases mask.getLsbD n <;> simp [or_left_comm]

/-- A `cbar` that names its own core waits for its accesses, then at the barrier (R42, R45). -/
theorem exec_cbar {mask : BitVec 8} (h : s.executes k .cbar [] [] = true) (hm : mask.getLsbD (k % 8) = true) :
    exec (.cbar k mask) s = .next (if (s.core k).stores = [] ∧ (s.core k).loads = [] then (s.arrived k mask).settleBarrier (k / 8) mask
      else (s.fetched k).setCore k { s.core k with waiting := .cbarFence mask }) := by
  show execCbar k mask s = _
  rw [execCbar, State.instr_executes _ h, if_neg (not_not.2 hm)]
  simp only [State.beginWait, State.settleFence, State.reachBarrier, State.modCore, State.core_setCore_same, State.setCore_setCore,
    State.core_fetched, List.isEmpty_iff, State.setCore_elapsed, State.fetched_elapsed, State.arrived]

/-- The cores that a barrier holds once engine `k` has come to it. -/
theorem State.settleBarrier_arrived {mask : BitVec 8} (hn : s.hasNext k = true)
    (hf : ∀ n, n < 8 → mask.getLsbD n = true → n = k % 8 ∨ s.coreFenced (8 * (k / 8) + n) = true ∨
      ∃ since, (s.core (8 * (k / 8) + n)).waiting = .cbar mask since)
    (hnext : ∀ j, j / 8 = k / 8 → (∃ since, (s.core j).waiting = .cbar mask since) → s.hasNext j = true) :
    let t := (s.arrived k mask).settleBarrier (k / 8) mask
    t = { s.fetched k with cores := t.cores } ∧
      ∀ j, t.core j = if j / 8 = k / 8 ∧ (j = k ∨ ∃ since, (s.core j).waiting = .cbar mask since) then (s.core j).goneOn else s.core j := by
  have hgo : ∀ j, j / 8 = k / 8 → (s.arrived k mask).atBarrier j mask = true → (s.arrived k mask).hasNext j = true := by
    intro j hj ha
    rw [State.hasNext]
    by_cases hjk : j = k
    · subst hjk; rw [State.core_arrived_same]; exact hn
    · rw [State.core_arrived_other s mask hjk]
      exact hnext j hj (((s.atBarrier_arrived k j mask).1 ha).resolve_left hjk)
  obtain ⟨honly, hcores⟩ := State.settleBarrier_full ((s.barrierFull_arrived k mask).2 hf) hgo
  refine ⟨honly, fun j => ?_⟩
  rw [hcores]
  simp only [State.atBarrier_arrived]
  by_cases hjk : j = k
  · subst hjk; simp [State.core_arrived_same, Core.goneOn]
  · simp only [State.core_arrived_other s mask hjk]

theorem exec_barrierTimeout {mask : BitVec 8} {since : Word64} (hw : (s.core k).waiting = .cbar mask since) (h0 : (s.core k).barTimeout ≠ 0)
    (ht : since.toNat + (s.core k).barTimeout.toNat * 1000 ≤ s.elapsed.toNat) (hc : s.canEnter k causeBarrier) :
    exec (.barrierTimeout k) s = .next (s.inHandler k causeBarrier (BitVec.ofNat 32 ((s.core k).pc.toNat / 4 * 4)) 0) := by
  have hn : (s.core k).barTimeout.toNat ≠ 0 := fun h => h0 (BitVec.eq_of_toNat_eq h)
  show execBarrierTimeout k s = _
  simp only [execBarrierTimeout, hw, State.passed, decide_eq_true_eq, if_pos (And.intro hn ht)]
  exact congrArg _ (State.raise_inHandler 0 hc)

/-! ### Waiting for a word (R83) -/

theorem State.word8_ne_iff (s : State) (key : Nat) (x : Word64) :
    ofLe (s.bytes key 8) ≠ x.toNat ↔ BitVec.ofNat 64 (ofLe (s.bytes key 8)) ≠ x := by
  have hlt : ofLe (s.bytes key 8) < 2 ^ 64 := s.ofLe_bytes_lt key 8
  rw [not_iff_not, ← BitVec.toNat_inj, BitVec.toNat_ofNat, Nat.mod_eq_of_lt hlt]

theorem exec_wne {d a b : BitVec 5} {key : Nat} (h : s.executes k .base [a, b] [] = true) (hn : s.hasNext k = true)
    (ha : ((s.core k).getG a).toNat % 8 = 0) (hr : reachOf k ((s.core k).getG a).toNat 8 = .own key) (hd : s.touchesDamage key 8 = false) :
    exec (.wne k d a b) s = .next (
      if BitVec.ofNat 64 (ofLe (s.bytes key 8)) ≠ (s.core k).getG b ∨ (s.core k).irqPend &&& (s.core k).irqMask ≠ 0 then
        ((s.fetched k).correct key 8).goesOn k (Core.putG d (BitVec.ofNat 64 (ofLe (s.bytes key 8))))
      else ((s.fetched k).correct key 8).setCore k { s.core k with waiting := .wne d ((s.core k).getG a) ((s.core k).getG b) }) := by
  have hcores : ((s.fetched k).correct key 8).cores = (s.fetched k).cores := State.correct_cores _ key 8
  have hi := (State.executes_issuing h).1
  have haligned : ¬ ((s.core k).getG a).toNat % 8 ≠ 0 := not_not.2 ha
  rw [← State.modCore_advance_goesOn hcores _ hn (Core.putG_pc ..) (by rw [Core.putG_waiting, hi])]
  show execWne k d a b s = _
  rw [execWne, State.instr_executes _ h]
  simp only [State.core_fetched, if_neg haligned, if_false, hr, State.fetched_touchesDamage, hd, Bool.false_eq_true, State.finishWne,
    State.retireG, State.word8, State.fetched_bytes, State.word8_ne_iff, Core.irqCommon_iff,
    BitVec.ofNat_toNat, BitVec.setWidth_eq, State.modCore, State.core_sinceFetch hcores]

theorem exec_wneWake {d : BitVec 5} {x cmp : Word64} {key : Nat} (hn : s.hasNext k = true) (hw : (s.core k).waiting = .wne d x cmp)
    (hr : reachOf k x.toNat 8 = .own key) (hd : s.touchesDamage key 8 = false) :
    exec (.wneWake k) s = .next (
      if BitVec.ofNat 64 (ofLe (s.bytes key 8)) ≠ cmp ∨ (s.core k).irqPend &&& (s.core k).irqMask ≠ 0 then
        (s.correct key 8).goesOn k fun c => { Core.putG d (BitVec.ofNat 64 (ofLe (s.bytes key 8))) c with waiting := .issuing }
      else s) := by
  rw [← State.modCore_advance_wakes (State.correct_cores s key 8) _ hn (Core.putG_pc ..)]
  show execWneWake k s = _
  simp only [execWneWake, hw, hr, hd, Bool.false_eq_true, if_false, State.finishWne, State.retireG, State.word8, State.word8_ne_iff,
    Core.irqCommon_iff]

/-! ### `wait` that ends (R52) -/

theorem State.wdogDue_congr {t : State} (hc : (t.core k).run = (s.core k).run ∧ (t.core k).wdogLimit = (s.core k).wdogLimit ∧
    (t.core k).wdogStart = (s.core k).wdogStart) (he : t.elapsed = s.elapsed) : t.wdogDue k = s.wdogDue k := by
  obtain ⟨hrun, hlimit, hstart⟩ := hc
  simp only [State.wdogDue, State.wdogReached, State.passed, hrun, hlimit, hstart, he]

theorem exec_waitWake (hn : s.hasNext k = true) (hw : (s.core k).waiting = .wait) :
    exec (.waitWake k) s = .next (if (s.core k).irqPend &&& (s.core k).irqMask ≠ 0 then (s.setCore k (s.core k).goneOn).takeInterrupt k
      else s) := by
  show execWaitWake k s = _
  simp only [execWaitWake, hw, Core.irqCommon_iff, State.advance_wakes hn]
  rfl

/-- The next instruction's address, of an engine that has one. -/
theorem State.hasNext_pc (hn : s.hasNext k = true) : ((s.core k).pc + 4).toNat = (s.core k).pc.toNat + 4 := by
  have hlt := fetchable_lt hn
  rw [BitVec.toNat_add]
  exact Nat.mod_eq_of_lt hlt

/-- An interrupt that ends a `wait` is taken at the instruction after it. -/
theorem State.takeInterrupt_goneOn (hn : s.hasNext k = true) (hr : (s.core k).run = .running)
    (hp : (s.core k).irqPend &&& (s.core k).irqMask ≠ 0) (hi : (s.core k).ie = true) (hd : s.wdogDue k = false)
    (hm : s.mayEnter k causeInterrupt = true) :
    (s.setCore k (s.core k).goneOn).takeInterrupt k =
      s.inHandler k causeInterrupt (BitVec.ofNat 32 (((s.core k).pc.toNat + 4) / 4 * 4)) 0 := by
  have hc : (s.setCore k (s.core k).goneOn).core k = (s.core k).goneOn := State.core_setCore_same _ _ _
  have hcan : (s.setCore k (s.core k).goneOn).canEnter k causeInterrupt :=
    State.canEnter_congr (State.canEnter_of_mayEnter hm) (by rw [hc]; rfl) (by rw [hc]; rfl) fun j hj => State.core_setCore_other _ _ _ _ hj
  have hdue : (s.setCore k (s.core k).goneOn).wdogDue k = false :=
    hd ▸ State.wdogDue_congr (s := s) (by rw [hc]; exact ⟨rfl, rfl, rfl⟩) rfl
  have hpc : (s.core k).goneOn.pc.toNat = (s.core k).pc.toNat + 4 := State.hasNext_pc hn
  rw [State.takeInterrupt_inHandler (by rw [hc]; exact hr) (by rw [hc]; rfl) (by rw [hc]; exact hp) (by rw [hc]; exact hi) hdue hcan,
    hc, hpc, State.inHandler, hc, State.setCore_setCore]
  rfl

end Instructions

/-- Settles O25: each instruction goes on where what it waits for is there, and a full barrier lets its cores go (R42, R45, R83, R85). -/
theorem fencesWaitsAndBarriers : Obligations.FencesWaitsAndBarriers := by
  intro s k hn c waits due atBar
  refine ⟨fun h => ⟨fun hd => ?_, fun hd => ?_, fun hs hl => ?_, fun ho => ?_, fun hd => ?_, fun hd => ?_⟩,
    fun mask h => ⟨fun hm hmay => ?notNamed, fun hm ho => ?owed, fun hm hs hl hf _ hnext => ?full, fun hm hs hl hf => ?notYet⟩,
    fun mask since hw h0 ht hx hv ho => exec_barrierTimeout hw h0 ht ⟨hx, hv, fun _ j m t hj hjk => ho j m t hj hjk⟩,
    fun d a b key h ha hr hd => ⟨fun hgo => ?_, fun he hnd => ?_⟩, fun d x cmp key hw hr hd => ⟨fun hgo => ?_, fun he hnd => ?_⟩,
    fun hw hr => ⟨fun hd hi => ?quiet, fun hd hi hwd hmay => ?interrupt, fun hd => ?_⟩⟩
  case notNamed =>
    show execCbar k mask s = _
    rw [execCbar, State.instr_executes _ h, if_pos (by simp [hm])]
    exact congrArg _ (State.raise_fetched (cause := causeIllegal) 0 hmay)
  case owed => rw [exec_cbar h hm, if_neg fun hno => ho.elim (· hno.1) (· hno.2)]
  case full =>
    obtain ⟨honly, hcores⟩ := State.settleBarrier_arrived hn hf hnext
    rw [exec_cbar h hm, if_pos ⟨hs, hl⟩]
    exact ⟨_, rfl, honly, fun j => ⟨fun hj => (hcores j).trans (if_pos hj), fun hj => (hcores j).trans (if_neg hj)⟩⟩
  case notYet =>
    have hnot : (s.arrived k mask).barrierFull (k / 8) mask = false := Bool.eq_false_iff.2 fun hfull => by
      obtain ⟨n, hn8, hmn, hself, hfenced, hbar⟩ := hf
      rcases (s.barrierFull_arrived k mask).1 hfull n hn8 hmn with hn' | hn' | hn'
      · exact hself hn'
      · exact Bool.false_ne_true (hfenced.symm.trans hn')
      · exact hbar hn'
    rw [exec_cbar h hm, if_pos ⟨hs, hl⟩, State.settleBarrier_notFull hnot]
    rfl
  case quiet =>
    have hquiet : ((s.setCore k c.goneOn).core k).interruptDue = false := by
      rw [State.core_setCore_same]
      rcases hi with hi | hi <;> simp [Core.interruptDue, Core.goneOn, hi]
    rw [exec_waitWake hn hw, if_pos hd, State.takeInterrupt_none hquiet]
    rfl
  case interrupt => rw [exec_waitWake hn hw, if_pos hd]; exact congrArg _ (State.takeInterrupt_goneOn hn hr hd hi hwd hmay)
  · rw [exec_fenceW h hn, if_pos hd]
  · rw [exec_fenceW h hn, if_neg (Bool.eq_false_iff.1 hd)]
  · rw [exec_fenceRw h hn, if_pos ⟨hs, hl⟩]
  · rw [exec_fenceRw h hn, if_neg fun hno => ho.elim (· hno.1) (· hno.2)]
  · rw [exec_wait h hn, if_pos hd]
  · rw [exec_wait h hn, if_neg hd]
  · rw [exec_wne h hn ha hr hd, if_pos hgo]
  · rw [exec_wne h hn ha hr hd, if_neg fun hgo => hgo.elim (· he) hnd]
  · rw [exec_wneWake hn hw hr hd, if_pos hgo]
  · rw [exec_wneWake hn hw hr hd, if_neg fun hgo => hgo.elim (· he) hnd]
  · rw [exec_waitWake hn hw, if_neg hd]

end Sys2Proof.Machine
end

section
/-! SUPPORT. `sysrd` and `syswr` of the control registers of one word (R46, R48, R55, R84, R85). -/

namespace Sys2Proof.Machine

section OneWord
variable {s : State} {k : Nat}

theorem Core.putG_cause (d : BitVec 5) (v : Word64) (cause : BitVec 4) (armed : Bool) (c : Core) :
    Core.putG d v { c with cause := cause, causeArmed := armed } = { Core.putG d v c with cause := cause, causeArmed := armed } := by
  simp only [Core.putG, Core.setG]
  split <;> rfl

theorem exec_sysrd_illegal (d : BitVec 5) {n : BitVec 12} (h : s.executes k .base [] [] = true) (hn : 15 < n.toNat) :
    exec (.sysrd k d n) s = .next ((s.fetched k).raise k causeIllegal 0) := by
  show execSysrd k d n s = _
  rw [execSysrd, State.instr_executes _ h, if_pos hn]

theorem exec_syswr_illegal {d : BitVec 5} {n : BitVec 12} (h : s.executes k .base [d] [] = true) (hn : 15 < n.toNat) :
    exec (.syswr k d n) s = .next ((s.fetched k).raise k causeIllegal 0) := by
  show execSyswr k d n s = _
  rw [execSyswr, State.instr_executes _ h, if_pos hn]

/-- A control register of one word is named. -/
def narrowReg (n : BitVec 12) : Bool := decide (n.toNat ≤ 15) && ! coreRegWide n.toNat && ! coreRegHigh n.toNat

/-- A control register of one word is read as it stands; `STC_CAUSE` after `resume` is then cleared (R48). -/
theorem exec_sysrd_narrow (d : BitVec 5) {n : BitVec 12} (h : s.executes k .base [] [] = true) (hn : s.hasNext k = true)
    (hr : narrowReg n = true) :
    exec (.sysrd k d n) s = .next (s.retired k fun c =>
      Core.putG d (BitVec.ofNat 64 (s.coreReg k n.toNat))
        (if n = 3 ∧ (s.core k).causeArmed = true then { c with cause := 0, causeArmed := false } else c)) := by
  simp only [narrowReg, Bool.and_eq_true, decide_eq_true_eq, Bool.not_eq_true'] at hr
  obtain ⟨⟨hle, hw⟩, hh⟩ := hr
  have hi := (State.executes_issuing h).1
  rw [← State.modCore_advance _ hn (by rw [Core.putG_pc]; split <;> rfl) (by rw [Core.putG_waiting]; split <;> exact hi)]
  show execSysrd k d n s = _
  rw [execSysrd, State.instr_executes _ h, if_neg (Nat.not_lt.2 hle)]
  simp only [State.readCoreReg, hw, hh, Bool.false_eq_true, if_false, State.core_fetched, State.fetched_coreReg, State.retireG]
  split
  · simp only [State.modCore, State.core_setCore_same, State.setCore_setCore]
  · rfl

/-- A write that changes registers of the engine alone. -/
theorem exec_syswr_modCore {d : BitVec 5} {n : BitVec 12} {f : Core → Core} (h : s.executes k .base [d] [] = true) (hn : s.hasNext k = true)
    (hle : n.toNat ≤ 15) (hw : (s.fetched k).writeCoreReg k n.toNat ((s.core k).getG d).toNat = (s.fetched k).modCore k f)
    (hp : (f (s.core k)).pc = (s.core k).pc) (hi : (f (s.core k)).waiting = (s.core k).waiting) :
    exec (.syswr k d n) s = .next (s.retired k f) := by
  rw [← State.modCore_advance f hn hp (hi.trans (State.executes_issuing h).1), ← hw]
  show execSyswr k d n s = _
  rw [execSyswr, State.instr_executes _ h, if_neg (Nat.not_lt.2 hle), State.core_fetched]

/-- A write that is discarded. -/
theorem exec_syswr_discarded {d : BitVec 5} {n : BitVec 12} (h : s.executes k .base [d] [] = true) (hn : s.hasNext k = true)
    (hle : n.toNat ≤ 15) (hw : (s.fetched k).writeCoreReg k n.toNat ((s.core k).getG d).toNat = s.fetched k) :
    exec (.syswr k d n) s = .next (s.retired k id) := by
  rw [← State.advance_fetched hn (State.executes_issuing h).1]
  show execSyswr k d n s = _
  rw [execSyswr, State.instr_executes _ h, if_neg (Nat.not_lt.2 hle), State.core_fetched, hw]

theorem State.wdogDue_fetched (s : State) (k : Nat) : (s.fetched k).wdogDue k = s.wdogDue k :=
  State.wdogDue_congr (by rw [State.core_fetched]; exact ⟨rfl, rfl, rfl⟩) (s.fetched_elapsed k)

end OneWord

/-- Settles O27: `sysrd` gives the register as it stands, and `syswr` does to each register what its access codes say (R46, R84, R85). -/
theorem controlRegisterAccess : Obligations.ControlRegisterAccess := by
  intro s k d hn c reads x writes
  have hread {n : BitVec 12} {v : Word64} (h : s.executes k .base [] [] = true) (hr : narrowReg n = true)
      (hv : BitVec.ofNat 64 (s.coreReg k n.toNat) = v) (h3 : n ≠ 3 ∨ c.causeArmed = false) : reads n v := by
    have hno : ¬ (n = 3 ∧ c.causeArmed = true) := fun hc => h3.elim (· hc.1) fun h => by rw [h] at hc; exact Bool.false_ne_true hc.2
    refine (exec_sysrd_narrow d h hn hr).trans (congrArg _ (State.retired_congr ?_))
    rw [if_neg hno, hv]
  have hplain {n : BitVec 12} {w : Nat} {v : BitVec w} (h : s.executes k .base [] [] = true) (hr : narrowReg n = true) (h3 : n ≠ 3)
      (hv : s.coreReg k n.toNat = v.toNat) : reads n (v.zeroExtend 64) := hread h hr (by rw [hv]; exact BitVec.ofNat_toNat ..) (.inl h3)
  have hx : BitVec.ofNat 32 (c.getG d).toNat = x := BitVec.ofNat_toNat ..
  have hx16 : BitVec.ofNat 16 (c.getG d).toNat = x.truncate 16 := by
    rw [BitVec.ofNat_toNat]
    exact (BitVec.setWidth_setWidth_of_le _ (by decide)).symm
  refine ⟨fun h => ⟨fun hk => hread h rfl ?core (.inl (by decide)), hread h rfl ?status (.inl (by decide)), hplain h rfl (by decide) rfl,
      fun ha => hread h rfl (BitVec.ofNat_toNat ..) (.inr ha), fun ha => ?armed, hplain h rfl (by decide) rfl,
      hplain h rfl (by decide) rfl, hplain h rfl (by decide) rfl, hplain h rfl (by decide) rfl, hread h rfl rfl (.inl (by decide)),
      hplain h rfl (by decide) rfl⟩,
    fun h => ⟨exec_syswr_modCore h hn (by decide) ?ie rfl rfl, exec_syswr_modCore h hn (by decide) ?epc rfl rfl,
      exec_syswr_modCore h hn (by decide) ?vbase rfl rfl, exec_syswr_modCore h hn (by decide) ?irqPend rfl rfl,
      exec_syswr_modCore h hn (by decide) ?irqMask rfl rfl, exec_syswr_modCore h hn (by decide) ?wdogLimit rfl rfl,
      fun hd => exec_syswr_modCore h hn (by decide) ?kick rfl rfl, fun hd => exec_syswr_discarded h hn (by decide) ?late,
      exec_syswr_modCore h hn (by decide) ?barTimeout rfl rfl, fun n hro => ?ro⟩,
    fun n hn16 hm => ⟨fun h => (exec_sysrd_illegal d h hn16).trans (congrArg _ (State.raise_fetched (cause := causeIllegal) 0 hm)),
      fun h => (exec_syswr_illegal h hn16).trans (congrArg _ (State.raise_fetched (cause := causeIllegal) 0 hm))⟩⟩
  case core =>
    have h16 : k / 8 % 16 = k / 8 := by omega
    show BitVec.ofNat 64 (k % 8 + k / 8 % 16 * 8 + if s.hlt.head then 128 else 0) = _
    rw [h16, Nat.mul_comm]
  case status =>
    show BitVec.ofNat 64 ((if c.ie then 1 else 0) + (if c.inExc then 2 else 0)) = _
    cases c.ie <;> cases c.inExc <;> rfl
  case armed =>
    have hcause : BitVec.ofNat 64 (s.coreReg k (3 : BitVec 12).toNat) = c.cause.zeroExtend 64 := BitVec.ofNat_toNat ..
    refine (exec_sysrd_narrow d h hn rfl).trans (congrArg _ (State.retired_congr ?_))
    rw [if_pos ⟨rfl, ha⟩, hcause, Core.putG_cause]
  case ie =>
    have hbit : ((c.getG d).toNat % 2 == 1) = x.getLsbD 0 := by
      rw [← hx, BitVec.getLsbD_ofNat, Nat.testBit_zero]
      rfl
    rw [← hbit]
    rfl
  case epc => rw [← hx]; rfl
  case vbase => rw [← hx]; rfl
  case irqPend => rw [← hx]; rfl
  case irqMask => rw [← hx]; rfl
  case wdogLimit => rw [← hx16, ← s.fetched_elapsed k]; rfl
  case kick =>
    show (s.fetched k).kickWdog k = _
    rw [State.kickWdog, State.wdogDue_fetched, if_neg (by simp [hd]), State.fetched_elapsed]
  case late =>
    show (s.fetched k).kickWdog k = _
    rw [State.kickWdog, State.wdogDue_fetched, if_pos hd]
  case barTimeout => rw [← hx16]; rfl
  case ro =>
    simp only [List.mem_cons, List.not_mem_nil, or_false] at hro
    obtain rfl | rfl | rfl | rfl | rfl | rfl := hro
    all_goals exact exec_syswr_discarded h hn (by decide) rfl

end Sys2Proof.Machine
end

section
/-! SUPPORT. What reaches an engine between instructions: responses (R49, R50, R58, R61, R590), and its watchdog and timer (R46, R54). -/

namespace Sys2Proof.Machine

/-! ### Bus errors change no engine (R61) -/

section BusErrors
variable (s : State)

theorem State.countDamage_cores (a : Nat) : (s.countDamage a).cores = s.cores := by
  unfold State.countDamage
  split_ifs
  · exact State.bump_cores _ _ _
  · split
    · exact State.setReg_cores ..
    · rfl
  · exact State.bump_cores ..
  · rfl

theorem State.raiseVector_cores (v : Nat) : (s.raiseVector v).cores = s.cores := by
  unfold State.raiseVector
  split <;> rfl

theorem State.captureError_cores (kind : BusKind) (src a : Nat) : (s.captureError kind src a).cores = s.cores := by
  simp only [State.captureError]
  split
  · rfl
  · exact State.raiseVector_cores _ 6

theorem State.busError_cores (kind : BusKind) (src a : Nat) : (s.busError kind src a).cores = s.cores := by
  rw [State.busError, State.captureError_cores]
  split
  · exact s.countDamage_cores a
  · rfl

theorem State.foldl_busError_cores (kind : BusKind) (src : Nat) (l : List Nat) :
    (l.foldl (fun t a => t.busError kind src a) s).cores = s.cores :=
  List.foldlRecOn l (fun (t : State) a => t.busError kind src a) (motive := fun t => t.cores = s.cores) rfl
    fun t ht a _ => (t.busError_cores kind src a).trans ht

end BusErrors

theorem Core.takeLoad_run (l : Load) (v : Vec) (c : Core) : (c.takeLoad l v).run = c.run := by
  unfold Core.takeLoad
  split
  · rfl
  · simp only [Core.setG]
    split <;> rfl

/-! ### After a response -/

section Responses
variable {s : State} {k i : Nat}

theorem State.completeStop_running (h : (s.core k).run = .running) : s.completeStop k = s := by
  simp [State.completeStop, h]

/-- A response that no wait and no stop is owed changes nothing more. -/
theorem State.afterResponse_issuing (hw : (s.core k).waiting = .issuing) (hr : (s.core k).run = .running) : s.afterResponse k = s := by
  have hsettled : s.settleFence k = s := by simp [State.settleFence, hw]
  rw [State.afterResponse, hsettled, State.completeStop_running hr]

/-- A `fence.w` whose stores have all been answered ends. -/
theorem State.settleFence_fenceW (hw : (s.core k).waiting = .fenceW) (hd : (s.core k).storesDone = true) :
    s.settleFence k = s.advance k := by
  simp [State.settleFence, hw, hd]

/-- A changed engine that goes on at its next instruction. -/
theorem State.setCore_advance {c : Core} (hn : s.hasNext k = true) (hp : c.pc = (s.core k).pc) :
    (s.setCore k c).advance k = s.setCore k { c with pc := (s.core k).pc + 4, waiting := .issuing } := by
  rw [State.advance_hasNext (State.hasNext_setCore hn hp), State.core_setCore_same, State.setCore_setCore, hp]

/-- An exception after engine `k` has changed in neither `IN_EXC` nor `STC_VBASE`, and no other engine has. -/
theorem State.raise_after {t : State} {c : Core} {cause fault : Nat} {a : Word64} (hm : s.mayEnter k cause = true)
    (ht : t.cores = (s.setCore k c).cores) (hx : c.inExc = (s.core k).inExc) (hv : c.vbase = (s.core k).vbase)
    (hp : c.pc = (s.core k).pc) (hf : fault = a.toNat % 2 ^ 48) :
    t.raise k cause fault = t.inHandler k cause (BitVec.ofNat 32 ((s.core k).pc.toNat / 4 * 4)) (a.truncate 48) := by
  have hc : t.core k = c := (State.core_congr ht k).trans (State.core_setCore_same _ _ _)
  have hcan : t.canEnter k cause := State.canEnter_congr (State.canEnter_of_mayEnter hm) (by rw [hc, hx]) (by rw [hc, hv])
    fun j hj => (State.core_congr ht j).trans (State.core_setCore_other _ _ _ _ hj)
  have hfault : BitVec.ofNat 48 fault = a.truncate 48 := BitVec.eq_of_toNat_eq (by simp [hf])
  rw [State.raise_inHandler fault hcan, hc, hp, hfault]

theorem Core.isHeld_iff (c : Core) : c.isHeld i = true ↔ c.waiting = .loadHeld ∧ i + 1 = c.loads.length := by
  simp [Core.isHeld]

section Loads
variable {l : Load} (hl : (s.core k).loads[i]? = some l)
include hl

/-- Data for the load that holds issue: the engine goes on. -/
theorem exec_loadDataReturn_held {v : Vec} (hr : l.result = .data v) (hh : (s.core k).isHeld i = true) :
    exec (.loadDataReturn k i) s =
      .next ((s.setCore k ({ s.core k with loads := (s.core k).loads.eraseIdx i }.takeLoad l v)).advance k) := by
  show execLoadDataReturn k i s = _
  simp only [execLoadDataReturn, hl, hr, hh, if_true, State.modCore, State.core_setCore_same, State.setCore_setCore]

/-- Data for another load: it may end a wait or a stop. -/
theorem exec_loadDataReturn_free {v : Vec} (hr : l.result = .data v) (hh : (s.core k).isHeld i = false) :
    exec (.loadDataReturn k i) s =
      .next ((s.setCore k ({ s.core k with loads := (s.core k).loads.eraseIdx i }.takeLoad l v)).afterResponse k) := by
  show execLoadDataReturn k i s = _
  simp only [execLoadDataReturn, hl, hr, hh, Bool.false_eq_true, if_false, State.modCore, State.core_setCore_same, State.setCore_setCore]

/-- A held load that failed. -/
theorem exec_loadDataReturn_error {kind : BusKind} (hr : l.result = .error kind) (hh : (s.core k).isHeld i = true) :
    exec (.loadDataReturn k i) s = .next (((s.setCore k { s.core k with loads := (s.core k).loads.eraseIdx i }).busError kind k
      l.addr.toNat).raise k causeLoadBus (l.addr.toNat % 2 ^ 48)) := by
  show execLoadDataReturn k i s = _
  simp only [execLoadDataReturn, hl, hr, hh, if_true]
  rfl

end Loads

theorem exec_storeErrorResponse {o : Owed} {kind : BusKind} (ho : (s.core k).stores[i]? = some o) (he : o.error = some kind)
    (hw : (s.core k).waiting ≠ .loadHeld) (hr : (s.core k).run = .running) :
    exec (.storeErrorResponse k i) s = .next ((o.failed.foldl (fun t a => t.busError kind k a)
      (s.setCore k { s.core k with stores := (s.core k).stores.eraseIdx i })).raise k causeStoreBus (o.addr.toNat % 2 ^ 48)) := by
  show execStoreErrorResponse k i s = _
  simp only [execStoreErrorResponse, ho, he, if_neg hw, if_pos hr]
  rfl

theorem exec_writeResponseReturn {o : Owed} (ho : (s.core k).stores[i]? = some o) (he : o.error = none) (hh : o.held = []) :
    exec (.writeResponseReturn k i) s =
      .next ((s.setCore k { s.core k with stores := (s.core k).stores.eraseIdx i }).afterResponse k) := by
  show execWriteResponseReturn k i s = _
  simp only [execWriteResponseReturn, ho, he, hh, Option.isSome_none, List.isEmpty_nil, not_true_eq_false, or_self, Bool.false_eq_true, if_false]
  rfl

theorem setNth_eq_set {α : Type} (i : Nat) (v : α) (l : List α) : setNth i v l = l.set i v := by
  induction l generalizing i with
  | nil => simp [setNth]
  | cons x t ih => cases i with
    | zero => rfl
    | succ n => simp [setNth, ih]

/-- Data of head-host memory, with no translation of its pages and no invalidation under way. -/
theorem exec_hostReadCompletion {l : Load} {bs : List Byte} (hl : (s.core k).loads[i]? = some l) (hr : l.result = .host)
    (hp : ∀ p ∈ hostPages l.addr.toNat l.size, p ∉ s.ep.atsWaiting) (hi : s.ep.invals = []) :
    exec (.hostReadCompletion k i (some bs) false) s = .next (s.setCore k { s.core k with
      loads := (s.core k).loads.set i { l with result := .data (BitVec.ofNat 512 (ofLe (bs.take l.size))) } }) := by
  have hnone : ¬ (l.result ≠ .host ∨ (hostPages l.addr.toNat l.size).any (fun p => s.ep.atsWaiting.contains p) = true) := by
    simpa [hr] using hp
  have hinvals (t : State) (ht : t.ep = s.ep) : t.settleInvals = t := by rw [State.settleInvals, ht, hi]; rfl
  show execHostReadCompletion k i (some bs) false s = _
  simp only [execHostReadCompletion, hl, if_neg hnone, Bool.false_eq_true, if_false, setNth_eq_set]
  exact congrArg _ (hinvals _ rfl)

end Responses

/-- Settles O29: each response is taken off what is owed, and goes to the register, to the waiting engine or to an exception. -/
theorem responsesToLoadsAndStores : Obligations.ResponsesToLoadsAndStores := by
  intro s k i c without paid
  refine ⟨fun l v hl hr => ⟨fun hw hlen hn => ?held, fun hw hrun => ?free⟩, fun l kind hl hr hw hlen hm => ?loadError,
    fun o kind ho he hw hrun hm => ?storeError, fun o ho he hh hrun => ⟨fun hw => ?good, fun hw hdone hn => ?fence⟩,
    fun l bs hl hr hp hi => exec_hostReadCompletion hl hr hp hi⟩
  case held =>
    rw [exec_loadDataReturn_held hl hr (c.isHeld_iff.2 ⟨hw, hlen⟩)]
    exact congrArg _ (State.setCore_advance hn (Core.takeLoad_pc ..))
  case free =>
    have hfree : c.isHeld i = false := Bool.eq_false_iff.2 fun h => Waiting.noConfusion (hw.symm.trans (c.isHeld_iff.1 h).1)
    rw [exec_loadDataReturn_free hl hr hfree]
    refine congrArg _ (State.afterResponse_issuing ?_ ?_)
    · rw [State.core_setCore_same, Core.takeLoad_waiting]; exact hw
    · rw [State.core_setCore_same, Core.takeLoad_run]; exact hrun
  case loadError =>
    rw [exec_loadDataReturn_error hl hr (c.isHeld_iff.2 ⟨hw, hlen⟩)]
    exact congrArg _ (State.raise_after (cause := causeLoadBus) hm (State.busError_cores _ kind k _) rfl rfl rfl rfl)
  case storeError =>
    rw [exec_storeErrorResponse ho he hw hrun]
    exact congrArg _ (State.raise_after (cause := causeStoreBus) hm (State.foldl_busError_cores _ kind k _) rfl rfl rfl rfl)
  case good =>
    rw [exec_writeResponseReturn ho he hh]
    refine congrArg _ (State.afterResponse_issuing ?_ ?_)
    · rw [State.core_setCore_same]; exact hw
    · rw [State.core_setCore_same]; exact hrun
  case fence =>
    have hpaid : (s.setCore k paid).core k = paid := State.core_setCore_same ..
    have hsettled : (s.setCore k paid).settleFence k = s.setCore k { paid with pc := c.pc + 4, waiting := .issuing } :=
      (State.settleFence_fenceW (by rw [hpaid]; exact hw) (by rw [hpaid]; exact hdone)).trans (State.setCore_advance hn rfl)
    rw [exec_writeResponseReturn ho he hh, State.afterResponse]
    refine congrArg _ ((congrArg _ hsettled).trans (State.completeStop_running ?_))
    rw [State.core_setCore_same]; exact hrun

/-! ### The timer (R46, R59) -/

/-- The timer of a core whose cluster's clock stands sets nothing. -/
theorem exec_timerMatch_clockHeld {s : State} {k : Nat} (h : (s.core k).clockHeld ≠ none) : exec (.timerMatch k) s = .next s :=
  congrArg Host.Outcome.next (if_neg fun hdue => h hdue.2.1)

/-- Core 0 with its cluster's clock stopped, its timer due at 0. -/
def clockStopped : State := State.reset.setCore 0 { Core.cold with timerCmp := 0, clockHeld := some 0 }

theorem clockStopped_core : clockStopped.core 0 = { Core.cold with timerCmp := 0, clockHeld := some 0 } := State.core_setCore_same ..

/-- Refutes O30: in `clockStopped` `SYS_ELAPSED` has reached `STC_TIMER_CMP`, yet `TIMER` is not set, since the core's clock stands (R59);
the statement has no hypothesis on the clock. -/
theorem not_watchdogAndTimer : ¬ Obligations.WatchdogAndTimer := by
  intro h
  obtain ⟨-, htimer⟩ := h clockStopped 0
  obtain ⟨hset, -⟩ := htimer rfl
  have hreached : (clockStopped.core 0).timerCmp.toNat ≤ clockStopped.elapsed.toNat := by rw [clockStopped_core]; exact Nat.le_refl 0
  have hstays := exec_timerMatch_clockHeld (s := clockStopped) (k := 0) (by rw [clockStopped_core]; exact nofun)
  have hsame := Host.Outcome.next.inj (hstays.symm.trans (hset hreached))
  have hpend := congrArg (fun t => (t.core 0).irqPend) hsame
  simp only [State.core_setCore_same, clockStopped_core] at hpend
  exact absurd hpend (by decide)

end Sys2Proof.Machine
end

section
/-! SUPPORT. Starting and stopping stream cores, and doorbells (R56 to R58). -/

namespace Sys2Proof.Machine

section RunBits
variable {s : State} {k : Nat}

/-- A start of a core that is fenced, or whose `RUN` bit reads 1, is none. -/
theorem State.runCore_none (h : s.coreFenced k = true ∨ s.regBit (rStcClCtl (k / 8)) (k % 8) = true) : s.runCore k = s := if_pos h

theorem State.runCore_stopped (hf : s.coreFenced k = false) (hb : s.regBit (rStcClCtl (k / 8)) (k % 8) = false)
    (hr : (s.core k).run = .stopped) :
    s.runCore k = (s.setRegBit (rStcClCtl (k / 8)) (k % 8)).setCore k ((s.core k).started s.elapsed s.slowTotal) := by
  rw [State.runCore, if_neg (by simp [hf, hb])]
  simp only [hr]
  rfl

/-- A stop of a running core: it has stopped at once where nothing is outstanding. -/
theorem State.stopCore_running (hb : s.regBit (rStcClCtl (k / 8)) (k % 8) = true) (hr : (s.core k).run = .running) :
    s.stopCore k = (s.clearRegBit (rStcClCtl (k / 8)) (k % 8)).setCore k { s.core k with
      run := if (s.core k).loads = [] ∧ (s.core k).stores = [] then .stopped else .stopping false, waiting := .issuing } := by
  have hcore : (s.clearRegBit (rStcClCtl (k / 8)) (k % 8)).core k = s.core k := rfl
  rw [State.stopCore, if_neg (not_not.2 hb)]
  simp only [hr, State.modCore, hcore, State.completeStop, State.core_setCore_same, List.isEmpty_iff]
  split <;> simp

theorem State.completeStop_stopping (hr : (s.core k).run = .stopping false) (hl : (s.core k).loads = []) (hs : (s.core k).stores = []) :
    s.completeStop k = s.setCore k { s.core k with run := .stopped } := by
  simp [State.completeStop, hr, hl, hs, State.modCore]

end RunBits

/-! ### Doorbells (R56, R58) -/

/-- A doorbell rings core `j`: its bit is set, and the core is not fenced. -/
def State.rings (s : State) (ring : BitVec 8) (j : Nat) : Bool := ring.getLsbD (j % 8) && ! s.coreFenced j

theorem State.rings_iff (s : State) (ring : BitVec 8) (cl : Nat) {n : Nat} (hn : n < 8) :
    s.rings ring (8 * cl + n) = true ↔ ring.toNat / 2 ^ n % 2 = 1 ∧ ¬ s.coreFenced (8 * cl + n) = true := by
  have hmod : (8 * cl + n) % 8 = n := by omega
  simp [State.rings, hmod, BitVec.getLsbD, Nat.testBit_eq_decide_div_mod_eq]

/-- Those rung have the source pending; the other engines, and the rest of the state, stay. -/
theorem State.ringDoorbell_spec (s : State) (cl : Nat) (ring : BitVec 8) :
    let t := s.ringDoorbell cl ring.toNat
    t = { s with cores := t.cores } ∧ ∀ j, t.core j = if j / 8 = cl ∧ s.rings ring j = true
      then { s.core j with irqPend := (s.core j).irqPend ||| 0x20000 } else s.core j := by
  have hpass : s.ringDoorbell cl ring.toNat = ((List.range 8).map (8 * cl + ·)).foldl (fun t j =>
      if s.rings ring j = true then t.modCore j fun c => { c with irqPend := c.irqPend ||| 0x20000 } else t) s := by
    rw [List.foldl_map]
    exact List.foldl_ext _ _ _ fun t n hn => if_congr (s.rings_iff ring cl (List.mem_range.1 hn)).symm rfl rfl
  have h := State.foldl_setCore (op := fun t j => t.modCore j fun c => { c with irqPend := c.irqPend ||| 0x20000 })
    (f := fun c => { c with irqPend := c.irqPend ||| 0x20000 }) (s := s) (s.rings ring) (nodup_cluster cl)
    fun t j _ _ ht => by rw [State.modCore, ht]
  simp only [mem_cluster, ← hpass] at h
  exact h

/-- Settles O31: a start and a stop change the core and its `RUN` bit, and a doorbell the sources of the cores it rings (R56 to R58). -/
theorem startsStopsAndDoorbells : Obligations.StartsStopsAndDoorbells := by
  refine ⟨?runBits, fun s cl ring hcl => ?doorbell⟩
  case runBits =>
    intro s k hk c
    have hrun : exec (.runCore k) s = .next (s.runCore k) := congrArg Host.Outcome.next (if_pos hk)
    have hstop : exec (.stopCore k) s = .next (s.stopCore k) := congrArg Host.Outcome.next (if_pos hk)
    refine ⟨fun h => ?none, fun hf hb hr => ?start, fun hb hr => ?stop, fun hr hl hs => ?stopped⟩
    case none => rw [hrun, State.runCore_none h]
    case start =>
      rw [hrun, State.runCore_stopped hf hb hr]
      refine ⟨_, rfl, fun j hj => State.core_setCore_other _ _ _ _ hj, rfl, ?_⟩
      rw [State.core_setCore_same]
      exact ⟨rfl, rfl, rfl, rfl, rfl, rfl, rfl, rfl, rfl, rfl, rfl, rfl, rfl, rfl, rfl, rfl, rfl⟩
    case stop =>
      rw [hstop, State.stopCore_running hb hr]
      refine ⟨_, rfl, fun j hj => State.core_setCore_other _ _ _ _ hj, rfl, fun hl hs => ?_, fun ho => ?_⟩
      · rw [State.core_setCore_same, if_pos ⟨hl, hs⟩]
      · rw [State.core_setCore_same, if_neg fun hno => ho.elim (· hno.1) (· hno.2)]
    case stopped => exact congrArg Host.Outcome.next (State.completeStop_stopping hr hl hs)
  case doorbell =>
    obtain ⟨honly, hcores⟩ := s.ringDoorbell_spec cl ring
    refine ⟨_, congrArg Host.Outcome.next (if_pos hcl), honly, fun j => (hcores j).trans ?_⟩
    simp only [State.rings, Bool.and_eq_true, Bool.not_eq_true']

end Sys2Proof.Machine
end

section
/-! SUPPORT. Every instruction of the engines has one word, and every word that decodes is the word of its instruction (R65 to R84). -/

namespace Sys2Proof.Machine

/-! ### The fields of a word that a format puts together (R65) -/

section Formats
variable (op : BitVec 6) (d a b : BitVec 5)

theorem fields_wordR (func : BitVec 11) : fieldOp (wordR op d a b func) = op ∧ fieldD (wordR op d a b func) = d ∧
    fieldA (wordR op d a b func) = a ∧ fieldB (wordR op d a b func) = b ∧ fieldFunc (wordR op d a b func) = func := by
  simp only [fieldOp, fieldD, fieldA, fieldB, fieldFunc, wordR]
  refine ⟨?_, ?_, ?_, ?_, ?_⟩
  all_goals repeat rw [BitVec.extractLsb'_append_eq_of_le (by decide)]
  · exact BitVec.extractLsb'_eq_self
  all_goals exact BitVec.extractLsb'_append_eq_right

theorem fields_wordI (imm : BitVec 16) : fieldOp (wordI op d a imm) = op ∧ fieldD (wordI op d a imm) = d ∧
    fieldA (wordI op d a imm) = a ∧ fieldImm (wordI op d a imm) = imm := by
  simp only [fieldOp, fieldD, fieldA, fieldImm, wordI]
  refine ⟨?_, ?_, ?_, ?_⟩
  all_goals repeat rw [BitVec.extractLsb'_append_eq_of_le (by decide)]
  · exact BitVec.extractLsb'_eq_self
  all_goals exact BitVec.extractLsb'_append_eq_right

theorem fields_wordH (kind : BitVec 2) (n : BitVec 6) : fieldOp (wordH d a kind n) = 0x09 ∧ fieldD (wordH d a kind n) = d ∧
    fieldA (wordH d a kind n) = a ∧ fieldKind (wordH d a kind n) = kind ∧ fieldZero (wordH d a kind n) = 0 ∧
    fieldAmount (wordH d a kind n) = n := by
  simp only [fieldOp, fieldD, fieldA, fieldKind, fieldZero, fieldAmount, wordH]
  refine ⟨?_, ?_, ?_, ?_, ?_, ?_⟩
  all_goals repeat rw [BitVec.extractLsb'_append_eq_of_le (by decide)]
  · exact BitVec.extractLsb'_eq_self
  all_goals exact BitVec.extractLsb'_append_eq_right

theorem fields_wordV (p : BitVec 3) (esz : BitVec 2) (func : BitVec 6) : fieldOp (wordV op d a b p esz func) = op ∧
    fieldD (wordV op d a b p esz func) = d ∧ fieldA (wordV op d a b p esz func) = a ∧ fieldB (wordV op d a b p esz func) = b ∧
    fieldP (wordV op d a b p esz func) = p ∧ fieldEsz (wordV op d a b p esz func) = esz ∧
    fieldVfunc (wordV op d a b p esz func) = func := by
  simp only [fieldOp, fieldD, fieldA, fieldB, fieldP, fieldEsz, fieldVfunc, wordV]
  refine ⟨?_, ?_, ?_, ?_, ?_, ?_, ?_⟩
  all_goals repeat rw [BitVec.extractLsb'_append_eq_of_le (by decide)]
  · exact BitVec.extractLsb'_eq_self
  all_goals exact BitVec.extractLsb'_append_eq_right

theorem fields_wordS (func : BitVec 4) (imm : BitVec 12) : fieldOp (wordS d a func imm) = 0x3A ∧ fieldD (wordS d a func imm) = d ∧
    fieldA (wordS d a func imm) = a ∧ fieldSfunc (wordS d a func imm) = func ∧ fieldImm12 (wordS d a func imm) = imm := by
  simp only [fieldOp, fieldD, fieldA, fieldSfunc, fieldImm12, wordS]
  refine ⟨?_, ?_, ?_, ?_, ?_⟩
  all_goals repeat rw [BitVec.extractLsb'_append_eq_of_le (by decide)]
  · exact BitVec.extractLsb'_eq_self
  all_goals exact BitVec.extractLsb'_append_eq_right

end Formats

/-- A predicate register's field names that register. -/
theorem predField_predBits : ∀ p : BitVec 3, predField (predBits p) = some p := by decide

theorem predBits_of_predField : ∀ {x : BitVec 5} {p : BitVec 3}, predField x = some p → predBits p = x := by decide

/-- The mask of a `cbar` fills the low byte of its field. -/
theorem maskField_lt (mask : BitVec 8) : (0#4 ++ mask).toNat < 0x100 := by
  rw [BitVec.toNat_append]
  simp only [BitVec.toNat_ofNat, Nat.zero_mod, Nat.zero_shiftLeft, Nat.zero_or]
  exact mask.isLt

theorem maskField_mask (mask : BitVec 8) : (0#4 ++ mask).setWidth 8 = mask := BitVec.setWidth_append_eq_right

theorem maskField_of_lt {imm : BitVec 12} (h : imm.toNat < 0x100) : imm = 0#4 ++ imm.setWidth 8 := by
  apply BitVec.eq_of_toNat_eq
  rw [BitVec.toNat_append]
  simp only [BitVec.toNat_ofNat, Nat.zero_mod, Nat.zero_shiftLeft, Nat.zero_or, BitVec.toNat_setWidth]
  exact (Nat.mod_eq_of_lt h).symm

/-! ### A word is put together from its fields -/

section Fields
variable {w : Word32} {op : BitVec 6} {d a b : BitVec 5} (hd : fieldD w = d) (ha : fieldA w = a)
include hd ha

theorem wordR_eq {func : BitVec 11} (ho : (fieldOp w).toNat = op.toNat) (hb : fieldB w = b) (hf : (fieldFunc w).toNat = func.toNat) :
    wordR op d a b func = w := by
  rw [← BitVec.eq_of_toNat_eq ho, ← hd, ← ha, ← hb, ← BitVec.eq_of_toNat_eq hf, fieldOp, fieldD, fieldA, fieldB, fieldFunc, wordR]
  iterate 4 rw [BitVec.extractLsb'_append_extractLsb'_eq_extractLsb' (by decide)]
  exact BitVec.extractLsb'_eq_self

theorem wordI_eq (ho : (fieldOp w).toNat = op.toNat) : wordI op d a (fieldImm w) = w := by
  rw [← BitVec.eq_of_toNat_eq ho, ← hd, ← ha, fieldOp, fieldD, fieldA, fieldImm, wordI]
  iterate 3 rw [BitVec.extractLsb'_append_extractLsb'_eq_extractLsb' (by decide)]
  exact BitVec.extractLsb'_eq_self

theorem wordH_eq {kind : BitVec 2} (ho : (fieldOp w).toNat = 0x09) (hz : fieldZero w = 0) (hf : (fieldKind w).toNat = kind.toNat) :
    wordH d a kind (fieldAmount w) = w := by
  have hop : fieldOp w = 0x09#6 := BitVec.eq_of_toNat_eq ho
  have hzero : 0#8 = fieldZero w := hz.symm
  rw [wordH, ← hop, hzero, ← hd, ← ha, ← BitVec.eq_of_toNat_eq hf, fieldOp, fieldD, fieldA, fieldKind, fieldZero, fieldAmount]
  iterate 5 rw [BitVec.extractLsb'_append_extractLsb'_eq_extractLsb' (by decide)]
  exact BitVec.extractLsb'_eq_self

theorem wordV_eq {p : BitVec 3} {esz : BitVec 2} {func : BitVec 6} (ho : (fieldOp w).toNat = op.toNat) (hb : fieldB w = b)
    (hp : fieldP w = p) (he : fieldEsz w = esz) (hf : (fieldVfunc w).toNat = func.toNat) : wordV op d a b p esz func = w := by
  rw [← BitVec.eq_of_toNat_eq ho, ← hd, ← ha, ← hb, ← hp, ← he, ← BitVec.eq_of_toNat_eq hf, fieldOp, fieldD, fieldA, fieldB, fieldP,
    fieldEsz, fieldVfunc, wordV]
  iterate 6 rw [BitVec.extractLsb'_append_extractLsb'_eq_extractLsb' (by decide)]
  exact BitVec.extractLsb'_eq_self

theorem wordS_eq {func : BitVec 4} {imm : BitVec 12} (ho : (fieldOp w).toNat = 0x3A) (hf : (fieldSfunc w).toNat = func.toNat)
    (hi : fieldImm12 w = imm) : wordS d a func imm = w := by
  have hop : fieldOp w = 0x3A#6 := BitVec.eq_of_toNat_eq ho
  rw [wordS, ← hop, ← hd, ← ha, ← hi, ← BitVec.eq_of_toNat_eq hf, fieldOp, fieldD, fieldA, fieldSfunc, fieldImm12]
  iterate 4 rw [BitVec.extractLsb'_append_extractLsb'_eq_extractLsb' (by decide)]
  exact BitVec.extractLsb'_eq_self

end Fields

/-! ### A word that decodes is the word of its instruction, for each table of codes -/

section Decoders
variable {k : Nat} {w : Word32} {i : Instr}

theorem encoding_congr {u v : Word32} (h : u = v) : some (k, u) = some (k, v) := by rw [h]

theorem encodeWord_of_decodeInteger (ho : (fieldOp w).toNat = 0x01) (h : decodeInteger k w = some i) : encodeWord i = some (k, w) := by
  dsimp only [decodeInteger] at h
  split at h
  case h_20 hf | h_21 hf | h_22 hf | h_23 hf =>
    obtain ⟨hb, h⟩ := Option.ite_none_right_eq_some.1 h
    cases h
    exact encoding_congr (wordR_eq rfl rfl ho hb hf)
  case h_24 => cases h
  all_goals
    cases h
    exact encoding_congr (wordR_eq rfl rfl ho rfl ‹_›)

theorem encodeWord_of_decodeShift (ho : (fieldOp w).toNat = 0x09) (h : decodeShift k w = some i) : encodeWord i = some (k, w) := by
  dsimp only [decodeShift] at h
  obtain ⟨hz, h⟩ := Option.ite_none_left_eq_some.1 h
  have hk := (fieldKind w).isLt
  split at h
  case h_4 h0 h1 h2 =>
    have hother : (fieldKind w).toNat ≠ 0 ∧ (fieldKind w).toNat ≠ 1 ∧ (fieldKind w).toNat ≠ 2 := ⟨h0, h1, h2⟩
    have h3 : (fieldKind w).toNat = 3 := by omega
    cases h
    exact encoding_congr (wordH_eq rfl rfl ho (not_not.1 hz) h3)
  all_goals
    cases h
    exact encoding_congr (wordH_eq rfl rfl ho (not_not.1 hz) ‹_›)

theorem encodeWord_of_decodeAtomic (ho : (fieldOp w).toNat = 0x1E) (h : decodeAtomic k w = some i) : encodeWord i = some (k, w) := by
  dsimp only [decodeAtomic] at h
  split at h
  case h_4 => cases h
  all_goals
    cases h
    exact encoding_congr (wordR_eq rfl rfl ho rfl ‹_›)

theorem encodeWord_of_decodeVector (ho : (fieldOp w).toNat = 0x30) (h : decodeVector k w = some i) : encodeWord i = some (k, w) := by
  dsimp only [decodeVector] at h
  split at h
  case h_13 hf | h_16 hf | h_17 hf | h_18 hf =>
    obtain ⟨hb, h⟩ := Option.ite_none_right_eq_some.1 h
    cases h
    exact encoding_congr (wordV_eq rfl rfl ho hb rfl rfl hf)
  case h_19 => cases h
  all_goals
    cases h
    exact encoding_congr (wordV_eq rfl rfl ho rfl rfl rfl ‹_›)

theorem encodeWord_of_decodeCompare (ho : (fieldOp w).toNat = 0x31) (h : decodeCompare k w = some i) : encodeWord i = some (k, w) := by
  dsimp only [decodeCompare] at h
  split at h
  case h_5 => cases h
  all_goals
    rename_i hd hf
    cases h
    exact encoding_congr (wordV_eq (predBits_of_predField hd).symm rfl ho rfl rfl rfl hf)

theorem encodeWord_of_decodePermute (ho : (fieldOp w).toNat = 0x32) (h : decodePermute k w = some i) : encodeWord i = some (k, w) := by
  dsimp only [decodePermute] at h
  obtain ⟨he, h⟩ := Option.ite_none_left_eq_some.1 h
  split at h
  case h_3 => cases h
  all_goals
    cases h
    exact encoding_congr (wordV_eq rfl rfl ho rfl rfl (not_not.1 he) ‹_›)

theorem encodeWord_of_decodeGf (ho : (fieldOp w).toNat = 0x33) (h : decodeGf k w = some i) : encodeWord i = some (k, w) := by
  dsimp only [decodeGf] at h
  obtain ⟨he, h⟩ := Option.ite_none_left_eq_some.1 h
  split at h
  case h_4 => cases h
  all_goals
    cases h
    exact encoding_congr (wordV_eq rfl rfl ho rfl rfl (not_not.1 he) ‹_›)

theorem encodeWord_of_decodePredicate (ho : (fieldOp w).toNat = 0x35) (h : decodePredicate k w = some i) :
    encodeWord i = some (k, w) := by
  dsimp only [decodePredicate] at h
  obtain ⟨hzero, h⟩ := Option.ite_none_left_eq_some.1 h
  obtain ⟨hp, he⟩ : fieldP w = 0 ∧ fieldEsz w = 0 := by simpa using hzero
  split at h
  case h_5 hf hd =>
    obtain ⟨hb, h⟩ := Option.ite_none_right_eq_some.1 h
    cases h
    exact encoding_congr (wordV_eq (predBits_of_predField hd).symm rfl ho hb hp he hf)
  case h_6 hf ha | h_7 hf ha =>
    obtain ⟨hb, h⟩ := Option.ite_none_right_eq_some.1 h
    cases h
    exact encoding_congr (wordV_eq rfl (predBits_of_predField ha).symm ho hb hp he hf)
  case h_8 => cases h
  all_goals
    rename_i hf hd ha hb
    cases h
    exact encoding_congr (wordV_eq (predBits_of_predField hd).symm (predBits_of_predField ha).symm ho (predBits_of_predField hb).symm
      hp he hf)

theorem encodeWord_of_decodeSystem (ho : (fieldOp w).toNat = 0x3A) (h : decodeSystem k w = some i) : encodeWord i = some (k, w) := by
  dsimp only [decodeSystem] at h
  split at h
  case h_3 hf =>
    obtain ⟨⟨hd, ha, hi⟩, h⟩ := Option.ite_none_right_eq_some.1 h
    cases h
    exact encoding_congr (wordS_eq hd ha ho hf (maskField_of_lt hi))
  case h_6 hf =>
    obtain ⟨⟨hd, ha⟩, h⟩ := Option.ite_none_right_eq_some.1 h
    cases h
    exact encoding_congr (wordS_eq hd ha ho hf rfl)
  case h_7 hf =>
    obtain ⟨ha, h⟩ := Option.ite_none_right_eq_some.1 h
    cases h
    exact encoding_congr (wordS_eq rfl ha ho hf rfl)
  case h_8 hf =>
    obtain ⟨hd, h⟩ := Option.ite_none_right_eq_some.1 h
    cases h
    exact encoding_congr (wordS_eq hd rfl ho hf rfl)
  case h_9 => cases h
  all_goals
    obtain ⟨⟨hd, ha, hi⟩, h⟩ := Option.ite_none_right_eq_some.1 h
    cases h
    exact encoding_congr (wordS_eq hd ha ho ‹_› hi)

/-- The tables of codes by major opcode (R67); the opcodes of format I name their instruction alone. -/
theorem encodeWord_of_decodeWord (h : decodeWord k w = some i) : encodeWord i = some (k, w) := by
  dsimp only [decodeWord] at h
  split at h
  case h_1 ho => exact encodeWord_of_decodeInteger ho h
  case h_9 ho => exact encodeWord_of_decodeShift ho h
  case h_23 ho => exact encodeWord_of_decodeAtomic ho h
  case h_35 ho => exact encodeWord_of_decodeVector ho h
  case h_36 ho => exact encodeWord_of_decodeCompare ho h
  case h_37 ho => exact encodeWord_of_decodePermute ho h
  case h_38 ho => exact encodeWord_of_decodeGf ho h
  case h_39 ho => exact encodeWord_of_decodePredicate ho h
  case h_42 ho => exact encodeWord_of_decodeSystem ho h
  case h_43 => cases h
  case h_8 ho | h_33 ho =>
    obtain ⟨ha, h⟩ := Option.ite_none_right_eq_some.1 h
    cases h
    exact encoding_congr (wordI_eq rfl ha ho)
  case h_24 ho =>
    obtain ⟨⟨hb, he, hf⟩, h⟩ := Option.ite_none_right_eq_some.1 h
    cases h
    exact encoding_congr (wordV_eq rfl rfl ho hb rfl he (congrArg BitVec.toNat hf))
  case h_31 ho | h_32 ho =>
    obtain ⟨ha, h⟩ := Option.ite_none_right_eq_some.1 h
    obtain ⟨p, hp, rfl⟩ := Option.map_eq_some_iff.1 h
    exact encoding_congr (wordI_eq (predBits_of_predField hp).symm ha ho)
  case h_40 ho | h_41 ho =>
    obtain ⟨hf, h⟩ := Option.ite_none_right_eq_some.1 h
    cases h
    exact encoding_congr (wordR_eq rfl rfl ho rfl (congrArg BitVec.toNat hf))
  all_goals
    cases h
    exact encoding_congr (wordI_eq rfl rfl ‹_›)

end Decoders

/-- The decoder reads an instruction's word by its fields, which the word's format gives back. -/
theorem decodeWord_encodeWord {i : Instr} {f : EngineForm} (h : engineForm i = some f) :
    ∃ w, encodeWord i = some (f.engine, w) ∧ decodeWord f.engine w = some i := by
  cases i <;> cases h
  all_goals
    refine ⟨_, rfl, ?_⟩
    simp only [decodeWord, decodeInteger, decodeShift, decodeAtomic, decodeVector, decodeCompare, decodePermute, decodeGf,
      decodePredicate, decodeSystem, fields_wordR, fields_wordI, fields_wordH, fields_wordV, fields_wordS, predField_predBits,
      maskField_lt, maskField_mask, BitVec.ofNat_eq_ofNat, BitVec.reduceToNat, Option.map_some, ne_eq, not_true_eq_false, or_self,
      and_self, if_true, if_false]

/-- Settles O8: each format gives its fields back, and a word is what its format makes of its fields (R65 to R67). -/
theorem encodingRoundTrip : Obligations.EncodingRoundTrip :=
  ⟨fun _ _ => decodeWord_encodeWord, fun _ _ _ => encodeWord_of_decodeWord⟩

end Sys2Proof.Machine
end

section
/-! SUPPORT. The value that an instruction gives its register: the integer and immediate instructions (R68, R69). -/

namespace Sys2Proof.Machine

/-! ### An instruction that gives a register a value and goes on -/

section Retires
variable {s : State} {k : Nat} {g : InstrGroup} {gs vs : List (BitVec 5)} {body : State → State} (hn : s.hasNext k = true)
  (h : s.executes k g gs vs = true)
include hn h

theorem State.instr_retiresG {d : BitVec 5} {v : Word64} (hb : body (s.fetched k) = (s.fetched k).retireG k d v) :
    s.instr k g gs vs body = s.retired k (Core.putG d v) := by
  rw [State.instr_executes body h, hb, State.retireG_retired d v hn (State.executes_issuing h).1]

theorem State.instr_retiresV {d : BitVec 5} {v : Vec} (hb : body (s.fetched k) = (s.fetched k).retireV k d v) :
    s.instr k g gs vs body = s.retired k (Core.putV d v) := by
  rw [State.instr_executes body h, hb, State.retireV_retired d v hn (State.executes_issuing h).1]

theorem State.instr_retiresP {d : BitVec 3} {v : Word64} (hb : body (s.fetched k) = (s.fetched k).retireP k d v) :
    s.instr k g gs vs body = s.retired k (Core.setP d v) := by
  rw [State.instr_executes body h, hb, State.retireP_retired d v hn (State.executes_issuing h).1]

end Retires

section Alu
variable {s : State} {k : Nat} {a b : BitVec 5} (d : BitVec 5) (hn : s.hasNext k = true)
include hn

theorem State.alu2_executes (f : Word64 → Word64 → Word64) (h : s.executes k .base [a, b] [] = true) :
    s.alu2 k d a b f = s.retired k (Core.putG d (f ((s.core k).getG a) ((s.core k).getG b))) :=
  State.instr_retiresG hn h (by simp only [State.core_fetched])

theorem State.alu1_executes (f : Word64 → Word64) (h : s.executes k .base [a] [] = true) :
    s.alu1 k d a f = s.retired k (Core.putG d (f ((s.core k).getG a))) :=
  State.instr_retiresG hn h (by simp only [State.core_fetched])

end Alu

/-! ### The values, as numbers -/

section Words
variable (x y : Word64)

theorem sshiftRight_eq_ofInt_div (n : Nat) : x.sshiftRight n = BitVec.ofInt 64 (x.toInt / (2 ^ n : Nat)) := by
  rw [BitVec.sshiftRight, Int.shiftRight_eq_div_pow]

theorem flagWord_slt : flagWord (x.slt y) = if x.toInt < y.toInt then 1 else 0 := by
  simp only [flagWord, BitVec.slt_eq_decide, decide_eq_true_eq]

theorem flagWord_ult : flagWord (x.ult y) = if x.toNat < y.toNat then 1 else 0 := by
  simp only [flagWord, BitVec.ult_eq_decide, decide_eq_true_eq]

theorem mul_eq_ofNat : x * y = BitVec.ofNat 64 (x.toNat * y.toNat) :=
  BitVec.eq_of_toNat_eq ((BitVec.toNat_mul x y).trans (BitVec.toNat_ofNat ..).symm)

theorem minu_eq_ofNat : (if x.ult y then x else y) = BitVec.ofNat 64 (min x.toNat y.toNat) := by
  simp only [BitVec.ult_eq_decide, decide_eq_true_eq]
  split
  · rw [Nat.min_eq_left (by omega), BitVec.ofNat_toNat, BitVec.setWidth_eq]
  · rw [Nat.min_eq_right (by omega), BitVec.ofNat_toNat, BitVec.setWidth_eq]

theorem maxu_eq_ofNat : (if x.ult y then y else x) = BitVec.ofNat 64 (max x.toNat y.toNat) := by
  simp only [BitVec.ult_eq_decide, decide_eq_true_eq]
  split
  · rw [Nat.max_eq_right (by omega), BitVec.ofNat_toNat, BitVec.setWidth_eq]
  · rw [Nat.max_eq_left (by omega), BitVec.ofNat_toNat, BitVec.setWidth_eq]

theorem predCount_eq_filter : predCount x = BitVec.ofNat 64 ((List.range 64).filter x.getLsbD).length :=
  congrArg (BitVec.ofNat 64) (countOnes_filter 64 x.toNat)

/-- The constant that `cshl` shifts in fills the 16 bits that the shift has freed. -/
theorem shiftIn_eq_ofNat (imm : BitVec 16) : x <<< 16 ||| zextImm imm = BitVec.ofNat 64 (x.toNat % 2 ^ 48 * 2 ^ 16 + imm.toNat) := by
  have himm := imm.isLt
  have hhigh : x.toNat <<< 16 % 2 ^ 64 = (x.toNat % 2 ^ 48) <<< 16 := by
    simp only [Nat.shiftLeft_eq]
    omega
  have hlow : imm.toNat % 2 ^ 64 = imm.toNat := by omega
  apply BitVec.eq_of_toNat_eq
  rw [BitVec.toNat_or, BitVec.toNat_shiftLeft, hhigh, zextImm, BitVec.toNat_setWidth, hlow, BitVec.toNat_ofNat,
    ← Nat.shiftLeft_add_eq_or_of_lt himm, Nat.shiftLeft_eq]
  omega

theorem toInt_sextImm (imm : BitVec 16) : (sextImm imm).toInt = imm.toInt := BitVec.toInt_signExtend_of_le (by decide)

end Words

/-- Settles O9: each operation gives `gd` its function of the sources, and the counts are those of `Laws/Bits` (R68). -/
theorem integerResults : Obligations.IntegerResults := by
  refine ⟨?two, ?one⟩
  case two =>
    intro s k d a b h hn x y n gives
    have hgives (f : Word64 → Word64 → Word64) {v : Word64} (hv : f x y = v) : Host.Outcome.next (s.alu2 k d a b f) = gives v :=
      congrArg _ ((State.alu2_executes d hn f h).trans (by rw [hv]))
    have hn64 : n < 64 := Nat.mod_lt _ (by decide)
    exact ⟨hgives _ rfl, hgives _ rfl, hgives _ rfl, hgives _ rfl, hgives _ rfl, hgives _ rfl, hgives _ rfl, hgives _ rfl,
      hgives _ (sshiftRight_eq_ofInt_div x n), hgives _ (BitVec.rotateLeft_eq_rotateLeftAux_of_lt hn64), hgives _ (flagWord_slt x y),
      hgives _ (flagWord_ult x y), hgives _ (mul_eq_ofNat x y), hgives _ rfl, hgives _ rfl, hgives _ (by rw [BitVec.udiv_def]),
      hgives _ (by rw [BitVec.umod_def]), hgives _ (minu_eq_ofNat x y), hgives _ (maxu_eq_ofNat x y)⟩
  case one =>
    intro s k d a h hn x gives
    have hgives (f : Word64 → Word64) {v : Word64} (hv : f x = v) : Host.Outcome.next (s.alu1 k d a f) = gives v :=
      congrArg _ ((State.alu1_executes d hn f h).trans (by rw [hv]))
    have hzero : x = 0 ↔ x.toNat = 0 := ⟨fun h => congrArg BitVec.toNat h, fun h => BitVec.eq_of_toNat_eq h⟩
    obtain ⟨hclz, hbelow, htop⟩ := leadingZeros_spec 64 x.toNat x.isLt
    obtain ⟨hctz, hnone, hlowest⟩ := trailingZeros_spec 64 x.toNat x.isLt
    exact ⟨⟨_, hclz, hgives _ rfl, hbelow, htop⟩, ⟨_, hctz, hgives _ rfl, fun h0 => hnone (hzero.1 h0), fun h0 => hlowest (mt hzero.2 h0)⟩,
      hgives _ (predCount_eq_filter x), ⟨_, hgives _ rfl, bswap64_byte x⟩⟩

/-- Settles O10: each instruction gives `gd` its function of `ga` and the constant (R69). -/
theorem immediateResults : Obligations.ImmediateResults := by
  intro s k d a imm n hn x gives
  refine ⟨fun h => ?onRegister, fun h => congrArg _ (State.instr_retiresG hn h rfl)⟩
  have hgives (f : Word64 → Word64) {v : Word64} (hv : f x = v) : Host.Outcome.next (s.alu1 k d a f) = gives v :=
    congrArg _ ((State.alu1_executes d hn f h).trans (by rw [hv]))
  have hltk : flagWord (x.slt (sextImm imm)) = if x.toInt < imm.toInt then 1 else 0 := by rw [flagWord_slt, toInt_sextImm]
  exact ⟨hgives _ rfl, hgives _ rfl, hgives _ rfl, hgives _ rfl, hgives _ hltk, hgives _ (shiftIn_eq_ofNat x imm), hgives _ rfl,
    hgives _ rfl, hgives _ (sshiftRight_eq_ofInt_div x n.toNat), hgives _ (BitVec.rotateLeft_eq_rotateLeftAux_of_lt n.isLt)⟩

end Sys2Proof.Machine
end

section
/-! SUPPORT. What the vector, compare and predicate instructions write (R34, R76 to R80). -/

namespace Sys2Proof.Machine

/-- A merge under a predicate writes the active elements (R34). -/
theorem State.instr_merges {s : State} {k : Nat} {g : InstrGroup} {gs vs : List (BitVec 5)} {body : State → State} {d : BitVec 5}
    {eb : Nat} {q : Word64} {f f' : Nat → Nat} (hn : s.hasNext k = true) (h : s.executes k g gs vs = true)
    (hb : body (s.fetched k) = (s.fetched k).retireV k d (vecMerge eb q ((s.core k).getV d) f)) (hf : ∀ e, f e = f' e) :
    s.writesElems k d eb q f' (.next (s.instr k g gs vs body)) := by
  obtain rfl : f = f' := funext hf
  exact ⟨_, congrArg _ (State.instr_retiresV hn h hb), elem_vecMerge eb q _ f⟩

/-- An element-wise instruction on two vector registers. -/
theorem State.vec2_merges {s : State} {k : Nat} {g : InstrGroup} {d a b : BitVec 5} {p : BitVec 3} {eb : Nat} (hn : s.hasNext k = true)
    (h : s.executes k g [] [d, a, b] = true) (f : Nat → Nat → Nat) {f' : Nat → Nat → Nat} (hf : ∀ x y, f x y = f' x y) :
    s.writesElems k d eb ((s.core k).getP p) (fun e => f' (elem eb ((s.core k).getV a) e) (elem eb ((s.core k).getV b) e))
      (.next (s.vec2 k d a b p eb g f)) :=
  State.instr_merges hn h (by simp only [State.core_fetched]) fun _ => hf _ _

/-- The high bit of a byte. -/
theorem le_byte_iff {x : Nat} (h : x < 256) : 128 ≤ x ↔ x / 128 = 1 := by omega

/-- Settles O11: each instruction merges its elements under the predicate, but `vsel`, which writes them all (R76, R78, R80). -/
theorem vectorResults : Obligations.VectorResults := by
  intro s k d a b p esz hn c eb w q x y
  refine ⟨fun h => ?two, fun h => ?select, fun h => ?gf, fun h => ?broadcast, fun h => ?insert, fun h => ?move⟩
  case two =>
    have hmerge (f : Nat → Nat → Nat) {f' : Nat → Nat → Nat} (hf : ∀ x y, f x y = f' x y) :=
      State.vec2_merges (p := p) (eb := eb) hn h f hf
    have hsame (f : Nat → Nat → Nat) := hmerge f fun _ _ => rfl
    refine ⟨hsame _, hsame _, hsame _, hsame _, hsame _, hsame _, hsame _, hsame _,
      hmerge _ (f' := fun x y => x * 2 ^ (y % w)) fun x y => Nat.shiftLeft_eq x _,
      hmerge _ (f' := fun x y => x / 2 ^ (y % w)) fun x y => Nat.shiftRight_eq_div_pow x _, hsame _, hsame _, ?permute⟩
    exact State.instr_merges hn h (by simp only [State.core_fetched]; rfl) fun n => if_congr (le_byte_iff (elem_lt 1 _ n)) rfl rfl
  case select =>
    refine ⟨_, congrArg _ (State.instr_retiresV hn h (by simp only [State.core_fetched]; rfl)), fun n hlt => ?_⟩
    have hall : (BitVec.allOnes 64).getLsbD (1 * n) = true := by
      rw [Nat.one_mul, BitVec.getLsbD_allOnes]
      exact decide_eq_true hlt
    rw [elem_vecOf 1 _ n hlt, if_pos hall]
  case gf =>
    have hmerge {eb : Nat} (f : Nat → Nat → Nat) := State.vec2_merges (p := p) (eb := eb) hn h f fun _ _ => rfl
    exact ⟨hmerge _, hmerge _, hmerge _⟩
  all_goals exact State.instr_merges hn h (by simp only [State.core_fetched]; rfl) fun _ => rfl

/-- Settles O12: the element named, and the sum and the exclusive-or over the active ones, go to `gd` (R76). -/
theorem vectorToScalarResults : Obligations.VectorToScalarResults := by
  intro s k d a b p esz hn c eb active gives
  refine ⟨fun h => ?extract, fun h => ⟨?sum, ?xor⟩⟩
  case sum => rw [List.sum_eq_foldl]; exact congrArg _ (State.instr_retiresG hn h (by simp only [State.core_fetched]; rfl))
  all_goals exact congrArg _ (State.instr_retiresG hn h (by simp only [State.core_fetched]; rfl))

/-- Settles O13: a compare writes the bits of its active elements' lanes, and the other instructions a whole register (R77, R79). -/
theorem predicateResults : Obligations.PredicateResults := by
  intro s k hn c
  refine ⟨fun d a b p esz h => ?compare, fun d a b h => ?two, fun d a h => ?fromG, fun d a h => ⟨?toG, ?count⟩⟩
  case compare =>
    intro eb x y gives
    have hbits (f : Nat → Nat → Bool) : gives (fun e => f (x e) (y e)) (.next (s.vcmp k d a b p eb f)) := by
      refine ⟨_, congrArg _ (State.instr_retiresP hn h (by simp only [State.core_fetched]; rfl)), fun n hlt => ?_⟩
      rw [cmpPredicate_bit eb _ _ _ n hlt, Nat.mul_comm eb]
    exact ⟨hbits _, hbits _, hbits _, hbits _⟩
  case two =>
    intro x y gives
    have hgives (f : Word64 → Word64 → Word64) : Host.Outcome.next (s.pred2 k d a b f) = gives (f x y) :=
      congrArg _ (State.instr_retiresP hn h (by simp only [State.core_fetched]; rfl))
    exact ⟨hgives _, hgives _, hgives _, hgives _⟩
  case fromG => exact congrArg _ (State.instr_retiresP hn h (by simp only [State.core_fetched]; rfl))
  case toG => exact congrArg _ (State.instr_retiresG hn h (by simp only [State.core_fetched]; rfl))
  case count =>
    rw [← predCount_eq_filter]
    exact congrArg _ (State.instr_retiresG hn h (by simp only [State.core_fetched]; rfl))

end Sys2Proof.Machine
end

section
/-! SUPPORT. Where branches and calls continue (R36, R74, R75). -/

namespace Sys2Proof.Machine

/-! ### Branches (R74, R87) -/

/-- The target, where the branch's own address and its signed offset give an address at all. -/
theorem branchTarget_eq {pc : BitVec 18} {off : BitVec 16} {target : Nat} (h : (target : Int) = pc.toNat + 4 * off.toInt) :
    branchTarget pc off = target := by
  have hsum : pc.zeroExtend 64 + 4 * sextImm off = BitVec.ofInt 64 target := by
    rw [h, BitVec.ofInt_add, BitVec.ofInt_mul, sextImm, BitVec.signExtend, BitVec.ofInt_natCast, BitVec.ofNat_toNat]
    rfl
  have hlt := BitVec.toInt_lt (x := off)
  have hpc := pc.isLt
  rw [branchTarget, hsum, BitVec.ofInt_natCast, BitVec.toNat_ofNat, Nat.mod_eq_of_lt (by omega)]

section Moves
variable {s : State} {k target : Nat} (ht : fetchable k target = true)
include ht

/-- Registers change after the fetch, and the engine goes on at the target. -/
theorem State.modCore_jump (f : Core → Core) (hw : (f (s.core k)).waiting = .issuing) :
    ((s.fetched k).modCore k f).jump k target = s.movedTo k f (BitVec.ofNat 18 target) := by
  rw [State.jump_fetchable ht, State.modCore, State.core_setCore_same, State.setCore_setCore, State.core_fetched, ← hw]
  rfl

theorem State.jump_fetched (hw : (s.core k).waiting = .issuing) :
    (s.fetched k).jump k target = s.movedTo k id (BitVec.ofNat 18 target) := by
  rw [State.jump_fetchable ht, State.core_fetched, ← hw]
  rfl

end Moves

/-- A predicate of no bits. -/
theorem eq_zero_iff_bits (x : Word64) : x = 0 ↔ ∀ n : Fin 64, x.getLsbD n = false :=
  ⟨fun h _ => h ▸ BitVec.getLsbD_zero, fun h => BitVec.eq_of_getLsbD_eq fun n hn => (h ⟨n, hn⟩).trans BitVec.getLsbD_zero.symm⟩

/-- Settles O16: each condition is the branch's own, and a branch jumps to its target or advances (R74, R87). -/
theorem branchResults : Obligations.BranchResults := by
  intro s k off target htarget goes
  have hgoes {c cond : Bool} (hc : c = cond) (hw : (s.core k).waiting = .issuing) : goes cond (.next ((s.fetched k).branch k c off)) := by
    subst hc
    refine ⟨fun ht hf => congrArg _ ?_, fun hf hn => congrArg _ ?_⟩
    · rw [State.branch, if_pos ht, State.core_fetched, branchTarget_eq htarget, State.jump_fetched hf hw]
    · rw [State.branch, hf, if_neg Bool.false_ne_true, State.advance_fetched hn hw]
  refine ⟨fun a b h => ?general, fun p h hp => ?predicate⟩
  case general =>
    intro x y
    have hbranch (f : Word64 → Word64 → Bool) {cond : Bool} (hf : f x y = cond) : goes cond (.next (s.branchG k a b off f)) := by
      rw [State.branchG, State.instr_executes _ h]
      simp only [State.core_fetched]
      exact hgoes hf (State.executes_issuing h).1
    have hge : (! x.slt y) = decide (y.toInt ≤ x.toInt) := by
      rw [BitVec.slt_eq_decide, ← decide_not, decide_eq_decide, Int.not_lt]
    have hgeu : (! x.ult y) = decide (y.toNat ≤ x.toNat) := by
      rw [BitVec.ult_eq_decide, ← decide_not, decide_eq_decide, Nat.not_lt]
    exact ⟨hbranch _ rfl, hbranch _ decide_not.symm, hbranch _ rfl, hbranch _ hge, hbranch _ rfl, hbranch _ hgeu⟩
  case predicate =>
    intro x
    have hbranch (f : Word64 → Bool) {cond : Bool} (hf : f x = cond) : goes cond (.next (s.branchP k p off f)) := by
      have hmay : ¬ (engineKind k = .keeper ∧ p ≠ 0) := fun ⟨hk, h0⟩ => hp.elim (· hk) h0
      rw [State.branchP, State.instr_executes _ h, if_neg hmay, State.core_fetched]
      exact hgoes hf (State.executes_issuing h).1
    have hany : x ≠ 0 ↔ ∃ n : Fin 64, x.getLsbD n = true := by
      rw [Ne, eq_zero_iff_bits]
      simp
    exact ⟨hbranch _ (decide_not.symm.trans (decide_eq_decide.2 hany)), hbranch _ (decide_eq_decide.2 (eq_zero_iff_bits x))⟩

/-! ### Calls (R75) -/

theorem Core.putG_inExc (d : BitVec 5) (v : Word64) (c : Core) : (c.putG d v).inExc = c.inExc := by
  obtain ⟨g, hg⟩ := c.putG_eq d v
  rw [hg]; rfl

theorem Core.putG_vbase (d : BitVec 5) (v : Word64) (c : Core) : (c.putG d v).vbase = c.vbase := by
  obtain ⟨g, hg⟩ := c.putG_eq d v
  rw [hg]; rfl

/-- Settles O17: the link is written before the engine jumps, so that a bad target is met with it written (R75). -/
theorem callResults : Obligations.CallResults := by
  intro s k d target o hcall link
  obtain ⟨hw, ho⟩ : (s.core k).waiting = .issuing ∧ o = .next (((s.fetched k).modCore k link).jump k target) := by
    rcases hcall with ⟨h, index, rfl, rfl⟩ | ⟨a, imm, h, rfl, rfl⟩
    · refine ⟨(State.executes_issuing h).1, ?_⟩
      show execCall k d index s = _
      rw [execCall, State.instr_executes _ h, State.link, State.core_fetched]
    · refine ⟨(State.executes_issuing h).1, ?_⟩
      show execCallr k d a imm s = _
      rw [execCallr, State.instr_executes _ h, State.link, State.core_fetched]
      rfl
  refine ⟨fun ⟨h4, hlt⟩ => ?good, fun hbad hm => ?bad⟩
  case good =>
    have hf : fetchable k target = true := by simp [fetchable, h4, hlt]
    rw [ho, State.modCore_jump hf link ((Core.putG_waiting ..).trans hw)]
  case bad =>
    have hf : ¬ fetchable k target = true := by simpa [fetchable, imp_iff_not_or] using hbad
    have hc : ((s.fetched k).modCore k link).core k = link (s.core k) := by
      rw [State.modCore, State.core_setCore_same, State.core_fetched]
    have hcan : ((s.fetched k).modCore k link).canEnter k causeFetch :=
      State.canEnter_congr (State.canEnter_of_mayEnter hm)
        (by rw [hc]; exact Core.putG_inExc ..) (by rw [hc]; exact Core.putG_vbase ..) fun j hj =>
        (State.core_setCore_other _ _ _ _ hj).trans (State.core_fetched ..)
    have hepc : target % 0x40000 % 0x40000 / 4 * 4 = target / 4 % 65536 * 4 := by omega
    have hfault : BitVec.ofNat 48 (target % 2 ^ 48) = BitVec.ofNat 48 target := BitVec.eq_of_toNat_eq (by simp)
    rw [ho, State.jump, if_neg hf, State.takeException_inHandler _ _ hcan, hepc, hfault]
    rfl

end Sys2Proof.Machine
end

section
/-! SUPPORT. Atomic operations on a word of the engine's own memory (R38, R39, R73). -/

namespace Sys2Proof.Machine

/-- The word that an aligned access of 8 bytes touches. -/
theorem wordsOf_word (m : Nat) : wordsOf (8 * m) 8 = [m] := by
  have h1 : (8 * m + 8 + 7) / 8 - 8 * m / 8 = 1 := by omega
  have hm : 8 * m / 8 = m := by omega
  rw [wordsOf, h1, hm, List.range_one, List.map_singleton, Nat.zero_add]

theorem wordCover_word (m : Nat) : (wordCover (8 * m) (List.replicate 8 true) m).all id = true := by
  have h : wordCover (8 * m) (List.replicate 8 true) m =
      (List.range 8).map fun i => ((List.replicate 8 true).drop i).headD false := by
    refine List.map_congr_left fun i _ => ?_
    rw [decide_eq_true (Nat.le_add_right ..), Bool.true_and, Nat.add_sub_cancel_left]
  rw [h]
  decide

/-- A store of a whole word merges into none. -/
theorem State.mergesWeak_word (s : State) {a : Nat} (ha : a % 8 = 0) :
    s.mergesWeak a (List.replicate 8 true) = false := by
  obtain ⟨m, rfl⟩ := Nat.dvd_of_mod_eq_zero ha
  rw [State.mergesWeak, List.length_replicate, wordsOf_word, List.any_cons, wordCover_word, Bool.not_true,
    Bool.and_false, List.any_nil]
  rfl

theorem State.lpdChannels_le (s : State) : s.lpdChannels ≤ 8 := by
  rw [State.lpdChannels, countOnes_filter]
  exact (List.length_filter_le ..).trans_eq List.length_range

/-- Memory that has no place in the address map has no count of corrected errors (R39, R519). -/
theorem State.countCorrected_private (s : State) {a : Nat} (h : privateBase 0 ≤ a) :
    s.countCorrected a = s := by
  have hlpd : s.lpdChannels ≤ 8 := s.lpdChannels_le
  simp only [privateBase] at h
  rw [State.countCorrected, if_neg (by omega), if_neg (by simp only [sramBase]; omega)]

/-- A store of a whole word to the engine's own memory leaves no correction: an aligned word merges into none, and
private memory has no count. -/
theorem State.correctMerge_ownWord (s : State) {k x key : Nat} (hx : x % 8 = 0) (hr : reachOf k x 8 = .own key) :
    s.correctMerge key (List.replicate 8 true) = s := by
  have hcase : key % 8 = 0 ∨ privateBase 0 ≤ key := by
    unfold reachOf at hr
    split at hr
    all_goals split at hr
    all_goals cases hr
    · exact .inl hx
    all_goals right; simp only [ownKey, privateBase, *]; omega
  rw [State.correctMerge]
  rcases hcase with h | h
  · rw [s.mergesWeak_word h, if_neg Bool.false_ne_true]
  · rw [s.countCorrected_private h, ite_self]

theorem lowBytes_enabled (n v : Nat) : (lowBytes n v).map (·.1) = List.replicate n true := by
  rw [lowBytes, List.map_map]
  exact (List.map_const' ..).trans (by rw [leBytes_length])

/-- Reading a byte after the low bytes of a value are written. -/
theorem State.byte_performWrite_lowBytes {w : Nat} (s : State) (a n x : Nat) (v : BitVec w) :
    (s.performWrite a (lowBytes n v.toNat)).byte x =
      if a ≤ x ∧ x < a + n then v.extractLsb' (8 * (x - a)) 8 else s.byte x := by
  rw [State.byte_performWrite, lowBytes_length, lowBytes_eq_map]
  by_cases hx : a ≤ x ∧ x < a + n
  · have hlt : x - a < n := by omega
    simp [hx, List.getD, hlt]
  · rw [if_neg fun h => hx ⟨h.1, h.2.1⟩, if_neg hx]

theorem State.goesOn_regs (s : State) (k : Nat) (f : Core → Core) : (s.goesOn k f).regs = s.regs := rfl
theorem State.goesOn_byte (s : State) (k : Nat) (f : Core → Core) (x : Nat) : (s.goesOn k f).byte x = s.byte x := rfl

section OwnAtomic
variable {s : State} {k key : Nat} {d a : BitVec 5} {reads : List (BitVec 5)}
  (hn : s.hasNext k = true) (h : s.executes k .base reads [] = true) (hx : ((s.core k).getG a).toNat % 8 = 0)
  (hr : reachOf k ((s.core k).getG a).toNat 8 = .own key) (hrom : inRom k key = false)
  (hd : s.touchesDamage key 8 = false)
include hn h hx hr hrom hd

/-- The word is read, corrected and replaced, and the old one reaches `gd` (R73). -/
theorem State.atomic_own (f : Core → Word64 → Word64) :
    let old : Word64 := BitVec.ofNat 64 (ofLe (s.bytes key 8))
    s.atomic k reads d a f =
      (((s.fetched k).correct key 8).performWrite key (lowBytes 8 (f (s.core k) old).toNat)).goesOn k (Core.putG d old) := by
  intro old
  rw [State.atomic, State.instr_executes _ h]
  have hal : ¬ ((s.core k).getG a).toNat % 8 ≠ 0 := not_not.2 hx
  simp only [State.core_fetched, if_neg hal, if_false, hr, hrom, State.fetched_touchesDamage, hd, Bool.false_eq_true,
    State.fetched_bytes]
  exact State.modCore_advance_goesOn ((State.performWrite_cores ..).trans (State.correct_cores ..)) _ hn
    (Core.putG_pc ..) ((Core.putG_waiting ..).trans (State.executes_issuing h).1)

end OwnAtomic

/-- Settles O20: the word is read, corrected and replaced at once (R39, R73). -/
theorem ownAtomicResults : Obligations.OwnAtomicResults := by
  intro s k d a b key hn c ha hr hrom hd old swaps
  have hx : (c.getG a).toNat % 8 = 0 := congrArg BitVec.toNat ha
  have hswaps {reads : List (BitVec 5)} (h : s.executes k .base reads [] = true)
      (f : Core → Word64 → Word64) :
      swaps (f c old) (.next (s.atomic k reads d a f)) := by
    have hcores : (((s.fetched k).correct key 8).performWrite key (lowBytes 8 (f c old).toNat)).cores =
        (s.fetched k).cores :=
      (State.performWrite_cores ..).trans (State.correct_cores ..)
    refine ⟨_, congrArg _ (State.atomic_own hn h hx hr hrom hd f), State.goesOn_cores hcores _, ?regs,
      fun x => ?byte⟩
    case regs =>
      rw [State.goesOn_regs, State.performWrite_regs, lowBytes_enabled, State.correctMerge_ownWord _ hx hr]
    case byte =>
      have hkept : ((s.fetched k).correct key 8).byte x = s.byte x :=
        (State.byte_congr (by rw [State.correct_only]) x).trans (s.fetched_byte k x)
      rw [State.goesOn_byte, State.byte_performWrite_lowBytes, hkept]
  exact ⟨fun h => ⟨hswaps h _, hswaps h _⟩, fun h => hswaps h _⟩

end Sys2Proof.Machine
end

section
/-! SUPPORT. Command blocks on their way from an engine to a queue, and the status that comes back (R81, R82, R99). -/

namespace Sys2Proof.Machine

/-! ### `enq` (R81, R82) -/

theorem Core.putG_setPc (d : BitVec 5) (v : Word64) (pc : BitVec 18) (c : Core) :
    Core.putG d v { c with pc := pc } = { Core.putG d v c with pc := pc } := by
  simp only [Core.putG, Core.setG]
  split <;> rfl

/-- An engine whose `enq` has sent its block to queue `q` (R81). -/
def Core.sent (gd vs : BitVec 5) (q : Nat) (c : Core) : Core :=
  { c.claimG gd with enqs := (c.claimG gd).enqs ++
    [{ gd := gd, cls := q / 2 ^ 12 % 16, inst := q / 4 % 1024, queue := q % 4, block := c.getV vs, status := none }] }

/-- The engine at an `enq` that waits for the stores before it (R82). -/
def State.atEnq (k : Nat) (gd vs gq : BitVec 5) (s : State) : State :=
  (s.fetched k).setCore k { s.core k with waiting := .enq gd vs gq }

section Enqueue
variable {s : State} {k : Nat} {gd vs gq : BitVec 5}

/-- A change of registers once the engine has gone on, as one before. -/
theorem State.retired_modCore (f g : Core → Core)
    (h : f { s.core k with pc := (s.core k).pc + 4 } = { g (s.core k) with pc := (s.core k).pc + 4 }) :
    (s.retired k id).modCore k f = s.retired k g := by
  rw [State.retired, State.modCore, State.core_setCore_same, State.setCore_setCore, id, h]
  rfl

theorem exec_enq (h : s.executes k .enq [gq] [vs] = true) : exec (.enq k gd vs gq) s =
    .next (if (s.core k).storesDone = true then (s.atEnq k gd vs gq).sendEnq k gd vs gq else s.atEnq k gd vs gq) := by
  show execEnq k gd vs gq s = _
  rw [execEnq, State.instr_executes _ h]
  simp only [State.beginWait, State.settleFence, State.modCore, State.core_setCore_same, State.core_fetched]
  rfl

/-- The queue's number decides what becomes of the block (R81, R88). -/
theorem State.sendEnq_atEnq {q : Nat} (hq : ((s.core k).getG gq).toNat = q) (hn : s.hasNext k = true)
    (hw : (s.core k).waiting = .issuing) :
    (s.atEnq k gd vs gq).sendEnq k gd vs gq =
      if q / 2 ^ 16 ≠ 0 ∨ classUnits (q / 2 ^ 12 % 16) ≤ q / 4 % 1024 then s.retired k (Core.putG gd 3)
      else if ¬ mayCommand k (q / 2 ^ 12 % 16) then s.retired k (Core.putG gd 4)
      else s.retired k (Core.sent gd vs q) := by
  have hcore : (s.atEnq k gd vs gq).core k = { s.core k with waiting := .enq gd vs gq } := State.core_setCore_same ..
  have hreg : ((s.atEnq k gd vs gq).core k).getG gq = (s.core k).getG gq := by rw [hcore]; rfl
  have hblock : ((s.atEnq k gd vs gq).core k).getV vs = (s.core k).getV vs := by rw [hcore]; rfl
  have hnext : (s.atEnq k gd vs gq).advance k = s.retired k id := State.setWaiting_advance _ hn hw
  have hcls : bitsOf q 15 12 = q / 2 ^ 12 % 16 := congrArg (· % 16) (Nat.shiftRight_eq_div_pow q 12)
  have hinst : bitsOf q 11 2 = q / 4 % 1024 := congrArg (· % 1024) (Nat.shiftRight_eq_div_pow q 2)
  simp only [State.sendEnq, hreg, hblock, hnext, hq, hcls, hinst]
  rw [State.retired_modCore _ (Core.putG gd 3) (Core.putG_setPc ..), State.retired_modCore _ (Core.putG gd 4) (Core.putG_setPc ..),
    State.retired_modCore _ (Core.sent gd vs q) rfl]
end Enqueue

/-! ### Arrival at a queue (R82, R99) -/

section Arrival
variable {s : State} {k i : Nat} {e : EnqOwed}

/-- An arrival changes registers and units alone. -/
theorem State.accept_only (s : State) (cls u q : Nat) (b : Vec) :
    (s.accept cls u q b).2 = { s with regs := (s.accept cls u q b).2.regs, units := (s.accept cls u q b).2.units } := by
  unfold State.accept
  split
  · rfl
  · split <;> rfl

theorem State.accept_fenced {cls u : Nat} (q : Nat) (b : Vec) (h : s.unitFenced cls u = true) :
    s.accept cls u q b = (2, s) :=
  if_pos h

theorem State.accept_full {cls u q : Nat} (b : Vec) (h : s.unitFenced cls u = false)
    (hl : queueDepth cls ≤ ((s.unit cls u).queue q).length) :
    s.accept cls u q b = (1, s) := by
  rw [State.accept, if_neg (by simp [h]), if_pos hl]

theorem State.accept_appended {cls u q : Nat} (b : Vec) (h : s.unitFenced cls u = false)
    (hl : ((s.unit cls u).queue q).length < queueDepth cls) :
    (s.accept cls u q b).1 = 0 ∧ (s.accept cls u q b).2.unit cls u = (s.unit cls u).setQueue q
      ((s.unit cls u).queue q ++ [{ seq := BitVec.ofNat 64 (s.reg64 (rSeq cls u q) + 1), block := b }]) := by
  rw [State.accept, if_neg (by simp [h]), if_neg (Nat.not_le.2 hl)]
  refine ⟨rfl, ?_⟩
  simp only [State.modUnit, State.unit, State.setUnit, Sparse.get_set_same]
  rfl

/-- A block that is the next of its unit's to arrive is answered, and its status is owed to the engine. -/
theorem exec_commandQueueArrival (hk : isEngine k = true) (he : (s.core k).enqs[i]? = some e) (hs : e.status = none)
    (hfirst : ∀ j x, j < i → (s.core k).enqs[j]? = some x → x.status = none → ¬ (x.cls = e.cls ∧ x.inst = e.inst)) :
    let a := s.accept e.cls e.inst e.queue e.block
    exec (.commandQueueArrival k i) s = .next (a.2.setCore k { s.core k with
      enqs := (s.core k).enqs.set i { e with status := some (BitVec.ofNat 64 a.1) } }) := by
  intro a
  have hnext : (s.core k).arrivesNext i = true := by
    simp only [Core.arrivesNext, he, hs, Option.isNone_none, Bool.true_and, List.all_eq_true]
    intro x hx
    obtain ⟨j, hj⟩ := List.mem_iff_getElem?.1 hx
    obtain ⟨hji, hxj⟩ := Option.ite_none_right_eq_some.1 (List.getElem?_take.symm.trans hj)
    cases hstatus : x.status with
    | some v => rfl
    | none => simpa [hstatus, imp_iff_not_or] using hfirst j x hji hxj hstatus
  have hcore : a.2.core k = s.core k := State.core_congr (by rw [State.accept_only]) k
  show execCommandQueueArrival k i s = _
  simp only [execCommandQueueArrival, hk, hnext, and_self, not_true_eq_false, if_false, he, State.modCore, Core.modEnq, setNth_eq_set]
  rw [hcore, he]

end Arrival

/-- Settles O26: the engine decides on the queue's number, the queue on its fence and its room, and the status returns
to `gd` (R81, R82, R99). -/
theorem enqueueAndStatus : Obligations.EnqueueAndStatus := by
  intro s k c
  refine ⟨?send, ?arrive, fun i e v he hv => ?answer⟩
  case send =>
    intro gd vs gq h hn q cls inst
    have hsend := State.sendEnq_atEnq (gd := gd) (vs := vs) (q := q) rfl hn (State.executes_issuing h).1
    refine ⟨fun hd => ?wait, fun hd => ?_⟩
    case wait => rw [exec_enq h, if_neg (Bool.eq_false_iff.1 hd)]; rfl
    rw [exec_enq h, if_pos hd, hsend]
    have hknown (hq : q < 2 ^ 16) (hi : inst < classUnits cls) : ¬ (q / 2 ^ 16 ≠ 0 ∨ classUnits cls ≤ inst) :=
      fun hno => hno.elim (fun h0 => h0 (Nat.div_eq_of_lt hq)) (Nat.not_le.2 hi)
    refine ⟨fun hu => ?noUnit, fun hq hi hm => ?notPermitted, fun hq hi hm => ?sent⟩
    case noUnit => rw [if_pos (hu.imp_left fun hq => by omega)]
    case notPermitted => rw [if_neg (hknown hq hi), if_pos (Bool.eq_false_iff.1 hm)]
    case sent => rw [if_neg (hknown hq hi), if_neg (not_not.2 hm)]; rfl
  case arrive =>
    intro i e hk he hs hfirst _ old answered
    have ha := s.accept_only e.cls e.inst e.queue e.block
    refine ⟨_, exec_commandQueueArrival hk he hs hfirst, fun j hj => ?others, by rw [ha]; rfl, fun hf => ?fenced,
      fun hf hl => ?full, fun hf hl => ?ok⟩
    case others => rw [State.core_setCore_other _ _ _ _ hj, ha]; rfl
    case fenced =>
      rw [State.accept_fenced _ _ hf]
      exact ⟨State.core_setCore_same .., rfl, rfl⟩
    case full =>
      rw [State.accept_full _ hf hl]
      exact ⟨State.core_setCore_same .., rfl, rfl⟩
    case ok =>
      obtain ⟨h0, hunit⟩ := State.accept_appended e.block hf hl
      rw [h0]
      exact ⟨State.core_setCore_same .., hunit⟩
  case answer =>
    have he' : (s.core k).enqs[i]? = some e := he
    show execEnqStatusReturn k i s = _
    simp only [execEnqStatusReturn, he', hv, State.modCore]
    rfl

end Sys2Proof.Machine
end

section
/-! SUPPORT. The completion command of an engine unit, and why it writes no record (R93 to R95). -/

namespace Sys2Proof.Machine

section Complete
variable {s : State} {cls u q : Nat}

/-- `healAfter` answers its second state. Outside the catalogue that is the state it is given, whatever the first one is. -/
theorem State.healAfter_other (before : State) (hc : cls ≠ clsCatalogue) : before.healAfter cls u q s = s := if_pos (.inl hc)

/-- The reported state stands before the dot, and so in the place of `before`: outside the catalogue the command's outcome is the state in
which no record is written. -/
theorem exec_engineCommandComplete (hu : u < classUnits cls) (hq : q ≤ 3) (hc : cls ≠ clsCatalogue) :
    exec (.engineCommandComplete cls u q) s = .next (s.takeUnassigned cls u) := by
  show execEngineCommandComplete cls u q s = _
  rw [execEngineCommandComplete, if_neg (by omega)]
  exact congrArg _ (State.healAfter_other _ hc)

theorem State.takeUnassigned_idle (h : s.nextCommand cls u = none) : s.takeUnassigned cls u = s := by
  rw [State.takeUnassigned, h]

/-- The record of a command that has ended by itself is due as it stands (R94). -/
theorem State.dueRecord_done {c : Cmd} (h : (s.unit cls u).oldest q = some c) (hs : c.stop = 0) (hd : c.done = true) :
    s.dueRecord cls u q = some (c, s) := by
  simp [State.dueRecord, h, hs, hd]

theorem State.headerMisses_of_not_stopped {c : Cmd} (h : (s.unit cls u).oldest q = some c) (hs : c.stop = 0) : s.headerMisses cls u q = [] := by
  simp [State.headerMisses, h, hs]

/-- A unit that is full takes no command (R100). -/
theorem State.nextCommand_full (h : serviceMax cls ≤ ((s.unit cls u).inService cls).length) : s.nextCommand cls u = none := by
  simp [State.nextCommand, State.mayServe, Nat.not_lt.2 h]

/-- Nothing follows the record of a channel's command that no abort ended (R112). -/
theorem State.afterRecord_channel {c : Cmd} (u : Nat) (h : c.aborted = false) : s.afterRecord clsDma u c = s := by
  show s.afterDmaRecord u c = s
  exact if_neg (by simp [h])

end Complete

/-- The block of a COPY with no operands, and the first address of on-chip memory as its COMPLETION_ADDR. -/
def copyToSram : Vec := BitVec.ofNat 512 (1 + sramBase * 2 ^ 64)

/-- Such a COPY of queue 0, which its channel has taken and ended for its operands (R102). -/
def endedCopy : Cmd := (Cmd.start 0 { seq := 1, block := copyToSram } 0).finish stBadCommand

/-- DMA channel 0 with the ended COPY in service, its record due. -/
def recordOwed : State := State.reset.setUnit clsDma 0 { EngUnit.idle with service := [endedCopy] }

theorem recordOwed_unit : recordOwed.unit clsDma 0 = { EngUnit.idle with service := [endedCopy] } := by
  rw [recordOwed, State.unit, State.setUnit, Sparse.get_set_same]

theorem recordOwed_oldest : (recordOwed.unit clsDma 0).oldest 0 = some endedCopy := by rw [recordOwed_unit]; rfl

theorem recordOwed_nextCommand : recordOwed.nextCommand clsDma 0 = none :=
  State.nextCommand_full (by rw [recordOwed_unit]; exact Nat.le_refl 1)

theorem endedCopy_goodAddr : goodCompletionAddr (completionAddr endedCopy.block) = true := by decide +kernel

theorem recordOwed_writable : recordOwed.writeFault (completionAddr endedCopy.block) (List.replicate 32 true) = none := by decide +kernel

/-- The record is due and can be written, yet the command leaves the state as it is. -/
theorem exec_engineCommandComplete_recordOwed : exec (.engineCommandComplete clsDma 0 0) recordOwed = .next recordOwed := by
  rw [exec_engineCommandComplete (by decide) (by decide) (by decide), State.takeUnassigned_idle recordOwed_nextCommand]

/-- Refutes O35: in `recordOwed` a COPY has ended and its COMPLETION_ADDR can be written, yet `engineCommandComplete` leaves it in its
channel and writes no record (R94): `execEngineCommandComplete` gives `healAfter` the reported state as `before` and goes on with the
other one. -/
theorem not_engineRecordsAndErrors : ¬ Obligations.EngineRecordsAndErrors := by
  intro h
  obtain ⟨-, -, hdue, -, -⟩ := h recordOwed clsDma 0 0 endedCopy (by decide)
  obtain ⟨hwritten, -, -⟩ := hdue recordOwed (by decide) (by simp [recordOwed_nextCommand])
    (State.headerMisses_of_not_stopped recordOwed_oldest rfl) (State.dueRecord_done recordOwed_oldest rfl rfl) (by decide)
  obtain ⟨r, ho, hunit, -⟩ := hwritten endedCopy_goodAddr recordOwed_writable
  have hsame : recordOwed = r :=
    (Host.Outcome.next.inj (exec_engineCommandComplete_recordOwed.symm.trans ho)).trans (State.afterRecord_channel 0 rfl)
  rw [← hsame, recordOwed_unit] at hunit
  have hservice := congrArg EngUnit.service hunit
  exact absurd hservice (by decide)

end Sys2Proof.Machine
end

section
/-! SUPPORT. Closing a ledger cycle (R125, R126), the partner's record and the answers to it (R127 to R129), and resends (R131). -/

namespace Sys2Proof.Machine

/-! ### Bytes put into the journal and the ledger area -/

/-- Of the state only memory with its records of errors, the register image, the ring and the open segment differ. -/
def State.StoredOnly (s t : State) : Prop :=
  t = { s with mem := t.mem, damaged := t.damaged, weak := t.weak, regs := t.regs,
               acc := { s.acc with ring := t.acc.ring, segment := t.acc.segment } }

section Stored
variable {s t u : State}

theorem State.StoredOnly.trans (h : s.StoredOnly t) (h' : t.StoredOnly u) : s.StoredOnly u := by
  rw [State.StoredOnly] at *; rw [h', h]

theorem State.performWrite_storedOnly (s : State) (a : Nat) (l : List (Bool × Byte)) : s.StoredOnly (s.performWrite a l) := by
  rw [State.performWrite_only]; rfl

theorem State.modRing_storedOnly (s : State) (no : Nat) (f : RingEntry → RingEntry) : s.StoredOnly (s.modRing no f) := rfl

theorem State.foldl_modRing_storedOnly (f : RingEntry → RingEntry) (l : List Nat) (s : State) :
    s.StoredOnly (l.foldl (fun t no => t.modRing no f) s) :=
  List.foldlRecOn l _ (motive := s.StoredOnly) rfl fun t ht no _ => ht.trans (t.modRing_storedOnly no f)

/-- A list for which the open segment has room. -/
theorem State.appendJournal_storedOnly {g : Segment} (n : Nat) {bs : List Byte} (hg : s.acc.segment = some g)
    (hr : g.used + bs.length ≤ segmentBytes) : s.StoredOnly (s.appendJournal n bs) := by
  simp only [State.appendJournal, hg, if_pos hr]
  exact (s.performWrite_storedOnly _ _).trans rfl

end Stored

/-! ### Closing the open cycle (R125, R126) -/

/-- A record and its cycle's list are stored, and the entries whose freed notice it carries take its number. -/
def State.storeRecord (r : CycleRec) (bytes : List Byte) (s : State) : State :=
  let s := s.appendJournal r.cycle (bytes.take 64 ++ r.items.flatMap (padTo 32))
  let s := s.performWrite (s.ownBase + ledgerOff r.cycle) (bytes.map fun b => (true, b))
  r.freed.foldl (fun t no => t.modRing no fun e => { e with freedIn := some r.cycle }) s

/-- The next cycle opens with what the record of the closed one did not take. -/
def State.openNext (r : CycleRec) (s : State) : State :=
  { s with
    deltas := s.deltas.drop r.items.length,
    acc := { s.acc with own := s.acc.own ++ [r], openCycle := r.cycle + 1, openedAt := s.elapsed,
                        openEntries := s.acc.openEntries.drop r.entries.length, openFreed := s.acc.openFreed.drop r.freed.length } }

theorem State.closeCycle_eq (s : State) :
    s.closeCycle =
      let r := s.openRecord.1
      let t := (s.storeRecord r s.openRecord.2).openNext r
      if t.alone r.cycle then t.confirmCycle r.cycle else t.emit (.mirror (ledgerOff r.cycle) s.openRecord.2 true) := by
  unfold State.closeCycle
  generalize s.openRecord = record
  rfl

theorem State.openRecord_cycle (s : State) : s.openRecord.1.cycle = s.acc.openCycle := by simp only [State.openRecord]
theorem State.openRecord_entries (s : State) : s.openRecord.1.entries = s.acc.openEntries.take 16384 := by simp only [State.openRecord]
theorem State.openRecord_freed (s : State) : s.openRecord.1.freed = s.acc.openFreed.take 16384 := by simp only [State.openRecord]

/-- The open segment has room for the cycle's list. -/
theorem State.storeRecord_storedOnly {s : State} {g : Segment} {r : CycleRec} {bytes : List Byte} (hg : s.acc.segment = some g)
    (hr : g.used + (bytes.take 64 ++ r.items.flatMap (padTo 32)).length ≤ segmentBytes) : s.StoredOnly (s.storeRecord r bytes) :=
  ((s.appendJournal_storedOnly _ hg hr).trans (State.performWrite_storedOnly _ _ _)).trans (State.foldl_modRing_storedOnly _ _ _)

theorem State.StoredOnly.openNext_fields {s t : State} (h : s.StoredOnly t) (r : CycleRec) :
    let u := t.openNext r
    u.acc.own = s.acc.own ++ [r] ∧ u.acc.openCycle = r.cycle + 1 ∧ u.acc.openedAt = s.elapsed ∧
      u.acc.openEntries = s.acc.openEntries.drop r.entries.length ∧ u.acc.openFreed = s.acc.openFreed.drop r.freed.length ∧ u.sent = s.sent := by
  rw [State.StoredOnly] at h
  rw [h]
  exact ⟨rfl, rfl, rfl, rfl, rfl, rfl⟩

theorem State.StoredOnly.openNext_alone {s t : State} (h : s.StoredOnly t) (r : CycleRec) (n : Nat) : (t.openNext r).alone n = s.alone n := by
  rw [State.StoredOnly] at h
  rw [h]
  rfl

theorem State.closeCycle_mirrored {s : State} (hst : s.StoredOnly (s.storeRecord s.openRecord.1 s.openRecord.2))
    (ha : s.alone s.acc.openCycle = false) :
    s.closeCycle = ((s.storeRecord s.openRecord.1 s.openRecord.2).openNext s.openRecord.1).emit
      (.mirror (ledgerOff s.acc.openCycle) s.openRecord.2 true) := by
  simp only [State.closeCycle_eq, s.openRecord_cycle]
  exact if_neg (by rw [hst.openNext_alone, ha]; decide)

theorem exec_ledgerCycleClose {s : State} (h : s.mayClose = true) : exec .ledgerCycleClose s = .next s.closeCycle.cycleOpened := by
  show execLedgerCycleClose s = _
  rw [execLedgerCycleClose, if_pos h]

/-! ### The partner's record (R127, R128) -/

section Received
variable (s : State) (n : Nat)

@[simp] theorem State.noteReceived_kpr : (s.noteReceived n).kpr = s.kpr := rfl
@[simp] theorem State.noteReceived_last : (s.noteReceived n).acc.last = s.acc.last := rfl
@[simp] theorem State.noteReceived_checks : (s.noteReceived n).acc.checks = s.acc.checks := rfl
@[simp] theorem State.noteReceived_missingEntry (l : List (Nat × Nat × Nat)) : (s.noteReceived n).missingEntry l = s.missingEntry l := rfl

end Received

theorem exec_ledgerRecord {s : State} {slot : Nat} (hslot : slot < 8) (hp : s.withPartner = true) (hl : s.twn.linkUp = true) :
    exec (.ledgerRecord slot) s = .next (s.handleRecord slot) := by
  show execLedgerRecord slot s = _
  rw [execLedgerRecord, if_pos ⟨hslot, hp, hl⟩]

/-! ### The partner's answers (R129) -/

theorem exec_ledgerConfirm {s : State} {slot : Nat} {r : CycleRec} (hslot : slot < 8) (hb : s.basesSet = true) (hr : s.answered slot 2 = some r) :
    exec (.ledgerConfirm slot) s = .next (s.confirmCycle r.cycle).handOver := by
  show execLedgerConfirm slot s = _
  simp [execLedgerConfirm, hslot, hb, hr]

theorem exec_ledgerRefuse {s : State} {slot : Nat} {r : CycleRec} (hslot : slot < 8) (hb : s.basesSet = true) (hr : s.answered slot 3 = some r) :
    exec (.ledgerRefuse slot) s = .next (s.refused r (leAt (s.arrivedAnswer slot) 2 2) (leAt (s.arrivedAnswer slot) 4 4)) := by
  show execLedgerRefuse slot s = _
  simp [execLedgerRefuse, hslot, hb, hr]

/-! ### No answer (R131) -/

theorem exec_confirmTimeout {s : State} {r : CycleRec} (hp : s.withPartner = true) (ho : s.overdue = some r) :
    exec .confirmTimeout s = .next (({ s with twn := { s.twn with unclean := s.twn.unclean ||| 0x20 } } : State).resend r.cycle) := by
  show execConfirmTimeout s = _
  rw [execConfirmTimeout, if_pos hp, ho]

/-- Settles O44: a cycle that may close closes (R125), with a partner by a record that is kept and mirrored (R126); the partner's record
gets the answer of the first check that fails, and is taken where none does (R128); the partner's answers act (R129), and a record without
one is sent again (R131). -/
theorem ledgerCycles : Obligations.LedgerCycles := by
  intro s
  refine ⟨fun hc => ⟨exec_ledgerCycleClose hc, fun ha g hg hr => ?closed⟩, fun slot hslot hp hl => ?record,
    fun slot r hslot hb hr => exec_ledgerConfirm hslot hb hr, fun slot r hslot hb hr => ?refused, fun r hp ho => ?overdue⟩
  case closed =>
    have hst := State.storeRecord_storedOnly hg hr
    obtain ⟨hown, hcycle, hat, hentries, hfreed, hsent⟩ := hst.openNext_fields s.openRecord.1
    rw [s.openRecord_entries, List.length_take, ← List.drop_eq_drop_min] at hentries
    rw [s.openRecord_freed, List.length_take, ← List.drop_eq_drop_min] at hfreed
    rw [s.openRecord_cycle] at hcycle
    rw [State.closeCycle_mirrored hst ha]
    exact ⟨hown, hcycle, hat, hentries, hfreed, congrArg (· ++ _) hsent⟩
  case record =>
    rw [exec_ledgerRecord hslot hp hl, State.handleRecord]
    generalize s.arrivedRecord slot = b
    dsimp only
    generalize recordOf b s.elapsed = r
    refine ⟨fun hs => congrArg _ (if_pos (not_and_or.1 hs)), fun ⟨hlength, hcheck⟩ => ?_⟩
    rw [if_neg fun h => h.elim (· hlength) (· hcheck)]
    refine ⟨Nat.le_max_right _ _, fun hfar => congrArg _ (if_pos ((not_and_or.1 hfar).imp Nat.not_le.1 Nat.not_le.1)), ?_⟩
    refine ⟨fun ⟨hlo, hhi⟩ hle hsame => ?_, fun ⟨hlo, hhi⟩ hle hdiffers => ?_, fun ⟨hlo, hhi⟩ hahead => ?_,
      fun i ⟨hlo, hhi⟩ hnext hm => ?_, fun ⟨hlo, hhi⟩ hnext hm => ⟨?_, rfl⟩⟩
    · simp [hlo.not_gt, hhi.not_gt, hle, hsame]
    · simp [hlo.not_gt, hhi.not_gt, hle, hdiffers]
    · simp [hlo.not_gt, hhi.not_gt, show ¬ r.cycle ≤ s.acc.last by omega, show r.cycle ≠ s.acc.last + 1 by omega]
    · simp [hlo.not_gt, hhi.not_gt, hnext, hm]
    · simp [hlo.not_gt, hhi.not_gt, hnext, hm]
  case refused =>
    rw [exec_ledgerRefuse hslot hb hr]
    refine ⟨fun h => ?_, fun h => ?_, fun h => ?_, fun h => ⟨_, rfl, ?_⟩⟩ <;> rw [h] <;> rfl
  case overdue => exact exec_confirmTimeout hp ho

end Sys2Proof.Machine
end

section
/-! SUPPORT. Commands that place entries, write rows and checkpoints, and keep key generations (R118, R141, R224, R257, R289, R338, R340). -/

namespace Sys2Proof.Machine

/-! ### Placement (R118, R141, R224, R257) -/

section Placement
variable {s : State}

theorem exec_bufferSpaceReturn {c cid : Nat} {rest : List (Nat × Nat)} {n : NCmd} (hh : s.acc.held = (c, cid) :: rest) (hn : s.ncmd c cid = some n)
    (ha : s.mayAllocate (if n.opcode = 1 then min 512 (n.nblk - n.next) else 0) = true) :
    exec .bufferSpaceReturn s = .next (({ s with acc := { s.acc with held := rest } } : State).goOn c cid) := by
  show execBufferSpaceReturn s = _
  simp [execBufferSpaceReturn, hh, hn, ha]

/-- An entry whose tier-2 reads are out is placed with their results. -/
theorem exec_placeEntry_waiting {seen : Seen} {fails : List (List Nat)} {base : Nat} {h : Header} {at_ : Word64} (hp : s.mayPlace = true)
    (hw : s.startOver.waitingEntry = some (base, h, at_)) :
    exec (.placeEntry seen fails) s = .next (s.startOver.place seen fails (some true) base h) := by
  show execPlaceEntry seen fails s = _
  simp [execPlaceEntry, hp, hw]

theorem exec_placeEntry_next {seen : Seen} {fails : List (List Nat)} {base : Nat} {h : Header} (hp : s.mayPlace = true)
    (hw : s.startOver.waitingEntry = none) (hn : s.startOver.nextToPlace = some (base, h)) :
    exec (.placeEntry seen fails) s = .next (s.startOver.place seen fails none base h) := by
  show execPlaceEntry seen fails s = _
  simp [execPlaceEntry, hp, hw, hn]

theorem State.startOver_id (h : s.acc.restart = false) : s.startOver = s := by
  simp [State.startOver, h]

theorem exec_tier2Deadline {seen : Seen} {fails : List (List Nat)} {base : Nat} {h : Header} {at_ : Word64} (hp : s.mayPlace = true)
    (hw : s.waitingEntry = some (base, h, at_)) (hd : s.settingAt 0x0202 0 200000 at_ ≤ s.elapsed.toNat - at_.toNat) :
    exec (.tier2Deadline seen fails) s = .next (s.place seen fails (some false) base h) := by
  show execTier2Deadline seen fails s = _
  simp [execTier2Deadline, hp, hw, hd]

/-- An entry of a namespace that is gone is not placed. -/
theorem State.place_noNamespace {h : Header} (hn : (Sparse.get Namespace.none h.nsid s.cat.namespaces).size = 0) (seen : Seen)
    (fails : List (List Nat)) (tier2 : Option Bool) (base : Nat) : s.place seen fails tier2 base h = s.noteFreed h.no := by
  rw [State.place, if_pos hn]

theorem State.place_noDigestKey {h : Header} (hn : (Sparse.get Namespace.none h.nsid s.cat.namespaces).size ≠ 0) (hd : h.noData = false)
    (hk : s.digestKey h.domain = []) (seen : Seen) (fails : List (List Nat)) (tier2 : Option Bool) (base : Nat) :
    s.place seen fails tier2 base h = s.useDigest 1 64 h.nblk := by
  rw [State.place, if_neg hn, if_pos ⟨by simp [hd], by simp [hk]⟩]

theorem exec_heldFoliosResend {domain : Nat} (fails : List (List Nat)) (hp : s.mayPlace = true) (hw : (s.writeSlot domain).isSome = true) :
    exec (.heldFoliosResend domain fails) s =
      .next ((s.acc.spent.filter fun f => f.domain == domain).foldl (fun (p : Press) f => p.takeFolio f)
        (Press.mk { s with acc := { s.acc with spent := s.acc.spent.filter fun f => f.domain != domain } } fails)).s := by
  show execHeldFoliosResend domain fails s = _
  simp [execHeldFoliosResend, hp, Option.isSome_iff_ne_none.1 hw]

theorem exec_newKeyGeneration {domain : Nat} (hlt : domain < 4096) (hp : s.mayPlace = true) (hd : s.generationDue domain = true) :
    exec (.newKeyGeneration domain) s = .next (s.newGeneration domain) := by
  show execNewKeyGeneration domain s = _
  rw [execNewKeyGeneration, if_pos ⟨hlt, hp, hd⟩]

/-- A generation that is due and not recorded yet is recorded, and no slot changes. -/
theorem State.newGeneration_records {domain : Nat} (hg : s.pendingGen domain = none) :
    (s.newGeneration domain).deltas = s.deltas ++ [itemKeyGen domain (s.nextGen domain)] ∧
      (s.newGeneration domain).cipherSlots = s.cipherSlots := by
  rw [State.newGeneration, hg]
  exact ⟨rfl, rfl⟩

theorem State.newGeneration_pending {domain g : Nat} (hg : s.pendingGen domain = some g) :
    s.newGeneration domain = if s.genJournalled domain g = true then s.takeGeneration domain g else s := by
  rw [State.newGeneration, hg]

end Placement

/-! ### Rows and quires (R142, R289, R301) -/

section Rows
variable {s : State}

theorem exec_rowPadAgeExpiry {q : Nat} {r : OpenRow} (failed : List Nat) (hm : s.managesMedia = true) (hr : r ∈ s.acc.rows) (hq : r.quire = q)
    (ha : s.padAge r.since ≤ s.elapsed.toNat - r.since.toNat) :
    exec (.rowPadAgeExpiry q failed) s = .next (((Press.mk s [failed]).drainWaiting.writeRow q).s) := by
  have hany : (s.acc.rows.any fun r => r.quire == q && decide (s.padAge r.since ≤ s.elapsed.toNat - r.since.toNat)) = true :=
    List.any_eq_true.2 ⟨r, hr, by simp [hq, ha]⟩
  show execRowPadAgeExpiry q failed s = _
  rw [execRowPadAgeExpiry, if_pos ⟨hany, hm⟩]

/-- Erases that fail retire their groups, and the quire is opened unless one is open or on its way. -/
theorem exec_quireOpen {purpose : Nat} (failed : List (Nat × Nat)) (hm : s.managesMedia = true) (h6 : purpose ≤ 6) (h5 : purpose ≠ 5) :
    exec (.quireOpen ⟨purpose, failed⟩) s =
      .next ((failed.foldl (fun t g => t.failErase (s.mediaQueue purpose) g) s).ensureQuire purpose) := by
  show execQuireOpen ⟨purpose, failed⟩ s = _
  rw [execQuireOpen, if_pos ⟨hm, h6, h5⟩]

end Rows

/-! ### Applied cycles and checkpoints (R230, R338, R340) -/

section Checkpoints
variable {s : State}

theorem exec_applyCycle {lists : List (List Byte) × List (List Byte)} (seen : Seen) (hr : s.acc.running = true) (hb : s.basesSet = true)
    (hl : s.cycleLists = some lists) : exec (.applyCycle seen) s = .next (((s.applyNext seen lists).completeJoin).noteDrained) := by
  show execApplyCycle seen s = _
  simp [execApplyCycle, hr, hb, hl]

theorem State.openForCheckpoint_open {c : Checkpoint} (h : c.own ≠ []) : s.openForCheckpoint c = (c, s) := by
  rw [State.openForCheckpoint, if_pos h]

/-- The state with a checkpoint in hand. -/
def State.keepCheckpoint (c : Checkpoint) (s : State) : State := { s with med := { s.med with writing := some c } }

/-- The pages of a checkpoint whose quires are open are all written, and its header follows. -/
theorem exec_checkpointHeaderWrite {c c' : Checkpoint} {q : Nat} {p : Press} (fails : CheckpointFails) (partnerHas : Bool) (hm : s.hlt.mode ≠ .safe)
    (hb : s.basesSet = true) (hw : s.med.writing = some c) (hc : c.own ≠ [])
    (hopen : ∀ x ∈ c.dumpRes ++ c.own ++ c.second.toList, (s.quire x).state ≠ 0) (hq : s.pageQuire c = some q)
    (hp : (Press.mk s fails.rows).writeCheckpoint q c = (true, c', p)) :
    exec (.checkpointHeaderWrite fails partnerHas) s =
      .next ((p.s.keepCheckpoint c').writeCheckpointHeader fails.header partnerHas c').noteDrained := by
  have hnot : ((c.dumpRes ++ c.own ++ c.second.toList).any fun q => (s.quire q).state == 0) = false := by
    simpa only [List.any_eq_false, beq_iff_eq] using hopen
  show execCheckpointHeaderWrite fails partnerHas s = _
  simp only [execCheckpointHeaderWrite, hm, hb, hw, State.openForCheckpoint_open hc, hnot, hc, hq, hp, not_true_eq_false, Bool.false_eq_true,
    or_self, if_false, if_true, State.keepCheckpoint]

/-- A header on enough carriers is durable; both versions' headers are written only while the levels differ (R546). -/
theorem State.writeCheckpointHeader_durable {fails : List Nat} {c : Checkpoint} (hl : s.kpr.level = s.kpr.committed) (hn : s.serviceNumbers ≠ [])
    (hg : min 3 s.serviceNumbers.length ≤ (s.serviceNumbers.filter fun n => ! fails.contains n).length) (partnerHas : Bool) :
    s.writeCheckpointHeader fails partnerHas c =
      let c' := { c with copies := (s.serviceNumbers.filter fun n => ! fails.contains n).length }
      ((s.writeAnchors c'.header fun n => ! fails.contains n).checkpointDone c').freeCovered partnerHas := by
  have hone : ¬ s.kpr.level = s.kpr.committed + 1 := by omega
  have hfew : ¬ (s.serviceNumbers.isEmpty = true ∨ (s.serviceNumbers.filter fun n => ! fails.contains n).length < min 3 s.serviceNumbers.length) :=
    fun h => h.elim (hn ∘ List.isEmpty_iff.1) hg.not_gt
  simp only [State.writeCheckpointHeader, if_neg hone, if_neg hfew]

end Checkpoints

/-- Settles O45: each command of placement, media and checkpoints does its one thing under the conditions named, by the lemma about it. -/
theorem placementCommands : Obligations.PlacementCommands := by
  intro s seen fails
  refine ⟨fun c cid rest n hh hn ha => exec_bufferSpaceReturn hh hn ha, fun hp => ⟨?place, ?deadline, ?gone, ?keyEmpty, ?resend, ?generation⟩,
    fun hm => ⟨?row, ?quire⟩, fun lists hr hb hl => exec_applyCycle seen hr hb hl, ?checkpoint⟩
  case place =>
    exact ⟨fun hw base h hn => exec_placeEntry_next hp hw hn, fun base h at_ hw => exec_placeEntry_waiting hp hw, State.startOver_id⟩
  case deadline => exact fun base h at_ hw hd => exec_tier2Deadline hp hw hd
  case gone => exact fun base h r hn => State.place_noNamespace hn seen fails r base
  case keyEmpty => exact fun base h r hn hd hk => State.place_noDigestKey hn hd hk seen fails r base
  case resend => exact fun domain hw => exec_heldFoliosResend fails hp hw
  case generation =>
    intro domain hlt hd
    rw [exec_newKeyGeneration hlt hp hd]
    exact ⟨fun hg => ⟨_, rfl, State.newGeneration_records hg⟩, fun g hg => congrArg _ (State.newGeneration_pending hg)⟩
  case row => exact fun q failed r hr hq ha => exec_rowPadAgeExpiry failed hm hr hq ha
  case quire =>
    intro purpose failed h6 h5
    rw [exec_quireOpen failed hm h6 h5]
    refine ⟨fun hthere => congrArg _ (if_pos hthere), fun hnone hidle => congrArg _ (if_neg ?_)⟩
    rw [hnone, hidle]
    decide
  case checkpoint =>
    intro bad rows partnerHas c q hm hb hw hc hopen hq
    generalize hp : (Press.mk s rows).writeCheckpoint q c = w
    obtain ⟨ok, c', p⟩ := w
    dsimp only
    rintro rfl hl hn hg
    rw [exec_checkpointHeaderWrite ⟨bad, rows⟩ partnerHas hm hb hw hc hopen hq hp,
      State.writeCheckpointHeader_durable (s := p.s.keepCheckpoint c') hl hn hg partnerHas]
    rfl

end Sys2Proof.Machine
end

section
/-! SUPPORT. What an I/O command meets on its queue: the controller, the namespace with its group, and a pending deferred error (R367, R368,
R373, R382; log entry 30), and the checks of a data PDU (R380; log entry 76). -/

namespace Sys2Proof.Machine

/-! ### A PDU comes in -/

section Heard
variable (s : State) (c : Nat)

@[simp] theorem State.heardPdu_conn (d : Nat) : (s.heardPdu c).conn d = s.conn d := rfl
@[simp] theorem State.heardPdu_ctrl (id : Nat) : (s.heardPdu c).ctrl id = s.ctrl id := rfl

end Heard

/-! ### A command on an I/O queue -/

section Queue
variable {s : State} {c cid id ns : Nat} {k : Ctrl}

/-- A ready controller runs a command on the kind of queue the command belongs to. -/
theorem State.onQueue_runs {admin : Bool} (body : Nat → State → State) (hd : s.delivers c = true) (hid : (s.conn c).ctrl = some id)
    (hq : ((s.conn c).qid == 0) = admin) (hk : s.ctrl id = some k) (hready : k.ready = true) :
    s.onQueue c cid admin body = body id (s.heardPdu c) := by
  simp [State.onQueue, hd, hid, hq, hk, hready]

/-- An I/O queue of a ready controller delivers. -/
structure State.IoQueue (s : State) (c id : Nat) (k : Ctrl) : Prop where
  delivers : s.delivers c = true
  ctrlId : (s.conn c).ctrl = some id
  isIo : (s.conn c).qid ≠ 0
  ctrl : s.ctrl id = some k
  ready : k.ready = true

theorem State.onQueue_io (h : s.IoQueue c id k) (body : Nat → State → State) :
    s.onQueue c cid false body = body id (s.heardPdu c) :=
  State.onQueue_runs body h.delivers h.ctrlId (beq_eq_false_iff_ne.2 h.isIo) h.ctrl h.ready

theorem State.onNamespace_refused (h : s.IoQueue c id k) {reads : Bool} {st : Nat} (body : State → State)
    (hr : (s.heardPdu c).ioRefusal id ns reads = some st) : s.onNamespace c cid ns reads body = (s.heardPdu c).respond c cid 0 st := by
  simp [State.onNamespace, State.onQueue_io h, hr]

theorem State.onNamespace_flagged (h : s.IoQueue c id k) {reads : Bool} (body : State → State)
    (hr : (s.heardPdu c).ioRefusal id ns reads = none) (hf : ns ∈ k.flagged) :
    s.onNamespace c cid ns reads body = ((s.heardPdu c).announce id ns).respond c cid 0 nsDeferred := by
  simp [State.onNamespace, State.onQueue_io h, hr, h.ctrl, hf]

theorem State.onNamespace_passes (h : s.IoQueue c id k) {reads : Bool} (body : State → State)
    (hp : (s.heardPdu c).ioRefusal id ns reads = none ∧ ns ∉ k.flagged) : s.onNamespace c cid ns reads body = body (s.heardPdu c) := by
  simp [State.onNamespace, State.onQueue_io h, hp.1, h.ctrl, hp.2]

end Queue

theorem State.ioRefusal_noNamespace {s : State} {ns : Nat} (id : Nat) (reads : Bool) (h : s.namespace? ns = none) :
    s.ioRefusal id ns reads = some nsInvalidNs := by
  simp [State.ioRefusal, h]

/-! ### Commands whose namespace passes -/

section Passing
variable {s : State} {c cid id ns slba nblk : Nat} {k : Ctrl}

/-- A Read that is not in service yet. -/
theorem exec_nvmeRead (h : s.IoQueue c id k) (hp : (s.heardPdu c).ioRefusal id ns true = none ∧ ns ∉ k.flagged) (hn : s.ncmd c cid = none)
    (seen : Seen) :
    exec (.nvmeRead c cid ns slba nblk seen) s = .next (let w := s.heardPdu c
      if nblk = 0 ∨ 1024 < nblk then w.respond c cid 0 nsInvalidField
      else if ¬ w.inRange ns slba nblk then w.respond c cid 0 nsRange
      else if w.kpr.owner ≠ .accepted ∧ (List.range nblk).any (fun i => w.needsFlash ns (slba + i)) then
        w.addCmd c (NCmd.start cid 2 ns slba nblk)
      else (w.addCmd c (NCmd.start cid 2 ns slba nblk)).serveRead c cid ns slba nblk seen) := by
  show execNvmeRead c cid ns slba nblk seen s = _
  simp only [execNvmeRead, hn, State.onNamespace_passes h _ hp]

/-- A Write whose data is asked for, and one whose data is in its capsule; both inside the namespace. -/
theorem exec_nvmeWrite (h : s.IoQueue c id k) (hp : (s.heardPdu c).ioRefusal id ns false = none ∧ ns ∉ k.flagged)
    (hb : (s.heardPdu c).basesSet = true) (h0 : nblk ≠ 0) (h1 : nblk ≤ 1024) (hin : (s.heardPdu c).inRange ns slba nblk = true) (sgl : Nat)
    (ok : Bool) (fails : Nat) :
    exec (.nvmeWrite c cid ns slba nblk none sgl ok fails) s = .next (((s.heardPdu c).addCmd c (NCmd.start cid 1 ns slba nblk)).goOn c cid) ∧
    ∀ b : List Byte, exec (.nvmeWrite c cid ns slba nblk (some b) sgl ok fails) s = .next (let w := s.heardPdu c
      if b.length ≠ sgl ∨ b.length ≠ 4096 * nblk ∨ 8192 < b.length then (w.nvtError 2 c).respond c cid 0 nsSglLength
      else if ¬ ok then (w.nvtError 0x101 c).respond c cid 0 nsDataDigest
      else (w.addCmd c { NCmd.start cid 1 ns slba nblk with capsule := b, fails := fails }).goOn c cid) := by
  have hx (data : Option (List Byte)) :
      exec (.nvmeWrite c cid ns slba nblk data sgl ok fails) s = execNvmeWrite c cid ns slba nblk data sgl ok fails s := rfl
  simp [hx, execNvmeWrite, State.onNamespace_passes h _ hp, hb, h0, h1.not_gt, hin]

theorem exec_nvmeWrite_outOfRange (h : s.IoQueue c id k) (hp : (s.heardPdu c).ioRefusal id ns false = none ∧ ns ∉ k.flagged)
    (hb : (s.heardPdu c).basesSet = true) (h0 : nblk ≠ 0) (h1 : nblk ≤ 1024) (hout : (s.heardPdu c).inRange ns slba nblk = false)
    (data : Option (List Byte)) (sgl : Nat) (ok : Bool) (fails : Nat) :
    exec (.nvmeWrite c cid ns slba nblk data sgl ok fails) s = .next ((s.heardPdu c).respond c cid 0 nsRange) := by
  show execNvmeWrite c cid ns slba nblk data sgl ok fails s = _
  simp [execNvmeWrite, State.onNamespace_passes h _ hp, hb, h0, h1.not_gt, hout]

theorem exec_writeZeroes (h : s.IoQueue c id k) (hp : (s.heardPdu c).ioRefusal id ns false = none ∧ ns ∉ k.flagged)
    (hb : (s.heardPdu c).basesSet = true) (h0 : nblk ≠ 0) (hmax : nblk ≤ 65536) (hin : (s.heardPdu c).inRange ns slba nblk = true) (deac : Bool) :
    exec (.writeZeroes c cid ns slba nblk deac) s =
      .next (((s.heardPdu c).addCmd c { NCmd.start cid 8 ns slba nblk with unmap := deac }).goOn c cid) := by
  show execWriteZeroes c cid ns slba nblk deac s = _
  simp [execWriteZeroes, State.onNamespace_passes h _ hp, hb, h0, hmax.not_gt, hin]

/-- Without attribute AD nothing is deallocated. -/
theorem exec_datasetManagement (h : s.IoQueue c id k) (hp : (s.heardPdu c).ioRefusal id ns false = none ∧ ns ∉ k.flagged)
    (hb : (s.heardPdu c).basesSet = true) {ranges : List (Nat × Nat)} (hne : ranges ≠ []) (hmax : ranges.length ≤ 256)
    (hin : ∀ r ∈ ranges, (s.heardPdu c).inRange ns r.1 r.2 = true) (ad : Bool) :
    exec (.datasetManagement c cid ns ad ranges) s = .next (let w := s.heardPdu c
      if ad = false then w.respond c cid 0 nsSuccess
      else (w.addCmd c { NCmd.start cid 9 ns 0 0 with unmap := true, ranges := ranges }).goOn c cid) := by
  have hall : ranges.any (fun r => ! (s.heardPdu c).inRange ns r.1 r.2) = false := by simpa using hin
  show execDatasetManagement c cid ns ad ranges s = _
  simp [execDatasetManagement, State.onNamespace_passes h _ hp, hb, hne, hmax.not_gt, hall]

/-- A Flush of all namespaces meets no check of one. -/
theorem exec_nvmeFlush (h : s.IoQueue c id k) (hns : ns = 0xFFFFFFFF ∨ (s.heardPdu c).ioRefusal id ns false = none ∧ ns ∉ k.flagged) :
    exec (.nvmeFlush c cid ns) s = .next ((s.heardPdu c).flush c cid ns) := by
  show execNvmeFlush c cid ns s = _
  rcases eq_or_ne ns 0xFFFFFFFF with hall | hone
  · rw [execNvmeFlush, if_pos hall, State.onQueue_io h]
  · rw [execNvmeFlush, if_neg hone, State.onNamespace_passes h _ (hns.resolve_left hone)]

end Passing

/-! ### Data PDUs (R380) -/

/-- A PDU that is sound in itself, on a connection in use, for an entry whose data is asked for. -/
theorem exec_h2cData_entry {s : State} {c tag off no : Nat} {n : NCmd} {h : Header} {data : List Byte} (hr : (s.conn c).ready = true)
    (he : (s.conn c).ended = false) (hfit : data.length ≤ 131072) (hd : (s.heardPdu c).dataFor c tag = some (n, no, h)) (last ok : Bool)
    (fails : Nat) :
    exec (.h2cData c tag off data last true true ok fails) s = .next (let w := s.heardPdu c
      let base := 4096 * (h.slba - n.slba)
      let got := ((w.ringEntry no).map RingEntry.received).getD 0
      let whole := 4096 * h.nblk
      if off < base ∨ base + whole < off + data.length then (w.nvtError 2 c).terminate c 4
      else if last ∧ got + data.length < whole then (w.nvtError 2 c).terminate c 4
      else if ¬ ok then (w.nvtError 0x101 c).failWrite c n.cid nsDataDigest
      else if got + data.length < whole then w.intake no h (off - base) data
      else (w.intake no h (off - base) data).dataWhole c n.cid no fails) := by
  show execH2cData c tag off data last true true ok fails s = _
  simp [execH2cData, hr, he, hfit.not_gt, hd]

/-- Settles O49: on an I/O queue of a ready controller the namespace is checked first (R368, R373), then a pending deferred error (R382); what
passes is begun, and a data PDU meets the checks of R380 in their order. -/
theorem inputOutputCommands : Obligations.InputOutputCommands := by
  intro s c cid id ns k hd hid hq hk hready
  have h : s.IoQueue c id k := ⟨hd, hid, hq, hk, hready⟩
  dsimp only
  refine ⟨fun st slba nblk deac hr => congrArg _ (State.onNamespace_refused h _ hr),
    fun slba nblk deac hr hf => congrArg _ (State.onNamespace_flagged h _ hr hf), fun reads => State.ioRefusal_noNamespace id reads,
    fun slba nblk seen hn hp => ?read,
    fun hb hp => ⟨?write, fun slba nblk deac h0 hmax hin => exec_writeZeroes h hp hb h0 hmax hin deac, fun ranges hne hmax hin => ?ranges⟩,
    exec_nvmeFlush h, fun tag off fails data last hr he => ?data⟩
  case read =>
    rw [exec_nvmeRead h hp hn]
    refine ⟨fun hbad => ?_, fun h0 h1 hout => ?_, fun h0 h1 hin hkey => ?_, fun i h1 hin hkey hi hflash => ?_⟩
    · rw [if_pos hbad]
    · simp [h0, h1.not_gt, hout]
    · simp [h0, h1.not_gt, hin, hkey]
    · have hany : (List.range nblk).any (fun i => (s.heardPdu c).needsFlash ns (slba + i)) = true :=
        List.any_eq_true.2 ⟨i, List.mem_range.2 hi, hflash⟩
      simp [(Nat.zero_lt_of_lt hi).ne', h1.not_gt, hin, hkey, hany]
  case write =>
    intro slba nblk sgl ok fails h0 h1
    refine ⟨fun hout => exec_nvmeWrite_outOfRange h hp hb h0 h1 hout none sgl ok fails, fun hin => ?_⟩
    obtain ⟨hasked, hcapsule⟩ := exec_nvmeWrite h hp hb h0 h1 hin sgl ok fails (cid := cid)
    simp only [hcapsule]
    refine ⟨hasked, fun b hbad => congrArg _ (if_pos hbad), fun b hsgl hlen hfit => ⟨fun hok => ?_, fun hok => ?_⟩⟩
    · simp [← hsgl, ← hlen, hfit.not_gt, hok]
    · simp [← hsgl, ← hlen, hfit.not_gt, hok]
  case ranges =>
    exact ⟨exec_datasetManagement h hp hb hne hmax hin false, exec_datasetManagement h hp hb hne hmax hin true⟩
  case data =>
    have hpdu (pl hd dd : Bool) :
        exec (.h2cData c tag off data last pl hd dd fails) s = execH2cData c tag off data last pl hd dd fails s := rfl
    refine ⟨fun pl dd => ?_, fun dd => ?_, fun dd hlong => ?_, fun hfit => ⟨fun dd hnone => ?_, fun n no hdr hsome => ?entry⟩⟩
    · simp [hpdu, execH2cData, hr, he]
    · simp [hpdu, execH2cData, hr, he]
    · simp [hpdu, execH2cData, hr, he, hlong]
    · simp [hpdu, execH2cData, hr, he, hfit.not_gt, hnone]
    case entry =>
      simp only [exec_h2cData_entry hr he hfit hsome]
      refine ⟨fun dd hout => congrArg _ (if_pos hout), fun hlo hhi =>
        ⟨fun hlast hshort dd => ?_, fun hlast => ?_, fun hlast hshort => ?_, fun hwhole => ?_⟩⟩
      · simp [hlo.not_gt, hhi.not_gt, hlast, hshort]
      · simp [hlo.not_gt, hhi.not_gt, hlast]
      · simp [hlo.not_gt, hhi.not_gt, hlast, hshort]
      · simp [hlo.not_gt, hhi.not_gt, hwhole.not_gt]

end Sys2Proof.Machine
end

section
/-! SUPPORT. The coder and decoder lanes: taking a command and its first reads (R153, R160, R171), the stages (R153, R164 to R166) and
decoding (R169, R174, R175). -/

namespace Sys2Proof.Machine

section Taken
variable {s : State} {cls u op : Nat} {c : Cmd} {e : EngUnit} {j : LaneJob}

theorem State.takesNext_of_takes (h : s.takes cls u op c e) : s.takesNext cls u op = true := by
  simp [State.takesNext, h.1, h.2]

/-- The command that a unit takes ends at once for its header, and else is what the row's check makes of it (R91, R92). -/
theorem State.takeCommandIf_takes (h : s.takes cls u op c e) (check : Cmd → State → Cmd × State) :
    s.takeCommandIf cls u (fun b => opcodeOf b == op) check =
      if badCommon c.block then (s.setUnit cls u e).serve cls u (c.finish stBadCommand)
      else (check c (s.setUnit cls u e)).2.serve cls u (check c (s.setUnit cls u e)).1 := by
  simp [State.takeCommandIf, h.1, h.2]

/-- An opcode's own check of a lane's operands (R157 to R159). -/
theorem checkLane_of_opcode (h : opcodeOf c.block = op) (s : State) :
    checkLane c s = (if (if op = 1 then badEncode c.block else badDecode c.block) = true then c.finish stBadCommand
      else { c with job := some LaneJob.start }, s) := by
  simp [checkLane, isEncode, h]

theorem State.laneEvent_takes_bad (h : s.takes cls u op c e)
    (hb : (badCommon c.block || if op = 1 then badEncode c.block else badDecode c.block) = true) :
    s.laneEvent cls u op = (s.setUnit cls u e).serve cls u (c.finish stBadCommand) := by
  rw [State.laneEvent, if_pos (State.takesNext_of_takes h), State.takeCommandIf_takes h, checkLane_of_opcode h.2]
  cases hc : badCommon c.block
  case true => rfl
  case false =>
    rw [hc, Bool.false_or] at hb
    simp [hb]

theorem State.laneEvent_takes_good (h : s.takes cls u op c e)
    (hb : (badCommon c.block || if op = 1 then badEncode c.block else badDecode c.block) = false) :
    s.laneEvent cls u op = (s.setUnit cls u e).serve cls u { c with job := some LaneJob.start } := by
  obtain ⟨hc, ho⟩ := Bool.or_eq_false_iff.1 hb
  rw [State.laneEvent, if_pos (State.takesNext_of_takes h), State.takeCommandIf_takes h, checkLane_of_opcode h.2]
  simp [hc, ho]

theorem State.awaitingReads_opcode (h : s.awaitingReads cls u op = some (c, j)) : opcodeOf c.block = op := by
  obtain ⟨x, -, hx⟩ := List.mem_filterMap.1 (List.mem_of_head? h)
  cases hjob : x.job with
  | none => simp [hjob] at hx
  | some i =>
    obtain ⟨⟨⟨-, hop⟩, -⟩, rfl, -⟩ : ((x.live = true ∧ opcodeOf x.block = op) ∧ i.ready = false) ∧ x = c ∧ i = j := by
      simpa [hjob] using hx
    exact hop

/-- The first reads are made once an ENCODE's input is translated (R487). -/
theorem State.laneEvent_reads (hn : s.takesNext cls u op = false) (h : s.awaitingReads cls u op = some (c, j))
    (hm : op = 1 → s.spanMisses (laneSrc c.block) (laneSrcLen c.block) false = []) :
    s.laneEvent cls u op =
      (s.firstReads cls u c.block j).2.putCommand cls u { c with job := some (s.firstReads cls u c.block j).1 } := by
  have hop := State.awaitingReads_opcode h
  have hmiss : (if isEncode c.block = true then s.spanMisses (laneSrc c.block) (laneSrcLen c.block) false else []) = [] := by
    simpa [isEncode, hop] using hm
  simp [State.laneEvent, hn, h, hmiss]

end Taken

section Reads
variable {s : State} {cls u : Nat} {b : Vec} {j : LaneJob}

@[simp] theorem State.loadImage_stage : (s.loadImage cls u b j).1.stage = j.stage := by
  unfold State.loadImage
  split
  · rfl
  · dsimp only
    split
    · rfl
    · split <;> rfl

@[simp] theorem State.loadInput_stage : (s.loadInput cls u b j).1.stage = j.stage := by
  unfold State.loadInput
  split
  · rfl
  · dsimp only
    split <;> rfl

theorem State.firstReads_ready : (s.firstReads cls u b j).1.ready = true := rfl

theorem State.firstReads_stage : (s.firstReads cls u b j).1.stage = j.stage := by
  simp [State.firstReads]

/-- Without LOAD_CTX the first read is the input alone. -/
theorem State.firstReads_input {bs : List Byte} {r : State} (he : isEncode b = true) (hl : loadCtxOf b = false) (hf : j.failed = 0)
    (hr : s.readSpan (engineSource cls u) (laneSrc b) (laneSrcLen b) = (none, bs, r)) :
    s.firstReads cls u b j = ({ j with input := bs, ready := true }, r) := by
  simp [State.firstReads, State.loadImage, State.loadInput, he, hl, hf, hr]

/-- A DECODE without LOAD_CTX has no first reads. -/
theorem State.firstReads_decode (he : isEncode b = false) (hl : loadCtxOf b = false) :
    s.firstReads cls u b j = ({ j with ready := true }, s) := by
  simp [State.firstReads, State.loadImage, State.loadInput, he, hl]

end Reads

/-- A lane's command is one event of its lane, but a decoder lane goes on with the DECODE it has begun (R153, R156). -/
theorem exec_lane {s : State} {cls u op : Nat}
    (h : (cls = clsCoder ∧ u < 32 ∧ (op = 1 ∨ op = 2)) ∨ (cls = clsDecoder ∧ u < 48 ∧ op = 2))
    (hd : cls = clsDecoder → s.decoding u = none) :
    (if op = 1 then exec (.cmpEncode u) s else exec (.cmpDecode cls u) s) = .next (s.laneEvent cls u op) := by
  have hencode : exec (.cmpEncode u) s = execCmpEncode u s := rfl
  have hdecode : exec (.cmpDecode cls u) s = execCmpDecode cls u s := rfl
  rw [hencode, hdecode]
  rcases h with ⟨rfl, hu, rfl | rfl⟩ | ⟨rfl, hu, rfl⟩
  · simp [execCmpEncode, hu]
  · simp [execCmpDecode, hu]
  · simp [execCmpDecode, hu, hd rfl, clsDecoder, clsCoder]

section Stages
variable {s : State} {u : Nat} {c : Cmd} {j : LaneJob} {sound : Bool}

theorem exec_coderStageComplete {stage : Nat} (hu : u < 32) (hn : stage < 4) :
    exec (.coderStageComplete u stage sound) s = .next (s.stageComplete u stage sound) :=
  congrArg Host.Outcome.next (if_pos ⟨hu, hn⟩)

theorem exec_analysisComplete (hu : u < 32) (h : s.inStage u 0 = some (c, j)) :
    exec (.coderStageComplete u 0 sound) s = .next (
      if j.ready = false then s
      else if j.failed ≠ 0 then s.endLane clsCoder u (c.finish j.failed) j
      else if (s.inStage u 1).isSome then s
      else s.leaveAnalysis u c j) := by
  simp [exec_coderStageComplete hu, State.stageComplete, h]

theorem exec_codingComplete (hu : u < 32) (h : s.inStage u 1 = some (c, j)) :
    exec (.coderStageComplete u 1 sound) s = .next (
      if (s.inStage u 2).isSome then s
      else s.putCommand clsCoder u { c with job := some { j with stage := 2 } }) := by
  simp [exec_coderStageComplete hu, State.stageComplete, h]

theorem exec_verificationComplete (hu : u < 32) (h : s.inStage u 2 = some (c, j)) :
    exec (.coderStageComplete u 2 sound) s = .next (
      if (s.inStage u 3).isSome then s
      else if isEncode c.block = false then s.finishDecode clsCoder u c j
      else if j.verdict = none then s.verifyEncode u c j sound
      else s.releaseWhenReady u c j) := by
  simp [exec_coderStageComplete hu, State.stageComplete, h, State.leaveVerification]

theorem exec_releaseComplete (hu : u < 32) (h : s.inStage u 3 = some (c, j)) :
    exec (.coderStageComplete u 3 sound) s = .next (s.releaseWhenReady u c j) := by
  simp [exec_coderStageComplete hu, State.stageComplete, h]

theorem State.leaveAnalysis_decode (he : isEncode c.block = false) :
    s.leaveAnalysis u c j = s.putCommand clsCoder u { c with job := some { j with stage := 1 } } := by
  simp [State.leaveAnalysis, he]

theorem State.leaveAnalysis_encode {ctx : CoderCtx} (he : isEncode c.block = true) (hc : s.startCtx clsCoder u c j = some ctx) :
    s.leaveAnalysis u c j = s.putCommand clsCoder u { c with job := some { codeJob c.block j ctx none with stage := 1 } } := by
  simp [State.leaveAnalysis, he, hc]

theorem State.releaseWhenReady_translated (hm : s.spanMisses (laneDst c.block) (laneSrcLen c.block + 24) true = []) :
    s.releaseWhenReady u c j = s.release u c j := by
  simp [State.releaseWhenReady, hm]

/-- Verification counts the outcome, in a register, and gives its verdict (R164, R165). -/
theorem State.verifyEncode_counts : ∃ t : State,
    s.verifyEncode u c j sound = t.putCommand clsCoder u
      { c with job := some { j with verdict := some (sound && verifies j), stage := if saveCtxOf c.block then 2 else 3 } } ∧
    t = { s with regs := t.regs } := by
  refine ⟨_, rfl, ?_⟩
  generalize LaneJob.released _ = outcome
  split
  · rfl
  · split <;> rfl

end Stages

section Decoding
variable {s : State} {cls u : Nat} {c : Cmd} {j : LaneJob} {r : DecodeResult}

theorem exec_cmpDecode_decoding (hu : u < 48) (h : s.decoding u = some (c, j)) :
    exec (.cmpDecode clsDecoder u) s = .next (s.finishDecode clsDecoder u c j) := by
  show execCmpDecode clsDecoder u s = _
  simp [execCmpDecode, hu, h, clsDecoder, clsCoder]

theorem State.finishDecode_failed (hf : j.failed ≠ 0) : s.finishDecode cls u c j = s.endLane cls u (c.finish j.failed) j := if_pos hf

theorem State.finishDecode_decodes {ctx : CoderCtx} {bs : List Byte} {t : State} (hf : j.failed = 0) (hc : s.startCtx cls u c j = some ctx)
    (hm : decodeMisses c.block s = []) (hr : s.readSpan (engineSource cls u) (laneSrc c.block) (laneSrcLen c.block) = (none, bs, t)) :
    s.finishDecode cls u c j =
      let r := decodeFolio bs (laneSrcLen c.block) (laneLen2 c.block) ctx
      (t.writeDecoded cls u c r).2.endLane cls u (t.writeDecoded cls u c r).1 { j with after := r.after } := by
  simp [State.finishDecode, State.decodeCommand, hf, hc, hm, hr]

theorem State.saveImage_unsaved {ctx : CoderCtx} (hs : saveCtxOf c.block = false) : s.saveImage cls u c.block ctx = (none, s) := by
  simp [State.saveImage, hs]

/-- Whatever becomes of the writes, the command has ended with the bytes written of its output (R93, R174). -/
theorem State.writeDecoded_ends :
    (s.writeDecoded cls u c r).1.bytes = (s.writeSpan (engineSource cls u) (laneDst c.block) (decodeOutput c.block r)).2.1 ∧
    (s.writeDecoded cls u c r).1.done = true := by
  unfold State.writeDecoded
  dsimp only
  split
  case h_1 => exact ⟨rfl, rfl⟩
  case h_2 =>
    split
    · exact ⟨rfl, rfl⟩
    · split <;> exact ⟨rfl, rfl⟩

theorem State.writeDecoded_busError
    (hw : (s.writeSpan (engineSource cls u) (laneDst c.block) (decodeOutput c.block r)).1.isSome = true) :
    (s.writeDecoded cls u c r).1.status = stBusError := by
  obtain ⟨err, he⟩ := Option.isSome_iff_exists.1 hw
  simp [State.writeDecoded, he]

/-- Its output written, a DECODE keeps the status that decoding gave, unless it goes on to save its context (R171, R174). -/
theorem State.writeDecoded_status
    (hw : (s.writeSpan (engineSource cls u) (laneDst c.block) (decodeOutput c.block r)).1 = none)
    (h : r.status ≠ stOk ∨ saveCtxOf c.block = false) : (s.writeDecoded cls u c r).1.status = r.status := by
  by_cases hr : r.status = stOk
  case neg => simp [State.writeDecoded, hw, hr, Cmd.finish]
  case pos => simp [State.writeDecoded, hw, hr, State.saveImage_unsaved (h.resolve_left (not_not_intro hr)), Cmd.finish]

end Decoding

/-- Settles O37: a lane's event takes the command or makes its first reads, each stage hands it on as its own equation says, and a decoder
lane's DECODE ends with what `State.writeDecoded` made of it (R153 to R175). -/
theorem laneCommands : Obligations.LaneCommands := by
  unfold Obligations.LaneCommands
  dsimp only
  refine ⟨fun s cls u op c e hlane hidle => ⟨fun ht => ?takes, fun j hn hj hm => ?reads, fun j hc => ?stages⟩,
    fun s u c j hu hd => ?decodes⟩
  case takes =>
    rw [exec_lane hlane hidle]
    exact ⟨fun hb => congrArg _ (State.laneEvent_takes_bad ht hb), fun hb => congrArg _ (State.laneEvent_takes_good ht hb)⟩
  case reads =>
    have hop := State.awaitingReads_opcode hj
    rw [exec_lane hlane hidle]
    refine ⟨_, _, congrArg _ (State.laneEvent_reads hn hj hm), State.firstReads_ready, State.firstReads_stage,
      fun h1 hl hf bs r hr => ?_, fun h2 hl => ?_⟩
    · have he : isEncode c.block = true := by simp [isEncode, hop, h1]
      simp [State.firstReads_input he hl hf hr]
    · have he : isEncode c.block = false := by simp [isEncode, hop, h2]
      simp [State.firstReads_decode he hl]
  case stages =>
    have hu : u < 32 := by
      rcases hlane with ⟨-, hu, -⟩ | ⟨hdec, -⟩
      · exact hu
      · exact absurd (hc.symm.trans hdec) (by decide)
    refine ⟨fun h sound => ?analysis, fun h sound => ?coding, fun h sound => ?verification, fun h hm sound => ?release⟩
    case analysis =>
      rw [exec_analysisComplete hu h]
      refine ⟨fun hr => ?_, fun hr hf => ?_, fun hr hf hfull => ?_, fun hr hf hfree => ⟨fun he => ?_, fun ctx he hctx => ?_⟩⟩
      · simp [hr]
      · simp [hr, hf]
      · simp [hr, hf, hfull]
      · simp [hr, hf, hfree, State.leaveAnalysis_decode he]
      · simp [hr, hf, hfree, State.leaveAnalysis_encode he hctx]
    case coding =>
      rw [exec_codingComplete hu h]
      exact ⟨fun hfree => by simp [hfree], fun hfull => by simp [hfull]⟩
    case verification =>
      rw [exec_verificationComplete hu h]
      refine ⟨fun hfull => ?_, fun hfree => ⟨fun he => ?_, fun he hv => ?verify, fun he hv hm => ?_⟩⟩
      · simp [hfull]
      · simp [hfree, he]
      case verify =>
        obtain ⟨t, ht, hregs⟩ := State.verifyEncode_counts (s := s) (u := u) (c := c) (j := j) (sound := sound)
        exact ⟨_, t, by simp [hfree, he, hv, ht], rfl, hregs⟩
      · simp [hfree, he, Option.isSome_iff_ne_none.1 hv, State.releaseWhenReady_translated hm]
    case release => exact (exec_releaseComplete hu h).trans (congrArg _ (State.releaseWhenReady_translated hm))
  case decodes =>
    rw [exec_cmpDecode_decoding hu hd]
    refine ⟨fun hf => congrArg _ (State.finishDecode_failed hf), fun ctx bs t hf hctx hm hread => ?_⟩
    obtain ⟨hbytes, hdone⟩ := State.writeDecoded_ends (s := t) (cls := clsDecoder) (u := u) (c := c)
      (r := decodeFolio bs (laneSrcLen c.block) (laneLen2 c.block) ctx)
    exact ⟨_, _, congrArg _ (State.finishDecode_decodes hf hctx hm hread), hbytes, hdone,
      fun hw hr => State.writeDecoded_status hw (.inl hr), fun hw hs => State.writeDecoded_status hw (.inr hs),
      State.writeDecoded_busError⟩

end Sys2Proof.Machine
end

section
/-! SUPPORT. Digest units (R206 to R219): the event of a command of an engine unit, keyed commands, messages and the key slots. -/

namespace Sys2Proof.Machine

section Event
variable {s : State} {cls u op : Nat} {c : Cmd} {e : EngUnit} {check : Cmd → State → Cmd × State} {misses : Cmd → State → List Nat}
  {run : Cmd → State → Cmd × State} {bad : Vec → Bool}

/-- A command that its unit takes now ends for its header, and else is what its check makes of it (R91, R92). -/
theorem State.engineEvent_takes (h : s.takes cls u op c e) :
    s.engineEvent cls u op check misses run =
      if badCommon c.block then (s.setUnit cls u e).serve cls u (c.finish stBadCommand)
      else (check c (s.setUnit cls u e)).2.serve cls u (check c (s.setUnit cls u e)).1 := by
  rw [State.engineEvent, if_pos (State.takesNext_of_takes h), State.takeCommandIf_takes h]

theorem State.runs_opcode (h : s.runs cls u op c) : opcodeOf c.block = op := by
  have hlive := List.find?_some h.2
  exact eq_of_beq (Bool.and_eq_true_iff.1 hlive).2

/-- A command in service makes its accesses once their translations are there (R487). -/
theorem State.engineEvent_runs (h : s.runs cls u op c) (hm : misses c s = []) :
    s.engineEvent cls u op check misses run = (run c s).2.putCommand cls u (run c s).1 := by
  obtain ⟨hnext, hexec⟩ := h
  simp [State.engineEvent, hnext, hexec, hm]

/-- A command whose operands alone are checked: refused, or put into service as it is. -/
theorem State.engineEvent_serves_checked (h : s.takes cls u op c e) :
    ((badCommon c.block || bad c.block) = true →
      serves cls u (c.finish stBadCommand) (s.setUnit cls u e) (.next (s.engineEvent cls u op (checkBlock bad) misses run))) ∧
    ((badCommon c.block || bad c.block) = false →
      serves cls u c (s.setUnit cls u e) (.next (s.engineEvent cls u op (checkBlock bad) misses run))) := by
  rw [State.engineEvent_takes h]
  refine ⟨fun hb => congrArg _ ?_, fun hb => congrArg _ ?_⟩
  · cases hc : badCommon c.block
    case true => rfl
    case false =>
      rw [hc, Bool.false_or] at hb
      simp [checkBlock, hb]
  · obtain ⟨hc, ho⟩ := Bool.or_eq_false_iff.1 hb
    simp [checkBlock, hc, ho]

/-- A keyed command: refused, ended for its empty slot, or put into service with the key that its slot holds now (R206, R207). -/
theorem State.engineEvent_serves_keyed (h : s.takes cls u op c e) :
    let o := .next (s.engineEvent cls u op (checkKeyed bad) misses run)
    let key := s.digestKey (dgtSlot c.block)
    ((badCommon c.block || bad c.block) = true → serves cls u (c.finish stBadCommand) (s.setUnit cls u e) o) ∧
    ((badCommon c.block || bad c.block) = false → key = [] → serves cls u (c.finish stKeyEmpty) (s.setUnit cls u e) o) ∧
    ((badCommon c.block || bad c.block) = false → key ≠ [] → serves cls u { c with key := key } (s.setUnit cls u e) o) := by
  have hkey : (s.setUnit cls u e).digestKey (dgtSlot c.block) = s.digestKey (dgtSlot c.block) := rfl
  rw [State.engineEvent_takes h]
  refine ⟨fun hb => congrArg _ ?_, fun hb hk => congrArg _ ?_, fun hb hk => congrArg _ ?_⟩
  · cases hc : badCommon c.block
    case true => rfl
    case false =>
      rw [hc, Bool.false_or] at hb
      simp [checkKeyed, hb]
  all_goals
    obtain ⟨hc, ho⟩ := Bool.or_eq_false_iff.1 hb
    simp [checkKeyed, hc, ho, hkey, hk]

end Event

section Messages
variable {s s2 : State} {u op : Nat} {c : Cmd} {f : List Byte → List Byte} {m : List Byte} {check : Cmd → State → Cmd × State}

theorem messageDigest_shake (h : opcodeOf c.block = 1) : messageDigest c = shake256 (dgtOutLen c.block) := if_pos h

theorem messageDigest_kmac (h : opcodeOf c.block = 2) :
    messageDigest c = fun m => kmac256 c.key m (dgtOutLen c.block) (dgtS c.block) := if_neg (by simp [h])

/-- Its source read, a message writes its digest and is counted (R204). -/
theorem State.runMessage_writes
    (hr : s.readSpan (engineSource clsDigest u) (dgtSrc c.block) (dgtSrcLen c.block) = (none, m, s2))
    (hw : (s2.countMessage u m.length 0).spanWriteFault (dgtDst c.block) (dgtOutLen c.block) = none) :
    s.runMessage u f c =
      let w := (s2.countMessage u m.length 0).writeSpan (engineSource clsDigest u) (dgtDst c.block) (f m)
      ({ c.finish stOk with bytes := w.2.1 }, w.2.2.countMessage u 0 1) := by
  simp [State.runMessage, hr, hw]

/-- A message writes nothing when an access of its write would fail (R219). -/
theorem State.runMessage_writeFault {err : BusKind × Nat}
    (hr : s.readSpan (engineSource clsDigest u) (dgtSrc c.block) (dgtSrcLen c.block) = (none, m, s2))
    (hw : (s2.countMessage u m.length 0).spanWriteFault (dgtDst c.block) (dgtOutLen c.block) = some err) :
    s.runMessage u f c = (c.finish stBusError, (s2.countMessage u m.length 0).engineError clsDigest u err) := by
  simp [State.runMessage, State.dgtError, hr, hw]

/-- What the event of a message in service makes of its command, given what its digest is a function of. -/
theorem State.engineEvent_becomes_message (h : s.runs clsDigest u op c) (hf : messageDigest c = f) (hm : messageMisses c s = [])
    (hr : s.readSpan (engineSource clsDigest u) (dgtSrc c.block) (dgtSrcLen c.block) = (none, m, s2)) :
    let o := .next (s.engineEvent clsDigest u op check messageMisses fun c => State.runMessage u (messageDigest c) c)
    let s3 := s2.countMessage u m.length 0
    let w := s3.writeSpan (engineSource clsDigest u) (dgtDst c.block) (f m)
    (s3.spanWriteFault (dgtDst c.block) (dgtOutLen c.block) = none →
      becomes clsDigest u { c.finish stOk with bytes := w.2.1 } (w.2.2.countMessage u 0 1) o) ∧
    (∀ err, s3.spanWriteFault (dgtDst c.block) (dgtOutLen c.block) = some err →
      becomes clsDigest u (c.finish stBusError) (s3.engineError clsDigest u err) o) := by
  rw [State.engineEvent_runs h hm, hf]
  exact ⟨fun hw => congrArg _ (by rw [State.runMessage_writes hr hw]),
    fun err hw => congrArg _ (by rw [State.runMessage_writeFault hr hw])⟩

end Messages

section Slots
variable {s : State} {slot j : Nat} {k : List Byte}

@[simp] theorem State.digestKey_setDigestKey_same : (s.setDigestKey slot k).digestKey slot = k := Sparse.get_set_same [] slot k _

theorem State.digestKey_setDigestKey_other (h : j ≠ slot) : (s.setDigestKey slot k).digestKey j = s.digestKey j :=
  Sparse.get_set_other [] slot j k _ h

theorem padTo_self (k : List Byte) : padTo k.length k = k := by
  simp [padTo, slice]

theorem exec_digestSlotLoad_key (hs : slot < 4160) (hk : k.length = 32) :
    exec (.digestSlotLoad slot (some k)) s = .next (s.setDigestKey slot k) := by
  have hload : exec (.digestSlotLoad slot (some k)) s = .next (s.setDigestKey slot (padTo k.length k)) :=
    hk ▸ congrArg Host.Outcome.next (if_neg hs.not_ge)
  rw [hload, padTo_self]

theorem exec_digestSlotLoad_clear (hs : slot < 4160) : exec (.digestSlotLoad slot none) s = .next (s.setDigestKey slot []) :=
  congrArg Host.Outcome.next (if_neg hs.not_ge)

end Slots

section Instructions
variable {s : State} {u : Nat}

theorem exec_dgtShake256 (hu : u < 32) :
    exec (.dgtShake256 u) s = .next (s.engineEvent clsDigest u 1 (checkBlock badShake) messageMisses
      fun c => State.runMessage u (messageDigest c) c) := congrArg Host.Outcome.next (if_pos hu)

theorem exec_dgtKmac256 (hu : u < 32) :
    exec (.dgtKmac256 u) s = .next (s.engineEvent clsDigest u 2 (checkKeyed badKmac) messageMisses
      fun c => State.runMessage u (messageDigest c) c) := congrArg Host.Outcome.next (if_pos hu)

theorem exec_dgtFingerprint (hu : u < 32) :
    exec (.dgtFingerprint u) s = .next (s.engineEvent clsDigest u 3 (checkKeyed (badBlocks false 64)) (blockMisses false)
      fun c => State.fingerprintBlocks u (dgtCount c.block) 0 c) := congrArg Host.Outcome.next (if_pos hu)

theorem exec_dgtVerify {fm fn : Nat} (hu : u < 32) :
    exec (.dgtVerify u fm fn) s = .next (s.engineEvent clsDigest u 4 (checkKeyed (badBlocks true 8)) (blockMisses true)
      fun c => State.verifyBlocks u fm fn (dgtCount c.block) 0 c) := congrArg Host.Outcome.next (if_pos hu)

end Instructions

/-- Settles O38: each opcode is an event of its unit, which takes and checks the command (R206, R209, R210), or makes its accesses as
`State.runMessage` and the block loops say (R211, R217, R219); a slot load is a write of one key. -/
theorem digestCommands : Obligations.DigestCommands := by
  unfold Obligations.DigestCommands
  dsimp only
  refine fun s u c e hu => ⟨fun ht => ?shakeTaken, fun ht => ?kmacTaken, fun ht => ?fingerprintTaken, fun fm fn ht => ?verifyTaken,
    fun hr hm m s2 hread => ?shake, fun hr hm m s2 hread => ?kmac, fun hr hm => ?fingerprint, fun fm fn hr hm => ?verify,
    fun slot k hs => ⟨fun hk => ?slotLoaded, ?slotCleared⟩⟩
  case shakeTaken => rw [exec_dgtShake256 hu]; exact State.engineEvent_serves_checked ht
  case kmacTaken => rw [exec_dgtKmac256 hu]; exact State.engineEvent_serves_keyed ht
  case fingerprintTaken => rw [exec_dgtFingerprint hu]; exact State.engineEvent_serves_keyed ht
  case verifyTaken => rw [exec_dgtVerify hu]; exact State.engineEvent_serves_keyed ht
  case shake =>
    rw [exec_dgtShake256 hu]
    have hdigest := messageDigest_shake (State.runs_opcode hr)
    have hends := State.engineEvent_becomes_message (check := checkBlock badShake) hr hdigest hm hread
    exact hends
  case kmac =>
    rw [exec_dgtKmac256 hu]
    have hdigest := messageDigest_kmac (State.runs_opcode hr)
    have hends := State.engineEvent_becomes_message (check := checkKeyed badKmac) hr hdigest hm hread
    exact hends
  case fingerprint => exact (exec_dgtFingerprint hu).trans (congrArg _ (State.engineEvent_runs hr hm))
  case verify => exact (exec_dgtVerify hu).trans (congrArg _ (State.engineEvent_runs hr hm))
  case slotLoaded =>
    exact ⟨_, exec_digestSlotLoad_key hs hk, State.digestKey_setDigestKey_same, fun _ => State.digestKey_setDigestKey_other⟩
  case slotCleared =>
    exact ⟨_, exec_digestSlotLoad_clear hs, State.digestKey_setDigestKey_same, fun _ => State.digestKey_setDigestKey_other⟩

end Sys2Proof.Machine
end

section
/-! SUPPORT. Cipher units (R240 to R261): a command that is taken, its steps block by block, suspension and resumption, and the key slots. -/

namespace Sys2Proof.Machine

/-! ### Key slots (R245, R248, R258) -/

section KeySlots
variable {s : State} {slot j limit : Nat} {a b : List Byte} {ro : Bool}

@[simp] theorem State.cslot_setCslot_same (x : CSlot) : (s.setCslot slot x).cslot slot = x := Sparse.get_set_same _ slot x _

theorem State.cslot_setCslot_other (h : j ≠ slot) (x : CSlot) : (s.setCslot slot x).cslot j = s.cslot j :=
  Sparse.get_set_other _ slot j x _ h

theorem exec_keySlotLoad (hs : slot < 4096) (hg : goodHalves a b = true) :
    exec (.keySlotLoad slot a b limit ro) s =
      .next (if 4032 ≤ slot ∨ s.kpr.owner = .accepted then s.loadSlot slot a b limit ro else s) := by
  show execKeySlotLoad slot a b limit ro s = _
  simp [execKeySlotLoad, hs, hg]

theorem exec_keySlotRetire (hs : slot < 4096) (h : (s.cslot slot).state ≠ .empty) :
    exec (.keySlotRetire slot) s = .next (s.setCslot slot { s.cslot slot with state := .readOnly }) := by
  show execKeySlotRetire slot s = _
  simp [execKeySlotRetire, hs, State.retireSlot, h]

theorem exec_keySlotClear (hs : slot < 4096) : exec (.keySlotClear slot) s = .next (s.setCslot slot CSlot.empty) :=
  congrArg Host.Outcome.next (if_pos hs)

end KeySlots

/-! ### Contexts (R249) -/

section Contexts
variable {s : State} {u i j : Nat} {c : Cmd}

@[simp] theorem State.cphCtx_setCphCtx_same (x : CipherCtx) : (s.setCphCtx u i x).cphCtx u i = x := Sparse.get_set_same _ (2 * u + i) x _

theorem State.cphCtx_setCphCtx_other (h : j ≠ i) (x : CipherCtx) : (s.setCphCtx u i x).cphCtx u j = s.cphCtx u j :=
  Sparse.get_set_other _ (2 * u + i) (2 * u + j) x _ fun hk => h (Nat.add_left_cancel hk)

@[simp] theorem State.cphCtx_bump (r n v k : Nat) : (s.bump r n).cphCtx v k = s.cphCtx v k := rfl
@[simp] theorem State.unit_bump (r n cls v : Nat) : (s.bump r n).unit cls v = s.unit cls v := rfl
@[simp] theorem State.unit_setCphCtx (x : CipherCtx) (cls v : Nat) : (s.setCphCtx u i x).unit cls v = s.unit cls v := rfl

theorem State.unit_suspendCipher : (s.suspendCipher u c).unit clsCipher u =
    { s.unit clsCipher u with
      service := (s.unit clsCipher u).service.drop 1
      suspended := [{ c with detail := if c.detail % 256 = 255 then c.detail else c.detail + 1 }] } := by
  simp [State.suspendCipher]

theorem State.cphCtx_suspendCipher :
    (s.suspendCipher u c).cphCtx u 1 = s.cphCtx u 0 ∧ (s.suspendCipher u c).cphCtx u 0 = CipherCtx.free := by
  simp [State.suspendCipher, State.cphCtx_setCphCtx_other]

theorem State.unit_resumeCipher : (s.resumeCipher u).unit clsCipher u =
    { s.unit clsCipher u with service := (s.unit clsCipher u).suspended, suspended := [], q0run := 0 } := by
  simp [State.resumeCipher]

theorem State.cphCtx_resumeCipher :
    (s.resumeCipher u).cphCtx u 0 = { s.cphCtx u 1 with sinceResume := 0, resumed := true } ∧
      (s.resumeCipher u).cphCtx u 1 = CipherCtx.free := by
  simp [State.resumeCipher, State.cphCtx_setCphCtx_other]

theorem exec_cipherSuspend (hu : u < 128) (hc : s.cphCommand u = some c) (hd : s.suspendDue u c = true) :
    exec (.cipherSuspend u) s = .next (s.suspendCipher u c) := by
  show execCipherSuspend u s = _
  simp [execCipherSuspend, hu, hc, hd]

theorem exec_cipherResume (hu : u < 128) (hd : s.resumeDue u = true) : exec (.cipherResume u) s = .next (s.resumeCipher u) :=
  congrArg Host.Outcome.next (if_pos ⟨hu, hd⟩)

end Contexts

/-! ### Taking a command, and its steps (R240, R247, R249) -/

section Work
variable {s : State} {u op n : Nat} {c : Cmd} {e : EngUnit}

theorem exec_cphEncrypt (hu : u < 128) : exec (.cphEncrypt u n) s = .next (s.runCipher u 1 n) := congrArg Host.Outcome.next (if_pos hu)
theorem exec_cphDecrypt (hu : u < 128) : exec (.cphDecrypt u n) s = .next (s.runCipher u 2 n) := congrArg Host.Outcome.next (if_pos hu)
theorem exec_cphCtr (hu : u < 128) : exec (.cphCtr u n) s = .next (s.runCipher u 3 n) := congrArg Host.Outcome.next (if_pos hu)

/-- The command that a unit takes is judged by its operands, then by its slot, whose halves the unit keeps (R240, R247). -/
theorem State.takeCipher_takes (h : s.takes clsCipher u op c e) :
    s.takeCipher u op =
      let slot := s.cslot (cphSlot c.block)
      let s1 := s.setUnit clsCipher u e
      if (badCommon c.block || badCipherOp op c.block) = true then s1.serve clsCipher u (c.finish stBadCommand)
      else if slot.refuse op (cphHalfB c.block) ≠ 0 then s1.serve clsCipher u (c.finish (slot.refuse op (cphHalfB c.block)))
      else (s1.setCphCtx u 0
        { halfA := slot.halfA, halfB := slot.halfB, counter := [], sinceResume := 0, resumed := false }).serve clsCipher u c := by
  have hslot : (s.setUnit clsCipher u e).cslot (cphSlot c.block) = s.cslot (cphSlot c.block) := rfl
  rw [State.takeCipher, State.takeCommandIf_takes h]
  cases hcommon : badCommon c.block
  case true => rfl
  case false =>
    cases hop : badCipherOp op c.block
    case true => simp [State.checkCipher, hop]
    case false =>
      by_cases hr : (s.cslot (cphSlot c.block)).refuse op (cphHalfB c.block) = 0
      · simp [State.checkCipher, hop, hslot, hr]
      · simp [State.checkCipher, hop, hslot, hr]

theorem State.runCipher_idle (h : s.cphCommand u = none) : s.runCipher u op 0 = s.takeCipher u op := by
  simp [State.runCipher, State.cipherBlocks, h]

theorem State.runCipher_busy (h : (s.cphCommand u).isSome = true) : s.runCipher u op n = State.cipherBlocks u op n s := by
  simp [State.runCipher, h]

/-- A command that has ended takes no more steps. -/
theorem State.cipherBlocks_ended (h : s.cphCommand u = none) : State.cipherBlocks u op n s = s := by
  cases n with
  | zero => rfl
  | succ n => simp [State.cipherBlocks, h]

/-- One step of the command in service, where no suspension is due and its translations are there. -/
theorem State.cipherBlocks_step (hc : s.cphCommand u = some c) (hop : opcodeOf c.block = op) (hd : s.suspendDue u c = false)
    (hm : s.blockMissesOf u op c = []) :
    State.cipherBlocks u op (n + 1) s = State.cipherBlocks u op n
      (if s.needsIcb u op then s.readIcb u c else if c.index = cphBlocks c.block then s.tagBlock u c else s.dataBlock u op c) := by
  rw [State.cipherBlocks]
  simp [hc, hop, hd, hm]

end Work

/-- Settles O39: a row of the unit takes its command, which `State.takeCipher_takes` judges, or gives the one in service its steps, of which
`State.cipherBlocks_step` is one; suspension and resumption move it between the contexts (R249), and the keeper's commands write one slot. -/
theorem cipherCommands : Obligations.CipherCommands := by
  unfold Obligations.CipherCommands
  intro s u hu run
  have hrun : ∀ (op n : Nat) (t : State), 1 ≤ op → op ≤ 3 → run op n t = .next (t.runCipher u op n) := by
    intro op n t h1 h3
    obtain rfl | rfl | rfl : op = 1 ∨ op = 2 ∨ op = 3 := by omega
    · exact exec_cphEncrypt hu
    · exact exec_cphDecrypt hu
    · exact exec_cphCtr hu
  refine ⟨fun op c e h1 h3 hidle ht => ?taken, fun op n c h1 h3 hc hop hd hm => ?stepped, fun c hc hd => ?suspended, fun hd => ?resumed,
    fun slot hs => ⟨fun a b limit ro hg => ⟨fun ho => ?loaded, fun hdata ho => ?locked⟩, fun hne => ?retired, ?cleared⟩⟩
  case taken =>
    rw [hrun op 0 s h1 h3, State.runCipher_idle hidle, State.takeCipher_takes ht]
    exact ⟨fun hb => congrArg _ (if_pos hb),
      fun hb hr => congrArg _ ((if_neg (Bool.eq_false_iff.1 hb)).trans (if_pos hr)),
      fun hb hr => congrArg _ ((if_neg (Bool.eq_false_iff.1 hb)).trans (if_neg (not_not_intro hr)))⟩
  case stepped =>
    intro t
    have hstep : run op (n + 1) s = .next (State.cipherBlocks u op n t) := by
      rw [hrun op (n + 1) s h1 h3, State.runCipher_busy (by simp [hc]), State.cipherBlocks_step hc hop hd hm]
    rw [hstep]
    refine ⟨fun hlive => ?_, fun hended => ?_⟩
    · rw [hrun op n t h1 h3, State.runCipher_busy hlive]
    · rw [State.cipherBlocks_ended (by simpa using hended)]
  case suspended =>
    refine ⟨_, exec_cipherSuspend hu hc hd, ?_, ?_, State.cphCtx_suspendCipher⟩
    all_goals rw [State.unit_suspendCipher]
  case resumed =>
    refine ⟨_, exec_cipherResume hu hd, ?_, ?_, State.cphCtx_resumeCipher⟩
    all_goals rw [State.unit_resumeCipher]
  case loaded =>
    rw [exec_keySlotLoad hs hg, if_pos ho]
    exact ⟨_, rfl, State.cslot_setCslot_same _, fun j hj => State.cslot_setCslot_other hj _⟩
  case locked =>
    rw [exec_keySlotLoad hs hg, if_neg (not_or.2 ⟨hdata.not_ge, ho⟩)]
  case retired =>
    exact ⟨_, exec_keySlotRetire hs hne, State.cslot_setCslot_same _, fun j hj => State.cslot_setCslot_other hj _⟩
  case cleared =>
    exact ⟨_, exec_keySlotClear hs, State.cslot_setCslot_same _, fun j hj => State.cslot_setCslot_other hj _⟩

end Sys2Proof.Machine
end

section
/-! SUPPORT. Stream messages (R474 to R476), repair requests (R319, R320), snapshot orders (R469, R473) and the stack sync line (R478, R479,
R565). -/

namespace Sys2Proof.Machine

/-! ### A message of a peer (R246, R474, R475) -/

section Messages
variable {s w : State} {peer type : Nat} {msg h p : List Byte} {body : List Byte → List Byte → State → State}

theorem State.onMessage_malformed (ho : s.openMessage peer type msg = .malformed) : s.onMessage peer type msg body = s := by
  simp [State.onMessage, ho]

/-- A refused claim leaves a message unopened. -/
theorem State.onMessage_refused (ho : s.openMessage peer type msg ≠ .malformed) (hw : s.useGcm peer (msg.length - 80) = (false, w)) :
    s.onMessage peer type msg body = w := by
  cases hopen : s.openMessage peer type msg with
  | malformed => exact absurd hopen ho
  | untrusted => simp [State.onMessage, hopen, hw]
  | good h p => simp [State.onMessage, hopen, hw]

/-- A message whose tag fails is counted at the unit that checked it, and asked for again. -/
theorem State.onMessage_untrusted (ho : s.openMessage peer type msg = .untrusted) (hw : s.useGcm peer (msg.length - 80) = (true, w)) :
    s.onMessage peer type msg body =
      (w.takeFree.bump (rCphUnit (w.freeWord.toNat % classUnits clsCipher) + 0x14) 1).emit (.streamRepeat peer (msgStream msg) (msgSeq msg)) := by
  simp [State.onMessage, ho, hw]

theorem State.onMessage_good (hw : s.useGcm peer (msg.length - 80) = (true, w)) (ho : s.openMessage peer type msg = .good h p) :
    s.onMessage peer type msg body = body h p w := by
  simp [State.onMessage, ho, hw]

end Messages

/-! ### The messages of a stream (R475) -/

section Streams
variable {s w : State} {peer : Nat} {msg h p : List Byte} {x : Inbound}

theorem State.mem_inbound_setInbound : x ∈ (s.setInbound x).snp.inbound := by
  simp [State.setInbound]

/-- BEGIN makes the namespace a replica, and a stream of no groups yet. -/
theorem exec_streamBegin_good (hw : s.useGcm peer (msg.length - 80) = (true, w)) (ho : s.openMessage peer 1 msg = .good h p)
    (hlen : p.length = 128) (hseq : msgSeq h = 1) (hns : w.holdsNs (leAt p 16 4) = true) :
    ∃ (v : State) (x : Inbound), exec (.streamBegin peer msg) s = .next (v.setInbound x) ∧ leAt p 16 4 ∈ v.snp.replicas ∧
      x.peer = peer ∧ x.stream = msgStream h ∧ x.nsid = leAt p 16 4 ∧ x.seq = 1 ∧ x.groups = 0 ∧ x.ended = false ∧ x.label = slice p 96 32 := by
  have hexec : exec (.streamBegin peer msg) s = execStreamBegin peer msg s := rfl
  rw [hexec, execStreamBegin, State.onMessage_good hw ho]
  dsimp only
  rw [if_neg (by simp [hlen, hseq, hns])]
  refine ⟨_, _, rfl, ?_, rfl, rfl, rfl, rfl, rfl, rfl, rfl⟩
  dsimp only
  split
  · exact List.contains_iff_mem.1 ‹_›
  · simp

theorem exec_streamGroup_outOfOrder (hw : s.useGcm peer (msg.length - 80) = (true, w)) (ho : s.openMessage peer 2 msg = .good h p)
    (hx : w.inbound peer (msgStream h) = some x) (hseq : msgSeq h ≠ x.seq + 1) : exec (.streamGroup peer msg) s = .next w := by
  show execStreamGroup peer msg s = _
  simp [execStreamGroup, State.onMessage_good hw ho, hx, hseq]

/-- A GROUP in order, for which the buffer has room and whose folio decodes, lands its writes and queues its unreadable blocks. -/
theorem exec_streamGroup_taken (hw : s.useGcm peer (msg.length - 80) = (true, w)) (ho : s.openMessage peer 2 msg = .good h p)
    (hx : w.inbound peer (msgStream h) = some x) (hseq : msgSeq h = x.seq + 1) (hopen : x.ended = false) (hns : w.holdsNs x.nsid = true) :
    let masks := msgArg1 h
    let n := countOnes 8 (masks % 256)
    let d := decodeFolio (p.drop (32 * n)) (p.drop (32 * n)).length (4096 * n) x.chain
    let w' := if n = 0 then w else w.useDecoder 2 1 d.out.length
    w.mayAllocate (8 * n) = true → w.openRoom 8 = true → w.canReserve (8 * n) = true → (n = 0 ∨ d.status = 0) →
      let t := (groupWrites (msgArg0 h) masks d.out).foldl (fun t y => t.innerWrite x.nsid y) w'
      let u := if masks / 2 ^ 24 % 256 = 0 then t else t.queueItems [itemMap 4 (masks / 2 ^ 24 % 256) x.nsid (groupOf (msgArg0 h)) 0]
      exec (.streamGroup peer msg) s =
        .next (u.setInbound { x with seq := x.seq + 1, groups := x.groups + 1, chain := if n = 0 then x.chain else d.after }) := by
  intro masks n d w' hbuffer hroom hspace hdecoded
  have hexec : exec (.streamGroup peer msg) s = execStreamGroup peer msg s := rfl
  have htaken : ¬ (msgSeq h ≠ x.seq + 1 ∨ x.ended ∨ ¬ w.holdsNs x.nsid ∨ ¬ w.mayAllocate (8 * n) ∨ ¬ w.openRoom 8 ∨ ¬ w.canReserve (8 * n)) := by
    simp [hseq, hopen, hns, hbuffer, hroom, hspace]
  have hgood : ¬ (n ≠ 0 ∧ d.status ≠ 0) := fun hbad => hdecoded.elim hbad.1 hbad.2
  rw [hexec, execStreamGroup, State.onMessage_good hw ho]
  dsimp only
  rw [hx]
  exact congrArg Host.Outcome.next ((if_neg htaken).trans (if_neg hgood))

theorem exec_streamSeal_taken (hw : s.useGcm peer (msg.length - 80) = (true, w)) (ho : s.openMessage peer 4 msg = .good h p)
    (hx : w.inbound peer (msgStream h) = some x) (hseq : msgSeq h = x.seq + 1) (hopen : x.ended = false)
    (hlen : msgArg0 h + p.length ≤ msgArg1 h) :
    exec (.streamSeal peer msg) s =
      .next (w.setInbound { x with seq := x.seq + 1, manifest := patch (padTo (msgArg1 h) x.manifest) (msgArg0 h) p }) := by
  show execStreamSeal peer msg s = _
  simp [execStreamSeal, State.onMessage_good hw ho, hx, hseq, hopen, hlen.not_gt]

/-- END of a stream whose groups are all there orders the snapshot that its ACK waits for. -/
theorem exec_streamEnd_taken (hw : s.useGcm peer (msg.length - 80) = (true, w)) (ho : s.openMessage peer 3 msg = .good h p)
    (hx : w.inbound peer (msgStream h) = some x) (hseq : msgSeq h = x.seq + 1) (hopen : x.ended = false) (hgroups : msgArg0 h = x.groups)
    (hns : w.holdsNs x.nsid = true) (hroom : w.viewRoom x.nsid = true) :
    exec (.streamEnd peer msg) s =
      .next ((w.orderSnapshot x.nsid x.label 2 none none (some (peer, x.stream, msgSeq h))).setInbound { x with seq := x.seq + 1, ended := true }) := by
  show execStreamEnd peer msg s = _
  simp [execStreamEnd, State.onMessage_good hw ho, hx, hseq, hopen, hgroups, hns, hroom]

/-- An ACK with a view pairs the peer's view with the one shipped. -/
theorem exec_streamAck_paired {y : Shipment} (hw : s.useGcm peer (msg.length - 80) = (true, w)) (ho : s.openMessage peer 5 msg = .good h p)
    (hy : w.snp.shipments.find? (fun x => x.peer == peer && x.stream == msgStream h) = some y) (hview : msgArg1 h ≠ 0)
    (hend : y.endSeq ≤ msgArg0 h) (hbase : y.dropBase = false) (hreply : y.reply = none) :
    exec (.streamAck peer msg) s =
      .next (({ w with snp := { w.snp with shipments := w.snp.shipments.filter fun z => z.stream != y.stream,
                                           peerViews := w.snp.peerViews ++ [(peer, y.view, msgArg1 h)] } } : State).tellPartner msgShipped
        (leBytes 4 y.view ++ leBytes 4 peer)) := by
  show execStreamAck peer msg s = _
  simp [execStreamAck, State.onMessage_good hw ho, hy, hview, hend.not_gt, hbase, hreply]

end Streams

/-! ### Repair of LOST folios from a peer (R319, R320) -/

section Repair
variable {s w t : State} {peer : Nat} {msg h p d : List Byte} {seen : Seen} {v : View}

theorem exec_repairReq_noView (hw : s.useGcm peer (msg.length - 80) = (true, w)) (ho : s.openMessage peer 6 msg = .good h p)
    (hv : w.cat.viewNo (msgArg1 h) = none) :
    exec (.repairReq peer msg seen) s = .next (w.sendStream peer 7 (msgStream h) (msgSeq h) (msgArg0 h) 2 []) := by
  show execRepairReq peer msg seen s = _
  simp [execRepairReq, State.onMessage_good hw ho, hv]

theorem exec_repairReq_block (hw : s.useGcm peer (msg.length - 80) = (true, w)) (ho : s.openMessage peer 6 msg = .good h p)
    (hv : w.cat.viewNo (msgArg1 h) = some v) (hns : v.nsid = leAt p 0 4) (hkept : v.deleting = false)
    (hb : w.viewBlock seen v.root (msgArg0 h) = (.ok d, t)) :
    exec (.repairReq peer msg seen) s = .next (t.sendStream peer 7 (msgStream h) (msgSeq h) (msgArg0 h) 0 d) := by
  show execRepairReq peer msg seen s = _
  simp [execRepairReq, State.onMessage_good hw ho, hv, hns, hkept, hb]

theorem exec_repairReq_zero (hw : s.useGcm peer (msg.length - 80) = (true, w)) (ho : s.openMessage peer 6 msg = .good h p)
    (hv : w.cat.viewNo (msgArg1 h) = some v) (hns : v.nsid = leAt p 0 4) (hkept : v.deleting = false)
    (hb : w.viewBlock seen v.root (msgArg0 h) = (.zero, t)) :
    exec (.repairReq peer msg seen) s = .next (t.sendStream peer 7 (msgStream h) (msgSeq h) (msgArg0 h) 0 (zeros 4096)) := by
  show execRepairReq peer msg seen s = _
  simp [execRepairReq, State.onMessage_good hw ho, hv, hns, hkept, hb]

/-- The answer to a repair request ends the request: its block is kept when it verifies, and else the peer has failed for it. -/
theorem exec_repairResp_good {stream cid : Nat} (hw : s.useGcm peer (msg.length - 80) = (true, w))
    (ho : s.openMessage peer 7 msg = .good h p)
    (hr : w.snp.repairs.find? (fun x => x.1 == msgStream h && x.2.2 == peer) = some (stream, cid, peer)) :
    let domain := ((w.cat.firstOf cid).map fun f => (w.cat.record f).domain).getD 0
    let t : State := { w with snp := { w.snp with repairs := w.snp.repairs.filter fun x => x.1 != stream } }
    exec (.repairResp peer msg) s = .next (
      if msgArg1 h = 0 ∧ p.length = 4096 ∧ fingerprint (w.digestKey domain) p = w.cat.digestOf cid then
        { t with snp := { t.snp with repairBlocks := Sparse.set [] cid p t.snp.repairBlocks } }
      else { t with snp := { t.snp with repairFailed := t.snp.repairFailed ++ [(peer, cid)] } }) := by
  have hexec : exec (.repairResp peer msg) s = execRepairResp peer msg s := rfl
  rw [hexec, execRepairResp, State.onMessage_good hw ho]
  dsimp only
  rw [hr]
  rfl

end Repair

/-! ### Snapshot orders (R469, R473) -/

section Orders
variable {s : State} {ns peer : Nat}

/-- Whoever waits for the view number, the items of the snapshot are queued. -/
theorem exec_snapshotItemQueue_reached {o : SnapOrder} (ho : s.snp.orders.find? (fun o => o.nsid == ns && ! o.queued) = some o)
    (hns : s.holdsNs ns = true) (hp : s.pointReached ns o.n = true) :
    ∃ t : State, exec (.snapshotItemQueue ns) s = .next t ∧ t.deltas = s.deltas ++ itemsSnapshot ns o.n o.label := by
  have hexec : exec (.snapshotItemQueue ns) s = execSnapshotItemQueue ns s := rfl
  rw [hexec, execSnapshotItemQueue, ho]
  dsimp only
  rw [if_neg (by simp [hns, hp])]
  cases o.reply with
  | none => exact ⟨_, rfl, rfl⟩
  | some r => exact ⟨_, rfl, rfl⟩

/-- An interval orders a replication view of a namespace with no shipment and no order of its own (R473, R476). -/
theorem exec_shipInterval_orders (hns : s.holdsNs ns = true) (hroom : s.viewRoom ns = true) (hkey : (s.streamKey peer).isSome = true)
    (hship : ∀ x ∈ s.snp.shipments ++ s.snp.restarts, x.nsid ≠ ns) (horder : ∀ o ∈ s.snp.orders, o.nsid ≠ ns) :
    let t := s.orderSnapshot ns (zeros 32) 2 none (some peer) none
    exec (.shipInterval ns peer) s = .next { t with snp := { t.snp with shippedAt := Sparse.set 0 ns s.elapsed t.snp.shippedAt } } := by
  have hship' : ¬ (s.snp.shipments ++ s.snp.restarts).any (fun x => x.nsid == ns) := by simpa [or_imp, forall_and] using hship
  have horder' : ¬ s.snp.orders.any (fun o => o.nsid == ns) := by simpa using horder
  exact congrArg Host.Outcome.next (if_pos ⟨hns, hroom, hkey, hship', horder'⟩)

end Orders

/-! ### `STACK_SYNC` (R478, R479, R565) -/

section Sync
variable {s : State}

theorem State.reg64_setReg64_same {a v : Nat} (hv : v < 2 ^ 64) : (s.setReg64 a v).reg64 a = v := by
  have h4 : a ≠ a + 4 := by omega
  simp only [State.setReg64, State.reg64, State.reg_setReg, if_neg h4, if_true]
  omega

theorem State.reg64_bump_other {a b n : Nat} (h : a ≠ b) (h4 : a + 4 ≠ b) : (s.bump b n).reg64 a = s.reg64 a := by
  rw [State.reg64, State.bump, State.reg_setReg_other _ _ h, State.reg_setReg_other _ _ h4, State.reg64]

theorem State.reg64_congr {t : State} (h : t.regs = s.regs) (a : Nat) : t.reg64 a = s.reg64 a := by
  simp only [State.reg64, State.reg, h]

/-- The snapshots ordered at an edge change no register, and not when the edge came. -/
theorem State.edgeOrders_keeps (k : Nat) : (s.edgeOrders k).regs = s.regs ∧ (s.edgeOrders k).snp.lastEdge = s.snp.lastEdge := by
  refine List.foldlRecOn (motive := fun t : State => t.regs = s.regs ∧ t.snp.lastEdge = s.snp.lastEdge) _ _ ⟨rfl, rfl⟩ fun t ht o _ => ?_
  split <;> exact ht

theorem exec_stackSyncEdge_short {high : Nat} (h : high < 2000) : exec (.stackSyncEdge high) s = .next s :=
  congrArg Host.Outcome.next (if_pos h)

/-- An edge after 2 us raises STK_SYNC_COUNT, counts the intervals missed, and orders the snapshots due at it. -/
theorem exec_stackSyncEdge_long {high : Nat} (h : 2000 ≤ high) :
    ∃ missed k : Nat, exec (.stackSyncEdge high) s = .next
      (({ (s.bump64 rStkSyncCount 1).bump rStkSyncMissed missed with snp := { s.snp with lastEdge := s.elapsed } } : State).edgeOrders k) :=
  ⟨_, _, congrArg Host.Outcome.next (if_neg h.not_gt)⟩

theorem State.reg64_countEdge (hc : s.reg64 rStkSyncCount < 2 ^ 64 - 1) (missed : Nat) :
    ((s.bump64 rStkSyncCount 1).bump rStkSyncMissed missed).reg64 rStkSyncCount = s.reg64 rStkSyncCount + 1 := by
  rw [State.reg64_bump_other (by decide) (by decide), State.bump64, State.reg64_setReg64_same (by omega)]

theorem exec_stackSyncEdge_counts {high : Nat} (h : 2000 ≤ high) (hc : s.reg64 rStkSyncCount < 2 ^ 64 - 1) :
    ∃ t : State, exec (.stackSyncEdge high) s = .next t ∧ t.reg64 rStkSyncCount = s.reg64 rStkSyncCount + 1 ∧ t.snp.lastEdge = s.elapsed := by
  obtain ⟨missed, k, hexec⟩ := exec_stackSyncEdge_long (s := s) h
  refine ⟨_, hexec, ?_, (State.edgeOrders_keeps k).2⟩
  rw [State.reg64_congr (State.edgeOrders_keeps k).1]
  exact State.reg64_countEdge hc missed

theorem exec_stackSyncPulse_due (hr : s.snp.registrar = true) (hd : 1000000 ≤ s.elapsed.toNat - s.snp.lastPulse.toNat) :
    exec .stackSyncPulse s = .next { s with snp := { s.snp with lastPulse := s.elapsed } } :=
  congrArg Host.Outcome.next (if_pos ⟨hr, hd⟩)

theorem exec_stackSyncSilence_due (hh : s.headNo = 1) (hp : s.pairNo = 0) (hm : s.hlt.mode ≠ .safe)
    (hd : 10000000 ≤ s.elapsed.toNat - s.snp.lastEdge.toNat) (hu : 0 < s.twn.peer.uncleanRun) :
    exec .stackSyncSilence s = .next s.takeRegistrar :=
  congrArg Host.Outcome.next (if_pos ⟨hh, hp, hm, hd, hu⟩)

end Sync

/-- Settles O55: `State.onMessage` has one outcome for each way a message opens, and each type that opens has its effect on the stream,
the shipment or the request that it names (R475, R319); the orders and the sync line follow by their own equations. -/
theorem streamsAndStack : Obligations.StreamsAndStack := by
  unfold Obligations.StreamsAndStack
  intro s peer msg
  refine ⟨fun ho => ?malformed, fun ok w ho hw => ⟨fun hok => ?refused, fun hok hu => ?untrusted⟩,
    fun w h p hw => ⟨fun ho hlen hseq hns => ?begins, fun x ho hx => ⟨fun hseq => ?outOfOrder, fun hseq hopen hns => ?group⟩, fun x => ?seals,
      fun x => ?ends, fun x => ?acked, fun seen ho => ⟨?noView, fun v hv hns hkept => ⟨fun d hb => ?block, fun hb => ?zero⟩⟩,
      fun stream cid ho hr => ?answered⟩,
    fun ns o => ?ordered, fun ns => ?shipped, ?pulse, fun high => ⟨?short, ?edge⟩, ?silence⟩
  case malformed => exact congrArg Host.Outcome.next (State.onMessage_malformed ho)
  case refused =>
    subst hok
    exact congrArg Host.Outcome.next (State.onMessage_refused ho hw)
  case untrusted =>
    subst hok
    exact ⟨_, Nat.mod_lt _ (by decide), congrArg Host.Outcome.next (State.onMessage_untrusted hu hw)⟩
  case begins =>
    obtain ⟨v, x, hexec, hreplica, hx⟩ := exec_streamBegin_good hw ho hlen hseq hns
    exact ⟨_, hexec, hreplica, x, State.mem_inbound_setInbound, hx⟩
  case outOfOrder => exact exec_streamGroup_outOfOrder hw ho hx hseq
  case group => exact exec_streamGroup_taken hw ho hx hseq hopen hns
  case seals => exact exec_streamSeal_taken hw
  case ends => exact exec_streamEnd_taken hw
  case acked => exact exec_streamAck_paired hw
  case noView => exact exec_repairReq_noView hw ho
  case block => exact exec_repairReq_block hw ho hv hns hkept (Prod.ext hb rfl)
  case zero => exact exec_repairReq_zero hw ho hv hns hkept (Prod.ext hb rfl)
  case answered =>
    intro domain good
    refine ⟨_, exec_repairResp_good hw ho hr, ?_, fun hgood => ?_, fun hbad => ?_⟩
    · split <;> simp
    · rw [if_pos hgood]
      exact Sparse.get_set_same ..
    · rw [if_neg hbad]
      simp
  case ordered => exact exec_snapshotItemQueue_reached
  case shipped =>
    intro hns hroom hkey hship horder
    exact ⟨_, exec_shipInterval_orders hns hroom hkey hship horder, rfl, Sparse.get_set_same ..⟩
  case pulse => exact exec_stackSyncPulse_due
  case short => exact exec_stackSyncEdge_short
  case edge => exact exec_stackSyncEdge_counts
  case silence => exact exec_stackSyncSilence_due

end Sys2Proof.Machine
end

section
/-! SUPPORT. Catalogue assists and parity engines (R275 to R281, R306 to R310): what the event of each opcode is, and what each program comes to
once its accesses have succeeded. -/

namespace Sys2Proof.Machine

/-- A command in service becomes what its program makes of it. -/
theorem State.engineEvent_becomes {s t : State} {cls u op : Nat} {c d : Cmd} {check : Cmd → State → Cmd × State} {misses : Cmd → State → List Nat}
    {run : Cmd → State → Cmd × State} (h : s.runs cls u op c) (hm : misses c s = []) (hrun : run c s = (d, t)) :
    becomes cls u d t (.next (s.engineEvent cls u op check misses run)) := by
  rw [becomes, State.engineEvent_runs h hm, hrun]

/-! ### Catalogue assists (R275 to R281) -/

section Assists
variable {s t : State} {u i : Nat} {c : Cmd} {bs l : List Byte}

theorem exec_catWalk (hu : u < 4) : exec (.catWalk u) s =
    .next (s.engineEvent clsCatalogue u 1 (checkBlock badWalk) walkMisses (State.runWalk u)) := congrArg Host.Outcome.next (if_pos hu)

theorem exec_catFind (hu : u < 4) : exec (.catFind u) s =
    .next (s.engineEvent clsCatalogue u 2 (checkBlock badFind) findMisses (State.runFind u)) := congrArg Host.Outcome.next (if_pos hu)

theorem exec_catProbe (hu : u < 4) : exec (.catProbe u) s =
    .next (s.engineEvent clsCatalogue u 3 (checkBlock badProbe) probeMisses (State.runProbe u)) := congrArg Host.Outcome.next (if_pos hu)

theorem exec_catScore (hu : u < 4) : exec (.catScore u) s =
    .next (s.engineEvent clsCatalogue u 4 (checkBlock badScore) scoreMisses (State.runScore u)) := congrArg Host.Outcome.next (if_pos hu)

/-- The results found before the walk stopped are written, and the command ends as the walk stopped (R277). -/
theorem State.runWalk_writes :
    let w := s.walkOf c.block
    let r := (s.countNodes u w.cache.length).writeSpan (engineSource clsCatalogue u) (catDst c.block) (w.results.flatMap id)
    r.1 = none → s.runWalk u c = r.2.2.endSearch u w.stop w.node { c with bytes := r.2.1, detail := w.cache.length } := by
  intro w r hw
  have hr : (s.countNodes u w.cache.length).writeSpan (engineSource clsCatalogue u) (catDst c.block) (w.results.flatMap id) = (none, r.2) :=
    Prod.ext hw rfl
  simp only [State.runWalk, w, hr]

/-- The record that holds the content ID is copied when its CHECK holds (R278). -/
theorem State.runFind_writes (hl : (s.findOf c.block).1 = .node l) (hi : leafRecord l (le c.block 32 8) = some i)
    (hg : goodCheck (slice l (64 + 384 * i) 384) = true) :
    let r := (s.countNodes u (s.findOf c.block).2.2.length).writeSpan (engineSource clsCatalogue u) (catDst c.block) (slice l (64 + 384 * i) 384)
    r.1 = none → s.runFind u c = ({ c.finish stOk with bytes := r.2.1, detail := (le c.block 32 8 - recordFirst l i) % 8 }, r.2.2) := by
  intro r hw
  simp only [State.runFind, hl, hi, hg, not_true_eq_false, if_false]
  rw [hw]

theorem State.runFind_notFound (hl : (s.findOf c.block).1 = .node l) (hi : leafRecord l (le c.block 32 8) = none) :
    s.runFind u c = (c.finish stNotFound, s.countNodes u (s.findOf c.block).2.2.length) := by
  simp only [State.runFind, hl, hi]

theorem State.runProbe_reads (hr : s.readSpan (engineSource clsCatalogue u) (probeAddr c.block) 4096 = (none, bs, t)) :
    let p := probeBucket bs (le c.block 16 32) (le c.block 60 4)
    s.runProbe u c = ({ c.finish stOk with detail := p.1.getD 0 + (if p.1.isSome then 64 else 0) + p.2 * 256 }, t) := by
  simp only [State.runProbe, hr]

/-- The table read, its highest scores are written (R280). -/
theorem State.runScore_writes
    (hr : s.readSpan (engineSource clsCatalogue u) (scoreTable c.block) (32 * scoreCount c.block) = (none, bs, t)) :
    let r := t.writeSpan (engineSource clsCatalogue u) (catDst c.block) (scoreOutput c.block bs)
    r.1 = none → s.runScore u c = ({ c.finish stOk with bytes := r.2.1, detail := (scoreAll c.block bs).2 }, r.2.2) := by
  intro r hw
  have hr' : t.writeSpan (engineSource clsCatalogue u) (catDst c.block) (scoreOutput c.block bs) = (none, r.2) := Prod.ext hw rfl
  simp only [State.runScore, hr, hr']

end Assists

/-! ### Parity engines (R306 to R310) -/

section Parity
variable {s t : State} {u op : Nat} {c : Cmd} {bs : List Byte}

theorem State.parityEvent_eq (hu : u < 8) : s.parityEvent u op =
    s.engineEvent clsParity u op (checkBlock (badParity op)) (parMisses op) fun c => State.runParity u op (parLen c.block / 64) c := if_pos hu

theorem State.runParity_badTable (n : Nat) (hr : s.readSpan (engineSource clsParity u) (parTable c.block) (8 * (parD c.block + 2)) = (none, bs, t))
    (hg : goodTable (tableEntries bs) = false) : s.runParity u op n c = (c.finish stBadCommand, t) := by
  simp [State.runParity, hr, hg]

theorem State.parLines_block (table : List Nat) (n o : Nat) (c : Cmd) (s : State) : (s.parLines u op table n o c).1.block = c.block := by
  induction n generalizing o c s with
  | zero => rfl
  | succ n ih =>
    rw [State.parLines]
    split
    case h_1 => rfl
    case h_2 =>
      split
      case h_1 => rfl
      case h_2 => exact ih ..

/-- A command that works through all its lines is closed (R308, R309). -/
theorem State.runParity_allLines (hr : s.readSpan (engineSource clsParity u) (parTable c.block) (8 * (parD c.block + 2)) = (none, bs, t))
    (hg : goodTable (tableEntries bs) = true) :
    let r := t.parLines u op (tableEntries bs) (parLen c.block / 64) 0 c
    s.runParity u op (parLen c.block / 64) c = r.2.2.closeParity u op r.1 r.2.1 := by
  simp [State.runParity, hr, hg, State.parLines_block]

end Parity

/-- Settles O40: each opcode is an event of its unit, which takes and checks the command (R276, R308), or runs its program, whose accesses are
named (R277 to R280, R306). -/
theorem catalogueAndParityCommands : Obligations.CatalogueAndParityCommands := by
  unfold Obligations.CatalogueAndParityCommands
  intro s u c e b src
  refine ⟨fun op hu h1 h4 ht => ?taken, fun hu hr hm => ?walk, fun hu hr hm => ⟨fun l i hl hi hg => ?find, fun l hl hi => ?notFound⟩,
    fun hu hr hm bs t hread => ?probe, fun hu hr hm bs t hread => ?score, fun op h1 h3 hu => ?parity⟩
  case taken =>
    obtain rfl | rfl | rfl | rfl : op = 1 ∨ op = 2 ∨ op = 3 ∨ op = 4 := by omega
    · exact exec_catWalk hu ▸ State.engineEvent_serves_checked (bad := badWalk) ht
    · exact exec_catFind hu ▸ State.engineEvent_serves_checked (bad := badFind) ht
    · exact exec_catProbe hu ▸ State.engineEvent_serves_checked (bad := badProbe) ht
    · exact exec_catScore hu ▸ State.engineEvent_serves_checked (bad := badScore) ht
  case walk => exact fun hw => exec_catWalk hu ▸ State.engineEvent_becomes hr hm (State.runWalk_writes hw)
  case find => exact fun hw => exec_catFind hu ▸ State.engineEvent_becomes hr hm (State.runFind_writes hl hi hg hw)
  case notFound => exact exec_catFind hu ▸ State.engineEvent_becomes hr hm (State.runFind_notFound hl hi)
  case probe => exact exec_catProbe hu ▸ State.engineEvent_becomes hr hm (State.runProbe_reads hread)
  case score => exact fun hw => exec_catScore hu ▸ State.engineEvent_becomes hr hm (State.runScore_writes hread hw)
  case parity =>
    intro o
    have ho : o = .next (s.parityEvent u op) := by
      obtain rfl | rfl | rfl : op = 1 ∨ op = 2 ∨ op = 3 := by omega
      all_goals rfl
    rw [ho, State.parityEvent_eq hu]
    exact ⟨State.engineEvent_serves_checked, fun hr hm bs t hread =>
      ⟨fun hg => State.engineEvent_becomes hr hm (State.runParity_badTable _ hread hg),
        fun hg => State.engineEvent_becomes hr hm (State.runParity_allLines hread hg)⟩⟩

end Sys2Proof.Machine
end

section
/-! SUPPORT. Media management: folding, weeding and leveling (R283, R284, R290), erasing (R345), rebuild (R315 to R317), the conservation pass (R321),
reshaping (R324) and repair (R319). -/

namespace Sys2Proof.Machine

/-! ### What relocates quires (R283, R284, R290) -/

section Relocations
variable {s : State} {seen : Seen} {fails : List (List Nat)}

theorem exec_foldStart (hm : s.managesMedia = true) : exec (.foldStart seen fails) s =
    .next (if s.judgeFolding.rebuildDue then s.judgeFolding else ((Press.mk s.judgeFolding fails).drainWaiting.fold seen 4).s) :=
  congrArg Host.Outcome.next (if_pos hm)

theorem exec_weedingStart (hm : s.managesMedia = true) : exec (.weedingStart seen fails) s =
    let t := s.judgeFolding.judgeWeeding
    .next (if t.rebuildDue ∨ t.foldDue then t else ((Press.mk t fails).drainWaiting.weed seen 4).s) :=
  congrArg Host.Outcome.next (if_pos hm)

/-- Leveling waits for every other relocation (R290, R316). -/
theorem exec_wearLevelStart_waits (hm : s.managesMedia = true) :
    let t := s.judgeFolding.judgeWeeding.judgeLeveling
    t.rebuildDue = true ∨ t.foldDue = true ∨ t.weedDue = true → exec (.wearLevelStart seen fails) s = .next t := by
  intro t hdue
  show execWearLevelStart seen fails s = _
  rw [execWearLevelStart, if_pos hm]
  exact congrArg _ (if_pos (by tauto))

theorem exec_wearLevelStart_relocates {q : Nat} (hm : s.managesMedia = true) :
    let t := s.judgeFolding.judgeWeeding.judgeLeveling
    t.rebuildDue = false → t.foldDue = false → t.weedDue = false → t.med.leveling = true → t.relocations 3 = 0 → t.levelNext = some q →
      exec (.wearLevelStart seen fails) s = .next ((Press.mk t fails).drainWaiting.relocate seen [] q 3).s := by
  intro t hr hf hw hl hn hq
  show execWearLevelStart seen fails s = _
  rw [execWearLevelStart, if_pos hm]
  simp [t, hr, hf, hw, hl, hn, hq]

end Relocations

/-! ### Erasing (R345) -/

theorem State.mode_ne_safe_of_managesMedia {s : State} (hm : s.managesMedia = true) : s.hlt.mode ≠ .safe := by
  intro h
  simp [State.managesMedia, State.soloMode, h] at hm

theorem exec_eraseAfterFree {s : State} {q : Nat} {failed : List Nat} (hm : s.managesMedia = true) (hr : s.eraseReady q = true)
    (ho : s.ownsQuire q = true) : exec (.eraseAfterFree q failed) s =
      .next ((s.quire q).targets.foldl (fun t g => t.eraseOne q g.carrier g.egroup (! failed.contains g.position))
        ((s.quire q).pos.zipIdx.foldl (fun t g => t.eraseOne q g.1.1 g.1.2 (! failed.contains g.2)) s)) :=
  congrArg Host.Outcome.next (if_pos ⟨hr, ho, State.mode_ne_safe_of_managesMedia hm⟩)

/-! ### Rebuild (R315 to R317) -/

section Rebuilds
variable {s t : State} {seen : Seen} {fails : List (List Nat)} {q p : Nat}

/-- The first quire in line begins its rebuild or its relocation. -/
theorem exec_rebuildBegin_begins (hm : s.managesMedia = true) (ht : s.stopRebuilds.eraseGivenUp = t) (hn : t.rebuildNext = some q) :
    exec (.rebuildBegin seen fails) s = .next (t.beginRecovery seen fails q) := by
  show execRebuildBegin seen fails s = _
  simp [execRebuildBegin, hm, ht, hn]

theorem exec_rebuildBegin_idle (hm : s.managesMedia = true) (ht : s.stopRebuilds.eraseGivenUp = t) (hn : t.rebuildNext = none)
    (hq : t.rebuildQuires = []) : exec (.rebuildBegin seen fails) s = .next t := by
  show execRebuildBegin seen fails s = _
  simp [execRebuildBegin, hm, ht, hn, hq]

/-- With none to begin, the quire under rebuild that has waited longest goes on by a row. -/
theorem exec_rebuildBegin_advances {rest : List Nat} {u : State} (hm : s.managesMedia = true) (ht : s.stopRebuilds.eraseGivenUp = t)
    (hn : t.rebuildNext = none) (hq : t.rebuildQuires = q :: rest) (ha : t.advanceQuire seen (fails.headD []) q = (true, u)) :
    exec (.rebuildBegin seen fails) s = .next u := by
  show execRebuildBegin seen fails s = _
  simp [execRebuildBegin, hm, ht, hn, hq, ha, -List.headD_eq_head?_getD]

theorem State.beginRecovery_relocates (h : (t.quire q).validBytes = 0 ∨ t.prefersRelocation seen q = true) :
    t.beginRecovery seen fails q = ((Press.mk t fails).drainWaiting.recover seen q).s := if_pos h

theorem State.beginRecovery_rebuilds {u : State} (hv : (t.quire q).validBytes ≠ 0) (hp : t.prefersRelocation seen q = false)
    (hs : t.startRebuilds q = (true, u)) : t.beginRecovery seen fails q = u := by
  simp [State.beginRecovery, hv, hp, hs]

theorem State.setGroupMode_deltas (queue number egroup : Nat) (slc : Bool) : (t.setGroupMode queue number egroup slc).deltas = t.deltas := by
  rw [State.setGroupMode]
  split <;> rfl

/-- A rebuild that begins takes a free erase group, from row 0 on, and has its REBUILD_START queued (R317). -/
theorem State.startRebuild_takes {u : State} (h : t.startRebuild q p = some u) :
    ∃ g, t.rebuildGroup q = some g ∧ u.deltas = t.deltas ++ [itemRebuildStart q p g.1 g.2] ∧
      ({ quire := q, position := p, carrier := g.1, egroup := g.2, row := 0 } : Rebuild) ∈ u.med.rebuilds := by
  obtain ⟨g, hg, rfl⟩ := Option.map_eq_some_iff.1 h
  exact ⟨g, hg, congrArg (· ++ _) (State.setGroupMode_deltas ..), List.mem_append_right _ (List.mem_singleton_self _)⟩

end Rebuilds

/-! ### Repair of a LOST folio (R319) -/

theorem exec_lostRepair {s : State} {f : Nat} {seen : Seen} {fails : List (List Nat)} (hm : s.managesMedia = true) (hb : s.basesSet = true)
    (ho : s.kpr.owner = .accepted) (hl : (s.cat.record f).lost = true) (hh : (s.cat.record f).keyGen % 2 = s.headNo ∨ s.soloMode = true) :
    exec (.lostRepair f seen fails) s = .next (s.repairSuffix seen fails f) := congrArg Host.Outcome.next (if_pos ⟨hm, hb, ho, hl, hh⟩)

/-! ### The conservation pass (R321, R359) -/

section Conservation
variable {s : State} {seen : Seen} {fails : List (List Nat)} {q row : Nat}

theorem exec_conservationRow_reported {rest : List (Nat × Nat)} (hm : s.managesMedia = true) (hb : s.basesSet = true)
    (hr : s.med.reports = (q, row) :: rest) (hq : (s.quire q).state = 1 ∨ (s.quire q).state = 2 ∨ (s.quire q).state = 3) :
    exec (.conservationRow seen fails) s =
      .next (((Press.mk { s with med := { s.med with reports := rest } } fails).drainWaiting.conserve seen q row).s) := by
  show execConservationRow seen fails s = _
  rw [execConservationRow, if_neg (by simp [hm, hb]), hr]
  exact congrArg _ (if_pos (or_rotate.1 hq))

theorem exec_conservationRow_next (hm : s.managesMedia = true) (hb : s.basesSet = true) (hr : s.med.reports = [])
    (hn : s.nextRow = some (q, row)) : exec (.conservationRow seen fails) s =
      .next (((Press.mk { s with med := { s.med with conserveQuire := q, conserveRow := row + 1 } } fails).drainWaiting.conserve seen q row).s) := by
  show execConservationRow seen fails s = _
  rw [execConservationRow, if_neg (by simp [hm, hb]), hr, hn]

end Conservation

/-! ### Reshaping (R323, R324) -/

section Reshape
variable {s : State} {seen : Seen} {fails : List (List Nat)}

/-- A reshape goes on: none of its items is on its way. -/
def State.stepsReshape (s : State) : Prop := s.managesMedia = true ∧ s.reshaping = true ∧ s.reshapeQueued = false

theorem exec_reshapeStep_cancel (h : s.stepsReshape) (hc : s.med.reshapeCancel = true) : exec (.reshapeStep seen fails) s =
    .next (if s.relocations 4 ≠ 0 then s
      else ({ s with med := { s.med with reshapeCancel := false } } : State).queueItems [s.planItem (leAt s.cat.reshape 4 4) 0]) := by
  obtain ⟨hm, hr, hq⟩ := h
  show execReshapeStep seen fails s = _
  rw [execReshapeStep, if_neg (by simp [hm, hr, hq]), if_pos hc]

theorem exec_reshapeStep_end (h : s.stepsReshape) (hc : s.med.reshapeCancel = false) (hb : s.boundaryQuire = none) (ho : s.ownsQuire 0 = true) :
    exec (.reshapeStep seen fails) s = .next (s.queueItems [s.planItem (leAt s.cat.reshape 12 4) 0]) := by
  obtain ⟨hm, hr, hq⟩ := h
  show execReshapeStep seen fails s = _
  rw [execReshapeStep, if_neg (by simp [hm, hr, hq]), if_neg (by simp [hc]), hb]
  exact congrArg _ (if_pos ho)

/-- The quire at the boundary is passed, closed or relocated. -/
theorem exec_reshapeStep_quire {q : Nat} {x : Quire} (h : s.stepsReshape) (hc : s.med.reshapeCancel = false) (hb : s.boundaryQuire = some (q, x))
    (ho : s.ownsQuire q = true) : exec (.reshapeStep seen fails) s =
      .next (if x.state = 5 ∨ s.conforms x then s.queueItems [s.planItem (q + 1) 1]
        else if x.state = 1 then (if s.closing q then s else s.queueItems [itemClosed q x.rowsDone])
        else if s.movable q x ∧ s.relocations 4 < 2 then ((Press.mk s fails).drainWaiting.relocate seen [] q 4).s
        else s) := by
  obtain ⟨hm, hr, hq⟩ := h
  show execReshapeStep seen fails s = _
  rw [execReshapeStep, if_neg (by simp [hm, hr, hq]), if_neg (by simp [hc]), hb]
  exact congrArg _ (if_neg (by simp [ho]))

end Reshape

/-- Settles O46: each command of media management does its one thing under the conditions named, by the equation about it; what a rebuild
takes when it begins is `State.startRebuild_takes`. -/
theorem mediaCommands : Obligations.MediaCommands := by
  intro s seen fails hm
  refine ⟨?fold, ?weed, ?level, fun q failed hr ho => exec_eraseAfterFree hm hr ho, ?rebuild,
    fun f hb ho hl hh => exec_lostRepair hm hb ho hl hh, fun hb => ?conserve, fun hr hq => ?reshape⟩
  case fold =>
    rw [exec_foldStart hm]
    exact ⟨fun hdue => congrArg _ (if_pos hdue), fun hnot => congrArg _ (if_neg (by simp [hnot]))⟩
  case weed =>
    rw [exec_weedingStart hm]
    exact ⟨fun hdue => congrArg _ (if_pos hdue), fun hr hf => congrArg _ (if_neg (by simp [hr, hf]))⟩
  case level => exact ⟨exec_wearLevelStart_waits hm, fun q => exec_wearLevelStart_relocates hm⟩
  case rebuild =>
    refine ⟨fun hn hq => exec_rebuildBegin_idle hm rfl hn hq, fun q hn hreloc => ?_, fun q u hn hv hp hs => ?_,
      fun q rest u hn hq ha => exec_rebuildBegin_advances hm rfl hn hq ha, fun q p u => State.startRebuild_takes⟩
    · exact (exec_rebuildBegin_begins hm rfl hn).trans (congrArg _ (State.beginRecovery_relocates hreloc))
    · exact (exec_rebuildBegin_begins hm rfl hn).trans (congrArg _ (State.beginRecovery_rebuilds hv hp hs))
  case conserve =>
    exact ⟨fun q row rest hr hq => exec_conservationRow_reported hm hb hr hq, fun q row hr hn => exec_conservationRow_next hm hb hr hn⟩
  case reshape =>
    have hstep : s.stepsReshape := ⟨hm, hr, hq⟩
    refine ⟨fun hc hn => ?_, fun hc hn => ?_, fun hc hb ho => exec_reshapeStep_end hstep hc hb ho, fun q x hc hb ho => ?boundary⟩
    · exact (exec_reshapeStep_cancel hstep hc).trans (congrArg _ (if_pos hn))
    · exact (exec_reshapeStep_cancel hstep hc).trans (congrArg _ (if_neg (by simp [hn])))
    case boundary =>
      dsimp only
      rw [exec_reshapeStep_quire hstep hc hb ho]
      refine ⟨fun hpass => ?passed, fun h1 hf hnot => ?closed, fun h1 h5 hf hmov hfew => ?moved⟩
      case passed => exact congrArg _ (if_pos hpass)
      case closed => simp [h1, hf, hnot]
      case moved => simp [h1, h5, hf, hmov, hfew]

end Sys2Proof.Machine
end

section
/-! SUPPORT. Admin commands: the queue they come on (R367, R368), Identify (R369), log pages (R361, R374, R381), features and events (R368, R382),
and Namespace Management (R371, R372). -/

namespace Sys2Proof.Machine

/-! ### A command on the admin queue (R368) -/

section Queue
variable {s : State} {c cid id : Nat} {k : Ctrl}

/-- The admin queue of a ready controller delivers. -/
structure State.AdminQueue (s : State) (c id : Nat) (k : Ctrl) : Prop where
  delivers : s.delivers c = true
  ctrlId : (s.conn c).ctrl = some id
  isAdmin : (s.conn c).qid = 0
  ctrl : s.ctrl id = some k
  ready : k.ready = true

theorem State.onQueue_admin (h : s.AdminQueue c id k) (body : Nat → State → State) : s.onQueue c cid true body = body id (s.heardPdu c) :=
  State.onQueue_runs body h.delivers h.ctrlId (beq_iff_eq.2 h.isAdmin) h.ctrl h.ready

/-- An I/O queue does not execute an admin command. -/
theorem State.onQueue_admin_onIo (hd : s.delivers c = true) (hid : (s.conn c).ctrl = some id) (hq : (s.conn c).qid ≠ 0)
    (body : Nat → State → State) : s.onQueue c cid true body = (s.heardPdu c).respond c cid 0 nsInvalidOpcode := by
  simp [State.onQueue, hd, hid, hq]

theorem State.onQueue_admin_notReady (hd : s.delivers c = true) (hid : (s.conn c).ctrl = some id) (hq : (s.conn c).qid = 0)
    (hk : s.ctrl id = some k) (hready : k.ready = false) (body : Nat → State → State) :
    s.onQueue c cid true body = (s.heardPdu c).respond c cid 0 nsSequence := by
  simp [State.onQueue, hd, hid, hq, hk, hready]

end Queue

/-! ### Identify and log pages (R361, R369, R374, R381) -/

section Pages
variable {s : State} {c cid id lid off : Nat} {k : Ctrl} {b : List Byte}

theorem exec_nvmeIdentify_data (h : s.AdminQueue c id k) {cns ns : Nat} (hb : (s.heardPdu c).identify id cns ns = .ok b) :
    exec (.nvmeIdentify c cid cns ns) s = .next (((s.heardPdu c).replyData c cid b).takeFrees 4096) := by
  show execNvmeIdentify c cid cns ns s = _
  simp only [execNvmeIdentify, State.onQueue_admin h, hb]

theorem exec_nvmeIdentify_error (h : s.AdminQueue c id k) {cns ns st : Nat} (hst : (s.heardPdu c).identify id cns ns = .error st) :
    exec (.nvmeIdentify c cid cns ns) s = .next ((s.heardPdu c).respond c cid 0 st) := by
  show execNvmeIdentify c cid cns ns s = _
  simp only [execNvmeIdentify, State.onQueue_admin h, hst]

/-- A page is read from an offset inside it, page C4h from its start (R381). -/
theorem exec_getLogPage_data (h : s.AdminQueue c id k) (hb : (s.heardPdu c).logPage id lid = some b) (hoff : off ≤ b.length)
    (hstart : lid = 0xC4 → off = 0) (len : Nat) (rae : Bool) :
    exec (.getLogPage c cid lid off len rae) s = .next (let w := s.heardPdu c
      (if lid = 0xC4 ∧ ¬ rae then (w.replyData c cid (slice b off len)).modCtrl id (Ctrl.haveRead (w.unread k))
        else w.replyData c cid (slice b off len)).takeFrees 512) := by
  have hin : ¬ (lid = 0xC4 ∧ off ≠ 0 ∨ b.length < off) := by
    rintro (⟨hl, ho⟩ | hout)
    · exact ho (hstart hl)
    · exact hout.not_ge hoff
  show execGetLogPage c cid lid off len rae s = _
  simp only [execGetLogPage, State.onQueue_admin h, hb, State.heardPdu_ctrl, h.ctrl, if_neg hin]

theorem exec_getLogPage_unknown (h : s.AdminQueue c id k) (hb : (s.heardPdu c).logPage id lid = none) (len : Nat) (rae : Bool) :
    exec (.getLogPage c cid lid off len rae) s = .next ((s.heardPdu c).respond c cid 0 nsInvalidField) := by
  show execGetLogPage c cid lid off len rae s = _
  simp only [execGetLogPage, State.onQueue_admin h, hb]

end Pages

/-! ### Features (R368, R369, R382) -/

section Features
variable {s : State} {c cid id : Nat} {k : Ctrl}

/-- Number of Queues, neither half of it the 65,535 that the standard does not allow. -/
theorem exec_setFeatures_queues (h : s.AdminQueue c id k) {v : Nat} (hsub : v % 65536 ≠ 65535) (hcomp : v / 65536 % 65536 ≠ 65535) :
    exec (.setFeatures c cid 0x07 v) s =
      .next (((s.heardPdu c).modCtrl id fun k => { k with queues := v % 2 ^ 32 }).respond c cid (v % 2 ^ 32) nsSuccess) := by
  show execSetFeatures c cid 0x07 v s = _
  simp only [execSetFeatures, State.onQueue_admin h, hsub, hcomp, or_self, if_false]

theorem exec_setFeatures_events (h : s.AdminQueue c id k) (v : Nat) :
    exec (.setFeatures c cid 0x0B v) s =
      .next (((s.heardPdu c).modCtrl id fun k => { k with aerConfig := v % 2 ^ 32 }).respond c cid 0 nsSuccess) := by
  show execSetFeatures c cid 0x0B v s = _
  simp only [execSetFeatures, State.onQueue_admin h]

theorem exec_setFeatures_keepAlive (h : s.AdminQueue c id k) (v : Nat) :
    exec (.setFeatures c cid 0x0F v) s = .next
      (((s.heardPdu c).modCtrl id fun k => { k with kato := v % 2 ^ 32, aliveAt := (s.heardPdu c).elapsed }).respond c cid 0 nsSuccess) := by
  show execSetFeatures c cid 0x0F v s = _
  simp only [execSetFeatures, State.onQueue_admin h]

theorem exec_setFeatures_unknown (h : s.AdminQueue c id k) {fid : Nat} (h7 : fid ≠ 0x07) (hB : fid ≠ 0x0B) (hF : fid ≠ 0x0F) (v : Nat) :
    exec (.setFeatures c cid fid v) s = .next ((s.heardPdu c).respond c cid 0 nsInvalidField) := by
  show execSetFeatures c cid fid v s = _
  rw [execSetFeatures, State.onQueue_admin h]
  split
  · exact absurd rfl h7
  · exact absurd rfl hB
  · exact absurd rfl hF
  · rfl

/-- The features that there are return what was set. -/
theorem exec_getFeatures (h : s.AdminQueue c id k) :
    exec (.getFeatures c cid 0x07) s = .next ((s.heardPdu c).respond c cid k.queues nsSuccess) ∧
    exec (.getFeatures c cid 0x0B) s = .next ((s.heardPdu c).respond c cid k.aerConfig nsSuccess) ∧
    exec (.getFeatures c cid 0x0F) s = .next ((s.heardPdu c).respond c cid k.kato nsSuccess) := by
  have hx (fid : Nat) : exec (.getFeatures c cid fid) s = execGetFeatures c cid fid s := rfl
  simp only [hx, execGetFeatures, State.onQueue_admin h, State.heardPdu_ctrl, h.ctrl, and_self]

theorem exec_getFeatures_unknown (h : s.AdminQueue c id k) {fid : Nat} (h7 : fid ≠ 0x07) (hB : fid ≠ 0x0B) (hF : fid ≠ 0x0F) :
    exec (.getFeatures c cid fid) s = .next ((s.heardPdu c).respond c cid 0 nsInvalidField) := by
  show execGetFeatures c cid fid s = _
  simp only [execGetFeatures, State.onQueue_admin h, State.heardPdu_ctrl, h.ctrl]
  split
  · exact absurd rfl h7
  · exact absurd rfl hB
  · exact absurd rfl hF
  · rfl

end Features

/-! ### Asynchronous events, Keep Alive and Abort (R368, R369, R374, R382) -/

section Events
variable {s : State} {c cid id : Nat} {k : Ctrl}

/-- The first event posted answers a request at once. -/
theorem exec_asynchronousEventRequest_posted (h : s.AdminQueue c id k) {e : Nat} {rest : List Nat} (he : k.events = e :: rest) :
    exec (.asynchronousEventRequest c cid) s =
      .next (((s.heardPdu c).modCtrl id fun k => { k with events := rest }).respond c cid e nsSuccess) := by
  show execAsynchronousEventRequest c cid s = _
  simp only [execAsynchronousEventRequest, State.onQueue_admin h, State.heardPdu_ctrl, h.ctrl, he]

theorem exec_asynchronousEventRequest_waits (h : s.AdminQueue c id k) (he : k.events = []) (hroom : k.aers.length < 16) :
    exec (.asynchronousEventRequest c cid) s = .next ((s.heardPdu c).modCtrl id fun k => { k with aers := k.aers ++ [cid] }) := by
  show execAsynchronousEventRequest c cid s = _
  simp only [execAsynchronousEventRequest, State.onQueue_admin h, State.heardPdu_ctrl, h.ctrl, he, if_neg hroom.not_ge]

theorem exec_keepAlive (h : s.AdminQueue c id k) : exec (.keepAlive c cid) s =
    .next (((s.heardPdu c).modCtrl id fun k => { k with aliveAt := (s.heardPdu c).elapsed }).respond c cid 0 nsSuccess) :=
  congrArg Host.Outcome.next (State.onQueue_admin h _)

theorem exec_nvmeAbort (h : s.AdminQueue c id k) : exec (.nvmeAbort c cid) s = .next ((s.heardPdu c).respond c cid 1 nsSuccess) :=
  congrArg Host.Outcome.next (State.onQueue_admin h _)

end Events

/-! ### Items whose answer waits for their cycle (R371) -/

section Queued
variable (s : State)

@[simp] theorem State.sendTwin_deltas (channel : Nat) (payload : List Byte) : (s.sendTwin channel payload).deltas = s.deltas := by
  rw [State.sendTwin]; split_ifs <;> rfl
@[simp] theorem State.sendTwin_acc (channel : Nat) (payload : List Byte) : (s.sendTwin channel payload).acc = s.acc := by
  rw [State.sendTwin]; split_ifs <;> rfl
@[simp] theorem State.sendTwin_svc (channel : Nat) (payload : List Byte) : (s.sendTwin channel payload).svc = s.svc := by
  rw [State.sendTwin]; split_ifs <;> rfl

@[simp] theorem State.tellPartner_deltas (kind : Nat) (body : List Byte) : (s.tellPartner kind body).deltas = s.deltas := s.sendTwin_deltas _ _
@[simp] theorem State.tellPartner_acc (kind : Nat) (body : List Byte) : (s.tellPartner kind body).acc = s.acc := s.sendTwin_acc _ _
@[simp] theorem State.tellPartner_svc (kind : Nat) (body : List Byte) : (s.tellPartner kind body).svc = s.svc := s.sendTwin_svc _ _

@[simp] theorem State.queueAnswered_deltas (items : List (List Byte)) (a : Answer) : (s.queueAnswered items a).deltas = s.deltas ++ items := rfl
@[simp] theorem State.queueAnswered_svc (items : List (List Byte)) (a : Answer) : (s.queueAnswered items a).svc = s.svc := rfl
/-- The answer waits for the cycle that carries the last of the items. -/
theorem State.queueAnswered_answers (items : List (List Byte)) (a : Answer) :
    (s.queueAnswered items a).acc.answers = s.acc.answers ++ [((s.queueAnswered items a).itemCycle, a)] := rfl

end Queued

/-! ### Namespace Management (R371, R372) -/

section Create
variable {s : State} {c cid id nsze ncap flbas group profile domain : Nat} {k : Ctrl}

/-- The operands of a Create that R371 allows, in one of the two groups of the pair. -/
def State.createFits (s : State) (nsze ncap flbas group profile domain : Nat) : Prop :=
  nsze ≠ 0 ∧ nsze ≤ 2 ^ 44 ∧ ncap = nsze ∧ flbas = 0 ∧ (group = s.anaGroup false ∨ group = s.anaGroup true) ∧ profile ≤ 2 ∧ domain ≤ 4095

/-- The model's check of the operands is `createFits`. -/
theorem State.not_createFits_iff : ¬ s.createFits nsze ncap flbas group profile domain ↔ nsze = 0 ∨ 2 ^ 44 < nsze ∨ ncap ≠ nsze ∨ flbas ≠ 0 ∨
    (group ≠ s.anaGroup false ∧ group ≠ s.anaGroup true) ∨ 2 < profile ∨ 4095 < domain := by
  simp only [State.createFits, not_and_or, not_or, not_le, not_not, ne_eq]

/-- A namespace number has its group, B or the other (R373). -/
def State.putInGroup (n : Nat) (b : Bool) (s : State) : State :=
  { s with svc := { s.svc with groups := (s.svc.groups.filter fun x => x != n) ++ if b then [n] else [] } }

@[simp] theorem State.putInGroup_deltas (n : Nat) (b : Bool) : (s.putInGroup n b).deltas = s.deltas := rfl
@[simp] theorem State.putInGroup_acc (n : Nat) (b : Bool) : (s.putInGroup n b).acc = s.acc := rfl

theorem State.mem_putInGroup_groups (n : Nat) (b : Bool) : n ∈ (s.putInGroup n b).svc.groups ↔ b = true := by
  cases b <;> simp [State.putInGroup]

theorem exec_namespaceCreate_denied (h : s.AdminQueue c id k) (hm : (s.heardPdu c).mayManage id = false) :
    exec (.namespaceCreate c cid nsze ncap flbas group profile domain) s = .next ((s.heardPdu c).respond c cid 0 nsDenied) := by
  show execNamespaceCreate c cid nsze ncap flbas group profile domain s = _
  simp [execNamespaceCreate, State.onQueue_admin h, hm]

theorem exec_namespaceCreate_badOperands (h : s.AdminQueue c id k) (hm : (s.heardPdu c).mayManage id = true)
    (hbad : ¬ (s.heardPdu c).createFits nsze ncap flbas group profile domain) :
    exec (.namespaceCreate c cid nsze ncap flbas group profile domain) s = .next ((s.heardPdu c).respond c cid 0 nsInvalidField) := by
  show execNamespaceCreate c cid nsze ncap flbas group profile domain s = _
  rw [execNamespaceCreate, State.onQueue_admin h, if_neg (not_not.2 hm), if_pos (State.not_createFits_iff.1 hbad)]

theorem exec_namespaceCreate_noNumber (h : s.AdminQueue c id k) (hm : (s.heardPdu c).mayManage id = true)
    (hfit : (s.heardPdu c).createFits nsze ncap flbas group profile domain) (hn : (s.heardPdu c).freeNsid = none) :
    exec (.namespaceCreate c cid nsze ncap flbas group profile domain) s = .next ((s.heardPdu c).respond c cid 0 nsNoNsid) := by
  show execNamespaceCreate c cid nsze ncap flbas group profile domain s = _
  rw [execNamespaceCreate, State.onQueue_admin h, if_neg (not_not.2 hm), if_neg (mt State.not_createFits_iff.2 (not_not.2 hfit)), hn]

/-- The namespace takes the lowest free number; the partner hears of its group, and its item is queued. -/
theorem exec_namespaceCreate (h : s.AdminQueue c id k) (hm : (s.heardPdu c).mayManage id = true)
    (hfit : (s.heardPdu c).createFits nsze ncap flbas group profile domain) {n : Nat} (hn : (s.heardPdu c).freeNsid = some n) :
    exec (.namespaceCreate c cid nsze ncap flbas group profile domain) s = .next (let b := group == (s.heardPdu c).anaGroup true
      (((s.heardPdu c).putInGroup n b).tellPartner msgGroup (leBytes 4 n ++ leBytes 1 (if b then 1 else 0))).queueAnswered
        [itemNamespace 1 profile n domain nsze] (.capsule c cid n)) := by
  show execNamespaceCreate c cid nsze ncap flbas group profile domain s = _
  rw [execNamespaceCreate, State.onQueue_admin h, if_neg (not_not.2 hm), if_neg (mt State.not_createFits_iff.2 (not_not.2 hfit)), hn]
  rfl

end Create

section Delete
variable {s : State} {c cid id ns : Nat} {k : Ctrl}

/-- A Delete checks the host, then the number, which is not that of all namespaces, then the namespace. -/
theorem exec_namespaceDelete (h : s.AdminQueue c id k) : exec (.namespaceDelete c cid ns) s = .next (let w := s.heardPdu c
    if ¬ w.mayManage id then w.respond c cid 0 nsDenied
    else if ns = 0xFFFFFFFF then w.respond c cid 0 nsInvalidField
    else if (w.namespace? ns).isNone then w.respond c cid 0 nsInvalidNs
    else w.queueAnswered [itemNamespace 2 0 ns 0 0] (.capsule c cid 0)) :=
  congrArg Host.Outcome.next (State.onQueue_admin h _)

end Delete

/-- Settles O48: which queue an admin command comes on and whether its controller is ready decide first (R368); on the admin queue of a ready
controller each command is its equation above, and a Create leaves its item, its answer and its group behind. -/
theorem adminCommands : Obligations.AdminCommands := by
  intro s c cid id hd hid
  dsimp only
  refine ⟨fun hq => congrArg _ (State.onQueue_admin_onIo hd hid hq _), fun k hq hk =>
    ⟨fun hready => congrArg _ (State.onQueue_admin_notReady hd hid hq hk hready _), fun hready => ?ready⟩⟩
  have h : s.AdminQueue c id k := ⟨hd, hid, hq, hk, hready⟩
  obtain ⟨hqueues, hconfig, hkato⟩ := exec_getFeatures h (cid := cid)
  refine ⟨fun cns ns b hb => exec_nvmeIdentify_data h hb, fun cns ns st hst => exec_nvmeIdentify_error h hst,
    fun lid off len rae b hb hoff hstart => exec_getLogPage_data h hb hoff hstart len rae,
    fun lid off len rae hb => exec_getLogPage_unknown h hb len rae,
    fun v hsub hcomp => exec_setFeatures_queues h hsub hcomp, exec_setFeatures_events h, exec_setFeatures_keepAlive h,
    hqueues, hconfig, hkato, fun fid v h7 hB hF => ⟨exec_getFeatures_unknown h h7 hB hF, exec_setFeatures_unknown h h7 hB hF v⟩,
    fun e rest he => exec_asynchronousEventRequest_posted h he, exec_asynchronousEventRequest_waits h, exec_keepAlive h, exec_nvmeAbort h,
    fun nsze ncap flbas group profile domain => ⟨exec_namespaceCreate_denied h, fun hm => ?create⟩, fun ns => ?delete⟩
  case create =>
    refine ⟨exec_namespaceCreate_badOperands h hm, exec_namespaceCreate_noNumber h hm, fun n hfit hn =>
      ⟨_, exec_namespaceCreate h hm hfit hn, ?_, ?_, ?_⟩⟩
    · simp
    · simp [State.queueAnswered_answers]
    · simp [State.mem_putInGroup_groups]
  case delete =>
    rw [exec_namespaceDelete h]
    exact ⟨fun hm => by simp [hm], fun hm hall => by simp [hm, hall], fun hm hone hnone => by simp [hm, hone, hnone],
      fun hm hone hthere => by simp [hm, hone, Option.isSome_iff_ne_none.1 hthere]⟩

end Sys2Proof.Machine
end

section
/-! SUPPORT. The block as a whole: what a step runs, that it always answers, and what every step keeps. -/

namespace Sys2Proof.Machine

/-! ### A step on an empty queue (R515) -/

theorem State.tick_running {s : State} (hc : s.pwr.crystal = true) (hi : s.pwr.island = true) : s.tick = { s with elapsed := s.elapsed + 40 } := by
  simp [State.tick, hc, hi]

theorem State.tick_stopped {s : State} (h : s.pwr.crystal = false ∨ s.pwr.island = false) : s.tick = s := by
  rcases h with h | h <;> simp [State.tick, h]

theorem step_empty {s : State} (h : s.pending = []) : step s = .next s.tick := by
  rw [step, h]

theorem step_command {s : State} {c : Instr} {rest : List Instr} (h : s.pending = c :: rest) : step s = exec c { s with pending := rest } := by
  rw [step, h]

/-! ### Every command answers a next state -/

/-- Each command's meaning is a next state, whatever the state it finds. -/
theorem exec_answers (c : Instr) (s : State) : ∃ t : State, exec c s = .next t := by
  cases c <;> exact ⟨_, rfl⟩

/-! ### What every step keeps -/

theorem State.canonical_iff (s : State) : s.canonical = true ↔ Sparse.wf 0 s.mem = true ∧ Sparse.wf 0 s.regs = true ∧
    Sparse.wf Core.cold s.cores = true ∧ Sparse.wf EngUnit.idle s.units = true := by
  simp only [State.canonical, Memory.wf, Bool.and_eq_true, and_assoc]

/-- Tables that are kept stay canonical. -/
theorem Kept.canonical {s t : State} (h : Kept s t) (hs : s.canonical = true) : t.canonical = true := by
  obtain ⟨hmem, hregs, hcores, hunits⟩ := s.canonical_iff.1 hs
  obtain ⟨-, -, keepsMem, keepsRegs, keepsCores, keepsUnits⟩ := h
  exact t.canonical_iff.2 ⟨keepsMem hmem, keepsRegs hregs, keepsCores hcores, keepsUnits hunits⟩

theorem Kept.pending_eq {s t : State} (h : Kept s t) : t.pending = s.pending := h.2.1

/-- A command keeps what `Kept` says of the state it finds; a cold start does so of that state with the clock at zero. -/
theorem exec_kept_but_clock {c : Instr} {s t : State} (he : exec c s = .next t) : ∃ e : Word64, Kept { s with elapsed := e } t := by
  by_cases hc : ∃ head fuses vin vhold, c = .coldStart head fuses vin vhold
  case pos =>
    obtain ⟨head, fuses, vin, vhold, rfl⟩ := hc
    exact ⟨0, execColdStart_kept head fuses vin vhold s he⟩
  case neg => exact ⟨s.elapsed, exec_kept c (fun head fuses vin vhold h => hc ⟨head, fuses, vin, vhold, h⟩) he (Kept_refl s)⟩

/-- Settles O1: with a command in front, a step is that command's `exec`. -/
theorem stepRunsFrontCommand : Obligations.StepRunsFrontCommand := fun _ _ _ => step_command rfl

/-- Settles O2: with none, a step is the clock's tick, which depends on the crystal and the island. -/
theorem emptyQueueLetsTimePass : Obligations.EmptyQueueLetsTimePass := by
  intro s h
  rw [step_empty h]
  exact ⟨fun ⟨hc, hi⟩ => by rw [State.tick_running hc hi], fun hstop => by rw [State.tick_stopped hstop]⟩

/-- Settles O3: a tick and every command's meaning are next states. -/
theorem everyStepAnswersNext : Obligations.EveryStepAnswersNext := by
  intro s
  cases hp : s.pending with
  | nil => exact ⟨_, step_empty hp⟩
  | cons c rest =>
    rw [step_command hp]
    exact exec_answers c _

/-- Settles O4: a tick changes no table and no queue, and each command keeps both as it finds them, its own place in the queue given up. -/
theorem stepKeepsCanonicalTables : Obligations.StepKeepsCanonicalTables := by
  intro s t hs ht
  cases hp : s.pending with
  | nil =>
    rw [step_empty hp] at ht
    obtain rfl : s.tick = t := by injection ht
    have hkept : ∃ e : Word64, s.tick = { s with elapsed := e } := by
      by_cases h : s.pwr.crystal = true ∧ s.pwr.island = true
      · exact ⟨_, State.tick_running h.1 h.2⟩
      · exact ⟨s.elapsed, State.tick_stopped (by simpa [Classical.or_iff_not_imp_left] using h)⟩
    obtain ⟨e, he⟩ := hkept
    rw [he]
    exact ⟨hs, hp⟩
  | cons c rest =>
    rw [step_command hp] at ht
    obtain ⟨e, hkept⟩ := exec_kept_but_clock ht
    exact ⟨hkept.canonical hs, hkept.pending_eq⟩

/-- Settles O5, by evaluation of the reset state's tables. -/
theorem resetIsCanonical : Obligations.ResetIsCanonical := ⟨by decide +kernel, rfl⟩

end Sys2Proof.Machine
end

section
/-! SUPPORT. Carrier sequencers: a command that ends at once, waits for room in its ring, or is sent (R392, R405 to R410). -/

namespace Sys2Proof.Machine

section Sequencers
variable {s : State} {u slot : Nat} {c : Cmd} {e : EngUnit} {mine : Vec → Bool}

/-- A row of a unit's opcodes takes the command that the unit's queues choose, when its block is the row's (R100). -/
theorem State.takeCommandIf_chosen {cls : Nat} (hn : s.nextCommand cls u = some (c, e)) (hm : mine c.block = true)
    (hb : badCommon c.block = false) (check : Cmd → State → Cmd × State) :
    s.takeCommandIf cls u mine check = (check c (s.setUnit cls u e)).2.serve cls u (check c (s.setUnit cls u e)).1 := by
  simp [State.takeCommandIf, hn, hm, hb]

/-- The ring of the command's carrier that this head's port has room in, if any (R392). -/
theorem State.sendable_eq (hs : s.slotOf (medCarrier c.block) = some slot) (hin : (s.car slot).inService = true) :
    s.sendable c.block c.queue = if ((s.car slot).port s.ownPort).room c.queue then some slot else none := by
  simp [State.sendable, hs, hin]

@[simp] theorem State.setUnit_sendable (cls : Nat) (b : Vec) (q : Nat) : (s.setUnit cls u e).sendable b q = s.sendable b q := rfl

/-- Operands that R394 and R406 refuse end the command. -/
theorem State.issueCommand_bad (hn : s.nextCommand clsSequencer u = some (c, e)) (hb : badCommon c.block = false) (hm : mine c.block = true)
    (hbad : badMedia c.block = true) :
    s.issueCommand u mine = (s.setUnit clsSequencer u e).serve clsSequencer u (c.finish stBadCommand) := by
  simp only [State.issueCommand, hn, State.takeCommandIf_chosen hn hm hb]
  simp [hbad]

theorem State.issueCommand_waits (hn : s.nextCommand clsSequencer u = some (c, e)) (hb : badCommon c.block = false)
    (hgood : badMedia c.block = false) (hs : s.slotOf (medCarrier c.block) = some slot) (hq : (s.car slot).sequencer = u)
    (hin : (s.car slot).inService = true) (hfull : ((s.car slot).port s.ownPort).room c.queue = false) : s.issueCommand u mine = s := by
  simp [State.issueCommand, hn, hb, hgood, hs, hq, hin, State.sendable_eq hs hin, hfull]

/-- With room in the ring the command's entry goes out, and the command stays in service (R392, R405). -/
theorem State.issueCommand_sends (hn : s.nextCommand clsSequencer u = some (c, e)) (hb : badCommon c.block = false) (hm : mine c.block = true)
    (hgood : badMedia c.block = false) (hs : s.slotOf (medCarrier c.block) = some slot) (hq : (s.car slot).sequencer = u)
    (hin : (s.car slot).inService = true) (hroom : ((s.car slot).port s.ownPort).room c.queue = true) :
    s.issueCommand u mine = ((s.setUnit clsSequencer u e).submit slot c.queue
      (carrierEntry (opcodeOf c.block) (cmdId c) c.block (medArg2 c.block))).serve clsSequencer u { c with since := s.elapsed } := by
  have hsend : s.sendable c.block c.queue = some slot := by rw [State.sendable_eq hs hin, if_pos hroom]
  simp only [State.issueCommand, hn, State.takeCommandIf_chosen hn hm hb]
  simp [hgood, hs, hq, hsend]

end Sequencers

theorem exec_issueOp {s : State} {u op : Nat} {i : Instr} (h : exec i s = .next (s.issueOp u op)) (hu : u < 8) :
    exec i s = .next (s.issueCommand u fun b => opcodeOf b == op) := by
  rw [h, State.issueOp, if_pos hu]

/-- Settles O41: each row of the sequencer's opcodes ends, holds or sends the command chosen by the equations above. -/
theorem sequencerCommands : Obligations.SequencerCommands := by
  unfold Obligations.SequencerCommands
  intro s u c e slot hu hn hb hs b s1 issues
  have row {i : Instr} {mine : Vec → Bool} (hi : exec i s = .next (s.issueCommand u mine)) (hm : mine b = true) : issues (exec i s) := by
    rw [hi]
    exact ⟨fun hbad => congrArg _ (State.issueCommand_bad hn hb hm hbad), fun hgood hq hin =>
      ⟨fun hfull => congrArg _ (State.issueCommand_waits hn hb hgood hs hq hin hfull),
        fun hroom => congrArg _ (State.issueCommand_sends hn hb hm hgood hs hq hin hroom)⟩⟩
  refine ⟨fun h => row (exec_issueOp rfl hu) (by simp [h]), fun h => row (exec_issueOp rfl hu) (by simp [h]),
    fun h => row (exec_issueOp rfl hu) (by simp [h]), fun h => row (exec_issueOp rfl hu) (by simp [h]),
    fun h => row (exec_issueOp rfl hu) (by simp [h]), fun h => row (exec_issueOp rfl hu) (by simp [h]),
    fun h => row (exec_issueOp rfl hu) (by simp [h]), fun h h2 => row (congrArg Host.Outcome.next (if_pos hu)) (by simp [h, h2]),
    fun h h2 => row (congrArg Host.Outcome.next (if_pos hu)) (by simp [h, h2]), fun h => row (exec_issueOp rfl hu) (by simp [h]),
    fun h => row (exec_issueOp rfl hu) (by simp [h])⟩

end Sys2Proof.Machine
end

section
/-! SUPPORT. Connections (R366, R376, R380), Connect and the controllers' properties (R367, R377), and port links (R385). -/

namespace Sys2Proof.Machine

/-! ### Connections (R366, R376, R380) -/

section Connections
variable {s : State} {c : Nat}

/-- An ICReq for what R366 excludes opens a connection and ends it at once. -/
theorem exec_icreq_unsupported {port : Nat} (hnew : ∀ p ∈ s.svc.conns, p.1 ≠ c) (hc : c < 65536) (hp : s.portOpen port = true) (r2t : Nat)
    (h d : Bool) : exec (.icreq c port r2t h d true) s = .next (((s.countRx port).setConn c { Conn.none with port := port }).terminate c 6) := by
  have hnone : s.svc.conns.any (fun p => p.1 == c) = false := by simpa using hnew
  show execIcreq c port r2t h d true s = _
  simp [execIcreq, hnone, hc, hp]

theorem exec_icreq_supported {port : Nat} (hnew : ∀ p ∈ s.svc.conns, p.1 ≠ c) (hc : c < 65536) (hp : s.portOpen port = true) (r2t : Nat)
    (h d : Bool) : exec (.icreq c port r2t h d false) s = .next (let digests := s.setting 0x0605 0 1 == 1
      let x : Conn := { Conn.none with port := port, ready := true, hdgst := h && digests, ddgst := d && digests, maxR2t := r2t, depth := 1 }
      ((s.countRx port).setConn c x).sendPdu c 1 (zeros 3 ++
        leBytes 1 ((if x.hdgst then 1 else 0) + if x.ddgst then 2 else 0) ++ leBytes 4 131072 ++ zeros 112) []) := by
  have hnone : s.svc.conns.any (fun p => p.1 == c) = false := by simpa using hnew
  show execIcreq c port r2t h d false s = _
  simp [execIcreq, hnone, hc, hp]

theorem exec_h2cTermReq (h : s.svc.conns.any (fun p => p.1 == c) = true) : exec (.h2cTermReq c) s = .next ((s.heardPdu c).closeConn c) :=
  congrArg Host.Outcome.next (if_pos h)

theorem exec_connectionEnd (h : s.svc.conns.any (fun p => p.1 == c) = true) (ho : (s.conn c).ended = false) :
    exec (.connectionEnd c) s = .next (s.endConn c) :=
  congrArg Host.Outcome.next (if_pos ⟨h, by simp [ho]⟩)

theorem exec_invalidPduType (h : s.svc.conns.any (fun p => p.1 == c) = true) (ho : (s.conn c).ended = false) :
    exec (.invalidPduType c) s = .next (((s.heardPdu c).nvtError 0x102 c).terminate c 2) :=
  congrArg Host.Outcome.next (if_pos ⟨h, by simp [ho]⟩)

end Connections

/-! ### Connect (R367) -/

section Connect
variable {s : State} {c cid qid sqsize cntlid kato : Nat} {host sub : List Byte}

theorem exec_nvmeConnect_again (hr : (s.conn c).ready = true) (ho : (s.conn c).ended = false) (hx : ((s.heardPdu c).conn c).ctrl ≠ none) :
    exec (.nvmeConnect c cid qid sqsize cntlid kato host sub) s = .next ((s.heardPdu c).respond c cid 0 nsSequence) := by
  have hsome : (s.conn c).ctrl.isSome = true := Option.isSome_iff_ne_none.2 hx
  show execNvmeConnect c cid qid sqsize cntlid kato host sub s = _
  simp [execNvmeConnect, hr, ho, hsome]

theorem exec_nvmeConnect_otherSubsystem (hr : (s.conn c).ready = true) (ho : (s.conn c).ended = false)
    (hx : ((s.heardPdu c).conn c).ctrl = none) (hsub : sub ≠ (s.heardPdu c).settingData 0x0603 0) :
    exec (.nvmeConnect c cid qid sqsize cntlid kato host sub) s = .next ((s.heardPdu c).respond c cid 0 nsConnectInvalid) := by
  rw [State.heardPdu_conn] at hx
  show execNvmeConnect c cid qid sqsize cntlid kato host sub s = _
  simp [execNvmeConnect, hr, ho, hx, hsub]

/-- A first Connect to this subsystem asks for an admin queue by number 0. -/
theorem exec_nvmeConnect_admin (hr : (s.conn c).ready = true) (ho : (s.conn c).ended = false) (hx : ((s.heardPdu c).conn c).ctrl = none)
    (hsub : sub = (s.heardPdu c).settingData 0x0603 0) (hne : sub ≠ []) :
    exec (.nvmeConnect c cid 0 sqsize cntlid kato host sub) s = .next ((s.heardPdu c).connectAdmin c cid sqsize cntlid kato host) := by
  rw [State.heardPdu_conn] at hx
  subst hsub
  show execNvmeConnect c cid 0 sqsize cntlid kato host _ s = _
  simp [execNvmeConnect, hr, ho, hx, hne]

theorem exec_nvmeConnect_io (hr : (s.conn c).ready = true) (ho : (s.conn c).ended = false) (hx : ((s.heardPdu c).conn c).ctrl = none)
    (hsub : sub = (s.heardPdu c).settingData 0x0603 0) (hne : sub ≠ []) (hqid : qid ≠ 0) :
    exec (.nvmeConnect c cid qid sqsize cntlid kato host sub) s = .next ((s.heardPdu c).connectIo c cid qid sqsize cntlid host) := by
  rw [State.heardPdu_conn] at hx
  subst hsub
  show execNvmeConnect c cid qid sqsize cntlid kato host _ s = _
  simp [execNvmeConnect, hr, ho, hx, hne, hqid]

/-- The controller of a new admin queue has the lowest free number. -/
theorem State.connectAdmin_free {n : Nat} (hn : s.freeCtrl = some n) (hq : sqsize ≤ 31) (hid : cntlid = 0xFFFF) :
    s.connectAdmin c cid sqsize cntlid kato host =
      ((({ s with svc := { s.svc with ctrls := s.svc.ctrls ++ [(s.ctrlId n, s.newCtrl host kato)] } } : State).modConn c fun x =>
        { x with ctrl := some (s.ctrlId n), qid := 0, depth := 32 }).respond c cid (s.ctrlId n) nsSuccess) := by
  unfold State.connectAdmin
  simp only [hn]
  exact if_neg (by simp [hq.not_gt, hid])

theorem State.connectAdmin_full (hn : s.freeCtrl = none) : s.connectAdmin c cid sqsize cntlid kato host = s.respond c cid 0 nsConnectInvalid := by
  unfold State.connectAdmin
  simp only [hn]

/-- An I/O queue joins a ready controller of its host that has no queue of its number. -/
theorem State.connectIo_joins {k : Ctrl} (hk : s.ctrl cntlid = some k) (hhost : k.nqn = host) (hready : k.ready = true) (hqid : qid ≤ 65535)
    (hq : sqsize ≤ 4095) (hnew : ∀ p ∈ s.svc.conns, ¬ (p.2.ctrl = some cntlid ∧ p.2.qid = qid)) :
    s.connectIo c cid qid sqsize cntlid host =
      (s.modConn c fun x => { x with ctrl := some cntlid, qid := qid, depth := sqsize + 1 }).respond c cid cntlid nsSuccess := by
  have hany : s.svc.conns.any (fun p => p.2.ctrl == some cntlid && p.2.qid == qid) = false :=
    List.any_eq_false.2 fun p hp => by simpa using hnew p hp
  simp only [State.connectIo, hk, hhost, hready, hany, hqid.not_gt, hq.not_gt]
  simp

end Connect

/-! ### Properties and the commands of a queue (R367, R376, R377) -/

section Properties
variable {s : State} {c cid id : Nat} {k : Ctrl}

theorem exec_propertyGet {off v : Nat} (hd : s.delivers c = true) (hid : (s.conn c).ctrl = some id) (hv : s.property id off = some v) :
    exec (.propertyGet c cid off) s = .next ((s.heardPdu c).respond c cid v nsSuccess) := by
  show execPropertyGet c cid off s = _
  simp [execPropertyGet, hd, hid, hv]

/-- CAP: the sum is compared term by term, so that no term of it is ever counted out. -/
theorem State.property_cap (hk : s.ctrl id = some k) :
    s.property id 0 = some (4095 + 2 ^ 16 + Config.capTimeout % 256 * 2 ^ 24 + 2 ^ 37) := by
  unfold State.property
  rw [hk]
  exact congrArg some (congrArg₂ HAdd.hAdd (congrArg₂ HAdd.hAdd (congrArg (HAdd.hAdd 4095) rfl) (congrArg (HMul.hMul (Config.capTimeout % 256)) rfl)) rfl)

theorem exec_propertySet_cc {v : Nat} (hd : s.delivers c = true) (hid : (s.conn c).ctrl = some id) :
    exec (.propertySet c cid 0x14 v) s = .next ((s.heardPdu c).setCc id c cid v) := by
  show execPropertySet c cid 0x14 v s = _
  simp [execPropertySet, hd, hid]

theorem exec_propertySet_other {off : Nat} (v : Nat) (hd : s.delivers c = true) (hoff : off ≠ 0x14) :
    exec (.propertySet c cid off v) s = .next ((s.heardPdu c).respond c cid 0 nsInvalidField) := by
  show execPropertySet c cid off v s = _
  simp [execPropertySet, hd, hoff]

theorem State.setCc_eq (hk : s.ctrl id = some k) (v : Nat) : s.setCc id c cid v =
    if k.cc % 2 = 1 ∧ v % 2 = 0 then s.endCtrl id false
    else if v / 2 ^ 14 % 4 ≠ 0 then (s.modCtrl id fun k => { k with cc := v, shst := 2 }).endCtrl id false
    else (s.modCtrl id fun k => { k with cc := v, ready := v % 2 == 1 }).respond c cid 0 nsSuccess := by
  rw [State.setCc, hk]

theorem exec_nvmeDisconnect (hd : s.delivers c = true) :
    exec (.nvmeDisconnect c cid) s = .next (((s.heardPdu c).respond c cid 0 nsSuccess).endConn c) := congrArg Host.Outcome.next (if_pos hd)

theorem exec_invalidCommandOpcode (hd : s.delivers c = true) :
    exec (.invalidCommandOpcode c cid) s = .next ((s.heardPdu c).respond c cid 0 nsInvalidOpcode) := congrArg Host.Outcome.next (if_pos hd)

theorem exec_keepAliveExpiry (hk : s.ctrl id = some k) (hne : k.kato ≠ 0) (hdue : k.keepAliveTime ≤ s.elapsed.toNat - k.aliveAt.toNat) :
    exec (.keepAliveExpiry id) s = .next (s.endCtrl id true) := by
  show execKeepAliveExpiry id s = _
  simp [execKeepAliveExpiry, hk, hne, hdue]

theorem exec_anaTransitionTimeExpiry {since : Word64} (hc : s.svc.changeSince = some since)
    (hdue : s.anaTime since ≤ s.elapsed.toNat - since.toNat) (hcust : s.holdsCustody = false) :
    exec .anaTransitionTimeExpiry s = .next ({ s with svc := { s.svc with changeSince := none } } : State).anaChange := by
  show execAnaTransitionTimeExpiry s = _
  simp [execAnaTransitionTimeExpiry, hc, hdue, hcust]

end Properties

/-! ### Port links (R385) -/

section Links
variable {s : State} {p : Nat}

theorem exec_ethLinkChange_down (hp : p < s.ethPorts) : exec (.ethLinkChange p false) s =
    .next { s.setReg (rEthPort p) 0 with svc := { s.svc with mtus := Sparse.set 0 p 0 s.svc.mtus } } := by
  show execEthLinkChange p false s = _
  simp [execEthLinkChange, hp.not_ge]

theorem exec_ethLinkChange_up (hp : p < s.ethPorts) (hm : s.hlt.mode ≠ .safe) (hclk : s.pwr.clkEth = true)
    (hf : s.regBit (rEthPortFence p) 0 = false) : exec (.ethLinkChange p true) s =
    .next { s.setReg (rEthPort p) (1 + 4 * (s.reg rEthMode % 4 + 1)) with
      svc := { s.svc with mtus := Sparse.set 0 p (s.setting 0x0601 0 9000) s.svc.mtus } } := by
  show execEthLinkChange p true s = _
  simp [execEthLinkChange, hp.not_ge, hm, hclk, hf]

/-- SAFE and the port's fence hold its link down. -/
theorem exec_ethLinkChange_held (hp : p < s.ethPorts) (h : s.hlt.mode = .safe ∨ s.regBit (rEthPortFence p) 0 = true) :
    exec (.ethLinkChange p true) s = .next s := by
  have hheld : s.hlt.mode = .safe ∨ s.pwr.clkEth = false ∨ s.regBit (rEthPortFence p) 0 = true := h.imp_right Or.inr
  show execEthLinkChange p true s = _
  simp [execEthLinkChange, hp.not_ge, hheld]

end Links

/-- Settles O47: each command of a connection, of a queue and of a port by its own equation; Connect goes by the queue it asks for. -/
theorem connectionsAndControllers : Obligations.ConnectionsAndControllers := by
  intro s
  refine ⟨fun c port r2t h d u hnew hc hp => ⟨fun hu => ?_, fun hu => ?_⟩,
    fun c hc => ⟨exec_h2cTermReq hc, fun ho => ⟨exec_connectionEnd hc ho, exec_invalidPduType hc ho⟩⟩,
    fun c cid sqsize cntlid kato host sub hr ho => ⟨fun hx qid => exec_nvmeConnect_again hr ho hx,
      fun hx hsub qid => exec_nvmeConnect_otherSubsystem hr ho hx hsub, fun hx hsub hne => ?connect⟩,
    fun c cid id k hd hid hk => ?queue, fun id k hk hne hdue => exec_keepAliveExpiry hk hne hdue,
    fun since hc hdue hcust => exec_anaTransitionTimeExpiry hc hdue hcust, fun p hp => ⟨?down, fun hm hclk hf => ?up, exec_ethLinkChange_held hp⟩⟩
  · subst hu
    exact exec_icreq_unsupported hnew hc hp r2t h d
  · subst hu
    exact exec_icreq_supported hnew hc hp r2t h d
  case connect =>
    have hadmin := exec_nvmeConnect_admin (cid := cid) (sqsize := sqsize) (cntlid := cntlid) (kato := kato) (host := host) hr ho hx hsub hne
    refine ⟨fun n hn hq hall => hadmin.trans (congrArg _ (State.connectAdmin_free hn hq hall)),
      fun hn => hadmin.trans (congrArg _ (State.connectAdmin_full hn)), fun qid k hqid hmax hk hhost hready hq hnew => ?_⟩
    exact (exec_nvmeConnect_io hr ho hx hsub hne hqid).trans (congrArg _ (State.connectIo_joins hk hhost hready hmax hq hnew))
  case queue =>
    have hcc (v : Nat) := (s.heardPdu c).setCc_eq (c := c) (cid := cid) (s.heardPdu_ctrl c id ▸ hk) v
    refine ⟨exec_propertyGet hd hid (State.property_cap hk), exec_propertyGet hd hid (by simp [State.property, hk]),
      exec_propertyGet hd hid (by simp only [State.property, hk]), exec_propertyGet hd hid (by simp [State.property, hk]),
      fun v h1 h0 => ?_, fun v hen hsh => ?_, fun v hen hsh => ?_, fun off v hoff => exec_propertySet_other v hd hoff,
      exec_nvmeDisconnect hd, exec_invalidCommandOpcode hd⟩
    · rw [exec_propertySet_cc hd hid, hcc, if_pos ⟨h1, h0⟩]
    · rw [exec_propertySet_cc hd hid, hcc, if_neg hen, if_pos hsh]
    · rw [exec_propertySet_cc hd hid, hcc, if_neg hen, if_neg (not_not.2 hsh)]
  case down =>
    refine ⟨_, exec_ethLinkChange_down hp, ?_, Sparse.get_set_same 0 p 0 _⟩
    exact (State.reg_setReg s (rEthPort p) (rEthPort p) 0).trans (if_pos rfl)
  case up =>
    refine ⟨_, exec_ethLinkChange_up hp hm hclk hf, ?_, Sparse.get_set_same 0 p _ _⟩
    have hsmall : 1 + 4 * (s.reg rEthMode % 4 + 1) < 2 ^ 32 := by omega
    exact (State.reg_setReg s (rEthPort p) (rEthPort p) _).trans ((if_pos rfl).trans (Nat.mod_eq_of_lt hsmall))

end Sys2Proof.Machine
end

section
/-! SUPPORT. The commands of a carrier: the first that may run, its checks, and what each does (R394 to R402). -/

namespace Sys2Proof.Machine

/-! ### A carrier's contents, erase groups and fetched commands -/

/-- Keys that a filter leaves out hold the default. -/
theorem Sparse.get_filter_out {α : Type} (d : α) {p : Nat → α → Bool} {k : Nat} (h : ∀ v, p k v = false) (m : Sparse α) :
    Sparse.get d k (Sparse.filter p m) = d := by
  induction m with
  | nil => rfl
  | cons x t ih =>
    obtain ⟨j, w⟩ := x
    by_cases hj : j = k
    · subst hj
      simpa [Sparse.filter, h] using ih
    · simp only [Sparse.filter]
      split
      · simpa [Sparse.get, hj] using ih
      · exact ih

section Contents
variable (c : Carrier) (g : Nat)

@[simp] theorem Carrier.group_modGroup_same (f : EGroup → EGroup) : (c.modGroup g f).group g = f (c.group g) := Sparse.get_set_same _ g _ _
@[simp] theorem Carrier.modGroup_data (f : EGroup → EGroup) : (c.modGroup g f).data = c.data := rfl
@[simp] theorem Carrier.modGroup_fetched (f : EGroup → EGroup) : (c.modGroup g f).fetched = c.fetched := rfl
@[simp] theorem Carrier.write_fetched (o : Nat) (bs : List Byte) : (c.write g o bs).fetched = c.fetched := rfl
theorem Carrier.read_congr {c d : Carrier} (h : d.data = c.data) (g o n : Nat) : d.read g o n = c.read g o n := by simp only [Carrier.read, h]

/-- Writing bytes from a key up leaves the bytes there. -/
theorem get_foldl_setFrom (bs : List Byte) (a n x : Nat) (m : Sparse Byte) :
    Sparse.get 0 x ((bs.zipIdx n).foldl (fun m p => Sparse.set 0 (a + p.2) p.1 m) m) =
      if a + n ≤ x ∧ x < a + n + bs.length then bs.getD (x - (a + n)) 0 else Sparse.get 0 x m := by
  induction bs generalizing n m with
  | nil => simp [show ¬ (a + n ≤ x ∧ x < a + n) by omega]
  | cons b t ih =>
    simp only [List.zipIdx_cons, List.foldl_cons, ih, Sparse.get_set, List.length_cons]
    rcases Nat.lt_trichotomy x (a + n) with h | h | h
    · simp [h.ne, show ¬ (a + (n + 1) ≤ x) by omega, show ¬ (a + n ≤ x) by omega]
    · simp [h, show ¬ (a + (n + 1) ≤ a + n) by omega]
    · obtain ⟨j, rfl⟩ : ∃ j, x = a + n + (j + 1) := ⟨x - (a + n) - 1, by omega⟩
      simp [show a + n + (j + 1) - (a + (n + 1)) = j by omega, show a + n + (j + 1) - (a + n) = j + 1 by omega,
        show (a + (n + 1) ≤ a + n + (j + 1)) by omega, show a + n + (j + 1) < a + (n + 1) + t.length ↔ j < t.length by omega]

theorem Carrier.read_write_same (o : Nat) (bs : List Byte) : (c.write g o bs).read g o bs.length = bs := by
  refine List.ext_getElem (by simp [Carrier.read]) fun i hi hb => ?_
  have hkey := get_foldl_setFrom bs (g * 2 ^ 32 + o) 0 (g * 2 ^ 32 + o + i) c.data
  simp only [Carrier.read, Carrier.write, List.getElem_map, List.getElem_range]
  simpa [hb] using hkey

/-- An erased group reads as zeros. -/
theorem Carrier.read_wipe {k : Nat} (hk : k < 2 ^ 32) : (c.wipe g).read g k 1 = [0] := by
  have hgroup : (g * 2 ^ 32 + k) / 2 ^ 32 = g := by omega
  simp only [Carrier.read, Carrier.wipe, List.range_one, List.map_cons, List.map_nil, Nat.add_zero]
  rw [Sparse.get_filter_out (p := fun k _ => k / 2 ^ 32 != g) 0 fun _ => bne_eq_false_iff_eq.2 hgroup]

end Contents

section Decided
variable {c : Carrier} {i : Nat} {x : CCmd} (st bytes info : Nat)

theorem Carrier.decide_eq (h : c.fetched[i]? = some x) :
    c.decide i st bytes info = { c with fetched := c.fetched.set i { x with outcome := some (st, bytes, info) } } := by
  simp only [Carrier.decide, h, setNth_eq_set]

@[simp] theorem Carrier.decide_groups : (c.decide i st bytes info).groups = c.groups := by unfold Carrier.decide; split <;> rfl
@[simp] theorem Carrier.decide_data : (c.decide i st bytes info).data = c.data := by unfold Carrier.decide; split <;> rfl
@[simp] theorem Carrier.group_decide (g : Nat) : (c.decide i st bytes info).group g = c.group g := by simp only [Carrier.group, Carrier.decide_groups]

/-- The command has its outcome. -/
theorem Carrier.fetched_decide (h : c.fetched[i]? = some x) :
    (c.decide i st bytes info).fetched[i]? = some { x with outcome := some (st, bytes, info) } := by
  rw [Carrier.decide_eq st bytes info h]
  exact List.getElem?_set_self (List.getElem?_eq_some_iff.1 h).1

end Decided

/-! ### A carrier in its slot -/

section Slot
variable (s : State) (slot : Nat)

@[simp] theorem State.car_modCar_same (f : Carrier → Carrier) : (s.modCar slot f).car slot = f (s.car slot) := Sparse.get_set_same _ slot _ _
@[simp] theorem State.car_correct (a n : Nat) : (s.correct a n).car slot = s.car slot := by rw [State.correct_only]; rfl
@[simp] theorem State.car_performWrite (a : Nat) (l : List (Bool × Byte)) : (s.performWrite a l).car slot = s.car slot := by
  rw [State.performWrite_only]; rfl
theorem State.modCar_congr {f g : Carrier → Carrier} (h : f (s.car slot) = g (s.car slot)) : s.modCar slot f = s.modCar slot g :=
  congrArg (s.setCar slot) h

/-- Data that a carrier delivers changes memory, never the carrier. -/
theorem State.car_deliver (x : CCmd) (bs : List Byte) : (s.deliver slot x bs).2.car slot = s.car slot := by
  unfold State.deliver State.portWrite
  split
  · split
    · exact s.car_performWrite slot _ _
    · rfl
  · rfl

end Slot

/-! ### The command that runs (R399) -/

section Run
variable {s : State} {slot i : Nat} {x : CCmd} {want : CCmd → Bool} {body : Nat → CCmd → State → State}

theorem State.runCarrier_refused (hr : runnable want [] (s.car slot).fetched 0 = some i) (hx : (s.car slot).fetched[i]? = some x)
    (hbad : (s.car slot).refuses x ≠ 0) : s.runCarrier slot want body =
      s.modCar slot (Carrier.decide i ((s.car slot).refuses x) 0 (if x.opcode = 2 then ((s.car slot).group x.egroup).wp else 0)) := by
  simp only [State.runCarrier, hr, hx, if_pos hbad]

theorem State.runCarrier_runs (hr : runnable want [] (s.car slot).fetched 0 = some i) (hx : (s.car slot).fetched[i]? = some x)
    (hgood : (s.car slot).refuses x = 0) : s.runCarrier slot want body = body i x s := by
  simp only [State.runCarrier, hr, hx, if_neg (not_not.2 hgood)]

end Run

/-! ### PROGRAM (R395) -/

section Program
variable {s : State} {slot i : Nat} {x : CCmd}

/-- The first check of PROGRAM that fails, 0 for none. -/
def Carrier.programCheck (c : Carrier) (x : CCmd) : Nat :=
  if (c.group x.egroup).erasePending then csNotErased
  else if x.page ≠ (c.group x.egroup).wp then csOrder
  else if c.pages x.egroup ≤ x.page then csRange
  else 0

theorem State.carrierProgram_ends (ok : Bool) (data : List Byte) (h : (s.car slot).programCheck x ≠ 0) : s.carrierProgram slot ok data i x =
    s.modCar slot (Carrier.decide i ((s.car slot).programCheck x) 0 ((s.car slot).group x.egroup).wp) := if_pos h

theorem State.carrierProgram_programs (ok : Bool) (data : List Byte) (h : (s.car slot).programCheck x = 0) (hp : x.port = s.ownPort)
    (ha : s.portPasses slot x.addr 65536 false = true) : s.carrierProgram slot ok data i x =
      (s.correct x.addr 65536).modCar slot (Carrier.program i x ok (s.bytes x.addr 65536)) :=
  (if_neg (not_not.2 h)).trans ((if_pos hp).trans (if_pos ha))

/-- A page group that the flash takes holds the data, and the write pointer has moved past it. -/
theorem Carrier.program_taken {c : Carrier} {bs : List Byte} (hx : c.fetched[i]? = some x) (hbs : bs.length = 65536) :
    let d := c.program i x true bs
    (d.group x.egroup).wp = (c.group x.egroup).wp + 1 ∧ d.read x.egroup (x.page * 65536) 65536 = bs ∧
      d.fetched[i]? = some { x with outcome := some (csOk, 65536, (c.group x.egroup).wp + 1) } := by
  refine ⟨?_, ?_, ?_⟩
  · simp [Carrier.program]
  · rw [Carrier.read_congr (c := c.write x.egroup (x.page * 65536) bs) (by simp [Carrier.program]), ← hbs, Carrier.read_write_same]
  · exact Carrier.fetched_decide _ _ _ (by simpa using hx)

/-- One that it does not take is passed over. -/
theorem Carrier.program_failed {c : Carrier} {bs : List Byte} (hx : c.fetched[i]? = some x) :
    let d := c.program i x false bs
    let e := c.group x.egroup
    d.group x.egroup = { e with wp := e.wp + 1, failed := e.failed ++ [e.wp] } ∧ d.data = c.data ∧
      d.fetched[i]? = some { x with outcome := some (csProgramFailed, 65536, e.wp + 1) } := by
  refine ⟨?_, ?_, ?_⟩
  · exact (Carrier.group_decide ..).trans (Carrier.group_modGroup_same ..)
  · exact Carrier.decide_data ..
  · exact Carrier.fetched_decide _ _ _ hx

end Program

/-! ### READ (R395) -/

section Read
variable {s : State} {slot i : Nat} {x : CCmd}

/-- The first check of READ that fails, 0 for none. -/
def Carrier.readCheck (c : Carrier) (x : CCmd) : Nat :=
  if c.pages x.egroup * 65536 < x.arg0 + x.len then csRange
  else if (c.group x.egroup).erasePending ∨ min (c.group x.egroup).wp x.wpAtFetch * 65536 < x.arg0 + x.len then csUnwritten
  else 0

theorem State.carrierRead_ends (bad : Option Nat) (h : (s.car slot).readCheck x ≠ 0) :
    s.carrierRead slot bad i x = s.modCar slot (Carrier.decide i ((s.car slot).readCheck x) 0 0) := if_pos h

theorem State.carrierRead_sound (h : (s.car slot).readCheck x = 0)
    (hf : ((s.car slot).group x.egroup).firstFailed x.arg0 x.len = none) :
    s.carrierRead slot none i x = s.sendData slot i x ((s.car slot).read x.egroup x.arg0 x.len) 0 :=
  (if_neg (not_not.2 h)).trans (by simp only [hf])

/-- A page group that failed cannot be read: UNCORRECTABLE names its first byte (R395). -/
theorem State.carrierRead_failed {b : Nat} (h : (s.car slot).readCheck x = 0) (hx : (s.car slot).fetched[i]? = some x)
    (hf : ((s.car slot).group x.egroup).firstFailed x.arg0 x.len = some b) :
    ∃ n, n ≤ x.len ∧ ((s.carrierRead slot none i x).car slot).fetched[i]? = some { x with outcome := some (csUncorrectable, n, b) } := by
  obtain ⟨t, n, hn, hcar, heq⟩ : ∃ (t : State) (n : Nat), n ≤ x.len ∧ t.car slot = s.car slot ∧ s.carrierRead slot none i x =
      t.modCar slot fun c => { (c.decide i csUncorrectable n b) with uncorrReads := c.uncorrReads + 1 } :=
    ⟨((s.freeBytes x.len).2.takeFree.deliver slot x (s.freeBytes x.len).1).2, (s.freeBytes x.len).2.freeWord.toNat % (x.len + 1),
      Nat.lt_succ_iff.1 (Nat.mod_lt _ (Nat.succ_pos _)), State.car_deliver _ slot x _, (if_neg (not_not.2 h)).trans (by simp only [hf])⟩
  refine ⟨n, hn, ?_⟩
  rw [heq, State.car_modCar_same, hcar]
  exact Carrier.fetched_decide _ _ _ hx

end Read

/-! ### ERASE (R395, R398) -/

/-- An erased group is empty, in QLC mode, and counts the erase. -/
theorem Carrier.erase_done (c : Carrier) (i : Nat) (x : CCmd) :
    let d := c.erase i x true
    let r := d.group x.egroup
    let e := c.group x.egroup
    r.wp = 0 ∧ r.slc = false ∧ r.erasePending = false ∧ r.failed = [] ∧ r.qlcErases + r.slcErases = e.qlcErases + e.slcErases + 1 ∧
      ∀ k, k < 2 ^ 32 → d.read x.egroup k 1 = [0] := by
  have hgroup : (c.erase i x true).group x.egroup = (c.eraseNow x.egroup true).group x.egroup := Carrier.group_decide ..
  have hdata : (c.erase i x true).data = (c.wipe x.egroup).data := Carrier.decide_data ..
  simp only [hgroup, Carrier.eraseNow, if_true, Carrier.group_modGroup_same]
  refine ⟨trivial, trivial, trivial, trivial, ?_, fun k hk => ?_⟩
  · by_cases hslc : ((c.wipe x.egroup).group x.egroup).slc = true
    · rw [if_pos hslc, if_pos hslc]
      rfl
    · rw [if_neg hslc, if_neg hslc]
      exact Nat.add_right_comm ..
  · rw [Carrier.read_congr hdata, Carrier.read_wipe c x.egroup hk]

/-- An erase that fails retires its group and keeps the contents. -/
theorem Carrier.erase_failed (c : Carrier) (i : Nat) (x : CCmd) :
    (c.erase i x false).group x.egroup = { c.group x.egroup with retired := true } ∧ (c.erase i x false).data = c.data :=
  ⟨(Carrier.group_decide ..).trans (c.group_modGroup_same x.egroup fun e => { e with retired := true }), Carrier.decide_data ..⟩

/-! ### OWNERSHIP (R402) -/

theorem Carrier.own_stale {c : Carrier} {x : CCmd} (i : Nat) (h : leAt x.bytes 32 8 ≤ c.epoch) :
    c.own i x = c.decide i csEpochStale 0 c.owner := if_pos h

theorem Carrier.own_newer {c : Carrier} {x : CCmd} (i : Nat) (h : c.epoch < leAt x.bytes 32 8) :
    c.own i x = ({ c with owner := if x.arg0 = 1 then x.port + 1 else 0, epoch := leAt x.bytes 32 8 } : Carrier).decide i csOk 0
      (if x.arg0 = 1 then x.port + 1 else 0) := if_neg h.not_ge

/-- Settles O42: a command that runs is refused by the checks common to all (R395, R401), or is its own equation above. -/
theorem carrierCommands : Obligations.CarrierCommands := by
  unfold Obligations.CarrierCommands
  intro s slot i x hx c e runs good ends refused sends reads
  have hrefused {want : CCmd → Bool} {body : Nat → CCmd → State → State} (hr : runs want) (ho : x.opcode ≠ 2) :
      refused (.next (s.runCarrier slot want body)) := fun hbad =>
    congrArg _ ((State.runCarrier_refused hr hx hbad).trans (by rw [if_neg ho]; rfl))
  have hruns {want : CCmd → Bool} {body : Nat → CCmd → State → State} (hr : runs want) (hg : good) :
      (.next (s.runCarrier slot want body) : Host.Outcome State Fault Refusal) = .next (body i x s) :=
    congrArg _ (State.runCarrier_runs hr hx hg)
  have hreads (o : Option Nat → Host.Outcome State Fault Refusal) {want : CCmd → Bool}
      (ho : ∀ bad, o bad = .next (s.runCarrier slot want (State.carrierRead slot bad))) (hr : runs want) (hop : x.opcode ≠ 2) : reads o := by
    have hstop {st : Nat} (hg : good) (hck : c.readCheck x = st) (hst : st ≠ 0) : ends (o none) st 0 0 id := by
      rw [ho]
      exact (hruns hr hg).trans (congrArg _ ((State.carrierRead_ends none (hck ▸ hst)).trans (by rw [hck]; rfl)))
    refine ⟨(ho none).symm ▸ hrefused hr hop, fun hg hout => hstop hg (if_pos hout) (by decide), fun hg hin hun => ?_, fun hg hin he hw => ?_⟩
    · exact hstop hg ((if_neg hin.not_gt).trans (if_pos hun)) (by decide)
    · have hck : c.readCheck x = 0 := (if_neg hin.not_gt).trans (if_neg (not_or.2 ⟨Bool.eq_false_iff.1 he, hw.not_gt⟩))
      refine ⟨fun hf => ?_, fun b hf => ?_⟩
      · rw [ho]
        exact (hruns hr hg).trans (congrArg _ (State.carrierRead_sound hck hf))
      · obtain ⟨n, hn, hdone⟩ := State.carrierRead_failed (i := i) hck hx hf
        exact ⟨_, n, (ho none).trans (hruns hr hg), hn, hdone⟩
  have howns {o : Host.Outcome State Fault Refusal} {want : CCmd → Bool} (owner : Nat)
      (ho : o = .next (s.runCarrier slot want fun i x s => s.modCar slot (Carrier.own i x))) (hr : runs want) (hop : x.opcode = 8)
      (howner : (if x.arg0 = 1 then x.port + 1 else 0) = owner) : refused o ∧
        (good → leAt x.bytes 32 8 ≤ c.epoch → ends o csEpochStale 0 c.owner id) ∧
        (good → c.epoch < leAt x.bytes 32 8 → ends o csOk 0 owner fun c => { c with owner := owner, epoch := leAt x.bytes 32 8 }) := by
    subst ho howner
    refine ⟨hrefused hr (by simp [hop]), fun hg hold => ?_, fun hg hnew => ?_⟩
    · exact (hruns hr hg).trans (congrArg _ (s.modCar_congr slot (Carrier.own_stale i hold)))
    · exact (hruns hr hg).trans (congrArg _ (s.modCar_congr slot (Carrier.own_newer i hnew)))
  refine ⟨fun hr ho => ⟨hrefused hr (by simp [ho]), hruns hr⟩, fun hr ho hp => ?program,
    fun hr ho => hreads _ (fun _ => rfl) hr (by simp [ho]), fun hr ho => hreads _ (fun _ => rfl) hr (by simp [ho]),
    fun hr ho ok => ⟨hrefused hr (by simp [ho]), fun hg => ⟨_, hruns hr hg, ?erase⟩⟩,
    fun hr ho => ⟨hrefused hr (by simp [ho]), fun hg hw => ?full, fun hg he hw => ?empty⟩,
    fun temp hr ho => ⟨hrefused hr (by simp [ho]), hruns hr⟩,
    fun ho => ⟨fun ha hr => howns (x.port + 1) rfl hr ho (if_pos ha), fun ha hr => howns 0 rfl hr ho (if_neg (by simp [ha]))⟩,
    fun hr ho => ⟨hrefused hr (by simp [ho]), fun hg hmay => ?label, fun hg hmay => ?labelled⟩,
    fun hr ho => ⟨hrefused hr (by simp [ho]), hruns hr⟩⟩
  case program =>
    have hstop {ok : Bool} {st : Nat} (hg : good) (hck : c.programCheck x = st) (hst : st ≠ 0) : ends (exec (.carrierProgram slot ok []) s) st 0 e.wp id :=
      (hruns hr hg).trans (congrArg _ ((State.carrierProgram_ends ok [] (hck ▸ hst)).trans (by rw [hck]; rfl)))
    refine ⟨fun ok hbad => ?_, fun ok hg he => hstop hg (if_pos he) (by decide), fun ok hg he hw => ?_, fun ok hg he hw hpg => ?_,
      fun hg he hw hpg ha => ?_⟩
    · exact congrArg _ ((State.runCarrier_refused hr hx hbad).trans (by rw [if_pos ho]; rfl))
    · exact hstop hg ((if_neg (Bool.eq_false_iff.1 he)).trans (if_pos hw)) (by decide)
    · exact hstop hg ((if_neg (Bool.eq_false_iff.1 he)).trans ((if_neg (not_not.2 hw)).trans (if_pos hpg))) (by decide)
    · have hck : c.programCheck x = 0 := (if_neg (Bool.eq_false_iff.1 he)).trans ((if_neg (not_not.2 hw)).trans (if_neg hpg.not_ge))
      have hprog (ok : Bool) : exec (.carrierProgram slot ok []) s =
          .next ((s.correct x.addr 65536).modCar slot (Carrier.program i x ok (s.bytes x.addr 65536))) :=
        (hruns hr hg).trans (congrArg _ (State.carrierProgram_programs ok [] hck hp ha))
      refine ⟨⟨_, hprog true, ?_⟩, ⟨_, hprog false, ?_⟩⟩
      · rw [State.car_modCar_same, State.car_correct]
        exact Carrier.program_taken hx (s.bytes_length x.addr 65536)
      · rw [State.car_modCar_same, State.car_correct]
        exact Carrier.program_failed hx
  case erase =>
    rw [State.car_modCar_same]
    exact ⟨fun h => h ▸ c.erase_done i x, fun h => h ▸ c.erase_failed i x⟩
  case full => exact (hruns hr hg).trans (congrArg _ (s.modCar_congr slot (if_pos hw)))
  case empty => exact (hruns hr hg).trans (congrArg _ (s.modCar_congr slot (if_neg (not_or.2 ⟨Bool.eq_false_iff.1 he, not_not.2 hw⟩))))
  case label => exact (hruns hr hg).trans (congrArg _ (s.modCar_congr slot (if_pos hmay)))
  case labelled => exact (hruns hr hg).trans (congrArg _ (s.modCar_congr slot (if_neg hmay)))

end Sys2Proof.Machine
end

section
/-! SUPPORT. The ports of a carrier: enabling and reset, the rings, completions and message interrupts, and carriers entering and leaving
service (R388 to R393, R400, R404, R409 to R413). -/

namespace Sys2Proof.Machine

/-! ### One port of a carrier -/

section Port
variable {c : Carrier} {p : Nat} {x : CPort}

@[simp] theorem Carrier.port_setPort_same : (c.setPort p x).port p = x := by
  by_cases h : p = 0 <;> simp [Carrier.port, Carrier.setPort, h]
@[simp] theorem Carrier.setPort_fetched : (c.setPort p x).fetched = c.fetched := by unfold Carrier.setPort; split <;> rfl
@[simp] theorem Carrier.setPort_ident : (c.setPort p x).ident = c.ident := by unfold Carrier.setPort; split <;> rfl
@[simp] theorem Carrier.setPort_number : (c.setPort p x).number = c.number := by unfold Carrier.setPort; split <;> rfl
@[simp] theorem Carrier.setPort_arrayId : (c.setPort p x).arrayId = c.arrayId := by unfold Carrier.setPort; split <;> rfl
@[simp] theorem Carrier.setPort_sequencer : (c.setPort p x).sequencer = c.sequencer := by unfold Carrier.setPort; split <;> rfl

@[simp] theorem State.car_modPort_same (s : State) (slot : Nat) (f : CPort → CPort) :
    (s.modPort slot p f).car slot = (s.car slot).setPort p (f ((s.car slot).port p)) := s.car_modCar_same slot _

@[simp] theorem State.byte_modCar (s : State) (slot : Nat) (f : Carrier → Carrier) (a : Nat) : (s.modCar slot f).byte a = s.byte a := rfl
@[simp] theorem State.byte_modPort (s : State) (slot p : Nat) (f : CPort → CPort) (a : Nat) : (s.modPort slot p f).byte a = s.byte a := rfl

theorem State.ownPort_lt (s : State) : s.ownPort < 2 := by unfold State.ownPort; split <;> decide

end Port

/-! ### Enabling and reset (R390, R391) -/

section Enabling
variable {s : State} {slot port : Nat}

theorem exec_carrierEnable {cplBase cplSize : Nat} {subBase subSize : List Nat} (hslot : slot < 96) (hport : port < 2)
    (hl : ((s.car slot).port port).linkUp = true) (he : ((s.car slot).port port).enable = false) (hcpl : ringSize cplSize = true)
    (hbase : cplBase % 4096 = 0) (hb : subBase.length = 4) (hz : subSize.length = 4) (hzs : subSize.all ringSize = true)
    (hbs : subBase.all (fun a => a % 4096 == 0) = true) : exec (.carrierEnable slot port cplBase cplSize subBase subSize) s =
      .next (s.modPort slot port fun p =>
        { p with enable := true, ready := true, cplBase := cplBase, cplSize := cplSize, subBase := subBase, subSize := subSize }) := by
  show execCarrierEnable slot port cplBase cplSize subBase subSize s = _
  rw [execCarrierEnable, if_pos ⟨hslot, hport⟩, State.enablePort, if_neg]
  simp only [hl, he, hcpl, hbase, hb, hz, hzs, hbs]
  decide

/-- A port's dropped commands are gone. -/
theorem State.dropPort_fetched (x : CCmd) (hx : x ∈ ((s.dropPort slot port).car slot).fetched) : x.port ≠ port := by
  rw [State.dropPort, State.car_modCar_same] at hx
  simpa using (List.mem_filter.1 hx).2

theorem State.resetCarrierPort_spec :
    let c := (s.resetCarrierPort slot port).car slot
    let p := c.port port
    p.enable = false ∧ p.ready = false ∧ p.subTail = [0, 0, 0, 0] ∧ p.subHead = [0, 0, 0, 0] ∧ p.cplHead = 0 ∧ p.cplTail = 0 ∧
      ∀ x ∈ c.fetched, x.port ≠ port := by
  simp only [State.resetCarrierPort, State.car_modCar_same, Carrier.port_setPort_same, Carrier.setPort_fetched]
  exact ⟨trivial, trivial, trivial, trivial, trivial, trivial, State.dropPort_fetched⟩

theorem exec_carrierReset (hslot : slot < 96) (hport : port < 2) : exec (.carrierReset slot port) s = .next (s.resetCarrierPort slot port) :=
  congrArg Host.Outcome.next (if_pos ⟨hslot, hport⟩)

end Enabling

/-! ### Fetching and completion (R391 to R393, R399) -/

section Rings
variable {s : State} {slot r : Nat}

theorem exec_carrierSubTail_own (hslot : slot < 96) (hready : ((s.car slot).port s.ownPort).ready = true)
    (hl : ((s.car slot).port s.ownPort).linkUp = true) (hr : ((s.car slot).port s.ownPort).nextRing = some r)
    (ha : s.portPasses slot (((s.car slot).port s.ownPort).subBase.getD r 0 + 64 * ((s.car slot).port s.ownPort).subHead.getD r 0) 64 false = true) :
    exec (.carrierSubTail slot s.ownPort r []) s = .next (let own := (s.car slot).port s.ownPort
      let a := own.subBase.getD r 0 + 64 * own.subHead.getD r 0
      (s.correct a 64).modCar slot (Carrier.take s.ownPort r ((own.subHead.getD r 0 + 1) % max 1 (own.subSize.getD r 0)) (s.bytes a 64))) := by
  show execCarrierSubTail slot s.ownPort r [] s = _
  simp only [execCarrierSubTail, State.fetchEntry, hready, hl, hr, ha]
  simp [hslot.not_ge, s.ownPort_lt.not_ge]

/-- The other head's port: its carrier's entry comes with the command. -/
theorem exec_carrierSubTail_other {ring : Nat} (hslot : slot < 96) (hl : (s.car slot).ident.level ≠ 0) (hr : ring ≤ 3) (entry : List Byte) :
    exec (.carrierSubTail slot (1 - s.ownPort) ring entry) s = .next (s.modCar slot
      (Carrier.take (1 - s.ownPort) ring (((s.car slot).port (1 - s.ownPort)).subHead.getD ring 0 + 1) entry)) := by
  have hlt := s.ownPort_lt
  have hother : 1 - s.ownPort ≠ s.ownPort := by omega
  show execCarrierSubTail slot (1 - s.ownPort) ring entry s = _
  rw [execCarrierSubTail, if_neg (by omega), if_neg hother, State.fetchOther, if_neg (by simp [hl, hr])]

theorem exec_carrierCplHead {port : Nat} (hslot : slot < 96) (hport : port < 2) (head : Nat) : exec (.carrierCplHead slot port head) s =
    .next (s.modPort slot port fun p => p.release (if port = s.ownPort then p.readAt else head % max 1 p.cplSize)) :=
  congrArg Host.Outcome.next (if_neg (by omega))

variable {i : Nat} {x : CCmd}

theorem exec_carrierCommandComplete_other {r : Nat × Nat × Nat} (hslot : slot < 96) (hx : (s.car slot).fetched[i]? = some x)
    (ho : x.outcome = some r) (hp : x.port ≠ s.ownPort) : exec (.carrierCommandComplete slot i none) s =
      .next (s.modCar slot fun c => { c with fetched := c.fetched.eraseIdx i }) := by
  obtain ⟨st, bytes, info⟩ := r
  show execCarrierCommandComplete slot i none s = _
  simp only [execCarrierCommandComplete, if_pos hslot, State.completeEntry, hx, ho, if_pos hp]

/-- A completion of this head's port: its entry is written, the command is off the list, and an interrupt is owed (R392). -/
theorem exec_carrierCommandComplete_own {st bytes info : Nat} (hslot : slot < 96) (hx : (s.car slot).fetched[i]? = some x)
    (ho : x.outcome = some (st, bytes, info)) (hp : x.port = s.ownPort)
    (hroom : ((s.car slot).port s.ownPort).cplHeld < ((s.car slot).port s.ownPort).cplSize) (hready : ((s.car slot).port s.ownPort).ready = true)
    {a : Nat} {entry : List Byte} (ha : a = ((s.car slot).port s.ownPort).cplBase + 32 * ((s.car slot).port s.ownPort).cplTail)
    (he : entry = completionEntry x st bytes info ((s.car slot).port s.ownPort).phase) (hpass : s.portPasses slot a entry.length true = true) :
    exec (.carrierCommandComplete slot i none) s = .next (((s.performWrite a (entry.map fun b => (true, b))).modCar slot fun c =>
      { c with fetched := c.fetched.eraseIdx i }).modPort slot s.ownPort CPort.wrote) := by
  subst ha he
  show execCarrierCommandComplete slot i none s = _
  simp only [execCarrierCommandComplete, if_pos hslot, State.completeEntry, hx, ho, hp, State.writeEntry, State.portWrite, if_pos hpass]
  simp [hroom.not_ge, hready]

/-- The port after the entry is written. -/
theorem State.port_completed (a : Nat) (l : List (Bool × Byte)) : ((((s.performWrite a l).modCar slot fun c =>
    { c with fetched := c.fetched.eraseIdx i }).modPort slot s.ownPort CPort.wrote).car slot).port s.ownPort = ((s.car slot).port s.ownPort).wrote := by
  rw [State.car_modPort_same, Carrier.port_setPort_same, State.car_modCar_same, State.car_performWrite]
  rfl

theorem State.byte_performWrite_all (s : State) (a : Nat) (l : List Byte) (y : Nat) :
    (s.performWrite a (l.map fun b => (true, b))).byte y = if a ≤ y ∧ y < a + l.length then l.getD (y - a) 0 else s.byte y := by
  rw [State.byte_performWrite, List.length_map]
  by_cases h : a ≤ y ∧ y < a + l.length
  · have hlt : y - a < l.length := by omega
    rw [if_pos h, if_pos ⟨h.1, h.2, by simp [List.getD, hlt]⟩]
    simp [List.getD, hlt]
  · rw [if_neg h, if_neg fun hc => h ⟨hc.1, hc.2.1⟩]

/-- A message interrupt that is owed and due wakes the sequencer, which takes the entries (R392). -/
theorem exec_carrierMsi (hslot : slot < 96) (hm : ((s.car slot).port s.ownPort).msiOwed = true)
    (hd : ((s.car slot).port s.ownPort).lastMsi = 0 ∨ ((s.car slot).port s.ownPort).lastMsi.toNat + 2000 ≤ s.elapsed.toNat) :
    exec (.carrierMsi slot) s = .next (((s.modPort slot s.ownPort fun p => { p with msiOwed := false, lastMsi := s.elapsed }).modCore
      (116 + (s.car slot).sequencer) fun k => { k with irqPend := k.irqPend ||| 0x20000 }).takeEntries slot ((s.car slot).port s.ownPort).cplHeld) := by
  have hdue : ¬ (¬ ((s.car slot).port s.ownPort).msiOwed = true ∨ (((s.car slot).port s.ownPort).lastMsi ≠ 0 ∧
      s.elapsed.toNat < ((s.car slot).port s.ownPort).lastMsi.toNat + 2000)) := by
    rintro (ho | ⟨h0, hlt⟩)
    · exact ho hm
    · exact hd.elim h0 hlt.not_ge
  show execCarrierMsi slot s = _
  rw [execCarrierMsi, if_pos hslot, State.carrierMsi, if_neg hdue]
  simp only [State.car_modPort_same, Carrier.setPort_sequencer]

end Rings

/-! ### Entering and leaving service (R388, R400, R409) -/

section Service
variable {s : State} {slot : Nat}

theorem exec_carrierPortLoss {port : Nat} (hslot : slot < 96) (hport : port < 2) (power : Bool) :
    exec (.carrierPortLoss slot port power) s = .next (s.losePort slot port power) := congrArg Host.Outcome.next (if_pos ⟨hslot, hport⟩)

section LinkUp
variable (s slot) (width : Nat) (ident : CarrierIdent) (array : List Byte) (number : Nat)

/-- A carrier whose link has come up shows what it brings. -/
theorem State.car_linkCarrier : let c := (s.linkCarrier slot width ident array number).car slot
    c.ident = ident ∧ c.number = number ∧ c.arrayId = padTo 16 array := by
  have hcar : ∃ base : Carrier, base.ident = ident ∧ base.number = number ∧ base.arrayId = padTo 16 array ∧
      (s.linkCarrier slot width ident array number).car slot =
        { (base.setPort s.ownPort { base.port s.ownPort with linkUp := true }) with
          width := width, sequencer := s.servingSequencer slot, faultAt := Option.none, inService := false } := by
    by_cases h : (s.car slot).ident.serial = ident.serial ∧ (s.car slot).ident.level ≠ 0
    · exact ⟨_, rfl, rfl, rfl, (Sparse.get_set_same _ slot _ _).trans (by rw [if_pos h])⟩
    · exact ⟨_, rfl, rfl, rfl, (Sparse.get_set_same _ slot _ _).trans (by rw [if_neg h])⟩
  obtain ⟨base, hident, hnumber, harray, heq⟩ := hcar
  simp [heq, hident, hnumber, harray]

end LinkUp

variable {width : Nat} {ident : CarrierIdent} {array : List Byte} {number : Nat} {agrees : Bool}

theorem exec_carrierLinkUp (hreset : s.releasePerst = s) (hu : s.slotUsable slot = true) (hl : ((s.car slot).port s.ownPort).linkUp = false) :
    exec (.carrierLinkUp slot width ident array number agrees) s = .next ((s.linkCarrier slot width ident array number).admitCarrier slot agrees) := by
  show execCarrierLinkUp slot width ident array number agrees s = _
  rw [execCarrierLinkUp, hreset, State.carrierUp, if_pos ⟨hu, by simp [hl]⟩]

/-- Only a carrier of level 1 is let in. -/
theorem State.admitCarrier_otherLevel (h : (s.car slot).ident.level ≠ 1) : s.admitCarrier slot agrees = s := if_neg fun hc => h hc.1

theorem State.admitCarrier_fits (h : (s.car slot).ident.level = 1) (hn : (s.car slot).number = 0xFFFF ∨ (s.car slot).arrayId = s.arrayId)
    (ha : s.hlt.mode ≠ .paired ∨ agrees = true) : s.admitCarrier slot agrees =
      ((s.modCar slot fun c => { c with inService := true }).autoLabel slot).takeJoined slot :=
  if_pos ⟨h, hn.imp_left fun hb => by simp [Carrier.blank, hb], ha⟩

theorem exec_carrierOutOfService_lost (hslot : slot < 96) (hl : ((s.car slot).port s.ownPort).linkUp = false) :
    exec (.carrierOutOfService slot false) s = .next (s.carrierLeaves slot 3) := by
  show execCarrierOutOfService slot false s = _
  simp [execCarrierOutOfService, hslot.not_ge, hl]

theorem exec_carrierOutOfService_fatal (hslot : slot < 96) (hl : ((s.car slot).port s.ownPort).linkUp = true) :
    exec (.carrierOutOfService slot true) s =
      .next ((s.modPort slot s.ownPort fun p => { p with fatal := true }).carrierLeaves slot 1) := by
  have hport : (s.modPort slot s.ownPort fun p => { p with fatal := true }).ownPort = s.ownPort := rfl
  show execCarrierOutOfService slot true s = _
  simp [execCarrierOutOfService, hslot.not_ge, hport, hl]

theorem exec_carrierCommandTimeout (hslot : slot < 96) (ht : s.timedOut slot = true) : exec (.carrierCommandTimeout slot) s =
    .next ((s.bump (rMedCar (s.car slot).number + 0x10) 1).carrierLeaves slot 1) := congrArg Host.Outcome.next (if_pos ⟨hslot, ht⟩)

theorem exec_eraseRequestRepeat {r : EraseReq}
    (hr : s.eraseOut.find? (fun r => decide (100000000 ≤ s.elapsed.toNat - r.sentAt.toNat)) = some r) : exec .eraseRequestRepeat s =
      .next (({ s with eraseOut := mapWhere r.same (fun x => { x with sentAt := s.elapsed }) s.eraseOut } : State).tellPartner msgErase r.bytes) := by
  show execEraseRequestRepeat s = _
  simp only [execEraseRequestRepeat, hr]

end Service

/-- Settles O43: each command of a port and each change of a carrier's service by its own equation above. -/
theorem carrierPorts : Obligations.CarrierPorts := by
  unfold Obligations.CarrierPorts
  intro s slot hslot
  dsimp only
  refine ⟨fun port cplBase cplSize subBase subSize hport hl he hcpl hbase hb hz hzs hbs =>
      exec_carrierEnable hslot hport hl he hcpl hbase hb hz hzs hbs,
    fun port hport => ⟨_, exec_carrierReset hslot hport, State.resetCarrierPort_spec⟩,
    fun r hready hl hr ha => exec_carrierSubTail_own hslot hready hl hr ha,
    fun ring entry hl hr => exec_carrierSubTail_other hslot hl hr entry,
    fun port head hport => exec_carrierCplHead hslot hport head,
    fun i x st bytes info hx ho hp hroom hready hpass =>
      ⟨_, exec_carrierCommandComplete_own hslot hx ho hp hroom hready rfl rfl hpass, ?fetched, fun a => ?bytes, ?owed, ?held⟩,
    fun i x r hx ho hp => exec_carrierCommandComplete_other hslot hx ho hp,
    fun hm hd => exec_carrierMsi hslot hm hd,
    ⟨fun port hport => exec_carrierPortLoss hslot hport false, fun port hport => exec_carrierPortLoss hslot hport true⟩,
    fun width ident array number agrees hreset hu hl => ⟨fun hlevel => ?other, fun hlevel ha hn => ?enters⟩,
    fun hl hf => exec_carrierOutOfService_lost hslot hl, fun hl => exec_carrierOutOfService_fatal hslot hl,
    fun ht => exec_carrierCommandTimeout hslot ht, fun r hr => ⟨_, exec_eraseRequestRepeat hr, rfl⟩⟩
  case fetched => simp
  case bytes => rw [State.byte_modPort, State.byte_modCar, State.byte_performWrite_all]
  case owed => rw [State.port_completed, CPort.wrote]
  case held => rw [State.port_completed, CPort.wrote]
  case other =>
    obtain ⟨hident, -, -⟩ := s.car_linkCarrier slot width ident array number
    exact (exec_carrierLinkUp hreset hu hl).trans (congrArg _ (State.admitCarrier_otherLevel (by rwa [hident])))
  case enters =>
    obtain ⟨hident, hnumber, harray⟩ := s.car_linkCarrier slot width ident array number
    refine (exec_carrierLinkUp hreset hu hl).trans (congrArg _ (State.admitCarrier_fits (by rwa [hident]) ?_ ha))
    rw [hnumber, harray]
    exact hn

end Sys2Proof.Machine
end

section
/-! SUPPORT. A packet's way to its queue pair and through its receive sequence, and the answers to its requests (R416 to R436, R440). -/

namespace Sys2Proof.Machine

/-! ### The way to a queue pair (R416, R430, R436, R563) -/

section Arrival
variable {s : State} {q : Nat} {p : RxPkt}

@[simp] theorem State.touchQp_elapsed : (s.touchQp q).elapsed = s.elapsed := by unfold State.touchQp; split <;> rfl
@[simp] theorem State.qp_touchQp (n : Nat) : (s.touchQp q).qp n = s.qp n := by unfold State.touchQp; split <;> rfl

theorem State.rx_conflict (hp : p.path = 0) (hc : s.twn.strapConflict = true) : s.rx q p = s.discardFrame := if_pos ⟨hp, hc⟩

theorem State.rx_beyondPorts (hp : s.ethPorts < p.path) : s.rx q p = s :=
  (if_neg fun h => absurd h.1 (Nat.ne_zero_of_lt hp)).trans (if_pos hp)

/-- A packet of a front-end port the device has is counted, and goes by its queue pair. -/
theorem State.rx_port (h0 : p.path ≠ 0) (hp : p.path ≤ s.ethPorts) : s.rx q p =
    if (s.countRx (p.path - 1)).reg rAtpQpMax ≤ q then (s.countRx (p.path - 1)).bump rAtpDropQp 1
    else if s.atp.cached.contains q then (s.countRx (p.path - 1)).rxOnChip q p
    else (s.countRx (p.path - 1)).rxWait q p := by
  rw [State.rx, if_neg fun h => h0 h.1, if_neg hp.not_gt, if_neg h0]
  rfl

theorem State.rxOnChip_dropped (h : (s.qp q).active = false ∨ (s.qp q).conn ≠ p.conn) : s.rxOnChip q p = s.bump rAtpDropQp 1 :=
  if_pos (h.imp_left (by simp [·]))

/-- A packet of the connection that carries no congestion mark goes by its OPCODE. -/
theorem State.rxOnChip_taken (ha : (s.qp q).active = true) (hc : (s.qp q).conn = p.conn) (hm : p.marked = false) : s.rxOnChip q p =
    match p.op with
    | 3 => (s.touchQp q).rxResponse q p
    | 4 => (s.touchQp q).rxAck q p
    | 5 => (s.touchQp q).rxNak q p.psn p.aux
    | 6 => (s.touchQp q).rxCnp q
    | _ => (s.touchQp q).rxSequenced q p := by
  have hmark : (s.touchQp q).noteMark q p = s.touchQp q := if_neg fun h => by simp [hm] at h
  rw [State.rxOnChip, if_neg (by simp [ha, hc])]
  simp only [hmark] <;> rfl

/-- A packet of this path and connection reaches queue pair `q`: the path is a port of the device, and the context is on chip and in service. -/
structure State.Reaches (s : State) (path q conn : Nat) : Prop where
  isPort : path ≠ 0
  inPorts : path ≤ s.ethPorts
  inTable : q < (s.countRx (path - 1)).reg rAtpQpMax
  onChip : s.atp.cached.contains q = true
  active : (s.qp q).active = true
  conn_eq : (s.qp q).conn = conn

/-- What a packet is taken in: it is counted, and its context is now the latest used. -/
def State.hearing (path q : Nat) (s : State) : State := (s.countRx (path - 1)).touchQp q

@[simp] theorem State.qp_hearing (path n : Nat) : (s.hearing path q).qp n = s.qp n := State.qp_touchQp n

variable {path conn : Nat} (h : s.Reaches path q conn) (hpath : p.path = path) (hconn : p.conn = conn) (hm : p.marked = false)
include h hpath hconn hm

theorem State.rx_taken : s.rx q p = match p.op with
    | 3 => (s.hearing path q).rxResponse q p
    | 4 => (s.hearing path q).rxAck q p
    | 5 => (s.hearing path q).rxNak q p.psn p.aux
    | 6 => (s.hearing path q).rxCnp q
    | _ => (s.hearing path q).rxSequenced q p := by
  subst hpath
  rw [State.rx_port h.isPort h.inPorts, if_neg h.inTable.not_ge, if_pos h.onChip]
  exact State.rxOnChip_taken h.active (h.conn_eq.trans hconn.symm) hm

/-- WRITE, READ_REQ and REPEAT are packets of the receive sequence. -/
theorem State.rx_sequenced (hop : p.op = 1 ∨ p.op = 2 ∨ p.op = 7) : s.rx q p = (s.hearing path q).rxSequenced q p := by
  rw [State.rx_taken h hpath hconn hm]
  rcases hop with hop | hop | hop <;> simp only [hop]

end Arrival

/-! ### The receive sequence (R420, R421, R431) -/

section Sequence
variable {s : State} {q : Nat} {p : RxPkt}

/-- What a packet that is new to the window does: it is placed, answered, or held for its turn. -/
def State.takeSequenced (q : Nat) (p : RxPkt) (s : State) : State :=
  if p.op = 1 ∧ ¬ p.last then s.rxWrite q p
  else if p.op = 7 then s.rxRepeat q p
  else if p.op = 2 ∧ p.relaxed then s.rxRead q p true
  else s.modQp q fun x => { x with heldPkts := x.heldPkts ++ [p] }

theorem State.takeSequenced_write (ho : p.op = 1) (hl : p.last = false) : s.takeSequenced q p = s.rxWrite q p := by
  simp [State.takeSequenced, ho, hl]

theorem State.takeSequenced_repeat (ho : p.op = 7) : s.takeSequenced q p = s.rxRepeat q p := by
  simp [State.takeSequenced, ho]

theorem State.takeSequenced_relaxed (ho : p.op = 2) (hr : p.relaxed = true) : s.takeSequenced q p = s.rxRead q p true := by
  simp [State.takeSequenced, ho, hr]

/-- A write-last and an ordered READ_REQ wait for their turn (R421, R422). -/
theorem State.takeSequenced_held (h : p.op = 1 ∧ p.last = true ∨ p.op = 2 ∧ p.relaxed = false) :
    s.takeSequenced q p = s.modQp q fun x => { x with heldPkts := x.heldPkts ++ [p] } := by
  rcases h with ⟨ho, hl⟩ | ⟨ho, hr⟩
  · simp [State.takeSequenced, ho, hl]
  · simp [State.takeSequenced, ho, hr]

/-- The held packets whose turn has come run, and a gap below the packet is acknowledged. -/
def State.runTurn (q : Nat) (gap : Bool) (t : State) : State :=
  let u := t.runHeld q ((t.qp q).heldPkts.length)
  if gap = true then u.sendAck q false else u

variable {x : QPair} (hx : s.qp q = x)
include hx

theorem State.rxSequenced_new (hd : psnFrom x.expect p.psn < x.window)
    (hn : ¬ (x.got.any (fun g => g.1 == p.psn) = true ∨ x.heldPkts.any (fun h => h.psn == p.psn) = true)) :
    s.rxSequenced q p = (s.takeSequenced q p).runTurn q (x.gapBelow p.psn) := by
  subst hx
  obtain ⟨hg, hh⟩ := not_or.1 hn
  rw [State.rxSequenced, if_pos hd, if_neg hg, if_neg hh]
  rfl

theorem State.rxSequenced_below (hd : x.window ≤ psnFrom x.expect p.psn) (hb : psnBelow p.psn x.expect = true) :
    s.rxSequenced q p = if p.op = 2 then s.rxRead q p false else s.sendAck q false := by
  subst hx
  rw [State.rxSequenced, if_neg hd.not_gt, if_pos hb]

theorem State.rxSequenced_above (hd : x.window ≤ psnFrom x.expect p.psn) (hb : psnBelow p.psn x.expect = false) :
    s.rxSequenced q p = s.bump rAtpDropWindow 1 := by
  subst hx
  rw [State.rxSequenced, if_neg hd.not_gt, if_neg (by simp [hb])]

omit hx

theorem State.rxWrite_refused {why : Nat} (h : s.regionRefusal q p.key p.offset p.data.length true = some why) :
    s.rxWrite q p = ((s.nak q p.psn why).modQp q fun x => { x with refusedSince := true }).gotPsns q [p.psn] false := by
  simp only [State.rxWrite, h]

theorem State.rxWrite_placed (h : s.regionRefusal q p.key p.offset p.data.length true = none) : s.rxWrite q p =
    let w := s.placeData p.key p.offset p.data
    if w.1 = true then (w.2.gotPsns q [p.psn] true).notePlaced q p.fin else w.2 := by
  simp only [State.rxWrite, h]

theorem State.rxRead_again (h : s.regionRefusal q p.key p.offset p.aux false = none) : s.rxRead q p false = s.readResponses q p := by
  simp [State.rxRead, h]

end Sequence

/-! ### Answers (R422, R433, R434) -/

section Answers
variable {s : State} {q psn : Nat} {p : RxPkt} {r : WorkReq} {x : QPair} (hx : s.qp q = x)
include hx

/-- A READ_RESP of a wrong length ends the request that waits for it. -/
theorem State.rxResponse_length (hr : x.reqOf p.psn = some r) (ho : r.op = 3)
    (hs : x.psns.any (fun y => y.psn == p.psn && y.state == .sent) = true)
    (hl : p.data.length ≠ min x.payload (r.len - psnFrom r.first p.psn * x.payload)) : s.rxResponse q p =
      ((s.markReq q r.seq stLengthMismatch).answerPsns q (fun n => decide (psnFrom r.first n < r.count)) false).pump q := by
  subst hx
  simp only [State.rxResponse, hr]
  rw [if_neg (by simp [ho, hs]), if_pos hl]

theorem State.rxResponse_placed (hr : x.reqOf p.psn = some r) (ho : r.op = 3)
    (hs : x.psns.any (fun y => y.psn == p.psn && y.state == .sent) = true)
    (hl : p.data.length = min x.payload (r.len - psnFrom r.first p.psn * x.payload))
    (hw : (s.writeSpan srcAtp (r.localAddr + psnFrom r.first p.psn * x.payload) p.data).1 = none) : s.rxResponse q p =
      (((s.writeSpan srcAtp (r.localAddr + psnFrom r.first p.psn * x.payload) p.data).2.2.answerPsns q (fun n => n == p.psn) true).pump q) := by
  subst hx
  simp only [State.rxResponse, hr]
  rw [if_neg (by simp [ho, hs]), if_neg (not_not.2 hl)]
  simp only [hw]

theorem State.rxCnp_halves {now : Word64} (hcc : x.cc = true) (hnow : s.elapsed = now) :
    s.rxCnp q = s.modQp q fun x => { x with rate := max 1000 (x.rate / 2), rateAt := now } := by
  subst hx hnow
  exact if_pos hcc

theorem State.rxCnp_uncontrolled (hcc : x.cc = false) : s.rxCnp q = s := by
  subst hx
  exact if_neg (Bool.eq_false_iff.1 hcc)

theorem State.rxNak_counts {reason : Nat} (ha : x.psns.any (fun y => y.psn == psn && y.state != .unsent) = true)
    (hr : x.reqOf psn = some r) :
    s.rxNak q psn reason = ((s.markReq q r.seq (0xFF + reason)).answerPsns q (fun n => n == psn) false).pump q := by
  subst hx
  rw [State.rxNak, if_neg (not_not.2 ha), hr]

end Answers

/-! ### Bad packets (R417, R440) -/

section Bad
variable {s : State} {path q st : Nat}

theorem exec_badAvenfyPacket (hp : path ≤ s.ethPorts) : exec (.badAvenfyPacket path q st) s =
    .next (let b := (if path = 0 then s else s.countRx (path - 1)).bump rAtpRxBad 1
      if st ≠ 2 ∧ st ≠ 0x105 then b
      else if b.regBit rAtpErrStatus 0 then b.setRegBit rAtpErrStatus 1
      else ((b.setReg rAtpErrStatus (1 + b.reg rAtpErrStatus / 2 % 2 * 2 + st * 2 ^ 16)).setReg rAtpErrQp
        (q % 2 ^ 20 + path % 256 * 2 ^ 20)).raiseVector 6) := congrArg Host.Outcome.next (if_neg hp.not_gt)

/-- The captured error names the queue pair and the path, and stands. -/
theorem State.reg_capturedPacket (b : State) (old : Nat) :
    let t := (b.setReg rAtpErrStatus (1 + old % 2 * 2 + st * 2 ^ 16)).setReg rAtpErrQp (q % 2 ^ 20 + path % 256 * 2 ^ 20)
    t.reg rAtpErrQp = q % 2 ^ 20 + path % 256 * 2 ^ 20 ∧ t.regBit rAtpErrStatus 0 = true := by
  have hother : rAtpErrStatus ≠ rAtpErrQp := by decide
  have hodd : (1 + old % 2 * 2 + st * 2 ^ 16) % 2 ^ 32 / 2 ^ 0 % 2 = 1 := by omega
  refine ⟨?_, ?_⟩
  · rw [State.reg_setReg, if_pos rfl]
    omega
  · rw [State.regBit, State.reg_setReg, if_neg hother, State.reg_setReg, if_pos rfl, hodd]
    rfl

end Bad

/-- Settles O50: a packet on the way to its queue pair, the PSNs of the receive sequence, and the answers, each by its equation above. -/
theorem packetsReceived : Obligations.PacketsReceived := by
  intro s path q psn conn r x write
  have hcnp {t : State} (h : s.rx q (RxPkt.of 6 path 0 conn) = t) : exec (.atpCnp path q conn) s = .next t := congrArg Host.Outcome.next h
  refine ⟨fun hp => hcnp (State.rx_beyondPorts hp), fun h0 hp hq => hcnp ((State.rx_port h0 hp).trans (if_pos hq)),
    fun h0 hc => hcnp (State.rx_conflict h0 hc),
    fun h0 hp hq hc => hcnp ((State.rx_port h0 hp).trans ((if_neg hq.not_ge).trans (if_neg (Bool.eq_false_iff.1 hc)))),
    fun h0 hp hq hc => ⟨fun hx => ?dropped, fun ha hconn => ?taken⟩, fun st hp => ?bad⟩
  case dropped =>
    exact hcnp ((State.rx_port h0 hp).trans ((if_neg hq.not_ge).trans ((if_pos hc).trans (State.rxOnChip_dropped hx))))
  case taken =>
    have h : s.Reaches path q conn := ⟨h0, hp, hq, hc, ha, hconn⟩
    have hx : (s.hearing path q).qp q = s.qp q := State.qp_hearing path q
    have hsend {t : State} {i : Instr} {p : RxPkt} (hi : exec i s = .next (s.rx q p)) (ht : s.rx q p = t) : exec i s = .next t := ht ▸ hi
    have hnew {p : RxPkt} {t : State} (hpath : p.path = path) (hpc : p.conn = conn) (hm : p.marked = false) (hpsn : p.psn = psn)
        (hop : p.op = 1 ∨ p.op = 2 ∨ p.op = 7) (hd : psnFrom x.expect psn < x.window)
        (hn : ¬ (x.got.any (fun g => g.1 == psn) = true ∨ x.heldPkts.any (fun h => h.psn == psn) = true))
        (ht : (s.hearing path q).takeSequenced q p = t) : s.rx q p = t.runTurn q (x.gapBelow psn) := by
      subst hpsn ht
      exact (State.rx_sequenced h hpath hpc hm hop).trans (State.rxSequenced_new hx hd hn)
    refine ⟨fun hd hn key off data fin => ⟨fun why hw => ?refused, fun hw => ?placed, ?last⟩,
      fun hd hb key off data last fin => ?above, fun hd hb key off data last fin => ?below,
      fun key off n => ⟨fun hd hn => ⟨?relaxed, ?ordered, fun fin => ?repetition⟩, fun hd hb relaxed => ?again,
        State.rxRead_again (p := { RxPkt.of 2 path psn conn with key := key, offset := off, aux := n })⟩,
      fun r data hr ho hs => ⟨fun hl => ?length, fun hl hw => ?response⟩, fun base bitmap => ?ack, fun r reason hs hr => ?nak,
      fun hcc => ?slower, fun hcc => ?same⟩
    case refused =>
      exact hsend rfl (hnew rfl rfl rfl rfl (.inl rfl) hd hn ((State.takeSequenced_write rfl rfl).trans (State.rxWrite_refused hw)))
    case placed =>
      exact hsend rfl (hnew rfl rfl rfl rfl (.inl rfl) hd hn ((State.takeSequenced_write rfl rfl).trans (State.rxWrite_placed hw)))
    case last => exact hsend rfl (hnew rfl rfl rfl rfl (.inl rfl) hd hn (State.takeSequenced_held (.inl ⟨rfl, rfl⟩)))
    case above =>
      exact hsend rfl ((State.rx_sequenced h rfl rfl rfl (.inl rfl)).trans (State.rxSequenced_above hx hd hb))
    case below =>
      exact hsend rfl ((State.rx_sequenced h rfl rfl rfl (.inl rfl)).trans ((State.rxSequenced_below hx hd hb).trans (if_neg (show ¬ 1 = 2 by decide))))
    case relaxed => exact hsend rfl (hnew rfl rfl rfl rfl (.inr (.inl rfl)) hd hn (State.takeSequenced_relaxed rfl rfl))
    case ordered => exact hsend rfl (hnew rfl rfl rfl rfl (.inr (.inl rfl)) hd hn (State.takeSequenced_held (.inr ⟨rfl, rfl⟩)))
    case repetition => exact hsend rfl (hnew rfl rfl rfl rfl (.inr (.inr rfl)) hd hn (State.takeSequenced_repeat rfl))
    case again =>
      exact hsend rfl ((State.rx_sequenced h rfl rfl rfl (.inr (.inl rfl))).trans ((State.rxSequenced_below hx hd hb).trans (if_pos rfl)))
    case length => exact hsend rfl ((State.rx_taken h rfl rfl rfl).trans (State.rxResponse_length hx hr ho hs hl))
    case response => exact hsend rfl ((State.rx_taken h rfl rfl rfl).trans (State.rxResponse_placed hx hr ho hs hl hw))
    case ack => exact hsend rfl (State.rx_taken h rfl rfl rfl)
    case nak => exact hsend rfl ((State.rx_taken h rfl rfl rfl).trans (State.rxNak_counts hx hs hr))
    case slower => exact hsend rfl ((State.rx_taken h rfl rfl rfl).trans (State.rxCnp_halves hx hcc State.touchQp_elapsed))
    case same => exact hsend rfl ((State.rx_taken h rfl rfl rfl).trans (State.rxCnp_uncontrolled hx hcc))
  case bad =>
    simp only [exec_badAvenfyPacket hp]
    generalize (if path = 0 then s else s.countRx (path - 1)).bump rAtpRxBad 1 = b
    refine ⟨fun h2 h5 => congrArg _ (if_pos ⟨h2, h5⟩), fun hst hfree => ⟨_, ?_, b.reg_capturedPacket (st := st) (b.reg rAtpErrStatus / 2)⟩⟩
    exact congrArg _ ((if_neg (by omega)).trans (if_neg (by simp [hfree])))

end Sys2Proof.Machine
end

section
/-! SUPPORT. What a head stands on while commands end around it: its sets, its ledger, its transport, its mode and
its keys (R447, R448, R509, R529). -/

namespace Sys2Proof.Machine

/-! ### What stands -/

/-- The part of a state that ending commands, queues and links does not touch: custody, the running ledger, the
transport's queue pairs, the modes and the keeper's keys. -/
structure Standing where
  drive : Bool
  setA : Bool
  setB : Bool
  govCause : Nat
  running : Bool
  atp : Atp
  hlt : Hlt
  kpr : Keeper
  digestKeys : Sparse (List Byte)
  cipherSlots : Sparse CSlot

def State.standing (s : State) : Standing :=
  { drive := s.twn.drive, setA := s.twn.setA, setB := s.twn.setB, govCause := s.twn.govCause, running := s.acc.running, atp := s.atp,
    hlt := s.hlt, kpr := s.kpr, digestKeys := s.digestKeys, cipherSlots := s.cipherSlots }

theorem foldl_standing {β : Type} {f : State → β → State} (hf : ∀ t x, (f t x).standing = t.standing) (l : List β) (s : State) :
    (l.foldl f s).standing = s.standing :=
  List.foldlRecOn (motive := fun t : State => t.standing = s.standing) l f rfl fun _ h _ _ => (hf _ _).trans h

section Kept
variable {s : State}

/-! ### Registers, vectors and memory -/

@[simp] theorem State.setReg_standing (a v : Nat) : (s.setReg a v).standing = s.standing := rfl
@[simp] theorem State.bump_standing (a n : Nat) : (s.bump a n).standing = s.standing := rfl
@[simp] theorem State.bump64_standing (a n : Nat) : (s.bump64 a n).standing = s.standing := rfl

@[simp] theorem State.raiseVector_standing (v : Nat) : (s.raiseVector v).standing = s.standing := by
  unfold State.raiseVector
  split <;> rfl

theorem State.countDamage_standing (a : Nat) : (s.countDamage a).standing = s.standing := by
  unfold State.countDamage
  split_ifs
  · rw [State.bump_standing]; rfl
  · split
    · rw [State.setReg_standing]
    · rfl
  · rw [State.bump_standing]
  · rfl

@[simp] theorem State.busError_standing (kind : BusKind) (src a : Nat) : (s.busError kind src a).standing = s.standing := by
  have hcapture (t : State) : (t.captureError kind src a).standing = t.standing := by
    simp only [State.captureError]
    split
    · rfl
    · exact State.raiseVector_standing 6
  rw [State.busError, hcapture]
  split
  · exact s.countDamage_standing a
  · rfl

@[simp] theorem State.performWrite_standing (a : Nat) (l : List (Bool × Byte)) : (s.performWrite a l).standing = s.standing := by
  rw [State.performWrite_only]
  rfl

@[simp] theorem State.hostWrite_standing (src bus : Nat) (bs : List Byte) : (s.hostWrite src bus bs).2.standing = s.standing := by
  unfold State.hostWrite
  dsimp only
  split
  · exact State.busError_standing ..
  · exact State.performWrite_standing ..

/-! ### Control rings -/

@[simp] theorem State.modCring_standing (r : Nat) (f : Ring → Ring) : (s.modCring r f).standing = s.standing := rfl

@[simp] theorem State.settleRing_standing (r : Nat) : (s.settleRing r).standing = s.standing := by
  unfold State.settleRing
  dsimp only
  split <;> rfl

@[simp] theorem State.crEnd_standing (r status res0 res1 : Nat) : (s.crEnd r status res0 res1).standing = s.standing := by
  unfold State.crEnd
  dsimp only
  split
  · rfl
  · rw [State.settleRing_standing, State.raiseVector_standing, State.modCring_standing, State.hostWrite_standing]

@[simp] theorem State.sweepRing_standing (r fuel : Nat) : (s.sweepRing r fuel).standing = s.standing := by
  induction fuel generalizing s with
  | zero => rfl
  | succ fuel ih =>
    rw [State.sweepRing]
    split
    · split
      · rw [ih, State.crEnd_standing]
      · rfl
    · rfl

@[simp] theorem State.crFinish_standing (r status res0 : Nat) : (s.crFinish r status res0).standing = s.standing := by
  unfold State.crFinish
  split
  · rw [State.crComplete, State.sweepRing_standing, State.crEnd_standing]
  · rfl

/-! ### Hosts -/

@[simp] theorem State.capsule_standing (c cid dw0 status : Nat) : (s.capsule c cid dw0 status).standing = s.standing := by
  unfold State.capsule
  dsimp only
  split <;> rfl

@[simp] theorem State.respond_standing (c cid dw0 status : Nat) : (s.respond c cid dw0 status).standing = s.standing :=
  (foldl_standing (fun _ _ => State.capsule_standing ..) _ _).trans (State.capsule_standing ..)

@[simp] theorem State.postEvent_standing (id event : Nat) : (s.postEvent id event).standing = s.standing := by
  unfold State.postEvent
  split
  · rfl
  · split
    · rw [State.respond_standing]; rfl
    · rfl

@[simp] theorem State.anaChange_standing : s.anaChange.standing = s.standing := by
  refine (foldl_standing (fun t p => ?_) _ _).trans rfl
  split
  · exact State.postEvent_standing ..
  · rfl

theorem State.modRing_standing (no : Nat) (f : RingEntry → RingEntry) : (s.modRing no f).standing = s.standing := rfl
theorem State.ring_standing (l : List RingEntry) (n : Nat) : ({ s with acc := { s.acc with ring := l, reserved := n } } : State).standing = s.standing := rfl

@[simp] theorem State.freeEntry_standing (no : Nat) : (s.freeEntry no).standing = s.standing := by
  have hheader (base : Nat) (f : Header → Header) : (s.modHeader base no f).standing = s.standing := by
    unfold State.modHeader
    split
    · exact State.performWrite_standing ..
    · rfl
  unfold State.freeEntry
  split
  · rfl
  · rw [State.ring_standing, State.modRing_standing, hheader]

@[simp] theorem State.setConn_standing (c : Nat) (x : Conn) : (s.setConn c x).standing = s.standing := rfl
@[simp] theorem State.modConn_standing (c : Nat) (f : Conn → Conn) : (s.modConn c f).standing = s.standing := rfl
theorem State.held_standing (l : List (Nat × Nat)) : ({ s with acc := { s.acc with held := l } } : State).standing = s.standing := rfl

theorem State.ctrls_standing (l : List (Nat × Ctrl)) : ({ s with svc := { s.svc with ctrls := l } } : State).standing = s.standing := rfl

@[simp] theorem State.endQueue_standing (c : Nat) : (s.endQueue c).standing = s.standing := by
  unfold State.endQueue
  dsimp only
  split
  · rw [State.setConn_standing, State.held_standing, foldl_standing fun _ _ => State.freeEntry_standing _]
  · rw [State.modConn_standing, State.held_standing, foldl_standing fun _ _ => State.freeEntry_standing _]

@[simp] theorem State.endConn_standing (c : Nat) : (s.endConn c).standing = s.standing := by
  unfold State.endConn
  dsimp only
  split
  · split
    · rw [State.ctrls_standing, State.endQueue_standing]
    · rw [State.endQueue_standing]
  · rw [State.endQueue_standing]

@[simp] theorem State.endConns_standing (p : Nat → Bool) : (s.endConns p).standing = s.standing :=
  foldl_standing (fun _ _ => State.endConn_standing _) _ _

@[simp] theorem State.endReads_standing : s.endReads.standing = s.standing := foldl_standing (fun _ _ => State.respond_standing ..) _ _

/-! ### Orders and links -/

@[simp] theorem State.dropOrders_standing : s.dropOrders.standing = s.standing := by
  have hof (t : State) (gone : Nat → Bool) : (t.dropOrdersOf gone).standing = t.standing :=
    (foldl_standing (fun _ _ => State.crFinish_standing ..) _ _).trans rfl
  refine (foldl_standing (fun t a => ?_) _ _).trans ((hof _ _).trans rfl)
  split <;> simp only [State.respond_standing, State.crFinish_standing]

theorem State.clearRegBit_standing (a i : Nat) : (s.clearRegBit a i).standing = s.standing := rfl
theorem State.carriers_standing (l : Sparse Carrier) : ({ s with carriers := l } : State).standing = s.standing := rfl

theorem State.linksDown_standing : s.linksDown.standing = s.standing := by
  unfold State.linksDown
  rw [State.endConns_standing, foldl_standing fun _ _ => State.clearRegBit_standing .., foldl_standing fun _ _ => State.clearRegBit_standing ..,
    State.carriers_standing]

theorem State.linksDown_hlt : s.linksDown.hlt = s.hlt := congrArg Standing.hlt State.linksDown_standing

end Kept

end Sys2Proof.Machine
end

section
/-! SUPPORT. What regions, queue pairs and work requests leave of the transport's state (R425, R430, R437). -/

namespace Sys2Proof.Machine

/-! ### What leaves the transport's state alone -/

section Leaves
variable {s : State}

theorem State.busError_atp (kind : BusKind) (src a : Nat) : (s.busError kind src a).atp = s.atp := congrArg Standing.atp (State.busError_standing ..)
theorem State.performWrite_atp (a : Nat) (l : List (Bool × Byte)) : (s.performWrite a l).atp = s.atp := congrArg Standing.atp (State.performWrite_standing ..)

/-! ### Reads change no queue pair (R8, R61) -/

theorem State.readReg_atp (src a : Nat) : (s.readReg src a).2.atp = s.atp := by
  unfold State.readReg
  split
  · split_ifs <;> rfl
  · rfl

theorem State.readRegBytes_atp (src a n : Nat) : (s.readRegBytes src a n).2.atp = s.atp := by
  unfold State.readRegBytes
  exact List.foldlRecOn (motive := fun (acc : List Byte × State) => acc.2.atp = s.atp) _ _ rfl fun acc h w _ => (State.readReg_atp src w).trans h

theorem State.busRead_atp (src a n : Nat) : (s.busRead src a n).2.2.atp = s.atp := by
  unfold State.busRead
  split
  · rfl
  · split
    · exact State.readRegBytes_atp src _ n
    · rw [State.correct_only]

theorem State.readSpan_atp (src a n : Nat) : (s.readSpan src a n).2.2.atp = s.atp := by
  unfold State.readSpan
  refine List.foldlRecOn (motive := fun (acc : Option (BusKind × Nat) × List Byte × State) => acc.2.2.atp = s.atp) _ _ rfl fun acc h p _ => ?_
  dsimp only
  split
  · exact h
  · split <;> exact (State.busRead_atp src p.1 p.2).trans h

end Leaves

/-! ### A queue pair after its rules (R429, R430) -/

section QueuePairs
variable {s : State} {q : Nat}

@[simp] theorem State.qp_modQp_same (f : QPair → QPair) : (s.modQp q f).qp q = f (s.qp q) := Sparse.get_set_same _ q _ _

theorem State.qp_congr {s t : State} (h : t.atp = s.atp) (q : Nat) : t.qp q = s.qp q := by simp only [State.qp, h]

theorem State.modQp_congr {f g : QPair → QPair} (h : f (s.qp q) = g (s.qp q)) : s.modQp q f = s.modQp q g := by
  have h' : f (Sparse.get QPair.idle q s.atp.qps) = g (Sparse.get QPair.idle q s.atp.qps) := h
  simp only [State.modQp, Sparse.modify, h']

theorem State.qp_putQpState (st : Nat) : (s.putQpState q st).qp q = { s.qp q with state := st } := by
  unfold State.putQpState
  dsimp only
  split
  · rw [State.qp_congr (State.busError_atp ..), State.qp_modQp_same]
  · rw [State.qp_congr (State.performWrite_atp ..), State.qp_modQp_same]

theorem State.readyQp_refused {setup : List Byte} (h : s.reg rAtpQpMax ≤ q ∨ (s.qp q).state ≠ 0) : s.readyQp q setup = s :=
  if_pos (h.imp_right .inl)

theorem State.lineRate_pos : 0 < s.lineRate := Nat.mul_pos (by decide) (Nat.two_pow_pos _)

/-- A queue pair that READY has brought into service, from its setup (R429, R430). -/
def State.setUp (q : Nat) (setup : List Byte) (s : State) : QPair :=
  { QPair.idle with setup := padTo 128 setup, reqs := (s.qp q).reqs, nextPsn := leAt setup 12 4, expect := leAt setup 16 4,
                    rto := leAt setup 76 4, limit := s.setting 0x0802 0 16, rateAt := s.elapsed, state := 1 }

theorem State.qp_readyQp {setup : List Byte} (hq : q < s.reg rAtpQpMax) (hx : (s.qp q).state = 0) (hpin : leAt setup 6 1 / 2 % 2 = 0)
    (hc : s.atp.cached.contains q = true) : (s.readyQp q setup).qp q = s.setUp q setup := by
  have hno : ¬ (s.reg rAtpQpMax ≤ q ∨ (s.qp q).state ≠ 0 ∨
      (leAt setup 6 1 / 2 % 2 == 1) = true ∧
        1024 ≤ ({ s with atp := { s.atp with cached := s.atp.cached.filter fun x => x != q } } : State).pinned) := by
    simp [hq.not_ge, hx, hpin]
  rw [State.readyQp, if_neg hno]
  refine State.qp_putQpState 1 |>.trans ?_
  rw [if_pos (show (s.modQp q _).atp.cached.contains q = true from hc), State.qp_touchQp, State.qp_modQp_same]
  rfl

/-- READY with its setup: the queue pair of the setup, with the port's rate. -/
theorem State.qp_execQpReady {setup : List Byte} (hq : q < s.reg rAtpQpMax) (hx : (s.qp q).state = 0) (hpin : leAt setup 6 1 / 2 % 2 = 0)
    (hc : s.atp.cached.contains q = true) :
    ((s.readyQp q setup).modQp q fun x => if x.rate = 0 then { x with rate := s.lineRate } else x).qp q =
      { s.setUp q setup with rate := s.lineRate } := by
  rw [State.qp_modQp_same, State.qp_readyQp hq hx hpin hc]
  exact if_pos rfl

/-- RESET drops what was received and every PSN. -/
theorem State.qp_resetQp (hx : (s.qp q).state ≠ 0) :
    ((s.resetQp q).qp q).state = 0 ∧ ((s.resetQp q).qp q).heldPkts = [] ∧ ((s.resetQp q).qp q).got = [] ∧ ((s.resetQp q).qp q).psns = [] := by
  rw [State.resetQp, if_neg hx, State.qp_putQpState, State.qp_modQp_same]
  refine ⟨rfl, rfl, rfl, ?_⟩
  show ((s.endRequests q stAborted).qp q).psns = []
  rw [State.endRequests, State.qp_modQp_same]

end QueuePairs

/-! ### Regions (R425, R428) -/

section Regions
variable {s : State} {index : Nat}

theorem State.syncRegion_current (hb : s.reg64 rAtpRegionBase ≠ 0) (hz : s.atp.zeroed = true) (hi : index ≠ 0)
    (hh : ¬ (regState (s.bytes (s.regionEntryAddr index) 64) = 1 ∧ hostBase ≤ regBase (s.bytes (s.regionEntryAddr index) 64))) :
    s.syncRegion index =
      { s with atp := { s.atp with regions := Sparse.set [] index (s.bytes (s.regionEntryAddr index) 64) s.atp.regions } } := by
  unfold State.syncRegion
  rw [if_neg (by simp [hb, hz, hi])]
  exact if_neg hh

end Regions

/-! ### Work requests (R437, R438) -/

section Requests
variable {s : State} {q : Nat} {mine : Nat → Bool} {x : QPair} {b : Vec}

/-- PSNs that a request of the ring takes. -/
def requestPsns (b : Vec) (payload : Nat) : Nat := if opcodeOf b = 1 ∨ opcodeOf b = 3 then (le b 28 4 + payload - 1) / payload else 1

/-- The next request of a ring before its PSNs are given. -/
def QPair.nextReq (b : Vec) (x : QPair) : WorkReq :=
  { seq := x.taken + 1, block := b, first := x.nextPsn, count := 1, data := [], status := 0, moved := 0, ended := false }

/-- Bytes that a request reads before it sends. -/
def WorkReq.fetch (r : WorkReq) : Nat := if r.op = 1 ∨ r.op = 2 then r.len else 0

/-- A queue pair with one more request of its ring, whose PSNs it has yet to send. -/
def QPair.takeBlock (b : Vec) (data : List Byte) (n : Nat) (x : QPair) : QPair :=
  { x with taken := x.taken + 1, nextPsn := (x.nextPsn + n) % 2 ^ 32,
           reqs := x.reqs ++ [{ seq := x.taken + 1, block := b, first := x.nextPsn, count := n, data := data, status := 0, moved := 0, ended := false }],
           psns := x.psns ++ (List.range n).map fun i => { psn := (x.nextPsn + i) % 2 ^ 32, state := .unsent, again := none } }

variable (hx : s.qp q = x) (hb : s.nextBlock q = b) (hc : s.atp.cached.contains q = true) (ha : x.active = true) (hp : x.posted ≠ 0)
  (hm : s.hostMisses (x.ringBase + 64 * (x.taken % max 1 x.ringSize)) 64 false = [])
  (hf : s.readFault (x.ringBase + 64 * (x.taken % max 1 x.ringSize)) 64 = none) (hmine : mine (opcodeOf b) = true)
include hx hb hc ha hp hm hf hmine

theorem State.takeRequest_bad (hbad : badRequest b x.payload = true) : s.takeRequest q mine = s.takeEnded q stBadCommand := by
  subst hx hb
  rw [State.takeRequest, if_neg (by rintro (h | h | h); exacts [h hc, h ha, hp h])]
  simp only [hm, hf, hmine, hbad, List.isEmpty_nil, not_true, if_false, if_true]

theorem State.takeRequest_good (hgood : badRequest b x.payload = false) {r : WorkReq} (hr : r = x.nextReq b)
    (hspan : s.spanMisses r.localAddr r.fetch false = []) (hread : (s.readSpan srcAtp r.localAddr r.fetch).1 = none) :
    s.takeRequest q mine = ((s.readSpan srcAtp r.localAddr r.fetch).2.2.modQp q
      (QPair.takeBlock b (s.readSpan srcAtp r.localAddr r.fetch).2.1 (requestPsns b x.payload))).pump q := by
  subst hx hb hr
  rw [State.takeRequest, if_neg (by rintro (h | h | h); exacts [h hc, h ha, hp h])]
  unfold WorkReq.fetch QPair.nextReq at hspan hread ⊢
  simp only [hm, hf, hmine, hgood, List.isEmpty_nil, not_true, if_false, Bool.false_eq_true, hspan, hread]
  refine congrArg (State.pump q) (State.modQp_congr ?_)
  rw [State.qp_congr (State.readSpan_atp ..)]
  rfl

end Requests

/-! ### Timers (R432 to R434) -/

section Timers
variable {s : State} {q : Nat} {x : QPair} (hx : s.qp q = x)
include hx

theorem exec_repeatTimerExpiry {since : BitVec 64} {p : SendPsn} (ht : x.timer = some since)
    (hp : x.psns.find? (fun p => p.state == .sent) = some p) (hdue : x.rto ≤ s.elapsed.toNat - since.toNat) (ha : x.active = true) :
    exec (.repeatTimerExpiry q) s =
      let t := (s.modQp q fun x => { x with rto := min 64000000 (2 * x.rto), retries := x.retries + 1, timer := some s.elapsed }).sendPsn q p.psn true
      .next (if x.limit ≤ x.retries + 1 then t.errorQp q else t) := by
  subst hx
  show execRepeatTimerExpiry q s = _
  unfold execRepeatTimerExpiry
  simp only [ht, hp]
  rw [if_neg (by rintro (h | h); exacts [hdue.not_gt h, h ha])]

theorem exec_ackDelayExpiry {due : BitVec 64} (hd : x.ackDue = some due) (ha : x.active = true) (h : 4000 ≤ s.elapsed.toNat - due.toNat) :
    exec (.ackDelayExpiry q) s = .next (s.sendAck q false) := by
  subst hx
  show execAckDelayExpiry q s = _
  unfold execAckDelayExpiry
  simp only [hd]
  rw [if_pos ⟨ha, h⟩]

theorem exec_rateIncreaseExpiry (ha : x.active = true) (hcc : x.cc = true) (h : 55000 ≤ s.elapsed.toNat - x.rateAt.toNat) :
    exec (.rateIncreaseExpiry q) s =
      .next (s.modQp q fun x => { x with rate := min s.lineRate (x.rate + s.lineRate / 20), rateAt := s.elapsed }) := by
  subst hx
  exact congrArg Host.Outcome.next (if_pos ⟨ha, hcc, h⟩)

/-- The record of a request that asks for no interrupt (R437). -/
theorem exec_workRequestComplete {r : WorkReq} {rest : List WorkReq} (hr : x.reqs = r :: rest) (hc : x.complete r = true)
    (hirq : irqOf r.block = false) : exec (.workRequestComplete q) s =
      .next (((s.modQp q fun x => { x with reqs := rest }).deliverRecord (some (completionAddr r.block)) (requestRecord q r) []).settleDrain q) := by
  subst hx
  show execWorkRequestComplete q s = _
  unfold execWorkRequestComplete
  simp only [hr, hc, hirq, if_true, Bool.false_eq_true, and_false, if_false]

end Timers

/-! ### Context loads (R435, R436) -/

section Loads
variable {s : State} {q : Nat} {l : CtxLoad}

theorem exec_contextLoadComplete_failed (hl : s.atp.loads.find? (fun l => l.qp == q && l.victim.isNone) = some l) :
    exec (.contextLoadComplete q none) s = .next (s.loadFailed l) := by
  show execContextLoadComplete q none s = _
  unfold execContextLoadComplete
  simp only [hl]

theorem exec_contextLoadComplete_loaded (hl : s.atp.loads.find? (fun l => l.qp == q && l.victim.isNone) = some l) (image : List Byte)
    (hr : l.ready = false) : exec (.contextLoadComplete q (some image)) s = .next (l.packets.foldl (fun t p => t.rxOnChip q p)
      (({ s with atp := { s.atp with loads := s.atp.loads.filter (fun x => x.qp != q), cached := s.atp.cached.filter (fun x => x != q) ++ [q] } } : State).modQp q
        fun x => { x with loadFails := 0 })) := by
  show execContextLoadComplete q (some image) s = _
  unfold execContextLoadComplete
  simp only [hl, hr, Bool.false_eq_true, if_false]

theorem exec_evictionWriteBackComplete_failed (hl : s.atp.loads.find? (fun l => l.qp == q && l.victim.isSome) = some l) :
    exec (.evictionWriteBackComplete q false) s = .next (s.loadFailed l) := by
  show execEvictionWriteBackComplete q false s = _
  unfold execEvictionWriteBackComplete
  simp only [hl, Bool.false_eq_true, if_false]

theorem exec_evictionWriteBackComplete_done (hl : s.atp.loads.find? (fun l => l.qp == q && l.victim.isSome) = some l) {v : Nat}
    (hv : l.victim = some v) : exec (.evictionWriteBackComplete q true) s =
      let t := s.writeImage v
      .next { t with atp := { t.atp with loads := mapWhere (fun x => x.qp == q) (fun x => { x with victim := none }) t.atp.loads } } := by
  show execEvictionWriteBackComplete q true s = _
  unfold execEvictionWriteBackComplete
  simp only [hl, hv, if_true]

end Loads

/-- Settles O51: each operation acts on the one queue pair or region it names, from what stands there; the accesses that fetch a request's
data change no queue pair, so the request is numbered from the state before them. -/
theorem queuePairsAndRequests : Obligations.QueuePairsAndRequests := by
  unfold Obligations.QueuePairsAndRequests
  intro s q x
  refine ⟨fun index hb hz hi => ?sync, fun key hk hs hg => ?revoke,
    fun index hi => congrArg Host.Outcome.next (if_pos hi), fun setup => State.readyQp_refused,
    fun setup hq hx hpin hc => ?ready, fun hx => congrArg Host.Outcome.next (if_pos hx), fun hx => ⟨_, rfl, State.qp_resetQp hx⟩,
    fun hc ha hp => ?takes,
    fun r rest hr hc hirq => exec_workRequestComplete rfl hr hc hirq, fun since p ht hp hdue ha => ?timer,
    fun due hd ha h => exec_ackDelayExpiry rfl hd ha h, fun ha hcc h => exec_rateIncreaseExpiry rfl ha hcc h,
    fun l hl => ⟨exec_contextLoadComplete_failed hl, fun image => exec_contextLoadComplete_loaded hl image⟩,
    fun l hl => ⟨exec_evictionWriteBackComplete_failed hl, fun v => exec_evictionWriteBackComplete_done hl⟩⟩
  case sync =>
    intro e he
    exact congrArg Host.Outcome.next (State.syncRegion_current hb hz hi he)
  case revoke =>
    show Host.Outcome.next (s.revokeKey (key % 2 ^ 32)) = _
    rw [Nat.mod_eq_of_lt hk]
    exact congrArg Host.Outcome.next (if_pos ⟨hs, hg⟩)
  case ready =>
    refine ⟨_, rfl, ?_⟩
    rw [State.qp_execQpReady hq hx hpin hc]
    exact ⟨rfl, rfl, rfl, rfl, State.lineRate_pos.ne'⟩
  case takes =>
    intro slot b hm hf does
    constructor
    · intro hbad
      have hall (mine : Nat → Bool) (h : mine (opcodeOf b) = true) : s.takeRequest q mine = s.takeEnded q stBadCommand :=
        State.takeRequest_bad rfl rfl hc ha hp hm hf h hbad
      refine ⟨fun h => ?_, fun h => ?_, fun h => ?_, fun h => ?_⟩ <;> exact congrArg Host.Outcome.next (hall _ (by simp [h]))
    · intro hgood fetch r hspan hread n
      have hall (mine : Nat → Bool) (h : mine (opcodeOf b) = true) :=
        State.takeRequest_good (mine := mine) (x := x) rfl rfl hc ha hp hm hf h hgood rfl hspan hread
      refine ⟨fun h => ?_, fun h => ?_, fun h => ?_, fun h => ?_⟩ <;> exact congrArg Host.Outcome.next (hall _ (by simp [h]))
  case timer =>
    intro t
    have hexec := exec_repeatTimerExpiry (s := s) (q := q) rfl ht hp hdue ha
    exact ⟨fun h => hexec.trans (congrArg Host.Outcome.next (if_pos h)), fun h => hexec.trans (congrArg Host.Outcome.next (if_neg h.not_ge))⟩

end Sys2Proof.Machine
end

section
/-! SUPPORT. Twin frames and the link (R441 to R443, R457, R458, R563). -/

namespace Sys2Proof.Machine

section Frames
variable {s : State} {b : List Byte}

theorem padTo_of_length {n : Nat} (h : b.length = n) : padTo n b = b := h ▸ padTo_self b

/-! ### The checks of a frame (R443, R563) -/

theorem State.onFrame_conflict (h : s.twn.strapConflict = true) (head : Nat) (body : State → State) : s.onFrame head body = s.discardFrame :=
  if_pos h

theorem State.onFrame_sameHead {head : Nat} (h : s.twn.strapConflict = false) (hh : head = s.headNo) (body : State → State) :
    s.onFrame head body = ({ s with twn := { s.twn with strapConflict := true } } : State).discardFrame :=
  (if_neg (Bool.eq_false_iff.1 h)).trans (if_pos hh)

theorem State.onFrame_taken {head : Nat} (h : s.twn.strapConflict = false) (hh : head ≠ s.headNo) (body : State → State) :
    s.onFrame head body = body s.noteFrame :=
  (if_neg (Bool.eq_false_iff.1 h)).trans (if_neg hh)

/-- A heartbeat of 32 bytes whose type and check hold goes by its HEAD. -/
theorem exec_heartbeat_checked (hn : b.length = 32) (ht : leAt b 0 1 = 1) (hc : leAt b 28 4 = crc32c (b.take 28)) :
    exec (.heartbeat b) s = .next (s.onFrame (leAt b 1 1) fun s =>
      let w := { s.twn with linkUp := true, lastHeartbeat := s.elapsed, lanes := if s.twn.lanes = 0 then 3 else s.twn.lanes }
      ({ s with twn := w } : State).heard b s.twn.peer.uncleanRun s.twn.peer.fitRun) := by
  show execHeartbeat b s = _
  rw [execHeartbeat, padTo_of_length hn]
  exact congrArg Host.Outcome.next (if_neg (not_or.2 ⟨not_not.2 ht, not_not.2 hc⟩))

theorem exec_heartbeat_unchecked (hn : b.length = 32) (h : leAt b 0 1 ≠ 1 ∨ leAt b 28 4 ≠ crc32c (b.take 28)) :
    exec (.heartbeat b) s = .next s.discardFrame := by
  show execHeartbeat b s = _
  rw [execHeartbeat, padTo_of_length hn]
  exact congrArg Host.Outcome.next (if_pos h)

/-- A report of 256 bytes whose type and check hold goes by its HEAD. -/
theorem exec_healthReport_checked (hn : b.length = 256) (ht : leAt b 0 1 = 2) (hc : leAt b 252 4 = crc32c (b.take 252)) :
    exec (.healthReport b) s = .next (s.onFrame (leAt b 1 1) fun s => s.heardReport b (leAt b 136 4 != 0)) := by
  show execHealthReport b s = _
  rw [execHealthReport, padTo_of_length hn]
  exact congrArg Host.Outcome.next (if_neg (not_or.2 ⟨not_not.2 ht, not_not.2 hc⟩))

theorem exec_healthReport_unchecked (hn : b.length = 256) (h : leAt b 0 1 ≠ 2 ∨ leAt b 252 4 ≠ crc32c (b.take 252)) :
    exec (.healthReport b) s = .next s.discardFrame := by
  show execHealthReport b s = _
  rw [execHealthReport, padTo_of_length hn]
  exact congrArg Host.Outcome.next (if_pos h)

/-- Once the heads read one strap, a frame is discarded whatever it holds (R563). -/
theorem exec_heartbeat_conflict (h : s.twn.strapConflict = true) (b : List Byte) : exec (.heartbeat b) s = .next s.discardFrame := by
  show execHeartbeat b s = _
  simp only [execHeartbeat, State.onFrame_conflict h, ite_self]

theorem exec_healthReport_conflict (h : s.twn.strapConflict = true) (b : List Byte) : exec (.healthReport b) s = .next s.discardFrame := by
  show execHealthReport b s = _
  simp only [execHealthReport, State.onFrame_conflict h, ite_self]

/-! ### What the partner says (R457, R458) -/

/-- Where no low level can count again and this head does not wait in RESTORE, a frame of the partner is only noted. -/
theorem State.heard_notes (h : s.twn.surrendered = false ∨ s.twn.peerLow = false) (hm : s.hlt.mode ≠ .restore) (b : List Byte) (n m : Nat) :
    s.heard b n m = { s with twn := { s.twn with peer := Peer.of b n m } } := by
  let t : State := { s with twn := { s.twn with peer := Peer.of b n m } }
  have hcount : t.countHolder = t := if_neg fun ⟨hs, hl, _⟩ => h.elim (fun h => Bool.eq_false_iff.1 h hs) fun h => Bool.eq_false_iff.1 h hl
  show (t.countHolder).rejoinIfServed = t
  rw [hcount]
  exact if_neg fun h => hm h.1

theorem State.heardReport_clean : s.heardReport b false = s.heard b 0 0 := rfl
theorem State.heardReport_unclean : s.heardReport b true =
    s.heard b (s.twn.peer.uncleanRun + 1) (if s.startFit = true then s.twn.peer.fitRun + 1 else 0) := by
  simp only [State.heardReport, Bool.true_and, if_true]

/-! ### Frames that went unsent while the link trained (R441) -/

theorem State.foldl_emit_twn (l : List (Nat × List Byte)) : (l.foldl (fun t f => t.emit (.twin f.1 f.2)) s).twn = s.twn :=
  List.foldlRecOn (motive := fun t : State => t.twn = s.twn) l _ rfl fun _ h _ _ => h

theorem State.foldl_emit_sent (l : List (Nat × List Byte)) :
    (l.foldl (fun t f => t.emit (.twin f.1 f.2)) s).sent = s.sent ++ l.map fun f => .twin f.1 f.2 := by
  induction l generalizing s with
  | nil => exact (List.append_nil _).symm
  | cons f l ih => rw [List.foldl_cons, ih, State.emit_sent, List.append_assoc]; rfl

end Frames

/-- Settles O52: a frame goes by its check, then by its HEAD; what falls due on the link goes by its own condition. -/
theorem twinFrames : Obligations.TwinFrames := by
  unfold Obligations.TwinFrames
  intro s
  refine ⟨rfl, fun h b => ⟨exec_heartbeat_conflict h b, exec_healthReport_conflict h b, congrArg Host.Outcome.next (if_pos h)⟩,
    fun b => exec_heartbeat_unchecked, fun b => exec_healthReport_unchecked, fun h => ⟨fun b hn ht hc => ⟨fun hh => ?conflict, fun hh => ?heartbeat⟩,
      fun b hn ht hc hh => ?report, fun b hs => ?asleep, fun b hs => ?heeds⟩, fun b n m h hm => State.heard_notes h hm b n m,
    fun hd hr => ⟨_, ?sends, rfl⟩, fun hs hd => ⟨_, _, rfl, rfl, congrArg Host.Outcome.next (if_neg ?built)⟩, fun hd => ?missed, fun hu hd => ?loss,
    fun hl => ?lastLanes, fun hl => ?lanes, fun hr => ⟨_, congrArg Host.Outcome.next (if_pos hr), State.foldl_emit_twn _, State.foldl_emit_sent _⟩⟩
  case conflict => exact (exec_heartbeat_checked hn ht hc).trans (congrArg Host.Outcome.next (State.onFrame_sameHead h hh _))
  case heartbeat => exact (exec_heartbeat_checked hn ht hc).trans (congrArg Host.Outcome.next (State.onFrame_taken h hh _))
  case report =>
    have htaken : exec (.healthReport b) s = .next (s.noteFrame.heardReport b (leAt b 136 4 != 0)) :=
      (exec_healthReport_checked hn ht hc).trans (congrArg Host.Outcome.next (State.onFrame_taken h hh _))
    refine ⟨fun hz => ?_, fun hz => ?_⟩
    · rw [htaken, bne_eq_false_iff_eq.2 hz, State.heardReport_clean]
    · rw [htaken, bne_iff_ne.2 hz, State.heardReport_unclean]
      rfl
  case asleep => exact congrArg Host.Outcome.next ((if_neg (Bool.eq_false_iff.1 h)).trans (if_pos (Bool.eq_false_iff.1 hs)))
  case heeds => exact congrArg Host.Outcome.next ((if_neg (Bool.eq_false_iff.1 h)).trans (if_neg (not_not.2 hs)))
  case sends => exact congrArg Host.Outcome.next ((if_neg hd.not_gt).trans (if_neg (Bool.eq_false_iff.1 hr)))
  case built => exact not_or.2 ⟨not_not.2 hs, hd.not_gt⟩
  case missed =>
    refine ⟨fun hm => congrArg Host.Outcome.next ((if_neg hd.not_gt).trans (if_pos ?_)),
      fun hp hm => congrArg Host.Outcome.next ((if_neg hd.not_gt).trans (if_neg ?_))⟩
    · exact hm.symm.imp_right Bool.eq_false_iff.1
    · exact not_or.2 ⟨hm.not_gt, not_not.2 hp⟩
  case loss =>
    have hlost : ¬ (¬ s.twn.linkUp = true ∨ s.elapsed.toNat - s.twn.lastGood.toNat < s.setting 0x0901 0 5000000) :=
      not_or.2 ⟨not_not.2 hu, hd.not_gt⟩
    exact ⟨fun hc => congrArg Host.Outcome.next ((if_neg hlost).trans (if_pos hc)),
      fun hc => congrArg Host.Outcome.next ((if_neg hlost).trans (if_neg hc))⟩
  case lastLanes => exact congrArg Host.Outcome.next ((if_neg (by rw [hl]; decide)).trans (if_pos hl))
  case lanes => exact congrArg Host.Outcome.next ((if_neg (Nat.ne_zero_of_lt hl)).trans (if_neg hl.ne'))

end Sys2Proof.Machine
end

section
/-! SUPPORT. A release of custody, and the governor's causes (R445, R447 to R451, R455, R456, R509). -/

namespace Sys2Proof.Machine

/-! ### A release of custody (R447, R448, R509) -/

section Release
variable {s : State} {cause : Nat}

/-- The modes with a mode put into force. -/
def Hlt.put (m : Mode) (f : QForm) (h : Hlt) : Hlt := { h with mode := m, form := f, drained := h.drained && decide (m = .quiesce) }

theorem State.setMode_standing (m : Mode) (f : QForm) : (s.setMode m f).standing = { s.standing with hlt := s.hlt.put m f } := by
  unfold State.setMode
  split
  · rfl
  · rw [State.raiseVector_standing]; rfl

theorem State.dropCustody_standing :
    (s.dropCustody cause).standing = { s.standing with drive := false, setA := false, setB := false, govCause := cause, running := false } := by
  let t : State := { s with acc := { s.acc with running := false }, snp := { s.snp with registrar := false },
                            svc := { s.svc with changeSince := some s.elapsed, taking := false } }
  have h : t.dropOrders.endReads.endTeardowns.anaChange.standing = t.standing := by
    rw [State.anaChange_standing]
    exact State.endReads_standing.trans State.dropOrders_standing
  exact congrArg (fun x : Standing => { x with drive := false, setA := false, setB := false, govCause := cause }) h

/-- A release moves the modes and nothing else that stands. -/
theorem State.modeAfter_standing : (s.modeAfter cause).standing = { s.standing with hlt := (s.modeAfter cause).hlt } := by
  have hmode (t : State) (m : Mode) (f : QForm) (h : t.standing = { s.standing with hlt := t.hlt }) :
      (t.setMode m f).standing = { s.standing with hlt := (t.setMode m f).hlt } := by
    have hput := State.setMode_standing (s := t) m f
    rw [hput, h, show (t.setMode m f).hlt = t.hlt.put m f from congrArg Standing.hlt hput]
  unfold State.modeAfter
  split_ifs
  · exact hmode _ _ _ rfl
  · exact hmode _ _ _ rfl
  · rfl
  · refine hmode _ _ _ ?_
    rw [State.linksDown_standing, State.linksDown_hlt]
    rfl
  · rfl

theorem State.modeAfter_handover : (s.modeAfter causeHandover).hlt.mode = .quiesce :=
  congrArg (fun x : Standing => x.hlt.mode) (State.setMode_standing (s := s) .quiesce .handover)

theorem State.modeAfter_safe (hh : cause ≠ causeHandover) (hm : cause ≠ causeMetadataFault)
    (h : s.hlt.mode = .paired ∨ s.hlt.mode = .solo ∨ s.hlt.mode = .quiesce) : (s.modeAfter cause).hlt.mode = .safe := by
  rw [State.modeAfter, if_neg hh, if_neg hm, if_pos h]
  exact congrArg (fun x : Standing => x.hlt.mode) (State.setMode_standing .safe .none)

/-- The state in which the line is let go: no activation is scheduled any more but by a release for one. -/
def State.releasing (cause : Nat) (s : State) : State :=
  if cause = causeHandover ∨ cause = causeImageActivation then s else s.cancelActivation

theorem State.releasing_hlt : (s.releasing cause).hlt = s.hlt := by
  unfold State.releasing State.cancelActivation
  split
  · rfl
  · split <;> rfl

/-- What stands after a release of custody but for a metadata fault, whose dump comes before it. -/
theorem State.releaseCustody_standing (hd : s.holdsCustody = true) (hm : cause ≠ causeMetadataFault) :
    (s.releaseCustody cause).standing = (((s.releasing cause).dropCustody cause).modeAfter cause).standing := by
  have hdump : (s.releasing cause).salvageDump cause = s.releasing cause := if_neg fun h => hm h.1
  rw [State.releaseCustody, if_pos hd]
  change (let u := (((s.releasing cause).salvageDump cause).dropCustody cause).modeAfter cause
    if u.hlt.mode = s.hlt.mode then u.raiseVector 5 else u).standing = _
  rw [hdump]
  dsimp only
  split
  · exact State.raiseVector_standing 5
  · rfl

end Release

/-- Settles O53: a release drops custody and then moves the mode, and nothing that ends on the way touches either; the other commands go by
their conditions. -/
theorem custodyCommands : Obligations.CustodyCommands := by
  unfold Obligations.CustodyCommands
  intro s
  refine ⟨fun cause hd hm => ?release, fun hl => ?rises, fun hl => ?falls, fun hl hs hf seen shows => ?surrender,
    fun hd hc => congrArg Host.Outcome.next (if_pos ⟨hd, .inl hc⟩), fun waits h1 hc hp hu hw => ?stall,
    fun src v hs hv => congrArg Host.Outcome.next (if_pos ⟨hs, hv⟩), fun src hs => congrArg Host.Outcome.next (if_pos hs),
    fun seen absent hm hh hsafe hl ha => congrArg Host.Outcome.next (if_pos ⟨hm, hh, hsafe, Bool.eq_false_iff.1 hl, ha⟩),
    fun seen hm => congrArg Host.Outcome.next (if_pos hm)⟩
  case release =>
    have hstands := State.releaseCustody_standing hd hm
    have hfields := hstands.trans State.modeAfter_standing
    rw [State.dropCustody_standing] at hfields
    have hmode : (s.releaseCustody cause).hlt.mode = (((s.releasing cause).dropCustody cause).modeAfter cause).hlt.mode :=
      congrArg (fun x : Standing => x.hlt.mode) hstands
    have hbefore : ((s.releasing cause).dropCustody cause).hlt = s.hlt :=
      (congrArg Standing.hlt (State.dropCustody_standing (s := s.releasing cause) (cause := cause))).trans State.releasing_hlt
    refine ⟨congrArg Standing.drive hfields, congrArg Standing.setA hfields, congrArg Standing.setB hfields, congrArg Standing.govCause hfields,
      congrArg Standing.running hfields, fun hh => ?_, fun hh h => ?_⟩
    · subst hh
      exact hmode.trans State.modeAfter_handover
    · exact hmode.trans (State.modeAfter_safe hh hm (hbefore ▸ h))
  case rises => exact congrArg Host.Outcome.next ((if_neg (by simp [hl])).trans (if_neg Bool.false_ne_true))
  case falls => exact congrArg Host.Outcome.next ((if_neg (by simp [hl])).trans (if_pos rfl))
  case surrender =>
    intro t
    have hdue : ¬ (s.twn.peerLow = true ∨ s.twn.surrendered = true ∨ s.elapsed.toNat - s.twn.peerSince.toNat < s.surrenderFilter) := by
      rintro (h | h | h)
      exacts [Bool.eq_false_iff.1 hl h, Bool.eq_false_iff.1 hs h, hf.not_gt h]
    refine ⟨fun hm => ?_, fun hm hr hi => ?_, fun hm h => ?_⟩
    · exact congrArg Host.Outcome.next ((if_neg hdue).trans (if_pos hm))
    · exact congrArg Host.Outcome.next ((if_neg hdue).trans ((if_neg (Bool.eq_false_iff.1 hm)).trans (if_pos ⟨hr, hi⟩)))
    · exact congrArg Host.Outcome.next ((if_neg hdue).trans ((if_neg (Bool.eq_false_iff.1 hm)).trans
        (if_neg fun hn => h.elim (absurd hn.1) (hn.2 ·))))
  case stall =>
    refine congrArg Host.Outcome.next (if_pos ⟨h1, hc, hp, hu, hw.symm.imp_left fun ⟨r, hr, hn, hd⟩ => List.any_eq_true.2 ⟨r, hr, ?_⟩⟩)
    simp only [hn, decide_eq_true hd, Bool.not_false, Bool.and_self]

end Sys2Proof.Machine
end

section
/-! SUPPORT. Custody messages of the other head (R459 to R462). -/

namespace Sys2Proof.Machine

section Custody
variable {s : State} {type head level reason cycle : Nat} (h : s.twn.strapConflict = false) (hh : head ≠ s.headNo)
include h hh

/-- A message that repeats the last answered is answered alike (R462). -/
theorem State.onCustody_repeated {answer : List Byte} (ha : s.twn.answered = some (custodyBytes type head level reason cycle, answer))
    (body : List Byte → State → State) : s.onCustody type head level reason cycle body = s.noteFrame.sendTwin 3 answer := by
  rw [State.onCustody, State.onFrame_taken h hh]
  simp only [show s.noteFrame.twn.answered = _ from ha, if_true]

/-- Any other message has its meaning. -/
theorem State.onCustody_fresh (hf : ∀ a b, s.twn.answered = some (a, b) → a ≠ custodyBytes type head level reason cycle)
    (body : List Byte → State → State) :
    s.onCustody type head level reason cycle body = body (custodyBytes type head level reason cycle) s.noteFrame := by
  rw [State.onCustody, State.onFrame_taken h hh]
  dsimp only
  split
  case h_1 m a ha => exact if_neg (hf m a ha)
  case h_2 => rfl

end Custody

section Waiting
variable {s : State} {m : List Byte} (hm : s.twn.awaiting = some m) (hd : 1000000 ≤ s.elapsed.toNat - s.twn.awaitingAt.toNat)
include hm hd

theorem exec_custodyMessageRepeat_again (h : leAt m 8 8 = 0 ∨ s.acc.openCycle < leAt m 8 8) : exec .custodyMessageRepeat s =
    .next { s.sendTwin 3 m with twn := { (s.sendTwin 3 m).twn with awaitingAt := s.elapsed } } := by
  show execCustodyMessageRepeat s = _
  unfold execCustodyMessageRepeat
  simp only [hm]
  exact congrArg Host.Outcome.next ((if_neg hd.not_gt).trans (if_neg fun hn => h.elim hn.1 (hn.2.not_gt ·)))

/-- A message whose cycle has opened is not sent again. -/
theorem exec_custodyMessageRepeat_opened (hc : leAt m 8 8 ≠ 0) (ho : leAt m 8 8 ≤ s.acc.openCycle) (hp : s.twn.phase ≠ .handingOver) :
    exec .custodyMessageRepeat s = .next s.endAwait := by
  show execCustodyMessageRepeat s = _
  unfold execCustodyMessageRepeat
  simp only [hm]
  exact congrArg Host.Outcome.next ((if_neg hd.not_gt).trans ((if_pos ⟨hc, ho⟩).trans (if_neg hp)))

end Waiting

/-- Settles O54: a custody message passes the checks of a frame, then the test for a repeat, and then goes by the phase it finds. -/
theorem rejoinAndHandover : Obligations.RejoinAndHandover := by
  unfold Obligations.RejoinAndHandover
  intro s head level h hh f msg fresh
  have hfresh {type reason cycle : Nat} (hf : fresh (msg type reason cycle)) (body : List Byte → State → State) :
      s.onCustody type head level reason cycle body = body (msg type reason cycle) f := State.onCustody_fresh h hh hf body
  have htaken (body : State → State) : s.onFrame head body = body f := State.onFrame_taken h hh body
  refine ⟨fun answer ha => congrArg Host.Outcome.next (State.onCustody_repeated h hh ha _), fun hf => ⟨fun hm => ?notSolo, fun hm hl => ?level, fun hm hl => ?joins⟩,
    fun hf hp hm => ?accepted, fun why hf hp => ?refused, fun hm hp hc hw => ?seeded, fun cycle shown u hf hp hm hu => ?joined,
    fun hm hp => ?ready, fun cycle hm hp hr => ?failback, fun cycle hf => ⟨fun hm hc hp => ?clean, fun hn => ?unclean⟩,
    fun hp => ⟨?handAccepted, fun why => ?handRefused⟩,
    fun m hm hd => ⟨exec_custodyMessageRepeat_again hm hd, exec_custodyMessageRepeat_opened hm hd⟩⟩
  case notSolo => exact congrArg Host.Outcome.next ((hfresh hf _).trans (if_pos hm))
  case level =>
    exact congrArg Host.Outcome.next ((hfresh hf _).trans ((if_neg (not_not.2 hm)).trans (if_pos (Bool.eq_false_iff.1 hl))))
  case joins => exact congrArg Host.Outcome.next ((hfresh hf _).trans ((if_neg (not_not.2 hm)).trans (if_neg (not_not.2 hl))))
  case accepted => exact congrArg Host.Outcome.next ((hfresh hf _).trans (if_neg (not_or.2 ⟨not_not.2 hp, not_not.2 hm⟩)))
  case refused => exact congrArg Host.Outcome.next ((hfresh hf _).trans (if_pos hp))
  case seeded =>
    refine congrArg Host.Outcome.next (if_neg ?_)
    rintro (hn | hn | hn | hn)
    · exact hn hm
    · exact hn hp
    · exact Bool.eq_false_iff.1 hc hn
    · rw [hw] at hn; exact Bool.false_ne_true hn
  case joined =>
    refine congrArg Host.Outcome.next ((hfresh hf _).trans ((if_neg (not_or.2 ⟨not_not.2 hp, not_not.2 hm⟩)).trans ?_))
    simp only [hu]
  case ready =>
    have hnot : ¬ (f.hlt.mode = .solo ∧ f.twn.phase = .failback) := fun hn => by
      have : f.twn.phase = .joined := hp
      rw [this] at hn
      exact absurd hn.2 (by decide)
    exact congrArg Host.Outcome.next ((htaken _).trans ((if_neg hnot).trans (if_neg (not_or.2 ⟨not_not.2 hm, not_not.2 hp⟩))))
  case failback =>
    exact congrArg Host.Outcome.next ((htaken _).trans (if_neg (by rintro (hn | hn | hn); exacts [hn hm, hn hp, hn hr])))
  case clean => exact congrArg Host.Outcome.next ((hfresh hf _).trans (if_pos ⟨hm, hc, hp⟩))
  case unclean => exact congrArg Host.Outcome.next ((hfresh hf _).trans (if_neg hn))
  case handAccepted => exact congrArg Host.Outcome.next ((htaken _).trans (if_neg (not_not.2 hp)))
  case handRefused => exact congrArg Host.Outcome.next ((htaken _).trans (if_pos hp))

end Sys2Proof.Machine
end

section
/-! SUPPORT. The head-host endpoint (R480 to R489, R494, R496). -/

namespace Sys2Proof.Machine

/-! ### BAR4 (R484) -/

section Bar4
variable {s : State} (h : s.barsOpen = true) {o n : Nat}
include h

theorem exec_bar4Read_beyond (hr : s.inLpddr (s.bar4Address o) n = false) :
    exec (.bar4Read o n) s = .next ((s.bump rEpBar4Ur 1).replyHost o [] true) :=
  congrArg Host.Outcome.next ((if_neg (not_not.2 h)).trans (if_pos (Bool.eq_false_iff.1 hr)))

theorem exec_bar4Read_damaged (hr : s.inLpddr (s.bar4Address o) n = true) (hd : s.touchesDamage (s.bar4Address o) n = true) :
    exec (.bar4Read o n) s = .next (((s.countDamage (s.bar4Address o)).bump rEpBar4Ur 1).replyHost o [] true) :=
  congrArg Host.Outcome.next ((if_neg (not_not.2 h)).trans ((if_neg (not_not.2 hr)).trans (if_pos hd)))

theorem exec_bar4Read_good (hr : s.inLpddr (s.bar4Address o) n = true) (hd : s.touchesDamage (s.bar4Address o) n = false) :
    exec (.bar4Read o n) s = .next ((s.correct (s.bar4Address o) n).replyHost o (s.bytes (s.bar4Address o) n) false) :=
  congrArg Host.Outcome.next ((if_neg (not_not.2 h)).trans ((if_neg (not_not.2 hr)).trans (if_neg (Bool.eq_false_iff.1 hd))))

variable {bs : List (Bool × Byte)}

theorem exec_bar4Write_beyond (hr : s.inLpddr (s.bar4Address o) bs.length = false) :
    exec (.bar4Write o bs) s = .next (s.bump rEpBar4Ur 1) :=
  congrArg Host.Outcome.next ((if_neg (not_not.2 h)).trans (if_pos (Bool.eq_false_iff.1 hr)))

theorem exec_bar4Write_good (hr : s.inLpddr (s.bar4Address o) bs.length = true)
    (hd : s.mergesDamage (s.bar4Address o) (bs.map (·.1)) = false) :
    exec (.bar4Write o bs) s = .next (s.performWrite (s.bar4Address o) bs) :=
  congrArg Host.Outcome.next ((if_neg (not_not.2 h)).trans ((if_neg (not_not.2 hr)).trans (if_neg (Bool.eq_false_iff.1 hd))))

theorem exec_msixEntryWrite (v : Word32) : exec (.msixEntryWrite o v) s = .next (s.writeMsix o v) := congrArg Host.Outcome.next (if_pos h)

end Bar4

/-! ### Translations (R487, R488) -/

section Translations
variable {s : State} {page : Nat} (hw : page ∈ s.ep.atsWaiting) (hi : ∀ r ∈ s.ep.invals, ¬ (r.1 ≤ page ∧ page < r.1 + r.2))
  {ok read write : Bool}
include hw hi

/-- The completion of a page that waits and that no invalidation in progress holds back takes the page off the list. -/
theorem exec_translationCompletion : exec (.translationCompletion page ok read write) s =
    let t : State := { s with ep := { s.ep with atsWaiting := s.ep.atsWaiting.erase page } }
    .next (if ¬ ok ∨ (¬ read ∧ ¬ write) then t.failTranslation page
      else if ¬ write ∧ t.lacksWrite page then t.failTranslation page
      else
        let l := t.ep.atc ++ [{ page := page, read := read, write := write }]
        State.resumeAllStores { t with ep := { t.ep with atc := l.drop (l.length - 8192) } }) := by
  refine congrArg Host.Outcome.next (if_neg (not_or.2 ⟨not_not.2 (List.contains_iff_mem.2 hw), ?_⟩))
  simpa only [List.any_eq_true, not_exists, Bool.and_eq_true, decide_eq_true_eq, not_and] using hi

theorem exec_translationCompletion_fails (h : ok = false ∨ (read = false ∧ write = false)) :
    exec (.translationCompletion page ok read write) s =
      .next (({ s with ep := { s.ep with atsWaiting := s.ep.atsWaiting.erase page } } : State).failTranslation page) :=
  (exec_translationCompletion hw hi).trans (congrArg Host.Outcome.next (if_pos (by simpa using h)))

theorem exec_translationCompletion_taken (hok : ok = true)
    (h : write = true ∨ (read = true ∧ ({ s with ep := { s.ep with atsWaiting := s.ep.atsWaiting.erase page } } : State).lacksWrite page = false))
    (hn : s.ep.atc.length < 8192) : exec (.translationCompletion page ok read write) s =
      let t : State := { s with ep := { s.ep with atsWaiting := s.ep.atsWaiting.erase page } }
      .next (State.resumeAllStores { t with ep := { t.ep with atc := s.ep.atc ++ [{ page := page, read := read, write := write }] } }) := by
  refine (exec_translationCompletion hw hi).trans (congrArg Host.Outcome.next ((if_neg ?_).trans ((if_neg ?_).trans ?_)))
  · rcases h with h | ⟨h, -⟩ <;> simp [hok, h]
  · rcases h with h | ⟨-, h⟩
    · simp [h]
    · exact fun hn => Bool.eq_false_iff.1 h hn.2
  · have hkeep (x : Translation) : (s.ep.atc ++ [x]).drop ((s.ep.atc ++ [x]).length - 8192) = s.ep.atc ++ [x] := by
      rw [List.length_append, List.length_singleton, Nat.sub_eq_zero_of_le hn, List.drop_zero]
    exact congrArg (fun l => State.resumeAllStores { s with ep := { s.ep with atsWaiting := s.ep.atsWaiting.erase page, atc := l } }) (hkeep _)

end Translations

/-- Settles O56: each of the head host's accesses, resets and doorbells goes by the state of the link and of what it names. -/
theorem hostEndpoint : Obligations.HostEndpoint := by
  unfold Obligations.HostEndpoint
  intro s
  refine ⟨⟨rfl, rfl⟩, ⟨fun h => ?released, fun h => ?stays⟩, fun hu => ⟨?down, ?again⟩, fun hb => ⟨fun o n => ⟨exec_bar4Read_beyond hb,
      exec_bar4Read_damaged hb, exec_bar4Read_good hb⟩, fun o bs => ⟨exec_bar4Write_beyond hb, fun hr hd => ⟨exec_bar4Write_good hb hr hd, ?frame⟩⟩,
      fun o v h4 ho => ?entry, fun o v ho => ?outside⟩, fun v => ⟨fun hv => ?fires, fun hv => ?reserved⟩, fun page pages hu hn => ?invalidate,
    fun page ok read write hw hi => ⟨exec_translationCompletion_fails hw hi, exec_translationCompletion_taken hw hi⟩,
    fun r tail cmds hr he hu => ⟨fun hs => ?heldBell, fun hs => ?bell⟩, fun r hr he => ?disable⟩
  case released => exact congrArg Host.Outcome.next (if_pos h)
  case stays => exact congrArg Host.Outcome.next (if_neg (Bool.eq_false_iff.1 h))
  case down => exact congrArg Host.Outcome.next (if_neg (not_not.2 hu))
  case again => exact congrArg Host.Outcome.next (if_neg (not_not.2 hu))
  case frame =>
    intro a ha
    rw [State.byte_performWrite]
    exact if_neg fun ⟨hlo, hhi, _⟩ => ha.elim hlo.not_gt hhi.not_ge
  case entry => exact (exec_msixEntryWrite hb v).trans (congrArg Host.Outcome.next (if_neg (not_or.2 ⟨not_not.2 h4, ho.not_ge⟩)))
  case outside => exact (exec_msixEntryWrite hb v).trans (congrArg Host.Outcome.next (if_pos ho))
  case fires => exact congrArg Host.Outcome.next (if_pos hv)
  case reserved => exact congrArg Host.Outcome.next (if_neg hv.not_ge)
  case invalidate => exact congrArg Host.Outcome.next (if_neg (not_or.2 ⟨not_not.2 hu, hn.not_ge⟩))
  case heldBell =>
    refine congrArg Host.Outcome.next ((if_neg ?_).trans (if_pos (Bool.eq_false_iff.1 hs)))
    rintro (h | h | h); exacts [hr.not_ge h, h he, h hu]
  case bell =>
    refine congrArg Host.Outcome.next ((if_neg ?_).trans (if_neg (not_not.2 hs)))
    rintro (h | h | h); exacts [hr.not_ge h, h he, h hu]
  case disable => exact congrArg Host.Outcome.next ((if_pos hr).trans (if_neg (not_not.2 he)))

end Sys2Proof.Machine
end

section
/-! SUPPORT. The command in front of a control ring that is served (R491 to R495). -/

namespace Sys2Proof.Machine

/-- The command `c` stands in front of control ring `r`, is not yet in execution, and is served. -/
structure State.Serves (s : State) (r : Nat) (c : List Byte) : Prop where
  front : ∃ rest, (s.cring r).fetched = c :: rest
  isRing : r < 4
  runs : s.supervisorRuns = true
  idle : (s.cring r).busy = false
  good : badRingCommand c = false

section Serves
variable {s : State} {r op : Nat} {c : List Byte} (h : s.Serves r c) (ho : leAt c 0 2 = op)
include h ho

theorem State.onRing_front (body : List Byte → State → State) : s.onRing r op body = body c s := by
  obtain ⟨rest, hrest⟩ := h.front
  unfold State.onRing
  simp only [hrest]
  exact if_pos (by simp [h.isRing, h.runs, h.idle, h.good, ho])

variable {data : Option (List Byte)} (body : List Byte → List Byte → State → State)

theorem State.onRingData_front {d : List Byte} (hd : s.ringData c data = some d) : s.onRingData r op data body = body c d s := by
  rw [State.onRingData, State.onRing_front h ho]
  simp only [hd]

theorem State.onRingData_fault (hd : s.ringData c data = none) : s.onRingData r op data body = s.crComplete r crDataFault 0 0 := by
  rw [State.onRingData, State.onRing_front h ho]
  simp only [hd]

end Serves

/-! ### Commands that name a view (R470, R471, R475) -/

section Views
variable {s : State} {r : Nat} {c : List Byte} (h : s.Serves r c)
include h

theorem exec_crViewDelete_none (ho : leAt c 0 2 = 4) (hv : s.cat.viewNo (ringArg0 c) = none) :
    exec (.crViewDelete r) s = .next (s.crComplete r crRefused 0 0) := by
  refine congrArg Host.Outcome.next ((State.onRing_front h ho _).trans ?_)
  simp only [hv]

theorem exec_crViewDelete {v : View} (ho : leAt c 0 2 = 4) (hv : s.cat.viewNo (ringArg0 c) = some v)
    (hgood : ¬ (v.kind = 0 ∨ v.deleting = true ∨ ¬ s.holdsNs v.nsid = true ∨ s.shipping v.view = true ∨ s.sealing v.view = true ∨
      s.viewItemQueued 2 v.view = true)) :
    exec (.crViewDelete r) s = .next ((s.queueAnswered [itemView 2 v.view 0] (.ring r 0)).ringWait r) := by
  refine congrArg Host.Outcome.next ((State.onRing_front h ho _).trans ?_)
  simp only [hv]
  exact if_neg hgood

theorem exec_crSeal {v : View} (ho : leAt c 0 2 = 5) (hv : s.cat.viewNo (ringArg0 c) = some v)
    (hgood : ¬ (v.kind = 0 ∨ v.deleting = true ∨ v.isSealed = true ∨ ¬ s.holdsNs v.nsid = true ∨ s.sealing v.view = true ∨
      s.viewItemQueued 2 v.view = true)) :
    exec (.crSeal r) s = .next ((s.startSeal v (some r)).ringWait r) := by
  refine congrArg Host.Outcome.next ((State.onRing_front h ho _).trans ?_)
  simp only [hv]
  exact if_neg hgood

/-- A view shipped whole, with no base. -/
theorem exec_crShip {v : View} (seen : Seen) (ho : leAt c 0 2 = 6) (hv : s.cat.viewNo (ringArg1 c / 2 ^ 32) = some v)
    (hb : ringArg1 c % 2 ^ 32 = 0)
    (hgood : ¬ (v.kind = 0 ∨ v.deleting = true ∨ v.nsid ≠ ringArg0 c ∨ ¬ s.holdsNs (ringArg0 c) = true ∨ (s.streamKey (ringArg2 c)).isNone = true)) :
    exec (.crShip r seen) s = .next ((s.ship seen v 0 (ringArg2 c) (some r) false).ringWait r) := by
  refine congrArg Host.Outcome.next ((State.onRing_front h ho _).trans ?_)
  simp only [hv, hb, BEq.rfl, Bool.true_or, not_true, false_or]
  exact if_neg hgood

end Views

/-! ### The other commands -/

section Commands
variable {s : State} {r : Nat} {c : List Byte} (h : s.Serves r c)
include h

theorem exec_crSettings {data : Option (List Byte)} {d : List Byte} (ho : leAt c 0 2 = 1) (hd : s.ringData c data = some d)
    (ha : ringArg0 c < 65536) : exec (.crSettings r data) s =
      .next (match s.setOne r (ringArg0 c) (ringArg1 c) (ringArg2 c) d with
        | .ends st t => t.crComplete r st 0 0
        | .waits t => t.ringWait r) :=
  congrArg Host.Outcome.next ((State.onRingData_front h ho _ hd).trans (if_neg ha.not_ge))

/-- The 8-byte numbers that STATISTICS gives, cut to DATA_LEN. -/
theorem exec_crStatistics {l : List Nat} (ho : leAt c 0 2 = 2)
    (hl : (ringArg0 c = 1 ∧ l = s.acc.stats) ∨ (ringArg0 c = 2 ∧ l = s.med.conserveStats)) :
    exec (.crStatistics r) s =
      let b := (l.flatMap (leBytes 8)).take (ringDataLen c)
      let w := s.hostWrite 0 (ringDataAddr c) b
      .next (if w.1 = true then w.2.crComplete r crOk b.length 0 else w.2.crComplete r crDataFault 0 0) := by
  refine congrArg Host.Outcome.next ((State.onRing_front h ho _).trans ?_)
  rcases hl with ⟨ha, rfl⟩ | ⟨ha, rfl⟩ <;> simp only [ha]

end Commands

/-- Settles O57: the command in front of a served ring reaches its own row, which ends it or leaves it in execution by its checks. -/
theorem controlRingCommands : Obligations.ControlRingCommands := by
  unfold Obligations.ControlRingCommands
  intro s r c rest hrest hr hs hb hg ends waits a0 op
  have h : s.Serves r c := ⟨⟨rest, hrest⟩, hr, hs, hb, hg⟩
  refine ⟨fun data ho hd => ?fault, fun data d ho hd => ⟨fun ha => ?unknown, fun st t ha ht => ?set, fun t ha ht => ?setWaits⟩,
    fun l ho hl => ?statistics, fun data d ho hd hn hh hv => ?snapshot, fun ho hv => exec_crViewDelete_none h ho hv,
    fun v ho hv hk hdel hh hship hseal hq => exec_crViewDelete h ho hv ?viewDelete,
    fun v ho hv hk hdel hsealed hh hseal hq => exec_crSeal h ho hv ?sealing,
    fun v seen ho hv hk hdel hn hbase hh hkey => exec_crShip h seen ho hv hbase ?ship, fun data d ho hd => ?reshape,
    fun ho => ⟨fun hre => ?cancels, fun hre => ?cancelRefused⟩, fun seen ho => ⟨fun ha hm => ?solo, fun hn => ?soloRefused⟩,
    fun ho => ⟨fun hm hp => ?handover, fun hn => ?handoverRefused⟩, fun slot agreed ho => ?label, fun data d ho hd => ⟨fun hreg => ?notRegistrar,
      fun hreg hn ha => ?stack⟩, fun ho => ⟨fun ha => ?misaligned, fun ha => ?ringOff, fun h4 ha hheld => ?ringOn⟩⟩
  case fault => exact congrArg Host.Outcome.next (State.onRingData_fault h ho _ hd)
  case unknown => exact congrArg Host.Outcome.next ((State.onRingData_front h ho _ hd).trans (if_pos ha))
  case set =>
    refine (exec_crSettings h ho hd ha).trans (congrArg Host.Outcome.next ?_)
    simp only [show s.setOne r (ringArg0 c) _ _ _ = _ from ht]
  case setWaits =>
    refine (exec_crSettings h ho hd ha).trans (congrArg Host.Outcome.next ?_)
    simp only [show s.setOne r (ringArg0 c) _ _ _ = _ from ht]
  case statistics =>
    intro b w
    exact ⟨fun hw => (exec_crStatistics h ho hl).trans (congrArg Host.Outcome.next (if_pos hw)),
      fun hw => (exec_crStatistics h ho hl).trans (congrArg Host.Outcome.next (if_neg (Bool.eq_false_iff.1 hw)))⟩
  case snapshot =>
    exact congrArg Host.Outcome.next ((State.onRingData_front h ho _ hd).trans ((if_neg (not_not.2 hn)).trans (if_pos ⟨hh, hv⟩)))
  case viewDelete => simp [hk, hdel, hh, hship, hseal, hq]
  case sealing => simp [hk, hdel, hsealed, hh, hseal, hq]
  case ship =>
    rw [show ringArg0 c = a0 from rfl, hn]
    simp [hk, hdel, hh, Option.isSome_iff_ne_none.1 hkey]
  case reshape =>
    intro left
    refine ⟨fun hn => congrArg Host.Outcome.next ((State.onRingData_front h ho _ hd).trans (if_pos hn)), fun h4 h32 hn hre hq hl h6 hm => ?_⟩
    refine congrArg Host.Outcome.next ((State.onRingData_front h ho _ hd).trans ((if_neg ?_).trans (if_neg ?_)))
    · rintro (hx | hx | hx); exacts [h4.not_gt hx, h32.not_gt hx, hx hn]
    · rintro (hx | hx | hx | hx | hx)
      exacts [Bool.eq_false_iff.1 hre hx, Bool.eq_false_iff.1 hq hx, hl.not_gt hx, h6.not_gt hx, hx hm]
  case cancels => exact congrArg Host.Outcome.next ((State.onRing_front h ho _).trans (if_pos hre))
  case cancelRefused => exact congrArg Host.Outcome.next ((State.onRing_front h ho _).trans (if_neg (Bool.eq_false_iff.1 hre)))
  case solo => exact congrArg Host.Outcome.next ((State.onRing_front h ho _).trans (if_pos ⟨ha, hm⟩))
  case soloRefused =>
    refine congrArg Host.Outcome.next ((State.onRing_front h ho _).trans (if_neg fun ⟨ha, hm⟩ => hn.elim (fun h0 => ?_) (Bool.eq_false_iff.1 · hm)))
    exact absurd (h0.symm.trans ha) (by decide)
  case handover => exact congrArg Host.Outcome.next ((State.onRing_front h ho _).trans (if_pos ⟨hm, hp⟩))
  case handoverRefused =>
    exact congrArg Host.Outcome.next ((State.onRing_front h ho _).trans (if_neg fun ⟨hm, hp⟩ => hn.elim (· hm) (· hp)))
  case label =>
    intro x force
    refine ⟨fun ha => congrArg Host.Outcome.next ((State.onRing_front h ho _).trans (if_pos ha)), fun ha hslot hup hlevel hid hfree hmay => ?_⟩
    refine congrArg Host.Outcome.next ((State.onRing_front h ho _).trans ((if_neg ha.not_ge).trans (if_neg ?_)))
    rintro (hx | hx | hx | hx | hx | hx)
    · exact hslot.not_ge hx
    · exact hx hup
    · exact hx hlevel
    · exact Option.isSome_iff_ne_none.1 hid (Option.isNone_iff_eq_none.1 hx)
    · exact hx hfree
    · exact hx hmay
  case notRegistrar => exact congrArg Host.Outcome.next ((State.onRingData_front h ho _ hd).trans (if_pos (Bool.eq_false_iff.1 hreg)))
  case stack =>
    exact congrArg Host.Outcome.next ((State.onRingData_front h ho _ hd).trans ((if_neg (not_not.2 hreg)).trans
      (if_neg (not_or.2 ⟨not_not.2 hn, ha.not_ge⟩))))
  case misaligned => exact congrArg Host.Outcome.next ((State.onRing_front h ho _).trans (if_pos ha))
  case ringOff =>
    have h0 : ¬ a0 % 4096 ≠ 0 := by rw [ha]; decide
    refine congrArg Host.Outcome.next ((State.onRing_front h ho _).trans ((if_neg h0).trans ?_))
    show State.crComplete r crOk 0 0 (if a0 = 0 then _ else _) = _
    rw [if_pos ha, show ringArg0 c = 0 from ha]
  case ringOn =>
    refine ⟨_, congrArg Host.Outcome.next ((State.onRing_front h ho _).trans ((if_neg (not_not.2 h4)).trans
      (congrArg (State.crComplete r crOk 0 0) ((if_neg ha).trans (by rw [hheld]))))), rfl, rfl⟩

end Sys2Proof.Machine
end

section
/-! SUPPORT. Mode commands, mailbox commands and keeper alarms (R504 to R511, R523 to R530, R551). -/

namespace Sys2Proof.Machine

/-! ### Mode commands (R504, R510) -/

section Modes
variable {s : State} {src op : Nat} {anchors : Bool}

/-- A mode command that has been decided with a result. -/
def State.decided (op r : Nat) (s : State) : State := { s with hlt := { s.hlt with cmdBusy := false, cmdOp := op, cmdResult := r } }

theorem State.onHlt_heard (hsrc : src = srcHost ∨ s.supervisorCore = some src) (hb : s.hlt.cmdBusy = false) (body : State → State) :
    s.onHlt src op anchors body =
      if s.hltResult op anchors = hltOk then body (s.decided op (s.hltResult op anchors)) else s.decided op (s.hltResult op anchors) := by
  refine if_neg ?_
  rw [hb, if_neg Bool.false_ne_true, not_not]
  exact hsrc

variable (hsrc : src = srcHost ∨ s.supervisorCore = some src) (hb : s.hlt.cmdBusy = false)
include hsrc hb

theorem State.onHlt_ok (hr : s.hltResult op anchors = hltOk) (body : State → State) : s.onHlt src op anchors body = body (s.decided op hltOk) := by
  rw [State.onHlt_heard hsrc hb, if_pos hr, hr]

theorem State.onHlt_refused (hr : s.hltResult op anchors ≠ hltOk) (body : State → State) :
    s.onHlt src op anchors body = s.decided op (s.hltResult op anchors) := by
  rw [State.onHlt_heard hsrc hb, if_neg hr]

end Modes

section Results
variable {s : State} {op : Nat}

theorem State.hltResult_wrongMode (hp : s.modePermits op = false) (anchors : Bool) : s.hltResult op anchors = hltWrongMode :=
  if_pos (Bool.eq_false_iff.1 hp)

theorem State.hltResult_noImage (hp : s.modePermits op = true) (hi : s.hlt.imageOk = false) (anchors : Bool) :
    s.hltResult op anchors = hltNoImage :=
  (if_neg (not_not.2 hp)).trans (if_pos (Bool.eq_false_iff.1 hi))

theorem State.hltResult_trimInvalid (hp : s.modePermits op = true) (hi : s.hlt.imageOk = true) (hf : s.hlt.fuseOk = false) (anchors : Bool) :
    s.hltResult op anchors = hltTrimInvalid :=
  (if_neg (not_not.2 hp)).trans ((if_neg (not_not.2 hi)).trans (if_pos (Bool.eq_false_iff.1 hf)))

end Results

/-! ### LPDDR training (R502) -/

/-- A fence of channels leaves what training shows. -/
theorem State.fenceChannels_hlt (mask : Nat) (s : State) :
    (s.fenceChannels mask).hlt.trained = s.hlt.trained ∧ (s.fenceChannels mask).hlt.trainFailed = s.hlt.trainFailed := by
  unfold State.fenceChannels
  dsimp only
  split <;> exact ⟨rfl, rfl⟩

/-! ### Mailbox commands (R551) -/

section Mailbox
variable {s : State}

/-- A mailbox command in service, with what it will report. -/
def MbEnd.busy (op len : Nat) (r : MbEnd) : State :=
  { r.s with kpr := { r.s.kpr with mbBusy := true, mbOp := op, mbLen := len, mbPending := some (r.result, r.resp) } }

theorem State.mailbox_run (hb : s.kpr.mbBusy = false) (op want : Nat) (body : List Byte → State → MbEnd) :
    s.mailbox srcHost op want want body = (body (s.mbBytes want) s).busy op want := by
  refine (if_neg (by simp [hb])).trans ?_
  exact congrArg (MbEnd.busy op want) (if_neg fun h => h rfl)

theorem State.mailbox_length (hb : s.kpr.mbBusy = false) {len want : Nat} (hn : len ≠ want) (op : Nat) (body : List Byte → State → MbEnd) :
    s.mailbox srcHost op len want body = MbEnd.busy op len ⟨mbLength, [], s⟩ := by
  refine (if_neg (by simp [hb])).trans ?_
  exact congrArg (MbEnd.busy op len) (if_pos hn)

theorem State.ownerShareCommand_refused {b : List Byte} (hz : slice b 2 6 = zeros 6) (h : s.kpr.tampered = true ∨ s.kpr.alarms ≠ []) :
    s.ownerShareCommand b = ⟨mbNotAllowed, [], s.zeroMailbox⟩ :=
  (if_neg (not_not.2 hz)).trans (if_pos (h.imp_right fun hn he => hn (List.isEmpty_iff.1 he)))

theorem State.arrayInfoCommand_some {a : List Byte} (ha : s.kpr.arrayId = some a) :
    s.arrayInfoCommand = ⟨mbOk, padTo 16 a ++ padTo 8 s.kpr.keyCheck, s⟩ := by
  simp only [State.arrayInfoCommand, ha]

theorem State.arrayInfoCommand_none (ha : s.kpr.arrayId = none) : s.arrayInfoCommand = ⟨mbNotAllowed, [], s⟩ := by
  simp only [State.arrayInfoCommand, ha]

end Mailbox

/-! ### Keeper alarms (R528 to R530) -/

section Alarms
variable {s : State} {code : Nat}

/-- A release of custody cancels at most an activation in the keeper, and leaves the keys. -/
theorem State.releaseCustody_keys {cause : Nat} (hm : cause ≠ causeMetadataFault) :
    (s.releaseCustody cause).kpr = (s.releasing cause).kpr ∧ (s.releaseCustody cause).digestKeys = (s.releasing cause).digestKeys ∧
      (s.releaseCustody cause).cipherSlots = (s.releasing cause).cipherSlots := by
  have hfrom {t u : State} (h : t.standing = { u.standing with hlt := t.hlt }) :
      t.kpr = u.kpr ∧ t.digestKeys = u.digestKeys ∧ t.cipherSlots = u.cipherSlots :=
    ⟨congrArg Standing.kpr h, congrArg Standing.digestKeys h, congrArg Standing.cipherSlots h⟩
  by_cases hd : s.holdsCustody = true
  · have h := (State.releaseCustody_standing hd hm).trans State.modeAfter_standing
    rw [State.dropCustody_standing] at h
    exact ⟨congrArg Standing.kpr h, congrArg Standing.digestKeys h, congrArg Standing.cipherSlots h⟩
  · have hnot : s.releaseCustody cause = ((s.releasing cause).alsoCause cause).modeAfter cause := if_neg hd
    have halso : ((s.releasing cause).alsoCause cause).kpr = (s.releasing cause).kpr ∧
        ((s.releasing cause).alsoCause cause).digestKeys = (s.releasing cause).digestKeys ∧
        ((s.releasing cause).alsoCause cause).cipherSlots = (s.releasing cause).cipherSlots := by
      unfold State.alsoCause
      split <;> exact ⟨rfl, rfl, rfl⟩
    obtain ⟨hk, hdk, hc⟩ := hfrom (State.modeAfter_standing (s := (s.releasing cause).alsoCause cause) (cause := cause))
    rw [hnot]
    exact ⟨hk.trans halso.1, hdk.trans halso.2.1, hc.trans halso.2.2⟩

/-- The keeper but for an activation that a release of custody may cancel. -/
def Keeper.unscheduled (k : Keeper) : Keeper := { k with scheduled := none, handoverSent := false, updResult := 0 }

theorem State.releasing_unscheduled (cause : Nat) : (s.releasing cause).kpr.unscheduled = s.kpr.unscheduled := by
  unfold State.releasing State.cancelActivation
  split
  · rfl
  · split <;> rfl

theorem State.releasing_keys (cause : Nat) : (s.releasing cause).digestKeys = s.digestKeys ∧ (s.releasing cause).cipherSlots = s.cipherSlots := by
  unfold State.releasing State.cancelActivation
  split
  · exact ⟨rfl, rfl⟩
  · split <;> exact ⟨rfl, rfl⟩

theorem State.endUnitService_standing (cls st : Nat) : (s.endUnitService cls st).standing = s.standing := by
  have hunit (t : State) (u : Nat) (f : EngUnit → EngUnit) : (t.modUnit cls u f).standing = t.standing := rfl
  unfold State.endUnitService
  rw [foldl_standing fun _ _ => hunit ..]

theorem State.zeroMailbox_standing : s.zeroMailbox.standing = s.standing := by
  unfold State.zeroMailbox
  rw [foldl_standing fun _ _ => State.setReg_standing ..]

/-- The units' commands end, their key tables are cleared, and nothing else that stands changes. -/
theorem State.clearKeyUnits_standing : s.clearKeyUnits.zeroMailbox.standing = { s.standing with digestKeys := [], cipherSlots := [] } := by
  have hclear (t : State) : ({ t with digestKeys := [], cipherSlots := [], cipherCtx := [] } : State).standing =
      { t.standing with digestKeys := [], cipherSlots := [] } := rfl
  rw [State.zeroMailbox_standing, State.clearKeyUnits, hclear, State.bump_standing, State.bump_standing, State.endUnitService_standing,
    State.endUnitService_standing]

/-- The keeper in the clock in which it raises an alarm. -/
def Keeper.alarmed (code : Nat) (now : Word64) (k : Keeper) : Keeper :=
  { k with os := [], km := [], shares := [], owner := .none, tampered := k.tampered || code == alarmLid,
           alarms := if k.alarms.contains code then k.alarms else k.alarms ++ [code],
           lastAlarm := code, alarmCount := satAt 255 (k.alarmCount + 1), alarmClearAt := now }

theorem Keeper.mem_alarmed (code : Nat) (now : Word64) (k : Keeper) : code ∈ (k.alarmed code now).alarms := by
  show code ∈ if k.alarms.contains code then k.alarms else k.alarms ++ [code]
  split
  · exact List.contains_iff_mem.1 ‹_›
  · exact List.mem_append_right _ (List.mem_singleton_self _)

/-- The alarm as it is raised: the report will be unclean, and the keeper holds no secret any more. -/
def State.raiseAlarm (code : Nat) (s : State) : State :=
  { s with twn := { s.twn with unclean := s.twn.unclean ||| 0x80 }, kpr := s.kpr.alarmed code s.elapsed }

theorem State.alarmNow_eq : s.alarmNow code = (s.clearKeyUnits.zeroMailbox.raiseAlarm code).releaseCustody causeKeeperAlarm := by
  unfold State.alarmNow
  generalize s.clearKeyUnits.zeroMailbox = t
  rfl

/-- What an alarm leaves of the keeper and of the keys (R529). -/
theorem State.alarmNow_keys : (s.alarmNow code).kpr.unscheduled = (s.kpr.alarmed code s.clearKeyUnits.zeroMailbox.elapsed).unscheduled ∧
    (s.alarmNow code).digestKeys = [] ∧ (s.alarmNow code).cipherSlots = [] := by
  have hclear := State.clearKeyUnits_standing (s := s)
  rw [State.alarmNow_eq]
  generalize s.clearKeyUnits.zeroMailbox = t at hclear ⊢
  have hkpr : t.kpr = s.kpr := congrArg Standing.kpr hclear
  obtain ⟨hk, hd, hc⟩ := State.releaseCustody_keys (s := t.raiseAlarm code) (cause := causeKeeperAlarm) (by decide)
  obtain ⟨hd', hc'⟩ := State.releasing_keys (s := t.raiseAlarm code) causeKeeperAlarm
  refine ⟨?_, hd.trans (hd'.trans (congrArg Standing.digestKeys hclear)), hc.trans (hc'.trans (congrArg Standing.cipherSlots hclear))⟩
  rw [hk, State.releasing_unscheduled, ← hkpr]
  rfl

end Alarms

/-! ### Sections (R88, R532) -/

section Sections
variable {s : State} {i dest : Nat}

theorem exec_sectionLoad (hs : s.supervisorRuns = true) (hi : i < (s.kpr.slotOf s.hlt.slot).sections) :
    exec (.sectionLoad i dest) s =
      let x := s.kpr.slotOf s.hlt.slot
      let l := s.loadSection dest (x.sectionBytes (x.section i))
      let u : State := { l.2 with kpr := { l.2.kpr with sectionReport := some (i, l.1 && x.sectionGood (x.section i)) } }
      .next (if x.sectionGood (x.section i) = true then u else u.beginFallback) :=
  congrArg Host.Outcome.next (if_neg (not_or.2 ⟨not_not.2 hs, hi.not_ge⟩))

theorem State.loadSection_unit {bs : List Byte} (h : inUnitStore dest bs.length = true) : s.loadSection dest bs = (true, s.putBytes dest bs) :=
  if_pos h

theorem State.loadSection_fails {bs : List Byte} {k : BusKind} {a : Nat} {t : Nat × State} (h : inUnitStore dest bs.length = false)
    (hw : s.writeSpan 0x60 dest bs = (some (k, a), t)) : s.loadSection dest bs = (false, t.2.busError k 0x60 a) := by
  rw [State.loadSection, if_neg (Bool.eq_false_iff.1 h)]
  simp only [hw]

end Sections

/-- Settles O58: a mode command that is decided OK has its effect on the decided state; a mailbox command runs on the buffer it finds; an
alarm clears the keys, and its release of custody leaves them cleared. -/
theorem modesAndSecurity : Obligations.ModesAndSecurity := by
  unfold Obligations.ModesAndSecurity
  intro s
  refine ⟨fun src hsrc hb => ?hlt, fun op anchors => ⟨fun hp => State.hltResult_wrongMode hp _, fun hp hi => State.hltResult_noImage hp hi _,
      fun hp hi hf => State.hltResult_trimInvalid hp hi hf _⟩,
    fun mask hm ht hmode => ?trains, fun failed ht => ?trained, fun hb => ?mailbox, fun r hr => ?reports, fun code h1 h6 => ?alarm,
    fun code hc hp => congrArg Host.Outcome.next (if_pos ⟨rfl, hc, hp⟩), fun passes => congrArg Host.Outcome.next (if_neg fun h => h.2.1 rfl),
    fun i dest hs hi => ?sectionLoad⟩
  case hlt =>
    intro decided
    have hok {op : Nat} {anchors : Bool} (hr : s.hltResult op anchors = hltOk) (body : State → State) :
        s.onHlt src op anchors body = body (decided op hltOk) := State.onHlt_ok hsrc hb hr body
    exact ⟨fun found seen shows hr => congrArg Host.Outcome.next (State.onHlt_refused hsrc hb hr _),
      fun found seen shows hr => congrArg Host.Outcome.next (hok hr _),
      fun anchors seen hr => ⟨_, rfl, congrArg Host.Outcome.next (hok hr _)⟩,
      fun hr => congrArg Host.Outcome.next (hok hr _), fun hr => congrArg Host.Outcome.next (hok hr _),
      fun hr seen shows => ⟨_, rfl, congrArg Host.Outcome.next (hok hr _)⟩⟩
  case trains =>
    refine congrArg Host.Outcome.next (if_neg ?_)
    rintro (h | h | h); exacts [h hm, h ht, h hmode]
  case trained =>
    obtain ⟨htrained, hfailed⟩ := State.fenceChannels_hlt (s.hlt.training &&& failed).toNat s
    refine ⟨_, congrArg Host.Outcome.next (if_neg ht), rfl, ?_, ?_⟩
    · exact congrArg (fun x => (x ||| s.hlt.training) &&& ~~~ (s.hlt.training &&& failed)) htrained
    · exact congrArg (fun x => (x &&& ~~~ s.hlt.training) ||| (s.hlt.training &&& failed)) hfailed
  case mailbox =>
    intro done
    have hrun (op want : Nat) (body : List Byte → State → MbEnd) : s.mailbox srcHost op want want body = (body (s.mbBytes want) s).busy op want :=
      State.mailbox_run hb op want body
    refine ⟨fun len hn => congrArg Host.Outcome.next (State.mailbox_length hb hn 1 _), congrArg Host.Outcome.next (hrun 1 0 _),
      congrArg Host.Outcome.next (hrun 2 32 _), fun ht => if_pos ht, fun ht => ?attests, congrArg Host.Outcome.next (hrun 3 64 _),
      fun hz h => State.ownerShareCommand_refused hz h, congrArg Host.Outcome.next (hrun 4 40 _),
      fun hz ho => (if_neg (not_not.2 hz)).trans (if_pos ho), fun a ha => ?array, fun ha => ?noArray, congrArg Host.Outcome.next (hrun 6 0 _)⟩
    case attests => exact congrArg MbEnd.resp (if_neg (Bool.eq_false_iff.1 ht))
    case array => exact congrArg Host.Outcome.next ((hrun 5 0 _).trans (congrArg (MbEnd.busy 5 0) (State.arrayInfoCommand_some ha)))
    case noArray => exact congrArg Host.Outcome.next ((hrun 5 0 _).trans (congrArg (MbEnd.busy 5 0) (State.arrayInfoCommand_none ha)))
  case reports =>
    refine ⟨s.mailboxDone, rfl, ?_⟩
    unfold State.mailboxDone
    simp only [hr, and_self]
  case alarm =>
    refine ⟨congrArg Host.Outcome.next (if_pos ⟨h1, h6⟩), fun hp hc => if_pos ⟨.inl hp, hc⟩, fun hd hc => ?_⟩
    have hnow : s.keeperAlarm code = s.alarmNow code := if_neg fun h => h.1.elim hd hc
    obtain ⟨hk, hdigest, hcipher⟩ := State.alarmNow_keys (s := s) (code := code)
    rw [hnow]
    generalize s.alarmNow code = u at hk hdigest hcipher ⊢
    generalize s.clearKeyUnits.zeroMailbox.elapsed = now at hk
    exact ⟨congrArg Keeper.os hk, congrArg Keeper.km hk, congrArg Keeper.shares hk, congrArg Keeper.owner hk, hdigest, hcipher,
      congrArg Keeper.lastAlarm hk, congrArg Keeper.tampered hk, (congrArg Keeper.arrayId hk :), (congrArg Keeper.keyCheck hk :),
      (show u.kpr.alarms = (s.kpr.alarmed code now).alarms from (congrArg Keeper.alarms hk :)) ▸ Keeper.mem_alarmed code now s.kpr⟩
  case sectionLoad =>
    intro x l t
    refine ⟨fun hg => ?_, fun hg => ?_, State.loadSection_unit, fun k a t' h hw => State.loadSection_fails h hw⟩
    · refine (exec_sectionLoad hs hi).trans (congrArg Host.Outcome.next ((if_pos hg).trans ?_))
      rw [show (s.kpr.slotOf s.hlt.slot).sectionGood _ = true from hg, Bool.and_true]
    · refine (exec_sectionLoad hs hi).trans (congrArg Host.Outcome.next ((if_neg (Bool.eq_false_iff.1 hg)).trans ?_))
      rw [show (s.kpr.slotOf s.hlt.slot).sectionGood _ = false from hg, Bool.and_false]

end Sys2Proof.Machine
end

section
/-! SUPPORT. Slot commands, activation, trial and fallback (R538 to R544, R552). -/

namespace Sys2Proof.Machine

/-! ### Slots and the update log (R536) -/

section Slots
variable {k : Keeper}

@[simp] theorem Keeper.slotOf_setSlot (n : Nat) (x : Slot) : (k.setSlot n x).slotOf n = x := by
  unfold Keeper.setSlot Keeper.slotOf
  split <;> rfl

/-- A record of the log changes none of what the fuses and the trial hold. -/
theorem Keeper.commit_keeps (level slot : Nat) : (k.commit level slot).trial = k.trial ∧ (k.commit level slot).confirmed = k.confirmed ∧
    (k.commit level slot).svnFloor = k.svnFloor := by
  unfold Keeper.commit
  split
  · exact ⟨rfl, rfl, rfl⟩
  · dsimp only
    split <;> exact ⟨rfl, rfl, rfl⟩

end Slots

/-! ### Slot commands (R538, R552) -/

section Commands
variable {s : State} {slot : Nat}

/-- A slot command that has been taken in. -/
def State.updAsked (op slot : Nat) (s : State) : State := { s with kpr := { s.kpr with updOp := op, updSlot := slot } }

theorem State.onUpd_taken (hb : s.kpr.updBusy = false) {op : Nat} (hs : slot = 1 ∨ slot = 2 ∨ op = 5) (body : State → State) :
    s.onUpd srcHost op slot body = body (s.updAsked op slot) := by
  refine if_neg ?_
  rintro (h | h | h); exacts [h rfl, Bool.eq_false_iff.1 hb h, h hs]

theorem State.updErase_protected (hg : s.guarded = false) (hp : s.slotProtected slot = true) : s.updErase slot = s.updEnds updProtected :=
  (if_neg (Bool.eq_false_iff.1 hg)).trans (if_pos hp)

theorem State.updErase_runs (hg : s.guarded = false) (hp : s.slotProtected slot = false) :
    s.updErase slot = (s.modSlot slot fun _ => { image := [], result := updBlank }).updTakes (some updOk) :=
  (if_neg (Bool.eq_false_iff.1 hg)).trans (if_neg (Bool.eq_false_iff.1 hp))

theorem State.updWrite_protected (hg : s.guarded = false) (hp : s.slotProtected slot = true) : s.updWrite slot = s.updEnds updProtected :=
  (if_neg (Bool.eq_false_iff.1 hg)).trans (if_pos hp)

theorem State.updWrite_beyond (hg : s.guarded = false) (hp : s.slotProtected slot = false) (ha : 0x4000000 < s.reg rUpdAddr + 256) :
    s.updWrite slot = s.updEnds updOutOfRange :=
  (if_neg (Bool.eq_false_iff.1 hg)).trans ((if_neg (Bool.eq_false_iff.1 hp)).trans (if_pos ha))

/-- A WRITE that is taken: the slot holds the page, no longer verified. -/
theorem State.updWrite_runs (hg : s.guarded = false) (hp : s.slotProtected slot = false) (ha : s.reg rUpdAddr + 256 ≤ 0x4000000) :
    (s.updWrite slot).kpr.updBusy = true ∧
      (s.updWrite slot).kpr.slotOf slot = { (s.kpr.slotOf slot).put (s.reg rUpdAddr) s.updPage with result := updNotVerified } := by
  rw [State.updWrite, if_neg (Bool.eq_false_iff.1 hg), if_neg (Bool.eq_false_iff.1 hp), if_neg ha.not_gt]
  exact ⟨rfl, Keeper.slotOf_setSlot ..⟩

/-! ### Scheduling (R539, R541) -/

theorem State.updSchedule_unverified (hg : s.guarded = false) (hr : (s.kpr.slotOf slot).result ≠ 0) :
    s.updSchedule slot = s.updEnds updNotVerified :=
  (if_neg (Bool.eq_false_iff.1 hg)).trans (if_pos hr)

theorem State.updSchedule_level (hg : s.guarded = false) (hr : (s.kpr.slotOf slot).result = 0)
    (hl : s.levelMayRun (s.kpr.slotOf slot).level = false) : s.updSchedule slot = s.updEnds updLevel :=
  (if_neg (Bool.eq_false_iff.1 hg)).trans ((if_neg (not_not.2 hr)).trans (if_pos (Bool.eq_false_iff.1 hl)))

/-- A verified image of a level that may run goes by the mode. -/
theorem State.updSchedule_fits (hg : s.guarded = false) (hr : (s.kpr.slotOf slot).result = 0)
    (hl : s.levelMayRun (s.kpr.slotOf slot).level = true) : s.updSchedule slot =
      if s.hlt.mode = .quiesce ∧ s.hlt.drained = true then
        (s.scheduleAt slot (s.reg64 rUpdActCycle)).2.updEnds (s.scheduleAt slot (s.reg64 rUpdActCycle)).1
      else if ¬ s.pairedClean = true ∨ ¬ s.twn.linkUp = true then s.updEnds updNotPaired
      else (s.tellPartner msgSchedule (leBytes 1 slot ++ leBytes 8 (s.reg64 rUpdActCycle))).updTakes none :=
  (if_neg (Bool.eq_false_iff.1 hg)).trans ((if_neg (not_not.2 hr)).trans (if_neg (not_not.2 hl)))

theorem State.scheduleAt_early {a : Nat} (ha : a < s.acc.openCycle + 4) : s.scheduleAt slot a = (updCycle, s) := if_pos ha

theorem State.updCancel_none (h : s.kpr.scheduled = none) : s.updCancel = s.updEnds updOk := by
  simp only [State.updCancel, h]

theorem State.updCancel_sent {n : Nat} {a : Word64} (h : s.kpr.scheduled = some (n, a)) (hh : s.kpr.handoverSent = true) :
    s.updCancel = s.updEnds updTooLate := by
  unfold State.updCancel
  simp only [h]
  exact if_pos (.inl hh)

theorem State.updCancel_cancels {n : Nat} {a : Word64} (h : s.kpr.scheduled = some (n, a)) (hh : s.kpr.handoverSent = false)
    (hm : s.hlt.mode ≠ .quiesce) : s.updCancel = ({ s with kpr := { s.kpr with scheduled := none } } : State).updEnds updOk := by
  unfold State.updCancel
  simp only [h]
  exact if_neg (not_or.2 ⟨Bool.eq_false_iff.1 hh, fun h => hm h.1⟩)

end Commands

/-! ### Trial and fallback (R542, R543) -/

section Trial
variable {s : State}

theorem State.sendTwin_kpr (channel : Nat) (payload : List Byte) : (s.sendTwin channel payload).kpr = s.kpr := by
  unfold State.sendTwin
  split_ifs <;> rfl

/-- A confirmed trial: the state before the levels of both heads are compared. -/
def State.confirming (s : State) : State :=
  { s with kpr := { (s.kpr.append s.hlt.slot 0 0).blowFuses (s.kpr.slotOf s.hlt.slot) with trial := false, confirmed := true } }

theorem State.commitShared_keeps : s.commitShared.kpr.trial = s.kpr.trial ∧ s.commitShared.kpr.confirmed = s.kpr.confirmed ∧
    s.commitShared.kpr.svnFloor = s.kpr.svnFloor := by
  unfold State.commitShared
  split
  · exact Keeper.commit_keeps _ _
  · exact ⟨rfl, rfl, rfl⟩

theorem State.confirmTrial_keeper : s.confirmTrial.kpr.trial = false ∧ s.confirmTrial.kpr.confirmed = true ∧
    s.confirmTrial.kpr.svnFloor = max s.kpr.svnFloor (s.kpr.slotOf s.hlt.slot).svn := by
  have htold : s.confirmTrial.kpr = s.confirming.commitShared.kpr := State.sendTwin_kpr ..
  rw [htold]
  obtain ⟨ht, hc, hv⟩ := State.commitShared_keeps (s := s.confirming)
  exact ⟨ht, hc, hv⟩

theorem exec_updCommandComplete {r : Nat} (hb : s.kpr.updBusy = true) (hp : s.kpr.updPending = some r) : exec (.updCommandComplete []) s =
    .next { s with kpr := { s.kpr with updBusy := false, updPending := none, updResult := r } } := by
  refine congrArg Host.Outcome.next ((if_neg (not_not.2 hb)).trans ?_)
  simp only [hp, List.filter_nil, List.isEmpty_nil, not_true, and_false, if_false]

theorem exec_fallbackActivation {since : Word64} (hf : s.kpr.fallbackAt = some since) (hd : s.passed since 1000000000 = true) :
    exec .fallbackActivation s = .next s.activateImage := by
  show execFallbackActivation s = _
  unfold execFallbackActivation
  simp only [hf]
  exact congrArg Host.Outcome.next (if_pos hd)

/-- A head that is not PAIRED asks for no handover as it falls back. -/
theorem State.beginFallback_unpaired (hf : s.kpr.fallbackAt = none) (hs : s.hlt.slot ≠ 0) (hm : s.hlt.mode ≠ .paired) :
    s.beginFallback = { s with kpr := { s.kpr.append (otherSlot s.hlt.slot) 2 0 with fallbackAt := some s.elapsed } } := by
  refine (if_neg ?_).trans (if_neg fun h => hm h.2.1)
  rintro (h | h)
  · rw [hf] at h; exact Bool.false_ne_true h
  · exact hs h

end Trial

/-- Settles O59: a slot command that is taken in goes by the guards, the slot's use and the image it finds, in that order. -/
theorem firmwareUpdate : Obligations.FirmwareUpdate := by
  unfold Obligations.FirmwareUpdate
  intro s slot hslot
  refine ⟨fun hb => ?commands, fun r hb hp => exec_updCommandComplete hb hp, fun src hs ht hf => ⟨congrArg Host.Outcome.next (if_pos ?confirms),
      State.confirmTrial_keeper⟩, fun src v h => congrArg Host.Outcome.next (if_neg ?discards), fun ht hd => congrArg Host.Outcome.next (if_pos ⟨ht, hd⟩),
    State.beginFallback_unpaired, fun since hf hd => exec_fallbackActivation hf hd,
    fun i hi => ⟨congrArg Host.Outcome.next (if_pos hi), congrArg Host.Outcome.next (if_pos hi)⟩⟩
  case confirms => exact ⟨hs, rfl, ht, by rw [hf]; rfl⟩
  case discards =>
    rintro ⟨-, hv, ht, -⟩
    exact h.elim (fun hn => hn (BitVec.eq_of_toNat_eq hv)) fun hn => Bool.eq_false_iff.1 hn ht
  case commands =>
    intro at_ ends
    have htaken (op : Nat) (body : State → State) : s.onUpd srcHost op slot body = body (at_ op slot) :=
      State.onUpd_taken hb (hslot.imp_right .inl) body
    have hcancel : s.onUpd srcHost 5 0 State.updCancel = (at_ 5 0).updCancel := State.onUpd_taken hb (.inr (.inr rfl)) _
    have hends {op r : Nat} {body : State → State} (h : body (at_ op slot) = (at_ op slot).updEnds r) :
        ends (.next (s.onUpd srcHost op slot body)) op r := congrArg Host.Outcome.next ((htaken op body).trans h)
    refine ⟨fun hg => ⟨hends (if_pos hg), hends (if_pos hg), hends (if_pos hg)⟩,
      fun hp => ⟨hends (if_pos hp), fun hg => ⟨hends (State.updErase_protected hg hp), hends (State.updWrite_protected hg hp)⟩⟩,
      fun hg hp => ⟨?erase, fun ha => hends (State.updWrite_beyond hg hp ha), fun ha => ?write⟩, fun hp => ?verify,
      fun hg => ⟨fun hr => hends (State.updSchedule_unverified hg hr), fun hr hl => hends (State.updSchedule_level hg hr hl),
        fun hr hl => ⟨fun hm hc hu => ?asks, fun hm hd ha => ?early, fun hq hm => ?unpaired⟩⟩,
      fun hn => ?none, fun n a hn => ⟨fun hh => ?sent, fun hh hm => ?cancels⟩⟩
    case erase => exact congrArg Host.Outcome.next ((htaken 1 _).trans (State.updErase_runs (s := at_ 1 slot) hg hp))
    case write => exact ⟨_, congrArg Host.Outcome.next (htaken 2 _), State.updWrite_runs (s := at_ 2 slot) hg hp ha⟩
    case verify => exact congrArg Host.Outcome.next ((htaken 3 _).trans (if_neg (Bool.eq_false_iff.1 hp)))
    case asks =>
      have hpaired : (at_ 4 slot).pairedClean = true := by simp [State.pairedClean, at_, hm, hc]
      refine congrArg Host.Outcome.next ((htaken 4 _).trans ((State.updSchedule_fits (s := at_ 4 slot) hg hr hl).trans ((if_neg ?_).trans (if_neg ?_))))
      · exact fun h => absurd (hm.symm.trans h.1) (by decide)
      · exact not_or.2 ⟨not_not.2 hpaired, not_not.2 hu⟩
    case early =>
      refine hends ((State.updSchedule_fits (s := at_ 4 slot) hg hr hl).trans ((if_pos ⟨hm, hd⟩).trans ?_))
      rw [State.scheduleAt_early (s := at_ 4 slot) (a := (at_ 4 slot).reg64 rUpdActCycle) ha]
    case unpaired =>
      have hpaired : (at_ 4 slot).pairedClean = false := by simp [State.pairedClean, at_, hm]
      exact hends ((State.updSchedule_fits (s := at_ 4 slot) hg hr hl).trans ((if_neg fun h => hq h.1).trans
        (if_pos (.inl (Bool.eq_false_iff.1 hpaired)))))
    case none => exact congrArg Host.Outcome.next (hcancel.trans (State.updCancel_none (s := at_ 5 0) hn))
    case sent => exact congrArg Host.Outcome.next (hcancel.trans (State.updCancel_sent (s := at_ 5 0) hn hh))
    case cancels => exact ⟨_, congrArg Host.Outcome.next (hcancel.trans (State.updCancel_cancels (s := at_ 5 0) hn hh hm)), rfl, rfl⟩

end Sys2Proof.Machine
end
